-- ==== Sys2Proof/Word.lean ====
section
/-! DEFINITION. The word types of the part: bytes, 16-, 32- and 64-bit words and the 128-bit instruction word (R9, R11, R135). -/

namespace Sys2Proof

/-- A byte of memory. -/
abbrev Byte := BitVec 8

/-- A DRAM symbol (R334) and an FP16 or BF16 pattern. -/
abbrev W16 := BitVec 16

/-- A 32-bit register or an FP32 pattern. -/
abbrev W32 := BitVec 32

/-- A 64-bit register or memory word. -/
abbrev W64 := BitVec 64

/-- One 16-byte tile instruction, byte 0 in bits [7:0] (R135, R138). -/
abbrev W128 := BitVec 128

end Sys2Proof
end

