-- ==== Sys2Proof/Config.lean ====
section
/-! DEFINITION. What the spec fixes per variant, and the free values: constants without a body that stand for values the
spec leaves open. -/

namespace Sys2Proof

/-- The three variants (R1). -/
inductive Variant where
  | vxp2 | vxp4 | vxp8
  deriving DecidableEq, Repr

/-- The grade of a part (R4). -/
inductive Grade where
  | aq | iq
  deriving DecidableEq, Repr

/-- Compute dies of a variant (R1). -/
def Variant.dies : Variant → Nat
  | .vxp2 => 1
  | .vxp4 => 3
  | .vxp8 => 7

/-- DRAM code groups of a variant (R1, R25): two of the hub and two of each compute die. -/
def Variant.groups : Variant → Nat
  | .vxp2 => 4
  | .vxp4 => 8
  | .vxp8 => 16

/-- 2 MiB pages of unified device memory (R1, R318): 8,192 frames in each group. -/
def Variant.pages : Variant → Nat
  | .vxp2 => 32768
  | .vxp4 => 65536
  | .vxp8 => 131072

/-- Log2 of the DRAM stack height (R7, R25). -/
def Variant.stackLog2 : Variant → Nat
  | .vxp2 => 2
  | .vxp4 => 3
  | .vxp8 => 4

/-- The power-cap range in W (R1, R476). -/
def Variant.capRange : Variant → Nat × Nat
  | .vxp2 => (20, 60)
  | .vxp4 => (30, 120)
  | .vxp8 => (40, 240)

/-- The ring links of a variant (R36): none on VXP2, otherwise one per die. -/
def Variant.ringLinks : Variant → Nat
  | .vxp2 => 0
  | .vxp4 => 3
  | .vxp8 => 7

/-- The FREE VALUE of the functions of R224, whose results the spec bounds and fixes as a mapping but does not give:
function code, rounding mode (true: toward zero) and FP32 input give an FP32 result. Assumption log 10. -/
opaque Config.gateFunction : Nat → Bool → W32 → W32

/-- The FREE VALUE of a byte the spec leaves open, drawn afresh by a counter of the state. Assumption log 11. -/
opaque Config.freeByte : Nat → Byte

/-- The FREE VALUE of a 64-bit quantity the spec leaves open, drawn afresh by a counter of the state. Assumption log 11. -/
opaque Config.freeWord : Nat → W64

/-- Value `k` of what a stage of the image pipeline makes of a whole plane, where the spec gives it no arithmetic: stage number, settings,
plane (R362, R364; log 85). -/
opaque Config.imageStage : Nat → List Nat → List Rat → Nat → Rat

/-- The neighbours of a pixel of a frame of a width and a height among which defective pixels are found, as places in the frame: R364 says
that they have the pixel's colour, and not which they are (log 85). -/
opaque Config.neighbours : Nat → Nat → Nat → List Nat

/-- A byte the spec leaves open in what the image pipeline writes (R359, R366): a byte of a part of a frame (0 output 0, 3 the raw slot) at
an offset, from the settings and the geometry word that its pixels depend on, the tuning set, and the lines of each layer with the line from which it is
excluded (log 85). -/
opaque Config.imageByte : Nat → Nat → List Nat → List Byte → List (List (List Byte × Bool) × Option Nat) → Byte

/-- A byte of a relay's offer, grant, decline, RETRY or landing notice (0 to 4) as a ring port carries it: R272 gives what they say, and no
layout. Assumption log 170. -/
opaque Config.relayByte : Nat → List Nat → Nat → Byte

/-- A byte of a key table entry's wrapped part (R434): what AES key wrap makes of keys that nothing shows (R433), from the serial numbers of
the KEK and of the client's memory key, its compatibility key with 1 added (0 for none), and the byte's offset. Assumption log 171. -/
opaque Config.wrappedByte : Nat → Nat → Nat → Nat → Byte

/-- Whether the period of the Hann window of R387 is the number of its samples (log 93). -/
opaque Config.hannPeriodic : Bool

/-- How much of the power of a bin of the FFT a mel band takes (R387): the spec gives the bands' number and range, and neither their edges nor
their shape (log 93). -/
opaque Config.melWeight : Nat → Nat → Rat

/-- How the peak of a compute die at a DVFS point, beyond its floor, falls to the engines of a kind, as a weight less 1 (R469); and the
peak of the hub die at a point above 0, in mW. Both are open (log 172). -/
opaque Config.engineWeight : Nat → Nat → Nat
opaque Config.hubPeak : Nat → Nat

end Sys2Proof
end

