-- ==== Sys2Proof/Syntax.lean ====
section
/-! DEFINITION. The commands of the part: one constructor of `Instr` for each row of spec/opcode_table.json, in the
table's order, with the operands its rule gives it. The table gives no row any bits, so an operand is a field of the
rule's own structure, or an input that the rule takes from outside the part (a pin, a sensor, a hardware error). -/

namespace Sys2Proof

/-- An engine of a running command: the die (0 to 6, or 8 for Kindling on the hub), the dispatcher table entry of the run
(R22) and the engine's position in the command (R130). -/
structure Eng where
  die : Nat
  entry : Nat
  pos : Nat
  deriving DecidableEq, Repr

/-- What the hardware checks of an engine found while it ran one instruction (R199 to R203, R234, R241, R248, R269, R303):
an input of the command, since the spec gives faults no cause inside the part. -/
inductive EngCheck where
  /-- Every check passed. -/
  | pass
  /-- The engine's own comparison or residue check mismatched. -/
  | mismatch
  /-- An error in the array of the MXE in chunk `m` of the first output tile of an engine's band (R199, R200): `kind` 1, the bead count
  at a row and column is wrong by `by_`; 2, the sum of the row's check is; 3, the sum of the column's check is. -/
  | castout (tile row col kind m : Nat) (by_ : Int)
  /-- Rescale comparison mismatch of the MXE at a row and column (R201). -/
  | rescale (row col : Nat)
  /-- Mismatch in the fused gate engine's evaluator (R234). -/
  | gateMismatch
  /-- Uncorrectable error in the engine's store. -/
  | storeUncorrectable
  /-- Uncorrectable error in the fused gate engine's store (R234). -/
  | gateStoreUncorrectable
  /-- Single-bit error in the engine's store, which its SECDED corrects. -/
  | storeCorrected
  /-- Single-bit error in the fused gate engine's store (R234). -/
  | gateStoreCorrected
  deriving DecidableEq, Repr

/-- The 16-byte header of an in-package message (R29). -/
structure Header where
  opcode : Nat
  tag : Nat
  epoch : Nat
  dst : Nat
  src : Nat
  addr : Nat
  client : Nat
  len : Nat
  clinker : Bool
  reissued : Bool
  deriving DecidableEq, Repr

/-- A message with its data (R29, R30). -/
structure Msg where
  hdr : Header
  data : List Byte
  deriving DecidableEq, Repr

/-- The data of a DISPATCH (R106); `reason` and `curEpoch` are the fields of a BOUNCE (R107). -/
structure Dispatch where
  seq : Nat
  ring : Nat
  index : Nat
  op : Nat
  kind : Nat
  width : Nat
  cmdAddr : Nat
  deadline : Nat
  tallyEpoch : Nat
  avoid : Nat
  headerEpoch : Nat
  reason : Nat
  curEpoch : Nat
  deriving DecidableEq, Repr

/-- The data of a TALLY (R108), with the die that sent it and the epoch of the tally unit under which it is addressed (R111). -/
structure TallyMsg where
  seq : Nat
  ring : Nat
  index : Nat
  width : Nat
  tallyEpoch : Nat
  die : Nat
  engineNs : Nat
  bytesL1 : Nat
  bytesL2 : Nat
  bytesL3 : Nat
  bytesL4 : Nat
  energyNj : Nat
  headerEpoch : Nat
  deriving DecidableEq, Repr

/-- What in a unit an EVENT is about where R31 has no unit of its own for it (R409): the memory of Tinder, or the compare of the duplicated
logic of the scheduler front end or the tally unit. -/
inductive FaultSource where
  | unit | tinder | compare
  deriving DecidableEq, Repr

/-- What an EVENT reports (R30, R409): the detail code or catalogue entry, the unit, and the command concerned, if any; of a
retained ledger entry found bad (R87), its number in the ledger and the bits in which its bytes are wrong. -/
structure FaultReport where
  cls : Nat
  source : FaultSource := .unit
  unit : Nat
  detail : Nat
  client : Option Nat
  ring : Nat
  seq : Nat
  index : Option Nat
  entry : Option (Nat × List Byte)
  deriving DecidableEq, Repr

/-- A block offer between relays (R272): the pass, the origin and the hop count; the receiving participant's descriptor and the place
that the sender reads the block from, as this package reaches them; the pass's client; the sending relay's die; the role epoch
under which the receiving die is addressed; and the ring port by which it leaves for another package (R278). Dies of another package are
numbered from 16 * (package + 1). -/
structure Offer where
  passId : Nat
  origin : Nat
  hop : Nat
  descAddr : Nat
  srcAddr : Nat
  client : Nat
  sender : Nat := 0
  epoch : Nat := 0
  port : Nat := 0
  deriving DecidableEq, Repr

/-- How a host read ended (R343, R345). -/
inductive HostStatus where
  | success | unsupportedRequest | completerAbort | translationFailure | poisoned
  deriving DecidableEq, Repr

/-- What a camera receiver found wrong with a packet (R351). -/
inductive PacketError where
  | none | eccCorrected | headerLost | crc | overflow | sot | sync
  deriving DecidableEq, Repr

/-- One trace packet (R485): the source unit, the client, the stamp's timebase value and the payload bytes. -/
structure TracePacket where
  ty : Nat
  unit : Nat
  client : Nat
  stamp : Nat
  payload : List Byte
  deriving DecidableEq, Repr

/-- What a ring port finds in a key-agreement message (R441, R509). -/
structure KeyMsg where
  chainOk : Bool
  signatureOk : Bool
  ringTag : Nat
  pkgId : Nat
  ringSize : Nat
  deriving DecidableEq, Repr

/-- A ring-port frame as received (R508, R440): its header fields, its payload, and whether FEC and the tag pass. -/
structure RingFrame where
  phase : Nat
  kind : Nat
  srcPkg : Nat
  dstPkg : Nat
  counter : Nat
  payload : List Byte
  fecOk : Bool
  tagOk : Bool
  ackCounter : Nat
  deriving DecidableEq, Repr

/-- A firmware image (R445): the 512 bytes of its header, and what SHA-384 and ECDSA say of it: the digest matches its body, and the
signature verifies under a certificate that chains to the fused root (R446). -/
structure Image where
  header : List Byte
  digestOk : Bool
  signatureOk : Bool
  deriving DecidableEq, Repr

/-- The commands: one constructor per row of spec/opcode_table.json. -/
inductive Instr where
  /-- MISALIGNED_REG_ACCESS (R12): A host BAR0 access that is not an aligned 32-bit or 64-bit access completes without error: a read returns all ones, a write is discarded, and the access is recorded. -/
  | misalignedRegAccess (off size : Nat) (write : Bool)
  /-- EMPTY_OFFSET_ACCESS (R12): A host access to a BAR0 offset that holds no register reads zero or is discarded, and is recorded in HST_ACC_LOG. -/
  | emptyOffsetAccess (off size : Nat) (write : Bool)
  /-- REG_WRITE (R15): A host write to a register that has no row of its own is applied whole, subject to the access codes and the expert-field rule. -/
  | regWrite (off : Nat) (wide : Bool) (value : W64)
  /-- LATCHED_LOW_READ (R523): A 32-bit read of the low word of a 64-bit register with live state copies its high word into the high-word latch; with `wide`, an aligned 64-bit read, which returns both words of one instant (R11) and uses no latch. -/
  | latchedLowRead (off : Nat) (wide : Bool)
  /-- LATCHED_HIGH_READ (R523): A 32-bit read of the high word returns the latch and empties it, or returns the current high word when the latch is empty. -/
  | latchedHighRead (off : Nat)
  /-- BAR4_READ (R505): A host read through BAR4 returns decrypted unified device memory, or zeros for a page that is not backed or lies beyond device memory. -/
  | bar4Read (off len : Nat)
  /-- BAR4_WRITE (R319): A host write through BAR4 is stored in a backed page and discarded for a page that is not backed or is a system page. -/
  | bar4Write (off : Nat) (data : List Byte)
  /-- FLIT_RECEIVE (R28): A link end receives a Hentex flit, checks its CRC, answers a bad flit with nak, and delivers or discards its messages. -/
  | flitReceive (link module : Nat) (flit : List Byte)
  /-- FLIT_NAK_REPLAY (R34): A nak makes the sender replay from the flit after ack_seq; the eighth successive replay of one flit takes the link down. -/
  | flitNakReplay (link module ackSeq : Nat)
  /-- LINK_ACK_TIMEOUT (R34): No acknowledgement for 2 µs while flits are outstanding takes the link down. -/
  | linkAckTimeout (link module : Nat)
  /-- MODULE_FAIL (R27): A link module that fails training or exhausts lane repair leaves the link running on the other module and sets module_degraded. -/
  | moduleFail (link module : Nat)
  /-- LINK_TRAINED (R32): A link completes training: credits are granted per class and the link end's epoch advances as the link comes up. -/
  | linkTrained (link modules lanesRepaired : Nat)
  /-- REQUEST_REISSUE (R35): A request with no response 5 µs after its link went down is reissued on the new route with reissued set. -/
  | requestReissue (src tag : Nat)
  /-- READ (R30): A READ request reaches its responder, which returns READ_DATA, RETRY or BUS_ERROR. -/
  | read (m : Msg) (errs : List (Nat × List W16))
  /-- WRITE (R339): A WRITE request reaches its responder; at a DMC it is merged into the merge buffer or written straight to DRAM and acknowledged. -/
  | write (m : Msg) (errs : List (Nat × List W16))
  /-- READ_DATA (R343): A READ_DATA response reaches the requester, which uses the data or handles the clinker mark. -/
  | readData (m : Msg)
  /-- WRITE_ACK (R339): A WRITE_ACK response reaches the requester, completing its write. -/
  | writeAck (m : Msg)
  /-- RETRY (R41): A RETRY response reaches the requester, which learns the new epoch and tries again or has its command killed and re-placed. -/
  | retry (m : Msg)
  /-- BUS_ERROR (R343): A BUS_ERROR response reaches a command requester, which fails its command with FAULT_DATA 0x0D02. -/
  | busError (m : Msg)
  /-- DISPATCH_PLACE (R106): A DISPATCH PLACE reaches a dispatcher, which takes the lowest free engines outside the avoid set or returns the message as BOUNCE. -/
  | dispatchPlace (die : Nat) (m : Dispatch)
  /-- DISPATCH_KILL (R114): A DISPATCH KILL reaches a dispatcher, which within 2 µs stops the command's engines, advances their epochs, discards its requests and frees its Hearth buffers. -/
  | dispatchKill (die : Nat) (m : Dispatch)
  /-- BOUNCE (R107): A BOUNCE reaches the scheduler, which corrects its view of the die and places the command again. -/
  | bounce (die : Nat) (m : Dispatch)
  /-- TALLY (R78): A TALLY message reaches the tally unit, which acknowledges a duplicate, discards a stale epoch, or journals and applies the tally group. -/
  | tally (m : TallyMsg)
  /-- TALLY_DEQUEUE (R81): A journal entry becomes free and the oldest waiting TALLY message is performed. -/
  | tallyDequeue
  /-- EVENT (R30): An EVENT message with a fault or status report reaches the supervisors, which run the fault reaction. -/
  | event (r : FaultReport)
  /-- EPOCH_NOTICE (R109): An EPOCH_NOTICE reaches the scheduler front end and tally unit, which adopt the unit's new epoch. -/
  | epochNotice (unit epoch : Nat)
  /-- ROUTE_UPDATE (R37): A ROUTE_UPDATE announces a change of routes after a link change, and ordering holds again on the new route. -/
  | routeUpdate
  /-- EPOCH_DEFERRED_ADVANCE (R110): A unit whose epoch event fell within 1 µs of its previous advance makes the advance 1 µs after the previous one. -/
  | epochDeferredAdvance (unit : Nat)
  /-- DIE_LOGIC_RESET (R42): A compute die's logic is reset or powered down: the gate closes, the epoch advances, pending accesses complete and the logic enters reset. -/
  | dieLogicReset (die cause : Nat)
  /-- DIE_SELFTEST_DONE (R42): The compute logic's start-up injection and self-test pass, the gate opens, logic_state shows READY and EPOCH_NOTICE is sent. -/
  | dieSelftestDone (die : Nat) (pass : W32)
  /-- CLIENT_ATTACH (R56): A write of 1 to attach attaches the selected client within 1 µs or records attach_error. -/
  | clientAttach (function : Nat)
  /-- CLIENT_DETACH (R93): A write of 1 to detach applies STOP to every ring of the client and sets detaching. -/
  | clientDetach
  /-- CLIENT_CLEAR (R443): Once the last ring of a detaching client shows STOPPED, the device disables its channels, flushes, frees its pages and buffers, destroys its keys and writes its final accounting. -/
  | clientClear (client : Nat)
  /-- NUDGE (R67): A nudge word written to a doorbell page makes the device read the named ring's doorbell record. -/
  | nudge (function client : Nat) (word : W32)
  /-- RING_START (R66): A START ring-control word reads and checks the ring context and makes the ring ACTIVE or ERROR. -/
  | ringStart (function client : Nat) (word : W32)
  /-- RING_STOP (R92): A STOP ring-control word ends acceptance, cancels steps with no tallied command and sets the ring STOPPING. -/
  | ringStop (function client : Nat) (word : W32)
  /-- RING_DRAIN (R92): A DRAIN ring-control word ends acceptance and lets every accepted step run to completion. -/
  | ringDrain (function client : Nat) (word : W32)
  /-- ACTIVE_SWEEP (R67): Every 50 µs the device reads the doorbell record of each ACTIVE ring. -/
  | activeSweep
  /-- QUIET_SWEEP (R67): The rotation over QUIET rings reads the next QUIET ring's doorbell record. -/
  | quietSweep
  /-- RING_QUIET_TIMEOUT (R67): A ring with no nudge or acceptance for 10 ms becomes QUIET. -/
  | ringQuietTimeout (ring : Nat)
  /-- DOORBELL_READ (R68): The read of a doorbell record completes and the device keeps the highest tail, or sets ERROR for an unreadable record. -/
  | doorbellRead (ring : Nat)
  /-- STEP_CHECK (R73): The scheduler front end reads a step's descriptor, command list, programs, card tables and publication lists and applies the checks in order. -/
  | stepCheck (ring : Nat)
  /-- STEP_ACCEPT (R76): When the acceptance conditions hold, the device writes the step record and accepted count to both ledger copies, decides quota, frame, deadline and shed refusals, and advances head. -/
  | stepAccept (ring : Nat)
  /-- REFUSAL_RECHECK (R121): Every 10 µs until its first dispatch, an accepted step is checked again for deadline refusal and shedding. -/
  | refusalRecheck (ring seq : Nat)
  /-- RESERVED_PAGE_BACKED (R324): The backing of a page reserved at acceptance completes, and the step's commands become ready once all its pages are backed. -/
  | reservedPageBacked (page : Nat)
  /-- PLACEMENT (R101): When engines are free, the scheduler chooses the next ready command by virtual time, ring and sequence and places it on an eligible die. -/
  | placement
  /-- COMMAND_FINISH (R133): A command's engines have all executed END and its writes have reached their targets, and the dispatcher sends its TALLY. -/
  | commandFinish (die entry energyNj : Nat)
  /-- STEP_RELEASE (R84): A releasable step has its completion record and released value written and, if irq_mode calls for one, an MSI-X message sent. -/
  | stepRelease (ring : Nat)
  /-- BUDGET_CHECK (R125): Every 10 µs a supervisor checks step budgets and applies the report, kill or escalate reaction to expired ones. -/
  | budgetCheck
  /-- LEDGER_ENABLE (R86): A write of 1 to SCH_LEDGER_CTRL enable makes the mirror pages system pages or is discarded with enable_error. -/
  | ledgerEnable
  /-- VTIME_TICK (R99): At the end of each microsecond of occupancy the scheduler updates the client's virtual time for the kind. -/
  | vtimeTick (die entry : Nat)
  /-- PREEMPT_FAIR (R112): A ready command that has waited quantum_us with a far-ahead victim client triggers kills of victims on one die. -/
  | preemptFair
  /-- PREEMPT_SAFETY (R113): A SAFETY command that has found no free engines for safety_wait_us kills non-SAFETY commands at once. -/
  | preemptSafety
  /-- SELFTEST_START (R117): A due engine test takes the engine as soon as it is free and advances its epoch. -/
  | selftestStart (unit : Nat)
  /-- SELFTEST_FORCE (R118): At a test's latest start the scheduler kills the command running on the engine and sets selftest_forced. -/
  | selftestForce (unit : Nat)
  /-- SELFTEST_END (R415): An in-field self-test completes and its signature is compared; a mismatch takes the engine out. -/
  | selftestEnd (unit : Nat) (pass : Bool)
  /-- EXCL_WRITE (R120): A write to SCH_CLIENT_EXCL is checked and applied, or discarded with excl_error. -/
  | exclWrite (value : W32)
  /-- ACCT_WRITE (R126): Every 1 ms the device writes each client's accounting block under the generation protocol. -/
  | acctWrite
  /-- POWER_MODEL_SCALE (R128): Every 1 ms the power manager scales each die's power model to its measured energy. -/
  | powerModelScale (die modelledNj measuredNj : Nat)
  /-- NOP (R138): The NOP control instruction does nothing. -/
  | nop (e : Eng) (w : W128)
  /-- END (R133): An engine executes END and finishes its part of the command. -/
  | endProgram (e : Eng) (w : W128)
  /-- RUN_PAST_END (R131): An engine reaches instruction program_len without END and fails the command with 0x0403. -/
  | runPastEnd (e : Eng)
  /-- SYNC (R141): SYNC stalls the engine until every engine of the command reaches it, then releases all with prior writes visible. -/
  | sync (e : Eng) (w : W128)
  /-- WAIT (R140): WAIT stalls until the named signal counter reaches count and then subtracts count. -/
  | wait (e : Eng) (w : W128)
  /-- STALL_TIMEOUT (R142): A WAIT or SYNC stalled beyond its limit_us fails the command with FAULT_TIMEOUT 0x0408. -/
  | stallTimeout (e : Eng)
  /-- SIGNAL (R139): SIGNAL adds count to a counter of each target engine, releasing a WAIT that it satisfies. -/
  | signal (e : Eng) (w : W128)
  /-- ALLOC (R143): ALLOC, performed once by engine 0, takes a Hearth region into a handle register, fails, or starts waiting for space. -/
  | alloc (e : Eng) (w : W128)
  /-- ALLOC_WAIT_GRANT (R310): A waiting ALLOC at the head of its die's queue finds a free run and takes it. -/
  | allocWaitGrant (die : Nat)
  /-- ALLOC_ZERO_DONE (R311): The zeroing of granules last owned by another client ends and the ALLOC completes. -/
  | allocZeroDone (die entry : Nat)
  /-- FREE (R312): FREE, performed once by engine 0, frees a buffer by handle or offset, or raises FREE_FAULT. -/
  | free (e : Eng) (w : W128)
  /-- WALK (R151): WALK sets one level of one walk slot. -/
  | walk (e : Eng) (w : W128)
  /-- COPY (R164): The mover copies src_a into dst, bit for bit or converted. -/
  | copy (e : Eng) (w : W128)
  /-- FILL (R164): The mover writes a value to every element of dst. -/
  | fill (e : Eng) (w : W128)
  /-- GATHER (R164): The mover gathers rows of src_a into dst by an index card. -/
  | gather (e : Eng) (w : W128)
  /-- SCATTER (R164): Engine 0 scatters rows of src_a into dst by an index card. -/
  | scatter (e : Eng) (w : W128)
  /-- TRANSPOSE (R164): The mover exchanges dimensions 0 and 1 of src_a into dst. -/
  | transpose (e : Eng) (w : W128)
  /-- WINDOW (R164): The mover forms convolution windows of src_a into dst. -/
  | window (e : Eng) (w : W128)
  /-- BLK_PACK (R271): Engine 0 packs a participant's pages into its home block with a header. -/
  | blkPack (e : Eng) (w : W128)
  /-- BLK_SEND (R272): Engine 0 starts the circulation of the participant's home block by offering it downstream. -/
  | blkSend (e : Eng) (w : W128)
  /-- MATMUL (R193): The MXE multiplies activations by weights tile by tile with group rescaling, checks, and drains results through the gate engine. -/
  | matmul (e : Eng) (w : W128) (chk : EngCheck)
  /-- CB_PRELOAD (R198): CB_PRELOAD issues loads of codebooks into the codebook store. -/
  | cbPreload (e : Eng) (w : W128)
  /-- CODEBOOK_LOAD_DONE (R294): A codebook load into all four banks of its stage completes and waiting instructions proceed. -/
  | codebookLoadDone (e : Eng)
  /-- REC_BIND (R206): REC_BIND checks a live residency's shape or enters residency and loads the state from the snapshot. -/
  | recBind (e : Eng) (w : W128)
  /-- REC_SCAN (R205): REC_SCAN runs the linear recurrence over the named tokens and stores the outputs. -/
  | recScan (e : Eng) (w : W128) (chk : EngCheck)
  /-- REC_UNBIND (R206): REC_UNBIND ends the residency once its command has tallied. -/
  | recUnbind (e : Eng) (w : W128)
  /-- PARK_LIMIT (R212): Engines parked for park_limit_us end their residency and advance their epochs. -/
  | parkLimit (die engine : Nat)
  /-- ENGINE_DISABLE (R215): A write of 0 to an engine's enable takes it out of service after its running command and ends any residency. -/
  | engineDisable (unit : Nat)
  /-- GSEQ_SET (R222): GSEQ_SET writes one position of a gate micro-sequence slot. -/
  | gseqSet (e : Eng) (w : W128)
  /-- GSEQ_CLR (R221): GSEQ_CLR sets all positions of a sequence slot to END. -/
  | gseqClr (e : Eng) (w : W128)
  /-- GATE_MAP (R231): The gate engine applies a micro-sequence to each element of src_a and stores it into dst. -/
  | gateMap (e : Eng) (w : W128) (chk : EngCheck)
  /-- GATE_ROWS (R231): The gate engine applies a micro-sequence with whole-row statistics such as NORM or SOFTMAX. -/
  | gateRows (e : Eng) (w : W128) (chk : EngCheck)
  /-- CONV (R237): The window engine computes a few-channel convolution with edge padding modes. -/
  | conv (e : Eng) (w : W128) (chk : EngCheck)
  /-- CONV_PARAM (R235): CONV_PARAM sets the per-channel bias and scale for later CONV instructions. -/
  | convParam (e : Eng) (w : W128)
  /-- BOX_DECODE (R244): The detection engine decodes regressions into boxes. -/
  | boxDecode (e : Eng) (w : W128) (chk : EngCheck)
  /-- SCORE_FILTER (R245): The detection engine keeps candidates above a threshold, sorted by score. -/
  | scoreFilter (e : Eng) (w : W128) (chk : EngCheck)
  /-- NMS (R246): The detection engine suppresses overlapping candidates and writes the kept list. -/
  | nms (e : Eng) (w : W128) (chk : EngCheck)
  /-- ATTEND (R266): The ATE computes softmax attention of queries over a paged latent KV store. -/
  | attend (e : Eng) (w : W128) (chk : EngCheck)
  /-- ATT_PARAM (R263): ATT_PARAM sets scale and head widths for later attention instructions. -/
  | attParam (e : Eng) (w : W128)
  /-- MERGE (R267): The ATE merges two attention states into a state or a normalised output. -/
  | merge (e : Eng) (w : W128) (chk : EngCheck)
  /-- ATTEND_RING (R274): The ATE attends over the blocks of a ring pass in fixed order, reading each from a landing slot or from home. -/
  | attendRing (e : Eng) (w : W128) (chk : EngCheck)
  /-- KV_APPEND (R260): The ATE requantises new tokens into arena slots and writes publication entries for their page-table entries. -/
  | kvAppend (e : Eng) (w : W128) (chk : EngCheck)
  /-- BLOCK_OFFER (R272): A block offer reaches a receiving relay, which grants or declines it. -/
  | blockOffer (die : Nat) (o : Offer)
  /-- BLOCK_GRANT (R272): A granted offer makes the sender write the block into the slot, mark it landed and let the receiver offer it downstream. -/
  | blockGrant (die : Nat) (o : Offer)
  /-- OFFER_REPEAT (R272): An offer declined because the slot's block was not yet forwarded is repeated 1 µs later. -/
  | offerRepeat (die : Nat) (o : Offer)
  /-- RELAY_RETRY (R277): A relay whose offer or notice drew RETRY sends it again after 1 µs, and after four RETRYs skips the participant. -/
  | relayRetry (die : Nat) (o : Offer) (notice : Bool) (epoch : Nat)
  /-- LAND_WAIT_TIMEOUT (R274): An ATE that has waited land_wait_us for a block to land reads it from home. -/
  | landWaitTimeout (e : Eng)
  /-- HOME_BLOCK_RECHECK (R275): Every 10 µs an ATE rereads a home block header that failed its check, and fails with 0x0A06 after land_wait_us. -/
  | homeBlockRecheck (e : Eng)
  /-- EMB_DECODE (R299): The codec engine decodes an Ember stream into an ordinary tensor. -/
  | embDecode (e : Eng) (w : W128) (chk : EngCheck)
  /-- EMB_ENCODE (R300): The codec engine encodes values into a native Ember stream. -/
  | embEncode (e : Eng) (w : W128) (chk : EngCheck)
  /-- EMB_REWRAP (R301): The codec engine converts a stream between native and compatibility modes. -/
  | embRewrap (e : Eng) (w : W128) (chk : EngCheck)
  /-- MARK (R488): MARK writes a MARK trace packet and, with trigger set, triggers the trace window. -/
  | mark (e : Eng) (w : W128)
  /-- CNT_EMIT (R488): CNT_EMIT writes the engine's counters as COUNTER packets. -/
  | cntEmit (e : Eng) (w : W128)
  /-- MAP_ENABLE (R317): A write of 1 to MEM_MAP_CTRL enable makes the map page a system page or is discarded with enable_error. -/
  | mapEnable
  /-- GRANT (R321): GRANT checks the range and makes free pages granted to the client, recording the hint. -/
  | grant (value : W32)
  /-- UNGRANT (R321): UNGRANT checks the range and frees pages and their frames, waiting on migrating or in-use pages. -/
  | ungrant (value : W32)
  /-- BACK (R321): BACK checks the range and backs granted pages in frames chosen by hint and hops, zeroing each. -/
  | back (value : W32)
  /-- PIN (R321): PIN sets pinned on the pages of the range. -/
  | pin (value : W32)
  /-- UNPIN (R321): UNPIN clears pinned on the pages of the range. -/
  | unpin (value : W32)
  /-- QUERY (R321): QUERY reads one page-map entry into MEM_PAGE_INFO. -/
  | query (value : W32)
  /-- PAGE_CMD_COMPLETE (R321): A page-map operation that waited or zeroed completes, clears busy and reports error. -/
  | pageCmdComplete
  /-- BELLOWS_EVALUATE (R327): Every period_us the bellows evaluates per-page access counts and starts moves of pages toward the dies that use them. -/
  | bellowsEvaluate
  /-- BELLOWS_COPY_PASS (R329): A copy pass ends, and the bellows starts another pass, abandons the move, or begins the hold and switches the entry. -/
  | bellowsCopyPass (page : Nat)
  /-- BELLOWS_HOLD_END (R330): Every READY die has acknowledged the new entry and the held requests are released to the new frame. -/
  | bellowsHoldEnd (page : Nat)
  /-- BELLOWS_FORWARD_END (R329): 100 µs after the hold ends, forwarding at the old home stops and the old frame is freed. -/
  | bellowsForwardEnd (page : Nat)
  /-- MERGE_AGE_FLUSH (R340): A merge-buffer entry older than merge_age is flushed to DRAM. -/
  | mergeAgeFlush (group : Nat) (errs : List (Nat × List W16)) (bad : Bool)
  /-- SCRUB_BURST (R341): The scrubber reads the next burst, writes back corrected or clinker-form words and ends the lap at the last burst. -/
  | scrubBurst (group : Nat) (errs : List (Nat × List W16))
  /-- LAP_OVERDUE (R342): A scrub lap running longer than lap_limit_min sets lap_overdue. -/
  | lapOverdue (group : Nat)
  /-- DRAM_HEALTH_CHECK (R410): A DMC checks its DRAM dies every 10 ms, or at once after an uncorrectable word, and marks failing positions. -/
  | dramHealthCheck (group : Nat) (failing : List Nat)
  /-- EVACUATION_PAGE_MOVE (R411): The evacuation moves the next backed page of an exposed group, and retires the group after the last. -/
  | evacuationPageMove (group : Nat)
  /-- EVACUATION_RETRY (R411): A deferred page is retried every 1 ms, and a stalled evacuation every 10 ms. -/
  | evacuationRetry (group : Nat)
  /-- HOST_READ_COMPLETION (R345): A host read completes; Unsupported Request, Completer Abort or translation failure fails the command with 0x0D04. -/
  | hostReadCompletion (e : Eng) (status : HostStatus)
  /-- HOST_COMPLETION_TIMEOUT (R409): A host read that times out fails its command with 0x0D04. -/
  | hostCompletionTimeout (e : Eng)
  /-- KEY_UNWRAP_DONE (R434): The security engine finishes unwrapping a key-table entry after a cache miss and the waiting request proceeds. -/
  | keyUnwrapDone (unit client : Nat)
  /-- CAM_PORT_ENABLE (R370): A write of CAM_PORT_CTRL enable powers and trains a camera port. -/
  | camPortEnable (port : Nat) (value : W32)
  /-- CAM_CHANNEL_ENABLE (R356): A write of 1 to a capture channel's enable checks its configuration and starts it, or records cfg_error. -/
  | camChannelEnable (channel : Nat) (value : W32)
  /-- CAM_CHANNEL_DISABLE (R356): A write of 0 to enable, or the owner's detach, stops a channel and abandons its frame in progress. -/
  | camChannelDisable (channel : Nat) (value : W32)
  /-- FRAME_START_PACKET (R357): A CSI-2 frame start opens a frame: the consumed word and tuning set are read and the frame is captured or dropped. -/
  | frameStartPacket (port vc frameNo : Nat) (err : PacketError)
  /-- FRAME_END_PACKET (R366): A CSI-2 frame end ends a layer, and the frame closes when every included layer has ended. -/
  | frameEndPacket (port vc : Nat) (err : PacketError)
  /-- LONG_PACKET (R353): A CSI-2 long packet is checked, routed to a channel and layer, and its line processed or its embedded data stored. -/
  | longPacket (port vc dt : Nat) (payload : List Byte) (err : PacketError)
  /-- SHORT_PACKET (R350): A CSI-2 line start, line end or generic short packet is accepted and ignored or counted. -/
  | shortPacket (port vc dt : Nat) (err : PacketError)
  /-- ROUTE_TABLE_REFRESH (R354): A camera port refreshes its copy of the routing table after 100 µs without a packet. -/
  | routeTableRefresh (port : Nat)
  /-- FRAME_TIMEOUT (R366): fe_timeout_us after the lead FS the frame closes, with FE_MISSING if the lead FE is absent. -/
  | frameTimeout (channel : Nat)
  /-- FRAME_RECORD_WRITE (R360): Once all writes of a frame are acknowledged, the hub writes its record and sends the MSI-X message. -/
  | frameRecordWrite (channel : Nat)
  /-- M2M_LANE_START (R361): A free memory-to-memory lane takes the queued frame with the earliest close and processes it. -/
  | m2mLaneStart (lane : Nat)
  /-- M2M_LANE_DONE (R361): A memory-to-memory lane finishes a frame's last pixel. -/
  | m2mLaneDone (lane : Nat)
  /-- AUD_ENABLE (R377): A write of 1 to AUD_CTRL enable starts listening and the sample index at 0. -/
  | audEnable (value : W32)
  /-- SAMPLE_TICK (R377): Each 48 kHz period the acoustic front end produces samples, beams and history words for the index, applying mode and range changes due then. -/
  | sampleTick (mics analog tdmIn : List Int)
  /-- RANGE_REQUEST (R374): A write of an analog input's range requests a range change within a 1 ms window. -/
  | rangeRequest (input : Nat) (value : W32)
  /-- MUTE_PIN_FALL (R382): MUTE_N going low brings mute into force: clocks stop, MIC_VDD opens and indicator 0 lights. -/
  | mutePinFall
  /-- MUTE_WRITE (R381): A write of AUD_MUTE mute forces mute or allows its release. -/
  | muteWrite (value : W32)
  /-- MUTE_RELEASE (R381): Mute is released once MUTE_N has been high for 1 ms with mute 0, and the microphones settle. -/
  | muteRelease
  /-- MIC_VDD_LIMIT_EXPIRE (R381): MIC_VDD in current limit for 1 ms opens and sets mic_vdd_fault. -/
  | micVddLimitExpire
  /-- MIC_VDD_RETRY (R381): A write of 1 to mic_vdd_retry closes MIC_VDD again. -/
  | micVddRetry
  /-- AUD_LATCH (R377): A write of 1 to latch captures a sample index and the timebase at one instant. -/
  | audLatch
  /-- TDM_PLAYBACK_TICK (R384): Every 1 ms TDM out reads the produced word and sends the next frame, or zeros with an underrun count. -/
  | tdmPlaybackTick
  /-- TINDER_HOP (R388): Each 10 ms hop Tinder computes features, runs DETECT and tests keyword holds. -/
  | tinderHop (ended : Bool)
  /-- PRESENCE_FRAME (R389): Tinder bins a frame of the watched camera and detects presence over three frames. -/
  | presenceFrame
  /-- KINDLING_START (R390): With the hub up, Kindling starts its programs from the start index, pre-empting client work on VXP8. -/
  | kindlingStart
  /-- CONFIRM_DECISION (R391): CONFIRM ends and escalates to Blaze pending with a wake record, or declines back to Tinder. -/
  | confirmDecision
  /-- KINDLING_ENCODER_HOP (R391): Each hop ENCODER writes one slot of the encoder ring. -/
  | kindlingEncoderHop
  /-- CONFIRM_TIMEOUT (R385): confirm_ms without a decision, or after a Blaze decline without a new detection, returns the chain to Tinder. -/
  | confirmTimeout
  /-- REPLY_TIMEOUT (R393): Blaze pending with no reply within reply_ms returns to Kindling and writes a REPLY_TIMEOUT record. -/
  | replyTimeout
  /-- WAKE_RING_NUDGE (R394): A nudge to the wake ring makes the device read the control word. -/
  | wakeRingNudge (word : W32)
  /-- CONTROL_WORD_POLL (R394): Every 1 ms while Blaze is pending or engaged the device reads the control word. -/
  | controlWordPoll
  /-- ACCEPT (R395): Control op ACCEPT engages Blaze and opens the capture ring from start_index. -/
  | acceptReply (startIndex : Nat)
  /-- DECLINE (R385): Control op DECLINE returns the chain to Kindling and closes the capture ring. -/
  | declineReply
  /-- CLOSE (R385): Control op CLOSE returns the chain to Tinder and closes the capture ring. -/
  | closeCapture
  /-- OPEN (R395): Control op OPEN engages Blaze directly and opens the capture ring. -/
  | openCapture (startIndex : Nat)
  /-- CAPTURE_FRAME (R396): The device writes the next capture frame, live each 1 ms or from history in catch-up, skipping with GAP where needed. -/
  | captureFrame
  /-- LOAD_TINDER (R399): A write of 1 to load_tinder copies and checks the Tinder image. -/
  | loadTinder
  /-- LOAD_KINDLING (R399): A write of 1 to load_kindling copies and checks the Kindling image. -/
  | loadKindling
  /-- IMAGE_LOAD_DONE (R399): A wake image copy and check completes, leaving the image in place or setting load_error. -/
  | imageLoadDone
  /-- LOG_MERGE_FLUSH (R407): A fault-log record merging corrected events of one detail over 1 ms is written. -/
  | logMergeFlush (unit detail : Nat)
  /-- ENGINE_RETEST (R416): A taken-out engine is tested 100 ms after reset, again 100 ms later and then every 10 s, and returns to service on two passes. -/
  | engineRetest (unit : Nat) (pass : Bool)
  /-- DIE_DRAIN (R418): A write of 1 to drain sets the die DRAINING and stops placement on it. -/
  | dieDrain (die : Nat)
  /-- DRAIN_TIMEOUT (R418): 10 ms into a drain the remaining commands are killed as a pre-emption. -/
  | drainTimeout (die : Nat)
  /-- DIE_LOGIC_OFF (R417): A write of 1 to logic_off powers a drained die's compute logic down. -/
  | dieLogicOff (die : Nat)
  /-- DIE_RELEASE (R417): A write of 1 to release returns drained, powered-down or held-out logic to service. -/
  | dieRelease (die : Nat)
  /-- SUPERVISOR_HEARTBEAT (R420): Supervisor cores exchange heartbeats every 5 µs, and a standby that misses three is reset and tested. -/
  | supervisorHeartbeat (core : Nat) (received : Bool)
  /-- FAILOVER (R421): A primary lockstep mismatch or third missed heartbeat makes the standby cut it off, advance the hub epochs and take over. -/
  | failover
  /-- FAILOVER_STANDBY_TEST_DONE (R421): The former primary's injection and test end, and it becomes the standby on a pass. -/
  | failoverStandbyTestDone (pass : Bool)
  /-- DAMPER (R423): The damper drives FAULT_N low, stops acceptance and engines, completes the journal and takes the package to SAFE. -/
  | damper (cause : Nat)
  /-- ENTER_SAFE (R422): A write of 1 to enter_safe triggers the damper. -/
  | enterSafe
  /-- ESCALATE_PULSE_END (R409): A FAULT_N escalation pulse ends after escalate_pulse_us. -/
  | escalatePulseEnd
  /-- WATCH_STATUS (R425): Watch-port command STATUS returns state and the alive count. -/
  | watchStatus (data : Nat)
  /-- WATCH_CAUSE (R425): Watch-port command CAUSE returns damper_cause and the escalation count. -/
  | watchCause (data : Nat)
  /-- WATCH_KICK (R426): Watch-port command KICK restarts the watch interval when its data is correct. -/
  | watchKick (data : Nat)
  /-- WATCH_SAFE (R425): Watch-port command SAFE with data 0xA55A triggers the damper. -/
  | watchSafe (data : Nat)
  /-- WATCH_FRAME_REJECT (R424): A watch-port frame of wrong length or bad CRC is ignored and counted in bad_frames. -/
  | watchFrameReject
  /-- WATCH_TIMEOUT (R426): An interval between KICKs longer than watch_timeout_ms triggers the damper with cause 4. -/
  | watchTimeout
  /-- INJECTION_DONE (R412): Start-up error injection completes, the pass maps become valid and failed units are kept out. -/
  | injectionDone (hub : W32) (dies : List W32)
  /-- THERMAL_SAMPLE (R470): Every 100 µs the thermal manager reads die temperatures and lowers or raises points, takes out a die, or triggers the damper. -/
  | thermalSample (temps : List Int)
  /-- THERMAL_OFF_TIMEOUT (R470): A die above 135 °C for 100 ms after the damper acted takes the package to OFF. -/
  | thermalOffTimeout
  /-- DRBG_RESEED (R431): The DRBG reseeds from the true random source every 1 s. -/
  | drbgReseed
  /-- COMPAT_KEY_LOAD (R439): A write of 1 to load waits until no codec command of the client is in flight, then wraps the imported key. -/
  | compatKeyLoad (client : Nat)
  /-- COMPAT_KEY_CLEAR (R450): A write of 1 to clear destroys the client's compatibility key. -/
  | compatKeyClear (client : Nat)
  /-- KEY_AGREEMENT_MSG (R441): A signed ECDH key-agreement message reaches a ring port, which checks it and derives the link keys. -/
  | keyAgreementMsg (port : Nat) (m : KeyMsg)
  /-- KEY_AGREEMENT_RETRY (R441): A port whose key agreement failed tries again every 1 s. -/
  | keyAgreementRetry (port : Nat)
  /-- REKEY_NOW (R442): A write of 1 to rekey_now starts a rekey of both directions. -/
  | rekeyNow (port : Nat)
  /-- REKEY_TIMEOUT (R442): A rekey not complete within rekey_timeout_ms takes the port down. -/
  | rekeyTimeout (port : Nat)
  /-- RING_FRAME (R508): A ring-port frame is received, its FEC and tag checked, and delivered in order or answered with NAK. -/
  | ringFrame (port : Nat) (f : RingFrame)
  /-- RING_FRAME_NAK (R508): A NAK makes the sender resend from the frame, and the eighth resend of one frame takes the port down. -/
  | ringFrameNak (port counter : Nat)
  /-- HXR_ENABLE (R509): A write of HXR_CTRL enable trains a ring port. -/
  | hxrEnable (port : Nat) (on : Bool)
  /-- FW_STAGE (R448): A write of 1 to stage copies and verifies the image at fw_src into the idle slot. -/
  | fwStage
  /-- FW_STAGE_DONE (R448): The staged image's verification ends and fw_status reports the outcome. -/
  | fwStageDone (digestOk signatureOk : Bool)
  /-- FW_ACTIVATE (R448): A write of 1 to activate makes the staged image preferred at the next warm reset. -/
  | fwActivate
  /-- FW_DIE_UPDATE (R448): A write of 1 to die_update applies compute-die firmware to a drained die or is refused. -/
  | fwDieUpdate (die : Nat)
  /-- BOOT_SERVING_TIMEOUT (R447): A preferred image that fails to reach SERVING within 100 ms on two successive starts makes the boot ROM run the other slot. -/
  | bootServingTimeout
  /-- POWER_ENTRY_CHECK (R454): On completion of the PME_Turn_Off handshake, the power manager checks the entry conditions and enters SLEEP, DEEP or OFF or refuses. -/
  | powerEntryCheck
  /-- ENTRY_HANDSHAKE_TIMEOUT (R454): A link that has not reached L2/L3 Ready within 10 ms of the target write refuses the entry. -/
  | entryHandshakeTimeout
  /-- WAKE_PIN (R511): WAKE high for 100 µs or longer is a wake event and starts the power-up order. -/
  | wakePin
  /-- RTC_ALARM (R474): The timebase reaching alarm sets alarm_seen and, in SLEEP or DEEP, wakes the package. -/
  | rtcAlarm
  /-- REGULATOR_READY (R457): PG_REG rises and the oscillator step starts. -/
  | regulatorReady
  /-- OSCILLATOR_READY (R457): OSC_RDY rises and the memory step starts. -/
  | oscillatorReady
  /-- MEMORY_READY (R457): MEM_RDY rises and the logic step starts. -/
  | memoryReady
  /-- LOGIC_READY (R457): LOGIC_RDY rises; the hub logic is out of reset, boot selection is sampled and start-up injection begins. -/
  | logicReady (bootSel : Nat) (slotA slotB : Option Image)
  /-- RTC_EDGE (R472): At each 32.768 kHz edge in RTC mode the timebase advances by 1,171 or 1,172 ticks. -/
  | rtcEdge
  /-- TIMEBASE_HANDBACK (R473): At the first edge with frac 0 after OSC_RDY the timebase resumes 38.4 MHz counting and updates last_sleep and uncert. -/
  | timebaseHandback
  /-- MEM_REBUILD_DONE (R459): After DEEP, new keys, the page map and the ledger mirror are written and mem_ready is set. -/
  | memRebuildDone
  /-- AUTO_RESLEEP (R465): 10 ms after a wake by Tinder or alarm with the link still in L2, the package re-enters SLEEP. -/
  | autoResleep
  /-- AON_BROWNOUT (R462): The AON rail above 40 mA for 20 µs in SLEEP or DEEP takes the package to OFF and sets brownout. -/
  | aonBrownout
  /-- VIN_LOSS (R501): VIN below 8.6 V for 20 µs removes power from every domain. -/
  | vinLoss
  /-- VIN_POWER_ON (R501): VIN rising above 8.9 V starts the package as a VIN power-on. -/
  | vinPowerOn
  /-- RESET_PIN_RISE (R511): RESET_N rising after a low of 10 µs or more starts a warm reset. -/
  | resetPinRise (lowUs : Nat)
  /-- RESET_PIN_COLD_TIMEOUT (R511): RESET_N held low for 10 ms starts a cold reset. -/
  | resetPinColdTimeout
  /-- WARM_RESET (R458): A write of 1 to warm_reset resets the package keeping DRAM, the ledger, clients and RWS fields, and redoes open journal entries. -/
  | warmReset
  /-- COLD_RESET (R458): A write of 1 to cold_reset resets the package and loses DRAM, clients and registers. -/
  | coldReset
  /-- HOST_PORT_RESET (R511): PERST_N or a conventional PCIe reset resets the host port only. -/
  | hostPortReset
  /-- DIE_IDLE_GATE (R453): A compute die with no command for idle_us gates its engine clocks. -/
  | dieIdleGate (die : Nat)
  /-- DVFS_STEP (R468): The power manager moves a die one DVFS point, ordering rail and tally-root steps and stopping derived clocks for the relock. -/
  | dvfsStep (die : Nat) (lower : Bool)
  /-- POWER_CAP_GRID (R469): At each 10 µs grid step the power manager updates the credit and raises or lowers throttle_level. -/
  | powerCapGrid
  /-- POWER_CAP_ADJUST (R469): Every 100 µs while throttling, the power manager lowers a compute die or the hub one point. -/
  | powerCapAdjust (heaviest : List Nat)
  /-- POWER_CAP_RESTORE (R469): Every 1 ms while reservations stay below 0.95 of the cap, one lowering is undone. -/
  | powerCapRestore
  /-- UNCERT_CLEAR (R473): A write of 1 to uncert_clear clears the timebase uncertainty. -/
  | uncertClear
  /-- COUNT_LO_READ (R481): A read of count_lo latches bits [47:32] of the counter. -/
  | countLoRead (block i : Nat)
  /-- COUNT_HI_WRITE (R482): A write of count_hi stages the upper bits without changing the counter. -/
  | countHiWrite (block i : Nat) (value : W32)
  /-- COUNT_LO_WRITE (R482): A write of count_lo sets the whole counter from the staged and written values. -/
  | countLoWrite (block i : Nat) (value : W32)
  /-- COUNTER_SNAP (R483): A write of 1 to snap copies all 16 counters into the shadow registers with the timebase. -/
  | counterSnap (block : Nat)
  /-- DBG_SNAP (R484): A write of 1 to DBG_SNAP snap chooses a capture time 64 ticks later for the selected dies. -/
  | dbgSnap (value : W32)
  /-- DBG_SNAP_CAPTURE (R484): At the chosen timebase value each selected counter block captures its counters. -/
  | dbgSnapCapture (block : Nat)
  /-- COUNTER_SAMPLE (R486): Every sample_10us each enabled counter block writes its counters as COUNTER packets. -/
  | counterSample
  /-- TRACE_SYNC (R486): Every 1 ms the hub writes a SYNC trace packet. -/
  | traceSync
  /-- TRACE_PACKET (R491): A trace packet enters a die or hub buffer, is dropped with a later LOSS packet, or triggers the window. -/
  | tracePacket (p : TracePacket)
  /-- TRACE_THROTTLE_RELEASE (R491): A throttled die's buffer falls to half full and its engines resume. -/
  | traceThrottleRelease (die : Nat)
  /-- FLUE_FRAME (R490): The flue sends one frame of 256 B of packets with its control blocks and CRC. -/
  | flueFrame
  /-- TRACE_ENABLE (R492): A write of DBG_TRACE_CTRL enable starts trace, or ends it and any window with the buffer lost. -/
  | traceEnable (value : W32)
  /-- TRACE_ARM (R492): A write of 1 to arm puts the window into ARMED, or defers until a drain ends. -/
  | traceArm
  /-- TRACE_TRIGGER_NOW (R492): A write of 1 to trigger_now triggers an armed window. -/
  | traceTriggerNow
  /-- TRACE_DRAIN_END (R492): The flue finishes draining the window and wstate returns to IDLE. -/
  | traceDrainEnd
  /-- TENSOR_WATCH_COPY (R493): After a matching step commits, the tally unit copies the watched range with a header to host memory. -/
  | tensorWatchCopy (n : Nat)
  /-- TENSOR_WATCH_DONE (R494): A watch copy ends, done is set and the step becomes releasable. -/
  | tensorWatchDone (n : Nat)
  /-- IND_CHANNEL_ON (R515): A write of on to an indicator channel starts its ramp, or is discarded under the current budget. -/
  | indChannelOn (n : Nat) (value : W32)
  /-- IND_RAMP_END (R515): An indicator channel's ramp ends and its short test starts. -/
  | indRampEnd (n : Nat)
  /-- IND_SHORT_DETECT (R516): A lit channel's pin rising above short_v clamps it and freezes other ramps. -/
  | indShortDetect (n : Nat)
  /-- IND_SHORT_TIMEOUT (R516): 16 µs after clamping, a channel still above short_v latches off, otherwise its clamp ends. -/
  | indShortTimeout (n : Nat) (above : Bool)
  /-- IND_FREEZE_TIMEOUT (R516): A ramp freeze ends 50 µs after it began. -/
  | indFreezeTimeout
  /-- IND_OPEN_DETECT (R516): A lit channel whose pin stays below 0.2 V at low current for 1 ms sets open_seen. -/
  | indOpenDetect (n : Nat)
  /-- IND_RETRY (R516): A write of 1 to retry clears short_latched and restarts the channel's ramp. -/
  | indRetry (n : Nat)
  /-- I3C_TRANSFER (R512): A write of 1 to go starts an I3C or I²C transfer. -/
  | i3cTransfer (n : Nat) (value : W32)
  /-- I3C_TRANSFER_DONE (R512): An I3C transfer ends with a STOP, clearing busy and setting nack if needed. -/
  | i3cTransferDone (n : Nat) (nack : Bool) (data : List Byte)
  /-- I3C_IBI (R512): An in-band interrupt from a target sets ibi_seen and records its address. -/
  | i3cIbi (n addr : Nat)
  /-- GPIO_EDGE (R513): A GPIO input edge sets edge_seen. -/
  | gpioEdge (i : Nat) (level : Bool)
  /-- IDCODE (R518): JTAG instruction IDCODE selects the identification register. -/
  | idcode
  /-- SAMPLE_PRELOAD (R518): JTAG instruction SAMPLE/PRELOAD samples or preloads the boundary register. -/
  | samplePreload (shiftIn pins : List Bool)
  /-- EXTEST (R518): JTAG instruction EXTEST drives the boundary register, accepted only in SAFE or START_FAILED. -/
  | extest
  /-- EXTEST_PULSE (R518): JTAG instruction EXTEST_PULSE under IEEE 1149.6, accepted only in SAFE or START_FAILED. -/
  | extestPulse
  /-- EXTEST_TRAIN (R518): JTAG instruction EXTEST_TRAIN under IEEE 1149.6, accepted only in SAFE or START_FAILED. -/
  | extestTrain
  /-- CLAMP (R518): JTAG instruction CLAMP, accepted only in SAFE or START_FAILED. -/
  | clamp
  /-- HIGHZ (R518): JTAG instruction HIGHZ, accepted only in SAFE or START_FAILED. -/
  | highz
  /-- BYPASS (R518): JTAG instruction BYPASS, also loaded for any other code or a refused instruction. -/
  | bypass (code : Nat)
  /-- RESERVED_OPCODE (R134): An engine decodes an instruction whose opcode lies in a reserved range and fails the command with FAULT_DESCRIPTOR 0x0401. -/
  | reservedOpcode (e : Eng) (w : W128)
  /-- ISLAND_FAILURE (R409): A compute die's memory island fails, and the die is taken out wholly, its routes change and its code groups become unreachable. -/
  | islandFailure (die : Nat)
  /-- HOST_LINK_L0 (R465): The PCIe host link trains to L0, releasing the wake output and preventing an automatic re-sleep. -/
  | hostLinkL0 (speed width : Nat)
  /-- RING_PORT_TRAINED (R441): A ring port completes training and sends its signed key-agreement message. -/
  | ringPortTrained (port : Nat)
  /-- WATCH_UNKNOWN_COMMAND (R424): A well-formed watch-port frame with an undefined command byte gets response 0xE2. -/
  | watchUnknownCommand (command : Nat)
  /-- STANDBY_LOCKSTEP_MISMATCH (R420): The standby supervisor shows a lockstep mismatch, is reset and tested, and standby_ok reads 0. -/
  | standbyLockstepMismatch
  /-- STANDBY_TEST_DONE (R420): The test of a standby core that was reset for a fault ends, and standby_ok reads 1 on a pass. -/
  | standbyTestDone (pass : Bool)
  deriving DecidableEq, Repr

end Sys2Proof
end

