-- ==== Sys2Proof/Machine/Map.lean ====
section
/-! DEFINITION. Finite maps keyed by natural numbers, as lists of pairs with strictly rising keys: the one canonical form
in which memory, registers and every table of the part are kept. -/

namespace Sys2Proof.Machine

/-- A finite map from numbers. -/
abbrev NMap (α : Type) := List (Nat × α)

/-- The value at `k`. -/
def mapFind {α : Type} : NMap α → Nat → Option α
  | [], _ => none
  | (j, v) :: m, k => if j = k then some v else mapFind m k

/-- `m` with `v` at `k`. -/
def mapSet {α : Type} : NMap α → Nat → α → NMap α
  | [], k, v => [(k, v)]
  | (j, u) :: m, k, v =>
    if k < j then (k, v) :: (j, u) :: m else if j = k then (k, v) :: m else (j, u) :: mapSet m k v

/-- `m` with nothing at `k`. -/
def mapDel {α : Type} : NMap α → Nat → NMap α
  | [], _ => []
  | (j, u) :: m, k => if j = k then mapDel m k else (j, u) :: mapDel m k

/-- The value at `k`, or `d`. -/
def mapGet {α : Type} (m : NMap α) (k : Nat) (d : α) : α :=
  match mapFind m k with
  | some v => v
  | none => d

/-- `m` with `v` at `k`, where a value equal to the default `d` is not listed. -/
def mapPut {α : Type} [DecidableEq α] (m : NMap α) (k : Nat) (v d : α) : NMap α :=
  if v = d then mapDel m k else mapSet m k v

/-- The value at `k`, if any, changed by `f`. -/
def mapMod {α : Type} : NMap α → Nat → (α → α) → NMap α
  | [], _, _ => []
  | (j, u) :: m, k, f => if j = k then (j, f u) :: m else (j, u) :: mapMod m k f

/-- Every key lies above `lo`, and keys rise strictly. -/
def mapAbove {α : Type} : Nat → NMap α → Bool
  | _, [] => true
  | lo, (j, _) :: m => decide (lo < j) && mapAbove j m

/-- Keys rise strictly. -/
def mapSorted {α : Type} : NMap α → Bool
  | [] => true
  | (j, _) :: m => mapAbove j m

/-- The least key of a map that satisfies `p`. -/
def mapFirst {α : Type} (p : Nat → α → Bool) : NMap α → Option (Nat × α)
  | [] => none
  | (j, v) :: m => if p j v then some (j, v) else mapFirst p m

/-- Numbers from `a`, `n` of them. -/
def natRange (a : Nat) : Nat → List Nat
  | 0 => []
  | n + 1 => a :: natRange (a + 1) n

/-- Bits `[lo+w-1:lo]` of `n`. -/
def bits (n lo w : Nat) : Nat := (n >>> lo) % 2 ^ w

/-- `n` with bits `[lo+w-1:lo]` replaced by the low bits of `v`. -/
def setBits (n lo w v : Nat) : Nat :=
  2 ^ (lo + w) * (n >>> (lo + w)) + (2 ^ lo * (v % 2 ^ w) + n % 2 ^ lo)

/-- Bit `i` of `n`. -/
def bit (n i : Nat) : Bool := n.testBit i

/-- `n` with bit `i` set to `b`. -/
def setBit (n i : Nat) (b : Bool) : Nat := setBits n i 1 (if b then 1 else 0)

/-- The number that little-endian bytes spell (R9). -/
def leNat : List Byte → Nat
  | [] => 0
  | b :: bs => b.toNat + 256 * leNat bs

/-- `k` little-endian bytes of `n` (R9). -/
def leBytes (n : Nat) : Nat → List Byte
  | 0 => []
  | k + 1 => BitVec.ofNat 8 n :: leBytes (n / 256) k

/-- A signed reading of the low `w` bits of `n`. -/
def signed (n w : Nat) : Int :=
  let m := n % 2 ^ w
  if m < 2 ^ (w - 1) then (m : Int) else (m : Int) - (2 ^ w : Nat)

/-- The low `w` bits of an integer's two's complement. -/
def unsigned (i : Int) (w : Nat) : Nat := (i % (2 ^ w : Nat)).toNat

/-- One bit as a number. -/
def b2n (b : Bool) : Nat := if b then 1 else 0

/-- `f` applied once for each element, in order. -/
def forEach {α σ : Type} (xs : List α) (s : σ) (f : α → σ → σ) : σ :=
  match xs with
  | [] => s
  | x :: xs => forEach xs (f x s) f

/-- The least element that satisfies `p` and, among those, has the least measure `key`. -/
def leastBy {α : Type} (key : α → Nat) : List α → Option α
  | [] => none
  | x :: xs =>
    match leastBy key xs with
    | none => some x
    | some y => if key x ≤ key y then some x else some y

/-- Insertion of `x` into a list kept in rising order of `key`, after equals. -/
def insertBy {α : Type} (key : α → Nat) (x : α) : List α → List α
  | [] => [x]
  | y :: ys => if key x < key y then x :: y :: ys else y :: insertBy key x ys

/-- A list in rising order of `key`, equals in their own order. -/
def sortBy {α : Type} (key : α → Nat) (xs : List α) : List α :=
  forEach xs [] (insertBy key)

end Sys2Proof.Machine
end

