-- ==== Sys2Proof/Machine/Aes.lean ====
section
/-! DEFINITION. AES-256 in counter mode, by which the payload of a compatibility stream is encrypted (R292, R439). -/

namespace Sys2Proof.Machine

/-- Multiplication by x in GF(2^8) modulo x^8 + x^4 + x^3 + x + 1. -/
def aesX (a : Byte) : Byte := if a.msb then (a <<< 1) ^^^ 0x1B else a <<< 1

/-- Product in GF(2^8), over the low `n` bits of `b`. -/
def aesMulBits : Nat → Byte → Byte → Byte
  | 0, _, _ => 0
  | n + 1, a, b => (if b.getLsbD 0 then a else 0) ^^^ aesMulBits n (aesX a) (b >>> 1)

def aesMul (a b : Byte) : Byte := aesMulBits 8 a b

/-- `a` to the power 2^(n+1) - 2; with `n` 7, its inverse, and 0 for 0. -/
def aesPow : Nat → Byte → Byte
  | 0, _ => 1
  | n + 1, a => aesMul (aesMul a a) (aesPow n (aesMul a a))

/-- The substitution of a byte. -/
def aesSub (a : Byte) : Byte :=
  let b := aesPow 7 a
  b ^^^ b.rotateLeft 1 ^^^ b.rotateLeft 2 ^^^ b.rotateLeft 3 ^^^ b.rotateLeft 4 ^^^ 0x63

/-- Two lists combined byte by byte. -/
def aesXor : List Byte → List Byte → List Byte
  | a :: as, b :: bs => (a ^^^ b) :: aesXor as bs
  | _, _ => []

/-- A word of the key schedule rotated by one byte. -/
def aesRot : List Byte → List Byte
  | [] => []
  | a :: as => as ++ [a]

/-- Word `i` onward of the key schedule, from the last eight words, newest first; `rc` is the next round constant. -/
def aesExpand : Nat → Nat → Byte → List (List Byte) → List (List Byte)
  | 0, _, _, _ => []
  | n + 1, i, rc, ws =>
    let prev := ws.getD 0 []
    let t := if i % 8 = 0 then
        match (aesRot prev).map aesSub with
        | [] => []
        | a :: as => (a ^^^ rc) :: as
      else if i % 8 = 4 then prev.map aesSub
      else prev
    let w := aesXor (ws.getD 7 []) t
    w :: aesExpand n (i + 1) (if i % 8 = 0 then aesX rc else rc) (w :: ws.take 7)

/-- Bytes in groups of `k`. -/
def bytesBy (k : Nat) : Nat → List Byte → List (List Byte)
  | 0, _ => []
  | n + 1, bs => bs.take k :: bytesBy k n (bs.drop k)

/-- The fifteen round keys of a 32-byte key. -/
def aesKeys (key : List Byte) : List (List Byte) :=
  let ws := bytesBy 4 8 key
  let all := ws ++ aesExpand 52 8 1 ws.reverse
  (natRange 0 15).map fun r => ((all.drop (4 * r)).take 4).flatten

/-- Rows of the state shifted: byte `4c + r` comes from column `c + r`. -/
def aesShift (s : List Byte) : List Byte := (natRange 0 16).map fun i => s.getD ((i + 4 * (i % 4)) % 16) 0

/-- A column mixed. -/
def aesMixCol (c : List Byte) : List Byte :=
  let g := fun i => c.getD (i % 4) 0
  (natRange 0 4).map fun i => aesX (g i) ^^^ (aesX (g (i + 1)) ^^^ g (i + 1)) ^^^ g (i + 2) ^^^ g (i + 3)

def aesRounds : List (List Byte) → List Byte → List Byte
  | [], s => s
  | [k], s => aesXor (aesShift (s.map aesSub)) k
  | k :: ks, s => aesRounds ks (aesXor ((bytesBy 4 4 (aesShift (s.map aesSub))).map aesMixCol).flatten k)

/-- One block encrypted with the round keys. -/
def aesBlock (keys : List (List Byte)) (b : List Byte) : List Byte :=
  match keys with
  | [] => b
  | k :: ks => aesRounds ks (aesXor b k)

/-- The key stream of block `q` (R292): `n` units of 16 bytes from counter `i`. -/
def ctrStream (keys : List (List Byte)) (nonce q : Nat) : Nat → Nat → List Byte
  | 0, _ => []
  | n + 1, i => aesBlock keys (leBytes nonce 4 ++ leBytes q 4 ++ leBytes i 8) ++ ctrStream keys nonce q n (i + 1)

/-- Bytes 16 to S - 5 of a block encrypted or decrypted under a key of 256 bits (R292). -/
def ctrCrypt (key nonce q : Nat) (bs : List Byte) : List Byte :=
  aesXor bs (ctrStream (aesKeys (leBytes key 32)) nonce q ((bs.length + 15) / 16) 0)

end Sys2Proof.Machine
end

