-- ==== Sys2Proof/Machine/Fp.lean ====
section
/-! DEFINITION. Numbers (R166 to R184): element types, exact values, IEEE 754 arithmetic with its rounding modes, range limits on
storing, and the stochastic draw. -/

namespace Sys2Proof.Machine

/-- A value: not a number, an infinity, or (-1)^neg * m * 2^e. -/
inductive Num where
  | nan
  | inf (neg : Bool)
  | fin (neg : Bool) (m : Nat) (e : Int)
  deriving DecidableEq, Repr

/-- A binary floating-point format: stored mantissa bits, exponent bits, bias, and whether the top exponent holds infinities
and NaNs (R166). -/
structure Fmt where
  man : Nat
  exp : Nat
  bias : Nat
  ieee : Bool
  deriving DecidableEq, Repr

def e4m3 : Fmt := ⟨3, 4, 7, false⟩
def e5m2 : Fmt := ⟨2, 5, 15, true⟩
def bf16 : Fmt := ⟨7, 8, 127, true⟩
def fp16 : Fmt := ⟨10, 5, 15, true⟩
def fp32 : Fmt := ⟨23, 8, 127, true⟩

/-- An element type as values are read from it and stored into it. -/
inductive Elem where
  | int (bits : Nat)
  | uint (bits : Nat)
  | flt (f : Fmt)
  deriving DecidableEq, Repr

/-- The element type of a type code (R166); VQ codes and reserved codes have none of their own. -/
def elemOf (t : Nat) : Option Elem :=
  match t with
  | 0 => some (.int 2)
  | 1 => some (.int 4)
  | 2 => some (.uint 4)
  | 3 => some (.int 8)
  | 4 => some (.uint 8)
  | 5 => some (.flt e4m3)
  | 6 => some (.flt e5m2)
  | 7 => some (.flt bf16)
  | 8 => some (.flt fp16)
  | 9 => some (.flt fp32)
  | 10 => some (.int 32)
  | _ => none

/-- Bits of an element of a type code (R166). -/
def typeBits (t : Nat) : Nat :=
  match t with
  | 0 => 2
  | 1 => 4
  | 2 => 4
  | 3 => 8
  | 4 => 8
  | 5 => 8
  | 6 => 8
  | 7 => 16
  | 8 => 16
  | 9 => 32
  | 10 => 32
  | _ => 8

/-- Whether a type code is an integer type. -/
def isIntType (t : Nat) : Bool := decide (t ≤ 4) || decide (t = 10)

/-- A number as a value. -/
def numOfInt (i : Int) : Num := .fin (decide (i < 0)) i.natAbs 0

/-- The value 1.0. -/
def numOne : Num := .fin false 1 0

/-- The value +0. -/
def numZero : Num := .fin false 0 0

/-- The value of a pattern of format `f`. -/
def Fmt.decode (f : Fmt) (n : Nat) : Num :=
  let neg := bit n (f.man + f.exp)
  let m := bits n 0 f.man
  let e := bits n f.man f.exp
  let top := 2 ^ f.exp - 1
  if f.ieee ∧ e = top then (if m = 0 then .inf neg else .nan)
  else if f.ieee = false ∧ e = top ∧ m = 2 ^ f.man - 1 then .nan
  else if e = 0 then .fin neg m (1 - (f.bias : Int) - f.man)
  else .fin neg (m + 2 ^ f.man) ((e : Int) - f.bias - f.man)

/-- The value of a pattern of an element type. -/
def Elem.decode (t : Elem) (n : Nat) : Num :=
  match t with
  | .int b => numOfInt (signed n b)
  | .uint b => .fin false (n % 2 ^ b) 0
  | .flt f => f.decode n

/-- The lowest exponent that a unit in the last place of format `f` has. -/
def Fmt.low (f : Fmt) : Int := 1 - (f.bias : Int) - f.man

/-- The largest finite value of format `f`, as mantissa and exponent. -/
def Fmt.maxMant (f : Fmt) : Nat := if f.ieee then 2 ^ (f.man + 1) - 1 else 2 ^ (f.man + 1) - 2
def Fmt.maxExp (f : Fmt) : Int := (if f.ieee then (2 ^ f.exp - 2 : Int) else (2 ^ f.exp - 1 : Int)) - f.bias - f.man

/-- The canonical NaN of format `f` (R167). -/
def Fmt.nanPattern (f : Fmt) : Nat :=
  if f.ieee then (2 ^ f.exp - 1) * 2 ^ f.man + 2 ^ (f.man - 1) else 2 ^ (f.exp + f.man) - 1

/-- Bits in the binary form of `n`. -/
def bitLen (n : Nat) : Nat := if n = 0 then 0 else Nat.log2 n + 1

/-- m * 2^e rounded to a multiple of 2^q by rounding code `rnd` (R174, R176), with draw `u` for code 2: the multiplier. -/
def roundAt (m : Nat) (e q : Int) (rnd u : Nat) : Nat :=
  if q ≤ e then m * 2 ^ (e - q).toNat
  else
    let sh := (q - e).toNat
    let t := m >>> sh
    let r := m - t * 2 ^ sh
    let up := match rnd with
      | 0 => false
      | 1 => decide (2 ^ sh < 2 * r) || (decide (2 * r = 2 ^ sh) && decide (t % 2 = 1))
      | _ => decide (u < 65536 * r / 2 ^ sh)
    if up then t + 1 else t

/-- The unit in the last place of format `f` at m * 2^e. -/
def Fmt.ulp (f : Fmt) (m : Nat) (e : Int) : Int := max (e + bitLen m - (f.man + 1)) f.low

/-- m * 2^q exceeds the largest finite value of `f`. -/
def Fmt.exceeds (f : Fmt) (m : Nat) (q : Int) : Bool :=
  if m = 0 then false
  else if q ≤ f.maxExp then
    let sh := (f.maxExp - q).toNat
    decide (f.maxMant * 2 ^ sh < m)
  else decide (f.maxMant < m * 2 ^ (q - f.maxExp).toNat)

/-- A value rounded to format `f` and limited to its range (R174, R179), and whether it saturated. -/
def Fmt.round (f : Fmt) (x : Num) (rnd u : Nat) : Num × Bool :=
  match x with
  | .nan => (.nan, false)
  | .inf neg => if f.ieee then (.inf neg, false) else (.fin neg f.maxMant f.maxExp, true)
  | .fin neg m e =>
    let q := f.ulp m e
    let r := roundAt m e q rnd u
    if f.exceeds r q then
      if f.ieee ∧ rnd ≠ 0 then (.inf neg, true) else (.fin neg f.maxMant f.maxExp, true)
    else (.fin neg r q, false)

/-- The pattern of a value that format `f` holds. -/
def Fmt.encode (f : Fmt) (x : Num) : Nat :=
  match x with
  | .nan => f.nanPattern
  | .inf neg => b2n neg * 2 ^ (f.man + f.exp) + (2 ^ f.exp - 1) * 2 ^ f.man
  | .fin neg m q =>
    let sign := b2n neg * 2 ^ (f.man + f.exp)
    if m = 0 then sign
    else
      let sh := q - f.low
      if bitLen m ≤ f.man ∧ sh = 0 then sign + m
      else
        let e := (q + bitLen m - 1 + f.bias).toNat
        let frac := if f.man + 1 ≤ bitLen m then m >>> (bitLen m - (f.man + 1)) else m <<< (f.man + 1 - bitLen m)
        if e = 0 then sign + m * 2 ^ sh.toNat
        else sign + e * 2 ^ f.man + frac % 2 ^ f.man

/-- The pattern that a value is stored as in an element type, and whether it saturated (R175, R179). -/
def Elem.store (t : Elem) (x : Num) (rnd u : Nat) : Nat × Bool :=
  match t with
  | .flt f => let (y, sat) := f.round x rnd u; (f.encode y, sat)
  | .int b =>
    match x with
    | .nan => (0, false)
    | .inf neg => (if neg then 2 ^ (b - 1) else 2 ^ (b - 1) - 1, true)
    | .fin neg m e =>
      let r := roundAt m e 0 rnd u
      if neg then (if 2 ^ (b - 1) < r then (2 ^ (b - 1), true) else ((2 ^ b - r) % 2 ^ b, false))
      else if 2 ^ (b - 1) ≤ r then (2 ^ (b - 1) - 1, true) else (r, false)
  | .uint b =>
    match x with
    | .nan => (0, false)
    | .inf neg => (if neg then 0 else 2 ^ b - 1, true)
    | .fin neg m e =>
      let r := roundAt m e 0 rnd u
      if neg then (0, decide (r ≠ 0))
      else if 2 ^ b ≤ r then (2 ^ b - 1, true) else (r, false)

/-! ### Exact arithmetic -/

/-- Sign changed. -/
def Num.neg : Num → Num
  | .nan => .nan
  | .inf n => .inf (!n)
  | .fin n m e => .fin (!n) m e

/-- Magnitude. -/
def Num.abs : Num → Num
  | .nan => .nan
  | .inf _ => .inf false
  | .fin _ m e => .fin false m e

/-- Exact product (R167). -/
def Num.mul : Num → Num → Num
  | .fin n m e, .fin n' m' e' => .fin (n != n') (m * m') (e + e')
  | .inf n, .inf n' => .inf (n != n')
  | .inf n, .fin n' m _ => if m = 0 then .nan else .inf (n != n')
  | .fin n m _, .inf n' => if m = 0 then .nan else .inf (n != n')
  | _, _ => .nan

/-- The integer that a finite value is a multiple of, at exponent `q` at most its own. -/
def scaledInt (neg : Bool) (m : Nat) (e q : Int) : Int :=
  let k := m * 2 ^ (e - q).toNat
  if neg then -(k : Int) else (k : Int)

/-- Exact sum (R167): a zero sum is +0 unless both terms are -0. -/
def Num.add : Num → Num → Num
  | .fin n m e, .fin n' m' e' =>
    let q := min e e'
    let i := scaledInt n m e q + scaledInt n' m' e' q
    if i = 0 then .fin (n && n' && decide (m = 0) && decide (m' = 0)) 0 q
    else .fin (decide (i < 0)) i.natAbs q
  | .inf n, .inf n' => if n = n' then .inf n else .nan
  | .inf n, .fin _ _ _ => .inf n
  | .fin _ _ _, .inf n => .inf n
  | _, _ => .nan

/-- Quotient, close enough to be rounded correctly to FP32 by codes 0 and 1: 40 bits and a sticky bit. -/
def Num.div : Num → Num → Num
  | .fin n m e, .fin n' m' e' =>
    if m' = 0 then (if m = 0 then .nan else .inf (n != n'))
    else
      let k := 40 + bitLen m' - bitLen m
      let big := m * 2 ^ k
      let qt := big / m'
      .fin (n != n') (2 * qt + (if qt * m' = big then 0 else 1)) (e - e' - k - 1)
  | .inf n, .fin n' _ _ => .inf (n != n')
  | .fin n _ e, .inf n' => .fin (n != n') 0 e
  | _, _ => .nan

/-- Order of two values that are not NaN: `a < b`. -/
def Num.lt : Num → Num → Bool
  | .fin n m e, .fin n' m' e' =>
    let q := min e e'
    decide (scaledInt n m e q < scaledInt n' m' e' q)
  | .inf n, .inf n' => n && !n'
  | .inf n, .fin _ _ _ => n
  | .fin _ _ _, .inf n => !n
  | _, _ => false

def Num.isNan : Num → Bool
  | .nan => true
  | _ => false

def Num.isZero : Num → Bool
  | .fin _ m _ => decide (m = 0)
  | _ => false

/-- Values of equal number, NaN equal to nothing. -/
def Num.eqv (a b : Num) : Bool := !a.isNan && !b.isNan && !a.lt b && !b.lt a

/-! ### FP32 operations under an internal rounding mode ρ (R177): code 0 or 1 -/

/-- A value rounded to FP32. -/
def round32 (rho : Nat) (x : Num) : Num := (fp32.round x rho 0).1

def add32 (rho : Nat) (a b : Num) : Num := round32 rho (a.add b)
def mul32 (rho : Nat) (a b : Num) : Num := round32 rho (a.mul b)
def div32 (rho : Nat) (a b : Num) : Num := round32 rho (a.div b)

/-- The FP32 pattern of a value. -/
def pattern32 (x : Num) : Nat := fp32.encode (round32 1 x)

/-- The value of an FP32 pattern. -/
def num32 (n : Nat) : Num := fp32.decode n

/-- The largest of two values under IEEE 754, NaN if either is. -/
def maxNum (a b : Num) : Num := if a.isNan || b.isNan then .nan else if a.lt b then b else a

/-- The smallest of two values, NaN if either is. -/
def minNum (a b : Num) : Num := if a.isNan || b.isNan then .nan else if b.lt a then b else a

/-! ### Scales (R168) and the stochastic draw (R180) -/

/-- The value of a scale's encoding. -/
def scaleValue (scaleType n : Nat) : Num :=
  match scaleType with
  | 1 => e4m3.decode n
  | 2 => bf16.decode n
  | 3 => if n % 256 = 255 then .nan else .fin false 1 ((n % 256 : Nat) - 127)
  | _ => numOne

/-- Bytes of a scale. -/
def scaleSize (scaleType : Nat) : Nat := if scaleType = 2 then 2 else 1

/-- The mixing function of R180. -/
def seedMix (z : W64) : W64 :=
  let a := (z ^^^ (z >>> 30)) * 0xBF58476D1CE4E5B9
  let b := (a ^^^ (a >>> 27)) * 0x94D049BB133111EB
  b ^^^ (b >>> 31)

/-- The draw `u` of R180. -/
def seedDraw (seq ring cmd instr index : Nat) : Nat :=
  let w0 : W64 := BitVec.ofNat 64 seq
  let w1 : W64 := BitVec.ofNat 64 (ring * 2 ^ 44 + cmd * 2 ^ 36 + instr * 2 ^ 20)
  let w2 : W64 := BitVec.ofNat 64 index
  let h := seedMix (seedMix (seedMix (w0 + 0x9E3779B97F4A7C15) ^^^ w1) ^^^ w2)
  h.toNat / 2 ^ 48

/-! ### Requantisation (R183, R184) -/

/-- The limit `q` of a destination type that requantisation is offered into. -/
def requantLimit (t : Nat) : Num :=
  match t with
  | 3 => numOfInt 127
  | 1 => numOfInt 7
  | 5 => numOfInt 448
  | 6 => numOfInt 57344
  | _ => numOne

/-- The least integer `e` in -127 to 127, from `e` upward with fuel, such that 2^e * q ≥ a. -/
def leastE8 (a q : Num) : Nat → Int → Int
  | 0, e => e
  | n + 1, e => if (q.mul (.fin false 1 e)).lt a then leastE8 a q n (e + 1) else e

/-- What rounding upward past the largest finite value of `f` gives: infinity where the format has one, else that largest value (R183: E4M3 448 at most). -/
def Fmt.above (f : Fmt) (neg : Bool) : Num :=
  if f.ieee then .inf neg else .fin neg f.maxMant f.maxExp

/-- A positive value rounded upward to format `f` (R183). -/
def roundUp (f : Fmt) (x : Num) : Num :=
  match x with
  | .fin neg m e =>
    let q := f.ulp m e
    let t := roundAt m e q 0 0
    let exact := decide (m * 2 ^ (e - min e q).toNat = t * 2 ^ (q - min e q).toNat)
    let r := if exact then t else t + 1
    if f.exceeds r q then f.above neg else .fin neg r q
  | .inf neg => f.above neg
  | .nan => .nan

/-- The scale that a group of largest magnitude `a` receives: its value and its encoding (R183). -/
def requantScale (scaleType : Nat) (q a : Num) : Num × Nat :=
  match a with
  | .nan => (.nan, match scaleType with | 3 => 0xFF | 1 => 0x7F | _ => 0x7FC0)
  | .inf _ => (.nan, match scaleType with | 3 => 0xFF | 1 => 0x7F | _ => 0x7FC0)
  | .fin _ 0 _ => (numOne, match scaleType with | 3 => 0x7F | 1 => 0x38 | _ => 0x3F80)
  | .fin _ _ _ =>
    match scaleType with
    | 3 =>
      let e := leastE8 a q 254 (-127)
      (.fin false 1 e, (e + 127).toNat)
    | 1 =>
      let s := roundUp e4m3 (div32 1 a q)
      let s1 := if s.isZero then .fin false 1 (-9) else s
      (s1, e4m3.encode s1)
    | _ =>
      let s := roundUp bf16 (div32 1 a q)
      (s, bf16.encode s)

/-- An element of a requantised group before it is stored (R184). -/
def requantValue (scaleType rho : Nat) (s v : Num) : Num :=
  match scaleType, s with
  | _, .nan => .nan
  | 3, .fin _ _ e => round32 rho (v.mul (.fin false 1 (-e)))
  | _, _ => div32 rho v s

end Sys2Proof.Machine
end

