-- ==== Sys2Proof/Machine/Dram.lean ====
section
/-! DEFINITION. The DRAM code (R334 to R336): the field GF(2^16), syndromes and the decoder. The code is linear, so the decoder
is written over a code word's error vector: ten symbols, zero where the stored symbol is right. -/

namespace Sys2Proof.Machine

/-- Multiplication by α = 0x0002 in the field of p(x) = x^16 + x^12 + x^3 + x + 1 (R335). -/
def gfX (x : W16) : W16 := if x.msb then (x <<< 1) ^^^ 0x100B else x <<< 1

/-- α^j times `x`. -/
def gfAlpha : Nat → W16 → W16
  | 0, x => x
  | j + 1, x => gfX (gfAlpha j x)

/-- Product in GF(2^16): `n` bits of the left factor, least significant first. -/
def gfMulBits : Nat → W16 → W16 → W16
  | 0, _, _ => 0
  | n + 1, a, b => (if a.getLsbD 0 then b else 0) ^^^ gfMulBits n (a >>> 1) (gfX b)

/-- Product in GF(2^16). -/
def gfMul (a b : W16) : W16 := gfMulBits 16 a b

/-- a^(2 + 4 + … + 2^n), from the square `q` of the previous power. -/
def gfPow : Nat → W16 → W16
  | 0, _ => 1
  | n + 1, q => gfMul (gfMul q q) (gfPow n (gfMul q q))

/-- Inverse in GF(2^16): a^(2^16 - 2). -/
def gfInv (a : W16) : W16 := gfPow 15 a

/-- S0 of ten symbols (R335). -/
def syndrome0 : List W16 → W16
  | [] => 0
  | e :: es => e ^^^ syndrome0 es

/-- S1 of symbols at positions `j` and up (R335). -/
def syndrome1 (j : Nat) : List W16 → W16
  | [] => 0
  | e :: es => gfAlpha j e ^^^ syndrome1 (j + 1) es

/-- The check symbol c8 of eight data symbols (R335). -/
def check8 (d : List W16) : W16 :=
  gfMul (syndrome1 0 d ^^^ gfAlpha 9 (syndrome0 d)) (gfInv (gfAlpha 8 1 ^^^ gfAlpha 9 1))

/-- The check symbol c9 of eight data symbols (R335). -/
def check9 (d : List W16) : W16 := syndrome0 d ^^^ check8 d

/-- The code word of eight data symbols. -/
def encodeWord (d : List W16) : List W16 := d ++ [check8 d, check9 d]

/-- `e` XORed into the symbol at position `j`. -/
def xorAt : List W16 → Nat → W16 → List W16
  | [], _, _ => []
  | x :: xs, 0, e => (x ^^^ e) :: xs
  | x :: xs, j + 1, e => x :: xorAt xs j e

/-- What the decoder makes of a word (R336). -/
inductive Decoded where
  /-- The symbols it delivers, and the unmarked position it corrected, if any. -/
  | ok (symbols : List W16) (corrected : Option Nat)
  | uncorrectable
  deriving DecidableEq, Repr

/-- The first position `j` of `n` from `j0` with S1 = α^j S0. -/
def locate (s0 s1 : W16) : Nat → Nat → Option Nat
  | _, 0 => none
  | j, n + 1 => if s1 = gfAlpha j s0 then some j else locate s0 s1 (j + 1) n

/-- The decoder of R336 over ten symbols, under the marked positions in ascending order. With more than two marks, which the
spec does not reach, the two lowest count (DESIGN CHOICE, log 5). -/
def decodeWord (marks : List Nat) (w : List W16) : Decoded :=
  let s0 := syndrome0 w
  let s1 := syndrome1 0 w
  if s0 = 0 ∧ s1 = 0 then .ok w none
  else match marks with
    | [] =>
      if s0 = 0 then .uncorrectable
      else match locate s0 s1 0 10 with
        | some j => .ok (xorAt w j s0) (some j)
        | none => .uncorrectable
    | [m] => if s1 = gfAlpha m s0 then .ok (xorAt w m s0) none else .uncorrectable
    | m :: n :: _ =>
      let em := gfMul (s1 ^^^ gfAlpha n s0) (gfInv (gfAlpha m 1 ^^^ gfAlpha n 1))
      .ok (xorAt (xorAt w m em) n (s0 ^^^ em)) none

/-- The error vector of a clean word. -/
def noError : List W16 := List.replicate 10 0

/-- The error vector of the stored clinker form (R344): both check symbols XORed with 0xFFFF. -/
def clinkerError : List W16 := List.replicate 8 0 ++ [0xFFFF, 0xFFFF]

/-- The marked positions that a mask names (R337). -/
def markList (marked : Nat) : List Nat := (natRange 0 10).filter (bit marked)

/-- The 16 bytes by which a residual error vector changes the data (R334). -/
def errorBytes (e : List W16) : List Byte := (e.take 8).flatMap fun x => leBytes x.toNat 2

/-- Bytes XORed position by position. -/
def xorBytes : List Byte → List Byte → List Byte
  | x :: xs, y :: ys => (x ^^^ y) :: xorBytes xs ys
  | xs, [] => xs
  | [], _ => []

end Sys2Proof.Machine
end

