-- ==== Sys2Proof/Machine/Regs.lean ====
section
/-! DEFINITION. The register map: every BAR0 register the spec gives, its fields with their bits, access code,
reset value and level, and where its instances lie (R11, R13, R52 to R54). `Reg.*` are addresses, `Fld.*` are fields,
`regTable` is the whole map. A register's home key is its BAR0 offset; the registers that SCH_CLIENT_SEL selects have one
copy per client, keyed by `clientKey`. -/

namespace Sys2Proof.Machine

/-- Access codes (R13). -/
inductive Acc where
  | rw | ro | wo | w1c | rws
  deriving DecidableEq, Repr

/-- One field of a register: bits `hi` to `lo`, its access code, its reset value, and whether it is an expert field (R16). -/
structure FieldDef where
  hi : Nat
  lo : Nat
  acc : Acc
  reset : Nat
  expert : Bool
  deriving DecidableEq, Repr

/-- One register: 1 or 2 words of 32 bits (R11), and its fields from bit 0 upward. -/
structure RegDef where
  words : Nat
  fields : List FieldDef
  deriving DecidableEq, Repr

/-- A register with all its instances: the first at `base`, the others at the strides and counts of `dims` above it. -/
structure RegEntry where
  base : Nat
  dims : List (Nat × Nat)
  reg : RegDef
  deriving DecidableEq, Repr

/-- A field by its place: the register's key, its lowest bit and its width. -/
structure Fld where
  key : Nat
  lo : Nat
  width : Nat
  deriving DecidableEq, Repr

/-- The key of client `c`'s copy of the register at `off` (R57): copies lie above the 128 MiB of BAR0. -/
def clientKey (c off : Nat) : Nat := 0x8000000 * (c + 1) + off

/-- The base of compute die `d`'s register window (R18). -/
def dieBase (d : Nat) : Nat := 0x1000000 + 0x800000 * d

/-- The register block of the DRAM controller that serves code group `g` (R25, R346). -/
def dmcBase (g : Nat) : Nat :=
  if g < 2 then 0xE0000 + 0x1000 * g else dieBase ((g - 2) / 2) + 0x70000 + 0x8000 * (g % 2)

/-- The register window of link end `e` (0 H, 1 E, 2 W) of compute die `d` (R45). -/
def hxlBase (d e : Nat) : Nat := dieBase d + 0x80000 + 0x4000 * e

/-- The register window of the hub's link end to compute die `d` (R45). -/
def hubLinkBase (d : Nat) : Nat := 0xD8000 + d * 0x400

/-! ### GLB: identity and topology (R7, R55) -/

/-- GLB_ID (R7). -/
def Reg.def_GLB_ID : RegDef := ⟨1, [⟨3, 0, .ro, 0, false⟩, ⟨7, 4, .ro, 0, false⟩, ⟨11, 8, .ro, 0, false⟩, ⟨15, 12, .ro, 0xB, false⟩, ⟨19, 16, .ro, 0, false⟩, ⟨31, 20, .ro, 0x7A5, false⟩]⟩
def Reg.GLB_ID : Nat := 0
def Fld.GLB_ID_compute_dies : Fld := ⟨Reg.GLB_ID, 0, 4⟩
def Fld.GLB_ID_stack_height_log2 : Fld := ⟨Reg.GLB_ID, 4, 4⟩
def Fld.GLB_ID_stepping_minor : Fld := ⟨Reg.GLB_ID, 8, 4⟩
def Fld.GLB_ID_stepping_major : Fld := ⟨Reg.GLB_ID, 12, 4⟩
def Fld.GLB_ID_grade : Fld := ⟨Reg.GLB_ID, 16, 4⟩
def Fld.GLB_ID_family : Fld := ⟨Reg.GLB_ID, 20, 12⟩
/-- GLB_TOPO (R55). -/
def Reg.def_GLB_TOPO : RegDef := ⟨1,
  [⟨6, 0, .ro, 0, false⟩,
   ⟨7, 7, .ro, 0, false⟩,
   ⟨14, 8, .ro, 0, false⟩,
   ⟨15, 15, .ro, 0, false⟩,
   ⟨22, 16, .ro, 0, false⟩,
   ⟨23, 23, .ro, 0, false⟩,
   ⟨31, 24, .ro, 0, false⟩]⟩
def Reg.GLB_TOPO : Nat := 4
def Fld.GLB_TOPO_dies_present : Fld := ⟨Reg.GLB_TOPO, 0, 7⟩
def Fld.GLB_TOPO_hub_links_up : Fld := ⟨Reg.GLB_TOPO, 8, 7⟩
def Fld.GLB_TOPO_ring_links_up : Fld := ⟨Reg.GLB_TOPO, 16, 7⟩
def Fld.GLB_TOPO_ring_closed : Fld := ⟨Reg.GLB_TOPO, 23, 1⟩

/-- The registers of block GLB. -/
def regTableGLB : List RegEntry :=
  [⟨0, [], Reg.def_GLB_ID⟩,
   ⟨4, [], Reg.def_GLB_TOPO⟩]

/-! ### CDG: die status (R44) -/

/-- CDG_STATUS (R44). -/
def Reg.def_CDG_STATUS : RegDef := ⟨1,
  [⟨2, 0, .ro, 0, false⟩,
   ⟨3, 3, .ro, 1, false⟩,
   ⟨4, 4, .ro, 0, false⟩,
   ⟨5, 5, .ro, 0, false⟩,
   ⟨6, 6, .ro, 0, false⟩,
   ⟨7, 7, .w1c, 0, false⟩,
   ⟨23, 8, .ro, 0, false⟩,
   ⟨31, 24, .ro, 0, false⟩]⟩
def Reg.CDG_STATUS (d : Nat) : Nat := dieBase d
def Fld.CDG_STATUS_logic_state (d : Nat) : Fld := ⟨(Reg.CDG_STATUS d), 0, 3⟩
def Fld.CDG_STATUS_island_up (d : Nat) : Fld := ⟨(Reg.CDG_STATUS d), 3, 1⟩
def Fld.CDG_STATUS_hub_link_up (d : Nat) : Fld := ⟨(Reg.CDG_STATUS d), 4, 1⟩
def Fld.CDG_STATUS_east_link_up (d : Nat) : Fld := ⟨(Reg.CDG_STATUS d), 5, 1⟩
def Fld.CDG_STATUS_west_link_up (d : Nat) : Fld := ⟨(Reg.CDG_STATUS d), 6, 1⟩
def Fld.CDG_STATUS_expert_write_ignored (d : Nat) : Fld := ⟨(Reg.CDG_STATUS d), 7, 1⟩
def Fld.CDG_STATUS_die_epoch (d : Nat) : Fld := ⟨(Reg.CDG_STATUS d), 8, 16⟩

/-- The registers of block CDG. -/
def regTableCDG : List RegEntry :=
  [⟨0x1000000, [(0x800000, 7)], Reg.def_CDG_STATUS⟩]

/-! ### HXL: in-package link ends (R45) -/

/-- HXL_STATUS (R45). -/
def Reg.def_HXL_STATUS : RegDef := ⟨1,
  [⟨0, 0, .ro, 0, false⟩,
   ⟨2, 1, .ro, 0, false⟩,
   ⟨3, 3, .ro, 0, false⟩,
   ⟨4, 4, .w1c, 0, false⟩,
   ⟨5, 5, .w1c, 0, false⟩,
   ⟨7, 6, .ro, 0, false⟩,
   ⟨15, 8, .ro, 0, false⟩,
   ⟨31, 16, .ro, 0, false⟩]⟩
def Reg.HXL_STATUS (blk : Nat) : Nat := blk
def Fld.HXL_STATUS_link_up (blk : Nat) : Fld := ⟨(Reg.HXL_STATUS blk), 0, 1⟩
def Fld.HXL_STATUS_modules_up (blk : Nat) : Fld := ⟨(Reg.HXL_STATUS blk), 1, 2⟩
def Fld.HXL_STATUS_module_degraded (blk : Nat) : Fld := ⟨(Reg.HXL_STATUS blk), 3, 1⟩
def Fld.HXL_STATUS_down_seen (blk : Nat) : Fld := ⟨(Reg.HXL_STATUS blk), 4, 1⟩
def Fld.HXL_STATUS_proto_error (blk : Nat) : Fld := ⟨(Reg.HXL_STATUS blk), 5, 1⟩
def Fld.HXL_STATUS_lanes_repaired (blk : Nat) : Fld := ⟨(Reg.HXL_STATUS blk), 8, 8⟩
def Fld.HXL_STATUS_link_epoch (blk : Nat) : Fld := ⟨(Reg.HXL_STATUS blk), 16, 16⟩
/-- HXL_REPLAYS (R45). -/
def Reg.def_HXL_REPLAYS : RegDef := ⟨1, [⟨31, 0, .ro, 0, false⟩]⟩
def Reg.HXL_REPLAYS (blk : Nat) : Nat := blk + 4
def Fld.HXL_REPLAYS_replays (blk : Nat) : Fld := ⟨(Reg.HXL_REPLAYS blk), 0, 32⟩
/-- HXL_CRC (R45). -/
def Reg.def_HXL_CRC : RegDef := ⟨1, [⟨31, 0, .ro, 0, false⟩]⟩
def Reg.HXL_CRC (blk : Nat) : Nat := blk + 8
def Fld.HXL_CRC_crc_errors (blk : Nat) : Fld := ⟨(Reg.HXL_CRC blk), 0, 32⟩

/-- The registers of block HXL. -/
def regTableHXL : List RegEntry :=
  [⟨0x1080000, [(0x800000, 7), (0x4000, 3)], Reg.def_HXL_STATUS⟩,
   ⟨0xD8000, [(0x400, 7)], Reg.def_HXL_STATUS⟩,
   ⟨0x1080004, [(0x800000, 7), (0x4000, 3)], Reg.def_HXL_REPLAYS⟩,
   ⟨0xD8004, [(0x400, 7)], Reg.def_HXL_REPLAYS⟩,
   ⟨0x1080008, [(0x800000, 7), (0x4000, 3)], Reg.def_HXL_CRC⟩,
   ⟨0xD8008, [(0x400, 7)], Reg.def_HXL_CRC⟩]

/-! ### CPC: die sensing (R46) -/

/-- CPC_STATUS (R46). -/
def Reg.def_CPC_STATUS : RegDef := ⟨1, [⟨2, 0, .ro, 0, false⟩, ⟨3, 3, .ro, 0, false⟩, ⟨4, 4, .ro, 0, false⟩, ⟨7, 5, .ro, 0, false⟩, ⟨15, 8, .ro, 0, false⟩, ⟨31, 16, .ro, 0, false⟩]⟩
def Reg.CPC_STATUS (d : Nat) : Nat := dieBase d + 0x90000
def Fld.CPC_STATUS_point (d : Nat) : Fld := ⟨(Reg.CPC_STATUS d), 0, 3⟩
def Fld.CPC_STATUS_relocking (d : Nat) : Fld := ⟨(Reg.CPC_STATUS d), 3, 1⟩
def Fld.CPC_STATUS_logic_powered (d : Nat) : Fld := ⟨(Reg.CPC_STATUS d), 4, 1⟩
def Fld.CPC_STATUS_temp_c (d : Nat) : Fld := ⟨(Reg.CPC_STATUS d), 8, 8⟩
/-- CPC_POWER (R46). -/
def Reg.def_CPC_POWER : RegDef := ⟨1, [⟨31, 0, .ro, 0, false⟩]⟩
def Reg.CPC_POWER (d : Nat) : Nat := dieBase d + 0x90004
def Fld.CPC_POWER_die_mw (d : Nat) : Fld := ⟨(Reg.CPC_POWER d), 0, 32⟩
/-- CPC_RAIL (R46). -/
def Reg.def_CPC_RAIL : RegDef := ⟨1, [⟨15, 0, .ro, 0, false⟩, ⟨31, 16, .ro, 0, false⟩]⟩
def Reg.CPC_RAIL (d : Nat) : Nat := dieBase d + 0x90008
def Fld.CPC_RAIL_core_mv (d : Nat) : Fld := ⟨(Reg.CPC_RAIL d), 0, 16⟩

/-- The registers of block CPC. -/
def regTableCPC : List RegEntry :=
  [⟨0x1090000, [(0x800000, 7)], Reg.def_CPC_STATUS⟩,
   ⟨0x1090004, [(0x800000, 7)], Reg.def_CPC_POWER⟩,
   ⟨0x1090008, [(0x800000, 7)], Reg.def_CPC_RAIL⟩]

/-! ### SCH: scheduler (R57 to R59, R86, R97, R98, R116, R120, R124, R126, R326, R408) -/

/-- SCH_CLIENT_SEL (R57). -/
def Reg.def_SCH_CLIENT_SEL : RegDef := ⟨1, [⟨11, 0, .rw, 0, false⟩, ⟨31, 12, .ro, 0, false⟩]⟩
def Reg.SCH_CLIENT_SEL : Nat := 0x50100
def Fld.SCH_CLIENT_SEL_client : Fld := ⟨Reg.SCH_CLIENT_SEL, 0, 12⟩
/-- SCH_CLIENT_RCT (R58). -/
def Reg.def_SCH_CLIENT_RCT : RegDef := ⟨2, [⟨47, 0, .rws, 0, false⟩, ⟨63, 48, .ro, 0, false⟩]⟩
def Reg.SCH_CLIENT_RCT : Nat := 0x50108
def Fld.SCH_CLIENT_RCT_rct_base (c : Nat) : Fld := ⟨(clientKey c Reg.SCH_CLIENT_RCT), 0, 48⟩
/-- SCH_CLIENT_RINGS (R58). -/
def Reg.def_SCH_CLIENT_RINGS : RegDef := ⟨1, [⟨19, 0, .rws, 0, false⟩, ⟨31, 20, .ro, 0, false⟩]⟩
def Reg.SCH_CLIENT_RINGS : Nat := 0x50110
def Fld.SCH_CLIENT_RINGS_first_ring (c : Nat) : Fld := ⟨(clientKey c Reg.SCH_CLIENT_RINGS), 0, 20⟩
/-- SCH_CLIENT_RING_COUNT (R58). -/
def Reg.def_SCH_CLIENT_RING_COUNT : RegDef := ⟨1, [⟨20, 0, .rws, 0, false⟩, ⟨31, 21, .ro, 0, false⟩]⟩
def Reg.SCH_CLIENT_RING_COUNT : Nat := 0x50114
def Fld.SCH_CLIENT_RING_COUNT_ring_count (c : Nat) : Fld := ⟨(clientKey c Reg.SCH_CLIENT_RING_COUNT), 0, 21⟩
/-- SCH_CLIENT_CTRL (R59). -/
def Reg.def_SCH_CLIENT_CTRL : RegDef := ⟨1,
  [⟨5, 0, .rws, 0, false⟩,
   ⟨7, 6, .ro, 0, false⟩,
   ⟨8, 8, .wo, 0, false⟩,
   ⟨9, 9, .wo, 0, false⟩,
   ⟨10, 10, .ro, 0, false⟩,
   ⟨11, 11, .ro, 0, false⟩,
   ⟨14, 12, .ro, 0, false⟩,
   ⟨31, 15, .ro, 0, false⟩]⟩
def Reg.SCH_CLIENT_CTRL : Nat := 0x50118
def Fld.SCH_CLIENT_CTRL_function (c : Nat) : Fld := ⟨(clientKey c Reg.SCH_CLIENT_CTRL), 0, 6⟩
def Fld.SCH_CLIENT_CTRL_attach (c : Nat) : Fld := ⟨(clientKey c Reg.SCH_CLIENT_CTRL), 8, 1⟩
def Fld.SCH_CLIENT_CTRL_detach (c : Nat) : Fld := ⟨(clientKey c Reg.SCH_CLIENT_CTRL), 9, 1⟩
def Fld.SCH_CLIENT_CTRL_attached (c : Nat) : Fld := ⟨(clientKey c Reg.SCH_CLIENT_CTRL), 10, 1⟩
def Fld.SCH_CLIENT_CTRL_detaching (c : Nat) : Fld := ⟨(clientKey c Reg.SCH_CLIENT_CTRL), 11, 1⟩
def Fld.SCH_CLIENT_CTRL_attach_error (c : Nat) : Fld := ⟨(clientKey c Reg.SCH_CLIENT_CTRL), 12, 3⟩
/-- SCH_LEDGER_BASE (R86). -/
def Reg.def_SCH_LEDGER_BASE : RegDef := ⟨2, [⟨47, 0, .rws, 0, false⟩, ⟨63, 48, .ro, 0, false⟩]⟩
def Reg.SCH_LEDGER_BASE : Nat := 0x50040
def Fld.SCH_LEDGER_BASE_mirror_base : Fld := ⟨Reg.SCH_LEDGER_BASE, 0, 48⟩
/-- SCH_LEDGER_CTRL (R86). -/
def Reg.def_SCH_LEDGER_CTRL : RegDef := ⟨1, [⟨0, 0, .rws, 0, false⟩, ⟨1, 1, .w1c, 0, false⟩, ⟨2, 2, .w1c, 0, false⟩, ⟨3, 3, .w1c, 0, false⟩, ⟨31, 4, .ro, 0, false⟩]⟩
def Reg.SCH_LEDGER_CTRL : Nat := 0x50048
def Fld.SCH_LEDGER_CTRL_enable : Fld := ⟨Reg.SCH_LEDGER_CTRL, 0, 1⟩
def Fld.SCH_LEDGER_CTRL_rebuilt : Fld := ⟨Reg.SCH_LEDGER_CTRL, 1, 1⟩
def Fld.SCH_LEDGER_CTRL_journal_redone : Fld := ⟨Reg.SCH_LEDGER_CTRL, 2, 1⟩
def Fld.SCH_LEDGER_CTRL_enable_error : Fld := ⟨Reg.SCH_LEDGER_CTRL, 3, 1⟩
/-- SCH_LEDGER_STATUS (R86). -/
def Reg.def_SCH_LEDGER_STATUS : RegDef := ⟨1, [⟨13, 0, .ro, 0, false⟩, ⟨15, 14, .ro, 0, false⟩, ⟨29, 16, .ro, 0, false⟩, ⟨31, 30, .ro, 0, false⟩]⟩
def Reg.SCH_LEDGER_STATUS : Nat := 0x5004C
def Fld.SCH_LEDGER_STATUS_resident_rings : Fld := ⟨Reg.SCH_LEDGER_STATUS, 0, 14⟩
def Fld.SCH_LEDGER_STATUS_steps_in_flight : Fld := ⟨Reg.SCH_LEDGER_STATUS, 16, 14⟩
/-- SCH_CLIENT_CLASS (R97). -/
def Reg.def_SCH_CLIENT_CLASS : RegDef := ⟨1, [⟨1, 0, .rws, 2, false⟩, ⟨31, 2, .ro, 0, false⟩]⟩
def Reg.SCH_CLIENT_CLASS : Nat := 0x50120
def Fld.SCH_CLIENT_CLASS_class (c : Nat) : Fld := ⟨(clientKey c Reg.SCH_CLIENT_CLASS), 0, 2⟩
/-- SCH_CLIENT_SHARE_A (R97). -/
def Reg.def_SCH_CLIENT_SHARE_A : RegDef := ⟨1, [⟨15, 0, .rws, 0x100, false⟩, ⟨31, 16, .rws, 0x100, false⟩]⟩
def Reg.SCH_CLIENT_SHARE_A : Nat := 0x50124
def Fld.SCH_CLIENT_SHARE_A_share_mxe (c : Nat) : Fld := ⟨(clientKey c Reg.SCH_CLIENT_SHARE_A), 0, 16⟩
def Fld.SCH_CLIENT_SHARE_A_share_ate (c : Nat) : Fld := ⟨(clientKey c Reg.SCH_CLIENT_SHARE_A), 16, 16⟩
/-- SCH_CLIENT_SHARE_B (R97). -/
def Reg.def_SCH_CLIENT_SHARE_B : RegDef := ⟨1, [⟨15, 0, .rws, 0x100, false⟩, ⟨31, 16, .rws, 0x100, false⟩]⟩
def Reg.SCH_CLIENT_SHARE_B : Nat := 0x50128
def Fld.SCH_CLIENT_SHARE_B_share_cee (c : Nat) : Fld := ⟨(clientKey c Reg.SCH_CLIENT_SHARE_B), 0, 16⟩
def Fld.SCH_CLIENT_SHARE_B_share_ppe (c : Nat) : Fld := ⟨(clientKey c Reg.SCH_CLIENT_SHARE_B), 16, 16⟩
/-- SCH_CLIENT_SHARE_C (R97). -/
def Reg.def_SCH_CLIENT_SHARE_C : RegDef := ⟨1, [⟨15, 0, .rws, 0x100, false⟩, ⟨31, 16, .rws, 0x100, false⟩]⟩
def Reg.SCH_CLIENT_SHARE_C : Nat := 0x5012C
def Fld.SCH_CLIENT_SHARE_C_share_cdc (c : Nat) : Fld := ⟨(clientKey c Reg.SCH_CLIENT_SHARE_C), 0, 16⟩
def Fld.SCH_CLIENT_SHARE_C_share_mov (c : Nat) : Fld := ⟨(clientKey c Reg.SCH_CLIENT_SHARE_C), 16, 16⟩
/-- SCH_CLIENT_SHARE_D (R97). -/
def Reg.def_SCH_CLIENT_SHARE_D : RegDef := ⟨1, [⟨15, 0, .rws, 0x100, false⟩, ⟨31, 16, .ro, 0, false⟩]⟩
def Reg.SCH_CLIENT_SHARE_D : Nat := 0x50130
def Fld.SCH_CLIENT_SHARE_D_share_kindling (c : Nat) : Fld := ⟨(clientKey c Reg.SCH_CLIENT_SHARE_D), 0, 16⟩
/-- SCH_CLASS_REACT (R98). -/
def Reg.def_SCH_CLASS_REACT : RegDef := ⟨1, [⟨1, 0, .rws, 2, false⟩, ⟨3, 2, .rws, 1, false⟩, ⟨5, 4, .rws, 0, false⟩, ⟨7, 6, .rws, 0, false⟩, ⟨31, 8, .ro, 0, false⟩]⟩
def Reg.SCH_CLASS_REACT : Nat := 0x50010
def Fld.SCH_CLASS_REACT_react_safety : Fld := ⟨Reg.SCH_CLASS_REACT, 0, 2⟩
def Fld.SCH_CLASS_REACT_react_interactive : Fld := ⟨Reg.SCH_CLASS_REACT, 2, 2⟩
def Fld.SCH_CLASS_REACT_react_bulk : Fld := ⟨Reg.SCH_CLASS_REACT, 4, 2⟩
def Fld.SCH_CLASS_REACT_react_best_effort : Fld := ⟨Reg.SCH_CLASS_REACT, 6, 2⟩
/-- SCH_PREEMPT (R116). -/
def Reg.def_SCH_PREEMPT : RegDef := ⟨1, [⟨0, 0, .rws, 1, false⟩, ⟨12, 1, .rws, 0xC8, true⟩, ⟨20, 13, .rws, 0xA, true⟩, ⟨31, 21, .ro, 0, false⟩]⟩
def Reg.SCH_PREEMPT : Nat := 0x50014
def Fld.SCH_PREEMPT_enable : Fld := ⟨Reg.SCH_PREEMPT, 0, 1⟩
def Fld.SCH_PREEMPT_quantum_us : Fld := ⟨Reg.SCH_PREEMPT, 1, 12⟩
def Fld.SCH_PREEMPT_safety_wait_us : Fld := ⟨Reg.SCH_PREEMPT, 13, 8⟩
/-- SCH_CLIENT_EXCL (R120). -/
def Reg.def_SCH_CLIENT_EXCL : RegDef := ⟨1, [⟨9, 0, .rws, 0x3E8, false⟩, ⟨17, 10, .rws, 0, false⟩, ⟨27, 18, .rws, 0, false⟩, ⟨31, 28, .ro, 0, false⟩]⟩
def Reg.SCH_CLIENT_EXCL : Nat := 0x50134
def Fld.SCH_CLIENT_EXCL_excl_period_ms (c : Nat) : Fld := ⟨(clientKey c Reg.SCH_CLIENT_EXCL), 0, 10⟩
def Fld.SCH_CLIENT_EXCL_excl_len_ms (c : Nat) : Fld := ⟨(clientKey c Reg.SCH_CLIENT_EXCL), 10, 8⟩
def Fld.SCH_CLIENT_EXCL_excl_phase_ms (c : Nat) : Fld := ⟨(clientKey c Reg.SCH_CLIENT_EXCL), 18, 10⟩
/-- SCH_SELFTEST (R120). -/
def Reg.def_SCH_SELFTEST : RegDef := ⟨1, [⟨0, 0, .rws, 1, false⟩, ⟨11, 1, .rws, 0x3E8, true⟩, ⟨31, 12, .ro, 0, false⟩]⟩
def Reg.SCH_SELFTEST : Nat := 0x50018
def Fld.SCH_SELFTEST_enable : Fld := ⟨Reg.SCH_SELFTEST, 0, 1⟩
def Fld.SCH_SELFTEST_period_ms : Fld := ⟨Reg.SCH_SELFTEST, 1, 11⟩
/-- SCH_STATUS (R120). -/
def Reg.def_SCH_STATUS : RegDef := ⟨1, [⟨0, 0, .w1c, 0, false⟩, ⟨1, 1, .w1c, 0, false⟩, ⟨31, 2, .ro, 0, false⟩]⟩
def Reg.SCH_STATUS : Nat := 0x50020
def Fld.SCH_STATUS_excl_error : Fld := ⟨Reg.SCH_STATUS, 0, 1⟩
def Fld.SCH_STATUS_selftest_forced : Fld := ⟨Reg.SCH_STATUS, 1, 1⟩
/-- SCH_SHED (R124). -/
def Reg.def_SCH_SHED : RegDef := ⟨1, [⟨15, 0, .rws, 0x2710, true⟩, ⟨16, 16, .rws, 1, false⟩, ⟨31, 17, .ro, 0, false⟩]⟩
def Reg.SCH_SHED : Nat := 0x5001C
def Fld.SCH_SHED_shed_wait_us : Fld := ⟨Reg.SCH_SHED, 0, 16⟩
def Fld.SCH_SHED_shed_enable : Fld := ⟨Reg.SCH_SHED, 16, 1⟩
/-- SCH_CLIENT_ACCT (R126). -/
def Reg.def_SCH_CLIENT_ACCT : RegDef := ⟨2, [⟨47, 0, .rws, 0, false⟩, ⟨63, 48, .ro, 0, false⟩]⟩
def Reg.SCH_CLIENT_ACCT : Nat := 0x50138
def Fld.SCH_CLIENT_ACCT_acct_base (c : Nat) : Fld := ⟨(clientKey c Reg.SCH_CLIENT_ACCT), 0, 48⟩
/-- SCH_CLIENT_QUOTA_H (R326). -/
def Reg.def_SCH_CLIENT_QUOTA_H : RegDef := ⟨1, [⟨15, 0, .rws, 0x8000, false⟩, ⟨31, 16, .ro, 0, false⟩]⟩
def Reg.SCH_CLIENT_QUOTA_H : Nat := 0x50140
def Fld.SCH_CLIENT_QUOTA_H_quota_hearth (c : Nat) : Fld := ⟨(clientKey c Reg.SCH_CLIENT_QUOTA_H), 0, 16⟩
/-- SCH_CLIENT_QUOTA_P (R326). -/
def Reg.def_SCH_CLIENT_QUOTA_P : RegDef := ⟨1, [⟨17, 0, .rws, 0x20000, false⟩, ⟨31, 18, .ro, 0, false⟩]⟩
def Reg.SCH_CLIENT_QUOTA_P : Nat := 0x50144
def Fld.SCH_CLIENT_QUOTA_P_quota_pages (c : Nat) : Fld := ⟨(clientKey c Reg.SCH_CLIENT_QUOTA_P), 0, 18⟩
/-- SCH_CLIENT_QUOTA_L4 (R326). -/
def Reg.def_SCH_CLIENT_QUOTA_L4 : RegDef := ⟨1, [⟨31, 0, .rws, 0xFFFFFFFF, false⟩]⟩
def Reg.SCH_CLIENT_QUOTA_L4 : Nat := 0x50148
def Fld.SCH_CLIENT_QUOTA_L4_quota_host (c : Nat) : Fld := ⟨(clientKey c Reg.SCH_CLIENT_QUOTA_L4), 0, 32⟩
/-- SCH_CLIENT_USE (R326). -/
def Reg.def_SCH_CLIENT_USE : RegDef := ⟨2, [⟨17, 0, .ro, 0, false⟩, ⟨35, 18, .ro, 0, false⟩, ⟨63, 36, .ro, 0, false⟩]⟩
def Reg.SCH_CLIENT_USE : Nat := 0x50150
def Fld.SCH_CLIENT_USE_pages_backed (c : Nat) : Fld := ⟨(clientKey c Reg.SCH_CLIENT_USE), 0, 18⟩
def Fld.SCH_CLIENT_USE_pages_reserved (c : Nat) : Fld := ⟨(clientKey c Reg.SCH_CLIENT_USE), 18, 18⟩
/-- SCH_CLIENT_USE_L4 (R326). -/
def Reg.def_SCH_CLIENT_USE_L4 : RegDef := ⟨1, [⟨31, 0, .ro, 0, false⟩]⟩
def Reg.SCH_CLIENT_USE_L4 : Nat := 0x50170
def Fld.SCH_CLIENT_USE_L4_host_in_use (c : Nat) : Fld := ⟨(clientKey c Reg.SCH_CLIENT_USE_L4), 0, 32⟩
/-- SCH_CLIENT_EVQ (R408). -/
def Reg.def_SCH_CLIENT_EVQ : RegDef := ⟨2, [⟨47, 0, .rws, 0, false⟩, ⟨63, 48, .ro, 0, false⟩]⟩
def Reg.SCH_CLIENT_EVQ : Nat := 0x50158
def Fld.SCH_CLIENT_EVQ_evq_base (c : Nat) : Fld := ⟨(clientKey c Reg.SCH_CLIENT_EVQ), 0, 48⟩
/-- SCH_CLIENT_EVQ_CFG (R408). -/
def Reg.def_SCH_CLIENT_EVQ_CFG : RegDef := ⟨1, [⟨9, 0, .rws, 0x10, false⟩, ⟨20, 10, .rws, 0, false⟩, ⟨31, 21, .ro, 0, false⟩]⟩
def Reg.SCH_CLIENT_EVQ_CFG : Nat := 0x50160
def Fld.SCH_CLIENT_EVQ_CFG_evq_count (c : Nat) : Fld := ⟨(clientKey c Reg.SCH_CLIENT_EVQ_CFG), 0, 10⟩
def Fld.SCH_CLIENT_EVQ_CFG_evq_vector (c : Nat) : Fld := ⟨(clientKey c Reg.SCH_CLIENT_EVQ_CFG), 10, 11⟩
/-- SCH_CLIENT_EVQ_CONS (R408). -/
def Reg.def_SCH_CLIENT_EVQ_CONS : RegDef := ⟨2, [⟨47, 0, .rws, 0, false⟩, ⟨63, 48, .ro, 0, false⟩]⟩
def Reg.SCH_CLIENT_EVQ_CONS : Nat := 0x50168
def Fld.SCH_CLIENT_EVQ_CONS_evq_consumed (c : Nat) : Fld := ⟨(clientKey c Reg.SCH_CLIENT_EVQ_CONS), 0, 48⟩

/-- The registers of block SCH. -/
def regTableSCH : List RegEntry :=
  [⟨0x50100, [], Reg.def_SCH_CLIENT_SEL⟩,
   ⟨0x50108, [], Reg.def_SCH_CLIENT_RCT⟩,
   ⟨0x50110, [], Reg.def_SCH_CLIENT_RINGS⟩,
   ⟨0x50114, [], Reg.def_SCH_CLIENT_RING_COUNT⟩,
   ⟨0x50118, [], Reg.def_SCH_CLIENT_CTRL⟩,
   ⟨0x50040, [], Reg.def_SCH_LEDGER_BASE⟩,
   ⟨0x50048, [], Reg.def_SCH_LEDGER_CTRL⟩,
   ⟨0x5004C, [], Reg.def_SCH_LEDGER_STATUS⟩,
   ⟨0x50120, [], Reg.def_SCH_CLIENT_CLASS⟩,
   ⟨0x50124, [], Reg.def_SCH_CLIENT_SHARE_A⟩,
   ⟨0x50128, [], Reg.def_SCH_CLIENT_SHARE_B⟩,
   ⟨0x5012C, [], Reg.def_SCH_CLIENT_SHARE_C⟩,
   ⟨0x50130, [], Reg.def_SCH_CLIENT_SHARE_D⟩,
   ⟨0x50010, [], Reg.def_SCH_CLASS_REACT⟩,
   ⟨0x50014, [], Reg.def_SCH_PREEMPT⟩,
   ⟨0x50134, [], Reg.def_SCH_CLIENT_EXCL⟩,
   ⟨0x50018, [], Reg.def_SCH_SELFTEST⟩,
   ⟨0x50020, [], Reg.def_SCH_STATUS⟩,
   ⟨0x5001C, [], Reg.def_SCH_SHED⟩,
   ⟨0x50138, [], Reg.def_SCH_CLIENT_ACCT⟩,
   ⟨0x50140, [], Reg.def_SCH_CLIENT_QUOTA_H⟩,
   ⟨0x50144, [], Reg.def_SCH_CLIENT_QUOTA_P⟩,
   ⟨0x50148, [], Reg.def_SCH_CLIENT_QUOTA_L4⟩,
   ⟨0x50150, [], Reg.def_SCH_CLIENT_USE⟩,
   ⟨0x50170, [], Reg.def_SCH_CLIENT_USE_L4⟩,
   ⟨0x50158, [], Reg.def_SCH_CLIENT_EVQ⟩,
   ⟨0x50160, [], Reg.def_SCH_CLIENT_EVQ_CFG⟩,
   ⟨0x50168, [], Reg.def_SCH_CLIENT_EVQ_CONS⟩]

/-! ### MXE: matrix engines (R215 to R217) -/

/-- MXE_CTRL (R215). -/
def Reg.def_MXE_CTRL : RegDef := ⟨1, [⟨0, 0, .rw, 1, false⟩, ⟨1, 1, .rw, 1, false⟩, ⟨2, 2, .rw, 1, true⟩, ⟨3, 3, .rw, 1, true⟩, ⟨19, 4, .rw, 0x3E8, true⟩, ⟨31, 20, .ro, 0, false⟩]⟩
def Reg.MXE_CTRL (d n : Nat) : Nat := dieBase d + 0x10000 + 0x1000 * n
def Fld.MXE_CTRL_enable (d n : Nat) : Fld := ⟨(Reg.MXE_CTRL d n), 0, 1⟩
def Fld.MXE_CTRL_resident_allow (d n : Nat) : Fld := ⟨(Reg.MXE_CTRL d n), 1, 1⟩
def Fld.MXE_CTRL_castout_enable (d n : Nat) : Fld := ⟨(Reg.MXE_CTRL d n), 2, 1⟩
def Fld.MXE_CTRL_rescale_compare (d n : Nat) : Fld := ⟨(Reg.MXE_CTRL d n), 3, 1⟩
def Fld.MXE_CTRL_park_limit_us (d n : Nat) : Fld := ⟨(Reg.MXE_CTRL d n), 4, 16⟩
/-- MXE_STATUS (R216). -/
def Reg.def_MXE_STATUS : RegDef := ⟨1,
  [⟨1, 0, .ro, 0, false⟩,
   ⟨2, 2, .ro, 1, false⟩,
   ⟨3, 3, .w1c, 0, false⟩,
   ⟨4, 4, .w1c, 0, false⟩,
   ⟨5, 5, .w1c, 0, false⟩,
   ⟨7, 6, .ro, 0, false⟩,
   ⟨15, 8, .ro, 0, false⟩,
   ⟨31, 16, .ro, 0, false⟩]⟩
def Reg.MXE_STATUS (d n : Nat) : Nat := dieBase d + 0x10004 + 0x1000 * n
def Fld.MXE_STATUS_res_state (d n : Nat) : Fld := ⟨(Reg.MXE_STATUS d n), 0, 2⟩
def Fld.MXE_STATUS_in_service (d n : Nat) : Fld := ⟨(Reg.MXE_STATUS d n), 2, 1⟩
def Fld.MXE_STATUS_castout_seen (d n : Nat) : Fld := ⟨(Reg.MXE_STATUS d n), 3, 1⟩
def Fld.MXE_STATUS_rescale_seen (d n : Nat) : Fld := ⟨(Reg.MXE_STATUS d n), 4, 1⟩
def Fld.MXE_STATUS_expert_write_ignored (d n : Nat) : Fld := ⟨(Reg.MXE_STATUS d n), 5, 1⟩
def Fld.MXE_STATUS_check_faults (d n : Nat) : Fld := ⟨(Reg.MXE_STATUS d n), 8, 8⟩
def Fld.MXE_STATUS_engine_epoch (d n : Nat) : Fld := ⟨(Reg.MXE_STATUS d n), 16, 16⟩
/-- MXE_RES (R217). -/
def Reg.def_MXE_RES : RegDef := ⟨2, [⟨47, 0, .ro, 0, false⟩, ⟨50, 48, .ro, 0, false⟩, ⟨63, 51, .ro, 0, false⟩]⟩
def Reg.MXE_RES (d n : Nat) : Nat := dieBase d + 0x10008 + 0x1000 * n
def Fld.MXE_RES_res_record (d n : Nat) : Fld := ⟨(Reg.MXE_RES d n), 0, 48⟩
def Fld.MXE_RES_res_position (d n : Nat) : Fld := ⟨(Reg.MXE_RES d n), 48, 3⟩
/-- MXE_FAULT_LOC (R217). -/
def Reg.def_MXE_FAULT_LOC : RegDef := ⟨1, [⟨6, 0, .ro, 0, false⟩, ⟨7, 7, .ro, 0, false⟩, ⟨14, 8, .ro, 0, false⟩, ⟨15, 15, .ro, 0, false⟩, ⟨18, 16, .ro, 0, false⟩, ⟨31, 19, .ro, 0, false⟩]⟩
def Reg.MXE_FAULT_LOC (d n : Nat) : Nat := dieBase d + 0x10010 + 0x1000 * n
def Fld.MXE_FAULT_LOC_fault_row (d n : Nat) : Fld := ⟨(Reg.MXE_FAULT_LOC d n), 0, 7⟩
def Fld.MXE_FAULT_LOC_fault_col (d n : Nat) : Fld := ⟨(Reg.MXE_FAULT_LOC d n), 8, 7⟩
def Fld.MXE_FAULT_LOC_fault_kind (d n : Nat) : Fld := ⟨(Reg.MXE_FAULT_LOC d n), 16, 3⟩

/-- The registers of block MXE. -/
def regTableMXE : List RegEntry :=
  [⟨0x1010000, [(0x800000, 7), (0x1000, 8)], Reg.def_MXE_CTRL⟩,
   ⟨0x1010004, [(0x800000, 7), (0x1000, 8)], Reg.def_MXE_STATUS⟩,
   ⟨0x1010008, [(0x800000, 7), (0x1000, 8)], Reg.def_MXE_RES⟩,
   ⟨0x1010010, [(0x800000, 7), (0x1000, 8)], Reg.def_MXE_FAULT_LOC⟩]

/-! ### ATE: attention engines (R280, R281) -/

/-- ATE_CTRL (R280). -/
def Reg.def_ATE_CTRL : RegDef := ⟨1, [⟨0, 0, .rw, 1, false⟩, ⟨1, 1, .rw, 1, true⟩, ⟨2, 2, .rw, 1, true⟩, ⟨31, 3, .ro, 0, false⟩]⟩
def Reg.ATE_CTRL (d n : Nat) : Nat := dieBase d + 0x30000 + 0x4000 * n
def Fld.ATE_CTRL_enable (d n : Nat) : Fld := ⟨(Reg.ATE_CTRL d n), 0, 1⟩
def Fld.ATE_CTRL_check_enable (d n : Nat) : Fld := ⟨(Reg.ATE_CTRL d n), 1, 1⟩
def Fld.ATE_CTRL_ecc_enable (d n : Nat) : Fld := ⟨(Reg.ATE_CTRL d n), 2, 1⟩
/-- ATE_STATUS (R281). -/
def Reg.def_ATE_STATUS : RegDef := ⟨1,
  [⟨0, 0, .ro, 1, false⟩,
   ⟨1, 1, .w1c, 0, false⟩,
   ⟨2, 2, .w1c, 0, false⟩,
   ⟨3, 3, .w1c, 0, false⟩,
   ⟨4, 4, .ro, 0, false⟩,
   ⟨7, 5, .ro, 0, false⟩,
   ⟨15, 8, .ro, 0, false⟩,
   ⟨31, 16, .ro, 0, false⟩]⟩
def Reg.ATE_STATUS (d n : Nat) : Nat := dieBase d + 0x30004 + 0x4000 * n
def Fld.ATE_STATUS_in_service (d n : Nat) : Fld := ⟨(Reg.ATE_STATUS d n), 0, 1⟩
def Fld.ATE_STATUS_check_seen (d n : Nat) : Fld := ⟨(Reg.ATE_STATUS d n), 1, 1⟩
def Fld.ATE_STATUS_ecc_corrected (d n : Nat) : Fld := ⟨(Reg.ATE_STATUS d n), 2, 1⟩
def Fld.ATE_STATUS_expert_write_ignored (d n : Nat) : Fld := ⟨(Reg.ATE_STATUS d n), 3, 1⟩
def Fld.ATE_STATUS_waiting (d n : Nat) : Fld := ⟨(Reg.ATE_STATUS d n), 4, 1⟩
def Fld.ATE_STATUS_check_faults (d n : Nat) : Fld := ⟨(Reg.ATE_STATUS d n), 8, 8⟩
def Fld.ATE_STATUS_engine_epoch (d n : Nat) : Fld := ⟨(Reg.ATE_STATUS d n), 16, 16⟩

/-- The registers of block ATE. -/
def regTableATE : List RegEntry :=
  [⟨0x1030000, [(0x800000, 7), (0x4000, 2)], Reg.def_ATE_CTRL⟩,
   ⟨0x1030004, [(0x800000, 7), (0x4000, 2)], Reg.def_ATE_STATUS⟩]

/-! ### MOV: block relay (R282) -/

/-- MOV_RELAY_STATUS (R282). -/
def Reg.def_MOV_RELAY_STATUS : RegDef := ⟨1, [⟨0, 0, .w1c, 0, false⟩, ⟨1, 1, .w1c, 0, false⟩, ⟨2, 2, .w1c, 0, false⟩, ⟨15, 3, .ro, 0, false⟩, ⟨23, 16, .ro, 0, false⟩, ⟨31, 24, .ro, 0, false⟩]⟩
def Reg.MOV_RELAY_STATUS (d : Nat) : Nat := dieBase d + 0x50100
def Fld.MOV_RELAY_STATUS_skips_seen (d : Nat) : Fld := ⟨(Reg.MOV_RELAY_STATUS d), 0, 1⟩
def Fld.MOV_RELAY_STATUS_declines_seen (d : Nat) : Fld := ⟨(Reg.MOV_RELAY_STATUS d), 1, 1⟩
def Fld.MOV_RELAY_STATUS_unreachable_seen (d : Nat) : Fld := ⟨(Reg.MOV_RELAY_STATUS d), 2, 1⟩
def Fld.MOV_RELAY_STATUS_active_blocks (d : Nat) : Fld := ⟨(Reg.MOV_RELAY_STATUS d), 16, 8⟩

/-- The registers of block MOV. -/
def regTableMOV : List RegEntry :=
  [⟨0x1050100, [(0x800000, 7)], Reg.def_MOV_RELAY_STATUS⟩]

/-! ### CDC: codec engines (R304) -/

/-- CDC_CTRL (R304). -/
def Reg.def_CDC_CTRL : RegDef := ⟨1, [⟨0, 0, .rw, 1, false⟩, ⟨1, 1, .rw, 1, true⟩, ⟨31, 2, .ro, 0, false⟩]⟩
def Reg.CDC_CTRL (d n : Nat) : Nat := dieBase d + 0x40000 + 0x8000 * n
def Fld.CDC_CTRL_enable (d n : Nat) : Fld := ⟨(Reg.CDC_CTRL d n), 0, 1⟩
def Fld.CDC_CTRL_check_enable (d n : Nat) : Fld := ⟨(Reg.CDC_CTRL d n), 1, 1⟩
/-- CDC_STATUS (R304). -/
def Reg.def_CDC_STATUS : RegDef := ⟨1,
  [⟨0, 0, .ro, 1, false⟩,
   ⟨1, 1, .w1c, 0, false⟩,
   ⟨2, 2, .w1c, 0, false⟩,
   ⟨3, 3, .w1c, 0, false⟩,
   ⟨7, 4, .ro, 0, false⟩,
   ⟨15, 8, .ro, 0, false⟩,
   ⟨31, 16, .ro, 0, false⟩]⟩
def Reg.CDC_STATUS (d n : Nat) : Nat := dieBase d + 0x40004 + 0x8000 * n
def Fld.CDC_STATUS_in_service (d n : Nat) : Fld := ⟨(Reg.CDC_STATUS d n), 0, 1⟩
def Fld.CDC_STATUS_check_seen (d n : Nat) : Fld := ⟨(Reg.CDC_STATUS d n), 1, 1⟩
def Fld.CDC_STATUS_crc_seen (d n : Nat) : Fld := ⟨(Reg.CDC_STATUS d n), 2, 1⟩
def Fld.CDC_STATUS_expert_write_ignored (d n : Nat) : Fld := ⟨(Reg.CDC_STATUS d n), 3, 1⟩
def Fld.CDC_STATUS_check_faults (d n : Nat) : Fld := ⟨(Reg.CDC_STATUS d n), 8, 8⟩
def Fld.CDC_STATUS_engine_epoch (d n : Nat) : Fld := ⟨(Reg.CDC_STATUS d n), 16, 16⟩

/-- The registers of block CDC. -/
def regTableCDC : List RegEntry :=
  [⟨0x1040000, [(0x800000, 7), (0x8000, 2)], Reg.def_CDC_CTRL⟩,
   ⟨0x1040004, [(0x800000, 7), (0x8000, 2)], Reg.def_CDC_STATUS⟩]

/-! ### HRT: Hearth (R316) -/

/-- HRT_STATUS (R316). -/
def Reg.def_HRT_STATUS : RegDef := ⟨1, [⟨0, 0, .w1c, 0, false⟩, ⟨1, 1, .w1c, 0, false⟩, ⟨2, 2, .w1c, 0, false⟩, ⟨15, 3, .ro, 0, false⟩, ⟨31, 16, .ro, 0x8000, false⟩]⟩
def Reg.HRT_STATUS (d : Nat) : Nat := dieBase d + 0x60004
def Fld.HRT_STATUS_free_fault (d : Nat) : Fld := ⟨(Reg.HRT_STATUS d), 0, 1⟩
def Fld.HRT_STATUS_ecc_corrected (d : Nat) : Fld := ⟨(Reg.HRT_STATUS d), 1, 1⟩
def Fld.HRT_STATUS_ue_seen (d : Nat) : Fld := ⟨(Reg.HRT_STATUS d), 2, 1⟩
def Fld.HRT_STATUS_free_granules (d : Nat) : Fld := ⟨(Reg.HRT_STATUS d), 16, 16⟩
/-- HRT_FREE_LOG (R316). -/
def Reg.def_HRT_FREE_LOG : RegDef := ⟨1, [⟨11, 0, .ro, 0, false⟩, ⟨26, 12, .ro, 0, false⟩, ⟨27, 27, .ro, 0, false⟩, ⟨31, 28, .ro, 0, false⟩]⟩
def Reg.HRT_FREE_LOG (d : Nat) : Nat := dieBase d + 0x60008
def Fld.HRT_FREE_LOG_client (d : Nat) : Fld := ⟨(Reg.HRT_FREE_LOG d), 0, 12⟩
def Fld.HRT_FREE_LOG_granule (d : Nat) : Fld := ⟨(Reg.HRT_FREE_LOG d), 12, 15⟩
def Fld.HRT_FREE_LOG_reason (d : Nat) : Fld := ⟨(Reg.HRT_FREE_LOG d), 27, 1⟩
/-- HRT_USE_SEL (R316). -/
def Reg.def_HRT_USE_SEL : RegDef := ⟨1, [⟨11, 0, .rw, 0, false⟩, ⟨31, 12, .ro, 0, false⟩]⟩
def Reg.HRT_USE_SEL (d : Nat) : Nat := dieBase d + 0x60010
def Fld.HRT_USE_SEL_client (d : Nat) : Fld := ⟨(Reg.HRT_USE_SEL d), 0, 12⟩
/-- HRT_USE (R316). -/
def Reg.def_HRT_USE : RegDef := ⟨1, [⟨15, 0, .ro, 0, false⟩, ⟨31, 16, .ro, 0, false⟩]⟩
def Reg.HRT_USE (d : Nat) : Nat := dieBase d + 0x60014
def Fld.HRT_USE_held (d : Nat) : Fld := ⟨(Reg.HRT_USE d), 0, 16⟩
def Fld.HRT_USE_reserved_granules (d : Nat) : Fld := ⟨(Reg.HRT_USE d), 16, 16⟩

/-- The registers of block HRT. -/
def regTableHRT : List RegEntry :=
  [⟨0x1060004, [(0x800000, 7)], Reg.def_HRT_STATUS⟩,
   ⟨0x1060008, [(0x800000, 7)], Reg.def_HRT_FREE_LOG⟩,
   ⟨0x1060010, [(0x800000, 7)], Reg.def_HRT_USE_SEL⟩,
   ⟨0x1060014, [(0x800000, 7)], Reg.def_HRT_USE⟩]

/-! ### MEM: page map and bellows (R320, R332) -/

/-- MEM_MAP_BASE (R320). -/
def Reg.def_MEM_MAP_BASE : RegDef := ⟨2, [⟨47, 0, .rws, 0, false⟩, ⟨63, 48, .ro, 0, false⟩]⟩
def Reg.MEM_MAP_BASE : Nat := 0xE8000
def Fld.MEM_MAP_BASE_map_base : Fld := ⟨Reg.MEM_MAP_BASE, 0, 48⟩
/-- MEM_MAP_CTRL (R320). -/
def Reg.def_MEM_MAP_CTRL : RegDef := ⟨1, [⟨0, 0, .rws, 0, false⟩, ⟨1, 1, .w1c, 0, false⟩, ⟨31, 2, .ro, 0, false⟩]⟩
def Reg.MEM_MAP_CTRL : Nat := 0xE8008
def Fld.MEM_MAP_CTRL_enable : Fld := ⟨Reg.MEM_MAP_CTRL, 0, 1⟩
def Fld.MEM_MAP_CTRL_enable_error : Fld := ⟨Reg.MEM_MAP_CTRL, 1, 1⟩
/-- MEM_PAGE_FIRST (R320). -/
def Reg.def_MEM_PAGE_FIRST : RegDef := ⟨1, [⟨16, 0, .rws, 0, false⟩, ⟨31, 17, .ro, 0, false⟩]⟩
def Reg.MEM_PAGE_FIRST : Nat := 0xE8010
def Fld.MEM_PAGE_FIRST_first : Fld := ⟨Reg.MEM_PAGE_FIRST, 0, 17⟩
/-- MEM_PAGE_COUNT (R320). -/
def Reg.def_MEM_PAGE_COUNT : RegDef := ⟨1, [⟨17, 0, .rws, 1, false⟩, ⟨31, 18, .ro, 0, false⟩]⟩
def Reg.MEM_PAGE_COUNT : Nat := 0xE8014
def Fld.MEM_PAGE_COUNT_count : Fld := ⟨Reg.MEM_PAGE_COUNT, 0, 18⟩
/-- MEM_PAGE_CMD (R320). -/
def Reg.def_MEM_PAGE_CMD : RegDef := ⟨1,
  [⟨2, 0, .rws, 0, false⟩,
   ⟨6, 3, .rws, 0, false⟩,
   ⟨7, 7, .rws, 0, false⟩,
   ⟨19, 8, .rws, 0, false⟩,
   ⟨20, 20, .wo, 0, false⟩,
   ⟨21, 21, .ro, 0, false⟩,
   ⟨25, 22, .ro, 0, false⟩,
   ⟨31, 26, .ro, 0, false⟩]⟩
def Reg.MEM_PAGE_CMD : Nat := 0xE8018
def Fld.MEM_PAGE_CMD_op : Fld := ⟨Reg.MEM_PAGE_CMD, 0, 3⟩
def Fld.MEM_PAGE_CMD_hint_group : Fld := ⟨Reg.MEM_PAGE_CMD, 3, 4⟩
def Fld.MEM_PAGE_CMD_hint_valid : Fld := ⟨Reg.MEM_PAGE_CMD, 7, 1⟩
def Fld.MEM_PAGE_CMD_client : Fld := ⟨Reg.MEM_PAGE_CMD, 8, 12⟩
def Fld.MEM_PAGE_CMD_go : Fld := ⟨Reg.MEM_PAGE_CMD, 20, 1⟩
def Fld.MEM_PAGE_CMD_busy : Fld := ⟨Reg.MEM_PAGE_CMD, 21, 1⟩
def Fld.MEM_PAGE_CMD_error : Fld := ⟨Reg.MEM_PAGE_CMD, 22, 4⟩
/-- MEM_PAGE_INFO (R320). -/
def Reg.def_MEM_PAGE_INFO : RegDef := ⟨2, [⟨63, 0, .ro, 0, false⟩]⟩
def Reg.MEM_PAGE_INFO : Nat := 0xE8020
def Fld.MEM_PAGE_INFO_entry : Fld := ⟨Reg.MEM_PAGE_INFO, 0, 64⟩
/-- MEM_BELLOWS_CTRL (R332). -/
def Reg.def_MEM_BELLOWS_CTRL : RegDef := ⟨1, [⟨0, 0, .rws, 1, false⟩, ⟨10, 1, .rws, 0x3E8, true⟩, ⟨18, 11, .rws, 0x40, true⟩, ⟨22, 19, .rws, 8, true⟩, ⟨31, 23, .ro, 0, false⟩]⟩
def Reg.MEM_BELLOWS_CTRL : Nat := 0xE4000
def Fld.MEM_BELLOWS_CTRL_enable : Fld := ⟨Reg.MEM_BELLOWS_CTRL, 0, 1⟩
def Fld.MEM_BELLOWS_CTRL_period_us : Fld := ⟨Reg.MEM_BELLOWS_CTRL, 1, 10⟩
def Fld.MEM_BELLOWS_CTRL_max_moves : Fld := ⟨Reg.MEM_BELLOWS_CTRL, 11, 8⟩
def Fld.MEM_BELLOWS_CTRL_rate : Fld := ⟨Reg.MEM_BELLOWS_CTRL, 19, 4⟩
/-- MEM_BELLOWS_THRESH (R332). -/
def Reg.def_MEM_BELLOWS_THRESH : RegDef := ⟨1, [⟨23, 0, .rws, 0x1000, true⟩, ⟨31, 24, .ro, 0, false⟩]⟩
def Reg.MEM_BELLOWS_THRESH : Nat := 0xE4004
def Fld.MEM_BELLOWS_THRESH_threshold_lines : Fld := ⟨Reg.MEM_BELLOWS_THRESH, 0, 24⟩
/-- MEM_BELLOWS_STATUS (R332). -/
def Reg.def_MEM_BELLOWS_STATUS : RegDef := ⟨1, [⟨15, 0, .ro, 0, false⟩, ⟨23, 16, .ro, 0, false⟩, ⟨24, 24, .w1c, 0, false⟩, ⟨31, 25, .ro, 0, false⟩]⟩
def Reg.MEM_BELLOWS_STATUS : Nat := 0xE4008
def Fld.MEM_BELLOWS_STATUS_moves_last : Fld := ⟨Reg.MEM_BELLOWS_STATUS, 0, 16⟩
def Fld.MEM_BELLOWS_STATUS_deferred_last : Fld := ⟨Reg.MEM_BELLOWS_STATUS, 16, 8⟩
def Fld.MEM_BELLOWS_STATUS_aborted_seen : Fld := ⟨Reg.MEM_BELLOWS_STATUS, 24, 1⟩

/-- The registers of block MEM. -/
def regTableMEM : List RegEntry :=
  [⟨0xE8000, [], Reg.def_MEM_MAP_BASE⟩,
   ⟨0xE8008, [], Reg.def_MEM_MAP_CTRL⟩,
   ⟨0xE8010, [], Reg.def_MEM_PAGE_FIRST⟩,
   ⟨0xE8014, [], Reg.def_MEM_PAGE_COUNT⟩,
   ⟨0xE8018, [], Reg.def_MEM_PAGE_CMD⟩,
   ⟨0xE8020, [], Reg.def_MEM_PAGE_INFO⟩,
   ⟨0xE4000, [], Reg.def_MEM_BELLOWS_CTRL⟩,
   ⟨0xE4004, [], Reg.def_MEM_BELLOWS_THRESH⟩,
   ⟨0xE4008, [], Reg.def_MEM_BELLOWS_STATUS⟩]

/-! ### DMC: DRAM controllers (R346, R347) -/

/-- DMC_CTRL (R346). -/
def Reg.def_DMC_CTRL : RegDef := ⟨1, [⟨0, 0, .rw, 1, false⟩, ⟨8, 1, .rw, 8, true⟩, ⟨15, 9, .rw, 0x40, true⟩, ⟨19, 16, .rw, 4, true⟩, ⟨27, 20, .rw, 0x3C, true⟩, ⟨31, 28, .ro, 0, false⟩]⟩
def Reg.DMC_CTRL (blk : Nat) : Nat := blk
def Fld.DMC_CTRL_scrub_enable (blk : Nat) : Fld := ⟨(Reg.DMC_CTRL blk), 0, 1⟩
def Fld.DMC_CTRL_scrub_interval (blk : Nat) : Fld := ⟨(Reg.DMC_CTRL blk), 1, 8⟩
def Fld.DMC_CTRL_mark_threshold (blk : Nat) : Fld := ⟨(Reg.DMC_CTRL blk), 9, 7⟩
def Fld.DMC_CTRL_merge_age (blk : Nat) : Fld := ⟨(Reg.DMC_CTRL blk), 16, 4⟩
def Fld.DMC_CTRL_lap_limit_min (blk : Nat) : Fld := ⟨(Reg.DMC_CTRL blk), 20, 8⟩
/-- DMC_STATUS (R347). -/
def Reg.def_DMC_STATUS : RegDef := ⟨1,
  [⟨9, 0, .ro, 0, false⟩,
   ⟨10, 10, .ro, 0, false⟩,
   ⟨11, 11, .w1c, 0, false⟩,
   ⟨12, 12, .w1c, 0, false⟩,
   ⟨13, 13, .ro, 0, false⟩,
   ⟨15, 14, .ro, 0, false⟩,
   ⟨19, 16, .ro, 0, false⟩,
   ⟨31, 20, .ro, 0, false⟩]⟩
def Reg.DMC_STATUS (blk : Nat) : Nat := blk + 4
def Fld.DMC_STATUS_marked (blk : Nat) : Fld := ⟨(Reg.DMC_STATUS blk), 0, 10⟩
def Fld.DMC_STATUS_group_exposed (blk : Nat) : Fld := ⟨(Reg.DMC_STATUS blk), 10, 1⟩
def Fld.DMC_STATUS_ce_seen (blk : Nat) : Fld := ⟨(Reg.DMC_STATUS blk), 11, 1⟩
def Fld.DMC_STATUS_ue_seen (blk : Nat) : Fld := ⟨(Reg.DMC_STATUS blk), 12, 1⟩
def Fld.DMC_STATUS_lap_overdue (blk : Nat) : Fld := ⟨(Reg.DMC_STATUS blk), 13, 1⟩
def Fld.DMC_STATUS_group (blk : Nat) : Fld := ⟨(Reg.DMC_STATUS blk), 16, 4⟩
/-- DMC_CE_COUNT (R347). -/
def Reg.def_DMC_CE_COUNT : RegDef := ⟨1, [⟨31, 0, .ro, 0, false⟩]⟩
def Reg.DMC_CE_COUNT (blk : Nat) : Nat := blk + 8
def Fld.DMC_CE_COUNT_corrections (blk : Nat) : Fld := ⟨(Reg.DMC_CE_COUNT blk), 0, 32⟩
/-- DMC_MERGE (R347). -/
def Reg.def_DMC_MERGE : RegDef := ⟨1, [⟨5, 0, .ro, 0, false⟩, ⟨31, 6, .ro, 0, false⟩]⟩
def Reg.DMC_MERGE (blk : Nat) : Nat := blk + 0xC
def Fld.DMC_MERGE_entries_used (blk : Nat) : Fld := ⟨(Reg.DMC_MERGE blk), 0, 6⟩
/-- DMC_UE_OFFSET (R347). -/
def Reg.def_DMC_UE_OFFSET : RegDef := ⟨2, [⟨33, 0, .ro, 0, false⟩, ⟨63, 34, .ro, 0, false⟩]⟩
def Reg.DMC_UE_OFFSET (blk : Nat) : Nat := blk + 0x10
def Fld.DMC_UE_OFFSET_ue_offset (blk : Nat) : Fld := ⟨(Reg.DMC_UE_OFFSET blk), 0, 34⟩
/-- DMC_SCRUB_LAP (R347). -/
def Reg.def_DMC_SCRUB_LAP : RegDef := ⟨2, [⟨63, 0, .ro, 0, false⟩]⟩
def Reg.DMC_SCRUB_LAP (blk : Nat) : Nat := blk + 0x18
def Fld.DMC_SCRUB_LAP_lap_end (blk : Nat) : Fld := ⟨(Reg.DMC_SCRUB_LAP blk), 0, 64⟩
/-- DMC_SCRUB_POS (R347). -/
def Reg.def_DMC_SCRUB_POS : RegDef := ⟨1, [⟨25, 0, .ro, 0, false⟩, ⟨31, 26, .ro, 0, false⟩]⟩
def Reg.DMC_SCRUB_POS (blk : Nat) : Nat := blk + 0x20
def Fld.DMC_SCRUB_POS_position (blk : Nat) : Fld := ⟨(Reg.DMC_SCRUB_POS blk), 0, 26⟩
/-- DMC_SCRUB_LAPS (R347). -/
def Reg.def_DMC_SCRUB_LAPS : RegDef := ⟨1, [⟨31, 0, .ro, 0, false⟩]⟩
def Reg.DMC_SCRUB_LAPS (blk : Nat) : Nat := blk + 0x24
def Fld.DMC_SCRUB_LAPS_laps (blk : Nat) : Fld := ⟨(Reg.DMC_SCRUB_LAPS blk), 0, 32⟩

/-- The registers of block DMC. -/
def regTableDMC : List RegEntry :=
  [⟨0x1070000, [(0x800000, 7), (0x8000, 2)], Reg.def_DMC_CTRL⟩,
   ⟨0xE0000, [(0x1000, 2)], Reg.def_DMC_CTRL⟩,
   ⟨0x1070004, [(0x800000, 7), (0x8000, 2)], Reg.def_DMC_STATUS⟩,
   ⟨0xE0004, [(0x1000, 2)], Reg.def_DMC_STATUS⟩,
   ⟨0x1070008, [(0x800000, 7), (0x8000, 2)], Reg.def_DMC_CE_COUNT⟩,
   ⟨0xE0008, [(0x1000, 2)], Reg.def_DMC_CE_COUNT⟩,
   ⟨0x107000C, [(0x800000, 7), (0x8000, 2)], Reg.def_DMC_MERGE⟩,
   ⟨0xE000C, [(0x1000, 2)], Reg.def_DMC_MERGE⟩,
   ⟨0x1070010, [(0x800000, 7), (0x8000, 2)], Reg.def_DMC_UE_OFFSET⟩,
   ⟨0xE0010, [(0x1000, 2)], Reg.def_DMC_UE_OFFSET⟩,
   ⟨0x1070018, [(0x800000, 7), (0x8000, 2)], Reg.def_DMC_SCRUB_LAP⟩,
   ⟨0xE0018, [(0x1000, 2)], Reg.def_DMC_SCRUB_LAP⟩,
   ⟨0x1070020, [(0x800000, 7), (0x8000, 2)], Reg.def_DMC_SCRUB_POS⟩,
   ⟨0xE0020, [(0x1000, 2)], Reg.def_DMC_SCRUB_POS⟩,
   ⟨0x1070024, [(0x800000, 7), (0x8000, 2)], Reg.def_DMC_SCRUB_LAPS⟩,
   ⟨0xE0024, [(0x1000, 2)], Reg.def_DMC_SCRUB_LAPS⟩]

/-! ### CAM: cameras (R352, R355, R370) -/

/-- CAM_ROUTE_MATCH (R352). -/
def Reg.def_CAM_ROUTE_MATCH : RegDef := ⟨1, [⟨3, 0, .rw, 0, false⟩, ⟨19, 4, .rw, 0, false⟩, ⟨25, 20, .rw, 0, false⟩, ⟨31, 26, .rw, 0, false⟩]⟩
def Reg.CAM_ROUTE_MATCH (n : Nat) : Nat := 0x70100 + n * 8
def Fld.CAM_ROUTE_MATCH_port_mask (n : Nat) : Fld := ⟨(Reg.CAM_ROUTE_MATCH n), 0, 4⟩
def Fld.CAM_ROUTE_MATCH_vc_mask (n : Nat) : Fld := ⟨(Reg.CAM_ROUTE_MATCH n), 4, 16⟩
def Fld.CAM_ROUTE_MATCH_dt (n : Nat) : Fld := ⟨(Reg.CAM_ROUTE_MATCH n), 20, 6⟩
def Fld.CAM_ROUTE_MATCH_dt_care (n : Nat) : Fld := ⟨(Reg.CAM_ROUTE_MATCH n), 26, 6⟩
/-- CAM_ROUTE_ACT (R352). -/
def Reg.def_CAM_ROUTE_ACT : RegDef := ⟨1, [⟨0, 0, .rw, 0, false⟩, ⟨2, 1, .rw, 0, false⟩, ⟨6, 3, .rw, 0, false⟩, ⟨8, 7, .rw, 0, false⟩, ⟨9, 9, .rw, 0, false⟩, ⟨31, 10, .ro, 0, false⟩]⟩
def Reg.CAM_ROUTE_ACT (n : Nat) : Nat := 0x70104 + n * 8
def Fld.CAM_ROUTE_ACT_valid (n : Nat) : Fld := ⟨(Reg.CAM_ROUTE_ACT n), 0, 1⟩
def Fld.CAM_ROUTE_ACT_prio (n : Nat) : Fld := ⟨(Reg.CAM_ROUTE_ACT n), 1, 2⟩
def Fld.CAM_ROUTE_ACT_channel (n : Nat) : Fld := ⟨(Reg.CAM_ROUTE_ACT n), 3, 4⟩
def Fld.CAM_ROUTE_ACT_layer (n : Nat) : Fld := ⟨(Reg.CAM_ROUTE_ACT n), 7, 2⟩
def Fld.CAM_ROUTE_ACT_embedded (n : Nat) : Fld := ⟨(Reg.CAM_ROUTE_ACT n), 9, 1⟩
/-- CAM_CH_CTRL (R355). -/
def Reg.def_CAM_CH_CTRL : RegDef := ⟨1,
  [⟨0, 0, .rw, 0, false⟩,
   ⟨1, 1, .rw, 0, false⟩,
   ⟨3, 2, .rw, 0, false⟩,
   ⟨4, 4, .rw, 0, false⟩,
   ⟨5, 5, .rw, 0, false⟩,
   ⟨7, 6, .rw, 0, false⟩,
   ⟨13, 8, .rw, 0x2B, false⟩,
   ⟨16, 14, .rw, 1, false⟩,
   ⟨19, 17, .rw, 0, false⟩,
   ⟨21, 20, .rw, 0, false⟩,
   ⟨31, 22, .ro, 0, false⟩]⟩
def Reg.CAM_CH_CTRL (c : Nat) : Nat := 0x71000 + c * 0x100
def Fld.CAM_CH_CTRL_enable (c : Nat) : Fld := ⟨(Reg.CAM_CH_CTRL c), 0, 1⟩
def Fld.CAM_CH_CTRL_inline (c : Nat) : Fld := ⟨(Reg.CAM_CH_CTRL c), 1, 1⟩
def Fld.CAM_CH_CTRL_layers (c : Nat) : Fld := ⟨(Reg.CAM_CH_CTRL c), 2, 2⟩
def Fld.CAM_CH_CTRL_pad_last (c : Nat) : Fld := ⟨(Reg.CAM_CH_CTRL c), 4, 1⟩
def Fld.CAM_CH_CTRL_awb_auto (c : Nat) : Fld := ⟨(Reg.CAM_CH_CTRL c), 5, 1⟩
def Fld.CAM_CH_CTRL_bayer (c : Nat) : Fld := ⟨(Reg.CAM_CH_CTRL c), 6, 2⟩
def Fld.CAM_CH_CTRL_in_dt (c : Nat) : Fld := ⟨(Reg.CAM_CH_CTRL c), 8, 6⟩
def Fld.CAM_CH_CTRL_out0_fmt (c : Nat) : Fld := ⟨(Reg.CAM_CH_CTRL c), 14, 3⟩
def Fld.CAM_CH_CTRL_out1_fmt (c : Nat) : Fld := ⟨(Reg.CAM_CH_CTRL c), 17, 3⟩
def Fld.CAM_CH_CTRL_irq_mode (c : Nat) : Fld := ⟨(Reg.CAM_CH_CTRL c), 20, 2⟩
/-- CAM_CH_GEOM (R355). -/
def Reg.def_CAM_CH_GEOM : RegDef := ⟨1, [⟨15, 0, .rw, 0xF00, false⟩, ⟨31, 16, .rw, 0x870, false⟩]⟩
def Reg.CAM_CH_GEOM (c : Nat) : Nat := 0x71004 + c * 0x100
def Fld.CAM_CH_GEOM_width (c : Nat) : Fld := ⟨(Reg.CAM_CH_GEOM c), 0, 16⟩
def Fld.CAM_CH_GEOM_height (c : Nat) : Fld := ⟨(Reg.CAM_CH_GEOM c), 16, 16⟩
/-- CAM_CH_OUT1 (R355). -/
def Reg.def_CAM_CH_OUT1 : RegDef := ⟨1, [⟨15, 0, .rw, 0, false⟩, ⟨31, 16, .rw, 0, false⟩]⟩
def Reg.CAM_CH_OUT1 (c : Nat) : Nat := 0x71008 + c * 0x100
def Fld.CAM_CH_OUT1_out1_width (c : Nat) : Fld := ⟨(Reg.CAM_CH_OUT1 c), 0, 16⟩
def Fld.CAM_CH_OUT1_out1_height (c : Nat) : Fld := ⟨(Reg.CAM_CH_OUT1 c), 16, 16⟩
/-- CAM_CH_TIMING (R355). -/
def Reg.def_CAM_CH_TIMING : RegDef := ⟨1, [⟨9, 0, .rw, 0x40, false⟩, ⟨25, 10, .rw, 0x2710, false⟩, ⟨31, 26, .ro, 0, false⟩]⟩
def Reg.CAM_CH_TIMING (c : Nat) : Nat := 0x7100C + c * 0x100
def Fld.CAM_CH_TIMING_layer_deadline (c : Nat) : Fld := ⟨(Reg.CAM_CH_TIMING c), 0, 10⟩
def Fld.CAM_CH_TIMING_fe_timeout_us (c : Nat) : Fld := ⟨(Reg.CAM_CH_TIMING c), 10, 16⟩
/-- CAM_CH_OWNER (R355). -/
def Reg.def_CAM_CH_OWNER : RegDef := ⟨1, [⟨11, 0, .rw, 0, false⟩, ⟨22, 12, .rw, 0, false⟩, ⟨31, 23, .ro, 0, false⟩]⟩
def Reg.CAM_CH_OWNER (c : Nat) : Nat := 0x71010 + c * 0x100
def Fld.CAM_CH_OWNER_client (c : Nat) : Fld := ⟨(Reg.CAM_CH_OWNER c), 0, 12⟩
def Fld.CAM_CH_OWNER_msix_vector (c : Nat) : Fld := ⟨(Reg.CAM_CH_OWNER c), 12, 11⟩
/-- CAM_CH_BUF_BASE (R355). -/
def Reg.def_CAM_CH_BUF_BASE : RegDef := ⟨2, [⟨47, 0, .rw, 0, false⟩]⟩
def Reg.CAM_CH_BUF_BASE (c : Nat) : Nat := 0x71018 + c * 0x100
def Fld.CAM_CH_BUF_BASE_buf_base (c : Nat) : Fld := ⟨(Reg.CAM_CH_BUF_BASE c), 0, 48⟩
/-- CAM_CH_BUF_CFG (R355). -/
def Reg.def_CAM_CH_BUF_CFG : RegDef := ⟨1, [⟨7, 0, .rw, 4, false⟩, ⟨31, 8, .rw, 0, false⟩]⟩
def Reg.CAM_CH_BUF_CFG (c : Nat) : Nat := 0x71020 + c * 0x100
def Fld.CAM_CH_BUF_CFG_buf_count (c : Nat) : Fld := ⟨(Reg.CAM_CH_BUF_CFG c), 0, 8⟩
def Fld.CAM_CH_BUF_CFG_buf_stride (c : Nat) : Fld := ⟨(Reg.CAM_CH_BUF_CFG c), 8, 24⟩
/-- CAM_CH_REC_BASE (R355). -/
def Reg.def_CAM_CH_REC_BASE : RegDef := ⟨2, [⟨47, 0, .rw, 0, false⟩]⟩
def Reg.CAM_CH_REC_BASE (c : Nat) : Nat := 0x71028 + c * 0x100
def Fld.CAM_CH_REC_BASE_rec_base (c : Nat) : Fld := ⟨(Reg.CAM_CH_REC_BASE c), 0, 48⟩
/-- CAM_CH_CONSUMED (R355). -/
def Reg.def_CAM_CH_CONSUMED : RegDef := ⟨2, [⟨47, 0, .rw, 0, false⟩]⟩
def Reg.CAM_CH_CONSUMED (c : Nat) : Nat := 0x71030 + c * 0x100
def Fld.CAM_CH_CONSUMED_consumed_addr (c : Nat) : Fld := ⟨(Reg.CAM_CH_CONSUMED c), 0, 48⟩
/-- CAM_CH_TUNE (R355). -/
def Reg.def_CAM_CH_TUNE : RegDef := ⟨2, [⟨47, 0, .rw, 0, true⟩]⟩
def Reg.CAM_CH_TUNE (c : Nat) : Nat := 0x71038 + c * 0x100
def Fld.CAM_CH_TUNE_tune_addr (c : Nat) : Fld := ⟨(Reg.CAM_CH_TUNE c), 0, 48⟩
/-- CAM_CH_RAW_BASE (R355). -/
def Reg.def_CAM_CH_RAW_BASE : RegDef := ⟨2, [⟨47, 0, .rw, 0, false⟩]⟩
def Reg.CAM_CH_RAW_BASE (c : Nat) : Nat := 0x71040 + c * 0x100
def Fld.CAM_CH_RAW_BASE_raw_base (c : Nat) : Fld := ⟨(Reg.CAM_CH_RAW_BASE c), 0, 48⟩
/-- CAM_CH_RAW_CFG (R355). -/
def Reg.def_CAM_CH_RAW_CFG : RegDef := ⟨1, [⟨3, 0, .rw, 2, false⟩, ⟨31, 4, .rw, 0, false⟩]⟩
def Reg.CAM_CH_RAW_CFG (c : Nat) : Nat := 0x71048 + c * 0x100
def Fld.CAM_CH_RAW_CFG_raw_count (c : Nat) : Fld := ⟨(Reg.CAM_CH_RAW_CFG c), 0, 4⟩
def Fld.CAM_CH_RAW_CFG_raw_stride (c : Nat) : Fld := ⟨(Reg.CAM_CH_RAW_CFG c), 4, 28⟩
/-- CAM_CH_STATUS (R355). -/
def Reg.def_CAM_CH_STATUS : RegDef := ⟨1, [⟨0, 0, .w1c, 0, false⟩, ⟨1, 1, .w1c, 0, false⟩, ⟨2, 2, .w1c, 0, false⟩, ⟨3, 3, .w1c, 0, false⟩, ⟨7, 4, .ro, 0, false⟩, ⟨31, 8, .ro, 0, false⟩]⟩
def Reg.CAM_CH_STATUS (c : Nat) : Nat := 0x71050 + c * 0x100
def Fld.CAM_CH_STATUS_write_ignored (c : Nat) : Fld := ⟨(Reg.CAM_CH_STATUS c), 0, 1⟩
def Fld.CAM_CH_STATUS_route_error (c : Nat) : Fld := ⟨(Reg.CAM_CH_STATUS c), 1, 1⟩
def Fld.CAM_CH_STATUS_frame_flagged (c : Nat) : Fld := ⟨(Reg.CAM_CH_STATUS c), 2, 1⟩
def Fld.CAM_CH_STATUS_dropped_seen (c : Nat) : Fld := ⟨(Reg.CAM_CH_STATUS c), 3, 1⟩
def Fld.CAM_CH_STATUS_cfg_error (c : Nat) : Fld := ⟨(Reg.CAM_CH_STATUS c), 4, 4⟩
/-- CAM_CH_DROPS (R355). -/
def Reg.def_CAM_CH_DROPS : RegDef := ⟨1, [⟨31, 0, .ro, 0, false⟩]⟩
def Reg.CAM_CH_DROPS (c : Nat) : Nat := 0x71054 + c * 0x100
def Fld.CAM_CH_DROPS_drops (c : Nat) : Fld := ⟨(Reg.CAM_CH_DROPS c), 0, 32⟩
/-- CAM_PORT_CTRL (R370). -/
def Reg.def_CAM_PORT_CTRL : RegDef := ⟨1, [⟨0, 0, .rw, 0, false⟩, ⟨1, 1, .rw, 0, false⟩, ⟨3, 2, .rw, 2, false⟩, ⟨11, 4, .rw, 0x20, true⟩, ⟨31, 12, .ro, 0, false⟩]⟩
def Reg.CAM_PORT_CTRL (p : Nat) : Nat := 0x70000 + p * 0x40
def Fld.CAM_PORT_CTRL_enable (p : Nat) : Fld := ⟨(Reg.CAM_PORT_CTRL p), 0, 1⟩
def Fld.CAM_PORT_CTRL_phy (p : Nat) : Fld := ⟨(Reg.CAM_PORT_CTRL p), 1, 1⟩
def Fld.CAM_PORT_CTRL_lanes (p : Nat) : Fld := ⟨(Reg.CAM_PORT_CTRL p), 2, 2⟩
def Fld.CAM_PORT_CTRL_settle (p : Nat) : Fld := ⟨(Reg.CAM_PORT_CTRL p), 4, 8⟩
/-- CAM_PORT_STATUS (R370). -/
def Reg.def_CAM_PORT_STATUS : RegDef := ⟨1,
  [⟨0, 0, .w1c, 0, false⟩,
   ⟨1, 1, .w1c, 0, false⟩,
   ⟨2, 2, .w1c, 0, false⟩,
   ⟨3, 3, .w1c, 0, false⟩,
   ⟨4, 4, .w1c, 0, false⟩,
   ⟨5, 5, .w1c, 0, false⟩,
   ⟨6, 6, .w1c, 0, false⟩,
   ⟨7, 7, .w1c, 0, false⟩,
   ⟨8, 8, .w1c, 0, false⟩,
   ⟨9, 9, .ro, 1, false⟩,
   ⟨31, 10, .ro, 0, false⟩]⟩
def Reg.CAM_PORT_STATUS (p : Nat) : Nat := 0x70004 + p * 0x40
def Fld.CAM_PORT_STATUS_sot_error (p : Nat) : Fld := ⟨(Reg.CAM_PORT_STATUS p), 0, 1⟩
def Fld.CAM_PORT_STATUS_sync_error (p : Nat) : Fld := ⟨(Reg.CAM_PORT_STATUS p), 1, 1⟩
def Fld.CAM_PORT_STATUS_ecc_corrected (p : Nat) : Fld := ⟨(Reg.CAM_PORT_STATUS p), 2, 1⟩
def Fld.CAM_PORT_STATUS_header_lost (p : Nat) : Fld := ⟨(Reg.CAM_PORT_STATUS p), 3, 1⟩
def Fld.CAM_PORT_STATUS_crc_error (p : Nat) : Fld := ⟨(Reg.CAM_PORT_STATUS p), 4, 1⟩
def Fld.CAM_PORT_STATUS_overflow (p : Nat) : Fld := ⟨(Reg.CAM_PORT_STATUS p), 5, 1⟩
def Fld.CAM_PORT_STATUS_unknown_dt (p : Nat) : Fld := ⟨(Reg.CAM_PORT_STATUS p), 6, 1⟩
def Fld.CAM_PORT_STATUS_unrouted (p : Nat) : Fld := ⟨(Reg.CAM_PORT_STATUS p), 7, 1⟩
def Fld.CAM_PORT_STATUS_multi_match (p : Nat) : Fld := ⟨(Reg.CAM_PORT_STATUS p), 8, 1⟩
def Fld.CAM_PORT_STATUS_stop_state (p : Nat) : Fld := ⟨(Reg.CAM_PORT_STATUS p), 9, 1⟩
/-- CAM_PORT_CNT (R370). -/
def Reg.def_CAM_PORT_CNT : RegDef := ⟨1, [⟨15, 0, .ro, 0, false⟩, ⟨31, 16, .ro, 0, false⟩]⟩
def Reg.CAM_PORT_CNT (p : Nat) : Nat := 0x70008 + p * 0x40
def Fld.CAM_PORT_CNT_discarded (p : Nat) : Fld := ⟨(Reg.CAM_PORT_CNT p), 0, 16⟩
def Fld.CAM_PORT_CNT_crc_errors (p : Nat) : Fld := ⟨(Reg.CAM_PORT_CNT p), 16, 16⟩
/-- CAM_STATUS (R370). -/
def Reg.def_CAM_STATUS : RegDef := ⟨1, [⟨0, 0, .w1c, 0, false⟩]⟩
def Reg.CAM_STATUS : Nat := 0x70400
def Fld.CAM_STATUS_expert_write_ignored : Fld := ⟨Reg.CAM_STATUS, 0, 1⟩

/-- The registers of block CAM. -/
def regTableCAM : List RegEntry :=
  [⟨0x70100, [(8, 64)], Reg.def_CAM_ROUTE_MATCH⟩,
   ⟨0x70104, [(8, 64)], Reg.def_CAM_ROUTE_ACT⟩,
   ⟨0x71000, [(0x100, 16)], Reg.def_CAM_CH_CTRL⟩,
   ⟨0x71004, [(0x100, 16)], Reg.def_CAM_CH_GEOM⟩,
   ⟨0x71008, [(0x100, 16)], Reg.def_CAM_CH_OUT1⟩,
   ⟨0x7100C, [(0x100, 16)], Reg.def_CAM_CH_TIMING⟩,
   ⟨0x71010, [(0x100, 16)], Reg.def_CAM_CH_OWNER⟩,
   ⟨0x71018, [(0x100, 16)], Reg.def_CAM_CH_BUF_BASE⟩,
   ⟨0x71020, [(0x100, 16)], Reg.def_CAM_CH_BUF_CFG⟩,
   ⟨0x71028, [(0x100, 16)], Reg.def_CAM_CH_REC_BASE⟩,
   ⟨0x71030, [(0x100, 16)], Reg.def_CAM_CH_CONSUMED⟩,
   ⟨0x71038, [(0x100, 16)], Reg.def_CAM_CH_TUNE⟩,
   ⟨0x71040, [(0x100, 16)], Reg.def_CAM_CH_RAW_BASE⟩,
   ⟨0x71048, [(0x100, 16)], Reg.def_CAM_CH_RAW_CFG⟩,
   ⟨0x71050, [(0x100, 16)], Reg.def_CAM_CH_STATUS⟩,
   ⟨0x71054, [(0x100, 16)], Reg.def_CAM_CH_DROPS⟩,
   ⟨0x70000, [(0x40, 4)], Reg.def_CAM_PORT_CTRL⟩,
   ⟨0x70004, [(0x40, 4)], Reg.def_CAM_PORT_STATUS⟩,
   ⟨0x70008, [(0x40, 4)], Reg.def_CAM_PORT_CNT⟩,
   ⟨0x70400, [], Reg.def_CAM_STATUS⟩]

/-! ### AUD: audio (R400, R401) -/

/-- AUD_CTRL (R400). -/
def Reg.def_AUD_CTRL : RegDef := ⟨1,
  [⟨0, 0, .rw, 0, false⟩,
   ⟨16, 1, .rw, 0, false⟩,
   ⟨18, 17, .rw, 2, false⟩,
   ⟨20, 19, .rw, 1, false⟩,
   ⟨22, 21, .rw, 2, false⟩,
   ⟨24, 23, .rw, 1, false⟩,
   ⟨30, 25, .rw, 0x14, true⟩,
   ⟨31, 31, .ro, 0, false⟩]⟩
def Reg.AUD_CTRL : Nat := 0x90000
def Fld.AUD_CTRL_enable : Fld := ⟨Reg.AUD_CTRL, 0, 1⟩
def Fld.AUD_CTRL_mic_enable : Fld := ⟨Reg.AUD_CTRL, 1, 16⟩
def Fld.AUD_CTRL_mode_run0 : Fld := ⟨Reg.AUD_CTRL, 17, 2⟩
def Fld.AUD_CTRL_mode_sleep0 : Fld := ⟨Reg.AUD_CTRL, 19, 2⟩
def Fld.AUD_CTRL_mode_run1 : Fld := ⟨Reg.AUD_CTRL, 21, 2⟩
def Fld.AUD_CTRL_mode_sleep1 : Fld := ⟨Reg.AUD_CTRL, 23, 2⟩
def Fld.AUD_CTRL_settle_ms : Fld := ⟨Reg.AUD_CTRL, 25, 6⟩
/-- AUD_ADC_CTRL (R400). -/
def Reg.def_AUD_ADC_CTRL : RegDef := ⟨1, [⟨0, 0, .rw, 0, false⟩, ⟨2, 1, .rw, 0, false⟩, ⟨3, 3, .rw, 0, false⟩, ⟨13, 4, .rw, 0x1F4, true⟩, ⟨31, 14, .ro, 0, false⟩]⟩
def Reg.AUD_ADC_CTRL (n : Nat) : Nat := 0x90010 + n * 4
def Fld.AUD_ADC_CTRL_adc_enable (n : Nat) : Fld := ⟨(Reg.AUD_ADC_CTRL n), 0, 1⟩
def Fld.AUD_ADC_CTRL_range (n : Nat) : Fld := ⟨(Reg.AUD_ADC_CTRL n), 1, 2⟩
def Fld.AUD_ADC_CTRL_auto_range (n : Nat) : Fld := ⟨(Reg.AUD_ADC_CTRL n), 3, 1⟩
def Fld.AUD_ADC_CTRL_down_hold_ms (n : Nat) : Fld := ⟨(Reg.AUD_ADC_CTRL n), 4, 10⟩
/-- AUD_MUTE (R400). -/
def Reg.def_AUD_MUTE : RegDef := ⟨1, [⟨0, 0, .rw, 0, false⟩, ⟨1, 1, .ro, 0, false⟩, ⟨2, 2, .ro, 0, false⟩, ⟨3, 3, .w1c, 0, false⟩, ⟨4, 4, .wo, 0, false⟩, ⟨31, 5, .ro, 0, false⟩]⟩
def Reg.AUD_MUTE : Nat := 0x90030
def Fld.AUD_MUTE_mute : Fld := ⟨Reg.AUD_MUTE, 0, 1⟩
def Fld.AUD_MUTE_pin_muted : Fld := ⟨Reg.AUD_MUTE, 1, 1⟩
def Fld.AUD_MUTE_muted : Fld := ⟨Reg.AUD_MUTE, 2, 1⟩
def Fld.AUD_MUTE_mic_vdd_fault : Fld := ⟨Reg.AUD_MUTE, 3, 1⟩
def Fld.AUD_MUTE_mic_vdd_retry : Fld := ⟨Reg.AUD_MUTE, 4, 1⟩
/-- AUD_STATUS (R400). -/
def Reg.def_AUD_STATUS : RegDef := ⟨1, [⟨0, 0, .w1c, 0, false⟩, ⟨1, 1, .w1c, 0, false⟩, ⟨2, 2, .w1c, 0, false⟩, ⟨3, 3, .w1c, 0, false⟩, ⟨31, 4, .ro, 0, false⟩]⟩
def Reg.AUD_STATUS : Nat := 0x90034
def Fld.AUD_STATUS_write_ignored : Fld := ⟨Reg.AUD_STATUS, 0, 1⟩
def Fld.AUD_STATUS_hist_error : Fld := ⟨Reg.AUD_STATUS, 1, 1⟩
def Fld.AUD_STATUS_clip_seen : Fld := ⟨Reg.AUD_STATUS, 2, 1⟩
def Fld.AUD_STATUS_expert_write_ignored : Fld := ⟨Reg.AUD_STATUS, 3, 1⟩
/-- AUD_INDEX (R400). -/
def Reg.def_AUD_INDEX : RegDef := ⟨2, [⟨63, 0, .ro, 0, false⟩]⟩
def Reg.AUD_INDEX : Nat := 0x90038
def Fld.AUD_INDEX_index : Fld := ⟨Reg.AUD_INDEX, 0, 64⟩
/-- AUD_LATCH (R400). -/
def Reg.def_AUD_LATCH : RegDef := ⟨1, [⟨0, 0, .wo, 0, false⟩]⟩
def Reg.AUD_LATCH : Nat := 0x90048
def Fld.AUD_LATCH_latch : Fld := ⟨Reg.AUD_LATCH, 0, 1⟩
/-- AUD_LATCH_INDEX (R400). -/
def Reg.def_AUD_LATCH_INDEX : RegDef := ⟨2, [⟨63, 0, .ro, 0, false⟩]⟩
def Reg.AUD_LATCH_INDEX : Nat := 0x90050
def Fld.AUD_LATCH_INDEX_latched_index : Fld := ⟨Reg.AUD_LATCH_INDEX, 0, 64⟩
/-- AUD_LATCH_TB (R400). -/
def Reg.def_AUD_LATCH_TB : RegDef := ⟨2, [⟨63, 0, .ro, 0, false⟩]⟩
def Reg.AUD_LATCH_TB : Nat := 0x90058
def Fld.AUD_LATCH_TB_latched_tb : Fld := ⟨Reg.AUD_LATCH_TB, 0, 64⟩
/-- AUD_BEAM (R401). -/
def Reg.def_AUD_BEAM : RegDef := ⟨1, [⟨13, 0, .rw, 0, false⟩, ⟨15, 14, .ro, 0, false⟩, ⟨31, 16, .rw, 0, false⟩]⟩
def Reg.AUD_BEAM (b c : Nat) : Nat := 0x90100 + b * 0x40 + c * 4
def Fld.AUD_BEAM_delay (b c : Nat) : Fld := ⟨(Reg.AUD_BEAM b c), 0, 14⟩
def Fld.AUD_BEAM_weight (b c : Nat) : Fld := ⟨(Reg.AUD_BEAM b c), 16, 16⟩
/-- AUD_HIST_ENTRY (R401). -/
def Reg.def_AUD_HIST_ENTRY : RegDef := ⟨1, [⟨6, 0, .rw, 0, false⟩, ⟨7, 7, .rw, 0, false⟩, ⟨8, 8, .rw, 0, false⟩, ⟨9, 9, .rw, 0, false⟩, ⟨31, 10, .ro, 0, false⟩]⟩
def Reg.AUD_HIST_ENTRY (e : Nat) : Nat := 0x90200 + e * 4
def Fld.AUD_HIST_ENTRY_source (e : Nat) : Fld := ⟨(Reg.AUD_HIST_ENTRY e), 0, 7⟩
def Fld.AUD_HIST_ENTRY_rate48 (e : Nat) : Fld := ⟨(Reg.AUD_HIST_ENTRY e), 7, 1⟩
def Fld.AUD_HIST_ENTRY_hist_enable (e : Nat) : Fld := ⟨(Reg.AUD_HIST_ENTRY e), 8, 1⟩
def Fld.AUD_HIST_ENTRY_capture (e : Nat) : Fld := ⟨(Reg.AUD_HIST_ENTRY e), 9, 1⟩
/-- AUD_TDM_CTRL (R401). -/
def Reg.def_AUD_TDM_CTRL : RegDef := ⟨1, [⟨0, 0, .rw, 0, false⟩, ⟨2, 1, .rw, 0, false⟩, ⟨4, 3, .rw, 1, false⟩, ⟨5, 5, .rw, 1, false⟩, ⟨15, 6, .rw, 0x10, false⟩, ⟨31, 16, .ro, 0, false⟩]⟩
def Reg.AUD_TDM_CTRL : Nat := 0x90300
def Fld.AUD_TDM_CTRL_tdm_enable : Fld := ⟨Reg.AUD_TDM_CTRL, 0, 1⟩
def Fld.AUD_TDM_CTRL_slots : Fld := ⟨Reg.AUD_TDM_CTRL, 1, 2⟩
def Fld.AUD_TDM_CTRL_slot_bits : Fld := ⟨Reg.AUD_TDM_CTRL, 3, 2⟩
def Fld.AUD_TDM_CTRL_tdm_rate48 : Fld := ⟨Reg.AUD_TDM_CTRL, 5, 1⟩
def Fld.AUD_TDM_CTRL_play_count : Fld := ⟨Reg.AUD_TDM_CTRL, 6, 10⟩
def Fld.AUD_TDM_CTRL_underrun_ms : Fld := ⟨Reg.AUD_TDM_CTRL, 16, 16⟩
/-- AUD_PLAY_BASE (R401). -/
def Reg.def_AUD_PLAY_BASE : RegDef := ⟨2, [⟨47, 0, .rw, 0, false⟩]⟩
def Reg.AUD_PLAY_BASE : Nat := 0x90308
def Fld.AUD_PLAY_BASE_play_base : Fld := ⟨Reg.AUD_PLAY_BASE, 0, 48⟩
/-- AUD_PLAY_PRODUCED (R401). -/
def Reg.def_AUD_PLAY_PRODUCED : RegDef := ⟨2, [⟨47, 0, .rw, 0, false⟩]⟩
def Reg.AUD_PLAY_PRODUCED : Nat := 0x90310
def Fld.AUD_PLAY_PRODUCED_produced_addr : Fld := ⟨Reg.AUD_PLAY_PRODUCED, 0, 48⟩

/-- The registers of block AUD. -/
def regTableAUD : List RegEntry :=
  [⟨0x90000, [], Reg.def_AUD_CTRL⟩,
   ⟨0x90010, [(4, 2)], Reg.def_AUD_ADC_CTRL⟩,
   ⟨0x90030, [], Reg.def_AUD_MUTE⟩,
   ⟨0x90034, [], Reg.def_AUD_STATUS⟩,
   ⟨0x90038, [], Reg.def_AUD_INDEX⟩,
   ⟨0x90048, [], Reg.def_AUD_LATCH⟩,
   ⟨0x90050, [], Reg.def_AUD_LATCH_INDEX⟩,
   ⟨0x90058, [], Reg.def_AUD_LATCH_TB⟩,
   ⟨0x90100, [(0x40, 4), (4, 16)], Reg.def_AUD_BEAM⟩,
   ⟨0x90200, [(4, 24)], Reg.def_AUD_HIST_ENTRY⟩,
   ⟨0x90300, [], Reg.def_AUD_TDM_CTRL⟩,
   ⟨0x90308, [], Reg.def_AUD_PLAY_BASE⟩,
   ⟨0x90310, [], Reg.def_AUD_PLAY_PRODUCED⟩]

/-! ### WAK: wake chain (R402) -/

/-- WAK_CTRL (R402). -/
def Reg.def_WAK_CTRL : RegDef := ⟨1,
  [⟨0, 0, .rw, 0, false⟩,
   ⟨1, 1, .rw, 0, false⟩,
   ⟨2, 2, .rw, 0, false⟩,
   ⟨3, 3, .rw, 1, false⟩,
   ⟨8, 4, .rw, 0, false⟩,
   ⟨18, 9, .rw, 0x12C, true⟩,
   ⟨28, 19, .rw, 0x1F4, true⟩,
   ⟨31, 29, .ro, 0, false⟩]⟩
def Reg.WAK_CTRL : Nat := 0xA0000
def Fld.WAK_CTRL_tinder_enable : Fld := ⟨Reg.WAK_CTRL, 0, 1⟩
def Fld.WAK_CTRL_kindling_enable : Fld := ⟨Reg.WAK_CTRL, 1, 1⟩
def Fld.WAK_CTRL_presence_enable : Fld := ⟨Reg.WAK_CTRL, 2, 1⟩
def Fld.WAK_CTRL_vad_gate : Fld := ⟨Reg.WAK_CTRL, 3, 1⟩
def Fld.WAK_CTRL_tinder_src : Fld := ⟨Reg.WAK_CTRL, 4, 5⟩
def Fld.WAK_CTRL_confirm_ms : Fld := ⟨Reg.WAK_CTRL, 9, 10⟩
def Fld.WAK_CTRL_reply_ms : Fld := ⟨Reg.WAK_CTRL, 19, 10⟩
/-- WAK_KW (R402). -/
def Reg.def_WAK_KW : RegDef := ⟨1, [⟨15, 0, .rw, 0x200, false⟩, ⟨19, 16, .rw, 3, false⟩, ⟨20, 20, .rw, 0, false⟩, ⟨31, 21, .ro, 0, false⟩]⟩
def Reg.WAK_KW (k : Nat) : Nat := 0xA0010 + k * 4
def Fld.WAK_KW_kw_thresh (k : Nat) : Fld := ⟨(Reg.WAK_KW k), 0, 16⟩
def Fld.WAK_KW_kw_hold (k : Nat) : Fld := ⟨(Reg.WAK_KW k), 16, 4⟩
def Fld.WAK_KW_kw_enable (k : Nat) : Fld := ⟨(Reg.WAK_KW k), 20, 1⟩
/-- WAK_VAD (R402). -/
def Reg.def_WAK_VAD : RegDef := ⟨1, [⟨15, 0, .rw, 0, false⟩, ⟨31, 16, .ro, 0, false⟩]⟩
def Reg.WAK_VAD : Nat := 0xA0030
def Fld.WAK_VAD_vad_thresh : Fld := ⟨Reg.WAK_VAD, 0, 16⟩
/-- WAK_PRES (R402). -/
def Reg.def_WAK_PRES : RegDef := ⟨1, [⟨1, 0, .rw, 0, false⟩, ⟨5, 2, .rw, 0, false⟩, ⟨13, 6, .rw, 0x10, true⟩, ⟨19, 14, .rw, 4, true⟩, ⟨31, 20, .ro, 0, false⟩]⟩
def Reg.WAK_PRES : Nat := 0xA0034
def Fld.WAK_PRES_pres_port : Fld := ⟨Reg.WAK_PRES, 0, 2⟩
def Fld.WAK_PRES_pres_vc : Fld := ⟨Reg.WAK_PRES, 2, 4⟩
def Fld.WAK_PRES_pres_delta : Fld := ⟨Reg.WAK_PRES, 6, 8⟩
def Fld.WAK_PRES_pres_zones : Fld := ⟨Reg.WAK_PRES, 14, 6⟩
/-- WAK_CLIENT (R402). -/
def Reg.def_WAK_CLIENT : RegDef := ⟨1, [⟨11, 0, .rw, 0, false⟩, ⟨31, 12, .rw, 0, false⟩]⟩
def Reg.WAK_CLIENT : Nat := 0xA0040
def Fld.WAK_CLIENT_client : Fld := ⟨Reg.WAK_CLIENT, 0, 12⟩
def Fld.WAK_CLIENT_wake_ring : Fld := ⟨Reg.WAK_CLIENT, 12, 20⟩
/-- WAK_IRQ (R402). -/
def Reg.def_WAK_IRQ : RegDef := ⟨1, [⟨10, 0, .rw, 0, false⟩, ⟨18, 11, .rw, 0x10, false⟩, ⟨31, 19, .ro, 0, false⟩]⟩
def Reg.WAK_IRQ : Nat := 0xA0044
def Fld.WAK_IRQ_msix_vector : Fld := ⟨Reg.WAK_IRQ, 0, 11⟩
def Fld.WAK_IRQ_rec_count : Fld := ⟨Reg.WAK_IRQ, 11, 8⟩
/-- WAK_REC_BASE (R402). -/
def Reg.def_WAK_REC_BASE : RegDef := ⟨2, [⟨47, 0, .rw, 0, false⟩]⟩
def Reg.WAK_REC_BASE : Nat := 0xA0048
def Fld.WAK_REC_BASE_rec_base : Fld := ⟨Reg.WAK_REC_BASE, 0, 48⟩
/-- WAK_CTL_ADDR (R402). -/
def Reg.def_WAK_CTL_ADDR : RegDef := ⟨2, [⟨47, 0, .rw, 0, false⟩]⟩
def Reg.WAK_CTL_ADDR : Nat := 0xA0050
def Fld.WAK_CTL_ADDR_ctl_addr : Fld := ⟨Reg.WAK_CTL_ADDR, 0, 48⟩
/-- WAK_CAP_BASE (R402). -/
def Reg.def_WAK_CAP_BASE : RegDef := ⟨2, [⟨47, 0, .rw, 0, false⟩]⟩
def Reg.WAK_CAP_BASE : Nat := 0xA0058
def Fld.WAK_CAP_BASE_cap_base : Fld := ⟨Reg.WAK_CAP_BASE, 0, 48⟩
/-- WAK_CAP_CONSUMED (R402). -/
def Reg.def_WAK_CAP_CONSUMED : RegDef := ⟨2, [⟨47, 0, .rw, 0, false⟩]⟩
def Reg.WAK_CAP_CONSUMED : Nat := 0xA0060
def Fld.WAK_CAP_CONSUMED_consumed_addr : Fld := ⟨Reg.WAK_CAP_CONSUMED, 0, 48⟩
/-- WAK_ENC_BASE (R402). -/
def Reg.def_WAK_ENC_BASE : RegDef := ⟨2, [⟨47, 0, .rw, 0, false⟩]⟩
def Reg.WAK_ENC_BASE : Nat := 0xA0068
def Fld.WAK_ENC_BASE_enc_base : Fld := ⟨Reg.WAK_ENC_BASE, 0, 48⟩
/-- WAK_CAP_CFG (R402). -/
def Reg.def_WAK_CAP_CFG : RegDef := ⟨1, [⟨9, 0, .rw, 0x100, false⟩, ⟨21, 10, .rw, 4, false⟩, ⟨31, 22, .rw, 0x40, false⟩]⟩
def Reg.WAK_CAP_CFG : Nat := 0xA0070
def Fld.WAK_CAP_CFG_cap_count : Fld := ⟨Reg.WAK_CAP_CFG, 0, 10⟩
def Fld.WAK_CAP_CFG_cap_stride : Fld := ⟨Reg.WAK_CAP_CFG, 10, 12⟩
def Fld.WAK_CAP_CFG_enc_count : Fld := ⟨Reg.WAK_CAP_CFG, 22, 10⟩
/-- WAK_TINDER_IMG (R402). -/
def Reg.def_WAK_TINDER_IMG : RegDef := ⟨2, [⟨47, 0, .rw, 0, false⟩]⟩
def Reg.WAK_TINDER_IMG : Nat := 0xA0078
def Fld.WAK_TINDER_IMG_tinder_img : Fld := ⟨Reg.WAK_TINDER_IMG, 0, 48⟩
/-- WAK_KND_IMG (R402). -/
def Reg.def_WAK_KND_IMG : RegDef := ⟨2, [⟨47, 0, .rw, 0, false⟩]⟩
def Reg.WAK_KND_IMG : Nat := 0xA0080
def Fld.WAK_KND_IMG_kindling_img : Fld := ⟨Reg.WAK_KND_IMG, 0, 48⟩
/-- WAK_LOAD (R402). -/
def Reg.def_WAK_LOAD : RegDef := ⟨1, [⟨0, 0, .wo, 0, false⟩, ⟨1, 1, .wo, 0, false⟩, ⟨2, 2, .ro, 0, false⟩, ⟨5, 3, .ro, 0, false⟩, ⟨31, 6, .ro, 0, false⟩]⟩
def Reg.WAK_LOAD : Nat := 0xA0088
def Fld.WAK_LOAD_load_tinder : Fld := ⟨Reg.WAK_LOAD, 0, 1⟩
def Fld.WAK_LOAD_load_kindling : Fld := ⟨Reg.WAK_LOAD, 1, 1⟩
def Fld.WAK_LOAD_load_busy : Fld := ⟨Reg.WAK_LOAD, 2, 1⟩
def Fld.WAK_LOAD_load_error : Fld := ⟨Reg.WAK_LOAD, 3, 3⟩
/-- WAK_STATE (R402). -/
def Reg.def_WAK_STATE : RegDef := ⟨1, [⟨1, 0, .ro, 0, false⟩, ⟨2, 2, .ro, 0, false⟩, ⟨3, 3, .w1c, 0, false⟩, ⟨31, 4, .ro, 0, false⟩]⟩
def Reg.WAK_STATE : Nat := 0xA0090
def Fld.WAK_STATE_stage : Fld := ⟨Reg.WAK_STATE, 0, 2⟩
def Fld.WAK_STATE_capture_open : Fld := ⟨Reg.WAK_STATE, 2, 1⟩
def Fld.WAK_STATE_write_ignored : Fld := ⟨Reg.WAK_STATE, 3, 1⟩
/-- WAK_CNT0 (R402). -/
def Reg.def_WAK_CNT0 : RegDef := ⟨1, [⟨31, 0, .ro, 0, false⟩]⟩
def Reg.WAK_CNT0 : Nat := 0xA0098
def Fld.WAK_CNT0_esc_tinder : Fld := ⟨Reg.WAK_CNT0, 0, 32⟩
/-- WAK_CNT1 (R402). -/
def Reg.def_WAK_CNT1 : RegDef := ⟨1, [⟨31, 0, .ro, 0, false⟩]⟩
def Reg.WAK_CNT1 : Nat := 0xA009C
def Fld.WAK_CNT1_esc_kindling : Fld := ⟨Reg.WAK_CNT1, 0, 32⟩
/-- WAK_CNT2 (R402). -/
def Reg.def_WAK_CNT2 : RegDef := ⟨1, [⟨31, 0, .ro, 0, false⟩]⟩
def Reg.WAK_CNT2 : Nat := 0xA00A0
def Fld.WAK_CNT2_false_kindling : Fld := ⟨Reg.WAK_CNT2, 0, 32⟩
/-- WAK_CNT3 (R402). -/
def Reg.def_WAK_CNT3 : RegDef := ⟨1, [⟨31, 0, .ro, 0, false⟩]⟩
def Reg.WAK_CNT3 : Nat := 0xA00A4
def Fld.WAK_CNT3_false_blaze : Fld := ⟨Reg.WAK_CNT3, 0, 32⟩
/-- WAK_CNT4 (R402). -/
def Reg.def_WAK_CNT4 : RegDef := ⟨1, [⟨15, 0, .ro, 0, false⟩, ⟨31, 16, .ro, 0, false⟩]⟩
def Reg.WAK_CNT4 : Nat := 0xA00A8
def Fld.WAK_CNT4_timeout_blaze : Fld := ⟨Reg.WAK_CNT4, 0, 16⟩
def Fld.WAK_CNT4_overrun : Fld := ⟨Reg.WAK_CNT4, 16, 16⟩

/-- The registers of block WAK. -/
def regTableWAK : List RegEntry :=
  [⟨0xA0000, [], Reg.def_WAK_CTRL⟩,
   ⟨0xA0010, [(4, 8)], Reg.def_WAK_KW⟩,
   ⟨0xA0030, [], Reg.def_WAK_VAD⟩,
   ⟨0xA0034, [], Reg.def_WAK_PRES⟩,
   ⟨0xA0040, [], Reg.def_WAK_CLIENT⟩,
   ⟨0xA0044, [], Reg.def_WAK_IRQ⟩,
   ⟨0xA0048, [], Reg.def_WAK_REC_BASE⟩,
   ⟨0xA0050, [], Reg.def_WAK_CTL_ADDR⟩,
   ⟨0xA0058, [], Reg.def_WAK_CAP_BASE⟩,
   ⟨0xA0060, [], Reg.def_WAK_CAP_CONSUMED⟩,
   ⟨0xA0068, [], Reg.def_WAK_ENC_BASE⟩,
   ⟨0xA0070, [], Reg.def_WAK_CAP_CFG⟩,
   ⟨0xA0078, [], Reg.def_WAK_TINDER_IMG⟩,
   ⟨0xA0080, [], Reg.def_WAK_KND_IMG⟩,
   ⟨0xA0088, [], Reg.def_WAK_LOAD⟩,
   ⟨0xA0090, [], Reg.def_WAK_STATE⟩,
   ⟨0xA0098, [], Reg.def_WAK_CNT0⟩,
   ⟨0xA009C, [], Reg.def_WAK_CNT1⟩,
   ⟨0xA00A0, [], Reg.def_WAK_CNT2⟩,
   ⟨0xA00A4, [], Reg.def_WAK_CNT3⟩,
   ⟨0xA00A8, [], Reg.def_WAK_CNT4⟩]

/-! ### CFR: die recovery (R417) -/

/-- CFR_CTRL (R417). -/
def Reg.def_CFR_CTRL : RegDef := ⟨1, [⟨0, 0, .wo, 0, false⟩, ⟨1, 1, .wo, 0, false⟩, ⟨2, 2, .wo, 0, false⟩, ⟨3, 3, .rw, 0, false⟩, ⟨31, 4, .ro, 0, false⟩]⟩
def Reg.CFR_CTRL (d : Nat) : Nat := dieBase d + 0xA0000
def Fld.CFR_CTRL_drain (d : Nat) : Fld := ⟨(Reg.CFR_CTRL d), 0, 1⟩
def Fld.CFR_CTRL_logic_off (d : Nat) : Fld := ⟨(Reg.CFR_CTRL d), 1, 1⟩
def Fld.CFR_CTRL_release (d : Nat) : Fld := ⟨(Reg.CFR_CTRL d), 2, 1⟩
def Fld.CFR_CTRL_hold_out (d : Nat) : Fld := ⟨(Reg.CFR_CTRL d), 3, 1⟩
/-- CFR_STATUS (R417). -/
def Reg.def_CFR_STATUS : RegDef := ⟨1, [⟨0, 0, .ro, 0, false⟩, ⟨1, 1, .ro, 0, false⟩, ⟨2, 2, .w1c, 0, false⟩, ⟨7, 3, .ro, 0, false⟩, ⟨15, 8, .ro, 0, false⟩, ⟨31, 16, .ro, 0, false⟩]⟩
def Reg.CFR_STATUS (d : Nat) : Nat := dieBase d + 0xA0004
def Fld.CFR_STATUS_drained (d : Nat) : Fld := ⟨(Reg.CFR_STATUS d), 0, 1⟩
def Fld.CFR_STATUS_held_out (d : Nat) : Fld := ⟨(Reg.CFR_STATUS d), 1, 1⟩
def Fld.CFR_STATUS_update_refused (d : Nat) : Fld := ⟨(Reg.CFR_STATUS d), 2, 1⟩
def Fld.CFR_STATUS_takeouts (d : Nat) : Fld := ⟨(Reg.CFR_STATUS d), 8, 8⟩
/-- CFR_CAUSE (R417). -/
def Reg.def_CFR_CAUSE : RegDef := ⟨1, [⟨7, 0, .ro, 0, false⟩, ⟨31, 8, .ro, 0, false⟩]⟩
def Reg.CFR_CAUSE (d : Nat) : Nat := dieBase d + 0xA0008
def Fld.CFR_CAUSE_last_cause (d : Nat) : Fld := ⟨(Reg.CFR_CAUSE d), 0, 8⟩

/-- The registers of block CFR. -/
def regTableCFR : List RegEntry :=
  [⟨0x10A0000, [(0x800000, 7)], Reg.def_CFR_CTRL⟩,
   ⟨0x10A0004, [(0x800000, 7)], Reg.def_CFR_STATUS⟩,
   ⟨0x10A0008, [(0x800000, 7)], Reg.def_CFR_CAUSE⟩]

/-! ### SAF: faults and safety (R428) -/

/-- SAF_STATUS (R428). -/
def Reg.def_SAF_STATUS : RegDef := ⟨1,
  [⟨1, 0, .ro, 0, false⟩,
   ⟨2, 2, .ro, 0, false⟩,
   ⟨3, 3, .ro, 0, false⟩,
   ⟨4, 4, .ro, 0, false⟩,
   ⟨5, 5, .w1c, 0, false⟩,
   ⟨6, 6, .ro, 0, false⟩,
   ⟨7, 7, .w1c, 0, false⟩,
   ⟨15, 8, .ro, 0, false⟩,
   ⟨31, 16, .ro, 0, false⟩]⟩
def Reg.SAF_STATUS : Nat := 0x40000
def Fld.SAF_STATUS_state : Fld := ⟨Reg.SAF_STATUS, 0, 2⟩
def Fld.SAF_STATUS_primary : Fld := ⟨Reg.SAF_STATUS, 2, 1⟩
def Fld.SAF_STATUS_standby_ok : Fld := ⟨Reg.SAF_STATUS, 3, 1⟩
def Fld.SAF_STATUS_inj_done : Fld := ⟨Reg.SAF_STATUS, 4, 1⟩
def Fld.SAF_STATUS_escalated : Fld := ⟨Reg.SAF_STATUS, 5, 1⟩
def Fld.SAF_STATUS_fault_n_low : Fld := ⟨Reg.SAF_STATUS, 6, 1⟩
def Fld.SAF_STATUS_expert_write_ignored : Fld := ⟨Reg.SAF_STATUS, 7, 1⟩
def Fld.SAF_STATUS_damper_cause : Fld := ⟨Reg.SAF_STATUS, 8, 8⟩
/-- SAF_CTRL (R428). -/
def Reg.def_SAF_CTRL : RegDef := ⟨1, [⟨0, 0, .wo, 0, false⟩, ⟨1, 1, .rws, 0, false⟩, ⟨11, 2, .rws, 0x64, true⟩, ⟨31, 12, .ro, 0, false⟩]⟩
def Reg.SAF_CTRL : Nat := 0x40004
def Fld.SAF_CTRL_enter_safe : Fld := ⟨Reg.SAF_CTRL, 0, 1⟩
def Fld.SAF_CTRL_log_enable : Fld := ⟨Reg.SAF_CTRL, 1, 1⟩
def Fld.SAF_CTRL_escalate_pulse_us : Fld := ⟨Reg.SAF_CTRL, 2, 10⟩
/-- SAF_INJ_HUB (R428). -/
def Reg.def_SAF_INJ_HUB : RegDef := ⟨1, [⟨31, 0, .ro, 0, false⟩]⟩
def Reg.SAF_INJ_HUB : Nat := 0x40010
def Fld.SAF_INJ_HUB_pass : Fld := ⟨Reg.SAF_INJ_HUB, 0, 32⟩
/-- SAF_INJ_DIE (R428). -/
def Reg.def_SAF_INJ_DIE : RegDef := ⟨1, [⟨31, 0, .ro, 0, false⟩]⟩
def Reg.SAF_INJ_DIE (d : Nat) : Nat := 0x40014 + d * 4
def Fld.SAF_INJ_DIE_pass (d : Nat) : Fld := ⟨(Reg.SAF_INJ_DIE d), 0, 32⟩
/-- SAF_LOG_BASE (R428). -/
def Reg.def_SAF_LOG_BASE : RegDef := ⟨2, [⟨47, 0, .rws, 0, false⟩, ⟨63, 48, .ro, 0, false⟩]⟩
def Reg.SAF_LOG_BASE : Nat := 0x40040
def Fld.SAF_LOG_BASE_log_base : Fld := ⟨Reg.SAF_LOG_BASE, 0, 48⟩
/-- SAF_LOG_CFG (R428). -/
def Reg.def_SAF_LOG_CFG : RegDef := ⟨1, [⟨9, 0, .rws, 0x100, false⟩, ⟨20, 10, .rws, 0, false⟩, ⟨31, 21, .ro, 0, false⟩]⟩
def Reg.SAF_LOG_CFG : Nat := 0x40048
def Fld.SAF_LOG_CFG_log_count : Fld := ⟨Reg.SAF_LOG_CFG, 0, 10⟩
def Fld.SAF_LOG_CFG_log_vector : Fld := ⟨Reg.SAF_LOG_CFG, 10, 11⟩
/-- SAF_LOG_HEAD (R428). -/
def Reg.def_SAF_LOG_HEAD : RegDef := ⟨2, [⟨63, 0, .ro, 0, false⟩]⟩
def Reg.SAF_LOG_HEAD : Nat := 0x40050
def Fld.SAF_LOG_HEAD_written : Fld := ⟨Reg.SAF_LOG_HEAD, 0, 64⟩
/-- SAF_LOG_TAIL (R428). -/
def Reg.def_SAF_LOG_TAIL : RegDef := ⟨2, [⟨63, 0, .rw, 0, false⟩]⟩
def Reg.SAF_LOG_TAIL : Nat := 0x40058
def Fld.SAF_LOG_TAIL_consumed : Fld := ⟨Reg.SAF_LOG_TAIL, 0, 64⟩
/-- SAF_WATCH (R428). -/
def Reg.def_SAF_WATCH : RegDef := ⟨1, [⟨15, 0, .rws, 0, false⟩, ⟨23, 16, .ro, 0, false⟩, ⟨31, 24, .ro, 0, false⟩]⟩
def Reg.SAF_WATCH : Nat := 0x40060
def Fld.SAF_WATCH_watch_timeout_ms : Fld := ⟨Reg.SAF_WATCH, 0, 16⟩
def Fld.SAF_WATCH_bad_frames : Fld := ⟨Reg.SAF_WATCH, 16, 8⟩

/-- The registers of block SAF. -/
def regTableSAF : List RegEntry :=
  [⟨0x40000, [], Reg.def_SAF_STATUS⟩,
   ⟨0x40004, [], Reg.def_SAF_CTRL⟩,
   ⟨0x40010, [], Reg.def_SAF_INJ_HUB⟩,
   ⟨0x40014, [(4, 7)], Reg.def_SAF_INJ_DIE⟩,
   ⟨0x40040, [], Reg.def_SAF_LOG_BASE⟩,
   ⟨0x40048, [], Reg.def_SAF_LOG_CFG⟩,
   ⟨0x40050, [], Reg.def_SAF_LOG_HEAD⟩,
   ⟨0x40058, [], Reg.def_SAF_LOG_TAIL⟩,
   ⟨0x40060, [], Reg.def_SAF_WATCH⟩]

/-! ### SEC: security (R450) -/

/-- SEC_STATUS (R450). -/
def Reg.def_SEC_STATUS : RegDef := ⟨1,
  [⟨0, 0, .ro, 0, false⟩,
   ⟨1, 1, .ro, 0, false⟩,
   ⟨2, 2, .ro, 0, false⟩,
   ⟨3, 3, .w1c, 0, false⟩,
   ⟨7, 4, .ro, 0, false⟩,
   ⟨13, 8, .ro, 0, false⟩,
   ⟨31, 14, .ro, 0, false⟩]⟩
def Reg.SEC_STATUS : Nat := 0x30000
def Fld.SEC_STATUS_rng_ok : Fld := ⟨Reg.SEC_STATUS, 0, 1⟩
def Fld.SEC_STATUS_kek_valid : Fld := ⟨Reg.SEC_STATUS, 1, 1⟩
def Fld.SEC_STATUS_boot_slot : Fld := ⟨Reg.SEC_STATUS, 2, 1⟩
def Fld.SEC_STATUS_fallback : Fld := ⟨Reg.SEC_STATUS, 3, 1⟩
def Fld.SEC_STATUS_fuse_version : Fld := ⟨Reg.SEC_STATUS, 8, 6⟩
/-- SEC_COMPAT_KEY (R450). -/
def Reg.def_SEC_COMPAT_KEY : RegDef := ⟨1, [⟨31, 0, .wo, 0, false⟩]⟩
def Reg.SEC_COMPAT_KEY (n : Nat) : Nat := 0x30020 + n * 4
def Fld.SEC_COMPAT_KEY_key_word (n : Nat) : Fld := ⟨(Reg.SEC_COMPAT_KEY n), 0, 32⟩
/-- SEC_COMPAT_CTRL (R450). -/
def Reg.def_SEC_COMPAT_CTRL : RegDef := ⟨1, [⟨11, 0, .rw, 0, false⟩, ⟨12, 12, .wo, 0, false⟩, ⟨13, 13, .wo, 0, false⟩, ⟨14, 14, .ro, 0, false⟩, ⟨15, 15, .w1c, 0, false⟩, ⟨31, 16, .ro, 0, false⟩]⟩
def Reg.SEC_COMPAT_CTRL : Nat := 0x30040
def Fld.SEC_COMPAT_CTRL_client : Fld := ⟨Reg.SEC_COMPAT_CTRL, 0, 12⟩
def Fld.SEC_COMPAT_CTRL_load : Fld := ⟨Reg.SEC_COMPAT_CTRL, 12, 1⟩
def Fld.SEC_COMPAT_CTRL_clear : Fld := ⟨Reg.SEC_COMPAT_CTRL, 13, 1⟩
def Fld.SEC_COMPAT_CTRL_loaded : Fld := ⟨Reg.SEC_COMPAT_CTRL, 14, 1⟩
def Fld.SEC_COMPAT_CTRL_load_error : Fld := ⟨Reg.SEC_COMPAT_CTRL, 15, 1⟩
/-- SEC_FW_CTRL (R450). -/
def Reg.def_SEC_FW_CTRL : RegDef := ⟨1, [⟨0, 0, .wo, 0, false⟩, ⟨1, 1, .wo, 0, false⟩, ⟨2, 2, .wo, 0, false⟩, ⟨5, 3, .rw, 0, false⟩, ⟨8, 6, .ro, 0, false⟩, ⟨31, 9, .ro, 0, false⟩]⟩
def Reg.SEC_FW_CTRL : Nat := 0x30080
def Fld.SEC_FW_CTRL_stage : Fld := ⟨Reg.SEC_FW_CTRL, 0, 1⟩
def Fld.SEC_FW_CTRL_activate : Fld := ⟨Reg.SEC_FW_CTRL, 1, 1⟩
def Fld.SEC_FW_CTRL_die_update : Fld := ⟨Reg.SEC_FW_CTRL, 2, 1⟩
def Fld.SEC_FW_CTRL_die : Fld := ⟨Reg.SEC_FW_CTRL, 3, 3⟩
def Fld.SEC_FW_CTRL_fw_status : Fld := ⟨Reg.SEC_FW_CTRL, 6, 3⟩
/-- SEC_FW_SRC (R450). -/
def Reg.def_SEC_FW_SRC : RegDef := ⟨2, [⟨47, 0, .rw, 0, false⟩, ⟨63, 48, .ro, 0, false⟩]⟩
def Reg.SEC_FW_SRC : Nat := 0x30088
def Fld.SEC_FW_SRC_fw_src : Fld := ⟨Reg.SEC_FW_SRC, 0, 48⟩

/-- The registers of block SEC. -/
def regTableSEC : List RegEntry :=
  [⟨0x30000, [], Reg.def_SEC_STATUS⟩,
   ⟨0x30020, [(4, 8)], Reg.def_SEC_COMPAT_KEY⟩,
   ⟨0x30040, [], Reg.def_SEC_COMPAT_CTRL⟩,
   ⟨0x30080, [], Reg.def_SEC_FW_CTRL⟩,
   ⟨0x30088, [], Reg.def_SEC_FW_SRC⟩]

/-! ### HXR: ring ports (R451, R509) -/

/-- HXR_SEC_CTRL (R451). -/
def Reg.def_HXR_SEC_CTRL : RegDef := ⟨1, [⟨15, 0, .rws, 0, false⟩, ⟨25, 16, .rws, 0x64, true⟩, ⟨26, 26, .wo, 0, false⟩, ⟨31, 27, .ro, 0, false⟩]⟩
def Reg.HXR_SEC_CTRL (p : Nat) : Nat := 0xD0100 + 0x4000 * p
def Fld.HXR_SEC_CTRL_ring_tag (p : Nat) : Fld := ⟨(Reg.HXR_SEC_CTRL p), 0, 16⟩
def Fld.HXR_SEC_CTRL_rekey_timeout_ms (p : Nat) : Fld := ⟨(Reg.HXR_SEC_CTRL p), 16, 10⟩
def Fld.HXR_SEC_CTRL_rekey_now (p : Nat) : Fld := ⟨(Reg.HXR_SEC_CTRL p), 26, 1⟩
/-- HXR_SEC_STATUS (R451). -/
def Reg.def_HXR_SEC_STATUS : RegDef := ⟨1, [⟨0, 0, .ro, 0, false⟩, ⟨1, 1, .w1c, 0, false⟩, ⟨2, 2, .w1c, 0, false⟩, ⟨3, 3, .ro, 0, false⟩, ⟨4, 4, .ro, 0, false⟩, ⟨31, 5, .ro, 0, false⟩]⟩
def Reg.HXR_SEC_STATUS (p : Nat) : Nat := 0xD0104 + 0x4000 * p
def Fld.HXR_SEC_STATUS_secure (p : Nat) : Fld := ⟨(Reg.HXR_SEC_STATUS p), 0, 1⟩
def Fld.HXR_SEC_STATUS_nonce_exhaust (p : Nat) : Fld := ⟨(Reg.HXR_SEC_STATUS p), 1, 1⟩
def Fld.HXR_SEC_STATUS_auth_failed (p : Nat) : Fld := ⟨(Reg.HXR_SEC_STATUS p), 2, 1⟩
def Fld.HXR_SEC_STATUS_rekey_busy (p : Nat) : Fld := ⟨(Reg.HXR_SEC_STATUS p), 3, 1⟩
def Fld.HXR_SEC_STATUS_key_phase (p : Nat) : Fld := ⟨(Reg.HXR_SEC_STATUS p), 4, 1⟩
/-- HXR_SEC_COUNT (R451). -/
def Reg.def_HXR_SEC_COUNT : RegDef := ⟨2, [⟨39, 0, .ro, 0, false⟩, ⟨63, 40, .ro, 0, false⟩]⟩
def Reg.HXR_SEC_COUNT (p : Nat) : Nat := 0xD0108 + 0x4000 * p
def Fld.HXR_SEC_COUNT_tx_counter (p : Nat) : Fld := ⟨(Reg.HXR_SEC_COUNT p), 0, 40⟩
/-- HXR_PKG (R509). -/
def Reg.def_HXR_PKG : RegDef := ⟨1, [⟨3, 0, .rws, 0, false⟩, ⟨8, 4, .rws, 1, false⟩, ⟨31, 9, .ro, 0, false⟩]⟩
def Reg.HXR_PKG : Nat := 0xD0200
def Fld.HXR_PKG_pkg_id : Fld := ⟨Reg.HXR_PKG, 0, 4⟩
def Fld.HXR_PKG_ring_size : Fld := ⟨Reg.HXR_PKG, 4, 5⟩
/-- HXR_CTRL (R509). -/
def Reg.def_HXR_CTRL : RegDef := ⟨1, [⟨0, 0, .rw, 0, false⟩, ⟨31, 1, .ro, 0, false⟩]⟩
def Reg.HXR_CTRL (p : Nat) : Nat := 0xD0000 + 0x4000 * p
def Fld.HXR_CTRL_enable (p : Nat) : Fld := ⟨(Reg.HXR_CTRL p), 0, 1⟩
/-- HXR_STATUS (R509). -/
def Reg.def_HXR_STATUS : RegDef := ⟨1, [⟨0, 0, .ro, 0, false⟩, ⟨1, 1, .w1c, 0, false⟩, ⟨2, 2, .w1c, 0, false⟩, ⟨15, 3, .ro, 0, false⟩, ⟨31, 16, .ro, 0, false⟩]⟩
def Reg.HXR_STATUS (p : Nat) : Nat := 0xD0004 + 0x4000 * p
def Fld.HXR_STATUS_link_up (p : Nat) : Fld := ⟨(Reg.HXR_STATUS p), 0, 1⟩
def Fld.HXR_STATUS_topo_error (p : Nat) : Fld := ⟨(Reg.HXR_STATUS p), 1, 1⟩
def Fld.HXR_STATUS_down_seen (p : Nat) : Fld := ⟨(Reg.HXR_STATUS p), 2, 1⟩
def Fld.HXR_STATUS_resends (p : Nat) : Fld := ⟨(Reg.HXR_STATUS p), 16, 16⟩

/-- The registers of block HXR. -/
def regTableHXR : List RegEntry :=
  [⟨0xD0100, [(0x4000, 2)], Reg.def_HXR_SEC_CTRL⟩,
   ⟨0xD0104, [(0x4000, 2)], Reg.def_HXR_SEC_STATUS⟩,
   ⟨0xD0108, [(0x4000, 2)], Reg.def_HXR_SEC_COUNT⟩,
   ⟨0xD0200, [], Reg.def_HXR_PKG⟩,
   ⟨0xD0000, [(0x4000, 2)], Reg.def_HXR_CTRL⟩,
   ⟨0xD0004, [(0x4000, 2)], Reg.def_HXR_STATUS⟩]

/-! ### PWR: power (R476) -/

/-- PWR_CTRL (R476). -/
def Reg.def_PWR_CTRL : RegDef := ⟨1,
  [⟨2, 0, .rw, 0, false⟩,
   ⟨3, 3, .rw, 0, false⟩,
   ⟨4, 4, .rw, 1, false⟩,
   ⟨5, 5, .rw, 1, false⟩,
   ⟨6, 6, .rw, 1, false⟩,
   ⟨8, 7, .rw, 0, false⟩,
   ⟨9, 9, .rw, 0, false⟩,
   ⟨19, 10, .rw, 0x64, true⟩,
   ⟨20, 20, .wo, 0, false⟩,
   ⟨21, 21, .wo, 0, false⟩,
   ⟨31, 22, .ro, 0, false⟩]⟩
def Reg.PWR_CTRL : Nat := 0x10000
def Fld.PWR_CTRL_target : Fld := ⟨Reg.PWR_CTRL, 0, 3⟩
def Fld.PWR_CTRL_allow_drop : Fld := ⟨Reg.PWR_CTRL, 3, 1⟩
def Fld.PWR_CTRL_auto_resleep : Fld := ⟨Reg.PWR_CTRL, 4, 1⟩
def Fld.PWR_CTRL_wake_tinder_en : Fld := ⟨Reg.PWR_CTRL, 5, 1⟩
def Fld.PWR_CTRL_wake_alarm_en : Fld := ⟨Reg.PWR_CTRL, 6, 1⟩
def Fld.PWR_CTRL_wake_out_gpio : Fld := ⟨Reg.PWR_CTRL, 7, 2⟩
def Fld.PWR_CTRL_wake_out_en : Fld := ⟨Reg.PWR_CTRL, 9, 1⟩
def Fld.PWR_CTRL_idle_us : Fld := ⟨Reg.PWR_CTRL, 10, 10⟩
def Fld.PWR_CTRL_warm_reset : Fld := ⟨Reg.PWR_CTRL, 20, 1⟩
def Fld.PWR_CTRL_cold_reset : Fld := ⟨Reg.PWR_CTRL, 21, 1⟩
/-- PWR_STATUS (R476). -/
def Reg.def_PWR_STATUS : RegDef := ⟨1,
  [⟨1, 0, .ro, 0, false⟩,
   ⟨4, 2, .ro, 0, false⟩,
   ⟨5, 5, .w1c, 0, false⟩,
   ⟨6, 6, .ro, 0, false⟩,
   ⟨7, 7, .ro, 0, false⟩,
   ⟨11, 8, .ro, 0, false⟩,
   ⟨12, 12, .ro, 0, false⟩,
   ⟨13, 13, .w1c, 0, false⟩,
   ⟨14, 14, .ro, 0, false⟩,
   ⟨31, 15, .ro, 0, false⟩]⟩
def Reg.PWR_STATUS : Nat := 0x10004
def Fld.PWR_STATUS_state : Fld := ⟨Reg.PWR_STATUS, 0, 2⟩
def Fld.PWR_STATUS_entry_error : Fld := ⟨Reg.PWR_STATUS, 2, 3⟩
def Fld.PWR_STATUS_entry_refused : Fld := ⟨Reg.PWR_STATUS, 5, 1⟩
def Fld.PWR_STATUS_mem_ready : Fld := ⟨Reg.PWR_STATUS, 6, 1⟩
def Fld.PWR_STATUS_cap_limiting : Fld := ⟨Reg.PWR_STATUS, 7, 1⟩
def Fld.PWR_STATUS_throttle_level : Fld := ⟨Reg.PWR_STATUS, 8, 4⟩
def Fld.PWR_STATUS_thermal_limiting : Fld := ⟨Reg.PWR_STATUS, 12, 1⟩
def Fld.PWR_STATUS_expert_write_ignored : Fld := ⟨Reg.PWR_STATUS, 13, 1⟩
def Fld.PWR_STATUS_pages_dropped : Fld := ⟨Reg.PWR_STATUS, 15, 17⟩
/-- PWR_SLEEP_GROUPS (R476). -/
def Reg.def_PWR_SLEEP_GROUPS : RegDef := ⟨1, [⟨15, 0, .rw, 0xFFFF, false⟩, ⟨31, 16, .ro, 0, false⟩]⟩
def Reg.PWR_SLEEP_GROUPS : Nat := 0x10008
def Fld.PWR_SLEEP_GROUPS_sleep_groups : Fld := ⟨Reg.PWR_SLEEP_GROUPS, 0, 16⟩
/-- PWR_RETAIN (R476). -/
def Reg.def_PWR_RETAIN : RegDef := ⟨1, [⟨15, 0, .rws, 0, false⟩, ⟨31, 16, .ro, 0, false⟩]⟩
def Reg.PWR_RETAIN (d : Nat) : Nat := 0x10010 + d * 4
def Fld.PWR_RETAIN_banks (d : Nat) : Fld := ⟨(Reg.PWR_RETAIN d), 0, 16⟩
/-- PWR_CAP (R476). -/
def Reg.def_PWR_CAP : RegDef := ⟨1, [⟨7, 0, .rw, 0, false⟩, ⟨31, 8, .ro, 0, false⟩]⟩
def Reg.PWR_CAP : Nat := 0x10030
def Fld.PWR_CAP_cap_w : Fld := ⟨Reg.PWR_CAP, 0, 8⟩
/-- PWR_MEASURE (R476). -/
def Reg.def_PWR_MEASURE : RegDef := ⟨1, [⟨31, 0, .ro, 0, false⟩]⟩
def Reg.PWR_MEASURE : Nat := 0x10034
def Fld.PWR_MEASURE_input_mw : Fld := ⟨Reg.PWR_MEASURE, 0, 32⟩
/-- PWR_AON (R476). -/
def Reg.def_PWR_AON : RegDef := ⟨1, [⟨15, 0, .ro, 0, false⟩, ⟨31, 16, .ro, 0, false⟩]⟩
def Reg.PWR_AON : Nat := 0x10038
def Fld.PWR_AON_aon_budget_ua : Fld := ⟨Reg.PWR_AON, 0, 16⟩
/-- PWR_WAKE_LOG (R476). -/
def Reg.def_PWR_WAKE_LOG : RegDef := ⟨1, [⟨2, 0, .ro, 0, false⟩, ⟨5, 3, .ro, 0, false⟩, ⟨6, 6, .w1c, 0, false⟩, ⟨9, 7, .ro, 0, false⟩, ⟨10, 10, .w1c, 0, false⟩, ⟨31, 11, .ro, 0, false⟩]⟩
def Reg.PWR_WAKE_LOG : Nat := 0x10040
def Fld.PWR_WAKE_LOG_last_state : Fld := ⟨Reg.PWR_WAKE_LOG, 0, 3⟩
def Fld.PWR_WAKE_LOG_cause : Fld := ⟨Reg.PWR_WAKE_LOG, 3, 3⟩
def Fld.PWR_WAKE_LOG_brownout : Fld := ⟨Reg.PWR_WAKE_LOG, 6, 1⟩
def Fld.PWR_WAKE_LOG_brownout_state : Fld := ⟨Reg.PWR_WAKE_LOG, 7, 3⟩
def Fld.PWR_WAKE_LOG_thermal_off : Fld := ⟨Reg.PWR_WAKE_LOG, 10, 1⟩

/-- The registers of block PWR. -/
def regTablePWR : List RegEntry :=
  [⟨0x10000, [], Reg.def_PWR_CTRL⟩,
   ⟨0x10004, [], Reg.def_PWR_STATUS⟩,
   ⟨0x10008, [], Reg.def_PWR_SLEEP_GROUPS⟩,
   ⟨0x10010, [(4, 7)], Reg.def_PWR_RETAIN⟩,
   ⟨0x10030, [], Reg.def_PWR_CAP⟩,
   ⟨0x10034, [], Reg.def_PWR_MEASURE⟩,
   ⟨0x10038, [], Reg.def_PWR_AON⟩,
   ⟨0x10040, [], Reg.def_PWR_WAKE_LOG⟩]

/-! ### CLK: clocks and timebase (R477) -/

/-- CLK_TB (R477). -/
def Reg.def_CLK_TB : RegDef := ⟨2, [⟨63, 0, .ro, 0, false⟩]⟩
def Reg.CLK_TB : Nat := 0x20000
def Fld.CLK_TB_tb : Fld := ⟨Reg.CLK_TB, 0, 64⟩
/-- CLK_TB_STATUS (R477). -/
def Reg.def_CLK_TB_STATUS : RegDef := ⟨1, [⟨0, 0, .ro, 0, false⟩, ⟨1, 1, .w1c, 1, false⟩, ⟨2, 2, .w1c, 0, false⟩, ⟨31, 3, .ro, 0, false⟩]⟩
def Reg.CLK_TB_STATUS : Nat := 0x20008
def Fld.CLK_TB_STATUS_rtc_mode : Fld := ⟨Reg.CLK_TB_STATUS, 0, 1⟩
def Fld.CLK_TB_STATUS_restarted : Fld := ⟨Reg.CLK_TB_STATUS, 1, 1⟩
def Fld.CLK_TB_STATUS_alarm_seen : Fld := ⟨Reg.CLK_TB_STATUS, 2, 1⟩
/-- CLK_TB_UNCERT (R477). -/
def Reg.def_CLK_TB_UNCERT : RegDef := ⟨1, [⟨31, 0, .ro, 0, false⟩]⟩
def Reg.CLK_TB_UNCERT : Nat := 0x2000C
def Fld.CLK_TB_UNCERT_uncert : Fld := ⟨Reg.CLK_TB_UNCERT, 0, 32⟩
/-- CLK_TB_CLR (R477). -/
def Reg.def_CLK_TB_CLR : RegDef := ⟨1, [⟨0, 0, .wo, 0, false⟩, ⟨31, 1, .ro, 0, false⟩]⟩
def Reg.CLK_TB_CLR : Nat := 0x20010
def Fld.CLK_TB_CLR_uncert_clear : Fld := ⟨Reg.CLK_TB_CLR, 0, 1⟩
/-- CLK_LAST_SLEEP (R477). -/
def Reg.def_CLK_LAST_SLEEP : RegDef := ⟨2, [⟨63, 0, .ro, 0, false⟩]⟩
def Reg.CLK_LAST_SLEEP : Nat := 0x20018
def Fld.CLK_LAST_SLEEP_last_sleep : Fld := ⟨Reg.CLK_LAST_SLEEP, 0, 64⟩
/-- CLK_ALARM (R477). -/
def Reg.def_CLK_ALARM : RegDef := ⟨2, [⟨63, 0, .rw, 0, false⟩]⟩
def Reg.CLK_ALARM : Nat := 0x20020
def Fld.CLK_ALARM_alarm : Fld := ⟨Reg.CLK_ALARM, 0, 64⟩
/-- CLK_POINT (R477). -/
def Reg.def_CLK_POINT : RegDef := ⟨1, [⟨2, 0, .rw, 0, false⟩, ⟨3, 3, .ro, 0, false⟩, ⟨6, 4, .ro, 0, false⟩, ⟨7, 7, .ro, 0, false⟩, ⟨15, 8, .ro, 0, false⟩, ⟨31, 16, .ro, 0, false⟩]⟩
def Reg.CLK_POINT (d : Nat) : Nat := 0x20040 + d * 4
def Fld.CLK_POINT_max_point (d : Nat) : Fld := ⟨(Reg.CLK_POINT d), 0, 3⟩
def Fld.CLK_POINT_point (d : Nat) : Fld := ⟨(Reg.CLK_POINT d), 4, 3⟩
def Fld.CLK_POINT_temp_c (d : Nat) : Fld := ⟨(Reg.CLK_POINT d), 8, 8⟩
/-- CLK_THERM (R477). -/
def Reg.def_CLK_THERM : RegDef := ⟨1, [⟨7, 0, .rw, 0x73, true⟩, ⟨31, 8, .ro, 0, false⟩]⟩
def Reg.CLK_THERM : Nat := 0x20080
def Fld.CLK_THERM_throttle_c : Fld := ⟨Reg.CLK_THERM, 0, 8⟩
/-- CLK_POINT_HUB (R477). -/
def Reg.def_CLK_POINT_HUB : RegDef := ⟨1, [⟨2, 0, .rw, 0, false⟩, ⟨3, 3, .ro, 0, false⟩, ⟨6, 4, .ro, 0, false⟩, ⟨7, 7, .ro, 0, false⟩, ⟨15, 8, .ro, 0, false⟩, ⟨31, 16, .ro, 0, false⟩]⟩
def Reg.CLK_POINT_HUB : Nat := 0x20060
def Fld.CLK_POINT_HUB_max_point : Fld := ⟨Reg.CLK_POINT_HUB, 0, 3⟩
def Fld.CLK_POINT_HUB_point : Fld := ⟨Reg.CLK_POINT_HUB, 4, 3⟩
def Fld.CLK_POINT_HUB_temp_c : Fld := ⟨Reg.CLK_POINT_HUB, 8, 8⟩

/-- The registers of block CLK. -/
def regTableCLK : List RegEntry :=
  [⟨0x20000, [], Reg.def_CLK_TB⟩,
   ⟨0x20008, [], Reg.def_CLK_TB_STATUS⟩,
   ⟨0x2000C, [], Reg.def_CLK_TB_UNCERT⟩,
   ⟨0x20010, [], Reg.def_CLK_TB_CLR⟩,
   ⟨0x20018, [], Reg.def_CLK_LAST_SLEEP⟩,
   ⟨0x20020, [], Reg.def_CLK_ALARM⟩,
   ⟨0x20040, [(4, 7)], Reg.def_CLK_POINT⟩,
   ⟨0x20080, [], Reg.def_CLK_THERM⟩,
   ⟨0x20060, [], Reg.def_CLK_POINT_HUB⟩]

/-! ### X: counter blocks (R480) -/

/-- X_CNT_CTRL (R480). -/
def Reg.def_X_CNT_CTRL : RegDef := ⟨1, [⟨0, 0, .rw, 1, false⟩, ⟨1, 1, .rw, 0, true⟩, ⟨31, 2, .ro, 0, false⟩]⟩
def Reg.X_CNT_CTRL (blk : Nat) : Nat := blk
def Fld.X_CNT_CTRL_cnt_enable (blk : Nat) : Fld := ⟨(Reg.X_CNT_CTRL blk), 0, 1⟩
def Fld.X_CNT_CTRL_count_selftest (blk : Nat) : Fld := ⟨(Reg.X_CNT_CTRL blk), 1, 1⟩
/-- X_CNT_OVF (R480). -/
def Reg.def_X_CNT_OVF : RegDef := ⟨1, [⟨15, 0, .w1c, 0, false⟩, ⟨31, 16, .ro, 0, false⟩]⟩
def Reg.X_CNT_OVF (blk : Nat) : Nat := blk + 4
def Fld.X_CNT_OVF_overflow (blk : Nat) : Fld := ⟨(Reg.X_CNT_OVF blk), 0, 16⟩
/-- X_CNT_SNAP (R480). -/
def Reg.def_X_CNT_SNAP : RegDef := ⟨1, [⟨0, 0, .wo, 0, false⟩, ⟨31, 1, .ro, 0, false⟩]⟩
def Reg.X_CNT_SNAP (blk : Nat) : Nat := blk + 8
def Fld.X_CNT_SNAP_snap (blk : Nat) : Fld := ⟨(Reg.X_CNT_SNAP blk), 0, 1⟩
/-- X_CNT_SEL (R480). -/
def Reg.def_X_CNT_SEL : RegDef := ⟨1, [⟨7, 0, .rw, 0, false⟩, ⟨19, 8, .rw, 0, false⟩, ⟨20, 20, .rw, 0, false⟩, ⟨31, 21, .ro, 0, false⟩]⟩
def Reg.X_CNT_SEL (blk i : Nat) : Nat := blk + 0x40 + i * 4
def Fld.X_CNT_SEL_event (blk i : Nat) : Fld := ⟨(Reg.X_CNT_SEL blk i), 0, 8⟩
def Fld.X_CNT_SEL_client (blk i : Nat) : Fld := ⟨(Reg.X_CNT_SEL blk i), 8, 12⟩
def Fld.X_CNT_SEL_client_only (blk i : Nat) : Fld := ⟨(Reg.X_CNT_SEL blk i), 20, 1⟩
/-- X_CNT (R480). -/
def Reg.def_X_CNT : RegDef := ⟨2, [⟨31, 0, .rw, 0, false⟩, ⟨47, 32, .rw, 0, false⟩]⟩
def Reg.X_CNT (blk i : Nat) : Nat := blk + 0x80 + i * 8
def Fld.X_CNT_count_lo (blk i : Nat) : Fld := ⟨(Reg.X_CNT blk i), 0, 32⟩
def Fld.X_CNT_count_hi (blk i : Nat) : Fld := ⟨(Reg.X_CNT blk i), 32, 16⟩
/-- X_SHD (R480). -/
def Reg.def_X_SHD : RegDef := ⟨2, [⟨47, 0, .ro, 0, false⟩]⟩
def Reg.X_SHD (blk i : Nat) : Nat := blk + 0x100 + i * 8
def Fld.X_SHD_shadow (blk i : Nat) : Fld := ⟨(Reg.X_SHD blk i), 0, 48⟩
/-- X_CNT_SNAP_TB (R480). -/
def Reg.def_X_CNT_SNAP_TB : RegDef := ⟨2, [⟨63, 0, .ro, 0, false⟩]⟩
def Reg.X_CNT_SNAP_TB (blk : Nat) : Nat := blk + 0x180
def Fld.X_CNT_SNAP_TB_snap_tb (blk : Nat) : Fld := ⟨(Reg.X_CNT_SNAP_TB blk), 0, 64⟩

/-- The registers of block X. -/
def regTableX : List RegEntry :=
  [⟨0x1010800, [(0x800000, 7), (0x1000, 8)], Reg.def_X_CNT_CTRL⟩,
   ⟨0x1020800, [(0x800000, 7), (0x1000, 8)], Reg.def_X_CNT_CTRL⟩,
   ⟨0x1030800, [(0x800000, 7), (0x4000, 2)], Reg.def_X_CNT_CTRL⟩,
   ⟨0x1038800, [(0x800000, 7)], Reg.def_X_CNT_CTRL⟩,
   ⟨0x103C800, [(0x800000, 7)], Reg.def_X_CNT_CTRL⟩,
   ⟨0x1040800, [(0x800000, 7), (0x8000, 2)], Reg.def_X_CNT_CTRL⟩,
   ⟨0x1050800, [(0x800000, 7), (0x4000, 4)], Reg.def_X_CNT_CTRL⟩,
   ⟨0xC1000, [], Reg.def_X_CNT_CTRL⟩,
   ⟨0x1010804, [(0x800000, 7), (0x1000, 8)], Reg.def_X_CNT_OVF⟩,
   ⟨0x1020804, [(0x800000, 7), (0x1000, 8)], Reg.def_X_CNT_OVF⟩,
   ⟨0x1030804, [(0x800000, 7), (0x4000, 2)], Reg.def_X_CNT_OVF⟩,
   ⟨0x1038804, [(0x800000, 7)], Reg.def_X_CNT_OVF⟩,
   ⟨0x103C804, [(0x800000, 7)], Reg.def_X_CNT_OVF⟩,
   ⟨0x1040804, [(0x800000, 7), (0x8000, 2)], Reg.def_X_CNT_OVF⟩,
   ⟨0x1050804, [(0x800000, 7), (0x4000, 4)], Reg.def_X_CNT_OVF⟩,
   ⟨0xC1004, [], Reg.def_X_CNT_OVF⟩,
   ⟨0x1010808, [(0x800000, 7), (0x1000, 8)], Reg.def_X_CNT_SNAP⟩,
   ⟨0x1020808, [(0x800000, 7), (0x1000, 8)], Reg.def_X_CNT_SNAP⟩,
   ⟨0x1030808, [(0x800000, 7), (0x4000, 2)], Reg.def_X_CNT_SNAP⟩,
   ⟨0x1038808, [(0x800000, 7)], Reg.def_X_CNT_SNAP⟩,
   ⟨0x103C808, [(0x800000, 7)], Reg.def_X_CNT_SNAP⟩,
   ⟨0x1040808, [(0x800000, 7), (0x8000, 2)], Reg.def_X_CNT_SNAP⟩,
   ⟨0x1050808, [(0x800000, 7), (0x4000, 4)], Reg.def_X_CNT_SNAP⟩,
   ⟨0xC1008, [], Reg.def_X_CNT_SNAP⟩,
   ⟨0x1010840, [(0x800000, 7), (0x1000, 8), (4, 12)], Reg.def_X_CNT_SEL⟩,
   ⟨0x1020840, [(0x800000, 7), (0x1000, 8), (4, 12)], Reg.def_X_CNT_SEL⟩,
   ⟨0x1030840, [(0x800000, 7), (0x4000, 2), (4, 12)], Reg.def_X_CNT_SEL⟩,
   ⟨0x1038840, [(0x800000, 7), (4, 12)], Reg.def_X_CNT_SEL⟩,
   ⟨0x103C840, [(0x800000, 7), (4, 12)], Reg.def_X_CNT_SEL⟩,
   ⟨0x1040840, [(0x800000, 7), (0x8000, 2), (4, 12)], Reg.def_X_CNT_SEL⟩,
   ⟨0x1050840, [(0x800000, 7), (0x4000, 4), (4, 12)], Reg.def_X_CNT_SEL⟩,
   ⟨0xC1040, [(4, 12)], Reg.def_X_CNT_SEL⟩,
   ⟨0x1010880, [(0x800000, 7), (0x1000, 8), (8, 16)], Reg.def_X_CNT⟩,
   ⟨0x1020880, [(0x800000, 7), (0x1000, 8), (8, 16)], Reg.def_X_CNT⟩,
   ⟨0x1030880, [(0x800000, 7), (0x4000, 2), (8, 16)], Reg.def_X_CNT⟩,
   ⟨0x1038880, [(0x800000, 7), (8, 16)], Reg.def_X_CNT⟩,
   ⟨0x103C880, [(0x800000, 7), (8, 16)], Reg.def_X_CNT⟩,
   ⟨0x1040880, [(0x800000, 7), (0x8000, 2), (8, 16)], Reg.def_X_CNT⟩,
   ⟨0x1050880, [(0x800000, 7), (0x4000, 4), (8, 16)], Reg.def_X_CNT⟩,
   ⟨0xC1080, [(8, 16)], Reg.def_X_CNT⟩,
   ⟨0x1010900, [(0x800000, 7), (0x1000, 8), (8, 16)], Reg.def_X_SHD⟩,
   ⟨0x1020900, [(0x800000, 7), (0x1000, 8), (8, 16)], Reg.def_X_SHD⟩,
   ⟨0x1030900, [(0x800000, 7), (0x4000, 2), (8, 16)], Reg.def_X_SHD⟩,
   ⟨0x1038900, [(0x800000, 7), (8, 16)], Reg.def_X_SHD⟩,
   ⟨0x103C900, [(0x800000, 7), (8, 16)], Reg.def_X_SHD⟩,
   ⟨0x1040900, [(0x800000, 7), (0x8000, 2), (8, 16)], Reg.def_X_SHD⟩,
   ⟨0x1050900, [(0x800000, 7), (0x4000, 4), (8, 16)], Reg.def_X_SHD⟩,
   ⟨0xC1100, [(8, 16)], Reg.def_X_SHD⟩,
   ⟨0x1010980, [(0x800000, 7), (0x1000, 8)], Reg.def_X_CNT_SNAP_TB⟩,
   ⟨0x1020980, [(0x800000, 7), (0x1000, 8)], Reg.def_X_CNT_SNAP_TB⟩,
   ⟨0x1030980, [(0x800000, 7), (0x4000, 2)], Reg.def_X_CNT_SNAP_TB⟩,
   ⟨0x1038980, [(0x800000, 7)], Reg.def_X_CNT_SNAP_TB⟩,
   ⟨0x103C980, [(0x800000, 7)], Reg.def_X_CNT_SNAP_TB⟩,
   ⟨0x1040980, [(0x800000, 7), (0x8000, 2)], Reg.def_X_CNT_SNAP_TB⟩,
   ⟨0x1050980, [(0x800000, 7), (0x4000, 4)], Reg.def_X_CNT_SNAP_TB⟩,
   ⟨0xC1180, [], Reg.def_X_CNT_SNAP_TB⟩]

/-! ### DBG: trace, snapshots and tensor watch (R496) -/

/-- DBG_TRACE_CTRL (R496). -/
def Reg.def_DBG_TRACE_CTRL : RegDef := ⟨1,
  [⟨0, 0, .rw, 0, false⟩,
   ⟨1, 1, .rw, 0, false⟩,
   ⟨2, 2, .wo, 0, false⟩,
   ⟨3, 3, .wo, 0, false⟩,
   ⟨4, 4, .rw, 0, true⟩,
   ⟨9, 5, .rw, 0x18, false⟩,
   ⟨19, 10, .rw, 0, false⟩,
   ⟨31, 20, .ro, 0, false⟩]⟩
def Reg.DBG_TRACE_CTRL : Nat := 0xC0000
def Fld.DBG_TRACE_CTRL_enable : Fld := ⟨Reg.DBG_TRACE_CTRL, 0, 1⟩
def Fld.DBG_TRACE_CTRL_window : Fld := ⟨Reg.DBG_TRACE_CTRL, 1, 1⟩
def Fld.DBG_TRACE_CTRL_arm : Fld := ⟨Reg.DBG_TRACE_CTRL, 2, 1⟩
def Fld.DBG_TRACE_CTRL_trigger_now : Fld := ⟨Reg.DBG_TRACE_CTRL, 3, 1⟩
def Fld.DBG_TRACE_CTRL_throttle : Fld := ⟨Reg.DBG_TRACE_CTRL, 4, 1⟩
def Fld.DBG_TRACE_CTRL_split : Fld := ⟨Reg.DBG_TRACE_CTRL, 5, 5⟩
def Fld.DBG_TRACE_CTRL_sample_10us : Fld := ⟨Reg.DBG_TRACE_CTRL, 10, 10⟩
/-- DBG_TRACE_SRC (R496). -/
def Reg.def_DBG_TRACE_SRC : RegDef := ⟨1, [⟨7, 0, .rw, 0, false⟩, ⟨15, 8, .rw, 0xFF, false⟩, ⟨31, 16, .ro, 0, false⟩]⟩
def Reg.DBG_TRACE_SRC : Nat := 0xC0004
def Fld.DBG_TRACE_SRC_groups : Fld := ⟨Reg.DBG_TRACE_SRC, 0, 8⟩
def Fld.DBG_TRACE_SRC_die_mask : Fld := ⟨Reg.DBG_TRACE_SRC, 8, 8⟩
/-- DBG_TRACE_FILTER (R496). -/
def Reg.def_DBG_TRACE_FILTER : RegDef := ⟨1, [⟨11, 0, .rw, 0, false⟩, ⟨12, 12, .rw, 0, false⟩, ⟨31, 13, .ro, 0, false⟩]⟩
def Reg.DBG_TRACE_FILTER : Nat := 0xC0008
def Fld.DBG_TRACE_FILTER_client : Fld := ⟨Reg.DBG_TRACE_FILTER, 0, 12⟩
def Fld.DBG_TRACE_FILTER_filter_en : Fld := ⟨Reg.DBG_TRACE_FILTER, 12, 1⟩
/-- DBG_TRACE_TRIG (R496). -/
def Reg.def_DBG_TRACE_TRIG : RegDef := ⟨1, [⟨7, 0, .rw, 0, false⟩, ⟨11, 8, .rw, 0xF, false⟩, ⟨12, 12, .rw, 0, false⟩, ⟨13, 13, .rw, 0, false⟩, ⟨31, 14, .ro, 0, false⟩]⟩
def Reg.DBG_TRACE_TRIG : Nat := 0xC000C
def Fld.DBG_TRACE_TRIG_trig_type : Fld := ⟨Reg.DBG_TRACE_TRIG, 0, 8⟩
def Fld.DBG_TRACE_TRIG_trig_die : Fld := ⟨Reg.DBG_TRACE_TRIG, 8, 4⟩
def Fld.DBG_TRACE_TRIG_on_fault : Fld := ⟨Reg.DBG_TRACE_TRIG, 12, 1⟩
def Fld.DBG_TRACE_TRIG_on_mark : Fld := ⟨Reg.DBG_TRACE_TRIG, 13, 1⟩
/-- DBG_TRACE_STATUS (R496). -/
def Reg.def_DBG_TRACE_STATUS : RegDef := ⟨1, [⟨1, 0, .ro, 0, false⟩, ⟨2, 2, .ro, 0, false⟩, ⟨3, 3, .w1c, 0, false⟩, ⟨4, 4, .w1c, 0, false⟩, ⟨31, 5, .ro, 0, false⟩]⟩
def Reg.DBG_TRACE_STATUS : Nat := 0xC0010
def Fld.DBG_TRACE_STATUS_wstate : Fld := ⟨Reg.DBG_TRACE_STATUS, 0, 2⟩
def Fld.DBG_TRACE_STATUS_flue_ready : Fld := ⟨Reg.DBG_TRACE_STATUS, 2, 1⟩
def Fld.DBG_TRACE_STATUS_loss_seen : Fld := ⟨Reg.DBG_TRACE_STATUS, 3, 1⟩
def Fld.DBG_TRACE_STATUS_expert_write_ignored : Fld := ⟨Reg.DBG_TRACE_STATUS, 4, 1⟩
/-- DBG_TRACE_LOST (R496). -/
def Reg.def_DBG_TRACE_LOST : RegDef := ⟨1, [⟨31, 0, .ro, 0, false⟩]⟩
def Reg.DBG_TRACE_LOST : Nat := 0xC0014
def Fld.DBG_TRACE_LOST_lost : Fld := ⟨Reg.DBG_TRACE_LOST, 0, 32⟩
/-- DBG_TRACE_TRIGTB (R496). -/
def Reg.def_DBG_TRACE_TRIGTB : RegDef := ⟨2, [⟨63, 0, .ro, 0, false⟩]⟩
def Reg.DBG_TRACE_TRIGTB : Nat := 0xC0018
def Fld.DBG_TRACE_TRIGTB_trig_tb : Fld := ⟨Reg.DBG_TRACE_TRIGTB, 0, 64⟩
/-- DBG_SNAP (R496). -/
def Reg.def_DBG_SNAP : RegDef := ⟨1, [⟨7, 0, .rw, 0xFF, false⟩, ⟨8, 8, .wo, 0, false⟩, ⟨31, 9, .ro, 0, false⟩]⟩
def Reg.DBG_SNAP : Nat := 0xC0040
def Fld.DBG_SNAP_die_mask : Fld := ⟨Reg.DBG_SNAP, 0, 8⟩
def Fld.DBG_SNAP_snap : Fld := ⟨Reg.DBG_SNAP, 8, 1⟩
/-- DBG_WATCH_RING (R496). -/
def Reg.def_DBG_WATCH_RING : RegDef := ⟨1, [⟨19, 0, .rw, 0, false⟩, ⟨20, 20, .rw, 0, false⟩, ⟨21, 21, .rw, 0, false⟩, ⟨29, 22, .rw, 1, false⟩, ⟨30, 30, .w1c, 0, false⟩, ⟨31, 31, .ro, 0, false⟩]⟩
def Reg.DBG_WATCH_RING (n : Nat) : Nat := 0xC0100 + n * 0x40
def Fld.DBG_WATCH_RING_ring (n : Nat) : Fld := ⟨(Reg.DBG_WATCH_RING n), 0, 20⟩
def Fld.DBG_WATCH_RING_enable (n : Nat) : Fld := ⟨(Reg.DBG_WATCH_RING n), 20, 1⟩
def Fld.DBG_WATCH_RING_every (n : Nat) : Fld := ⟨(Reg.DBG_WATCH_RING n), 21, 1⟩
def Fld.DBG_WATCH_RING_repeat (n : Nat) : Fld := ⟨(Reg.DBG_WATCH_RING n), 22, 8⟩
def Fld.DBG_WATCH_RING_done (n : Nat) : Fld := ⟨(Reg.DBG_WATCH_RING n), 30, 1⟩
/-- DBG_WATCH_SEQ (R496). -/
def Reg.def_DBG_WATCH_SEQ : RegDef := ⟨2, [⟨63, 0, .rw, 0, false⟩]⟩
def Reg.DBG_WATCH_SEQ (n : Nat) : Nat := 0xC0108 + n * 0x40
def Fld.DBG_WATCH_SEQ_seq (n : Nat) : Fld := ⟨(Reg.DBG_WATCH_SEQ n), 0, 64⟩
/-- DBG_WATCH_LO (R496). -/
def Reg.def_DBG_WATCH_LO : RegDef := ⟨2, [⟨47, 0, .rw, 0, false⟩, ⟨63, 48, .ro, 0, false⟩]⟩
def Reg.DBG_WATCH_LO (n : Nat) : Nat := 0xC0110 + n * 0x40
def Fld.DBG_WATCH_LO_lo (n : Nat) : Fld := ⟨(Reg.DBG_WATCH_LO n), 0, 48⟩
/-- DBG_WATCH_LEN (R496). -/
def Reg.def_DBG_WATCH_LEN : RegDef := ⟨1, [⟨26, 0, .rw, 0, false⟩, ⟨31, 27, .ro, 0, false⟩]⟩
def Reg.DBG_WATCH_LEN (n : Nat) : Nat := 0xC0118 + n * 0x40
def Fld.DBG_WATCH_LEN_len (n : Nat) : Fld := ⟨(Reg.DBG_WATCH_LEN n), 0, 27⟩
/-- DBG_WATCH_DST (R496). -/
def Reg.def_DBG_WATCH_DST : RegDef := ⟨2, [⟨47, 0, .rw, 0, false⟩, ⟨63, 48, .ro, 0, false⟩]⟩
def Reg.DBG_WATCH_DST (n : Nat) : Nat := 0xC0120 + n * 0x40
def Fld.DBG_WATCH_DST_dst (n : Nat) : Fld := ⟨(Reg.DBG_WATCH_DST n), 0, 48⟩
/-- DBG_WATCH_CNT (R496). -/
def Reg.def_DBG_WATCH_CNT : RegDef := ⟨1, [⟨7, 0, .ro, 0, false⟩, ⟨31, 8, .ro, 0, false⟩]⟩
def Reg.DBG_WATCH_CNT (n : Nat) : Nat := 0xC0128 + n * 0x40
def Fld.DBG_WATCH_CNT_dumps (n : Nat) : Fld := ⟨(Reg.DBG_WATCH_CNT n), 0, 8⟩

/-- The registers of block DBG. -/
def regTableDBG : List RegEntry :=
  [⟨0xC0000, [], Reg.def_DBG_TRACE_CTRL⟩,
   ⟨0xC0004, [], Reg.def_DBG_TRACE_SRC⟩,
   ⟨0xC0008, [], Reg.def_DBG_TRACE_FILTER⟩,
   ⟨0xC000C, [], Reg.def_DBG_TRACE_TRIG⟩,
   ⟨0xC0010, [], Reg.def_DBG_TRACE_STATUS⟩,
   ⟨0xC0014, [], Reg.def_DBG_TRACE_LOST⟩,
   ⟨0xC0018, [], Reg.def_DBG_TRACE_TRIGTB⟩,
   ⟨0xC0040, [], Reg.def_DBG_SNAP⟩,
   ⟨0xC0100, [(0x40, 4)], Reg.def_DBG_WATCH_RING⟩,
   ⟨0xC0108, [(0x40, 4)], Reg.def_DBG_WATCH_SEQ⟩,
   ⟨0xC0110, [(0x40, 4)], Reg.def_DBG_WATCH_LO⟩,
   ⟨0xC0118, [(0x40, 4)], Reg.def_DBG_WATCH_LEN⟩,
   ⟨0xC0120, [(0x40, 4)], Reg.def_DBG_WATCH_DST⟩,
   ⟨0xC0128, [(0x40, 4)], Reg.def_DBG_WATCH_CNT⟩]

/-! ### HST: host port (R506) -/

/-- HST_LINK (R506). -/
def Reg.def_HST_LINK : RegDef := ⟨1, [⟨2, 0, .ro, 0, false⟩, ⟨7, 3, .ro, 0, false⟩, ⟨31, 8, .ro, 0, false⟩]⟩
def Reg.HST_LINK : Nat := 0x60000
def Fld.HST_LINK_speed : Fld := ⟨Reg.HST_LINK, 0, 3⟩
def Fld.HST_LINK_width : Fld := ⟨Reg.HST_LINK, 3, 5⟩
/-- HST_ACC_LOG (R506). -/
def Reg.def_HST_ACC_LOG : RegDef := ⟨1, [⟨26, 0, .ro, 0, false⟩, ⟨27, 27, .ro, 0, false⟩, ⟨28, 28, .ro, 0, false⟩, ⟨29, 29, .w1c, 0, false⟩, ⟨31, 30, .ro, 0, false⟩]⟩
def Reg.HST_ACC_LOG : Nat := 0x60010
def Fld.HST_ACC_LOG_offset : Fld := ⟨Reg.HST_ACC_LOG, 0, 27⟩
def Fld.HST_ACC_LOG_cause : Fld := ⟨Reg.HST_ACC_LOG, 27, 1⟩
def Fld.HST_ACC_LOG_write : Fld := ⟨Reg.HST_ACC_LOG, 28, 1⟩
def Fld.HST_ACC_LOG_acc_seen : Fld := ⟨Reg.HST_ACC_LOG, 29, 1⟩
/-- HST_ACC_COUNT (R506). -/
def Reg.def_HST_ACC_COUNT : RegDef := ⟨1, [⟨31, 0, .ro, 0, false⟩]⟩
def Reg.HST_ACC_COUNT : Nat := 0x60014
def Fld.HST_ACC_COUNT_count : Fld := ⟨Reg.HST_ACC_COUNT, 0, 32⟩
/-- HST_BAR4_BASE (R506). -/
def Reg.def_HST_BAR4_BASE : RegDef := ⟨2, [⟨47, 0, .rw, 0, false⟩, ⟨63, 48, .ro, 0, false⟩]⟩
def Reg.HST_BAR4_BASE : Nat := 0x60020
def Fld.HST_BAR4_BASE_bar4_base : Fld := ⟨Reg.HST_BAR4_BASE, 0, 48⟩

/-- The registers of block HST. -/
def regTableHST : List RegEntry :=
  [⟨0x60000, [], Reg.def_HST_LINK⟩,
   ⟨0x60010, [], Reg.def_HST_ACC_LOG⟩,
   ⟨0x60014, [], Reg.def_HST_ACC_COUNT⟩,
   ⟨0x60020, [], Reg.def_HST_BAR4_BASE⟩]

/-! ### IND: indicators, GPIO and I3C (R512, R513, R517) -/

/-- IND_I3C_CTRL (R512). -/
def Reg.def_IND_I3C_CTRL : RegDef := ⟨1, [⟨0, 0, .rw, 0, false⟩, ⟨1, 1, .rw, 0, false⟩, ⟨5, 2, .rw, 8, true⟩, ⟨31, 6, .ro, 0, false⟩]⟩
def Reg.IND_I3C_CTRL (n : Nat) : Nat := 0xB0400 + n * 0x80
def Fld.IND_I3C_CTRL_enable (n : Nat) : Fld := ⟨(Reg.IND_I3C_CTRL n), 0, 1⟩
def Fld.IND_I3C_CTRL_i2c_only (n : Nat) : Fld := ⟨(Reg.IND_I3C_CTRL n), 1, 1⟩
def Fld.IND_I3C_CTRL_scl_div (n : Nat) : Fld := ⟨(Reg.IND_I3C_CTRL n), 2, 4⟩
/-- IND_I3C_CMD (R512). -/
def Reg.def_IND_I3C_CMD : RegDef := ⟨1,
  [⟨0, 0, .rw, 0, false⟩,
   ⟨7, 1, .rw, 0, false⟩,
   ⟨14, 8, .rw, 0, false⟩,
   ⟨15, 15, .rw, 0, false⟩,
   ⟨16, 16, .wo, 0, false⟩,
   ⟨17, 17, .ro, 0, false⟩,
   ⟨18, 18, .w1c, 0, false⟩,
   ⟨19, 19, .w1c, 0, false⟩,
   ⟨26, 20, .ro, 0, false⟩,
   ⟨31, 27, .ro, 0, false⟩]⟩
def Reg.IND_I3C_CMD (n : Nat) : Nat := 0xB0404 + n * 0x80
def Fld.IND_I3C_CMD_read (n : Nat) : Fld := ⟨(Reg.IND_I3C_CMD n), 0, 1⟩
def Fld.IND_I3C_CMD_addr (n : Nat) : Fld := ⟨(Reg.IND_I3C_CMD n), 1, 7⟩
def Fld.IND_I3C_CMD_len (n : Nat) : Fld := ⟨(Reg.IND_I3C_CMD n), 8, 7⟩
def Fld.IND_I3C_CMD_legacy (n : Nat) : Fld := ⟨(Reg.IND_I3C_CMD n), 15, 1⟩
def Fld.IND_I3C_CMD_go (n : Nat) : Fld := ⟨(Reg.IND_I3C_CMD n), 16, 1⟩
def Fld.IND_I3C_CMD_busy (n : Nat) : Fld := ⟨(Reg.IND_I3C_CMD n), 17, 1⟩
def Fld.IND_I3C_CMD_nack (n : Nat) : Fld := ⟨(Reg.IND_I3C_CMD n), 18, 1⟩
def Fld.IND_I3C_CMD_ibi_seen (n : Nat) : Fld := ⟨(Reg.IND_I3C_CMD n), 19, 1⟩
def Fld.IND_I3C_CMD_ibi_addr (n : Nat) : Fld := ⟨(Reg.IND_I3C_CMD n), 20, 7⟩
/-- IND_I3C_DATA (R512). -/
def Reg.def_IND_I3C_DATA : RegDef := ⟨1, [⟨31, 0, .rw, 0, false⟩]⟩
def Reg.IND_I3C_DATA (n w : Nat) : Nat := 0xB0410 + n * 0x80 + w * 4
def Fld.IND_I3C_DATA_data (n w : Nat) : Fld := ⟨(Reg.IND_I3C_DATA n w), 0, 32⟩
/-- IND_GPIO (R513). -/
def Reg.def_IND_GPIO : RegDef := ⟨1, [⟨0, 0, .rw, 0, false⟩, ⟨1, 1, .rw, 0, false⟩, ⟨2, 2, .ro, 0, false⟩, ⟨4, 3, .rw, 0, false⟩, ⟨5, 5, .rw, 0, true⟩, ⟨6, 6, .w1c, 0, false⟩, ⟨31, 7, .ro, 0, false⟩]⟩
def Reg.IND_GPIO (i : Nat) : Nat := 0xB0200 + i * 4
def Fld.IND_GPIO_oe (i : Nat) : Fld := ⟨(Reg.IND_GPIO i), 0, 1⟩
def Fld.IND_GPIO_out (i : Nat) : Fld := ⟨(Reg.IND_GPIO i), 1, 1⟩
def Fld.IND_GPIO_in (i : Nat) : Fld := ⟨(Reg.IND_GPIO i), 2, 1⟩
def Fld.IND_GPIO_pull (i : Nat) : Fld := ⟨(Reg.IND_GPIO i), 3, 2⟩
def Fld.IND_GPIO_drive_high (i : Nat) : Fld := ⟨(Reg.IND_GPIO i), 5, 1⟩
def Fld.IND_GPIO_edge_seen (i : Nat) : Fld := ⟨(Reg.IND_GPIO i), 6, 1⟩
/-- IND_CH (R517). -/
def Reg.def_IND_CH : RegDef := ⟨1,
  [⟨5, 0, .rw, 0xA, false⟩,
   ⟨6, 6, .rw, 0, false⟩,
   ⟨11, 7, .rw, 5, false⟩,
   ⟨12, 12, .wo, 0, false⟩,
   ⟨13, 13, .ro, 0, false⟩,
   ⟨14, 14, .ro, 0, false⟩,
   ⟨15, 15, .w1c, 0, false⟩,
   ⟨31, 16, .ro, 0, false⟩]⟩
def Reg.IND_CH (n : Nat) : Nat := 0xB0000 + n * 4
def Fld.IND_CH_current_ma (n : Nat) : Fld := ⟨(Reg.IND_CH n), 0, 6⟩
def Fld.IND_CH_on (n : Nat) : Fld := ⟨(Reg.IND_CH n), 6, 1⟩
def Fld.IND_CH_ramp_ms (n : Nat) : Fld := ⟨(Reg.IND_CH n), 7, 5⟩
def Fld.IND_CH_retry (n : Nat) : Fld := ⟨(Reg.IND_CH n), 12, 1⟩
def Fld.IND_CH_short_latched (n : Nat) : Fld := ⟨(Reg.IND_CH n), 13, 1⟩
def Fld.IND_CH_clamped (n : Nat) : Fld := ⟨(Reg.IND_CH n), 14, 1⟩
def Fld.IND_CH_open_seen (n : Nat) : Fld := ⟨(Reg.IND_CH n), 15, 1⟩
/-- IND_STATUS (R517). -/
def Reg.def_IND_STATUS : RegDef := ⟨1, [⟨0, 0, .w1c, 0, false⟩, ⟨1, 1, .ro, 0, false⟩, ⟨2, 2, .w1c, 0, false⟩, ⟨7, 3, .ro, 0, false⟩, ⟨11, 8, .rw, 6, true⟩, ⟨31, 12, .ro, 0, false⟩]⟩
def Reg.IND_STATUS : Nat := 0xB0020
def Fld.IND_STATUS_budget_error : Fld := ⟨Reg.IND_STATUS, 0, 1⟩
def Fld.IND_STATUS_mute_ind_fault : Fld := ⟨Reg.IND_STATUS, 1, 1⟩
def Fld.IND_STATUS_expert_write_ignored : Fld := ⟨Reg.IND_STATUS, 2, 1⟩
def Fld.IND_STATUS_short_v : Fld := ⟨Reg.IND_STATUS, 8, 4⟩

/-- The registers of block IND. -/
def regTableIND : List RegEntry :=
  [⟨0xB0400, [(0x80, 4)], Reg.def_IND_I3C_CTRL⟩,
   ⟨0xB0404, [(0x80, 4)], Reg.def_IND_I3C_CMD⟩,
   ⟨0xB0410, [(0x80, 4), (4, 16)], Reg.def_IND_I3C_DATA⟩,
   ⟨0xB0200, [(4, 24)], Reg.def_IND_GPIO⟩,
   ⟨0xB0000, [(4, 6)], Reg.def_IND_CH⟩,
   ⟨0xB0020, [], Reg.def_IND_STATUS⟩]

/-! ### EWE: gate engines (R249, R250) -/

/-- EWE_CTRL (R249). -/
def Reg.def_EWE_CTRL : RegDef := ⟨1, [⟨0, 0, .ro, 0, false⟩, ⟨1, 1, .rw, 1, true⟩, ⟨2, 2, .rw, 1, true⟩, ⟨31, 3, .ro, 0, false⟩]⟩
def Reg.EWE_CTRL (d n : Nat) : Nat := dieBase d + 0x20000 + 0x1000 * n
def Fld.EWE_CTRL_check_enable (d n : Nat) : Fld := ⟨(Reg.EWE_CTRL d n), 1, 1⟩
def Fld.EWE_CTRL_ecc_enable (d n : Nat) : Fld := ⟨(Reg.EWE_CTRL d n), 2, 1⟩
/-- EWE_STATUS (R250). -/
def Reg.def_EWE_STATUS : RegDef := ⟨1,
  [⟨0, 0, .ro, 1, false⟩,
   ⟨1, 1, .w1c, 0, false⟩,
   ⟨2, 2, .w1c, 0, false⟩,
   ⟨3, 3, .w1c, 0, false⟩,
   ⟨7, 4, .ro, 0, false⟩,
   ⟨15, 8, .ro, 0, false⟩,
   ⟨31, 16, .ro, 0, false⟩]⟩
def Reg.EWE_STATUS (d n : Nat) : Nat := dieBase d + 0x20004 + 0x1000 * n
def Fld.EWE_STATUS_in_service (d n : Nat) : Fld := ⟨(Reg.EWE_STATUS d n), 0, 1⟩
def Fld.EWE_STATUS_check_seen (d n : Nat) : Fld := ⟨(Reg.EWE_STATUS d n), 1, 1⟩
def Fld.EWE_STATUS_ecc_corrected (d n : Nat) : Fld := ⟨(Reg.EWE_STATUS d n), 2, 1⟩
def Fld.EWE_STATUS_expert_write_ignored (d n : Nat) : Fld := ⟨(Reg.EWE_STATUS d n), 3, 1⟩
def Fld.EWE_STATUS_check_faults (d n : Nat) : Fld := ⟨(Reg.EWE_STATUS d n), 8, 8⟩
def Fld.EWE_STATUS_engine_epoch (d n : Nat) : Fld := ⟨(Reg.EWE_STATUS d n), 16, 16⟩

/-- The registers of block EWE. -/
def regTableEWE : List RegEntry :=
  [⟨0x1020000, [(0x800000, 7), (0x1000, 8)], Reg.def_EWE_CTRL⟩,
   ⟨0x1020004, [(0x800000, 7), (0x1000, 8)], Reg.def_EWE_STATUS⟩]

/-! ### CEE: window engine (R249, R250) -/

/-- CEE_CTRL (R249). -/
def Reg.def_CEE_CTRL : RegDef := ⟨1, [⟨0, 0, .rw, 1, false⟩, ⟨1, 1, .rw, 1, true⟩, ⟨2, 2, .rw, 1, true⟩, ⟨31, 3, .ro, 0, false⟩]⟩
def Reg.CEE_CTRL (d : Nat) : Nat := dieBase d + 0x38000
def Fld.CEE_CTRL_enable (d : Nat) : Fld := ⟨(Reg.CEE_CTRL d), 0, 1⟩
def Fld.CEE_CTRL_check_enable (d : Nat) : Fld := ⟨(Reg.CEE_CTRL d), 1, 1⟩
def Fld.CEE_CTRL_ecc_enable (d : Nat) : Fld := ⟨(Reg.CEE_CTRL d), 2, 1⟩
/-- CEE_STATUS (R250). -/
def Reg.def_CEE_STATUS : RegDef := ⟨1,
  [⟨0, 0, .ro, 1, false⟩,
   ⟨1, 1, .w1c, 0, false⟩,
   ⟨2, 2, .w1c, 0, false⟩,
   ⟨3, 3, .w1c, 0, false⟩,
   ⟨7, 4, .ro, 0, false⟩,
   ⟨15, 8, .ro, 0, false⟩,
   ⟨31, 16, .ro, 0, false⟩]⟩
def Reg.CEE_STATUS (d : Nat) : Nat := dieBase d + 0x38004
def Fld.CEE_STATUS_in_service (d : Nat) : Fld := ⟨(Reg.CEE_STATUS d), 0, 1⟩
def Fld.CEE_STATUS_check_seen (d : Nat) : Fld := ⟨(Reg.CEE_STATUS d), 1, 1⟩
def Fld.CEE_STATUS_ecc_corrected (d : Nat) : Fld := ⟨(Reg.CEE_STATUS d), 2, 1⟩
def Fld.CEE_STATUS_expert_write_ignored (d : Nat) : Fld := ⟨(Reg.CEE_STATUS d), 3, 1⟩
def Fld.CEE_STATUS_check_faults (d : Nat) : Fld := ⟨(Reg.CEE_STATUS d), 8, 8⟩
def Fld.CEE_STATUS_engine_epoch (d : Nat) : Fld := ⟨(Reg.CEE_STATUS d), 16, 16⟩

/-- The registers of block CEE. -/
def regTableCEE : List RegEntry :=
  [⟨0x1038000, [(0x800000, 7)], Reg.def_CEE_CTRL⟩,
   ⟨0x1038004, [(0x800000, 7)], Reg.def_CEE_STATUS⟩]

/-! ### PPE: detection engine (R249, R250) -/

/-- PPE_CTRL (R249). -/
def Reg.def_PPE_CTRL : RegDef := ⟨1, [⟨0, 0, .rw, 1, false⟩, ⟨1, 1, .rw, 1, true⟩, ⟨2, 2, .rw, 1, true⟩, ⟨31, 3, .ro, 0, false⟩]⟩
def Reg.PPE_CTRL (d : Nat) : Nat := dieBase d + 0x3C000
def Fld.PPE_CTRL_enable (d : Nat) : Fld := ⟨(Reg.PPE_CTRL d), 0, 1⟩
def Fld.PPE_CTRL_check_enable (d : Nat) : Fld := ⟨(Reg.PPE_CTRL d), 1, 1⟩
def Fld.PPE_CTRL_ecc_enable (d : Nat) : Fld := ⟨(Reg.PPE_CTRL d), 2, 1⟩
/-- PPE_STATUS (R250). -/
def Reg.def_PPE_STATUS : RegDef := ⟨1,
  [⟨0, 0, .ro, 1, false⟩,
   ⟨1, 1, .w1c, 0, false⟩,
   ⟨2, 2, .w1c, 0, false⟩,
   ⟨3, 3, .w1c, 0, false⟩,
   ⟨7, 4, .ro, 0, false⟩,
   ⟨15, 8, .ro, 0, false⟩,
   ⟨31, 16, .ro, 0, false⟩]⟩
def Reg.PPE_STATUS (d : Nat) : Nat := dieBase d + 0x3C004
def Fld.PPE_STATUS_in_service (d : Nat) : Fld := ⟨(Reg.PPE_STATUS d), 0, 1⟩
def Fld.PPE_STATUS_check_seen (d : Nat) : Fld := ⟨(Reg.PPE_STATUS d), 1, 1⟩
def Fld.PPE_STATUS_ecc_corrected (d : Nat) : Fld := ⟨(Reg.PPE_STATUS d), 2, 1⟩
def Fld.PPE_STATUS_expert_write_ignored (d : Nat) : Fld := ⟨(Reg.PPE_STATUS d), 3, 1⟩
def Fld.PPE_STATUS_check_faults (d : Nat) : Fld := ⟨(Reg.PPE_STATUS d), 8, 8⟩
def Fld.PPE_STATUS_engine_epoch (d : Nat) : Fld := ⟨(Reg.PPE_STATUS d), 16, 16⟩

/-- The registers of block PPE. -/
def regTablePPE : List RegEntry :=
  [⟨0x103C000, [(0x800000, 7)], Reg.def_PPE_CTRL⟩,
   ⟨0x103C004, [(0x800000, 7)], Reg.def_PPE_STATUS⟩]

/-- Every register of the package (R53, R54). -/
def regTable : List RegEntry :=
  regTableGLB ++ regTableCDG ++ regTableHXL ++ regTableCPC ++ regTableSCH ++ regTableMXE ++
  regTableATE ++ regTableMOV ++ regTableCDC ++ regTableHRT ++ regTableMEM ++ regTableDMC ++
  regTableCAM ++ regTableAUD ++ regTableWAK ++ regTableCFR ++ regTableSAF ++ regTableSEC ++
  regTableHXR ++ regTablePWR ++ regTableCLK ++ regTableX ++ regTableDBG ++ regTableHST ++
  regTableIND ++ regTableEWE ++ regTableCEE ++ regTablePPE

/-- Where `rel` lies among instances of the given strides and counts, outermost first: the offset inside the instance. -/
def instanceOffset : List (Nat × Nat) → Nat → Option Nat
  | [], rel => some rel
  | (stride, count) :: rest, rel =>
    if rel / stride < count then instanceOffset rest (rel % stride) else none

/-- The byte offset of `off` inside an instance of entry `e`, when one of its instances covers `off`. -/
def RegEntry.covers (e : RegEntry) (off : Nat) : Option Nat :=
  if off < e.base then none else
    match instanceOffset e.dims (off - e.base) with
    | some r => if r < 4 * e.reg.words then some r else none
    | none => none

/-- The register whose words cover BAR0 offset `off`: its definition and its own offset, over one list of entries. -/
def findReg : List RegEntry → Nat → Option (RegDef × Nat)
  | [], _ => none
  | e :: es, off =>
    match e.covers off with
    | some r => some (e.reg, off - r)
    | none => findReg es off

/-- The register whose words cover BAR0 offset `off`. -/
def regAt (off : Nat) : Option (RegDef × Nat) := findReg regTable off

end Sys2Proof.Machine
end

