-- ==== Sys2Proof/Machine/State.lean ====
section
/-! DEFINITION. The state of the package: everything the spec gives it, as plain data, with the reasons a step can stop
and the state after reset. -/

namespace Sys2Proof.Machine

/-- Reasons to stop with a fault. NONE: the spec gives every command an effect in every state, so the type is empty. -/
inductive Fault where
  deriving DecidableEq, Repr

/-- Reasons to refuse a command. -/
inductive Refusal where
  /-- Raised by `exec` alone, for a command without a meaning in this model. Safe: nothing can be proved about it. -/
  | notModelled (mnemonic : String)
  deriving DecidableEq, Repr

/-! ### Messages that units send (R29, R30) -/

/-- What a unit of the package, or the package, has sent. -/
inductive Sent where
  /-- A REQ or RSP message (R30). -/
  | msg (m : Msg)
  /-- DISPATCH to die `die`, with its 64 data bytes (R106). -/
  | dispatch (die : Nat) (d : Dispatch) (data : List Byte)
  /-- BOUNCE from die `die`, with its 64 data bytes (R107). -/
  | bounce (die : Nat) (d : Dispatch) (data : List Byte)
  /-- TALLY, with its 64 data bytes (R108), and a TALLY that the tally unit returns as BOUNCE (R111). -/
  | tally (m : TallyMsg) (data : List Byte)
  | tallyBounce (m : TallyMsg)
  /-- Acknowledgement of a TALLY (R78). -/
  | tallyAck (seq ring index : Nat)
  /-- EVENT towards the supervisors (R30). -/
  | event (r : FaultReport)
  /-- EPOCH_NOTICE (R109). -/
  | epochNotice (unit epoch : Nat)
  /-- ROUTE_UPDATE (R37). -/
  | routeUpdate
  /-- MSI-X message of function `fn`, vector `vec`. -/
  | msix (fn vec : Nat)
  /-- A block offer to the relay of die `die`, or its grant, its decline or the landing notice of that relay (R272); dies of
  another package are numbered from 16 * (package + 1). -/
  | offer (die : Nat) (o : Offer)
  | grant (die : Nat) (o : Offer)
  | decline (die : Nat) (o : Offer)
  | landed (die : Nat) (o : Offer)
  /-- RETRY to an offer, or to a landing notice, of the relay of die `die`, with the receiving die's epoch (R41, R277). -/
  | relayRetry (die : Nat) (o : Offer) (notice : Bool) (epoch : Nat)
  /-- A flit answered with `nak`, or acknowledged with the credits that the acknowledgement returns (R28, R34). -/
  | nak (unit ackSeq : Nat)
  | ack (unit ackSeq : Nat) (credits : List Nat)
  /-- A frame sealed under the port's link key of serial number `key` and a nonce: its header and its payload (R440, R508); and the signed
  key-agreement message of a port: package number, ring size, `ring_tag`, and the serial numbers of the ephemeral key that it carries and
  of the identity key that signs it (R441, R509). -/
  | ringFrame (port key : Nat) (nonce header payload : List Byte)
  | keyAgreement (port pkgId ringSize ringTag ephemeral signer : Nat)
  /-- A word on a pin or low-speed interface, or a frame on a port: the port's name and its bytes. -/
  | port (name : String) (data : List Byte)
  deriving DecidableEq, Repr

/-! ### Tensor cards, commands and steps (R62, R70, R71, R146) -/

/-- A tensor card (R146); `extent` and `stride` have five entries, `stride` entry 0 being unused. -/
structure Card where
  base : Nat := 0
  typ : Nat := 0
  scaleType : Nat := 0
  group : Nat := 0
  groupDim : Nat := 0
  ember : Bool := false
  padConst : Bool := false
  cls : Nat := 0
  tier : Nat := 0
  dims : Nat := 1
  padValue : Nat := 0
  extent : List Nat := []
  stride : List Nat := []
  scaleBase : Nat := 0
  streamLen : Nat := 0
  deriving DecidableEq, Repr

/-- Where a command stands (R74, R94, R102). -/
inductive CmdState where
  /-- Not dispatched, or killed and waiting to be placed again. -/
  | waiting
  /-- Placed on a die by the scheduler at this time; its DISPATCH is on the way. -/
  | placed (die : Nat) (at_ : Nat)
  /-- Running on a die. -/
  | running (die : Nat)
  | tallied
  /-- Never to be run: its step has ended otherwise. -/
  | dropped
  deriving DecidableEq, Repr

/-- A command of an accepted or checked step (R71), with what the scheduler keeps of it. -/
structure Cmd where
  index : Nat := 0
  kind : Nat := 0
  width : Nat := 1
  reuse : Nat := 0
  resident : Bool := false
  deps : List Nat := []
  program : Nat := 0
  programLen : Nat := 0
  cards : List Card := []
  writeMask : Nat := 0
  pubList : Nat := 0
  pubCount : Nat := 0
  addr : Nat := 0
  /-- Hearth use in granules (R144) and L4 use in 4 KiB units (R324). -/
  hearthUse : Nat := 0
  l4Use : Nat := 0
  state : CmdState := .waiting
  /-- When the command became ready (R100). -/
  readySince : Option Nat := none
  /-- Dispatched at least once (R328). -/
  dispatched : Bool := false
  /-- The avoid set (R103): die and engine number of the kind. -/
  avoid : List (Nat × Nat) := []
  /-- Width and `avoid` of the last PLACE (R106), and whether a run of the command was narrowed (R127). -/
  placedWidth : Nat := 0
  placedAvoid : Nat := 0
  narrowed : Bool := false
  /-- Of a command on its way to its engines: the start and the share of its occupancy segment, and the virtual time that earlier segments
  of this placement owe (R97, R99). -/
  segStart : Nat := 0
  segShare : Nat := 1
  owed : Nat := 0
  /-- Since when, while ready, no die has had the engines that it needs free (R113). -/
  blockedSince : Option Nat := none
  /-- Kills by a fault (R94), and kills by the loss of a unit among them. -/
  faultKills : Nat := 0
  deriving DecidableEq, Repr

/-- A step from its acceptance to its release: the step record (R85) and the descriptor fields (R70). -/
structure Step where
  ring : Nat := 0
  seq : Nat := 0
  client : Nat := 0
  serial : Bool := false
  fence : Bool := false
  refuseIfLate : Bool := false
  notify : Bool := false
  budgetUs : Nat := 0
  deadline : Nat := 0
  userTag : Nat := 0
  fenceRing : Nat := 0
  fenceSeq : Nat := 0
  cmds : List Cmd := []
  acceptedAt : Nat := 0
  /-- The status code once decided (R82, R83), with its detail and failing command. -/
  status : Option Nat := none
  detail : Nat := 0
  failIndex : Nat := 0xFF
  roundSubst : Bool := false
  replayed : Bool := false
  narrowed : Bool := false
  budgetOver : Bool := false
  replays : Nat := 0
  /-- Some command of the step has been dispatched (R121). -/
  dispatched : Bool := false
  /-- A budget reaction has been applied (R125). -/
  budgetDone : Bool := false
  /-- Tensor watch entries whose copies have not ended (R493). -/
  watching : List Nat := []
  deriving DecidableEq, Repr

/-- Ring states (R65). -/
inductive RingState where
  | disabled | active | quiet | stopping | stopped | error
  deriving DecidableEq, Repr

/-- A ring: its context (R62), its ledger record (R85) and its tail (R68). -/
structure Ring where
  client : Nat := 0
  stepBase : Nat := 0
  cplBase : Nat := 0
  dbAddr : Nat := 0
  /-- None until a ring context has been read. -/
  headAddr : Option Nat := none
  log2 : Nat := 4
  irqMode : Nat := 0
  vector : Nat := 0
  state : RingState := .disabled
  error : Nat := 0
  tail : Nat := 0
  /-- `accepted` of the ledger, which is `head`. -/
  head : Nat := 0
  committed : Nat := 0
  released : Nat := 0
  /-- Last nudge or acceptance. -/
  lastUse : Nat := 0
  /-- A doorbell-record read is on its way. -/
  reading : Bool := false
  /-- The step at `head`, read and checked but not accepted (R77). -/
  checked : Option Step := none
  /-- Since when acceptance has been held by the window or by the ledger (R127). -/
  heldWindow : Option Nat := none
  heldLedger : Option Nat := none
  deriving DecidableEq, Repr

/-- A journal entry (R79, R85): one tally group, whether it is done, and until when the entry is in use (R81). -/
structure Journal where
  ring : Nat
  seq : Nat
  index : Nat
  pubs : List (Nat × Nat)
  snap : Option (Nat × List Byte)
  done : Bool
  until_ : Nat
  deriving DecidableEq, Repr

/-- A cost entry (R123): program address, width, average engine time divided by width, in ns. -/
structure Cost where
  program : Nat
  width : Nat
  avgNs : Nat
  deriving DecidableEq, Repr

/-- What the scheduler keeps of a client (R85, R123, R127, R129, R408): `acct` holds the counters of the accounting
block at their byte offsets, `vtime` the virtual time of each kind, `waits` the dispatch waits of recent placements
as kind, time and wait, and `oldShares` the shares that stay in effect, by kind, until the next placement decision (R97). Costs
stand most recently used first. -/
structure Client where
  acct : NMap Nat := []
  vtime : NMap Nat := []
  oldShares : NMap Nat := []
  costs : List Cost := []
  waits : List (Nat × Nat × Nat) := []
  evqWritten : Nat := 0
  evqLost : Nat := 0
  deriving DecidableEq, Repr

/-! ### Running commands (R22, R130, R133, R139, R151) -/

/-- One level of a walk slot (R151): the permutation and the four extents. -/
structure WalkLevel where
  perm : Nat
  ext : List Nat
  deriving DecidableEq, Repr

/-- One position of a gate micro-sequence (R222). -/
structure GatePos where
  op : Nat := 0
  mods : Nat := 0
  x : Nat := 0
  y : Nat := 0
  raw : Nat := 0
  deriving DecidableEq, Repr

/-- A numbered wait of an engine: for a signal, a barrier, space, a landing or a home block. -/
inductive Stall where
  | none
  | wait (counter count limitUs since : Nat)
  | sync (limitUs since : Nat)
  | space (since : Nat)
  | codebook (since : Nat)
  | landing (block limitUs since : Nat)
  | home (block limitUs since lastTry : Nat)
  deriving DecidableEq, Repr

/-- A codebook in an MXE's codebook store (R197): the set's address, its number in the set, its stage, its size, its offset in the
set, and its bytes once they are loaded. -/
structure Book where
  set : Nat
  idx : Nat
  stage : Nat
  bytes : Nat
  off : Nat := 0
  data : List Byte := []
  deriving DecidableEq, Repr

/-- A pending CB_PRELOAD: the codebooks that it loads, those that it names and that were resident, and when its loads end, in ticks of
the timebase (R198, R294). -/
structure Preload where
  want : List Book
  held : List Book
  until_ : Nat
  deriving DecidableEq, Repr

/-- One engine of a running command. -/
structure EngRun where
  unit : Nat := 0
  pc : Nat := 0
  ended : Bool := false
  stall : Stall := .none
  /-- The 16 signal counters (R139), listed where not zero. -/
  counters : NMap Nat := []
  /-- Walk slots (R151): key slot * 4 + level. -/
  walks : NMap WalkLevel := []
  /-- Gate sequences (R221): key slot * 16 + position, END where unlisted. -/
  gseq : NMap W128 := []
  /-- Per-channel bias and scale cards of CONV_PARAM (R235). -/
  convParam : Option W128 := none
  /-- The last ATT_PARAM (R263). -/
  attParam : Option W128 := none
  /-- The codebook store (R197): resident codebooks, most recently used first, and the CB_PRELOADs that are pending, oldest first
  (R198, R294). -/
  codebooks : List Book := []
  preloads : List Preload := []
  /-- REC_BIND has been executed, and REC_UNBIND (R206, R207). -/
  bound : Bool := false
  unbind : Bool := false
  /-- Progress of ATTEND_RING (R274, R275): hop counts whose source is settled, those among them read from home, and that the
  instruction has been begun and waits no longer. -/
  ringWord : Option W128 := none
  blocksDone : Nat := 0
  homeBlocks : List Nat := []
  resumed : Bool := false
  deriving DecidableEq, Repr

/-- A running command: an entry of a dispatcher's table (R22). -/
structure Run where
  die : Nat := 0
  entry : Nat := 0
  kind : Nat := 0
  width : Nat := 1
  engs : List EngRun := []
  ring : Nat := 0
  seq : Nat := 0
  index : Nat := 0
  client : Nat := 0
  cmd : Cmd := {}
  tallyEpoch : Nat := 0
  /-- Epoch of engine 0 at placement (R486). -/
  epoch0 : Nat := 0
  start : Nat := 0
  /-- Occupancy segment (R99): its start, the virtual time already charged for it, and the share. -/
  segStart : Nat := 0
  segCharged : Nat := 0
  segShare : Nat := 1
  /-- Handle registers (R143), listed where not empty. -/
  hregs : NMap Nat := []
  /-- A KILL of the scheduler is on its way to the dispatcher, and it is a pre-emption (R114, R127). -/
  killSent : Bool := false
  preempted : Bool := false
  /-- Its TALLY has been sent, the message, and when its engines were free. -/
  tallySent : Bool := false
  tallyMsg : Option TallyMsg := none
  endedAt : Nat := 0
  /-- From when on its cycles are counted at the clock in force: the last move of the die's DVFS point while it ran (R468, R478). -/
  cyclesAt : Nat := 0
  roundSubst : Bool := false
  /-- Bytes moved per tier L1 to L4 (R108). -/
  bytes : List Nat := [0, 0, 0, 0]
  deriving DecidableEq, Repr

/-- A recurrence residency (R206 to R215): the record's address names it. -/
structure Residency where
  client : Nat := 0
  record : Nat := 0
  shape : Nat := 0
  die : Nat := 0
  /-- MXE numbers in order of position. -/
  engines : List Nat := []
  /-- Ring, step and index of its last command. -/
  ring : Nat := 0
  seq : Nat := 0
  index : Nat := 0
  /-- Rods of each position, FP32 patterns by index, zero where unlisted. -/
  state : List (NMap Nat) := []
  parkedSince : Option Nat := none
  segStart : Nat := 0
  segCharged : Nat := 0
  segShare : Nat := 1
  snapSlot : Nat := 0
  /-- From when on its parked cycles are counted at the clock in force (R468, R478). -/
  cyclesAt : Nat := 0
  ending : Bool := false
  deriving DecidableEq, Repr

/-! ### Hearth (R309 to R315) -/

/-- A live Hearth buffer: granules, owner, `keep`, and the ring, step and command that allocated it while it runs. -/
structure Buf where
  size : Nat
  owner : Nat
  keep : Bool
  entry : Option Nat
  deriving DecidableEq, Repr

/-- An ALLOC that waits for space or for its zeroing (R310, R311). -/
structure AllocWait where
  entry : Nat
  hreg : Nat
  size : Nat
  keep : Bool
  client : Nat
  /-- Once space is taken: first granule and when zeroing ends. -/
  taken : Option (Nat × Nat)
  deriving DecidableEq, Repr

/-- The Hearth of a die: live buffers by first granule, generations and last owners by granule where not 0 or none, the
queue of waiting ALLOCs, the 16 B pieces whose clinker bit is set, and those with bits in error. -/
structure Hearth where
  bufs : NMap Buf := []
  gens : NMap Nat := []
  /-- Advances of every granule's generation together (R315). -/
  genBase : Nat := 0
  last : NMap Nat := []
  queue : List AllocWait := []
  zeroing : List AllocWait := []
  clinker : NMap Bool := []
  /-- The error vector of each 16 B piece with bits in error, as a read finds them (R314). -/
  errs : NMap (List W16) := []
  deriving DecidableEq, Repr

/-! ### Unified memory (R317 to R331) and the DRAM controllers (R334 to R347) -/

/-- Page states (R318). -/
inductive PageState where
  | free | granted | backed | system
  deriving DecidableEq, Repr

/-- A page-map entry (R318). -/
structure Page where
  frame : Nat := 0
  group : Nat := 0
  owner : Nat := 0
  state : PageState := .free
  pinned : Bool := false
  migrating : Bool := false
  hintGroup : Nat := 0
  hintValid : Bool := false
  deriving DecidableEq, Repr

/-- A page that a BACK in progress is zeroing a frame for: the frame, and when its zeroing ends, in ns from the start (R319, R321). -/
structure BackPlan where
  page : Nat
  group : Nat
  frame : Nat
  due : Nat
  deriving DecidableEq, Repr

/-- A page-map operation in progress (R321, R322), with the pages a BACK has still to write, in ascending order, and whether a warm
reset interrupted it. -/
structure PageCmd where
  op : Nat
  first : Nat
  count : Nat
  client : Nat
  hintGroup : Nat
  hintValid : Bool
  since : Nat
  plan : List BackPlan := []
  resumed : Bool := false
  deriving DecidableEq, Repr

/-- A page reserved at acceptance (R324): the client, and since when it waits to be backed. -/
structure Reserve where
  client : Nat
  since : Nat
  deriving DecidableEq, Repr

/-- How far a move of the bellows has gone (R329). -/
inductive MovePhase where
  | copying | hold | forwarding
  deriving DecidableEq, Repr

/-- A move of a page (R329). -/
structure Move where
  oldGroup : Nat
  oldFrame : Nat
  newGroup : Nat
  newFrame : Nat
  pass : Nat
  /-- Lines that this pass copies, in order (all of them where the list is empty), and those written after they were
  copied. -/
  dirty : NMap Bool
  todo : List Nat
  phase : MovePhase
  since : Nat
  /-- Dies whose WRITE_ACK is outstanding. -/
  waiting : List Nat
  /-- Requests held at the old home, oldest first, with the errors found on their reads. -/
  held : List (Bool × Msg)
  /-- Whether an evacuation makes this move (R411). -/
  evac : Bool
  /-- Lines of the pass copied before `since` (R332). -/
  done : Nat := 0
  deriving DecidableEq, Repr

/-- The bellows' E fields as they hold in the running period (R332). -/
structure Bellows where
  period : Nat := 0x3E8
  maxMoves : Nat := 0x40
  rate : Nat := 8
  threshold : Nat := 0x1000
  deriving DecidableEq, Repr

/-- A merge-buffer entry (R339): line offset in the group, bytes by offset in the line, and its allocation time. -/
structure MergeEntry where
  line : Nat
  bytes : NMap Byte
  since : Nat
  /-- `merge_age` at the allocation, in units of 0.25 µs (R346). -/
  age : Nat := 4
  /-- An uncorrectable error of the entry itself (R340). -/
  bad : Bool := false
  deriving DecidableEq, Repr

/-- The evacuation of an exposed group (R411). -/
structure Evac where
  since : Nat
  stalled : Bool
  retired : Bool
  /-- Clients with backed pages in the group when it became exposed (R408). -/
  owners : List Nat
  deriving DecidableEq, Repr

/-- A DRAM controller, beside its registers: corrections per position in this lap, the merge buffer oldest first, the error
vector of each code word that is not clean (ten symbols; key: code-word number in the group), the start of the lap, and the
group's evacuation and bar (R414). -/
structure Dmc where
  lapCounts : NMap Nat := []
  merge : List MergeEntry := []
  errs : NMap (List W16) := []
  lapStart : Nat := 0
  lastScrub : Nat := 0
  evac : Option Evac := none
  barred : Bool := false
  backedAt : Nat := 0
  /-- Last health check, and an immediate one due (R410). -/
  healthAt : Nat := 0
  healthDue : Bool := false
  /-- The one mark of the group has had its immediate check (R410). -/
  ueChecked : Bool := false
  /-- `lap_limit_min` as it was at the last scrub burst (R346). -/
  lapLimit : Nat := 0x3C
  deriving DecidableEq, Repr

/-! ### Links (R28 to R37) -/

/-- A flit that a module holds in its retry buffer (R34): its sequence number and its messages' headers. -/
structure Flit where
  seq : Nat
  bytes : List Byte
  sentAt : Nat
  deriving DecidableEq, Repr

/-- One module of a link end: its next sequence number to send, the last flit received in order, its retry buffer, and the
successive replays of its oldest flit. -/
structure LinkModule where
  txSeq : Nat := 0
  rxSeq : Nat := 0xFFF
  retry : List Flit := []
  replays : Nat := 0
  lastAck : Nat := 0
  deriving DecidableEq, Repr

/-- A message that waits at a link end (R32, R34): the link end whose receive slot it still holds where it is being forwarded
(R38), and whether its credit has been taken already (R27). -/
structure OutMsg where
  msg : Msg
  slot : Option Nat := none
  paid : Bool := false
  deriving DecidableEq, Repr

/-- A link end, beside its registers: its two modules, credits per class, slots freed and not yet returned as credits (R28), recent
undefined opcodes, and when it went down. -/
structure Link where
  m0 : LinkModule := {}
  m1 : LinkModule := {}
  credits : List Nat := [0, 0, 0, 0]
  freed : List Nat := [0, 0, 0, 0]
  protoAt : List Nat := []
  downAt : Option Nat := none
  /-- Messages that wait for a credit, for room in the retry buffer or for the link (R32, R34). -/
  outbox : List OutMsg := []
  deriving DecidableEq, Repr

/-- A request that waits for its response: source unit, tag, the message, when it was sent or last returned, and the link ends that
sent it on its way (R35); of a read that is read again in 16 B pieces, the bytes still to be read, those that have come, and whether
one of them was marked (R344). -/
structure Waiting where
  src : Nat
  tag : Nat
  msg : Msg
  since : Nat
  via : List Nat := []
  left : Nat := 0
  got : List Byte := []
  marked : Bool := false
  deriving DecidableEq, Repr

/-! ### Units: epochs, tests and take-outs (R109, R110, R117, R416, R526) -/

/-- What the package keeps of a unit. -/
structure UnitSt where
  epoch : Nat := 0
  /-- Time of the last advance, and advances that have to wait (R110). -/
  lastAdvance : Option Nat := none
  deferred : Nat := 0
  /-- Self-test: when the last one started, and since when one runs (R117). -/
  testedAt : Nat := 0
  testing : Option Nat := none
  /-- Time of the last counted detection (R526). -/
  detectedAt : Option Nat := none
  /-- Taken out since, passes and failed rounds of its retest (R416). -/
  outSince : Option Nat := none
  retestAt : Nat := 0
  passes : Nat := 0
  rounds : Nat := 0
  /-- Waiting to be taken out by a write of 0 to its enable (R215). -/
  disabling : Bool := false
  deriving DecidableEq, Repr

/-- What the package keeps of a compute die beside its registers. -/
structure Die where
  /-- The logic gate is open (R42). -/
  gate : Bool := false
  /-- The memory island has power and has not failed. -/
  island : Bool := false
  /-- Out wholly (R409), or kept out by a failed injection (R414) or by `logic_off`. -/
  islandFailed : Bool := false
  startFailed : Bool := false
  loggedOff : Bool := false
  /-- Take-out times within the last 10 minutes (R417). -/
  takeoutAt : List Nat := []
  drainAt : Option Nat := none
  /-- Hold, reset and self-test time (R42). -/
  since : Nat := 0
  thermalOut : Bool := false
  updating : Bool := false
  idleSince : Nat := 0
  deriving DecidableEq, Repr

/-! ### Faults, supervisors, damper and watch port (R406 to R426) -/

/-- A fault-log record that gathers merged events (R407). -/
structure LogMerge where
  unit : Nat
  detail : Nat
  tb : Nat
  count : Nat
  cls : Nat
  client : Nat
  deriving DecidableEq, Repr

/-- The fault log, the supervisors, the damper and the watch port, beside their registers. -/
structure Safety where
  merges : List LogMerge := []
  lost : Nat := 0
  msixAt : Option Nat := none
  escalations : Nat := 0
  escalatedSince : Bool := false
  pulseSince : Option Nat := none
  /-- The damper has acted and holds FAULT_N low. -/
  damped : Bool := false
  aliveAt : Nat := 0
  kickedAt : Option Nat := none
  /-- Response of the watch port to the next frame: byte 0 and data (none: a STATUS response), and the data of the last STATUS
  response that it shifted out (R424, R425). -/
  watchNext : Option (Nat × Nat) := none
  lastStatus : Option Nat := none
  /-- Missed heartbeats of P and S, their last heartbeat times. -/
  missedP : Nat := 0
  missedS : Nat := 0
  beatP : Nat := 0
  beatS : Nat := 0
  /-- A core held in reset while its test runs: 0 P, 1 S. -/
  testing : Option Nat := none
  /-- The last compare mismatch of the scheduler front end or tally unit, and bad frames in succession of each ring port (R409). -/
  compareAt : Option Nat := none
  ringBad : List Nat := [0, 0]
  deriving DecidableEq, Repr

/-! ### The environment -/

/-- What surrounds the package and its commands meet: ranges of host addresses that the host refuses or returns poisoned
(R343, R345), the number of virtual functions that the host has enabled (R59), and the links of the ring of packages that are down
elsewhere, each named by the package at its West end (R278, R279). -/
structure Env where
  refused : List (Nat × Nat) := []
  poisoned : List (Nat × Nat) := []
  vfs : Nat := 63
  cut : List Nat := []
  deriving DecidableEq, Repr

/-! ### Keys and firmware (R431 to R450) -/

/-- The security engine. Keys are never visible (R433), so a key is held by a serial number that tells it from every other; a
compatibility key is held by its value, which the codec uses (R292, R439). The device identity key, made with the part, has serial number
0; a client memory key is two keys that differ (R432). -/
structure Keys where
  identity : Nat := 0
  serial : Nat := 1
  kek : Option Nat := none
  deviceKey : Option Nat := none
  clientKeys : NMap (Nat × Nat) := []
  compatKeys : NMap Nat := []
  /-- Words written to SEC_COMPAT_KEY0 to 7 (R439), and a load that waits for the client's codec commands. -/
  compatWords : NMap W32 := []
  compatPending : Option Nat := none
  /-- Entries cached by DMCs and ring ports: unit * 4096 + client (R434), and requests that wait for an unwrap. -/
  cached : NMap Bool := []
  unwrapWait : List (Nat × Bool × Msg) := []
  served : Nat := 0
  reseedAt : Nat := 0
  /-- Firmware: the image in each flash slot (none: none known to be there), the header of an image being staged, the slot that `activate`
  prefers, a staged slot, successive starts on which the preferred image failed and whether this start has been counted as one, a
  host-loaded image running, and the firmware version each die runs (R446 to R448). -/
  slotA : Option Image := none
  slotB : Option Image := none
  staging : List Byte := []
  preferred : Option Nat := none
  staged : Option Nat := none
  bootFails : Nat := 0
  bootAt : Nat := 0
  bootLate : Bool := false
  hostBoot : Bool := false
  running : Option Image := none
  dieFw : NMap Nat := []
  deriving DecidableEq, Repr

/-! ### Counters and trace (R478 to R492) -/

/-- A counter block, beside its registers: 16 counters of 48 bits, their read latches, their staged upper bits, and the
timebase value at which a DBG_SNAP capture is due (R478, R481, R482, R484). -/
structure CntBlock where
  counts : NMap Nat := []
  latch : NMap Nat := []
  staged : NMap Nat := []
  due : Option Nat := none
  deriving DecidableEq, Repr

/-- Packets dropped from one source die since its last LOSS packet: how many, and the stamps of the first and last (R491). -/
structure LossNote where
  count : Nat
  first : Nat
  last : Nat
  deriving DecidableEq, Repr

/-- The trace buffers, oldest packet first (R489 to R492): per compute die, the hub's (its pre-trigger region in window mode), and
the post-trigger region; with the drops to report, an `arm` that waits for a drain, dies throttled, the flue's frame
number, whether the next frame is the first of a drain, and when counters were last sampled and SYNC last written. -/
structure TraceSt where
  dieBufs : NMap (List TracePacket) := []
  hub : List TracePacket := []
  post : List TracePacket := []
  loss : NMap LossNote := []
  armLater : Bool := false
  throttled : NMap Unit := []
  frame : Nat := 0
  /-- Blocks of 8 bytes that the flue has sent since it started (R490). -/
  blocks : Nat := 0
  drainFirst : Bool := false
  sampledAt : Nat := 0
  syncAt : Nat := 0
  /-- Watch entries whose copy runs, with the ring and the sequence number of the step (R493). -/
  copying : NMap (Nat × Nat) := []
  deriving DecidableEq, Repr

/-- A block that a relay has landed or is landing in one of its participants' slots (R272): the descriptor, the slot's address, the
pass, the origin, the hop count, and whether the block has been forwarded. -/
structure RelayBlock where
  desc : Nat
  addr : Nat
  passId : Nat
  origin : Nat
  hop : Nat
  landing : Bool
  forwarded : Bool
  deriving DecidableEq, Repr

/-- The block relay of a die (R272, R277): its blocks, its own offers to repeat with the time of their decline, and its offers and landing
notices (`true`) that were answered with RETRY, with how often and when last. -/
structure Relay where
  blocks : List RelayBlock := []
  repeats : List (Offer × Nat) := []
  tries : List (Offer × Bool × Nat × Nat) := []
  deriving DecidableEq, Repr

/-! ### Cameras (R349 to R370) -/

/-- One exposure of a frame in progress (R366): whether its FS and FE have arrived, its lines so far (payload bytes and whether
the payload CRC mismatched), and the line from which it is excluded. -/
structure CamLayer where
  fs : Bool := false
  fe : Bool := false
  lines : List (List Byte × Bool) := []
  cut : Option Nat := none
  deriving DecidableEq, Repr

/-- A frame of a capture channel, from its lead FS to its record (R357 to R366). -/
structure CamFrame where
  no : Nat := 0
  tStart : Nat := 0
  tClose : Nat := 0
  csi : Nat := 0
  lead : Nat := 0
  layers : List CamLayer := [{}, {}, {}]
  flags : Nat := 0
  emb : List Byte := []
  tune : Option (List Byte) := none
  drop : Bool := false
  /-- Number among the captured frames, which names its raw slot (R361). -/
  raw : Nat := 0
  /-- The lines of each layer as a memory-to-memory lane has read them from the raw slot, none for a line that it could not read. -/
  back : List (List (Option (List Byte))) := []
  deriving DecidableEq, Repr

/-- A capture channel: the next frame number, captured frames, frames dropped since the last record, an unreadable consumed word
to report, the tuning set of the previous frame, the open frame, queued frames of a memory-to-memory channel, and frames
that wait for their record. -/
structure CamChan where
  next : Nat := 0
  captured : Nat := 0
  dropped : Nat := 0
  memError : Bool := false
  tune : Option (List Byte) := none
  /-- ΣR, ΣG and ΣB over all zones of the previous delivered frame (R365). -/
  awb : Option (Nat × Nat × Nat) := none
  /-- Layers that a closed frame had excluded and whose FE is still to come (R366 rule 5). -/
  outside : List Nat := []
  open_ : Option CamFrame := none
  queue : List CamFrame := []
  ready : List CamFrame := []
  deriving DecidableEq, Repr

/-- A camera port: its copy of the routing table (R354) as words, entry n at 2n and 2n + 1, and its last packet's time. -/
structure CamPort where
  table : NMap Nat := []
  packetAt : Nat := 0
  deriving DecidableEq, Repr

/-- The camera ports, the channels and the two memory-to-memory lanes with the channel and frame that each processes. -/
structure Cams where
  ports : NMap CamPort := []
  chans : NMap CamChan := []
  lanes : NMap (Nat × CamFrame) := []
  deriving DecidableEq, Repr

/-! ### Listening (R371 to R384) -/

/-- An analog input (R374, R375): the range in use, a pending target with the index of its request, the position in a forced
ramp with its target, a request held during a ramp, whether the last samples crossed zero, the last sample, and the samples
that have stayed low. -/
structure Adc where
  range : Nat := 0
  pending : Option (Nat × Nat) := none
  ramp : Option (Nat × Nat) := none
  held : Option Nat := none
  crossed : Bool := false
  last : Int := 0
  /-- Successive samples below half of the peak of range 1, and of range 2 (R375). -/
  quiet1 : Nat := 0
  quiet2 : Nat := 0
  deriving DecidableEq, Repr

/-- The acoustic front end: the sample index, clock modes of PDM_CLK0 and 1 with the index at which settling ends, past
microphone samples newest first, active beam registers by b * 16 + c, the analog inputs, the history by entry newest first
with each word's index, timebase values of indices divisible by 48, and TDM playback: the frame number, the words of the
frame that is sent and of the one sent before, and whether each is silence. -/
structure Audio where
  index : Nat := 0
  modes : List Nat := [0, 0]
  settle : List Nat := [0, 0]
  past : List (List Int) := []
  beams : NMap Nat := []
  adcs : List Adc := [{}, {}]
  hist : NMap (List (Nat × W32)) := []
  stamps : List (Nat × Nat) := []
  playFrame : Nat := 0
  playing : List W32 × Bool := ([], true)
  played : List W32 × Bool := ([], true)
  deriving DecidableEq, Repr

/-! ### The wake chain (R385 to R399) -/

/-- What the last ESCALATE record, or the detection in progress, holds (R392). -/
structure Detection where
  kind : Nat := 0
  speaker : Nat := 0
  detect : Nat := 0
  start : Nat := 0
  encStart : Nat := 0
  confirm : W32 := 0
  sim : W32 := 0
  deriving DecidableEq, Repr

/-- The wake chain, beside its registers: the images, consecutive hops of each keyword, the detection in progress and the last
escalated one, wake records written, when the present wait began, whether Kindling holds after a Blaze decline, whether its
programs run, encoder slots written, the last control word acted on, a MUTE_ON record to answer, the capture ring's next
index and frame with the indices lost before it, a load in progress, and the presence watch. -/
structure Wake where
  tinder : Option (List Byte) := none
  kindling : Option (List Byte) := none
  held : List Nat := []
  lastHop : Nat := 0
  now : Detection := {}
  last : Detection := {}
  wakeNo : Nat := 0
  since : Nat := 0
  resting : Bool := false
  running : Bool := false
  encSlots : Nat := 0
  ctlSeq : Option Nat := none
  muteOn : Bool := false
  capIndex : Nat := 0
  capFrame : Nat := 0
  capLost : Nat := 0
  capGap : Bool := false
  loading : Option Nat := none
  /-- The zone means of the last frame of the watched camera stream, and the lines of the present one by data type (R389). -/
  zones : Option (List Rat) := none
  presLines : List (Nat × List Byte) := []
  changed : Nat := 0
  tinderAt : Nat := 0
  /-- The feature window (R387): 40 values a hop, newest hop first. -/
  feats : List (List Int) := []
  deriving DecidableEq, Repr

/-! ### Power (R452 to R475) -/

/-- Where the package is in its power states and its power-up order (R452, R457). -/
inductive PowerPhase where
  | unpowered | off | deep | sleep | regulator | oscillator | memory | logic | run
  deriving DecidableEq, Repr

/-- Points that temperature takes from a die, newest first, each for the die's own temperature, for a difference between
neighbours or for both; when it was last lowered; and since when its temperature and its differences have been low (R427,
R470). -/
structure Therm where
  steps : List (Bool × Bool) := []
  loweredAt : Option Nat := none
  coolT : Option Nat := none
  coolD : Option Nat := none
  /-- The difference to a neighbour has exceeded 25 °C and not fallen to 20 °C since (R427). -/
  diffOn : Bool := false
  deriving DecidableEq, Repr

/-- The power manager, beside its registers: the state left (2 SLEEP, 3 DEEP, 4 OFF, 1 warm reset, 0 a start that keeps
nothing), when `target` was written, whether the host link is in L2, a wake by Tinder or the alarm to re-sleep from, the
RTC accumulator with the timebase at edge 0, an alarm that has fired, when a die exceeded the shutdown limit, thermal state by
die, dies that the cap has lowered newest first (the hub as 8), the credit of R469 in nJ, when the cap last acted, dies whose
engine clocks are gated, and STARTs, as client and ring, and a page-map operation held until memory is ready (R459). -/
structure Power where
  phase : PowerPhase := .regulator
  left : Nat := 0
  targetAt : Option Nat := none
  l2 : Bool := false
  wokeAt : Option Nat := none
  wakeOut : Bool := false
  edgeAt : Nat := 0
  frac : Nat := 0
  oscReady : Bool := false
  edgeSinceOsc : Bool := false
  alarmFired : Bool := false
  hotSince : Option Nat := none
  therm : NMap Therm := []
  capSteps : List Nat := []
  credit : Rat := 0
  capAt : Nat := 0
  gated : NMap Unit := []
  rtcFrom : Nat := 0
  heldStarts : List (Nat × Nat) := []
  heldPage : Option PageCmd := none
  deriving DecidableEq, Repr

/-! ### Ring ports and pins (R440 to R442, R507 to R518) -/

/-- A frame of a ring port's retry buffer, sent again as it is and under the same nonce (R440, R508). -/
structure SentFrame where
  key : Nat
  salt : Nat
  counter : Nat
  header : List Byte
  payload : List Byte
  deriving DecidableEq, Repr

/-- A payload that waits to be sent by a ring port, with the packages it comes from and goes to (R508). -/
structure PortLoad where
  src : Nat
  dst : Nat
  payload : List Byte
  deriving DecidableEq, Repr

/-- A ring port, beside its registers: whether it has trained, when a key agreement last failed, the start of a rekey with its time limit
in ms, the serial numbers of its link keys with their salts, one of each for either direction (R432), the frame counter expected next with its key phase and whether the old key is still kept,
whether the last counter value of the key has been used, payloads that wait to be sent, the frames in its retry buffer with
the successive resends of the oldest, and requests of other packages that it has asked for here: its tag, and the package, unit and tag
that the answer goes to (R437). -/
structure RingPort where
  trained : Bool := false
  failedAt : Option Nat := none
  rekeyAt : Option Nat := none
  rekeyMs : Nat := 0
  txKey : Nat := 0
  txSalt : Nat := 0
  rxKey : Nat := 0
  rxSalt : Nat := 0
  rxNext : Nat := 0
  rxPhase : Nat := 0
  rxOld : Bool := false
  spent : Bool := false
  waiting : List PortLoad := []
  retry : List SentFrame := []
  resends : Nat := 0
  asked : List (Nat × Nat × Nat × Nat) := []
  deriving DecidableEq, Repr

/-- An indicator channel, beside its register (R515, R516): lit, the end of its ramp or what is left of a frozen ramp in
timebase ticks, and when it was clamped. -/
structure IndCh where
  lit : Bool := false
  rampEnd : Option Nat := none
  frozen : Option Nat := none
  clampedAt : Option Nat := none
  deriving DecidableEq, Repr

/-- The indicator channels, when the ramps were frozen (R516), and what the host last wrote to `on` of channel 0 (R517). -/
structure Inds where
  chans : NMap IndCh := []
  freezeAt : Option Nat := none
  wish0 : Bool := false
  deriving DecidableEq, Repr

/-- The TAP (R518): the instruction loaded and the boundary register. -/
structure Tap where
  instruction : Nat := 1
  boundary : List Bool := []
  deriving DecidableEq, Repr

/-- The state of the package. -/
@[ext]
structure State where
  /-- Commands waiting to be taken, first in first out. -/
  pending : List Instr := []
  /-- The part: variant and grade (R1, R4). -/
  variant : Variant := .vxp4
  grade : Grade := .aq
  /-- Registers that differ from their reset value, by key (R11), and the high-word latches that are full (R523). -/
  regs : NMap W64 := []
  latch : NMap W32 := []
  /-- Data that the last host read returned (R11, R505), and whether it was marked poisoned (R343). -/
  hostRsp : List Byte := []
  hostPoison : Bool := false
  /-- Memory: DRAM frames, Hearths, other packages' memory and host memory, in canonical form. -/
  mem : List Host.Cell := []
  env : Env := {}
  /-- The MODEL's own: how many free values have been drawn. -/
  drawn : Nat := 0
  /-- Messages that units have sent, newest first. -/
  sent : List Sent := []
  /-- The timebase in ticks of 38.4 MHz (R471). -/
  tb : Nat := 0
  clients : NMap Client := []
  rings : NMap Ring := []
  /-- Steps in flight, in order of acceptance. -/
  steps : List Step := []
  journal : List Journal := []
  /-- Entries of the retained ledger whose bytes are wrong, by their number, with the bits in which they are (R85, R87). -/
  ledgerErr : NMap (List Byte) := []
  /-- TALLY messages that wait for a journal entry, oldest first (R81). -/
  tallyQueue : List TallyMsg := []
  /-- Rotation of the QUIET sweep (R67): the RingId last read. -/
  sweepAt : Nat := 0
  runs : List Run := []
  /-- `quantum_us` and `safety_wait_us` as they stay in effect until the next placement decision, where they were written since the last
  one (R116). -/
  oldPreempt : Option (Nat × Nat) := none
  /-- Kindling is held by the wake chain (R105). -/
  kindlingHeld : Bool := false
  residencies : List Residency := []
  units : NMap UnitSt := []
  /-- Epochs as the scheduler front end and the tally unit know them, from EPOCH_NOTICE (R109). -/
  known : NMap Nat := []
  dies : NMap Die := []
  hearths : NMap Hearth := []
  pages : NMap Page := []
  pageCmd : Option PageCmd := none
  reserves : NMap Reserve := []
  /-- Line accesses in this bellows period (R327): key page * 16 + die. -/
  access : NMap Nat := []
  bellowsAt : Nat := 0
  bellows : Bellows := {}
  /-- Page-map entries in the dispatchers' translation caches, by 2^20 × die + page (R330). -/
  translations : NMap Nat := []
  /-- Moves completed in this bellows period (R332). -/
  movesDone : Nat := 0
  moves : NMap Move := []
  dmcs : NMap Dmc := []
  links : NMap Link := []
  waiting : List Waiting := []
  saf : Safety := {}
  keys : Keys := {}
  /-- Modelled and measured energy of each die at its last scaling (R128). -/
  measured : NMap (Nat × Nat) := []
  /-- Counter blocks by the BAR0 offset of their first register (R480). -/
  cnts : NMap CntBlock := []
  trace : TraceSt := {}
  relays : NMap Relay := []
  cams : Cams := {}
  audio : Audio := {}
  wake : Wake := {}
  power : Power := {}
  /-- MIC_VDD has been opened for overcurrent (R381). -/
  micOpen : Bool := false
  ports : NMap RingPort := []
  inds : Inds := {}
  tap : Tap := {}
  deriving DecidableEq, Repr

/-- The package after power-on: every register at its reset value, memory with nothing listed, nothing accepted, nothing
waiting. The variant and the grade are those of one part (DESIGN CHOICE, log 1). -/
def State.reset : State := {}

end Sys2Proof.Machine
end

