-- ==== Sys2Proof/Machine/Ops.lean ====
section
/-! DEFINITION. The named operations every command is written over: time, registers and their reset values, the byte memory,
messages sent, the routes between dies, role epochs, and the fault log with the clients' event rings. -/

namespace Sys2Proof.Machine

/-! ### Time (R9, R471): 38.4 ticks in a microsecond -/

/-- Microseconds `us` have passed since tick `since`. -/
def State.passedUs (s : State) (since us : Nat) : Bool := decide (us * 192 ≤ (s.tb - since) * 5)

/-- Nanoseconds between tick `since` and now. -/
def State.nsSince (s : State) (since : Nat) : Nat := (s.tb - since) * 625 / 24

/-- Whole microseconds between tick `since` and now. -/
def State.usSince (s : State) (since : Nat) : Nat := (s.tb - since) * 5 / 192

/-- `us` microseconds in ticks, rounded up. -/
def ticksOfUs (us : Nat) : Nat := (us * 192 + 4) / 5

/-! ### Numbering of dies and units (R18, R31) -/

/-- The number of the hub die in a unit name (R31). -/
def hubDie : Nat := 8

/-- Compute dies fitted. -/
def State.nDies (s : State) : Nat := s.variant.dies

/-- Whether compute die `d` is fitted. -/
def State.fitted (s : State) (d : Nat) : Bool := decide (d < s.nDies)

/-- The 16-bit name of unit `u` of die `d` (R31). -/
def unitOf (d u : Nat) : Nat := 4096 * d + u

/-- The die that owns code group `g` (R25). -/
def groupDie (g : Nat) : Nat := if g < 2 then hubDie else (g - 2) / 2

/-- The unit number of the DRAM controller of group `g` on its die (R25, R31). -/
def groupUnit (g : Nat) : Nat := unitOf (groupDie g) (0x070 + g % 2)

/-- Unit numbers of engine `n` of a kind (R31, R71). -/
def engineUnit (kind n : Nat) : Nat :=
  match kind with
  | 0 => n
  | 1 => 0x010 + n
  | 2 => 0x020
  | 3 => 0x021
  | 4 => 0x030 + n
  | 5 => 0x040 + n
  | _ => 0x010

/-- Engines of a kind on one die (R71). -/
def kindEngines (kind : Nat) : Nat :=
  match kind with
  | 0 => 8
  | 1 => 2
  | 2 => 1
  | 3 => 1
  | 4 => 2
  | 5 => 4
  | _ => 1

/-! ### Registers (R11 to R17) -/

/-- The value of a register's fields at their reset values. -/
def fieldsReset : List FieldDef → Nat
  | [] => 0
  | f :: fs => 2 ^ f.lo * f.reset + fieldsReset fs

/-- Reset values that depend on the variant or on the part (R7, R55, R347). -/
def partReset (v : Variant) (g : Grade) (key : Nat) : Option Nat :=
  if key = Reg.GLB_ID then
    some (0x7A50B000 + 65536 * (match g with | .aq => 1 | .iq => 2) + 16 * v.stackLog2 + v.dies)
  else if key = Reg.GLB_TOPO then some (2 ^ v.dies - 1)
  else if key = Reg.PWR_CAP then some v.capRange.2
  else none

/-- The reset value of the register with key `key`: a BAR0 offset, or a client's copy of one (R57). -/
def regReset (v : Variant) (g : Grade) (key : Nat) : W64 :=
  match partReset v g key with
  | some n => BitVec.ofNat 64 n
  | none =>
    match regAt (key % 0x8000000) with
    | some (d, _) => BitVec.ofNat 64 (fieldsReset d.fields)
    | none => 0

/-- The value of a register. -/
def State.reg (s : State) (key : Nat) : Nat :=
  (mapGet s.regs key (regReset s.variant s.grade key)).toNat

/-- `s` with a register set. -/
def State.setReg (s : State) (key v : Nat) : State :=
  { s with regs := mapPut s.regs key (BitVec.ofNat 64 v) (regReset s.variant s.grade key) }

/-- The value of a field. -/
def State.fld (s : State) (f : Fld) : Nat := bits (s.reg f.key) f.lo f.width

/-- Whether a one-bit field is set. -/
def State.flag (s : State) (f : Fld) : Bool := decide (s.fld f ≠ 0)

/-- `s` with a field set. -/
def State.setFld (s : State) (f : Fld) (v : Nat) : State :=
  s.setReg f.key (setBits (s.reg f.key) f.lo f.width v)

/-- `s` with a one-bit field set to `b`. -/
def State.setFlag (s : State) (f : Fld) (b : Bool) : State := s.setFld f (b2n b)

/-- A condition for the package to re-enter SLEEP by itself has failed within the 10 ms of R465: no re-entry is due. -/
def State.breakResleep (s : State) : State := { s with power := { s.power with wokeAt := none } }

/-- `s` with a saturating counter field raised by `n`. -/
def State.addFld (s : State) (f : Fld) (n : Nat) : State :=
  s.setFld f (min (s.fld f + n) (2 ^ f.width - 1))

/-- The register fields that a reset keeps: those of the codes that `keep` names (R13). -/
def keptFields (keep : Acc → Bool) (old : Nat) : List FieldDef → Nat
  | [] => 0
  | f :: fs =>
    2 ^ f.lo * (if keep f.acc then bits old f.lo (f.hi + 1 - f.lo) else f.reset) + keptFields keep old fs

/-- A reset of the registers whose keys satisfy `inBlock`: every field takes its reset value but those kept (R13). -/
def State.resetRegs (s : State) (inBlock : Nat → Bool) (keep : Acc → Bool) : State :=
  forEach s.regs s fun (key, v) t =>
    if inBlock key then
      match regAt (key % 0x8000000) with
      | some (d, _) =>
        match partReset t.variant t.grade key with
        | some n => t.setReg key n
        | none => t.setReg key (keptFields keep v.toNat d.fields)
      | none => t.setReg key 0
    else t

/-! ### Bytes of memory -/

/-- What a byte that nothing has written reads as (DESIGN CHOICE, log 2). -/
def emptyByte : Byte := 0

/-- The canonical form of the memory: addresses strictly rising, and no byte listed that equals `emptyByte`. -/
def memoryWf (m : List Host.Cell) : Bool := mapSorted m && m.all (fun c => decide (c.2 ≠ emptyByte))

/-- The byte at `a`. -/
def memoryGet (m : List Host.Cell) (a : Nat) : Byte := mapGet m a emptyByte

/-- `m` with `b` at `a`. -/
def memoryPut (m : List Host.Cell) (a : Nat) (b : Byte) : List Host.Cell := mapPut m a b emptyByte

/-- `n` bytes from `a`. -/
def memoryRead (m : List Host.Cell) (a n : Nat) : List Byte := (natRange a n).map (memoryGet m)

/-- `m` with bytes written from `a` upward. -/
def memoryWrite (m : List Host.Cell) (a : Nat) : List Byte → List Host.Cell
  | [] => m
  | b :: bs => memoryWrite (memoryPut m a b) (a + 1) bs

/-- `m` without any byte listed from `a` to `a + n`. -/
def memoryClear (m : List Host.Cell) (a n : Nat) : List Host.Cell :=
  m.filter (fun c => decide (c.1 < a) || decide (a + n ≤ c.1))

/-- Bytes stored at a memory key. -/
def State.store (s : State) (a : Nat) (bs : List Byte) : State := { s with mem := memoryWrite s.mem a bs }

/-- Bytes read at a memory key. -/
def State.load (s : State) (a n : Nat) : List Byte := memoryRead s.mem a n

/-- The key of offset `off` of code group `g` (16 GiB a group, R25). -/
def dramKey (g off : Nat) : Nat := 0x400000000 * g + off

/-- The key of offset `off` of the Hearth of die `d` (R51). -/
def hearthKey (d off : Nat) : Nat := 0x400000000000 + 0x100000000 * d + off

/-- The PASID under which the physical function's own host memory is kept (DESIGN CHOICE, log 3). -/
def hostPf : Nat := 4096

/-- The key of host address `iova` under PASID `pasid` (R51): each PASID has a space of 2^46 bytes of its own. -/
def hostKey (pasid iova : Nat) : Nat := 0x1000000000000 + 0x400000000000 * pasid + iova % 0x400000000000

/-! ### Free values (log 11) -/

/-- The next `n` free bytes. -/
def State.drawBytes (s : State) (n : Nat) : State × List Byte :=
  ({ s with drawn := s.drawn + n }, (natRange s.drawn n).map Config.freeByte)

/-! ### Messages -/

/-- `s` after a unit has sent `m`. -/
def State.send (s : State) (m : Sent) : State := { s with sent := m :: s.sent }

/-! ### Access to tables -/

def State.unit (s : State) (u : Nat) : UnitSt := mapGet s.units u {}
def State.modUnit (s : State) (u : Nat) (f : UnitSt → UnitSt) : State :=
  { s with units := mapSet s.units u (f (s.unit u)) }

def State.dieSt (s : State) (d : Nat) : Die := mapGet s.dies d {}
def State.modDie (s : State) (d : Nat) (f : Die → Die) : State :=
  { s with dies := mapSet s.dies d (f (s.dieSt d)) }

def State.client (s : State) (c : Nat) : Client := mapGet s.clients c {}
def State.modClient (s : State) (c : Nat) (f : Client → Client) : State :=
  { s with clients := mapSet s.clients c (f (s.client c)) }

def State.ring (s : State) (r : Nat) : Ring := mapGet s.rings r {}
def State.modRing (s : State) (r : Nat) (f : Ring → Ring) : State :=
  { s with rings := mapSet s.rings r (f (s.ring r)) }

def State.hearth (s : State) (d : Nat) : Hearth := mapGet s.hearths d {}
def State.modHearth (s : State) (d : Nat) (f : Hearth → Hearth) : State :=
  { s with hearths := mapSet s.hearths d (f (s.hearth d)) }

def State.dmc (s : State) (g : Nat) : Dmc := mapGet s.dmcs g {}
def State.modDmc (s : State) (g : Nat) (f : Dmc → Dmc) : State :=
  { s with dmcs := mapSet s.dmcs g (f (s.dmc g)) }

def State.page (s : State) (n : Nat) : Page := mapGet s.pages n {}
def State.modPage (s : State) (n : Nat) (f : Page → Page) : State :=
  { s with pages := mapPut s.pages n (f (s.page n)) {} }

def State.link (s : State) (u : Nat) : Link := mapGet s.links u {}
def State.modLink (s : State) (u : Nat) (f : Link → Link) : State :=
  { s with links := mapSet s.links u (f (s.link u)) }

/-! ### Attachment of clients (R59) -/

def State.attached (s : State) (c : Nat) : Bool := s.flag (Fld.SCH_CLIENT_CTRL_attached c)
def State.detaching (s : State) (c : Nat) : Bool := s.flag (Fld.SCH_CLIENT_CTRL_detaching c)
def State.ownerFn (s : State) (c : Nat) : Nat := s.fld (Fld.SCH_CLIENT_CTRL_function c)

/-! ### Logic state of a die (R44) and its service (R55, R75) -/

/-- Codes of `logic_state` (R44). -/
def logicOff : Nat := 0
def logicReset : Nat := 1
def logicSelftest : Nat := 2
def logicReady : Nat := 3
def logicDraining : Nat := 4

def State.logicState (s : State) (d : Nat) : Nat := s.fld (Fld.CDG_STATUS_logic_state d)

/-- The compute logic answers: READY or DRAINING with its gate open (R41, R43). -/
def State.logicUp (s : State) (d : Nat) : Bool :=
  decide (d = hubDie) || (s.fitted d && (s.dieSt d).gate)

/-- The register blocks of the compute logic answer: READY, its gate open (R43). -/
def State.logicServes (s : State) (d : Nat) : Bool :=
  decide (s.logicState d = logicReady) && (s.dieSt d).gate

/-- The die is in service as a whole (R55). -/
def State.diePresent (s : State) (d : Nat) : Bool :=
  decide (d = hubDie) || bit (s.fld Fld.GLB_TOPO_dies_present) d

/-! ### Routes (R36, R37) -/

def State.hubLinkUp (s : State) (d : Nat) : Bool := bit (s.fld Fld.GLB_TOPO_hub_links_up) d
def State.ringLinkUp (s : State) (i : Nat) : Bool := bit (s.fld Fld.GLB_TOPO_ring_links_up) i

/-- All `k` ring links from die `a` eastward are up. -/
def State.eastUp (s : State) (a k : Nat) : Bool :=
  (natRange a k).all fun i => s.ringLinkUp (i % s.nDies)

/-- All `k` ring links from die `a` westward are up. -/
def State.westUp (s : State) (a k : Nat) : Bool :=
  (natRange 0 k).all fun i => s.ringLinkUp ((a + s.nDies - 1 - i % s.nDies) % s.nDies)

/-- The first of a list of paths (whether usable, and its hops) that is usable. -/
def firstPath : List (Bool × Nat) → Option Nat
  | [] => none
  | (up, h) :: ps => if up then some h else firstPath ps

/-- Hops of the path from die `a` to die `b` (R37), if any entry of the table is usable. -/
def State.hops (s : State) (a b : Nat) : Option Nat :=
  let n := s.nDies
  let toHub := fun d => firstPath
    [(s.hubLinkUp d, 1),
     (decide (1 < n) && s.ringLinkUp d && s.hubLinkUp ((d + 1) % n), 2),
     (decide (1 < n) && s.ringLinkUp ((d + n - 1) % n) && s.hubLinkUp ((d + n - 1) % n), 2)]
  if a = b then some 0
  else if a = hubDie then toHub b
  else if b = hubDie then toHub a
  else
    let e := (b + n - a) % n
    let w := (a + n - b) % n
    let short := if e < w then (s.eastUp a e, e) else (s.westUp a w, w)
    let long := if e < w then (s.westUp a w, w) else (s.eastUp a e, e)
    let hub := (s.hubLinkUp a && s.hubLinkUp b, 2)
    if min e w ≤ 2 then firstPath [short, hub, long] else firstPath [hub, short, long]

/-! ### Engine counters (R478 to R483) -/

/-- The counter block of unit `u` of die `d` (R54, R480), where it has one; a die's EWE `n` is named 0x100 + `n` here. -/
def counterBlock (d u : Nat) : Option Nat :=
  let base := dieBase d
  if d = hubDie then (if u = 0x010 then some 0xC1000 else none)
  else if u < 8 then some (base + 0x10800 + 0x1000 * u)
  else if 0x100 ≤ u ∧ u < 0x108 then some (base + 0x20800 + 0x1000 * (u - 0x100))
  else if u = 0x010 ∨ u = 0x011 then some (base + 0x30800 + 0x4000 * (u - 0x010))
  else if u = 0x020 then some (base + 0x38800)
  else if u = 0x021 then some (base + 0x3C800)
  else if u = 0x030 ∨ u = 0x031 then some (base + 0x40800 + 0x8000 * (u - 0x030))
  else if 0x040 ≤ u ∧ u < 0x044 then some (base + 0x50800 + 0x4000 * (u - 0x040))
  else none

def State.cnt (s : State) (blk : Nat) : CntBlock := mapGet s.cnts blk {}
def State.modCnt (s : State) (blk : Nat) (f : CntBlock → CntBlock) : State :=
  { s with cnts := mapSet s.cnts blk (f (s.cnt blk)) }

/-- Counter `i` of a block raised by `n`; it wraps past 2^48 - 1 and sets its overflow bit (R483). -/
def State.bump (s : State) (blk i n : Nat) : State :=
  let v := mapGet (s.cnt blk).counts i 0 + n
  let s1 := s.modCnt blk fun b => { b with counts := mapSet b.counts i (v % 2 ^ 48) }
  if v < 2 ^ 48 then s1
  else s1.setFld (Fld.X_CNT_OVF_overflow blk) (setBit (s1.fld (Fld.X_CNT_OVF_overflow blk)) i true)

/-- `n` events of a code at a unit, of a command of client `cl` or of none (R479). -/
def State.count (s : State) (d u code n : Nat) (cl : Option Nat) : State :=
  match counterBlock d u with
  | none => s
  | some blk =>
    if n = 0 ∨ !s.flag (Fld.X_CNT_CTRL_cnt_enable blk) then s
    else forEach (natRange 0 12) s fun i t =>
      if t.fld (Fld.X_CNT_SEL_event blk i) = code ∧
          (!t.flag (Fld.X_CNT_SEL_client_only blk i) ∨ cl = some (t.fld (Fld.X_CNT_SEL_client blk i))) then t.bump blk i n
      else t

/-- Counters 12 to 15, which count the work of every client (R478). -/
def State.countFixed (s : State) (d u i n : Nat) : State :=
  match counterBlock d u with
  | none => s
  | some blk => if n = 0 ∨ !s.flag (Fld.X_CNT_CTRL_cnt_enable blk) then s else s.bump blk i n

/-- The units whose counters a command on engine `u` advances: an MXE has its EWE beside it (R21, R478). -/
def withGate (d u : Nat) : List Nat := if d ≠ hubDie ∧ u < 8 then [u, 0x100 + u] else [u]

/-- Frequency in MHz of the clock that a unit's cycles are counted in (R48, R478): FABRIC for CDC and MOV, CORE otherwise. -/
def State.unitMhz (s : State) (d u : Nat) : Nat :=
  let point := if d = hubDie then s.fld Fld.CLK_POINT_HUB_point else s.fld (Fld.CPC_STATUS_point d)
  let root := match point with | 0 => 4800 | 1 => 4200 | 2 => 3600 | 3 => 2400 | _ => 1200
  if d ≠ hubDie ∧ 0x030 ≤ u ∧ u < 0x050 then root / 5 else root / 3

/-- Cycles of a unit in `ns` nanoseconds. -/
def State.unitCycles (s : State) (d u ns : Nat) : Nat := ns * s.unitMhz d u / 1000

/-! ### Trace packets (R485 to R492) -/

/-- Bytes of a packet (R486). -/
def TracePacket.size (p : TracePacket) : Nat := if p.ty ≤ 1 ∨ p.ty = 3 ∨ p.ty = 0x31 ∨ p.ty = 0x32 then 16 else 32

/-- Bytes of packets. -/
def packetsSize (ps : List TracePacket) : Nat := (ps.map TracePacket.size).foldl (· + ·) 0

/-- The group of a packet type (R486); none: always written. -/
def traceGroup (ty : Nat) : Option Nat :=
  if ty = 0x10 ∨ ty = 0x11 ∨ ty = 0x15 then some 0
  else if ty = 0x12 ∨ ty = 0x13 ∨ ty = 0x14 then some 1
  else if ty = 0x20 then some 2
  else if ty = 0x21 then some 3
  else if ty = 0x30 then some 4
  else if ty = 0x31 then some 5
  else if ty = 0x32 then some 6
  else if ty = 0x33 then some 7
  else none

/-- Sizes of the buffers (R489). -/
def dieTraceBytes : Nat := 0x100000
def hubTraceBytes : Nat := 0x800000

/-- The unit name of the hub's trace buffer's packets: the scheduler front end's die, unit 0xFFF (DESIGN CHOICE, log 25). -/
def unitTrace : Nat := unitOf hubDie 0xFFF

/-- A SYNC packet (R486). -/
def State.syncPacket (s : State) : TracePacket :=
  { ty := 0x01, unit := unitTrace, client := 0xFFF, stamp := s.tb % 2 ^ 48, payload := leBytes (s.tb / 2 ^ 48) 2 }

/-- A packet dropped and counted; `note` says whether a LOSS packet is to tell of it (R491, R492). -/
def State.dropPacket (s : State) (p : TracePacket) (note : Bool) : State :=
  let s1 := (s.addFld Fld.DBG_TRACE_LOST_lost 1).setFlag Fld.DBG_TRACE_STATUS_loss_seen true
  if note then
    let d := p.unit / 4096
    let n : LossNote := match mapFind s1.trace.loss d with
      | some x => { x with count := x.count + 1, last := p.stamp }
      | none => ⟨1, p.stamp, p.stamp⟩
    { s1 with trace := { s1.trace with loss := mapSet s1.trace.loss d n } }
  else s1

/-- The LOSS packet of a die, followed by SYNC, if one is due (R486, R491). -/
def State.lossPackets (s : State) (d : Nat) : List TracePacket :=
  match mapFind s.trace.loss d with
  | none => []
  | some n =>
    [{ ty := 0x02, unit := unitOf d 0xFFF, client := 0xFFF, stamp := s.tb % 2 ^ 48
       payload := leBytes n.count 4 ++ leBytes d 1 ++ leBytes 0 1 ++ leBytes n.first 6 ++ leBytes n.last 6 }, s.syncPacket]

/-- Oldest packets given up until `ps` fits into `room` bytes. -/
def trimTo (room : Nat) : List TracePacket → List TracePacket
  | [] => []
  | p :: ps => if packetsSize (p :: ps) ≤ room then p :: ps else trimTo room ps

/-- The pre-trigger region's size (R492). -/
def State.splitBytes (s : State) : Nat := 0x40000 * s.fld Fld.DBG_TRACE_CTRL_split

/-- A packet into the post-trigger region; once nothing more fits, the window drains (R492). -/
def State.postPacket (s : State) (p : TracePacket) : State :=
  let post := s.trace.post ++ [p]
  let s1 := { s with trace := { s.trace with post := post, drainFirst := true } }
  if hubTraceBytes - s.splitBytes < packetsSize post + 32 then s1.setFld Fld.DBG_TRACE_STATUS_wstate 3 else s1

/-- A packet at the hub buffer (R489, R491, R492); `keep` is told whether there was room. -/
def State.hubPacket (s : State) (p : TracePacket) : State × Bool :=
  if s.flag Fld.DBG_TRACE_CTRL_window then
    match s.fld Fld.DBG_TRACE_STATUS_wstate with
    | 0 => (s, true)
    | 1 => ({ s with trace := { s.trace with hub := trimTo s.splitBytes (s.trace.hub ++ [p]) } }, true)
    | 2 => (s.postPacket p, true)
    | _ => (s.dropPacket p false, true)
  else
    let ps := s.lossPackets (p.unit / 4096) ++ [p]
    if packetsSize (s.trace.hub ++ ps) ≤ hubTraceBytes then
      ({ s with trace := { s.trace with hub := s.trace.hub ++ ps, loss := mapDel s.trace.loss (p.unit / 4096) } }, true)
    else (s, false)

/-- The bytes of a packet (R485). -/
def packetBytes (p : TracePacket) : List Byte :=
  let n := TracePacket.size p
  let body := p.payload.take (n - 12)
  leBytes p.ty 1 ++ leBytes (n / 8) 1 ++ leBytes p.unit 2 ++ leBytes p.stamp 6 ++ leBytes (p.client % 4096) 2 ++ body ++
  List.replicate (n - 12 - body.length) 0

/-- Packets that the hub buffer takes, oldest first, and those for which it has no room. -/
def State.hubTake : List TracePacket → State → State × List TracePacket
  | [], s => (s, [])
  | p :: ps, s =>
    match s.hubPacket p with
    | (s1, true) => State.hubTake ps s1
    | (_, false) => (s, p :: ps)

/-- A WRITE of 64 B of a die's packets to its hub link end, with a device address of zero (R489). -/
def State.traceWrite (s : State) (d : Nat) (bs : List Byte) : Msg :=
  let dst := unitOf hubDie (0x080 + d)
  { hdr := { opcode := 0x02, tag := 0, epoch := (s.unit dst).epoch, dst := dst, src := unitOf d 0xFFF, addr := 0, client := 0xFFF
             len := 64, clinker := false, reissued := false }
    data := bs.take 64 ++ List.replicate (64 - bs.length) 0 }

/-- A die's buffered packets forwarded to the hub, as far as there is a way and it has room (R489; log 174). -/
def State.forwardTrace (s : State) (d : Nat) (buf : List TracePacket) : State :=
  let (s1, left) := if (s.hops d hubDie).isSome then State.hubTake buf s else (s, buf)
  let out := (buf.take (buf.length - left.length)).flatMap packetBytes
  let s2 := forEach (natRange 0 ((out.length + 63) / 64)) s1 fun k t => t.send (.msg (t.traceWrite d (out.drop (64 * k))))
  { s2 with trace := { s2.trace with
      dieBufs := if left.isEmpty then mapDel s2.trace.dieBufs d else mapSet s2.trace.dieBufs d left } }

/-- A trigger acted on in ARMED, ignored otherwise (R492). -/
def State.trigger (s : State) (cause : Nat) : State :=
  if s.fld Fld.DBG_TRACE_STATUS_wstate = 1 then
    let s1 := (s.setFld Fld.DBG_TRACE_STATUS_wstate 2).setReg Reg.DBG_TRACE_TRIGTB s.tb
    s1.postPacket { ty := 0x03, unit := unitTrace, client := 0xFFF, stamp := s.tb % 2 ^ 48, payload := leBytes cause 1 }
  else s

/-- The cause with which a packet triggers, if it does (R492). -/
def State.triggerCause (s : State) (p : TracePacket) : Option Nat :=
  let t := s.fld Fld.DBG_TRACE_TRIG_trig_type
  let d := s.fld Fld.DBG_TRACE_TRIG_trig_die
  if t ≠ 0 ∧ p.ty = t ∧ (d = 0xF ∨ d = p.unit / 4096) then some 1
  else if p.ty = 0x30 ∧ s.flag Fld.DBG_TRACE_TRIG_on_fault ∧ 2 ≤ leNat (p.payload.take 1) then some 2
  else none

/-- A packet enters its die's buffer, or the hub's (R489 to R492). -/
def State.arrive (s : State) (p : TracePacket) : State :=
  let d := p.unit / 4096
  let s1 :=
    if d = hubDie then
      match s.hubPacket p with
      | (t, true) => t
      | (t, false) => t.dropPacket p true
    else
      let buf := mapGet s.trace.dieBufs d []
      let throttle := s.flag Fld.DBG_TRACE_CTRL_throttle
      if packetsSize (buf ++ [p]) ≤ dieTraceBytes ∨ throttle then
        let t := if throttle ∧ dieTraceBytes * 7 / 8 < packetsSize (buf ++ [p]) then
            { s with trace := { s.trace with throttled := mapSet s.trace.throttled d () } } else s
        t.forwardTrace d (buf ++ [p])
      else s.dropPacket p true
  match s1.triggerCause p with
  | some c => s1.trigger c
  | none => s1

/-- A packet is written (R485): trace is on, its group and die are enabled, and the filter keeps it. -/
def State.traceOn (s : State) (ty unit client : Nat) : Bool :=
  let d := unit / 4096
  s.flag Fld.DBG_TRACE_CTRL_enable &&
  (match traceGroup ty with
   | some g => bit (s.fld Fld.DBG_TRACE_SRC_groups) g
   | none => true) &&
  bit (s.fld Fld.DBG_TRACE_SRC_die_mask) (if d = hubDie then 7 else d) &&
  (!s.flag Fld.DBG_TRACE_FILTER_filter_en || decide (client = 0xFFF) || decide (client = s.fld Fld.DBG_TRACE_FILTER_client))

/-- An event of a unit that trace reports (R485, R486). -/
def State.packet (s : State) (ty unit client : Nat) (payload : List Byte) : State :=
  if s.traceOn ty unit client then
    s.arrive { ty := ty, unit := unit, client := client, stamp := s.tb % 2 ^ 48, payload := payload }
  else s

/-- Sequence number and RingId, as most packets begin (R486). -/
def seqRing (seq ring : Nat) : List Byte := leBytes seq 8 ++ leBytes (ring % 1048576) 4

/-! ### Role epochs (R109, R110) -/

/-- One advance of a unit's epoch, announced. -/
def State.stepEpoch (s : State) (u : Nat) : State :=
  let e := ((s.unit u).epoch + 1) % 65536
  let s1 := s.modUnit u fun x => { x with epoch := e, lastAdvance := some s.tb }
  (forEach (withGate (u / 4096) (u % 4096)) s1 fun n t => t.count (u / 4096) n 0x0F 1 none).send (.epochNotice u e)

/-- Whether the unit advanced less than 1 µs ago. -/
def State.advancedLately (s : State) (u : Nat) : Bool :=
  match (s.unit u).lastAdvance with
  | some t => !s.passedUs t 1
  | none => false

/-- One event of R109 for unit `u`: its epoch advances now, or 1 µs after the previous advance (R110). -/
def State.advanceEpoch (s : State) (u : Nat) : State :=
  if s.advancedLately u || decide (0 < (s.unit u).deferred) then
    s.modUnit u fun x => { x with deferred := x.deferred + 1 }
  else s.stepEpoch u

/-- The unit executes no message between an event and its deferred advance (R110). -/
def State.epochPending (s : State) (u : Nat) : Bool := decide (0 < (s.unit u).deferred)

def State.epoch (s : State) (u : Nat) : Nat := (s.unit u).epoch

/-- The unit whose epoch is the role epoch of die `d` and of its dispatcher (R109): its dispatcher, and for the hub a unit of
the same number (DESIGN CHOICE, log 4). -/
def dieUnit (d : Nat) : Nat := unitOf d 0x060

/-- The epoch of a unit as the scheduler front end and the tally unit know it (R109). -/
def State.knownEpoch (s : State) (u : Nat) : Nat := mapGet s.known u 0

/-- Every engine of a compute die: MXE, ATE, CEE, PPE, CDC, MOV (R31). -/
def dieEngines : List Nat :=
  natRange 0x000 8 ++ natRange 0x010 2 ++ [0x020, 0x021] ++ natRange 0x030 2 ++ natRange 0x040 4

/-! ### In service (R75) -/

/-- The `in_service` bit of a unit's status register, where it has one. -/
def inServiceFld (d u : Nat) : Option Fld :=
  if u < 8 then some (Fld.MXE_STATUS_in_service d u)
  else if u = 0x010 ∨ u = 0x011 then some (Fld.ATE_STATUS_in_service d (u - 0x010))
  else if u = 0x020 then some (Fld.CEE_STATUS_in_service d)
  else if u = 0x021 then some (Fld.PPE_STATUS_in_service d)
  else if u = 0x030 ∨ u = 0x031 then some (Fld.CDC_STATUS_in_service d (u - 0x030))
  else none

/-- Whether a unit of die `d` has not been taken out itself. -/
def State.unitIn (s : State) (d u : Nat) : Bool :=
  (match (s.unit (unitOf d u)).outSince with | some _ => false | none => true) &&
  (if d = hubDie then true else
    match inServiceFld d u with
    | some f => s.flag f
    | none => true)

/-- Whether engine `n` of a kind is in service on die `d` (R75). -/
def State.engineIn (s : State) (d kind n : Nat) : Bool :=
  if kind = 6 then decide (d = hubDie) && s.unitIn hubDie 0x010
  else s.diePresent d && s.fitted d && s.unitIn d (engineUnit kind n)

/-- Device memory is being rebuilt after DEEP: STARTs and page-map operations wait (R459). -/
def State.rebuilding (s : State) : Bool :=
  decide (s.power.phase = .run) && decide (s.power.left = 3) && !s.flag Fld.PWR_STATUS_mem_ready

/-! ### The fault log (R406, R407) and client events (R408) -/

/-- MSI-X message of a function. -/
def State.msix (s : State) (fn vec : Nat) : State := s.send (.msix fn vec)

/-- One record to the fault log. -/
structure LogRec where
  tb : Nat
  cls : Nat
  action : Nat
  unit : Nat
  detail : Nat := 0
  client : Nat := 0xFFF
  seq : Nat := 0
  ring : Nat := 0
  count : Nat := 1
  deriving DecidableEq, Repr

/-- The 32 bytes of a record (R406). -/
def LogRec.bytes (r : LogRec) (lost : Nat) : List Byte :=
  leBytes r.tb 8 ++ leBytes r.cls 1 ++ leBytes r.action 1 ++ leBytes r.unit 2 ++ leBytes r.detail 2 ++
  leBytes (r.client % 4096) 2 ++ leBytes r.seq 8 ++ leBytes (r.ring % 1048576) 4 ++
  leBytes (min r.count 65535) 2 ++ leBytes (min lost 65535) 2

/-- The package is in RUN or IDLE: its hub logic runs, and every input acts (R452, R503). -/
def State.awake (s : State) : Bool := decide (s.power.phase = .run)

/-- Something that drives the wake output while the link is in L2 (R465). -/
def State.noteWakeOut (s : State) : State :=
  if s.power.l2 && s.flag Fld.PWR_CTRL_wake_out_en then { s with power := { s.power with wakeOut := true } } else s

/-- A record written to the fault log, or dropped while the log is full (R407), with its FAULT packet (R486). -/
def State.writeLog (s0 : State) (r : LogRec) : State :=
  let s := (if 2 ≤ r.cls then s0.noteWakeOut else s0).packet 0x30 r.unit r.client (leBytes r.cls 1 ++ leBytes r.action 1 ++ leBytes r.detail 2 ++ leBytes r.seq 8 ++
    leBytes (r.ring % 1048576) 4 ++ leBytes (min r.count 65535) 2)
  if s.flag Fld.SAF_CTRL_log_enable then
    let head := s.fld Fld.SAF_LOG_HEAD_written
    let count := s.fld Fld.SAF_LOG_CFG_log_count
    if head - s.fld Fld.SAF_LOG_TAIL_consumed ≥ count then
      { s with saf := { s.saf with lost := min (s.saf.lost + 1) 65535 } }
    else
      let slot := s.fld Fld.SAF_LOG_BASE_log_base + head % count * 32
      let s1 := (s.store (hostKey hostPf slot) (r.bytes s.saf.lost)).setFld Fld.SAF_LOG_HEAD_written (head + 1)
      let s2 := { s1 with saf := { s1.saf with lost := 0 } }
      let due := match s2.saf.msixAt with
        | some t => s2.passedUs t 10
        | none => true
      if decide (2 ≤ r.cls) || due then
        { s2.msix 0 (s2.fld Fld.SAF_LOG_CFG_log_vector) with saf := { s2.saf with msixAt := some s2.tb } }
      else s2
  else s

/-- An event of class 1 to 3, with a record of its own. -/
def State.logEvent (s : State) (cls action unit detail : Nat) (client : Nat := 0xFFF) (seq : Nat := 0)
    (ring : Nat := 0) : State :=
  s.writeLog { tb := s.tb, cls := cls, action := action, unit := unit, detail := detail, client := client,
               seq := seq, ring := ring }

/-- Adds one event to the record being gathered for its detail and unit, or starts one (R407). -/
def addMerge (m : LogMerge) : List LogMerge → List LogMerge
  | [] => [m]
  | x :: xs =>
    if x.unit = m.unit ∧ x.detail = m.detail then { x with count := min (x.count + 1) 65535 } :: xs
    else x :: addMerge m xs

/-- The record being gathered for a detail and a unit is written (R407). -/
def State.writeMerge (s : State) (m : LogMerge) : State :=
  { s with saf := { s.saf with merges := s.saf.merges.filter fun y => !(decide (y.unit = m.unit) && decide (y.detail = m.detail)) } }.writeLog
    { tb := m.tb, cls := m.cls, action := 0, unit := m.unit, detail := m.detail, client := m.client, count := m.count }

/-- A corrected event of class 0: data corrected, or a transfer or an operation repeated. It is merged with those of its detail from its
unit within 1 ms; one that comes later has the record of those before it written first (R407; log 183). -/
def State.logCorrected (s : State) (unit detail : Nat) (client : Nat := 0xFFF) : State :=
  let s1 := match s.saf.merges.find? fun m => decide (m.unit = unit) && decide (m.detail = detail) with
    | some m => if s.passedUs m.tb 1000 then s.writeMerge m else s
    | none => s
  { s1 with saf := { s1.saf with
      merges := addMerge { unit := unit, detail := detail, tb := s1.tb, count := 1, cls := 0, client := client } s1.saf.merges } }

/-- An event of class 0 that is only recorded: it has a record of its own (R403, R407; log 183). -/
def State.logRecorded (s : State) (unit detail : Nat) (client : Nat := 0xFFF) (ring : Nat := 0) : State :=
  s.logEvent 0 0 unit detail client 0 ring

/-! ### Message headers (R29) -/

/-- The length code of a message of `n` bytes. -/
def lenCode (n : Nat) : Nat := if n ≤ 8 then 0 else if n ≤ 16 then 1 else if n ≤ 32 then 2 else 3

/-- The 16 bytes of a message's header. -/
def headerBytes (h : Header) : List Byte :=
  leBytes h.opcode 1 ++ leBytes h.tag 1 ++ leBytes h.epoch 2 ++ leBytes h.dst 2 ++ leBytes h.src 2 ++ leBytes h.addr 6 ++
    leBytes (h.client % 4096 + 0x1000 * lenCode h.len + 0x4000 * b2n h.clinker + 0x8000 * b2n h.reissued) 2

/-- The bytes that a length code stands for. -/
def codeLen (c : Nat) : Nat := [8, 16, 32].getD c 64

/-- The header that 16 bytes give. -/
def parseHeader (bs : List Byte) : Header :=
  let word := fun (i n : Nat) => leNat ((bs.drop i).take n)
  { opcode := word 0 1, tag := word 1 1, epoch := word 2 2, dst := word 4 2, src := word 6 2, addr := word 8 6, client := word 14 2 % 4096
    len := codeLen (word 14 2 / 4096 % 4), clinker := bit (word 14 2) 14, reissued := bit (word 14 2) 15 }

/-- A WRITE and a READ_DATA carry as many bytes as their length code says; READ, WRITE_ACK, RETRY and BUS_ERROR carry none (R30). -/
def msgBytes (m : Msg) : List Byte :=
  headerBytes m.hdr ++ if m.hdr.opcode = 0x02 ∨ m.hdr.opcode = 0x41 then
    let n := codeLen (lenCode m.hdr.len)
    m.data.take n ++ List.replicate (n - m.data.length) 0
  else []

/-! ### Ring ports (R440, R442, R508) -/

def State.ringPort (s : State) (p : Nat) : RingPort := mapGet s.ports p {}
def State.modRingPort (s : State) (p : Nat) (f : RingPort → RingPort) : State :=
  { s with ports := mapPut s.ports p (f (s.ringPort p)) {} }

/-- A new key, told from every other by its serial number (R432); the DRBG reseeds first where more than 2^20 requests have been
served (R431). -/
def State.newKey (s : State) : State × Nat :=
  let again := decide (2 ^ 20 < s.keys.served)
  ({ s with keys := { s.keys with
      serial := s.keys.serial + 1, served := if again then 1 else s.keys.served + 1
      reseedAt := if again then s.tb else s.keys.reseedAt } }, s.keys.serial)

/-- The signed key-agreement message of a port is sent, with a new ephemeral key (R441, R509). -/
def State.sendAgreement (s : State) (p : Nat) : State :=
  let (s1, k) := s.newKey
  s1.send (.keyAgreement p (s.fld Fld.HXR_PKG_pkg_id) (s.fld Fld.HXR_PKG_ring_size) (s.fld (Fld.HXR_SEC_CTRL_ring_tag p)) k s.keys.identity)

/-- A port starts to agree keys: its signed message is sent (R441, R442). -/
def State.startRekey (s : State) (p : Nat) : State :=
  ((s.setFlag (Fld.HXR_SEC_STATUS_rekey_busy p) true).modRingPort p fun x =>
      { x with rekeyAt := some s.tb, rekeyMs := s.fld (Fld.HXR_SEC_CTRL_rekey_timeout_ms p) }).sendAgreement p

/-- The 8-byte header of a data frame (R508). -/
def frameHeader (phase : Bool) (l : PortLoad) (counter : Nat) : List Byte :=
  leBytes (b2n phase) 1 ++ leBytes (l.src % 16 + 16 * (l.dst % 16)) 1 ++ leBytes l.payload.length 2 ++ leBytes (counter % 2 ^ 32) 4

/-- The 96-bit nonce of a frame: the direction's salt and its frame counter (R440). -/
def frameNonce (salt counter : Nat) : List Byte := leBytes salt 4 ++ leBytes counter 5 ++ leBytes 0 3

/-- A frame of the retry buffer put on its port. -/
def SentFrame.sent (f : SentFrame) (p : Nat) : Sent := .ringFrame p f.key (frameNonce f.salt f.counter) f.header f.payload

/-- A ring port can take a frame: its key has a counter value left, and its retry buffer a place (R442, R508). -/
def RingPort.hasRoom (x : RingPort) : Bool := !x.spent && decide (x.retry.length < 256)

/-- A counter of either direction that has 2^20 values left or fewer starts a rekey (R442). -/
def State.rekeyAtCount (s : State) (p count : Nat) : State :=
  if 2 ^ 40 - 2 ^ 20 ≤ count ∧ (s.ringPort p).rekeyAt.isNone then s.startRekey p else s

/-- A frame sent under the next counter value. -/
def State.putFrame (s : State) (p : Nat) (l : PortLoad) : State :=
  let x := s.ringPort p
  let c := s.fld (Fld.HXR_SEC_COUNT_tx_counter p)
  let f : SentFrame := ⟨x.txKey, x.txSalt, c, frameHeader (s.flag (Fld.HXR_SEC_STATUS_key_phase p)) l c, l.payload⟩
  let s1 := (s.setFld (Fld.HXR_SEC_COUNT_tx_counter p) ((c + 1) % 2 ^ 40)).modRingPort p fun y =>
    { y with retry := y.retry ++ [f], spent := decide (c + 1 = 2 ^ 40) }
  (s1.send (f.sent p)).rekeyAtCount p (c + 1)

/-- Frames wait for new keys, the counter being exhausted (R409, R442): shown, and recorded once. -/
def State.nonceSpent (s : State) (p : Nat) : State :=
  if s.flag (Fld.HXR_SEC_STATUS_nonce_exhaust p) then s
  else (s.setFlag (Fld.HXR_SEC_STATUS_nonce_exhaust p) true).logRecorded (unitOf hubDie (0x090 + p)) 0

/-- A payload for a ring port is sent, or waits for room in the retry buffer or for new keys, behind those that wait (R442, R508). -/
def State.sendFrame (s : State) (p : Nat) (l : PortLoad) : State :=
  let x := s.ringPort p
  if x.hasRoom && x.waiting.isEmpty then s.putFrame p l
  else
    let s1 := s.modRingPort p fun y => { y with waiting := y.waiting ++ [l] }
    if x.spent then s1.nonceSpent p else s1

/-- Messages sent to package `pkg` by a ring port, in a frame padded to a multiple of 16 bytes (R278, R508). -/
def State.sendToPackage (s : State) (port pkg : Nat) (messages : List Byte) : State :=
  let pad := (16 - messages.length % 16) % 16
  s.sendFrame port ⟨s.fld Fld.HXR_PKG_pkg_id, pkg, messages ++ List.replicate pad 0⟩

/-- Payloads that wait at a ring port, at most `n` of them, sent in their order as far as they can be. -/
def State.sendWaiting (p : Nat) : Nat → State → State
  | 0, s => s
  | n + 1, s =>
    let x := s.ringPort p
    match x.waiting with
    | [] => s
    | l :: rest =>
      if x.hasRoom then sendWaiting p n ((s.modRingPort p fun y => { y with waiting := rest }).putFrame p l)
      else if x.spent then s.nonceSpent p
      else s

/-! ### Indicator channels (R515, R516) -/

def State.indCh (s : State) (n : Nat) : IndCh := mapGet s.inds.chans n {}
def State.modInd (s : State) (n : Nat) (f : IndCh → IndCh) : State :=
  { s with inds := { s.inds with chans := mapPut s.inds.chans n (f (s.indCh n)) {} } }

/-- Channel `n` is lit: its ramp starts, frozen while ramps are (R516). -/
def State.lightChannel (s : State) (n : Nat) : State :=
  let ramp := 38400 * s.fld (Fld.IND_CH_ramp_ms n)
  (if n = 0 then s.setFlag Fld.IND_STATUS_mute_ind_fault false else s).modInd n fun _ =>
    if s.inds.freezeAt.isSome then { lit := true, frozen := some ramp } else { lit := true, rampEnd := some (s.tb + ramp) }

/-- Indicator channels. -/
def nInd : Nat := 6

/-- Frozen ramps go on, lengthened by the time that they stood (R516). -/
def State.unfreeze (s : State) : State :=
  { s with inds := { s.inds with
      freezeAt := none
      chans := s.inds.chans.map fun (p : Nat × IndCh) =>
        match p.2.frozen with
        | some left => (p.1, { p.2 with frozen := none, rampEnd := some (s.tb + left) })
        | none => p } }

/-- A channel's clamp ends; once no channel is clamped, ramps go on. -/
def State.endClamp (s : State) (n : Nat) : State :=
  let s1 := (s.setFlag (Fld.IND_CH_clamped n) false).modInd n fun c => { c with clampedAt := none }
  if (natRange 0 nInd).any fun k => s1.flag (Fld.IND_CH_clamped k) then s1 else s1.unfreeze

/-- A channel goes dark. -/
def State.darken (s : State) (n : Nat) : State :=
  let s1 := if s.flag (Fld.IND_CH_clamped n) then s.endClamp n else s
  s1.modInd n fun _ => {}

/-- What the host last wrote to `on` of channel 0, which mute holds at 1 while it is in force (R517). -/
def State.noteWish (s : State) (n : Nat) (on : Bool) : State :=
  if n = 0 then { s with inds := { s.inds with wish0 := on } } else s

/-- With the end of mute, channel 0 is as the host left it (R381, R517). -/
def State.endMuteLight (s : State) : State :=
  if s.inds.wish0 then s else (s.setFlag (Fld.IND_CH_on 0) false).darken 0

/-- The links of the ring of packages between this one and `pkg` carry traffic, going out by a port: its own link is up, and no other on
the way is down (R278, R279). -/
def State.wayBy (s : State) (port pkg : Nat) : Bool :=
  let size := max 1 (s.fld Fld.HXR_PKG_ring_size)
  let own := s.fld Fld.HXR_PKG_pkg_id
  let far := if port = 0 then (pkg + size - own) % size else (own + size - pkg) % size
  s.flag (Fld.HXR_STATUS_link_up port) &&
    (natRange 1 (far - 1)).all fun i => !s.env.cut.contains (if port = 0 then (own + i) % size else (own + 2 * size - i - 1) % size)

/-- The port towards another package: the direction of its neighbour, or the other way round where a link that way is down (R278). -/
def State.portTo (s : State) (pkg : Nat) : Nat :=
  let size := max 1 (s.fld Fld.HXR_PKG_ring_size)
  let own := s.fld Fld.HXR_PKG_pkg_id
  let east := decide ((pkg + size - own) % size ≤ size / 2)
  let first := if east then 0 else 1
  if s.wayBy first pkg then first else 1 - first

end Sys2Proof.Machine
end

