-- ==== Sys2Proof/Machine/Memory.lean ====
section
/-! DEFINITION. Access to memory: where a device address leads (R51, R308, R314, R319), reads and writes at the DRAM
controllers through the merge buffer (R339, R340), position marks (R337, R338), the tiers that bytes are counted in (R307),
and the clients' event rings (R408). -/

namespace Sys2Proof.Machine

/-! ### Code words and marks -/

/-- The register block of group `g`. -/
def State.marks (s : State) (g : Nat) : List Nat := markList (s.fld (Fld.DMC_STATUS_marked (dmcBase g)))

/-- Group `g` is exposed (R338). -/
def State.exposed (s : State) (g : Nat) : Bool := s.flag (Fld.DMC_STATUS_group_exposed (dmcBase g))

/-- The error vector of a code word. -/
def State.wordError (s : State) (g cw : Nat) : List W16 := mapGet (s.dmc g).errs cw noError

/-- The 16 bytes that a read of a code word delivers, or none where it is uncorrectable (R336). -/
def State.readWord16 (s : State) (g cw : Nat) : Option (List Byte) :=
  match decodeWord (s.marks g) (s.wordError g cw) with
  | .ok e _ => some (xorBytes (s.load (dramKey g (cw * 16)) 16) (errorBytes e))
  | .uncorrectable => none

/-- The merge-buffer entry of a line (R339). -/
def mergeOf (line : Nat) : List MergeEntry → Option MergeEntry
  | [] => none
  | e :: es => if e.line = line then some e else mergeOf line es

/-- The byte at an offset of a group as a reader sees it: decoded, with the merge buffer overlaid (R339). -/
def State.dramByte (s : State) (g off : Nat) : Option Byte :=
  match s.readWord16 g (off / 16) with
  | none => none
  | some w =>
    match mergeOf (off / 64) (s.dmc g).merge with
    | some e => some (mapGet e.bytes (off % 64) (w.getD (off % 16) 0))
    | none => some (w.getD (off % 16) 0)

/-- Uncorrectable data found at a code word (R340, R341, R347); in a group with one mark the first starts a health check (R410). -/
def State.noteUe (s : State) (g cw : Nat) : State :=
  let s1 := (s.setFlag (Fld.DMC_STATUS_ue_seen (dmcBase g)) true).setFld (Fld.DMC_UE_OFFSET_ue_offset (dmcBase g)) (cw * 16)
  if (s.marks g).length = 1 ∧ !(s.dmc g).ueChecked then s1.modDmc g fun d => { d with healthDue := true, ueChecked := true } else s1

/-- A code word written whole: clean again. -/
def State.putWord (s : State) (g cw : Nat) (bs : List Byte) : State :=
  (s.store (dramKey g (cw * 16)) bs).modDmc g fun d => { d with errs := mapDel d.errs cw }

/-- A code word written in the stored clinker form (R344). -/
def State.putClinker (s : State) (g cw : Nat) (bs : List Byte) : State :=
  (s.store (dramKey g (cw * 16)) bs).modDmc g fun d => { d with errs := mapSet d.errs cw clinkerError }

/-! ### Corrections and marks (R336 to R338): `tell` announces an exposed group to its clients -/

/-- Clients that own a page for which `p` holds, in ascending order. -/
def State.ownersOf (s : State) (p : Page → Bool) : List Nat :=
  let owners := s.pages.filterMap fun (_, q) => if p q then some q.owner else none
  (forEach owners ([] : NMap Unit) fun c m => mapSet m c ()).map (·.1)

/-- Clients with backed pages in group `g`. -/
def State.groupOwners (s : State) (g : Nat) : List Nat :=
  s.ownersOf fun q => decide (q.state = .backed) && decide (q.group = g)

/-- A group with two marks is exposed: logged, announced, and its evacuation starts (R338, R411). -/
def State.exposeGroupBy (tell : State → Nat → Nat → List Nat → State) (s : State) (g : Nat) : State :=
  let s1 := (s.setFlag (Fld.DMC_STATUS_group_exposed (dmcBase g)) true).logEvent 2 7 (groupUnit g) 0
  let owners := s.groupOwners g
  (tell s1 g 3 owners).modDmc g fun d =>
    { d with evac := some { since := s.tb, stalled := false, retired := false, owners := owners } }

/-- Position `j` of group `g` is marked (R337). -/
def State.markPositionBy (tell : State → Nat → Nat → List Nat → State) (s : State) (g j : Nat) : State :=
  let f := Fld.DMC_STATUS_marked (dmcBase g)
  if bit (s.fld f) j then s
  else
    let s1 := (s.setFld f (setBit (s.fld f) j true)).logEvent 0 0 (groupUnit g) 0
    if 2 ≤ (s1.marks g).length ∧ !s.exposed g then s1.exposeGroupBy tell g else s1

/-- A correction at unmarked position `j` of group `g`: counted, logged, and the position marked at the threshold. -/
def State.noteCorrectionBy (tell : State → Nat → Nat → List Nat → State) (s : State) (g j : Nat) : State :=
  let b := dmcBase g
  let s1 := ((s.addFld (Fld.DMC_CE_COUNT_corrections b) 1).setFlag (Fld.DMC_STATUS_ce_seen b) true).logCorrected
    (groupUnit g) 0
  let n := mapGet (s.dmc g).lapCounts j 0 + 1
  let s2 := s1.modDmc g fun d => { d with lapCounts := mapSet d.lapCounts j n }
  if s.fld (Fld.DMC_CTRL_mark_threshold b) ≤ n then s2.markPositionBy tell g j else s2

/-- A code word read, for `note` to record what was corrected at an unmarked position (R336). -/
def State.noteCorrected (note : State → Nat → Nat → State) (s : State) (g cw : Nat) : State :=
  match decodeWord (s.marks g) (s.wordError g cw) with
  | .ok _ (some j) => note s g j
  | _ => s

/-! ### Writes through the merge buffer (R339, R340): `note` records the corrections of a flush's reads -/

/-- One code word of a flushed entry (R340). -/
def State.flushWordBy (note : State → Nat → Nat → State) (s : State) (g : Nat) (e : MergeEntry) (k : Nat) : State :=
  let mine := e.bytes.filter (fun b => decide (b.1 / 16 = k))
  let cw := e.line * 4 + k
  let laid := fun (w : List Byte) => (natRange 0 16).map fun i => mapGet mine (k * 16 + i) (w.getD i 0)
  if mine.length = 0 then s
  else if mine.length = 16 then s.putWord g cw (laid [])
  else match s.readWord16 g cw with
    | some w => (s.noteCorrected note g cw).putWord g cw (laid w)
    | none => (s.putClinker g cw (laid (s.load (dramKey g (cw * 16)) 16))).noteUe g cw

/-- An entry that shows an uncorrectable error as it is flushed: each code word of its line is written in the stored clinker form, with
what the entry holds laid over it (R340). -/
def State.flushBad (s : State) (g : Nat) (e : MergeEntry) : State :=
  let s1 := s.modDmc g fun d => { d with merge := d.merge.filter (fun x => decide (x.line ≠ e.line)) }
  forEach (natRange 0 4) s1 fun k t =>
    let cw := e.line * 4 + k
    let old := t.load (dramKey g (cw * 16)) 16
    (t.putClinker g cw ((natRange 0 16).map fun i => mapGet e.bytes (k * 16 + i) (old.getD i 0))).noteUe g cw

/-- A merge-buffer entry flushed to DRAM (R340). -/
def State.flushEntryBy (note : State → Nat → Nat → State) (s : State) (g : Nat) (e : MergeEntry) : State :=
  if e.bad then s.flushBad g e
  else
    let s1 := s.modDmc g fun d => { d with merge := d.merge.filter (fun x => decide (x.line ≠ e.line)) }
    forEach (natRange 0 4) s1 fun k t => State.flushWordBy note t g e k

/-- Bytes added to an entry: later bytes overlay earlier ones (R339). -/
def mergeBytes (m : NMap Byte) (off : Nat) : List Byte → NMap Byte
  | [] => m
  | b :: bs => mergeBytes (mapSet m off b) (off + 1) bs

/-- Every code word of the entry with masked bytes is fully covered (R340). -/
def MergeEntry.complete (e : MergeEntry) : Bool :=
  (natRange 0 4).all fun k =>
    let n := (e.bytes.filter (fun b => decide (b.1 / 16 = k))).length
    decide (n = 0) || decide (n = 16)

/-- A write within one 64-byte line, at offset `off` of group `g` (R339, R340). -/
def State.writeLineBy (note : State → Nat → Nat → State) (s : State) (g off : Nat) (bs : List Byte) : State :=
  let line := off / 64
  match mergeOf line (s.dmc g).merge with
  | some e =>
    let e1 := { e with bytes := mergeBytes e.bytes (off % 64) bs }
    if e1.complete then State.flushEntryBy note s g e1
    else s.modDmc g fun d => { d with merge := d.merge.map fun x => if x.line = line then e1 else x }
  | none =>
    if off % 16 = 0 ∧ bs.length % 16 = 0 then
      forEach (natRange 0 (bs.length / 16)) s fun k t => t.putWord g (off / 16 + k) ((bs.drop (16 * k)).take 16)
    else
      let s1 := match (s.dmc g).merge with
        | e :: _ => if 32 ≤ (s.dmc g).merge.length then State.flushEntryBy note s g e else s
        | [] => s
      s1.modDmc g fun d =>
        { d with merge := d.merge ++ [{ line := line, bytes := mergeBytes [] (off % 64) bs, since := s.tb
                                        age := s.fld (Fld.DMC_CTRL_merge_age (dmcBase g)) }] }

/-- Bytes from `off` upward cut at multiples of `w`, with fuel. -/
def cutBytes (w : Nat) : Nat → Nat → List Byte → List (Nat × List Byte)
  | 0, _, _ => []
  | fuel + 1, off, bs =>
    match bs with
    | [] => []
    | _ => (off, bs.take (w - off % w)) :: cutBytes w fuel (off + (w - off % w)) (bs.drop (w - off % w))

/-- The range from `a`, `n` long, cut at multiples of `w`, with fuel. -/
def cutRange (w : Nat) : Nat → Nat → Nat → List (Nat × Nat)
  | 0, _, _ => []
  | fuel + 1, a, n =>
    if n = 0 then [] else
      let k := min n (w - a % w)
      (a, k) :: cutRange w fuel (a + k) (n - k)

/-- Lines that the running copy pass of a move has copied: `rate` × 4 GB/s, 64 B in 16 / `rate` ns (R329, R332). -/
def State.copiedLines (s : State) (m : Move) : Nat := m.done + s.nsSince m.since * s.bellows.rate / 16

/-- Lines of a moving page written after their copy become dirty (R329). -/
def State.markDirty (s : State) (g off : Nat) : State :=
  { s with moves := s.moves.map fun (p, m) =>
      if m.oldGroup = g ∧ m.oldFrame = off / 0x200000 ∧ m.phase = .copying then
        let line := off % 0x200000 / 64
        let done := s.copiedLines m
        let copied := match m.todo with
          | [] => decide (line < done)
          | todo => (todo.take done).contains line || !todo.contains line
        if copied then (p, { m with dirty := mapSet m.dirty line true }) else (p, m)
      else (p, m) }

/-- Bytes written into group `g` from `off` upward. -/
def State.dramWriteBy (note : State → Nat → Nat → State) (s : State) (g off : Nat) (bs : List Byte) : State :=
  forEach (cutBytes 64 (bs.length + 1) off bs) s fun (o, piece) t => State.writeLineBy note (t.markDirty g o) g o piece

/-! ### Where a device address leads (R51, R308, R314, R319) -/

/-- The place of a byte. -/
inductive Place where
  | dram (g off : Nat)
  /-- A granted page that is not backed: reads zero. -/
  | unbacked
  | hearth (d off : Nat)
  | host (key : Nat)
  /-- Device memory of another package (R51). -/
  | remote (key : Nat)
  deriving DecidableEq, Repr

/-- The live buffer that covers a granule (R314). -/
def Hearth.bufAt (h : Hearth) (granule : Nat) : Option (Nat × Buf) :=
  mapFirst (fun g b => decide (g ≤ granule) && decide (granule < g + b.size)) h.bufs

/-- Ranges of device addresses (R51). -/
def hearthBase : Nat := 0x400000000000
def hearthEnd : Nat := 0x400700000000
def remoteBase : Nat := 0x800000000000
def remoteEnd : Nat := 0xA00000000000
def hostBase : Nat := 0xC00000000000
def addrEnd : Nat := 0x1000000000000

/-- Bytes of unified device memory. -/
def State.deviceEnd (s : State) : Nat := 0x200000 * s.variant.pages

/-- The place of byte `a` for client `c`, or the detail of the access fault (R51, R314, R348). -/
def State.place (s : State) (c a : Nat) : Except Nat Place :=
  if a < s.deviceEnd then
    let p := s.page (a / 0x200000)
    if p.owner = c then
      match p.state with
      | .granted => .ok .unbacked
      | .backed => .ok (.dram p.group (0x200000 * p.frame + a % 0x200000))
      | _ => .error 0x0D03
    else .error 0x0D03
  else if hearthBase ≤ a ∧ a < hearthEnd then
    let d := (a - hearthBase) / 0x100000000
    let off := a % 0x100000000
    if s.fitted d ∧ off < 0x8000000 then
      match (s.hearth d).bufAt (off / 4096) with
      | some (_, b) => if b.owner = c then .ok (.hearth d off) else .error 0x0D01
      | none => .error 0x0D01
    else .error 0x0505
  else if remoteBase ≤ a ∧ a < remoteEnd then .ok (.remote a)
  else if hostBase ≤ a ∧ a < addrEnd then .ok (.host (hostKey c a))
  else .error 0x0505

/-- The place of byte `a` for the device itself, under PASID `c` in host memory: no owner is checked. -/
def State.sysPlace (s : State) (c a : Nat) : Except Nat Place :=
  if a < s.deviceEnd then
    let p := s.page (a / 0x200000)
    match p.state with
    | .free => .error 0x0D03
    | .granted => .ok .unbacked
    | _ => .ok (.dram p.group (0x200000 * p.frame + a % 0x200000))
  else if hearthBase ≤ a ∧ a < hearthEnd then
    let d := (a - hearthBase) / 0x100000000
    let off := a % 0x100000000
    if s.fitted d ∧ off < 0x8000000 then .ok (.hearth d off) else .error 0x0505
  else if hostBase ≤ a ∧ a < addrEnd then .ok (.host (hostKey c a))
  else .error 0x0505

/-- Whether a key lies in one of a list of ranges. -/
def inRanges (k : Nat) (rs : List (Nat × Nat)) : Bool := rs.any fun r => decide (r.1 ≤ k) && decide (k < r.1 + r.2)

/-- Bits set in the low `w` bits of a number. -/
def onesIn (n w : Nat) : Nat := ((natRange 0 w).filter fun i => bit n i).length

/-- Bits in error in the 64-bit word of a Hearth that holds offset `off` (R314), given the error vector of its 16 B: four symbols of
data for each word, and a byte of symbol 8 for its check bits. -/
def hearthFlips (e : List W16) (off : Nat) : Nat :=
  let hi := off % 16 / 8
  ((natRange (4 * hi) 4).map fun j => onesIn (e.getD j 0).toNat 16).foldl (· + ·) 0 + onesIn ((e.getD 8 0).toNat / 256 ^ hi) 8

/-- An error vector with the errors of one of its two words taken out. -/
def hearthClean (hi : Nat) (e : List W16) : List W16 :=
  (natRange 0 10).map fun j =>
    if j / 4 = hi then 0 else if j = 8 then e.getD 8 0 &&& (if hi = 0 then 0xFF00 else 0x00FF) else e.getD j 0

/-- Bits in error in the word of offset `off` of a die's Hearth. -/
def State.hearthErr (s : State) (d off : Nat) : Nat := hearthFlips (mapGet (s.hearth d).errs (off / 16) noError) off

/-- Words of a Hearth, eight bytes each from offset `off` on, `n` bytes in all, written: one overwritten whole is clean, and so is one of
which a part is written after its single error is corrected (R314). -/
def State.cleanHearth (s : State) (d off n : Nat) : State :=
  forEach (natRange (off / 8) ((off + n + 7) / 8 - off / 8)) s fun w t =>
    let whole := decide (off ≤ 8 * w) && decide (8 * w + 8 ≤ off + n)
    if whole ∨ t.hearthErr d (8 * w) ≤ 1 then
      t.modHearth d fun h => { h with errs := mapPut h.errs (w / 2) (hearthClean (w % 2) (mapGet h.errs (w / 2) noError)) noError }
    else t

/-- What the Hearth of die `d` records of a read of `n` bytes from `off` (R314, R316, R409). -/
def State.noteHearthRead (s : State) (d off n : Nat) : State :=
  let hit := ((s.hearth d).errs.flatMap fun (k, _) => [2 * k, 2 * k + 1]).filter fun w => decide (off < 8 * w + 8) && decide (8 * w < off + n)
  let s1 := if hit.any fun w => decide (s.hearthErr d (8 * w) = 1) then
      (s.setFlag (Fld.HRT_STATUS_ecc_corrected d) true).logCorrected (unitOf d 0x050) 0
    else s
  if hit.any fun w => decide (2 ≤ s.hearthErr d (8 * w)) then s1.setFlag (Fld.HRT_STATUS_ue_seen d) true else s1

/-- The 64-bit word of a page-map entry (R318). -/
def Page.word (p : Page) : Nat :=
  p.frame % 8192 + 2 ^ 13 * (p.group % 16) + 2 ^ 17 * (p.owner % 4096) +
  2 ^ 29 * (match p.state with | .free => 0 | .granted => 1 | .backed => 2 | .system => 3) +
  2 ^ 31 * b2n p.pinned + 2 ^ 32 * b2n p.migrating + 2 ^ 33 * (p.hintGroup % 16) + 2 ^ 37 * b2n p.hintValid

/-- The byte of the page map at an offset of a group, where the map's own page lies there (R318): entry `n` is the word at
`map_base` + 8n. -/
def State.mapByte (s : State) (g off : Nat) : Option Byte :=
  let p := s.page (s.fld Fld.MEM_MAP_BASE_map_base / 0x200000)
  let o := off % 0x200000
  if s.flag Fld.MEM_MAP_CTRL_enable && decide (p.state = .system) && decide (p.group = g) && decide (p.frame = off / 0x200000) &&
      decide (o / 8 < s.variant.pages) then
    some ((leBytes (s.page (o / 8)).word 8).getD (o % 8) 0)
  else none

/-- The byte at a place: data, or the detail of R343 or R345. -/
def State.byteAt (s : State) : Place → Except Nat Byte
  | .dram g off => match s.dramByte g off with
    | some b => .ok (match s.mapByte g off with | some m => m | none => b)
    | none => .error 0x0D02
  | .unbacked => .ok 0
  | .hearth d off =>
    if mapGet (s.hearth d).clinker (off / 16) false ∨ 2 ≤ s.hearthErr d off then .error 0x0D02
    else .ok (memoryGet s.mem (hearthKey d off))
  | .remote k => .ok (memoryGet s.mem k)
  | .host k =>
    if inRanges k s.env.refused then .error 0x0D04
    else if inRanges k s.env.poisoned then .error 0x0D02
    else .ok (memoryGet s.mem k)

/-- Bytes read one after another by `get`, up to the first that fails. -/
def readAll (get : Nat → Except Nat Byte) : Nat → Nat → Except Nat (List Byte)
  | _, 0 => .ok []
  | a, n + 1 =>
    match get a with
    | .error d => .error d
    | .ok b =>
      match readAll get (a + 1) n with
      | .error d => .error d
      | .ok bs => .ok (b :: bs)

/-- The byte that client `c` reads at `a`. -/
def State.cbyte (s : State) (c a : Nat) : Except Nat Byte :=
  match s.place c a with
  | .ok p => s.byteAt p
  | .error d => .error d

/-- `n` bytes that client `c` reads from `a`. -/
def State.cread (s : State) (c a n : Nat) : Except Nat (List Byte) := readAll (s.cbyte c) a n

/-- The byte that the device itself reads at `a`, under PASID `c`. -/
def State.sysByte (s : State) (c a : Nat) : Except Nat Byte :=
  match s.sysPlace c a with
  | .ok p => s.byteAt p
  | .error d => .error d

/-- `n` bytes that the device itself reads from `a`. -/
def State.sysRead (s : State) (c a n : Nat) : Except Nat (List Byte) := readAll (s.sysByte c) a n

/-- Bytes written at a place that does not cross a line. A Hearth write of a whole 16 B piece clears its clinker bit, a host
write that the host refuses is lost in silence (R343 to R345). -/
def State.putAtBy (note : State → Nat → Nat → State) (s : State) (p : Place) (bs : List Byte) : State :=
  match p with
  | .dram g off => State.dramWriteBy note s g off bs
  | .unbacked => s
  | .hearth d off =>
    let whole := (natRange (off / 16) 5).filter fun k =>
      decide (off ≤ k * 16) && decide (k * 16 + 16 ≤ off + bs.length)
    ((s.cleanHearth d off bs.length).store (hearthKey d off) bs).modHearth d fun h =>
      { h with clinker := forEach whole h.clinker fun k m => mapDel m k }
  | .remote k => s.store k bs
  | .host k => if inRanges k s.env.refused then s else s.store k bs

/-- Pieces written one after another at the places that `find` gives; the first that has none ends the write with its detail.
A write of a command to a page that is not backed fails with 0x0D03 (R319). -/
def writePiecesBy (note : State → Nat → Nat → State) (find : State → Nat → Except Nat Place) (strict : Bool) :
    List (Nat × List Byte) → State → State × Option Nat
  | [], s => (s, none)
  | (a, bs) :: rest, s =>
    match find s a with
    | .error d => if strict then (s, some d) else writePiecesBy note find strict rest s
    | .ok .unbacked => if strict then (s, some 0x0D03) else writePiecesBy note find strict rest s
    | .ok p => writePiecesBy note find strict rest (State.putAtBy note s p bs)

/-- A 64-bit word that client `c` can read at `a`. -/
def State.cread64 (s : State) (c a : Nat) : Except Nat Nat :=
  match s.cread c a 8 with
  | .ok bs => .ok (leNat bs)
  | .error d => .error d

/-! ### Line accesses (R327) -/

/-- Lines of 64 B that `n` bytes from `a` touch. -/
def linesOf (a n : Nat) : Nat := if n = 0 then 0 else (a + n - 1) / 64 - a / 64 + 1

/-- Accesses of a unit of die `die` to `n` bytes from `a`, counted per page and line (R327). -/
def State.countLines (s : State) (die a n : Nat) : State :=
  forEach (cutRange 0x200000 (n / 0x200000 + 2) a n) s fun (x, k) t =>
    if x < t.deviceEnd ∧ (t.page (x / 0x200000)).state = .backed then
      let key := x / 0x200000 * 16 + die
      { t with access := mapSet t.access key (mapGet t.access key 0 + linesOf x k) }
    else t

/-! ### Client events (R408) -/

/-- An event record to a client's event ring, or dropped while the ring is full. -/
def State.clientEvent (s : State) (c ev unit arg : Nat) : State :=
  let base := s.fld (Fld.SCH_CLIENT_EVQ_evq_base c)
  if base = 0 then s else
    let cl := s.client c
    let count := s.fld (Fld.SCH_CLIENT_EVQ_CFG_evq_count c)
    let full := match s.cread64 c (s.fld (Fld.SCH_CLIENT_EVQ_CONS_evq_consumed c)) with
      | .ok n => decide (cl.evqWritten - n ≥ count)
      | .error _ => true
    if full then
      s.modClient c fun x => { x with evqLost := min (x.evqLost + 1) 255 }
    else
      let rec_ := leBytes s.tb 8 ++ leBytes ev 1 ++ leBytes cl.evqLost 1 ++ leBytes unit 2 ++ leBytes arg 4
      let quiet := State.noteCorrectionBy fun t _ _ _ => t
      let a := base + cl.evqWritten % count * 16
      let s1 := (writePiecesBy quiet (fun t x => t.place c x) false (cutBytes 64 17 a rec_) s).1.countLines hubDie a 16
      (s1.modClient c fun x => { x with evqWritten := x.evqWritten + 1, evqLost := 0 }).msix
        (s1.ownerFn c) (s1.fld (Fld.SCH_CLIENT_EVQ_CFG_evq_vector c))

/-- An event about group `g` to each of a list of clients (R408). -/
def State.groupEvent (s : State) (g ev : Nat) (owners : List Nat) : State :=
  forEach owners s fun c t => t.clientEvent c ev (groupUnit g) g

/-! ### Corrections and marks (R336 to R338) -/

/-- A group with two marks is exposed. -/
def State.exposeGroup (s : State) (g : Nat) : State := s.exposeGroupBy State.groupEvent g

/-- Position `j` of group `g` is marked (R337). -/
def State.markPosition (s : State) (g j : Nat) : State := s.markPositionBy State.groupEvent g j

/-- A correction at unmarked position `j` of group `g`: counted, logged, and the position marked at the threshold. -/
def State.noteCorrection (s : State) (g j : Nat) : State := State.noteCorrectionBy State.groupEvent s g j

/-- What the controller records of a read of code word `cw` (R336, R347). -/
def State.noteWordRead (s : State) (g cw : Nat) : State :=
  match decodeWord (s.marks g) (s.wordError g cw) with
  | .ok _ (some j) => s.noteCorrection g j
  | .ok _ none => s
  | .uncorrectable => s.noteUe g cw

/-- What the controller records of a read of `n` bytes from `off`. -/
def State.noteRead (s : State) (g off n : Nat) : State :=
  let hit := ((s.dmc g).errs.map (·.1)).filter fun cw => decide (off < cw * 16 + 16) && decide (cw * 16 < off + n)
  forEach hit s fun cw t => t.noteWordRead g cw

/-! ### Tiers and access counts (R307, R327) -/

/-- Adds `n` to entry `k` of a list of counters. -/
def addAt : List Nat → Nat → Nat → List Nat
  | [], _, _ => []
  | x :: xs, 0, n => (x + n) :: xs
  | x :: xs, k + 1, n => x :: addAt xs k n

/-- The tier, 0 for L1 to 3 for L4, in which an access of a unit of die `die` counts (R307). -/
def State.tierAt (s : State) (die a : Nat) : Nat :=
  if a < s.deviceEnd then
    let p := s.page (a / 0x200000)
    if p.state = .backed ∧ groupDie p.group = die then 1 else 2
  else if hearthBase ≤ a ∧ a < hearthEnd then 0
  else if a < hostBase then 2
  else 3

/-- What is recorded of a read of `n` bytes from `a`, in DRAM or in a Hearth. -/
def State.noteReads (s : State) (a n : Nat) : State :=
  forEach (cutRange 0x200000 (n / 0x200000 + 2) a n) s fun (x, k) t =>
    if x < t.deviceEnd then
      let p := t.page (x / 0x200000)
      if p.state = .backed then t.noteRead p.group (0x200000 * p.frame + x % 0x200000) k else t
    else if hearthBase ≤ x ∧ x < hearthEnd then t.noteHearthRead ((x - hearthBase) / 0x100000000) (x % 0x100000000) k
    else t

/-- Accesses of a unit of die `die` to `n` bytes from `a`: lines counted per page, corrections noted where it reads. -/
def State.touch (s : State) (die a n : Nat) (isRead : Bool) : State :=
  let s1 := s.countLines die a n
  if isRead then s1.noteReads a n else s1

/-- A read by the hub itself, of `n` bytes from `a`. -/
def State.fetchHub (s : State) (a n : Nat) : State := s.touch hubDie a n true

/-! ### Writes (R319, R339, R340) -/

def State.flushWord (s : State) (g : Nat) (e : MergeEntry) (k : Nat) : State := State.flushWordBy State.noteCorrection s g e k
def State.flushEntry (s : State) (g : Nat) (e : MergeEntry) : State := State.flushEntryBy State.noteCorrection s g e
def State.writeLine (s : State) (g off : Nat) (bs : List Byte) : State := State.writeLineBy State.noteCorrection s g off bs
def State.dramWrite (s : State) (g off : Nat) (bs : List Byte) : State := State.dramWriteBy State.noteCorrection s g off bs
def State.putAt (s : State) (p : Place) (bs : List Byte) : State := State.putAtBy State.noteCorrection s p bs
def writePieces (find : State → Nat → Except Nat Place) (strict : Bool) (ps : List (Nat × List Byte)) (s : State) : State × Option Nat :=
  writePiecesBy State.noteCorrection find strict ps s

/-- Every entry of a group flushed, for self-refresh (R340). -/
def State.flushGroup (s : State) (g : Nat) : State :=
  forEach (s.dmc g).merge s fun e t => t.flushEntry g e

/-- Bytes that a command of client `c` writes from `a` upward: the state, and the detail of the fault, if any. -/
def State.cwrite (s : State) (c a : Nat) (bs : List Byte) : State × Option Nat :=
  writePieces (fun t x => t.place c x) true (cutBytes 64 (bs.length + 1) a bs) s

/-- Bytes that the device writes for client `c` outside any command: dropped where the page is not backed (R319). -/
def State.devWrite (s : State) (c a : Nat) (bs : List Byte) : State :=
  (writePieces (fun t x => t.place c x) false (cutBytes 64 (bs.length + 1) a bs) s).1.countLines hubDie a bs.length

/-- Bytes that the device writes for itself, under PASID `c` in host memory. -/
def State.sysWrite (s : State) (c a : Nat) (bs : List Byte) : State :=
  (writePieces (fun t x => t.sysPlace c x) false (cutBytes 64 (bs.length + 1) a bs) s).1.countLines hubDie a bs.length

end Sys2Proof.Machine
end

