-- ==== Sys2Proof/Machine/Operands.lean ====
section
/-! DEFINITION. The operand forms: tensor cards with their addresses, scales, footprints and padding (R146 to R150, R159), the
fields of an instruction word (R135, R136, R138), bands (R157), walks (R151 to R153), and the reading and storing of elements
(R147, R148, R160, R175). -/

namespace Sys2Proof.Machine

/-! ### Tensor cards (R146 to R150) -/

/-- Extent of dimension `k`, 1 where the card has no such dimension. -/
def Card.ext (c : Card) (k : Nat) : Nat := if k < c.dims then c.extent.getD k 1 else 1

/-- Byte stride of dimension `k` from 1 to 4. -/
def Card.str (c : Card) (k : Nat) : Nat := if k < c.dims then c.stride.getD k 0 else 0

/-- Bits of an element. -/
def Card.bits (c : Card) : Nat := typeBits c.typ

/-- Elements in a scale group (R146). -/
def groupSize (code : Nat) : Nat :=
  match code with
  | 1 => 32
  | 2 => 64
  | _ => 128

/-- `n` divided by `d`, rounded up. -/
def ceilDiv (n d : Nat) : Nat := (n + d - 1) / d

/-- The fields of a card's 64 bytes (R146). -/
def parseCard (b : List Byte) : Card :=
  let at_ := fun o n => leNat ((b.drop o).take n)
  let ts := at_ 8 1
  let gr := at_ 9 1
  let ct := at_ 10 1
  { base := at_ 0 6, typ := bits ts 0 4, scaleType := bits ts 4 3, group := bits gr 0 2, groupDim := bits gr 2 3,
    ember := bit gr 5, padConst := bit gr 6, cls := bits ct 0 3, tier := bits ct 3 2, dims := bits (at_ 11 1) 0 3,
    padValue := at_ 12 4, extent := (natRange 0 5).map fun k => at_ (16 + 4 * k) 4,
    stride := 0 :: (natRange 0 4).map fun k => at_ (36 + 4 * k) 4, scaleBase := at_ 52 6, streamLen := at_ 60 4 }

/-- Reserved fields of a card's bytes are zero (R146). -/
def cardReservedOk (b : List Byte) : Bool :=
  let at_ := fun o n => leNat ((b.drop o).take n)
  let dims := bits (at_ 11 1) 0 3
  let ts := at_ 8 1
  decide (at_ 6 2 = 0) && !bit ts 7 && !bit (at_ 9 1) 7 && decide (bits (at_ 10 1) 5 3 = 0) &&
  decide (bits (at_ 11 1) 3 5 = 0) && decide (at_ 58 2 = 0) &&
  decide (at_ 12 4 < 2 ^ (min 32 (typeBits (bits ts 0 4)))) &&
  (natRange 0 5).all (fun k => decide (k < dims) || decide (at_ (16 + 4 * k) 4 = 0)) &&
  (natRange 1 4).all (fun k => decide (k < dims) || decide (at_ (32 + 4 * k) 4 = 0)) &&
  (bit (at_ 9 1) 5 || decide (at_ 60 4 = 0))

/-- The tier that a base address lies in (R51, R149). -/
def State.tierOfBase (s : State) (a : Nat) : Nat :=
  if a < s.deviceEnd then 2
  else if hearthBase ≤ a ∧ a < hearthEnd then 1
  else if remoteBase ≤ a ∧ a < remoteEnd then 2
  else if hostBase ≤ a then 3
  else 2

/-- Bytes of one row along dimension 0. -/
def Card.rowBytes (c : Card) : Nat := ceilDiv (c.ext 0 * c.bits) 8

/-- Bits of an element of a card as R149 counts them. A VQ code computes as the element that it expands to (R166, R284), which the card's
codebook set gives (R289); where the set cannot be read, 4 bits, the least, are taken (DEDUCED, log 154). -/
def State.spreadBits (s : State) (cl : Nat) (c : Card) : Nat :=
  if c.ember then
    match s.cread cl (c.scaleBase + 9) 1 with
    | .ok b => if leNat b = 3 ∨ leNat b = 5 then 8 else 4
    | .error _ => 4
  else c.bits

/-- Each stride of a written card clears the extent below it (R149), an element being `b` bits wide. -/
def Card.spread (c : Card) (b : Nat) : Bool :=
  let step := fun k => if k = 0 then ceilDiv (c.ext 0 * b) 8 else c.str k * c.ext k
  (natRange 1 (c.dims - 1)).all fun k => decide (step (k - 1) ≤ c.str k)

/-- Alignment of 16-bit and 32-bit elements (R147) and of scales (R148). -/
def Card.aligned (c : Card) : Bool :=
  let w := c.bits / 8
  (decide (c.bits < 16) || (decide (c.base % w = 0) && (natRange 1 4).all fun k => decide (c.str k % w = 0))) &&
  (decide (c.scaleType ≠ 2) || decide (c.scaleBase % 2 = 0))

/-- The rules of R149 for a card of a client that is or is not in the write set, but the reserved fields. -/
def State.cardOk (s : State) (cl : Nat) (c : Card) (written : Bool) : Bool :=
  decide (c.cls ≤ 5) && decide (1 ≤ c.tier) && decide (c.scaleType ≤ 3) && decide (1 ≤ c.dims) && decide (c.dims ≤ 5) &&
  decide (1 ≤ c.typ) && decide (c.typ ≤ 11) &&
  (natRange 0 c.dims).all (fun k => decide (1 ≤ c.ext k)) &&
  (c.ember == decide (c.typ = 11)) && !(c.ember && c.padConst) &&
  (decide (c.scaleType = 0) == decide (c.group = 0)) && decide (c.groupDim < c.dims) &&
  decide (c.tier = s.tierOfBase c.base) && (!written || c.spread (s.spreadBits cl c)) && (c.ember || c.aligned)

/-- The types that gradient and optimiser cards may have (R185). -/
def Card.classOk (c : Card) : Bool :=
  match c.cls with
  | 2 => (decide (c.typ = 6) && decide (c.scaleType ≠ 0)) || decide (c.typ = 7) || decide (c.typ = 9)
  | 3 => (decide (c.typ = 3) && decide (2 ≤ c.scaleType) && decide (c.group = 3)) || decide (c.typ = 7) || decide (c.typ = 9)
  | _ => true

/-- Length of the elements' footprint (R150). -/
def Card.elemLen (c : Card) : Nat :=
  c.rowBytes + ((natRange 1 (c.dims - 1)).map fun k => (c.ext k - 1) * c.str k).foldl (· + ·) 0

/-- Scales along dimension `k` (R148). -/
def Card.scaleExt (c : Card) (k : Nat) : Nat :=
  if k = c.groupDim then ceilDiv (c.ext k) (groupSize c.group) else c.ext k

/-- Scales of the card. -/
def Card.scaleCount (c : Card) : Nat := ((natRange 0 5).map c.scaleExt).foldl (· * ·) 1

/-- Byte ranges of a card's footprint (R150), given the length of its codebook set where it is an Ember card. -/
def Card.footprint (c : Card) (setLen : Nat) : List (Nat × Nat) :=
  if c.ember then [(c.base, c.streamLen), (c.scaleBase, setLen)]
  else if c.scaleType = 0 then [(c.base, c.elemLen)]
  else [(c.base, c.elemLen), (c.scaleBase, c.scaleCount * scaleSize c.scaleType)]

/-- The length that a codebook set's header states (R289), read for client `cl`. -/
def State.setLen (s : State) (cl : Nat) (c : Card) : Except Nat Nat :=
  if c.ember then
    match s.cread cl (c.scaleBase + 12) 4 with
    | .ok b => .ok (leNat b)
    | .error d => .error d
  else .ok 0

/-- A card's footprint as client `cl` reads its codebook set. -/
def State.cardRanges (s : State) (cl : Nat) (c : Card) : List (Nat × Nat) :=
  match s.setLen cl c with
  | .ok n => c.footprint n
  | .error _ => c.footprint 64

/-- Two ranges share a byte. -/
def rangesMeet (a b : Nat × Nat) : Bool :=
  decide (0 < a.2) && decide (0 < b.2) && decide (a.1 < b.1 + b.2) && decide (b.1 < a.1 + a.2)

/-- Two lists of ranges share a byte. -/
def listsMeet (xs ys : List (Nat × Nat)) : Bool := xs.any fun x => ys.any (rangesMeet x)

/-- Pages that a range touches, as far as it lies in unified device memory. -/
def State.pagesOf (s : State) (r : Nat × Nat) : List Nat :=
  if r.2 = 0 ∨ s.deviceEnd ≤ r.1 then []
  else
    let last := min (r.1 + r.2 - 1) (s.deviceEnd - 1) / 0x200000
    natRange (r.1 / 0x200000) (last - r.1 / 0x200000 + 1)

/-- The detail with which check 3 of R73 refuses a range for client `c`, if it does (R308, R524). -/
def State.rangeFault (s : State) (c : Nat) (r : Nat × Nat) : Option Nat :=
  if r.2 = 0 then none
  else if addrEnd < r.1 + r.2 then some 0x0505
  else if r.1 < s.deviceEnd then
    if s.deviceEnd < r.1 + r.2 then some 0x0505
    else if (s.pagesOf r).all fun n =>
        let p := s.page n
        decide (p.owner = c) && (decide (p.state = .granted) || decide (p.state = .backed)) then none
    else some 0x0D03
  else if hearthBase ≤ r.1 ∧ r.1 < hearthEnd then
    if s.fitted ((r.1 - hearthBase) / 0x100000000) ∧ r.1 % 0x100000000 + r.2 ≤ 0x8000000 then none else some 0x0505
  else if remoteBase ≤ r.1 ∧ r.1 + r.2 ≤ remoteEnd then none
  else if hostBase ≤ r.1 then none
  else some 0x0505

/-- Card `i` is in the write set. -/
def Cmd.writes (c : Cmd) (i : Nat) : Bool := bit c.writeMask i

/-- The cards of the write set. -/
def Cmd.writeCards (c : Cmd) : List Card :=
  ((natRange 0 c.cards.length).filter c.writes).map fun i => c.cards.getD i {}

/-- Publication entries of a command: target and value, as far as client `cl` can read them (R72). -/
def State.pubEntries (s : State) (cl : Nat) (c : Cmd) : Except Nat (List (Nat × Nat)) :=
  match s.cread cl c.pubList (16 * c.pubCount) with
  | .ok b => .ok ((natRange 0 c.pubCount).map fun i => (leNat ((b.drop (16 * i)).take 8), leNat ((b.drop (16 * i + 8)).take 8)))
  | .error d => .error d

/-- Targets of a command's publication list, none where it cannot be read. -/
def State.pubTargets (s : State) (cl : Nat) (c : Cmd) : List Nat :=
  match s.pubEntries cl c with
  | .ok es => es.map (·.1)
  | .error _ => []

/-- Page `n` lies in the write set of an untallied command that has been dispatched (R328). -/
def State.pageInWriteSet (s : State) (n : Nat) : Bool :=
  s.steps.any fun st => st.cmds.any fun c =>
    c.dispatched && (match c.state with | .tallied => false | .dropped => false | _ => true) &&
    ((c.writeCards.any fun k => (s.cardRanges st.client k).any fun r => (s.pagesOf r).contains n) ||
     (s.pubTargets st.client c).any fun t => decide (t / 0x200000 = n))

/-! ### Instruction words (R135, R136, R138) -/

/-- Byte `i` of an instruction. -/
def wbyte (w : W128) (i : Nat) : Nat := (w.toNat >>> (8 * i)) % 256

/-- Two bytes from `i`. -/
def wword (w : W128) (i : Nat) : Nat := (w.toNat >>> (8 * i)) % 65536

/-- Four bytes from `i`. -/
def wlong (w : W128) (i : Nat) : Nat := (w.toNat >>> (8 * i)) % 4294967296

/-- The reserved bytes `i` to `j` are zero. -/
def wzero (w : W128) (i j : Nat) : Bool := decide ((w.toNat >>> (8 * i)) % 2 ^ (8 * (j + 1 - i)) = 0)

/-- An operand reference (R136). -/
structure Ref where
  card : Nat
  staged : Bool
  absent : Bool
  hreg : Nat
  raw : Nat
  deriving DecidableEq, Repr

/-- Two staged operands share one handle register, so the tile of one is copied over that of the other (R155). -/
def Ref.clashes (a b : Ref) : Bool := a.staged && b.staged && !a.absent && !b.absent && decide (a.hreg = b.hreg)

def parseRef (n : Nat) : Ref := ⟨bits n 0 6, bit n 6, bit n 7, bits n 8 4, n⟩

def wdst (w : W128) : Ref := parseRef (wword w 2)
def wsrcA (w : W128) : Ref := parseRef (wword w 4)
def wsrcB (w : W128) : Ref := parseRef (wword w 6)
def wmods (w : W128) : Nat := wbyte w 1
def wwalk (w : W128) : Nat := bits (wbyte w 8) 0 3
def wrnd (w : W128) : Nat := bits (wbyte w 8) 3 2

/-- How an opcode uses an operand. -/
inductive Use where
  | unused | required | optional
  deriving DecidableEq, Repr

/-- The shape of an opcode: its operands, whether it takes a walk, and whether `rnd` is one of its fields. -/
structure OpShape where
  dst : Use
  srcA : Use
  srcB : Use
  walk : Bool
  deriving DecidableEq, Repr

/-- Check 1 of R137 on one operand reference: reserved bits, `absent` and `staged`. -/
def refOk (r : Ref) (u : Use) (mayStage : Bool) : Bool :=
  decide (bits r.raw 12 4 = 0) &&
  (if r.absent then decide (r.raw = 128) && decide (u ≠ .required)
   else decide (u ≠ .unused) && (mayStage || !r.staged) && (r.staged || decide (r.hreg = 0)))

/-- Check 1 of R137 on the common layout. A field of an operand that the opcode does not use must be `absent`
(DEDUCED, log 20). -/
def common1 (sh : OpShape) (w : W128) : Bool :=
  refOk (wdst w) sh.dst false && refOk (wsrcA w) sh.srcA sh.walk && refOk (wsrcB w) sh.srcB sh.walk &&
  decide (bits (wbyte w 8) 5 3 = 0) && decide (wrnd w ≠ 3) && (sh.walk || decide (wwalk w = 0))

/-- The references of an instruction that are not absent. -/
def usedRefs (w : W128) : List Ref := [wdst w, wsrcA w, wsrcB w].filter fun r => !r.absent

/-- Checks 1 to 3 of R137: the detail of the first that fails. `own` is the opcode's part of check 1. -/
def checks123 (c : Cmd) (sh : OpShape) (w : W128) (own : Bool) : Option Nat :=
  if !(common1 sh w && own) then some 0x0402
  else if !((usedRefs w).all fun r => decide (r.card < c.cards.length)) then some 0x0404
  else if !((wdst w).absent || c.writes (wdst w).card) then some 0x0406
  else if ((usedRefs w).drop (if (wdst w).absent then 0 else 1)).any fun r => c.writes r.card then some 0x0406
  else none

/-! ### Bands and walks (R151 to R157) -/

/-- Start and end of engine `i`'s band of `m` rows in units of `u`, of `n` engines (R157). -/
def band (m u n i : Nat) : Nat × Nat :=
  let t := ceilDiv m u
  let q := t / n
  let r := t % n
  let start := u * (i * q + min i r)
  (min start m, min (start + (if i < r then q + 1 else q) * u) m)

/-- A permutation names each of the four dimensions once (R151, R152). -/
def permOk (p : Nat) : Bool := (natRange 0 4).all fun d => (natRange 0 4).any fun k => decide (bits p (2 * k) 2 = d)

/-- Check 4 of R137: the walk slot is defined and valid (R152). `red` is the reduction dimension, if any. -/
def walkOk (e : EngRun) (slot : Nat) (red : Option Nat) : Bool :=
  match mapFind e.walks (slot * 4), mapFind e.walks (slot * 4 + 1), mapFind e.walks (slot * 4 + 2) with
  | some l0, some l1, some l2 =>
    permOk l0.perm && permOk l1.perm && permOk l2.perm &&
    (natRange 0 4).all (fun d =>
      let a := l0.ext.getD d 0
      let b := l1.ext.getD d 0
      let c := l2.ext.getD d 0
      decide (a ≠ 0) && decide (b ≠ 0) && decide (b % a = 0) && decide (c % b = 0)) &&
    (match red with
     | some d => decide (bits l0.perm 0 2 = d) && decide (bits l1.perm 0 2 = d) && decide (bits l2.perm 0 2 = d)
     | none => true)
  | _, _, _ => false

/-- The extent of walk dimension `d` at `level` of a slot. -/
def walkExt (e : EngRun) (slot level d : Nat) : Nat :=
  match mapFind e.walks (slot * 4 + level) with
  | some l => l.ext.getD d 0
  | none => 0

/-- The longest band of the command (R156): that of engine 0. -/
def longestBand (m u n : Nat) : Nat := (band m u n 0).2

/-- Rounded up to a multiple of 256. -/
def up256 (n : Nat) : Nat := ceilDiv n 256 * 256

/-- Level-2 extents with the substitutions of R156; `full` gives each walk dimension's full extent. -/
def stagedExt (e : EngRun) (slot n : Nat) (full : List Nat) (d : Nat) : Nat :=
  let x := walkExt e slot 2 d
  if x ≠ 0 then x
  else if d = 0 then longestBand (full.getD 0 0) (walkExt e slot 1 0) n
  else full.getD d 0

/-- The staged size of an operand (R156): `dimOf k` is the walk dimension that card dimension `k` follows, if any. -/
def stagedSize (c : Card) (e : EngRun) (slot n : Nat) (full : List Nat) (dimOf : Nat → Option Nat) : Nat :=
  let ext := fun k => match dimOf k with
    | some d => stagedExt e slot n full d
    | none => c.ext k
  let bytes := ceilDiv (ext 0 * c.bits) 8 * (ext 1 * ext 2 * ext 3 * ext 4)
  let sext := fun k => if k = c.groupDim then ceilDiv (ext k) (groupSize c.group) else ext k
  let scales := if c.scaleType = 0 then 0 else sext 0 * sext 1 * sext 2 * sext 3 * sext 4 * scaleSize c.scaleType
  up256 bytes + (if c.scaleType = 0 then 0 else up256 scales)

/-! ### Elements (R147, R148, R159, R160) -/

/-- An element's coordinates: five indices, possibly out of bounds. -/
abbrev Ix := List Int

/-- Index `k` of coordinates. -/
def ixAt (i : Ix) (k : Nat) : Int := i.getD k 0

/-- Whether an element lies inside its card (R159). -/
def Card.inside (c : Card) (i : Ix) : Bool :=
  (natRange 0 5).all fun k => decide (0 ≤ ixAt i k) && decide (ixAt i k < c.ext k)

/-- Byte address of the row that an element lies in (R147). -/
def Card.rowAddr (c : Card) (i : Ix) : Nat :=
  c.base + ((natRange 1 4).map fun k => (ixAt i k).toNat * c.str k).foldl (· + ·) 0

/-- Linear element index (R181). -/
def Card.linear (c : Card) (i : Ix) : Nat :=
  let x := fun k => (ixAt i k).toNat
  x 0 + c.ext 0 * (x 1 + c.ext 1 * (x 2 + c.ext 2 * (x 3 + c.ext 3 * x 4)))

/-- The pattern of an element inside its card. -/
def State.rawElem (s : State) (cl : Nat) (c : Card) (i : Ix) : Except Nat Nat :=
  let a := c.rowAddr i + (ixAt i 0).toNat * c.bits / 8
  match s.cread cl a (ceilDiv c.bits 8) with
  | .ok bs =>
    let n := leNat bs
    .ok (if c.bits = 4 then (if ixAt i 0 % 2 = 1 then n / 16 else n % 16) else n)
  | .error d => .error d

/-- The pattern of an element, padded where it lies outside (R159); `red` is the opcode's reduction dimension. -/
def State.elem (s : State) (cl : Nat) (c : Card) (red : Option Nat) (i : Ix) : Except Nat Nat :=
  if c.inside i then s.rawElem cl c i
  else
    let alongRed := match red with
      | some k => decide (ixAt i k < 0) || decide ((c.ext k : Int) ≤ ixAt i k)
      | none => false
    .ok (if alongRed || !c.padConst then 0 else c.padValue)

/-- The value of a pattern in a card's type. -/
def Card.value (c : Card) (n : Nat) : Num :=
  match elemOf c.typ with
  | some t => t.decode n
  | none => numZero

/-- The value of an element before its scale. -/
def State.elemVal (s : State) (cl : Nat) (c : Card) (red : Option Nat) (i : Ix) : Except Nat Num :=
  match s.elem cl c red i with
  | .ok n => .ok (c.value n)
  | .error d => .error d

/-- Place of the scale of an element in the scale array (R148). -/
def Card.scaleIndex (c : Card) (i : Ix) : Nat :=
  let x := fun k => if k = c.groupDim then (ixAt i k).toNat / groupSize c.group else (ixAt i k).toNat
  x 0 + c.scaleExt 0 * (x 1 + c.scaleExt 1 * (x 2 + c.scaleExt 2 * (x 3 + c.scaleExt 3 * x 4)))

/-- The scale of an element: 1.0 where the card has none, and outside the card (R159, R168). -/
def State.elemScale (s : State) (cl : Nat) (c : Card) (i : Ix) : Except Nat Num :=
  if c.scaleType = 0 ∨ !c.inside i then .ok numOne
  else
    let w := scaleSize c.scaleType
    match s.cread cl (c.scaleBase + c.scaleIndex i * w) w with
    | .ok bs => .ok (scaleValue c.scaleType (leNat bs))
    | .error d => .error d

/-- The value of an element times its scale, in FP32 rounded by ρ (R164). -/
def State.scaledVal (s : State) (cl : Nat) (c : Card) (rho : Nat) (i : Ix) : Except Nat Num :=
  match s.elemVal cl c none i with
  | .error d => .error d
  | .ok v =>
    if c.scaleType = 0 then .ok v
    else match s.elemScale cl c i with
      | .error d => .error d
      | .ok k => .ok (mul32 rho v k)

/-- An element as a lane takes it (R220): converted to FP32, which rounds an INT32 value above 2^24 by ρ, then multiplied by its scale
and rounded by ρ. -/
def State.laneVal (s : State) (cl : Nat) (c : Card) (rho : Nat) (i : Ix) : Except Nat Num :=
  match s.elemVal cl c none i with
  | .error d => .error d
  | .ok v =>
    if c.scaleType = 0 then .ok (round32 rho v)
    else match s.elemScale cl c i with
      | .error d => .error d
      | .ok k => .ok (mul32 rho (round32 rho v) k)

/-- `f` over a list, up to the first error. -/
def tryMap {α β : Type} (f : α → Except Nat β) : List α → Except Nat (List β)
  | [] => .ok []
  | x :: xs =>
    match f x with
    | .error d => .error d
    | .ok y =>
      match tryMap f xs with
      | .error d => .error d
      | .ok ys => .ok (y :: ys)

/-- `f` folded over a list, up to the first error. -/
def tryFold {α β : Type} (f : β → α → Except Nat β) : β → List α → Except Nat β
  | b, [] => .ok b
  | b, x :: xs =>
    match f b x with
    | .error d => .error d
    | .ok b1 => tryFold f b1 xs

/-- Patterns of a row packed into bytes; the upper half of the last byte of an odd row of 4-bit elements is zero (R147). -/
def packRow (b : Nat) : List Nat → List Byte
  | [] => []
  | [x] => leBytes x (ceilDiv b 8)
  | x :: y :: rest =>
    if b = 4 then BitVec.ofNat 8 (x % 16 + y % 16 * 16) :: packRow b rest
    else leBytes x (b / 8) ++ packRow b (y :: rest)

/-- Half of a byte that is written while the other half keeps its value: an element of a 4-bit type whose neighbour another engine
writes (R147, R157). -/
structure Half where
  addr : Nat
  upper : Bool
  pattern : Nat
  deriving DecidableEq, Repr

/-- What an instruction has to write: addresses and bytes, in order, then halves of bytes, with the saturations counted on the way
(R179). -/
structure Writes where
  items : List (Nat × List Byte) := []
  sats : Nat := 0
  halves : List Half := []
  deriving DecidableEq, Repr

/-- A list mapped in order, the state passed along. -/
def mapSt {α β : Type} (f : State → α → State × β) : List α → State → State × List β
  | [], s => (s, [])
  | x :: xs, s => let (t, y) := f s x; let (u, ys) := mapSt f xs t; (u, y :: ys)

/-- The same places written with free values. -/
def Writes.freed (ws : Writes) (s : State) : State × Writes :=
  let (s1, xs) := mapSt (fun (t : State) (x : Nat × List Byte) => let (u, bs) := t.drawBytes x.2.length; (u, (x.1, bs))) ws.items s
  let (s2, hs) := mapSt (fun (t : State) (x : Half) => let (u, bs) := t.drawBytes 1; (u, { x with pattern := leNat bs % 16 })) ws.halves s1
  (s2, { ws with items := xs, halves := hs })

/-- Two sets of writes, one after the other. -/
def Writes.append (a b : Writes) : Writes := { items := a.items ++ b.items, sats := a.sats + b.sats, halves := a.halves ++ b.halves }

/-- Addresses and lengths of the bytes written. -/
def Writes.ranges (ws : Writes) : List (Nat × Nat) := (ws.items.map fun p => (p.1, p.2.length)) ++ ws.halves.map fun h => (h.addr, 1)

/-- Values stored into an element type: patterns and saturations; `u` draws for each element by its position. -/
def storeAll (t : Elem) (rnd : Nat) (u : Nat → Nat) : Nat → List Num → List Nat × Nat
  | _, [] => ([], 0)
  | k, x :: xs =>
    let (p, sat) := t.store x rnd (u k)
    let (ps, n) := storeAll t rnd u (k + 1) xs
    (p :: ps, n + b2n sat)

/-- A run of patterns stored into a card from the element at `i` upward, bit for bit (R147): the upper half of the last byte of a
row of 4-bit elements of odd extent is zero; at a run's other ends only the run's own half of a byte is written. -/
def Card.storeRaw (c : Card) (i : Ix) (ps : List Nat) : Writes :=
  if ps.isEmpty then {}
  else
    let a := c.rowAddr i
    let x := (ixAt i 0).toNat
    let stop := x + ps.length
    if c.bits ≠ 4 then { items := [(a + x * (c.bits / 8), packRow c.bits ps)] }
    else
      let first : List Nat := if x % 2 = 1 then ps.take 1 else []
      let rest := ps.drop first.length
      let open_ := decide (stop % 2 = 1) && decide (stop < c.ext 0)
      let body := if open_ then rest.take (rest.length - 1) else rest
      let last := if open_ then rest.drop (rest.length - 1) else []
      { items := if body.isEmpty then [] else [(a + (x + first.length) / 2, packRow 4 body)]
        halves := (first.map fun p => ⟨a + x / 2, true, p⟩) ++ last.map fun p => ⟨a + (stop - 1) / 2, false, p⟩ }

/-- A run of values stored into a card from the element at `i` upward (R175, R180). -/
def Card.storeRow (c : Card) (rnd : Nat) (u : Nat → Nat) (i : Ix) (vals : List Num) : Writes :=
  match elemOf c.typ with
  | none => {}
  | some t =>
    let (ps, n) := storeAll t rnd u (c.linear i) vals
    { c.storeRaw i ps with sats := n }

/-- Bytes that hold `n` elements of a row from the element at `i` upward (R147). -/
def Card.runAt (c : Card) (i : Ix) (n : Nat) : Nat × Nat :=
  let x := (ixAt i 0).toNat
  let lo := x * c.bits / 8
  (c.rowAddr i + lo, ceilDiv ((x + n) * c.bits) 8 - lo)

/-- Coordinates of the first element of every row of a card, lower dimensions fastest; the outermost dimension ranges over [lo, hi).
A card of one dimension has one row, which begins at `lo`. -/
def Card.rows (c : Card) (lo hi : Nat) : List Ix :=
  if c.dims = 1 then (if lo < hi then [[Int.ofNat lo, 0, 0, 0, 0]] else [])
  else
    let rng := fun k => if k + 1 = c.dims then natRange lo (hi - lo) else natRange 0 (c.ext k)
    (rng 4).flatMap fun i4 => (rng 3).flatMap fun i3 => (rng 2).flatMap fun i2 => (rng 1).map fun (i1 : Nat) =>
      ([0, Int.ofNat i1, Int.ofNat i2, Int.ofNat i3, Int.ofNat i4] : Ix)

/-- Elements of a row of `Card.rows`. -/
def Card.rowLen (c : Card) (lo hi : Nat) : Nat := if c.dims = 1 then hi - lo else c.ext 0

/-- The extent of a card's outermost dimension. -/
def Card.outer (c : Card) : Nat := c.ext (c.dims - 1)

/-- Writes made for client `cl`: the state, and the detail of the first access fault (R314, R319). -/
def State.applyWrites (cl : Nat) : List (Nat × List Byte) → State → State × Option Nat
  | [], s => (s, none)
  | (a, bs) :: rest, s =>
    match s.cwrite cl a bs with
    | (s1, none) => State.applyWrites cl rest s1
    | (s1, some d) => (s1, some d)

/-- `f` over a list, threading the state, up to the first detail. -/
def runEach {α : Type} (f : α → State → State × Option Nat) : List α → State → State × Option Nat
  | [], s => (s, none)
  | x :: xs, s =>
    match f x s with
    | (s1, none) => runEach f xs s1
    | (s1, some d) => (s1, some d)

/-- Half of a byte written for client `cl`, the other half as it was. -/
def State.applyHalf (cl : Nat) (h : Half) (s : State) : State × Option Nat :=
  match s.cread cl h.addr 1 with
  | .error d => (s, some d)
  | .ok b =>
    let old := leNat b
    s.cwrite cl h.addr (leBytes (if h.upper then old % 16 + h.pattern % 16 * 16 else old / 16 * 16 + h.pattern % 16) 1)

end Sys2Proof.Machine
end

