-- ==== Sys2Proof/Machine/Hearth.lean ====
section
/-! DEFINITION. The Hearth allocator of a compute die (R309 to R316): handles, taking and freeing buffers, zeroing, and the free
events; with the allocator's register views. -/

namespace Sys2Proof.Machine

/-- The empty handle register (R309). -/
def emptyHandle : Nat := 0xFFFFFFFF

/-- A handle: first granule, die, generation (R309). -/
def handleOf (granule die gen : Nat) : Nat := 0x400000 * (gen % 1024) + 0x8000 * (die % 8) + granule % 0x8000

/-- Granules of a handle and its generation. -/
def handleGranule (h : Nat) : Nat := bits h 0 15
def handleDie (h : Nat) : Nat := bits h 15 3
def handleGen (h : Nat) : Nat := bits h 22 10

/-- The generation of a granule (R309). -/
def Hearth.gen (h : Hearth) (g : Nat) : Nat := (mapGet h.gens g 0 + h.genBase) % 1024

/-- A region of `size` granules from `g` meets no live buffer and lies below 128 MiB (R143). -/
def Hearth.regionFree (h : Hearth) (g size : Nat) : Bool :=
  decide (g + size ≤ 32768) && h.bufs.all fun (b, x) => decide (g + size ≤ b) || decide (b + x.size ≤ g)

/-- The lowest run of `size` free granules at or above `g`, among buffers in rising order (R310). -/
def firstFit (size : Nat) : NMap Buf → Nat → Option Nat
  | [], g => if g + size ≤ 32768 then some g else none
  | (b, x) :: rest, g => if g + size ≤ b then some g else firstFit size rest (max g (b + x.size))

/-- Granules held by buffers for which `p` holds. -/
def Hearth.heldBy (h : Hearth) (p : Buf → Bool) : Nat :=
  (h.bufs.map fun (_, x) => if p x then x.size else 0).foldl (· + ·) 0

/-- Granules of a region that were last owned by a client other than `c` (R311). -/
def Hearth.foreign (h : Hearth) (g size c : Nat) : List Nat :=
  (natRange g size).filter fun k => decide (mapGet h.last k 0 ≠ c + 1)

/-- Frequency of the HEARTH clock of a die in MHz at its DVFS point (R46, R48). -/
def State.hearthMhz (s : State) (d : Nat) : Nat :=
  match s.fld (Fld.CPC_STATUS_point d) with
  | 0 => 1200
  | 1 => 1050
  | 2 => 900
  | 3 => 600
  | _ => 300

/-- Nanoseconds of zeroing `n` granules on die `d`: 16 HEARTH cycles each (R311). -/
def State.zeroNs (s : State) (d n : Nat) : Nat := 1000 * (n * 16) / s.hearthMhz d

/-- A buffer taken: granules of other owners zeroed (R311). The end of the zeroing is `untilNs` from now. -/
def State.takeBuf (s : State) (d g size client : Nat) (keep : Bool) (entry : Nat) : State :=
  let dirty := (s.hearth d).foreign g size client
  let s1 := forEach dirty s fun k t =>
    { t with mem := memoryClear t.mem (hearthKey d (4096 * k)) 4096 }
  s1.modHearth d fun h =>
    { h with
      bufs := mapSet h.bufs g { size := size, owner := client, keep := keep, entry := some entry }
      clinker := h.clinker.filter fun (p, _) => !dirty.contains (p / 256)
      errs := h.errs.filter fun (p, _) => !dirty.contains (p / 256) }

/-- A buffer freed (R312): its start granule's generation advances, its granules keep their owner as last owner. -/
def State.freeBuf (s : State) (d g : Nat) : State :=
  s.modHearth d fun h =>
    match mapFind h.bufs g with
    | none => h
    | some b =>
      { h with
        bufs := mapDel h.bufs g
        gens := mapPut h.gens g ((mapGet h.gens g 0 + 1) % 1024) 0
        last := forEach (natRange g b.size) h.last fun k m => mapSet m k (b.owner + 1) }

/-- FREE_FAULT (R312, R408, R409): recorded in HRT_FREE_LOG, sent to the client, logged. -/
def State.freeFault (s : State) (d client granule reason : Nat) : State :=
  let s1 := (((s.setFld (Fld.HRT_FREE_LOG_client d) client).setFld (Fld.HRT_FREE_LOG_granule d) granule).setFld
    (Fld.HRT_FREE_LOG_reason d) reason).setFlag (Fld.HRT_STATUS_free_fault d) true
  (s1.clientEvent client 1 (unitOf d 0x050) (granule + 0x8000 * d + 0x40000 * reason)).logRecorded (unitOf d 0x050) 0 client

/-- A free of the buffer at granule `g` of die `d` asked for by client `c`; `live` says whether the name is live (R312). -/
def State.freeFor (s : State) (d c g : Nat) (live : Bool) : State :=
  match mapFind (s.hearth d).bufs g with
  | some b =>
    if !live then s.freeFault d c g 0
    else if b.owner = c then s.freeBuf d g
    else s.freeFault d c g 1
  | none => s.freeFault d c g 0

/-- Buffers of a run freed by the hardware (R114, R145): all of them, or those without `keep`. -/
def State.freeRunBufs (s : State) (d entry : Nat) (all : Bool) : State :=
  let mine := (s.hearth d).bufs.filter fun (_, b) => decide (b.entry = some entry) && (all || !b.keep)
  forEach mine s fun (g, _) t => t.freeBuf d g

/-- Buffers that a tallied run leaves behind become the client's (R145). -/
def State.keepRunBufs (s : State) (d entry : Nat) : State :=
  s.modHearth d fun h =>
    { h with bufs := h.bufs.map fun (g, b) => if b.entry = some entry then (g, { b with entry := none }) else (g, b) }

/-- Waiting ALLOCs of a run ended (R310). -/
def State.dropAllocs (s : State) (d entry : Nat) : State :=
  s.modHearth d fun h =>
    { h with queue := h.queue.filter (fun a => decide (a.entry ≠ entry))
             zeroing := h.zeroing.filter (fun a => decide (a.entry ≠ entry)) }

/-- The Hearth of a die lost (R315): every buffer freed, every generation advanced, no last owner. -/
def State.loseHearth (s : State) (d : Nat) : State :=
  s.modHearth d fun h =>
    { h with bufs := [], queue := [], zeroing := [], last := [], genBase := (h.genBase + 1) % 1024 }

/-- A run for which `p` holds has finished: its TALLY has been sent (R133). -/
def State.finishedRun (s : State) (p : Run → Bool) : Bool := s.runs.any fun r => r.tallySent && p r

/-- Granules reserved on die `d` for the commands of client `c` placed there and not finished (R324). -/
def State.reservedGranules (s : State) (d c : Nat) : Nat :=
  (s.steps.map fun st => if st.client = c then
      (st.cmds.map fun k => match k.state with
        | .placed d' _ => if d' = d then k.hearthUse else 0
        | .running d' =>
          if d' = d ∧ !(s.finishedRun fun r => decide (r.ring = st.ring) && decide (r.seq = st.seq) && decide (r.index = k.index)) then
            k.hearthUse
          else 0
        | _ => 0).foldl (· + ·) 0
    else 0).foldl (· + ·) 0

/-- Granules of client `c` on die `d` that count as held (R324): those of no command, and those that a finished command has kept. The
buffers of a command that still runs are counted as reserved. -/
def State.keptGranules (s : State) (d c : Nat) : Nat :=
  (s.hearth d).heldBy fun b => decide (b.owner = c) && match b.entry with
    | none => true
    | some e => s.finishedRun fun r => decide (r.die = d) && decide (r.entry = e)

/-- L4 use of the placed, untallied commands of client `c` (R324). -/
def State.l4InUse (s : State) (c : Nat) : Nat :=
  (s.steps.map fun st => if st.client = c then
      (st.cmds.map fun k => match k.state with
        | .placed _ _ => k.l4Use
        | .running _ => k.l4Use
        | _ => 0).foldl (· + ·) 0
    else 0).foldl (· + ·) 0

/-! ### Staging buffers -/

/-- Check 5 of R137 on one operand: its handle register holds a buffer whose part is large enough (R156). -/
def State.stageOk (s : State) (r : Run) (ref : Ref) (split : Bool) (size : Nat) : Bool :=
  if ref.absent ∨ !ref.staged then true
  else
    match mapFind r.hregs ref.hreg with
    | none => false
    | some h =>
      match mapFind (s.hearth r.die).bufs (handleGranule h) with
      | none => false
      | some b =>
        let parts := if split ∨ r.cmd.reuse ≠ 2 then r.engs.length else 1
        decide (handleDie h = r.die) && decide (handleGen h = (s.hearth r.die).gen (handleGranule h)) && decide (size ≤ 4096 * b.size / parts)

end Sys2Proof.Machine
end

