-- ==== Sys2Proof/Machine/Flags.lean ====
section
/-! DEFINITION. The completion status, its flags and details (R82, R94, R122, R165, R218, R251, R283, R305, R348, R524), and the
counters of a client's accounting block (R127). -/

namespace Sys2Proof.Machine

/-! ### Status codes (R82) -/

def stDone : Nat := 0x00
def stDoneLate : Nat := 0x01
def stRefusedQuota : Nat := 0x10
def stRefusedDeadline : Nat := 0x11
def stRefusedLoad : Nat := 0x12
def stFaultData : Nat := 0x20
def stFaultDescriptor : Nat := 0x21
def stFaultAlias : Nat := 0x22
def stFaultTimeout : Nat := 0x23
def stFaultAccess : Nat := 0x24
def stCancelled : Nat := 0x30

/-- A status is a FAULT code. -/
def isFault (st : Nat) : Bool := decide (0x20 ≤ st) && decide (st < 0x30)

/-- Status that goes with a detail code. -/
def statusOf (detail : Nat) : Nat :=
  if [0x0601, 0x0602, 0x0701, 0x0702, 0x0801, 0x0805, 0x0901, 0x0902, 0x0A01, 0x0A02, 0x0A03, 0x0A07, 0x0C01, 0x0C07,
      0x0D02, 0x0E01, 0x0E02].contains detail then stFaultData
  else if detail = 0x0406 ∨ detail = 0x0504 then stFaultAlias
  else if detail = 0x0408 ∨ detail = 0x0A06 ∨ detail = 0x0E03 then stFaultTimeout
  else if [0x040B, 0x0503, 0x0505, 0x0D01, 0x0D03, 0x0D04].contains detail then stFaultAccess
  else stFaultDescriptor

/-- Details whose commands are placed again under R94: they may pass on another unit. -/
def replayable (detail : Nat) : Bool :=
  [0x0601, 0x0602, 0x0701, 0x0702, 0x0801, 0x0805, 0x0901, 0x0902, 0x0A01, 0x0A02, 0x0C01, 0x0C07].contains detail

/-- The completion flags (R82). -/
def Step.cflags (st : Step) : Nat :=
  b2n st.roundSubst + 2 * b2n st.replayed + 4 * b2n st.narrowed + 8 * b2n st.budgetOver

/-- The 32 bytes of a completion record released `elapsed` microseconds after acceptance (R82). -/
def Step.record (st : Step) (status elapsed : Nat) : List Byte :=
  leBytes st.seq 8 ++ leBytes (st.ring % 1048576 + 1048576 * st.client) 4 ++ leBytes status 1 ++ leBytes st.cflags 1 ++
  leBytes st.failIndex 1 ++ leBytes (min st.replays 255) 1 ++ leBytes st.userTag 8 ++
  leBytes (min elapsed 0xFFFFFFFF) 4 ++ leBytes st.detail 2 ++ leBytes 0 2

/-! ### Counters of the accounting block by their offsets (R127) -/

def acLostNs : Nat := 72
def acBytes : Nat := 80
def acEnergy : Nat := 112
def acLostEnergy : Nat := 120
def acWaitWindow : Nat := 128
def acWaitLedger : Nat := 136
def acWaitDispatch : Nat := 144
def acStepsDone : Nat := 152
def acStepsLate : Nat := 156
def acRefusedQuota : Nat := 160
def acRefusedDeadline : Nat := 164
def acRefusedLoad : Nat := 168
def acFaulted : Nat := 172
def acCancelled : Nat := 176
def acPreemptions : Nat := 180
def acBounces : Nat := 184
def acFaultReplays : Nat := 188
def acBudgetOver : Nat := 192
def acDoorbell : Nat := 196
def acNarrowed : Nat := 200

/-- Adds to a counter of a client. Energies are kept in nJ and written in µJ. -/
def State.acct (s : State) (c off n : Nat) : State :=
  s.modClient c fun x => { x with acct := mapSet x.acct off (mapGet x.acct off 0 + n) }

/-- The counters that a released step changes (R127). -/
def State.acctRelease (s : State) (c status : Nat) : State :=
  if status = stDone then s.acct c acStepsDone 1
  else if status = stDoneLate then (s.acct c acStepsDone 1).acct c acStepsLate 1
  else if status = stRefusedQuota then s.acct c acRefusedQuota 1
  else if status = stRefusedDeadline then s.acct c acRefusedDeadline 1
  else if status = stRefusedLoad then s.acct c acRefusedLoad 1
  else if status = stCancelled then s.acct c acCancelled 1
  else s.acct c acFaulted 1

/-- CRC-32C over bytes, reflected polynomial 0x82F63B78 (R28, R85, R127). -/
def crc32cStep : Nat → W32 → W32
  | 0, c => c
  | n + 1, c => crc32cStep n (if c.getLsbD 0 then (c >>> 1) ^^^ 0x82F63B78 else c >>> 1)

def crc32cFrom : List Byte → W32 → W32
  | [], c => c
  | b :: bs, c => crc32cFrom bs (crc32cStep 8 (c ^^^ b.zeroExtend 32))

def crc32c (bs : List Byte) : W32 := ~~~ (crc32cFrom bs 0xFFFFFFFF)

/-- The 256 bytes of a client's accounting block with generation `gen` (R127). -/
def State.acctBlock (s : State) (c gen : Nat) : List Byte :=
  let a := (s.client c).acct
  let v := fun off => mapGet a off 0
  let q := fun off n => leBytes (v off) n
  let body := leBytes s.tb 8 ++ leBytes gen 8 ++ ((natRange 0 7).flatMap fun k => q (16 + 8 * k) 8) ++ q acLostNs 8 ++
    ((natRange 0 4).flatMap fun k => q (acBytes + 8 * k) 8) ++ leBytes (v acEnergy / 1000) 8 ++
    leBytes (v acLostEnergy / 1000) 8 ++ q acWaitWindow 8 ++ q acWaitLedger 8 ++ q acWaitDispatch 8 ++
    ((natRange 0 13).flatMap fun k => q (152 + 4 * k) 4) ++ leBytes 0 48
  body ++ leBytes (crc32c body).toNat 4

end Sys2Proof.Machine
end

