-- ==== Sys2Proof/Machine/Sched.lean ====
section
/-! DEFINITION. What the scheduler front end, the dispatchers and the tally unit share: steps and their commands, readiness and
virtual time (R74, R99, R100), free engines (R102), kills (R114), failures and their replay (R83, R94), take-outs of engines
(R416, R526), and the loss of a Hearth (R90). -/

namespace Sys2Proof.Machine

/-! ### Steps and runs -/

/-- The step of a ring with a sequence number, while in flight. -/
def findStep (ring seq : Nat) : List Step → Option Step
  | [] => none
  | st :: rest => if st.ring = ring ∧ st.seq = seq then some st else findStep ring seq rest

def State.step? (s : State) (ring seq : Nat) : Option Step := findStep ring seq s.steps

def State.modStep (s : State) (ring seq : Nat) (f : Step → Step) : State :=
  { s with steps := s.steps.map fun st => if st.ring = ring ∧ st.seq = seq then f st else st }

def Step.cmd? (st : Step) (i : Nat) : Option Cmd := st.cmds[i]?

def Step.modCmd (st : Step) (i : Nat) (f : Cmd → Cmd) : Step :=
  { st with cmds := st.cmds.map fun c => if c.index = i then f c else c }

def State.modCmd (s : State) (ring seq i : Nat) (f : Cmd → Cmd) : State :=
  s.modStep ring seq fun st => st.modCmd i f

/-- The run in an entry of a dispatcher's table (R22). -/
def findRun (die entry : Nat) : List Run → Option Run
  | [] => none
  | r :: rs => if r.die = die ∧ r.entry = entry then some r else findRun die entry rs

def State.run? (s : State) (die entry : Nat) : Option Run := findRun die entry s.runs

/-- The run of a command. -/
def findRunOf (ring seq index : Nat) : List Run → Option Run
  | [] => none
  | r :: rs => if r.ring = ring ∧ r.seq = seq ∧ r.index = index then some r else findRunOf ring seq index rs

def State.runOf? (s : State) (ring seq index : Nat) : Option Run := findRunOf ring seq index s.runs

def State.modRun (s : State) (die entry : Nat) (f : Run → Run) : State :=
  { s with runs := s.runs.map fun r => if r.die = die ∧ r.entry = entry then f r else r }

/-- Bit `d` of `dies_present` (R55). -/
def State.setPresent (s : State) (d : Nat) (b : Bool) : State :=
  s.setFld Fld.GLB_TOPO_dies_present (setBit (s.fld Fld.GLB_TOPO_dies_present) d b)

/-- Whether the die is out of service as a whole (R55). -/
def State.dieOut (s : State) (d : Nat) : Bool :=
  (s.dieSt d).islandFailed || (s.dieSt d).startFailed || (s.dieSt d).loggedOff || s.flag (Fld.CFR_STATUS_held_out d)

/-- `dies_present` follows the state of die `d`. -/
def State.notePresent (s : State) (d : Nat) : State := s.setPresent d (!s.dieOut d)

/-- `drained`: the die is DRAINING and no command is left on it (R417). -/
def State.drained (s : State) (d : Nat) : Bool :=
  decide (s.logicState d = logicDraining) && (s.dieSt d).gate && !s.runs.any fun r => decide (r.die = d)

/-- A drained die with `hold_out` set is held out (R417). -/
def State.holdDrained (s : State) (d : Nat) : State :=
  if s.fitted d && s.drained d && s.flag (Fld.CFR_CTRL_hold_out d) then
    (s.setFlag (Fld.CFR_STATUS_held_out d) true).notePresent d
  else s

/-- A run leaves its dispatcher's table; the last command of a drain ends it (R417). -/
def State.dropRun (s : State) (die entry : Nat) : State :=
  let s1 := if die < hubDie then s.modDie die fun x => { x with idleSince := s.tb } else s
  { s1 with runs := s1.runs.filter fun r => !(decide (r.die = die) && decide (r.entry = entry)) }.holdDrained die

/-- The run whose engine is unit `u` of die `die`, before its TALLY is sent. -/
def State.runOn? (s : State) (die u : Nat) : Option Run :=
  s.runs.find? fun r => decide (r.die = die) && !r.tallySent && r.engs.any fun e => decide (e.unit = u)

/-- Command is tallied. -/
def Cmd.isTallied (c : Cmd) : Bool := match c.state with | .tallied => true | _ => false
def Cmd.isWaiting (c : Cmd) : Bool := match c.state with | .waiting => true | _ => false

/-- The command was placed or runs (R324). -/
def Cmd.isPlaced (c : Cmd) : Bool := match c.state with | .placed _ _ => true | .running _ => true | _ => false

/-- Command `i` depends on command `j`, directly or through a chain; `fuel` bounds the chain. -/
def dependsOn (cmds : List Cmd) : Nat → Nat → Nat → Bool
  | 0, _, _ => false
  | fuel + 1, i, j =>
    match cmds[i]? with
    | some c => c.deps.any fun d => decide (d = j) || (decide (d < i) && dependsOn cmds fuel d j)
    | none => false

/-- Neither command depends on the other (R72, R73). -/
def unordered (cmds : List Cmd) (i j : Nat) : Bool :=
  !dependsOn cmds cmds.length i j && !dependsOn cmds cmds.length j i

/-! ### Shares, virtual time and readiness (R97, R99, R100) -/

/-- A client's share of a kind as its registers give it (R97). -/
def State.shareReg (s : State) (c kind : Nat) : Nat :=
  max 1 (match kind with
    | 0 => s.fld (Fld.SCH_CLIENT_SHARE_A_share_mxe c)
    | 1 => s.fld (Fld.SCH_CLIENT_SHARE_A_share_ate c)
    | 2 => s.fld (Fld.SCH_CLIENT_SHARE_B_share_cee c)
    | 3 => s.fld (Fld.SCH_CLIENT_SHARE_B_share_ppe c)
    | 4 => s.fld (Fld.SCH_CLIENT_SHARE_C_share_cdc c)
    | 5 => s.fld (Fld.SCH_CLIENT_SHARE_C_share_mov c)
    | _ => s.fld (Fld.SCH_CLIENT_SHARE_D_share_kindling c))

/-- A client's share of a kind in effect: a new one waits for the next placement decision (R97). -/
def State.share (s : State) (c kind : Nat) : Nat := mapGet (s.client c).oldShares kind (s.shareReg c kind)

def State.vt (s : State) (c kind : Nat) : Nat := mapGet (s.client c).vtime kind 0

/-- Virtual time set, a 64-bit number (R99). -/
def State.setVt (s : State) (c kind v : Nat) : State :=
  s.modClient c fun x => { x with vtime := mapSet x.vtime kind (v % 2 ^ 64) }

/-- Virtual time that a run's present segment has earned so far (R99), truncated once over the segment. -/
def State.segmentVt (s : State) (width segStart share : Nat) : Nat :=
  65536 * (width * s.nsSince segStart) / max 1 share

/-- The occupancy of a run charged up to now: what the segment has earned beyond what was charged for it already (R99). -/
def State.chargeRun (s : State) (r : Run) : State :=
  let v := s.segmentVt r.engs.length r.segStart r.segShare
  (s.setVt r.client r.kind (s.vt r.client r.kind + (v - r.segCharged))).modRun r.die r.entry fun x =>
    { x with segCharged := v }

/-- The scheduler has placed a command of the residency that has not begun on its engines: that placement cancels an ending for park
limit, self-test or fair share (R213), and ends its parking (R99). -/
def State.calledBack (s : State) (x : Residency) : Bool :=
  x.parkedSince.isSome && s.steps.any fun st => decide (st.client = x.client) && st.cmds.any fun k =>
    k.resident && decide ((k.cards.getD 1 {}).base = x.record) && k.isPlaced

/-- The parking of a residency charged up to now, which ends as its next command is placed (R99, R213). -/
def State.chargeParked (s : State) (x : Residency) : State :=
  match x.parkedSince with
  | none => s
  | some _ =>
    if s.calledBack x then s
    else
    let v := s.segmentVt x.engines.length x.segStart x.segShare
    let s1 := s.setVt x.client 0 (s.vt x.client 0 + (v - x.segCharged))
    { s1 with residencies := s1.residencies.map fun y => if y.record = x.record ∧ y.client = x.client then
        { y with segCharged := v } else y }

/-- A new segment of a command that has been placed and has not started: what it has earned so far is owed (R99). -/
def State.newSegment (s : State) (c : Cmd) (share : Nat) : Cmd :=
  match c.state with
  | .placed _ _ =>
    { c with owed := c.owed + s.segmentVt c.placedWidth c.segStart c.segShare, segStart := s.tb, segShare := share }
  | _ => c

/-- A client's new share of a kind takes effect (R97): what its runs, its placed commands and its parked residencies occupied is charged
at the old one, and new segments start (R99, R213). -/
def State.adoptShare (s : State) (c kind : Nat) : State :=
  let mine := fun (r : Run) => decide (r.client = c) && decide (r.kind = kind) && !r.tallySent
  let held := fun (x : Residency) => decide (kind = 0) && decide (x.client = c)
  let s1 := forEach (s.runs.filter mine) s fun r t => t.chargeRun r
  let s2 := forEach (s.residencies.filter held) s1 fun x t => t.chargeParked x
  let share := s.shareReg c kind
  { s2.modClient c fun x => { x with oldShares := mapDel x.oldShares kind } with
    steps := s2.steps.map fun st => if st.client = c then
        { st with cmds := st.cmds.map fun k => if k.kind = kind then s.newSegment k share else k }
      else st
    runs := s2.runs.map fun r => if mine r then { r with segStart := s.tb, segCharged := 0, segShare := share } else r
    residencies := s2.residencies.map fun x =>
      if held x then { x with segStart := s.tb, segCharged := 0, segShare := share } else x }

/-- `quantum_us` and `safety_wait_us` in effect (R116). -/
def State.quantum (s : State) : Nat :=
  match s.oldPreempt with
  | some (q, _) => q
  | none => s.fld Fld.SCH_PREEMPT_quantum_us
def State.safetyWait (s : State) : Nat :=
  match s.oldPreempt with
  | some (_, w) => w
  | none => s.fld Fld.SCH_PREEMPT_safety_wait_us

/-- Every share written since the last placement decision takes effect (R97); one written back to its old value changes nothing. -/
def State.adoptShares (s : State) : State :=
  forEach s.clients s fun (c, x) t => forEach x.oldShares t fun (kind, old) u =>
    if u.shareReg c kind = old then u.modClient c fun y => { y with oldShares := mapDel y.oldShares kind }
    else u.adoptShare c kind

/-- A client is active for a kind (R100). -/
def State.activeFor (s : State) (c kind : Nat) : Bool :=
  (s.steps.any fun st => decide (st.client = c) && st.cmds.any fun k => decide (k.kind = kind) &&
    (k.isPlaced || (k.isWaiting && k.readySince.isSome))) ||
  (decide (kind = 0) && s.residencies.any fun x => decide (x.client = c) && x.parkedSince.isSome)

/-- The lowest virtual time among clients other than `c` active for a kind. -/
def State.lowestVt (s : State) (c kind : Nat) : Option Nat :=
  let others := (s.clients.map (·.1)).filter fun x => decide (x ≠ c) && s.activeFor x kind
  match leastBy (fun x => s.vt x kind) others with
  | some x => some (s.vt x kind)
  | none => none

/-- A client that becomes active has its virtual time raised to the lowest of the active clients (R100). -/
def State.raiseVt (s : State) (c kind : Nat) : State :=
  match s.lowestVt c kind with
  | some v => if s.vt c kind < v then s.setVt c kind v else s
  | none => s

/-- Pages that a step touches and that are reserved but not backed (R324). -/
def State.stepPagesReserved (s : State) (st : Step) : Bool :=
  s.reserves.any fun (n, _) => st.cmds.any fun c => c.cards.any fun k =>
    (s.cardRanges st.client k).any fun r => (s.pagesOf r).contains n

/-- A command may be dispatched (R74, R324). A wait for `serial` or for a fence ends at the step's budget (R125). -/
def State.cmdReady (s : State) (st : Step) (c : Cmd) : Bool :=
  st.status.isNone && c.isWaiting &&
  (c.deps.all fun d => match st.cmd? d with | some k => k.isTallied | none => false) &&
  (!st.serial || st.budgetOver || decide ((s.ring st.ring).released = st.seq)) &&
  (!st.fence || st.budgetOver || decide (st.fenceSeq < (s.ring st.fenceRing).released)) &&
  !s.stepPagesReserved st

/-- A codec command of client `c` is in flight (R439). -/
def State.codecBusy (s : State) (c : Nat) : Bool :=
  s.steps.any fun st => decide (st.client = c) && st.cmds.any fun k => decide (k.kind = 4) && k.isPlaced

/-- The imported key becomes the client's compatibility key, and the key registers are zeroed (R439). -/
def State.wrapCompat (s : State) (c : Nat) : State :=
  let key := leNat ((natRange 0 8).flatMap fun i => leBytes (mapGet s.keys.compatWords i 0).toNat 4)
  { s with keys := { s.keys with compatKeys := mapSet s.keys.compatKeys c key, compatWords := [], compatPending := none } }

/-- A key load that waits is made once no codec command of its client is in flight. -/
def State.settleCompat (s : State) : State :=
  match s.keys.compatPending with
  | some c => if s.codecBusy c then s else s.wrapCompat c
  | none => s

/-- Commands that have become ready are noted, and their clients become active (R100). -/
def State.refreshReady (s0 : State) : State :=
  let s := s0.settleCompat
  forEach s.steps s fun st t => forEach st.cmds t fun c u =>
    if s.cmdReady st c then
      match c.readySince with
      | some _ => u
      | none =>
        let u1 := if u.activeFor st.client c.kind then u else u.raiseVt st.client c.kind
        u1.modCmd st.ring st.seq c.index fun k => { k with readySince := some u1.tb }
    else
      match c.readySince with
      | some _ => if c.isWaiting then u.modCmd st.ring st.seq c.index fun k => { k with readySince := none } else u
      | none => u

/-! ### Free engines (R102) -/

/-- A residency holds MXE `n` of die `d`. -/
def State.heldByResidency (s : State) (d n : Nat) : Bool :=
  s.residencies.any fun x => decide (x.die = d) && x.engines.contains n

/-- Engine `n` of a kind on die `d` is free: in service, not running, not under test, not held by a residency, and not about to
change its epoch (R102, R110, R213). -/
def State.engineFree (s : State) (d kind n : Nat) : Bool :=
  let u := engineUnit kind n
  s.engineIn d kind n && (s.runOn? d u).isNone && (s.unit (unitOf d u)).testing.isNone &&
  !(s.unit (unitOf d u)).disabling && !s.epochPending (unitOf d u) &&
  !(decide (kind = 0) && s.heldByResidency d n) && !(decide (kind = 6) && s.kindlingHeld)

/-- Free engines of a kind on a die, in ascending order. -/
def State.freeEngines (s : State) (d kind : Nat) : List Nat :=
  (natRange 0 (kindEngines kind)).filter (s.engineFree d kind)


/-- Engines of a kind in service on a die (R75). -/
def State.inServiceCount (s : State) (d kind : Nat) : Nat :=
  ((natRange 0 (kindEngines kind)).filter (s.engineIn d kind)).length

/-- Dies on which a kind may run. -/
def State.kindDies (s : State) (kind : Nat) : List Nat :=
  if kind = 6 then (if s.variant = .vxp8 then [hubDie] else []) else natRange 0 s.nDies

/-- The die may take commands: its logic is READY with its gate open (R102). -/
def State.dieOpen (s : State) (d : Nat) : Bool :=
  decide (d = hubDie) || (decide (s.logicState d = logicReady) && (s.dieSt d).gate)

/-- Command entries that a die's dispatcher has (R22). -/
def tableSize (d : Nat) : Nat := if d = hubDie then 256 else 2048

/-- The lowest free entry of a dispatcher's table (R22). -/
def State.freeEntry (s : State) (d : Nat) : Option Nat :=
  let used := (s.runs.filter fun r => decide (r.die = d)).map (·.entry)
  (natRange 0 (min (tableSize d) (used.length + 1))).find? fun k => !used.contains k

/-! ### Commit of a step (R83) -/

/-- The step has committed. -/
def Step.committed (st : Step) : Bool := st.status.isSome || st.cmds.all Cmd.isTallied

/-- `committed` of a ring's ledger record: the steps from `released` on that have committed without a gap (R85). -/
def committedFrom (ring : Nat) (steps : List Step) : Nat → Nat → Nat
  | 0, k => k
  | fuel + 1, k =>
    match findStep ring k steps with
    | some st => if st.committed then committedFrom ring steps fuel (k + 1) else k
    | none => k

/-- Watch entry `n` matches a step (R493): its dumps, and those that wait, are still fewer than `repeat` under `every`. -/
def State.watchMatch (s : State) (st : Step) (n : Nat) : Bool :=
  let seq := s.fld (Fld.DBG_WATCH_SEQ_seq n)
  s.flag (Fld.DBG_WATCH_RING_enable n) && decide (s.fld (Fld.DBG_WATCH_RING_ring n) = st.ring) &&
  decide (s.fld (Fld.DBG_WATCH_LEN_len n) ≠ 0) &&
  (if s.flag (Fld.DBG_WATCH_RING_every n) then
     decide (seq ≤ st.seq) &&
     decide (s.fld (Fld.DBG_WATCH_CNT_dumps n) + (s.steps.filter fun x => x.watching.contains n).length <
       s.fld (Fld.DBG_WATCH_RING_repeat n))
   else decide (seq = st.seq))

/-- The ring's `committed` count brought up to date; steps that it passes are watched by the entries that match them (R493). -/
def State.noteCommit (s : State) (ring : Nat) : State :=
  let old := (s.ring ring).committed
  let s1 := s.modRing ring fun r => { r with committed := committedFrom ring s.steps 257 r.released }
  let new := (s1.ring ring).committed
  let passed := s1.steps.filter fun st => decide (st.ring = ring) && decide (old ≤ st.seq) && decide (st.seq < new)
  forEach passed s1 fun st t =>
    t.modStep ring st.seq fun x => { x with watching := (natRange 0 4).filter (t.watchMatch st) }

/-- The reaction of a client's class (R98). -/
def State.reactionOf (s : State) (c : Nat) : Nat :=
  match s.fld (Fld.SCH_CLIENT_CLASS_class c) with
  | 0 => s.fld Fld.SCH_CLASS_REACT_react_safety
  | 1 => s.fld Fld.SCH_CLASS_REACT_react_interactive
  | 2 => s.fld Fld.SCH_CLASS_REACT_react_bulk
  | _ => s.fld Fld.SCH_CLASS_REACT_react_best_effort

/-- A step's budget has expired and nothing has been done about it (R125). -/
def State.budgetSpent (s : State) (st : Step) : Bool :=
  decide (st.budgetUs ≠ 0) && !st.budgetDone && decide (1000 * st.budgetUs < s.nsSince st.acceptedAt)

/-- The unit name of the primary supervisor (R31, R428). -/
def State.unitPrimary (s : State) : Nat := unitOf hubDie (if s.flag Fld.SAF_STATUS_primary then 0x003 else 0x002)

/-- An escalation (R409): a pulse on FAULT_N, `escalated`, and a count at the watch port. -/
def State.escalate (s : State) : State :=
  let s1 := (s.setFlag Fld.SAF_STATUS_escalated true).setFlag Fld.SAF_STATUS_fault_n_low true
  { s1 with saf := { s1.saf with
      escalations := min (s1.saf.escalations + 1) 255, escalatedSince := true, pulseSince := some s1.tb } }

/-- A step that commits after its budget has expired, before a supervisor has looked: counted; flagged under the reaction Report; under
Escalate the safety fault for the missed budget is raised. Nothing of it is left to kill (R125, log 141). -/
def State.noteBudget (s : State) (st : Step) : State :=
  if s.budgetSpent st then
    let s1 := (s.acct st.client acBudgetOver 1).modStep st.ring st.seq fun x =>
      { x with budgetDone := true, budgetOver := x.budgetOver || decide (s.reactionOf st.client = 0) }
    if s.reactionOf st.client = 2 then (s1.logEvent 1 0 s1.unitPrimary 0x0E03 st.client st.seq st.ring).escalate else s1
  else s

/-- A step all of whose commands have tallied: DONE, or DONE_LATE past its deadline (R121). -/
def State.commitIfDone (s : State) (ring seq : Nat) : State :=
  match s.step? ring seq with
  | some st =>
    if st.status.isNone ∧ st.cmds.all Cmd.isTallied then
      let code := if st.deadline ≠ 0 ∧ st.deadline < s.tb then stDoneLate else stDone
      ((s.noteBudget st).modStep ring seq fun x => { x with status := some code }).noteCommit ring
    else s
  | none => s

/-! ### Kills (R114, R129, R212) -/

/-- The `in_service` bit of a unit set or cleared, where it has one. -/
def State.setInService (s : State) (d u : Nat) (b : Bool) : State :=
  match inServiceFld d u with
  | some f =>
    let s1 := s.setFlag f b
    if u < 8 then s1.setFlag (Fld.EWE_STATUS_in_service d u) b else s1
  | none => s

/-- An engine that waited for the end of its command to be disabled is taken out of service (R215). -/
def State.settleDisable (s : State) (d u : Nat) : State :=
  if (s.unit (unitOf d u)).disabling then
    ((s.setInService d u false).modUnit (unitOf d u) fun x => { x with disabling := false }).advanceEpoch (unitOf d u)
  else s

/-- The cycles that a residency's engines were parked, counted as the parking ends (R479). -/
def State.countParked (s : State) (x : Residency) : State :=
  match x.parkedSince with
  | none => s
  | some since => forEach x.engines s fun n t =>
    t.count x.die n 0x44 (t.unitCycles x.die n (t.nsSince (max since x.cyclesAt))) (some x.client)

/-- A residency ended: its engines are no longer resident (R212); their epochs advance where `bump` says so. -/
def State.endResidency (s : State) (x : Residency) (bump : Bool) : State :=
  let s0 := (s.chargeParked x).countParked x
  let s1 := { s0 with residencies := s0.residencies.filter fun y => !(decide (y.record = x.record) && decide (y.client = x.client)) }
  forEach x.engines s1 fun n t =>
    let t1 := (t.setFld (Fld.MXE_STATUS_res_state x.die n) 0).setReg (Fld.MXE_RES_res_record x.die n).key 0
    if bump then t1.advanceEpoch (unitOf x.die n) else t1

/-- The residency of a running resident command. -/
def State.residencyOf (s : State) (r : Run) : Option Residency :=
  if r.cmd.resident then
    s.residencies.find? fun x => decide (x.client = r.client) && decide (x.record = (r.cmd.cards.getD 1 {}).base)
  else none

/-- A 64-bit free value. -/
def State.drawWord (s : State) : State × Nat := ({ s with drawn := s.drawn + 1 }, (Config.freeWord s.drawn).toNat)

/-- Cycles of a unit of a run since `since`, in its own clock; those before the die's last move of its point have been counted. -/
def State.runCycles (s : State) (r : Run) (u since : Nat) : Nat := s.unitCycles r.die u (s.nsSince (max since r.cyclesAt))

/-- Cycles that an engine waited, counted at the engine and at the gate engine fused to it as it goes on (R479, log 26). -/
def State.countStall (s : State) (r : Run) (g : EngRun) (code since : Nat) : State :=
  forEach (withGate r.die g.unit) s fun u t => t.count r.die u code (t.runCycles r u since) (some r.client)

/-- The event that a wait counts as, and since when. -/
def Stall.event : Stall → Option (Nat × Nat)
  | .wait _ _ _ since => Option.some (0x03, since)
  | .sync _ since => some (0x03, since)
  | .space since => some (0x04, since)
  | .landing _ _ since => some (0x44, since)
  | .home _ _ since _ => some (0x44, since)
  | .codebook _ => Option.none
  | .none => Option.none

/-- The cycles of a wait that does not end by itself. -/
def State.countStalled (s : State) (r : Run) (g : EngRun) : State :=
  match g.stall.event with
  | some (code, since) => s.countStall r g code since
  | none => s

/-- The cycles that a run occupied its engines, counted at its end, and those of them in which it was stalled on an operand fetch, a free
value (R478, R479; logs 26 and 173). -/
def State.endCycles (s : State) (r : Run) : State :=
  forEach r.engs s fun e t => forEach (withGate r.die e.unit) t fun u t0 =>
    let n := t0.runCycles r u r.start
    let (t1, k) := t0.drawWord
    ((t1.countFixed r.die u 12 n).count r.die u 0x01 n (some r.client)).count r.die u 0x02 (k % (n + 1)) (some r.client)

/-- The CMD_END packet of a run (R486): outcome 0 ended, 1 killed, 2 failed. -/
def State.cmdEnd (s : State) (r : Run) (outcome detail : Nat) : State :=
  s.packet 0x12 (unitOf r.die 0x060) r.client (seqRing r.seq r.ring ++ leBytes r.index 1 ++ leBytes outcome 1 ++
    leBytes detail 2 ++ leBytes r.epoch0 2)

/-- What a die's power model estimates, scaled to the energy measured (R128). -/
def State.scaledEnergy (s : State) (d nj : Nat) : Nat :=
  match mapFind s.measured d with
  | some (modelled, measured) => if modelled = 0 then nj else nj * measured / modelled
  | none => nj

/-- The data bytes of a DISPATCH (R106). -/
def dispatchData (m : Dispatch) : List Byte :=
  leBytes m.seq 8 ++ leBytes (m.ring % 1048576) 4 ++ leBytes m.index 1 ++ leBytes m.op 1 ++ leBytes m.kind 1 ++ leBytes m.width 1 ++
    leBytes m.cmdAddr 8 ++ leBytes m.deadline 8 ++ leBytes m.tallyEpoch 2 ++ leBytes 0 6 ++ leBytes m.avoid 2 ++ leBytes 0 22

/-- The data bytes of a BOUNCE: those of the DISPATCH with the reason at byte 34 and the current epoch at bytes 36 and 37 (R107). -/
def bounceData (m : Dispatch) : List Byte :=
  (dispatchData m).take 34 ++ leBytes m.reason 1 ++ leBytes 0 1 ++ leBytes m.curEpoch 2 ++ (dispatchData m).drop 38

/-- The data bytes of a TALLY (R108). -/
def tallyData (m : TallyMsg) : List Byte :=
  leBytes m.seq 8 ++ leBytes (m.ring % 1048576) 4 ++ leBytes m.index 1 ++ leBytes m.width 1 ++ leBytes m.tallyEpoch 2 ++
    leBytes m.engineNs 8 ++ leBytes m.bytesL1 8 ++ leBytes m.bytesL2 8 ++ leBytes m.bytesL3 8 ++ leBytes m.bytesL4 8 ++
    leBytes m.energyNj 8

/-- A DISPATCH goes out. -/
def State.sendDispatch (s : State) (d : Nat) (m : Dispatch) : State := s.send (.dispatch d m (dispatchData m))

/-- The DISPATCH with `op` KILL for a run (R106, R114). -/
def State.killMsg (s : State) (r : Run) : Dispatch :=
  { seq := r.seq, ring := r.ring, index := r.index, op := 1, kind := r.kind, width := r.width, cmdAddr := r.cmd.addr
    deadline := match s.step? r.ring r.seq with | some st => st.deadline | none => 0
    tallyEpoch := 0, avoid := 0, headerEpoch := s.knownEpoch (dieUnit r.die), reason := 0, curEpoch := 0 }

/-- The cycles of a die's runs and of its parked residencies counted up to now; the tally root relocks for 4 µs from now on, whose cycles
are not counted (R468, R478). -/
def State.settleCycles (s : State) (d : Nat) : State :=
  let on := s.tb + 154
  let s1 := forEach (s.runs.filter fun r => decide (r.die = d) && !r.tallySent) s fun r t =>
    forEach r.engs (t.endCycles r) fun g u => u.countStalled r g
  let s2 := forEach (s.residencies.filter fun x => decide (x.die = d)) s1 fun x t => t.countParked x
  { s2 with runs := s2.runs.map fun r => if r.die = d then { r with cyclesAt := on } else r
            residencies := s2.residencies.map fun x => if x.die = d then { x with cyclesAt := on } else x }

/-- The residency of a run ended, its epochs advancing where `bump` says so. -/
def State.endRunResidency (s : State) (r : Run) (bump : Bool) : State :=
  match s.residencyOf r with
  | some x => s.endResidency x bump
  | none => s

/-- A run's engines stop, and their epochs advance (R109, R114): its occupancy is charged up to now (R99), its residency ends, and what
its engines asked for is dropped. -/
def State.stopEngines (s : State) (r : Run) : State :=
  let s1 := forEach r.engs ((s.chargeRun r).endCycles r) fun e t => forEach (withGate r.die e.unit) (t.countStalled r e) fun u t0 =>
    (t0.countFixed r.die u 14 1).count r.die u 0x0D 1 (some r.client)
  let s3 := forEach r.engs (s1.endRunResidency r false) fun e t =>
    let u := (t.advanceEpoch (unitOf r.die e.unit)).settleDisable r.die e.unit
    if r.kind = 1 then u.setFlag (Fld.ATE_STATUS_waiting r.die (e.unit - 0x010)) false else u
  let s4 := { s3 with waiting := s3.waiting.filter fun w => !(r.engs.any fun e => decide (w.src = unitOf r.die e.unit)) }
  s4.cmdEnd r 1 0

/-- A killed run (R114): its buffers are freed, its waiting ALLOCs dropped, its time and energy charged as lost (R127, R128), and its
command is ready to be placed again, as it has been without a break (R100). Engines that the end of the run has freed already are
another's by now, and stay as they are but for a residency, which ends (R109, R212); a command whose step has been decided is not run
again (R83). The energy that the model estimates for a killed run is a free value (log 12). -/
def State.killRun (s : State) (r : Run) : State :=
  let s1 := if r.tallySent then s.endRunResidency r true else s.stopEngines r
  let ns := if r.tallySent then (r.endedAt - r.start) * 625 / 24 else s.nsSince r.start
  let (s2, nj) := (s1.acct r.client acLostNs (r.engs.length * ns)).drawWord
  let s3 := s2.acct r.client acLostEnergy (s2.scaledEnergy r.die nj)
  let decided := match s.step? r.ring r.seq with
    | some st => st.status.isSome
    | none => true
  ((((s3.freeRunBufs r.die r.entry true).dropAllocs r.die r.entry)).dropRun r.die r.entry).modCmd r.ring r.seq r.index fun c =>
    if decided then { c with state := .dropped, readySince := none } else { c with state := .waiting, readySince := some s.tb, blockedSince := none }

/-- The scheduler kills a run: DISPATCH with `op` KILL goes to its dispatcher, where it takes effect unless the run's TALLY has been
sent by then (R114, R115). A KILL that is on its way already is not sent twice. -/
def State.schedKill (s : State) (r : Run) (preempted : Bool) : State :=
  match s.run? r.die r.entry with
  | none => s
  | some x =>
    if x.killSent || x.tallySent then s
    else (s.sendDispatch x.die (s.killMsg x)).modRun x.die x.entry fun y => { y with killSent := true, preempted := preempted }

/-- A pre-emption: the scheduler kills the run, which counts in `preemptions` when the KILL takes effect (R94, R127). -/
def State.preempt (s : State) (r : Run) : State := s.schedKill r true

/-- A bounce of a command (R111): killed if it runs, counted in `bounces`. -/
def State.bounceRun (s : State) (r : Run) : State := (s.schedKill r false).acct r.client acBounces 1

/-- The KILL of a run at its dispatcher (R114). -/
def State.takeKill (s : State) (r : Run) : State :=
  let s1 := s.killRun r
  (if r.preempted then s1.acct r.client acPreemptions 1 else s1).refreshReady

/-- Runs of a step. -/
def State.runsOf (s : State) (ring seq : Nat) : List Run :=
  s.runs.filter fun r => decide (r.ring = ring) && decide (r.seq = seq)

/-- The KILL of a command whose PLACE is on its way goes after it (R83, R114). -/
def State.killPlaced (s : State) (st : Step) (c : Cmd) : State :=
  match c.state with
  | .placed d _ => s.sendDispatch d (s.killMsg { ring := st.ring, seq := st.seq, index := c.index, kind := c.kind, width := c.placedWidth
                                                 cmd := c, die := d })
  | _ => s

/-- The status of a step decided (R83): its untallied commands are not run, those running or on their way to their engines are killed,
the tallied ones stand. A status once decided stays. A TALLY already sent is performed all the same (R115). -/
def State.decideStep (s : State) (ring seq status detail failIndex : Nat) : State :=
  match s.step? ring seq with
  | none => s
  | some st =>
    if st.committed then s
    else
      let s1 := forEach st.cmds (forEach (s.runsOf ring seq) s fun r t => t.schedKill r false) fun c t => t.killPlaced st c
      let s2 := s1.modStep ring seq fun x =>
        { x with status := some status, detail := detail, failIndex := failIndex
                 roundSubst := x.roundSubst && (x.cmds.any Cmd.isTallied)
                 cmds := x.cmds.map fun c => if c.isTallied || c.isPlaced then c
                   else { c with state := .dropped, readySince := none } }
      (s2.noteCommit ring).refreshReady

/-- A command's failure that no other unit could avoid: the step fails (R83, R165). -/
def State.failFinal (s : State) (r : Run) (unit detail : Nat) : State :=
  ((((s.schedKill r false).killRun r).cmdEnd r 2 detail).decideStep r.ring r.seq (statusOf detail) detail r.index).logEvent 1 2 unit detail r.client r.seq r.ring

/-- A command killed by a fault (R94, R103): placed again away from the detecting engine `avoid`, or, at the third such kill,
the step fails with `detail` and status `finalDetail`. -/
def State.faultKill (s : State) (r : Run) (unit detail finalDetail : Nat) (avoid : Option Nat) : State :=
  let kills := match (s.step? r.ring r.seq).bind (·.cmd? r.index) with
    | some c => c.faultKills + 1
    | none => 1
  if 3 ≤ kills then s.failFinal r unit finalDetail
  else
    let s1 := (s.killRun r).modStep r.ring r.seq fun st =>
      { st.modCmd r.index fun c =>
          { c with faultKills := kills
                   avoid := match avoid with | some n => (r.die, n) :: c.avoid | none => c.avoid }
        with replayed := true, replays := min (st.replays + 1) 255 }
    ((s1.acct r.client acFaultReplays 1).logEvent 1 1 unit detail r.client r.seq r.ring).refreshReady

/-- A run whose TALLY has been sent and cannot be performed any more (R78, R94): its command is placed again as after a fault; one
whose step has ended otherwise is not. -/
def State.replayLost (s : State) (r : Run) : State :=
  match s.step? r.ring r.seq with
  | none => s.dropRun r.die r.entry
  | some st =>
    if st.status.isSome then
      (((s.endRunResidency r true).freeRunBufs r.die r.entry true).dropRun r.die r.entry).modCmd r.ring r.seq r.index fun c =>
        { c with state := .dropped, readySince := none }
    else s.faultKill r (dieUnit r.die) 0x0E02 0x0E02 none

/-- A command failed with a detail, on engine `n` of its kind (R94, R165). -/
def State.failRun (s : State) (r : Run) (detail : Nat) (n : Nat) : State :=
  let unit := unitOf r.die (engineUnit r.kind n)
  if replayable detail then
    (s.schedKill r false).faultKill r unit detail detail (if detail = 0x0C01 then none else some n)
  else s.failFinal r unit detail

/-! ### Engines taken out (R403, R409, R416, R526) -/

/-- An engine taken out of service (R416): its epoch advances, a command on it is killed and placed again as a fault, its client
is told, and a residency on it ends. -/
def State.takeOutEngine (s : State) (d u detail : Nat) : State :=
  let unit := unitOf d u
  let s0 := (s.setInService d u false).modUnit unit fun x =>
    { x with outSince := some s.tb, retestAt := s.tb, passes := 0, rounds := 0, testing := none }
  let s1 := match s0.residencies.find? fun x => decide (x.die = d) && x.engines.contains u && x.parkedSince.isSome with
    | some x => s0.endResidency x true
    | none => s0
  let s2 := match s1.runOn? d u with
    | some r => ((s1.schedKill r false).faultKill r unit detail 0x0E02 none).clientEvent r.client 2 unit 0
    | none => s1
  (s2.advanceEpoch unit).logEvent 2 3 unit detail

/-- The status bit that shows a corrected single-bit error of a unit's store (R250, R281, R316): under an MXE's number that of its EWE,
whose store alone has one. -/
def eccFld (d u : Nat) : Option Fld :=
  if u < 8 then some (Fld.EWE_STATUS_ecc_corrected d u)
  else if u = 0x010 ∨ u = 0x011 then some (Fld.ATE_STATUS_ecc_corrected d (u - 0x010))
  else if u = 0x020 then some (Fld.CEE_STATUS_ecc_corrected d)
  else if u = 0x021 then some (Fld.PPE_STATUS_ecc_corrected d)
  else if u = 0x050 then some (Fld.HRT_STATUS_ecc_corrected d)
  else none

/-- A single-bit store error of a unit corrected: shown in its status, and counted as event 0x0B (R409, R479). -/
def State.storeCorrected (s : State) (d u : Nat) (cl : Option Nat) : State :=
  if d ≠ hubDie ∧ !s.fitted d then s
  else
    let s1 := if d = hubDie then s else match eccFld d u with
      | some f => s.setFlag f true
      | none => s
    s1.count d (if d ≠ hubDie ∧ u < 8 then 0x100 + u else u) 0x0B 1 cl

/-- A detection at a unit now would be its second within 1 s (R526). -/
def State.detectedAgain (s : State) (unit : Nat) : Bool :=
  match (s.unit unit).detectedAt with
  | some t => !s.passedUs t 1000000
  | none => false

/-- Counts a detection at a unit: a second within 1 s takes the unit out (R526). -/
def State.countDetection (s : State) (d u detail : Nat) : State :=
  let s1 := s.modUnit (unitOf d u) fun x => { x with detectedAt := some s.tb }
  if s.detectedAgain (unitOf d u) then s1.takeOutEngine d u detail else s1

/-- Where a unit shows a detection (R216, R250, R281, R304): the bit of a mismatch, and the counter. -/
def detectionFlds (d u detail : Nat) : Option Fld × Option Fld :=
  match detail with
  | 0x0601 => (some (Fld.MXE_STATUS_castout_seen d u), some (Fld.MXE_STATUS_check_faults d u))
  | 0x0602 => (some (Fld.MXE_STATUS_rescale_seen d u), some (Fld.MXE_STATUS_check_faults d u))
  | 0x0701 => (some (Fld.EWE_STATUS_check_seen d u), some (Fld.EWE_STATUS_check_faults d u))
  | 0x0702 => (none, some (Fld.EWE_STATUS_check_faults d u))
  | 0x0801 => (some (Fld.CEE_STATUS_check_seen d), some (Fld.CEE_STATUS_check_faults d))
  | 0x0805 => (none, some (Fld.CEE_STATUS_check_faults d))
  | 0x0901 => (some (Fld.PPE_STATUS_check_seen d), some (Fld.PPE_STATUS_check_faults d))
  | 0x0902 => (none, some (Fld.PPE_STATUS_check_faults d))
  | 0x0A01 => (some (Fld.ATE_STATUS_check_seen d (u - 0x010)), some (Fld.ATE_STATUS_check_faults d (u - 0x010)))
  | 0x0A02 => (none, some (Fld.ATE_STATUS_check_faults d (u - 0x010)))
  | 0x0C07 => (some (Fld.CDC_STATUS_check_seen d (u - 0x030)), some (Fld.CDC_STATUS_check_faults d (u - 0x030)))
  | _ => (none, none)

/-- A detection of unit `u` of die `d` shown in its status, and a mismatch counted as event 0x0C (R250, R479); no register of Kindling
shows one. -/
def State.showDetection (s : State) (d u detail : Nat) (cl : Option Nat) : State :=
  let f := detectionFlds d u detail
  let n := if detail = 0x0701 ∧ u < 8 then 0x100 + u else u
  let s1 := s.count d n 0x0C (b2n f.1.isSome) cl
  if d = hubDie then s1
  else
    let s2 := match f.1 with
      | some x => s1.setFlag x true
      | none => s1
    match f.2 with
    | some x => s2.addFld x 1
    | none => s2

/-- A fault found by a check on engine `n` of a running command: the command is killed and placed again away from it, and the
detection counts towards a take-out, of which the command's client is told (R94, R203, R234, R241, R248, R269, R303, R408, R526). -/
def State.checkFault (s : State) (r : Run) (detail n : Nat) : State :=
  let unit := unitOf r.die (engineUnit r.kind n)
  let s1 := (s.failRun r detail n).countDetection r.die (engineUnit r.kind n) detail
  if s.detectedAgain unit then s1.clientEvent r.client 2 unit 0 else s1

/-! ### The loss of a Hearth (R90, R315) -/

/-- The step has a card, its codebook set among its bytes (R150, R296), or a recurrence snapshot in the Hearth of die `d`. -/
def State.usesHearth (s : State) (st : Step) (d : Nat) : Bool :=
  st.cmds.any fun c => c.cards.any fun k =>
    listsMeet (s.cardRanges st.client k) [(hearthBase + 0x100000000 * d, 0x100000000)]

/-- Uncommitted steps with a card in a lost Hearth complete FAULT_DATA 0x0E01 (R90). DESIGN CHOICE (log 143): `fail_index` names the
lowest untallied command with a card there or, where none has one, the lowest untallied command. -/
def State.failHearthSteps (s : State) (d : Nat) : State :=
  forEach s.steps s fun st t =>
    if st.committed || !s.usesHearth st d then t
    else
      let idx := match st.cmds.find? fun c => !c.isTallied && s.usesHearth { st with cmds := [c] } d with
        | some c => c.index
        | none => match st.cmds.find? fun c => !c.isTallied with
          | some c => c.index
          | none => 0
      (t.decideStep st.ring st.seq stFaultData 0x0E01 idx).logEvent 1 2 (unitOf d 0x050) 0x0E01 st.client st.seq st.ring

end Sys2Proof.Machine
end

