-- ==== Sys2Proof/Machine/Pages.lean ====
section
/-! DEFINITION. Unified device memory: frames and their choice (R317 to R324), the page-map operations, reserved pages, the
bellows (R327 to R331), and the merge-age, scrub, health and evacuation events of the DRAM controllers (R337 to R342, R410,
R411). -/

namespace Sys2Proof.Machine

/-! ### Frames -/

/-- Frames of group `g` in use: by pages, by moves on either side of the switch, and by a BACK that zeroes them (R318, R321, R329). -/
def State.usedFrames (s : State) (g : Nat) : List Nat :=
  (s.pages.filterMap fun (_, p) =>
    if p.group = g ∧ (p.state = .backed ∨ p.state = .system) then some p.frame else none) ++
  (s.moves.filterMap fun (_, m) =>
    match m.phase with
    | .copying => if m.newGroup = g then some m.newFrame else none
    | _ => if m.oldGroup = g then some m.oldFrame else none) ++
  (match s.pageCmd with
   | some c => c.plan.filterMap fun b => if b.group = g then some b.frame else none
   | none => [])

/-- A group takes no new pages: exposed, retired, or barred by a failed injection (R324). -/
def State.groupClosed (s : State) (g : Nat) : Bool :=
  s.exposed g || (s.dmc g).barred || (match (s.dmc g).evac with | some e => e.retired | none => false)

/-- Free frames of group `g` (R324). -/
def State.freeCount (s : State) (g : Nat) : Nat :=
  if s.groupClosed g then 0 else 8192 - (s.usedFrames g).length

/-- Free frames of the package. -/
def State.freeTotal (s : State) : Nat := ((natRange 0 s.variant.groups).map s.freeCount).foldl (· + ·) 0

/-- The first number from `k` on that a rising list does not hold. -/
def lowestGap : List Nat → Nat → Nat
  | [], k => k
  | x :: xs, k => if x = k then lowestGap xs (k + 1) else if x < k then lowestGap xs k else k

/-- The lowest-numbered free frame of group `g`, where it has one. -/
def State.lowestFrame (s : State) (g : Nat) : Option Nat :=
  if s.freeCount g = 0 then none
  else some (lowestGap (sortBy (fun x => x) (s.usedFrames g)) 0)

/-- Groups in ascending order of hops from die `d`, lower numbers first at equal hops (R321). -/
def State.groupsByHops (s : State) (d : Nat) : List Nat :=
  sortBy (fun g => match s.hops d (groupDie g) with | some h => h | none => 99) (natRange 0 s.variant.groups)

/-- The group with the most free frames, the lowest number on ties. -/
def State.emptiest (s : State) : Option Nat :=
  leastBy (fun g => 8192 - s.freeCount g) ((natRange 0 s.variant.groups).filter fun g => decide (0 < s.freeCount g))

/-- The frame that BACK takes for a page (R321). -/
def State.frameFor (s : State) (p : Page) : Option (Nat × Nat) :=
  let g := if p.hintValid then
      (p.hintGroup :: (s.groupsByHops (groupDie p.hintGroup)).filter (fun x => decide (x ≠ p.hintGroup))).find? fun x =>
        decide (0 < s.freeCount x)
    else s.emptiest
  match g with
  | some x => match s.lowestFrame x with
    | some f => some (x, f)
    | none => none
  | none => none

/-- A frame zeroed: no byte listed, every code word clean, no merge entry left (R319). -/
def State.zeroFrame (s : State) (g f : Nat) : State :=
  let lo := 0x200000 * f
  let s1 := { s with mem := memoryClear s.mem (dramKey g lo) 0x200000 }
  s1.modDmc g fun d =>
    { d with errs := d.errs.filter fun (cw, _) => decide (cw * 16 < lo) || decide (lo + 0x200000 ≤ cw * 16)
             merge := d.merge.filter fun e => decide (e.line * 64 < lo) || decide (lo + 0x200000 ≤ e.line * 64) }

/-- Groups kept in SLEEP; bits 0 and 1 read 1. -/
def State.keptGroup (s : State) (g : Nat) : Bool := decide (g < 2) || bit (s.fld Fld.PWR_SLEEP_GROUPS_sleep_groups) g

/-- A backed page in a group that SLEEP does not keep refuses the entry (R454), so that no re-entry is due (R465). -/
def State.resleepBacked (s : State) (g : Nat) : State :=
  if s.keptGroup g ∨ s.flag Fld.PWR_CTRL_allow_drop then s else s.breakResleep

/-- Page `n` backed in a frame, zeroed first. -/
def State.backIn (s : State) (n g f : Nat) (st : PageState) : State :=
  ((s.zeroFrame g f).modPage n fun p => { p with group := g, frame := f, state := st }).resleepBacked g

/-- Page `n` backed in the frame that BACK's order gives, where one is free. -/
def State.backPage (s : State) (n : Nat) : State :=
  match s.frameFor (s.page n) with
  | some (g, f) => s.backIn n g f .backed
  | none => s

/-- A system page backed in the lowest-numbered free frame of group `g` (R317); where the group has none, the page stays free (DESIGN
CHOICE, log 144). -/
def State.systemPage (s : State) (n g : Nat) : State :=
  match s.lowestFrame g with
  | some f => (s.backIn n g f .system).modPage n fun p => { p with pinned := true }
  | none => s

/-- Pages that a client has backed, and pages reserved for it (R323). -/
def State.pagesBacked (s : State) (c : Nat) : Nat :=
  (s.pages.filter fun (_, p) => decide (p.state = .backed) && decide (p.owner = c)).length
def State.pagesReserved (s : State) (c : Nat) : Nat := (s.reserves.filter fun (_, r) => decide (r.client = c)).length

/-- Nanoseconds in which a group zeroes one frame (R319). -/
def backNs : Nat := 13653

/-! ### Map and ledger enable (R86, R317) -/

/-- MAP_ENABLE (R317): a write of 1 to `enable` of MEM_MAP_CTRL. -/
def mapEnable (s : State) : State :=
  let base := s.fld Fld.MEM_MAP_BASE_map_base
  if s.flag Fld.MEM_MAP_CTRL_enable then s
  else if base % 0x200000 = 0 ∧ base < s.deviceEnd then
    (s.systemPage (base / 0x200000) 0).setFlag Fld.MEM_MAP_CTRL_enable true
  else s.setFlag Fld.MEM_MAP_CTRL_enable_error true

def execMapEnable (s : State) : Host.Outcome State Fault Refusal := .next (mapEnable s)

/-- LEDGER_ENABLE (R86): a write of 1 to `enable` of SCH_LEDGER_CTRL. -/
def ledgerEnable (s : State) : State :=
  let base := s.fld Fld.SCH_LEDGER_BASE_mirror_base
  let n := base / 0x200000
  if s.flag Fld.SCH_LEDGER_CTRL_enable then s
  else if s.flag Fld.MEM_MAP_CTRL_enable && decide (base % 0x4000000 = 0) && decide (base + 0x4000000 ≤ s.deviceEnd) &&
      (natRange n 32).all (fun k => decide ((s.page k).state = .free)) then
    let s1 := forEach (natRange n 16) s fun k t => t.systemPage k 0
    (forEach (natRange (n + 16) 16) s1 fun k t => t.systemPage k 1).setFlag Fld.SCH_LEDGER_CTRL_enable true
  else s.setFlag Fld.SCH_LEDGER_CTRL_enable_error true

def execLedgerEnable (s : State) : Host.Outcome State Fault Refusal := .next (ledgerEnable s)

/-! ### Page-map operations (R320 to R322) -/

/-- Operation codes of MEM_PAGE_CMD. -/
def opGrant : Nat := 1
def opUngrant : Nat := 2
def opBack : Nat := 3
def opPin : Nat := 4
def opUnpin : Nat := 5
def opQuery : Nat := 6

/-- The pages of a range. -/
def PageCmd.pages (c : PageCmd) : List Nat := natRange c.first c.count

/-- The code of the first check that fails (R321); 0 where all pass. -/
def State.pageCheck (s : State) (c : PageCmd) : Nat :=
  let granted := c.pages.filter fun n => decide ((s.page n).state = .granted)
  let touches := decide (c.op ≠ opQuery)
  if !s.flag Fld.MEM_MAP_CTRL_enable then 6
  else if c.op < 1 ∨ 6 < c.op then 8
  else if c.op = opQuery then (if c.first < s.variant.pages then 0 else 1)
  else if c.count = 0 ∨ s.variant.pages < c.first + c.count then 1
  else if touches ∧ c.pages.any (fun n => decide ((s.page n).state = .system)) then 5
  else if c.op = opGrant ∧ c.hintValid ∧ s.variant.groups ≤ c.hintGroup then 7
  else if c.op = opGrant ∧ !c.pages.all (fun n => decide ((s.page n).state = .free)) then 2
  else if c.op ≠ opGrant ∧ !c.pages.all (fun n => decide ((s.page n).owner = c.client) &&
      (decide ((s.page n).state = .granted) || decide ((s.page n).state = .backed))) then 3
  else if c.op = opBack ∧ s.fld (Fld.SCH_CLIENT_QUOTA_P_quota_pages c.client) <
      s.pagesBacked c.client + s.pagesReserved c.client + granted.length then 4
  else if c.op = opBack ∧ s.freeTotal - s.reserves.length < granted.length then 9
  else 0

/-- A page made free, its frame returned and its reservation, if any, gone. -/
def State.freePage (s : State) (n : Nat) : State :=
  { s with pages := mapDel s.pages n, reserves := mapDel s.reserves n }

/-- A BACK in progress takes the frame for page `n` that R321 gives, and zeroes it after the frames that it takes in the same group (R319). -/
def State.planPage (s : State) (n : Nat) : State :=
  match s.pageCmd, s.frameFor (s.page n) with
  | some c, some (g, f) =>
    let due := ((c.plan.filter fun b => decide (b.group = g)).length + 1) * backNs
    { s with pageCmd := some { c with plan := c.plan ++ [⟨n, g, f, due⟩] } }
  | _, _ => s

/-- Entries of the BACK in progress written in ascending page order, each once its frame is zeroed (R321, R322). A page that has been
backed meanwhile, as a reserved one, stays as it is, and one that its client has lost stays so; their frames are free again (R321, R443). -/
def State.backDue (s : State) : State :=
  match s.pageCmd with
  | none => s
  | some c =>
    let ready := c.plan.takeWhile fun b => decide (b.due ≤ s.nsSince c.since)
    if ready.isEmpty then s
    else
      let s1 := { s with pageCmd := some { c with plan := c.plan.drop ready.length } }
      (forEach ready s1 fun b t =>
        if (t.page b.page).state = .granted ∧ (t.page b.page).owner = c.client then
          { t.backIn b.page b.group b.frame .backed with reserves := mapDel t.reserves b.page }
        else t).refreshReady

/-- A page-map operation that a warm reset has interrupted is not complete yet; no doorbell record is read before it is (R322). -/
def State.pageCmdResumed (s : State) : Bool := match s.pageCmd with | some c => c.resumed | none => false

/-- The page-map operation in progress begins anew, after a warm reset, with the pages that it has not changed (R322). -/
def PageCmd.resume (c : PageCmd) (now : Nat) : PageCmd :=
  let again := fun (done : List BackPlan) (b : BackPlan) => { b with due := ((done.filter fun x => decide (x.group = b.group)).length + 1) * backNs }
  { c with since := now, resumed := true, plan := c.plan.foldl (fun done b => done ++ [again done b]) [] }

/-- What an operation whose checks have passed does to its range; a BACK takes its frames and begins to zero them. -/
def State.pageApply (s : State) (c : PageCmd) : State :=
  if c.op = opGrant then
    forEach c.pages s fun n t => t.modPage n fun _ =>
      { state := .granted, owner := c.client, hintGroup := if c.hintValid then c.hintGroup else 0, hintValid := c.hintValid }
  else if c.op = opUngrant then forEach c.pages s fun n t => t.freePage n
  else if c.op = opBack then
    (forEach (c.pages.filter fun n => decide ((s.page n).state = .granted)) { s with pageCmd := some { c with plan := [] } } fun n t => t.planPage n)
  else if c.op = opPin then forEach c.pages s fun n t => t.modPage n fun p => { p with pinned := true }
  else if c.op = opUnpin then forEach c.pages s fun n t => t.modPage n fun p => { p with pinned := false }
  else s.setReg Reg.MEM_PAGE_INFO (s.page c.first).word

/-- An UNGRANT has to wait for this page (R321). -/
def State.pageBusy (s : State) (n : Nat) : Bool := (s.page n).migrating || s.pageInWriteSet n

/-- A page-map operation checked and carried out (R321): it stays busy while a page has to wait or frames are zeroed. -/
def State.pageRun (s1 : State) (c : PageCmd) : State :=
  let err := s1.pageCheck c
  if err ≠ 0 then s1.setFld Fld.MEM_PAGE_CMD_error err
  else
    let s2 := s1.setFld Fld.MEM_PAGE_CMD_error 0
    if c.op = opUngrant ∧ c.pages.any s2.pageBusy then
      { s2.setFlag Fld.MEM_PAGE_CMD_busy true with pageCmd := some c }
    else if c.op = opBack ∧ c.pages.any (fun n => decide ((s2.page n).state = .granted)) then
      (s2.pageApply c).setFlag Fld.MEM_PAGE_CMD_busy true
    else if c.op = opBack then s2
    else s2.pageApply c

/-- A write of MEM_PAGE_CMD with `go`, its operation being `op` (R320, R321). GRANT, PIN, UNPIN and QUERY complete at once; an
UNGRANT that finds busy pages and a BACK that has frames to zero leave `busy` set until PAGE_CMD_COMPLETE. -/
def State.pageGo (s : State) (op : Nat) (value : W32) : State :=
  if s.flag Fld.MEM_PAGE_CMD_busy then s
  else
    let v := value.toNat
    let s1 := (((s.setFld Fld.MEM_PAGE_CMD_op op).setFld Fld.MEM_PAGE_CMD_hint_group (bits v 3 4)).setFld
      Fld.MEM_PAGE_CMD_hint_valid (bits v 7 1)).setFld Fld.MEM_PAGE_CMD_client (bits v 8 12)
    let c : PageCmd := { op := op, first := s1.fld Fld.MEM_PAGE_FIRST_first, count := s1.fld Fld.MEM_PAGE_COUNT_count,
                         client := bits v 8 12, hintGroup := bits v 3 4, hintValid := bit v 7, since := s1.tb }
    if s1.rebuilding then { s1.setFlag Fld.MEM_PAGE_CMD_busy true with power := { s1.power with heldPage := some c } }
    else s1.pageRun c

/-- GRANT (R321). -/
def grant (value : W32) (s : State) : State := s.pageGo opGrant value
def execGrant (value : W32) (s : State) : Host.Outcome State Fault Refusal := .next (grant value s)
/-- UNGRANT (R321). -/
def ungrant (value : W32) (s : State) : State := s.pageGo opUngrant value
def execUngrant (value : W32) (s : State) : Host.Outcome State Fault Refusal := .next (ungrant value s)
/-- BACK (R321). -/
def back (value : W32) (s : State) : State := s.pageGo opBack value
def execBack (value : W32) (s : State) : Host.Outcome State Fault Refusal := .next (back value s)
/-- PIN (R321). -/
def pin (value : W32) (s : State) : State := s.pageGo opPin value
def execPin (value : W32) (s : State) : Host.Outcome State Fault Refusal := .next (pin value s)
/-- UNPIN (R321). -/
def unpin (value : W32) (s : State) : State := s.pageGo opUnpin value
def execUnpin (value : W32) (s : State) : Host.Outcome State Fault Refusal := .next (unpin value s)
/-- QUERY (R321). -/
def query (value : W32) (s : State) : State := s.pageGo opQuery value
def execQuery (value : W32) (s : State) : Host.Outcome State Fault Refusal := .next (query value s)

/-- PAGE_CMD_COMPLETE (R321): an operation that waited, or whose frames are zeroed, completes. -/
def pageCmdComplete (s0 : State) : State :=
  let s := s0.backDue
  match s.pageCmd with
  | none => s
  | some c =>
    if c.op = opUngrant then
      if c.pages.any s.pageBusy then s
      else { (s.pageApply c).setFlag Fld.MEM_PAGE_CMD_busy false with pageCmd := none }
    else if c.plan.isEmpty then { s.setFlag Fld.MEM_PAGE_CMD_busy false with pageCmd := none }
    else s

def execPageCmdComplete (s : State) : Host.Outcome State Fault Refusal := .next (pageCmdComplete s)

/-! ### Reserved pages (R324) -/

/-- RESERVED_PAGE_BACKED (R324): one page at a time in each group, so a page is backed once a zeroing time has passed since its
reservation and since its group's last. -/
def reservedPageBacked (page : Nat) (s : State) : State :=
  match mapFind s.reserves page with
  | none => s
  | some r =>
    match s.frameFor (s.page page) with
    | none => s
    | some (g, f) =>
      if s.nsSince (max r.since (s.dmc g).backedAt) < backNs then s
      else
        let s1 := (s.backIn page g f .backed).modDmc g fun d => { d with backedAt := s.tb }
        { s1 with reserves := mapDel s1.reserves page }.refreshReady

def execReservedPageBacked (page : Nat) (s : State) : Host.Outcome State Fault Refusal := .next (reservedPageBacked page s)

/-! ### The bellows (R327 to R331) -/

/-- Line accesses of die `d` to page `n` in this period. -/
def State.accesses (s : State) (n d : Nat) : Nat := mapGet s.access (n * 16 + d) 0

/-- The die of `d`'s two groups with more free frames, and its lowest free frame (R327). -/
def State.moveTarget (s : State) (d : Nat) : Option (Nat × Nat) :=
  let g0 := if d = hubDie then 0 else 2 * d + 2
  let g := if s.freeCount g0 < s.freeCount (g0 + 1) then g0 + 1 else g0
  match s.lowestFrame g with
  | some f => some (g, f)
  | none => none

/-- Moves that an evaluation would like: page, die and accesses (R327). -/
def State.moveWishes (s : State) : List (Nat × Nat × Nat) :=
  s.access.filterMap fun (key, n) =>
    let p := key / 16
    let d := key % 16
    let e := s.page p
    let home := groupDie e.group
    if s.bellows.threshold ≤ n ∧ d ≠ home ∧ 2 * s.accesses p home < n ∧ e.state = .backed ∧
        !e.pinned ∧ !e.migrating ∧ !s.detaching e.owner then some (p, d, n) else none

/-- The MIGRATE packet of a move: 0 start, 1 switched, 2 abandoned (R486). -/
def State.migrate (s : State) (n : Nat) (m : Move) (action : Nat) : State :=
  s.packet 0x33 (unitOf hubDie 0x030) 0xFFF (leBytes n 4 ++ leBytes m.oldGroup 1 ++ leBytes m.newGroup 1 ++ leBytes action 1)

/-- A move of page `n` to a frame begins (R329 step 1). -/
def State.startMove (s : State) (n g f : Nat) (evac : Bool) : State :=
  let p := s.page n
  let m : Move := { oldGroup := p.group, oldFrame := p.frame, newGroup := g, newFrame := f, pass := 1, dirty := [], todo := [],
                    phase := .copying, since := s.tb, waiting := [], held := [], evac := evac }
  { (s.migrate n m 0).modPage n fun q => { q with migrating := true } with moves := mapSet s.moves n m }

/-- One wish of an evaluation: deferred, moved, or passed over; the moves left of `max_moves` go along, and the pages deferred, each of
which counts once (R327, R328). -/
def wishMove (w : Nat × Nat × Nat) (x : State × Nat × List Nat) : State × Nat × List Nat :=
  let (n, d, _) := w
  let (s, left, deferred) := x
  if (s.page n).migrating ∨ (mapFind s.moves n).isSome ∨ deferred.contains n then x
  else if s.pageInWriteSet n then (s.addFld Fld.MEM_BELLOWS_STATUS_deferred_last 1, left, n :: deferred)
  else if left = 0 ∨ s.freeTotal ≤ s.reserves.length then x
  else match s.moveTarget d with
    | some (g, f) => (s.startMove n g f false, left - 1, deferred)
    | none => x

/-- A period of the bellows begins: its E fields take effect, a running copy pass going on at the new rate (R332). -/
def State.startPeriod (s : State) : State :=
  let moves := s.moves.map fun (n, m) =>
    (n, match m.phase with | .copying => { m with done := s.copiedLines m, since := s.tb } | _ => m)
  { s with
    moves := moves, access := [], bellowsAt := s.tb, movesDone := 0
    bellows := { period := s.fld Fld.MEM_BELLOWS_CTRL_period_us, maxMoves := s.fld Fld.MEM_BELLOWS_CTRL_max_moves
                 rate := s.fld Fld.MEM_BELLOWS_CTRL_rate, threshold := s.fld Fld.MEM_BELLOWS_THRESH_threshold_lines } }

/-- BELLOWS_EVALUATE (R327): every `period_us`, the pages with the most accesses first. -/
def bellowsEvaluate (s : State) : State :=
  if !s.flag Fld.MEM_BELLOWS_CTRL_enable ∨ !s.passedUs s.bellowsAt s.bellows.period then s
  else
    let s0 := (s.setFld Fld.MEM_BELLOWS_STATUS_moves_last s.movesDone).setFld Fld.MEM_BELLOWS_STATUS_deferred_last 0
    let wishes := (sortBy (fun (w : Nat × Nat × Nat) => w.2.2) s.moveWishes).reverse
    (forEach wishes (s0, s.bellows.maxMoves, []) wishMove).1.startPeriod

def execBellowsEvaluate (s : State) : Host.Outcome State Fault Refusal := .next (bellowsEvaluate s)

/-- The contents of a frame copied to another as code words: data, error vectors re-encoded clean where they decode, and the
clinker form kept where they do not (R331, R344). -/
def State.copyFrame (s : State) (g f g2 f2 : Nat) : State :=
  let lo := 0x200000 * f
  let hi := lo + 0x200000
  let mine := ((s.dmc g).merge.filter fun e => decide (lo ≤ e.line * 64) && decide (e.line * 64 < hi))
  let s0 := forEach mine s fun e t => t.flushEntry g e
  let s1 := s0.zeroFrame g2 f2
  let src := s1.mem.filter fun c => decide (dramKey g lo ≤ c.1) && decide (c.1 < dramKey g hi)
  let s2 := { s1 with mem := forEach src s1.mem fun c m => memoryPut m (c.1 - dramKey g lo + dramKey g2 (0x200000 * f2)) c.2 }
  let bad := ((s2.dmc g).errs.filter fun (cw, _) => decide (lo ≤ cw * 16) && decide (cw * 16 < hi))
  forEach bad s2 fun (cw, _) t =>
    let cw2 := cw - lo / 16 + 0x200000 * f2 / 16
    match t.readWord16 g cw with
    | some w => (t.noteWordRead g cw).putWord g2 cw2 w
    | none => (t.noteWordRead g cw).putClinker g2 cw2 (t.load (dramKey g (cw * 16)) 16)

/-- Dies whose dispatchers cache translations: those whose logic is READY (R330). -/
def State.readyDies (s : State) : List Nat :=
  (natRange 0 s.nDies).filter fun d => decide (s.logicState d = logicReady) && (s.dieSt d).gate

/-- The WRITE of a page's new entry to the dispatcher of die `d` (R330). -/
def State.entryWrite (s : State) (n d : Nat) : Sent :=
  .msg { hdr := { opcode := 0x02, tag := 0, epoch := s.epoch (dieUnit d), dst := dieUnit d, src := unitOf hubDie 0x030
                  addr := s.fld Fld.MEM_MAP_BASE_map_base + 8 * n, client := 0, len := 8, clinker := false, reissued := false }
         data := leBytes (s.page n).word 8 }

/-- The switch of a moving page to its new frame (R329 steps 4 and 5). -/
def State.switchMove (s : State) (n : Nat) (m : Move) : State :=
  let s1 := ((s.migrate n m 1).copyFrame m.oldGroup m.oldFrame m.newGroup m.newFrame).modPage n fun p =>
    { p with group := m.newGroup, frame := m.newFrame, migrating := false }
  let dies := s1.readyDies
  let s2 := { s1 with moves := mapSet s1.moves n { m with phase := .hold, since := s1.tb, waiting := dies, dirty := [], todo := [] } }
  forEach dies s2 fun d t => t.send (t.entryWrite n d)

/-- A move abandoned: the new frame freed, the page where it was (R329, R331). -/
def State.abandonMove (s : State) (n : Nat) : State :=
  let s1 := match mapFind s.moves n with
    | some m => s.migrate n m 2
    | none => s
  { s1.modPage n fun p => { p with migrating := false } with moves := mapDel s.moves n }

/-- Nanoseconds that a pass over `k` lines takes at the bellows' rate (R329, R332). -/
def State.passNs (s : State) (k : Nat) : Nat := k * 16 / max 1 s.bellows.rate

/-- BELLOWS_COPY_PASS (R329): a copy pass of a page's move ends. -/
def bellowsCopyPass (page : Nat) (s : State) : State :=
  match mapFind s.moves page with
  | none => s
  | some m =>
    match m.phase with
    | .copying =>
      let lines := if m.pass = 1 then 32768 else m.todo.length
      if s.copiedLines m < lines then s
      else if m.dirty.length ≤ 256 then s.switchMove page m
      else if 4 ≤ m.pass then
        ((s.abandonMove page).setFlag Fld.MEM_BELLOWS_STATUS_aborted_seen true).logRecorded (unitOf hubDie 0x030) 0
      else
        let next := { m with pass := m.pass + 1, todo := m.dirty.map (·.1), dirty := [], since := s.tb, done := 0 }
        { s with moves := mapSet s.moves page next }
    | _ => s

def execBellowsCopyPass (page : Nat) (s : State) : Host.Outcome State Fault Refusal := .next (bellowsCopyPass page s)

/-- BELLOWS_FORWARD_END (R329 step 7): 100 µs after the hold's end the old frame is free. -/
def bellowsForwardEnd (page : Nat) (s : State) : State :=
  match mapFind s.moves page with
  | none => s
  | some m =>
    match m.phase with
    | .forwarding => if s.passedUs m.since 100 then { s with moves := mapDel s.moves page } else s
    | _ => s

def execBellowsForwardEnd (page : Nat) (s : State) : Host.Outcome State Fault Refusal := .next (bellowsForwardEnd page s)

/-! ### DRAM controllers (R340 to R342, R410) -/

/-- Errors found in code words of a group, added to what is stored there: the environment's input of a read. -/
def State.addErrors (s : State) (g : Nat) (errs : List (Nat × List W16)) : State :=
  s.modDmc g fun d =>
    { d with errs := forEach errs d.errs fun (cw, e) m =>
        let old := mapGet m cw noError
        let new := (natRange 0 10).map fun j => old.getD j 0 ^^^ e.getD j 0
        mapPut m cw new noError }

/-- A group that the variant has and whose controller has power. -/
def State.groupUp (s : State) (g : Nat) : Bool :=
  decide (g < s.variant.groups) && (decide (g < 2) || !(s.dieSt (groupDie g)).islandFailed)

/-- The controller of a group serves it: the package runs and its memory is not in self-refresh (R341, R456). -/
def State.groupServes (s : State) (g : Nat) : Bool := s.groupUp g && decide (s.power.phase = .run)

/-- The merge-buffer entry of group `g` that is to be flushed by its age, which is `merge_age` as it was allocated (R340, R346). -/
def State.agedEntry (s : State) (g : Nat) : Option MergeEntry :=
  (s.dmc g).merge.find? fun e => decide (e.age * 250 ≤ s.nsSince e.since)

/-- An entry of group `g` takes an uncorrectable error of its own, the next to be flushed by its age, or else the oldest; whatever
flushes it meets the error (R340; log 182). -/
def State.spoilEntry (s : State) (g : Nat) : State :=
  let hit := match s.agedEntry g with
    | some e => some e
    | none => (s.dmc g).merge.head?
  match hit with
  | some e => s.modDmc g fun d => { d with merge := d.merge.map fun x => if x.line = e.line then { x with bad := true } else x }
  | none => s

/-- MERGE_AGE_FLUSH (R340): the first entry that has reached its age is flushed; `bad` where an entry shows an uncorrectable error. -/
def mergeAgeFlush (group : Nat) (errs : List (Nat × List W16)) (bad : Bool) (s : State) : State :=
  if s.groupServes group then
    let s1 := s.addErrors group errs
    let s2 := if bad then s1.spoilEntry group else s1
    match s2.agedEntry group with
    | none => s2
    | some e => s2.flushEntry group e
  else s

def execMergeAgeFlush (group : Nat) (errs : List (Nat × List W16)) (bad : Bool) (s : State) : Host.Outcome State Fault Refusal :=
  .next (mergeAgeFlush group errs bad s)

/-- One code word of a scrubbed burst (R341). -/
def State.scrubWord (s : State) (g cw : Nat) : State :=
  let e := s.wordError g cw
  if e = noError ∨ e = clinkerError then s
  else match decodeWord (s.marks g) e with
    | .ok r (some j) =>
      let s1 := s.noteCorrection g j
      s1.putWord g cw (xorBytes (s1.load (dramKey g (cw * 16)) 16) (errorBytes r))
    | .ok _ none => s
    | .uncorrectable => (s.putClinker g cw (s.load (dramKey g (cw * 16)) 16)).noteUe g cw

/-- The current lap of a group has run longer than its limit (R342). -/
def State.lapLong (s : State) (g : Nat) : Bool :=
  s.passedUs (s.dmc g).lapStart (60000000 * (s.dmc g).lapLimit)

/-- A scrub burst may be read (R341): not in self-refresh, nor before the group is rebuilt after DEEP, nor within `scrub_interval` of the
last, as far as a tick of the timebase, 26 ns, tells. -/
def State.scrubs (s : State) (g : Nat) : Bool :=
  let b := dmcBase g
  s.groupServes g && !s.rebuilding && s.flag (Fld.DMC_CTRL_scrub_enable b) &&
    decide (8 * s.fld (Fld.DMC_CTRL_scrub_interval b) ≤ s.nsSince (s.dmc g).lastScrub + 26)

/-- SCRUB_BURST (R341, R342): 16 code words; after the last burst the lap ends. A new lap limit holds from a burst on (R346). -/
def scrubBurst (group : Nat) (errs : List (Nat × List W16)) (s : State) : State :=
  let b := dmcBase group
  if s.scrubs group then
    let s1 := (s.addErrors group errs).modDmc group fun d =>
      { d with lastScrub := s.tb, lapLimit := s.fld (Fld.DMC_CTRL_lap_limit_min b) }
    let pos := s1.fld (Fld.DMC_SCRUB_POS_position b)
    let s2 := forEach (natRange (pos * 16) 16) s1 fun cw t => t.scrubWord group cw
    if pos + 1 = 67108864 then
      let s3 := ((s2.setFld (Fld.DMC_SCRUB_POS_position b) 0).setFld (Fld.DMC_SCRUB_LAP_lap_end b) s2.tb).addFld
        (Fld.DMC_SCRUB_LAPS_laps b) 1
      (s3.setFlag (Fld.DMC_STATUS_lap_overdue b) false).modDmc group fun d => { d with lapCounts := [], lapStart := s2.tb }
    else (s2.setFld (Fld.DMC_SCRUB_POS_position b) (pos + 1)).setFlag (Fld.DMC_STATUS_lap_overdue b) (s2.lapLong group)
  else s

def execScrubBurst (group : Nat) (errs : List (Nat × List W16)) (s : State) : Host.Outcome State Fault Refusal :=
  .next (scrubBurst group errs s)

/-- LAP_OVERDUE (R342). -/
def lapOverdue (group : Nat) (s : State) : State :=
  if s.groupUp group && s.lapLong group then s.setFlag (Fld.DMC_STATUS_lap_overdue (dmcBase group)) true else s

def execLapOverdue (group : Nat) (s : State) : Host.Outcome State Fault Refusal := .next (lapOverdue group s)

/-- The DRAM dies of a group are in training, which a power-up does before memory is ready (R337, R457). -/
def State.groupTrains (s : State) (g : Nat) : Bool := s.groupUp g && decide (s.power.phase = .memory)

/-- DRAM_HEALTH_CHECK (R410): every 10 ms, or at once when due; the positions of failing dies are marked, and so are those of dies that
fail their training. A stack that is lost fails the check of every group (R337). -/
def dramHealthCheck (group : Nat) (failing : List Nat) (s : State) : State :=
  if s.groupTrains group ∨ (s.groupServes group ∧ ((s.dmc group).healthDue ∨ s.passedUs (s.dmc group).healthAt 10000)) then
    let s1 := s.modDmc group fun d => { d with healthDue := false, healthAt := s.tb }
    forEach ((natRange 0 10).filter failing.contains) s1 fun j t => t.markPosition group j
  else s

def execDramHealthCheck (group : Nat) (failing : List Nat) (s : State) : Host.Outcome State Fault Refusal :=
  .next (dramHealthCheck group failing s)

/-! ### Evacuation (R411) -/

/-- Backed and system pages of a group, those in a write set last, in ascending order otherwise. -/
def State.evacPages (s : State) (g : Nat) : List Nat :=
  let mine := s.pages.filterMap fun (n, p) =>
    if p.group = g ∧ (p.state = .backed ∨ p.state = .system) then some n else none
  (mine.filter fun n => !s.pageInWriteSet n) ++ mine.filter s.pageInWriteSet

/-- Pages of a group still backed there. -/
def State.groupEmpty (s : State) (g : Nat) : Bool :=
  s.pages.all fun (_, p) => !(decide (p.group = g) && (decide (p.state = .backed) || decide (p.state = .system)))

/-- Retires an exposed group once its last page has moved: action 8, and EVACUATED to those that had pages in it (R411). -/
def State.retireGroup (s : State) (g : Nat) (e : Evac) : State :=
  let s1 := (s.modDmc g fun d => { d with evac := some { e with retired := true, stalled := false } }).logEvent
    2 8 (groupUnit g) 0
  s1.groupEvent g 4 e.owners

/-- An evacuation's move of a page of a group has not reached its switch, so the next does not begin (R411). -/
def State.evacuating (s : State) (g : Nat) : Bool :=
  s.moves.any fun (_, m) => m.evac && decide (m.oldGroup = g) && (match m.phase with | .forwarding => false | _ => true)

/-- The evacuation of a group begins the move of its next page, which goes on as a move of the bellows does (R329, R411); it retires the
group once no page is left. -/
def State.evacuateOne (s : State) (g : Nat) : State :=
  match (s.dmc g).evac with
  | none => s
  | some e =>
    if e.retired || s.evacuating g then s
    else
      match (s.evacPages g).find? fun n => !(s.page n).migrating && (mapFind s.moves n).isNone && !s.pageInWriteSet n with
      | none =>
        if s.groupEmpty g then s.retireGroup g e
        else s.modDmc g fun d => { d with evac := some { e with since := s.tb } }
      | some n =>
        let target := if s.freeTotal ≤ s.reserves.length then none else
          match (s.groupsByHops (groupDie g)).find? fun x => decide (0 < s.freeCount x) with
          | some x => (s.lowestFrame x).map fun f => (x, f)
          | none => none
        match target with
        | none =>
          let s1 := if e.stalled then s else s.logEvent 2 9 (groupUnit g) 0
          s1.modDmc g fun d => { d with evac := some { e with stalled := true, since := s.tb } }
        | some (x, f) =>
          (s.startMove n x f true).modDmc g fun d => { d with evac := some { e with stalled := false, since := s.tb } }

/-- EVACUATION_PAGE_MOVE (R411): the next page, unless the evacuation waits for a frame. -/
def evacuationPageMove (group : Nat) (s : State) : State :=
  match (s.dmc group).evac with
  | none => s
  | some e => if e.stalled then s else s.evacuateOne group

def execEvacuationPageMove (group : Nat) (s : State) : Host.Outcome State Fault Refusal := .next (evacuationPageMove group s)

/-- EVACUATION_RETRY (R411): a deferred page every 1 ms, a stalled evacuation every 10 ms. -/
def evacuationRetry (group : Nat) (s : State) : State :=
  match (s.dmc group).evac with
  | none => s
  | some e => if s.passedUs e.since (if e.stalled then 10000 else 1000) then s.evacuateOne group else s

def execEvacuationRetry (group : Nat) (s : State) : Host.Outcome State Fault Refusal := .next (evacuationRetry group s)

end Sys2Proof.Machine
end

