-- ==== Sys2Proof/Machine/Clients.lean ====
section
/-! DEFINITION. Clients and rings (R56 to R68, R92, R93, R443): attaching and detaching, doorbell words, ring states, and the
sweeps over doorbell records. -/

namespace Sys2Proof.Machine

/-- Codes of SAF_STATUS `state` (R428). -/
def safStarting : Nat := 0
def safServing : Nat := 1
def safSafe : Nat := 2
def safFailed : Nat := 3

/-- The unit name of the scheduler front end (R31). -/
def unitSched : Nat := unitOf hubDie 0x000

/-- The package is up and the damper has not stopped it (R423). -/
def State.live (s : State) : Bool := s.awake && !s.saf.damped

/-- The scheduler front end serves: the package is up, start-up injection has passed, and the damper has not acted (R412, R423, R428). -/
def State.serving (s : State) : Bool := s.live && decide (s.fld Fld.SAF_STATUS_state = safServing)

/-- The client that SCH_CLIENT_SEL selects (R57). -/
def State.selected (s : State) : Nat := s.fld Fld.SCH_CLIENT_SEL_client

/-- First RingId and number of RingIds of a client (R58). -/
def State.firstRing (s : State) (c : Nat) : Nat := s.fld (Fld.SCH_CLIENT_RINGS_first_ring c)
def State.ringCount (s : State) (c : Nat) : Nat := s.fld (Fld.SCH_CLIENT_RING_COUNT_ring_count c)

/-- RingId `r` lies in the range of client `c`. -/
def State.ringOf (s : State) (c r : Nat) : Bool :=
  decide (s.firstRing c ≤ r) && decide (r < s.firstRing c + s.ringCount c)

/-- Attached clients, in ascending order. -/
def State.attachedClients (s : State) : List Nat :=
  s.regs.filterMap fun (key, _) =>
    if key % 0x8000000 = 0x50118 ∧ 0x8000000 ≤ key ∧ s.attached (key / 0x8000000 - 1) then some (key / 0x8000000 - 1) else none

/-- A new memory key of a client: two independent keys that differ (R432). -/
def State.newMemoryKey (s : State) : State × (Nat × Nat) :=
  let (s1, a) := s.newKey
  let (s2, b) := s1.newKey
  (s2, a, b)

/-! ### Head records (R65) -/

def ringCode : RingState → Nat
  | .disabled => 0
  | .active => 1
  | .quiet => 2
  | .stopping => 3
  | .stopped => 4
  | .error => 5

/-- The head record of a ring written (R65), where a context has given its place. -/
def State.writeHead (s : State) (r : Nat) : State :=
  let x := s.ring r
  match x.headAddr with
  | some a => s.devWrite x.client a
      (leBytes x.head 8 ++ leBytes x.released 8 ++ leBytes (ringCode x.state) 1 ++ leBytes x.error 1 ++ leBytes 0 14)
  | none => s

/-- The waits of a ring under back-pressure counted up to now, and over (R127). -/
def State.endHeld (s : State) (r : Nat) : State :=
  let x := s.ring r
  let s1 := match x.heldWindow with
    | some h => s.acct x.client acWaitWindow (s.usSince h)
    | none => s
  let s2 := match x.heldLedger with
    | some h => s1.acct x.client acWaitLedger (s.usSince h)
    | none => s1
  s2.modRing r fun y => { y with heldWindow := none, heldLedger := none }

/-- Steps of a ring that are in flight. -/
def State.stepsOf (s : State) (r : Nat) : List Step := s.steps.filter fun st => decide (st.ring = r)

/-- A ring set to ERROR, reported and logged (R66, R68, R409). -/
def State.ringError (s : State) (r code : Nat) : State :=
  (((s.endHeld r).modRing r fun x => { x with state := .error, error := code, checked := none }).logRecorded unitSched 0
    (s.ring r).client r).writeHead r

/-- A STOPPING ring with no step left is STOPPED (R92). -/
def State.settleRing (s : State) (r : Nat) : State :=
  if (s.ring r).state = .stopping ∧ (s.stepsOf r).isEmpty then
    (s.modRing r fun x => { x with state := .stopped }).writeHead r
  else s

/-- The least recently used ring beyond 2,048 ACTIVE rings becomes QUIET (R67). -/
def State.limitActive (s : State) : State :=
  let act := s.rings.filter fun (_, x) => decide (x.state = .active)
  if 2048 < act.length then
    match leastBy (fun (p : Nat × Ring) => p.2.lastUse) act with
    | some (r, _) => (s.modRing r fun x => { x with state := .quiet }).writeHead r
    | none => s
  else s

/-- A nudge or an acceptance: the ring is ACTIVE and lately used (R67). -/
def State.wakeRing (s : State) (r : Nat) : State :=
  (s.modRing r fun x => { x with state := if x.state = .quiet then .active else x.state, lastUse := s.tb }).limitActive

/-- STOP applied to a ring (R92): acceptance ends; steps without a tallied command complete CANCELLED. DESIGN CHOICE (log 137): on a
ring that is STOPPING under DRAIN, too, STOP cancels the steps that are draining. -/
def State.stopRing (s : State) (r : Nat) : State :=
  let x := s.ring r
  if x.state = .disabled ∨ x.state = .stopped then s
  else
    let s1 := (s.endHeld r).modRing r fun y => { y with state := .stopping, checked := none }
    let s2 := forEach (s1.stepsOf r) s1 fun st t =>
      if st.cmds.any Cmd.isTallied then t else t.decideStep r st.seq stCancelled 0 0xFF
    (s2.writeHead r).settleRing r

/-! ### Attach and detach (R56, R59, R93) -/

/-- The code of `attach_error` for attaching client `c` to function `fn` (R59): the lowest that applies, 0 where none does. DESIGN
CHOICE (log 138): `ring_count` 0 has no code; such a client attaches with no RingId. -/
def State.attachError (s : State) (c fn : Nat) : Nat :=
  let lo := s.firstRing c
  let hi := lo + s.ringCount c
  if (s.attachedClients.filter fun k => decide (k ≠ c)).any fun k =>
      decide (lo < s.firstRing k + s.ringCount k) && decide (s.firstRing k < hi) then 1
  else if 0x100000 < hi then 2
  else if s.attached c ∨ s.detaching c then 3
  else if !s.flag Fld.SCH_LEDGER_CTRL_enable then 4
  else if s.env.vfs < fn then 5
  else 0

/-- CLIENT_ATTACH (R56, R59): `function` and 1 to `attach` written for the selected client. While the package is in
START_FAILED no client can attach (R414). -/
def clientAttach (function : Nat) (s : State) : State :=
  let c := s.selected
  let fn := function % 64
  let s0 := s.setFld (Fld.SCH_CLIENT_CTRL_function c) fn
  if s.fld Fld.SAF_STATUS_state = safFailed then s0
  else
    let e := s0.attachError c fn
    let s1 := s0.setFld (Fld.SCH_CLIENT_CTRL_attach_error c) e
    if e ≠ 0 then s1
    else
      let (s2, k) := s1.newMemoryKey
      let s3 := { s2 with
        keys := { s2.keys with clientKeys := mapSet s2.keys.clientKeys c k }
        clients := mapSet s2.clients c {}
        rings := s2.rings.filter fun (r, _) => !s2.ringOf c r }
      s3.setFlag (Fld.SCH_CLIENT_CTRL_attached c) true

def execClientAttach (function : Nat) (s : State) : Host.Outcome State Fault Refusal := .next (clientAttach function s)

/-- RingIds of a client's range that have a ring record. -/
def State.ringsOf (s : State) (c : Nat) : List Nat := (s.rings.filter fun (r, _) => s.ringOf c r).map (·.1)

/-! ### Camera channels of a client that leaves (R356) -/

def State.chan (s : State) (c : Nat) : CamChan := mapGet s.cams.chans c {}

def State.modChan (s : State) (c : Nat) (f : CamChan → CamChan) : State :=
  { s with cams := { s.cams with chans := mapPut s.cams.chans c (f (s.chan c)) {} } }

/-- A channel stops; a frame in progress is abandoned without a record (R356). -/
def State.stopChannel (s : State) (c : Nat) : State :=
  let s1 := (s.setFlag (Fld.CAM_CH_CTRL_enable c) false).modChan c fun _ => {}
  { s1 with cams := { s1.cams with lanes := s1.cams.lanes.filter fun (_, x) => decide (x.1 ≠ c) } }

/-- CLIENT_DETACH (R93): STOP to every ring of the selected client, and `detaching`. -/
def clientDetach (s : State) : State :=
  let c := s.selected
  if s.attached c ∧ !s.detaching c then
    let s1 := forEach ((natRange 0 16).filter fun k => decide (s.fld (Fld.CAM_CH_OWNER_client k) = c) &&
      s.flag (Fld.CAM_CH_CTRL_enable k)) s fun k t => t.stopChannel k
    forEach (s.ringsOf c) (s1.setFlag (Fld.SCH_CLIENT_CTRL_detaching c) true) fun r t => t.stopRing r
  else s

def execClientDetach (s : State) : Host.Outcome State Fault Refusal := .next (clientDetach s)

/-! ### Accounting blocks (R126, R127) -/

/-- Waits of a client's rings under back-pressure, counted up to now. -/
def State.chargeWaits (s : State) (c : Nat) : State :=
  forEach (s.ringsOf c) s fun r t =>
    let x := t.ring r
    let t1 := match x.heldWindow with
      | some h => (t.acct c acWaitWindow (t.usSince h)).modRing r fun y => { y with heldWindow := some t.tb }
      | none => t
    match x.heldLedger with
    | some h => (t1.acct c acWaitLedger (t1.usSince h)).modRing r fun y => { y with heldLedger := some t1.tb }
    | none => t1

/-- A client's accounting block written: `generation` odd, the block, `generation` even (R127). -/
def State.writeAcct (s : State) (c : Nat) : State :=
  let base := s.fld (Fld.SCH_CLIENT_ACCT_acct_base c)
  if base = 0 then s
  else
    let s1 := s.chargeWaits c
    let gen := mapGet (s1.client c).acct 8 0
    let s2 := s1.sysWrite hostPf (base + 8) (leBytes (gen + 1) 8)
    let s3 := s2.sysWrite hostPf base (s2.acctBlock c (gen + 2))
    s3.acct c 8 2

/-- ACCT_WRITE (R126): every 1 ms, the accounting block of every attached client. -/
def acctWrite (s : State) : State := forEach s.attachedClients s fun c t => t.writeAcct c

def execAcctWrite (s : State) : Host.Outcome State Fault Refusal := .next (acctWrite s)

/-! ### Doorbell words (R60, R61) -/

/-- A doorbell word counted as rejected (R61, R409). -/
def State.rejectDoorbell (s : State) (c : Nat) : State :=
  if s.attached c then (s.acct c acDoorbell 1).logRecorded unitSched 0 c else s

/-- A write to the doorbell page of client `c` through function `fn` reaches the page (R60). -/
def State.doorbellOpen (s : State) (fn c : Nat) : Bool := decide (fn = 0) || decide (fn = s.ownerFn c)

/-- What a doorbell word does: discarded, rejected, or `act` on its ring. `rsv` says that its reserved field is zero. -/
def State.doorbell (s : State) (fn c : Nat) (word : W32) (rsv : Bool) (act : Nat → State → State) : State :=
  let r := bits word.toNat 0 20
  if !s.doorbellOpen fn c then s
  else if !s.attached c ∨ !s.ringOf c r ∨ !rsv then s.rejectDoorbell c
  else act r s

/-- NUDGE (R67): the record of an ACTIVE or QUIET ring is read. -/
def nudge (function client : Nat) (word : W32) (s : State) : State :=
  s.doorbell function client word (decide (bits word.toNat 20 12 = 0)) fun r t =>
    let x := t.ring r
    if t.serving ∧ (x.state = .active ∨ x.state = .quiet) then
      (t.wakeRing r).modRing r fun y => { y with reading := true }
    else t

def execNudge (function client : Nat) (word : W32) (s : State) : Host.Outcome State Fault Refusal :=
  .next (nudge function client word s)

/-- The address may hold a ring structure: host memory or unified device memory (R62). -/
def State.structAddr (s : State) (a : Nat) : Bool :=
  decide (a < s.deviceEnd) || (decide (hostBase ≤ a) && decide (a < addrEnd))

/-- The rules of R62 for a ring context's 64 bytes. -/
def State.contextOk (s : State) (b : List Byte) : Bool :=
  let at_ := fun o n => leNat ((b.drop o).take n)
  decide (at_ 0 8 % 4096 = 0) && s.structAddr (at_ 0 8) && decide (at_ 8 8 % 4096 = 0) && s.structAddr (at_ 8 8) &&
  decide (at_ 16 8 % 8 = 0) && decide (hostBase ≤ at_ 16 8) && decide (at_ 16 8 < addrEnd) &&
  decide (at_ 24 8 % 32 = 0) && s.structAddr (at_ 24 8) &&
  decide (4 ≤ at_ 32 1) && decide (at_ 32 1 ≤ 16) && decide (at_ 33 1 ≤ 2) && decide (at_ 34 2 ≤ 2047) &&
  decide (at_ 36 28 = 0)

/-- The ring is the wake ring of the wake client, on which START is ignored (R392). -/
def State.isWakeRing (s : State) (c r : Nat) : Bool :=
  (s.flag Fld.WAK_CTRL_tinder_enable || s.flag Fld.WAK_CTRL_kindling_enable) &&
    decide (s.fld Fld.WAK_CLIENT_client = c) && decide (s.fld Fld.WAK_CLIENT_wake_ring = r)

/-- The address for the head record in a ring context that was read but breaks a rule (log 140). -/
def State.contextHead (s : State) (b : List Byte) (old : Option Nat) : Option Nat :=
  let a := leNat ((b.drop 24).take 8)
  if a % 32 = 0 ∧ s.structAddr a then some a else old

/-- START on a ring (R66). -/
def State.startRing (s : State) (c r : Nat) : State :=
  let x := s.ring r
  if x.state = .active ∨ x.state = .quiet ∨ x.state = .stopping then s
  else
    let s0 := (s.modRing r fun y => { y with client := c }).fetchHub (s.fld (Fld.SCH_CLIENT_RCT_rct_base c) + (r - s.firstRing c) * 64) 64
    match s.cread c (s.fld (Fld.SCH_CLIENT_RCT_rct_base c) + (r - s.firstRing c) * 64) 64 with
    | .error _ => s0.ringError r 3
    | .ok b =>
      if s.contextOk b then
        let at_ := fun o n => leNat ((b.drop o).take n)
        ((s0.modRing r fun y =>
          { y with
            stepBase := at_ 0 8, cplBase := at_ 8 8, dbAddr := at_ 16 8, headAddr := some (at_ 24 8), log2 := at_ 32 1
            irqMode := at_ 33 1, vector := at_ 34 2, state := .active, error := 0, lastUse := s.tb, checked := none }).limitActive
          ).writeHead r
      else (s0.modRing r fun y => { y with headAddr := s.contextHead b y.headAddr }).ringError r 1

/-- A ring-control word (R60): the operation is that of the command, and any other value of the field is ignored. -/
def State.ringControl (s : State) (fn c : Nat) (word : W32) (op : Nat) (act : Nat → State → State) : State :=
  s.doorbell fn c word (decide (bits word.toNat 24 8 = 0)) fun r t =>
    if bits word.toNat 20 4 = op then act r t else t

/-- RING_START (R66); held while device memory is being rebuilt (R459). DESIGN CHOICE (log 139): a STOPPED ring of a client that is
detaching starts as any other. -/
def ringStart (function client : Nat) (word : W32) (s : State) : State :=
  s.ringControl function client word 1 fun r t =>
    if t.isWakeRing client r then t
    else if t.rebuilding then { t with power := { t.power with heldStarts := t.power.heldStarts ++ [(client, r)] } }
    else t.startRing client r

def execRingStart (function client : Nat) (word : W32) (s : State) : Host.Outcome State Fault Refusal :=
  .next (ringStart function client word s)

/-- RING_STOP (R92). -/
def ringStop (function client : Nat) (word : W32) (s : State) : State :=
  s.ringControl function client word 2 fun r t => t.stopRing r

def execRingStop (function client : Nat) (word : W32) (s : State) : Host.Outcome State Fault Refusal :=
  .next (ringStop function client word s)

/-- RING_DRAIN (R92). -/
def ringDrain (function client : Nat) (word : W32) (s : State) : State :=
  s.ringControl function client word 3 fun r t =>
    let x := t.ring r
    if x.state = .disabled ∨ x.state = .stopped ∨ x.state = .stopping then t
    else (((t.endHeld r).modRing r fun y => { y with state := .stopping, checked := none }).writeHead r).settleRing r

def execRingDrain (function client : Nat) (word : W32) (s : State) : Host.Outcome State Fault Refusal :=
  .next (ringDrain function client word s)

/-! ### Sweeps and doorbell records (R67, R68) -/

/-- ACTIVE_SWEEP (R67): the record of every ACTIVE ring is read. -/
def activeSweep (s : State) : State :=
  if s.serving then
    { s with rings := s.rings.map fun (r, x) => if x.state = .active then (r, { x with reading := true }) else (r, x) }
  else s

def execActiveSweep (s : State) : Host.Outcome State Fault Refusal := .next (activeSweep s)

/-- QUIET_SWEEP (R67): the record of the next QUIET ring of the rotation is read. -/
def quietSweep (s : State) : State :=
  let q := (s.rings.filter fun (_, x) => decide (x.state = .quiet)).map (·.1)
  let next := match q.find? fun r => decide (s.sweepAt < r) with
    | some r => some r
    | none => q.head?
  match next with
  | some r => if s.serving then { s.modRing r (fun x => { x with reading := true }) with sweepAt := r } else s
  | none => s

def execQuietSweep (s : State) : Host.Outcome State Fault Refusal := .next (quietSweep s)

/-- RING_QUIET_TIMEOUT (R67): 10 ms without a nudge or an acceptance. -/
def ringQuietTimeout (ring : Nat) (s : State) : State :=
  let x := s.ring ring
  if x.state = .active ∧ s.passedUs x.lastUse 10000 then
    (s.modRing ring fun y => { y with state := .quiet }).writeHead ring
  else s

def execRingQuietTimeout (ring : Nat) (s : State) : Host.Outcome State Fault Refusal := .next (ringQuietTimeout ring s)

/-- DOORBELL_READ (R68): a read of a doorbell record completes. A tail below the highest that was read is ignored; one that overruns
the ring is kept as the highest, too (log 128). -/
def doorbellRead (ring : Nat) (s : State) : State :=
  let x := s.ring ring
  if x.reading ∧ s.serving ∧ !s.pageCmdResumed ∧ (x.state = .active ∨ x.state = .quiet) then
    let s1 := (s.modRing ring fun y => { y with reading := false }).fetchHub x.dbAddr 8
    match s1.cread64 x.client x.dbAddr with
    | .error _ => s1.ringError ring 3
    | .ok t =>
      let s2 := s1.modRing ring fun y => { y with tail := t }
      if t < x.tail then s1
      else if 2 ^ x.log2 < t - x.released then s2.ringError ring 2
      else s2
  else s

def execDoorbellRead (ring : Nat) (s : State) : Host.Outcome State Fault Refusal := .next (doorbellRead ring s)

end Sys2Proof.Machine
end

