-- ==== Sys2Proof/Machine/Steps.lean ====
section
/-! DEFINITION. Steps from the ring to their completion record: the checks of R73 and R524, acceptance (R76), the refusals of
R121 to R124, release (R84), and step budgets (R125). -/

namespace Sys2Proof.Machine

/-! ### Reading a step (R69 to R73) -/

/-- `n` bytes of `b` at offset `o`, as a number. -/
def atOff (b : List Byte) (o n : Nat) : Nat := leNat ((b.drop o).take n)

/-- A byte that the scheduler front end reads for client `c`: whose page it is, is the business of check 3, and a page that is not
backed reads zero here (DEDUCED, log 21). -/
def State.feByte (s : State) (c a : Nat) : Except Nat Byte :=
  match s.sysByte c a with
  | .error 0x0D03 => .ok 0
  | x => x

def State.feRead (s : State) (c a n : Nat) : Except Nat (List Byte) := readAll (s.feByte c) a n

/-- A command of the list as read: its 64 bytes, program, card table and publication list. -/
structure CmdRead where
  raw : List Byte
  prog : List Byte
  table : List Byte
  pubs : List Byte
  deriving DecidableEq, Repr

/-- A size as it counts for a read: one out of its range is not read, and fails check 2 (DEDUCED, log 21). -/
def inSize (n hi : Nat) : Nat := if n ≤ hi then n else 0

/-- The structures of one command. -/
def State.readCmd (s : State) (c a : Nat) : Except Nat CmdRead :=
  match s.feRead c a 64 with
  | .error d => .error d
  | .ok raw =>
    match s.feRead c (atOff raw 8 8) (16 * inSize (atOff raw 16 4) 65536),
          s.feRead c (atOff raw 24 8) (64 * inSize (atOff raw 20 1) 64),
          s.feRead c (atOff raw 48 8) (16 * inSize (atOff raw 56 1) 16) with
    | .ok p, .ok t, .ok q => .ok ⟨raw, p, t, q⟩
    | _, _, _ => .error 0x0501

/-- A failed check: status, detail and `fail_index`. -/
structure Reject where
  status : Nat
  detail : Nat
  index : Nat
  deriving DecidableEq, Repr

/-- Commands read in order: the first that cannot be read is at fault (R73). -/
def State.readCmds (s : State) (c base : Nat) : List Nat → Except Reject (List CmdRead)
  | [] => .ok []
  | i :: is =>
    match s.readCmd c (base + 64 * i) with
    | .error _ => .error ⟨stFaultDescriptor, 0x0501, i⟩
    | .ok x =>
      match s.readCmds c base is with
      | .error e => .error e
      | .ok xs => .ok (x :: xs)

/-! ### Check 2 -/

/-- The widest command of a kind (R71). -/
def maxWidth (kind : Nat) : Nat := kindEngines kind

/-- The rules of check 2 for a descriptor (R70, R73). -/
def descOk (d : List Byte) (ring seq : Nat) : Bool :=
  let fl := atOff d 10 1
  decide (atOff d 0 8 = seq) && decide (1 ≤ atOff d 8 2) && decide (atOff d 8 2 ≤ 256) && decide (bits fl 4 4 = 0) &&
  decide (atOff d 11 1 = 0) && decide (atOff d 16 8 % 64 = 0) && (!bit fl 2 || decide (atOff d 24 8 ≠ 0)) &&
  decide (bits (atOff d 40 4) 20 12 = 0) && decide (atOff d 44 4 = 0) && decide (atOff d 56 8 = 0) &&
  (!bit fl 1 || decide (bits (atOff d 40 4) 0 20 ≠ ring))

/-- The rules of check 2 for the fields of command `i` (R71, R73). -/
def cmdOk (v : Variant) (b : List Byte) (i : Nat) : Bool :=
  let kind := atOff b 2 1
  let fl := atOff b 4 1
  let nd := atOff b 5 1
  let nc := atOff b 20 1
  decide (atOff b 0 2 = i) && decide (kind ≤ 6) && (decide (kind ≠ 6) || decide (v = .vxp8)) &&
  decide (1 ≤ atOff b 3 1) && decide (atOff b 3 1 ≤ maxWidth kind) && decide (bits fl 0 2 ≠ 3) &&
  (!bit fl 2 || decide (kind = 0)) && decide (bits fl 3 5 = 0) && decide (nd ≤ 8) && decide (atOff b 6 2 = 0) &&
  decide (atOff b 8 8 % 16 = 0) && decide (1 ≤ atOff b 16 4) && decide (atOff b 16 4 ≤ 65536) && decide (1 ≤ nc) &&
  decide (nc ≤ 64) && decide (atOff b 21 3 = 0) && decide (atOff b 24 8 % 64 = 0) &&
  (natRange 0 8).all (fun k => if k < nd then decide (atOff b (32 + k) 1 < i) else decide (atOff b (32 + k) 1 = 0)) &&
  decide (atOff b 40 8 < 2 ^ nc) && decide (atOff b 57 7 = 0)

/-- The rules of check 2 for a command's publication list (R71, R72). -/
def pubsOk (b pubs : List Byte) : Bool :=
  let n := atOff b 56 1
  decide (n ≤ 16) && decide (atOff b 48 8 % 16 = 0) && (decide (n ≠ 0) || decide (atOff b 48 8 = 0)) &&
  (natRange 0 (inSize n 16)).all fun k => decide (atOff pubs (16 * k) 8 % 8 = 0)

/-- The cards of a table. -/
def tableCards (t : List Byte) : List Card := (natRange 0 (t.length / 64)).map fun k => parseCard ((t.drop (64 * k)).take 64)

/-- The rules for card `k` of a resident command (R207). -/
def residentCard (mask width k : Nat) (c : Card) : Bool :=
  match k with
  | 0 =>
    decide (c.cls = 4) && decide (c.tier = 1) && decide (c.typ = 9) && decide (c.dims = 1) && decide (c.ext 0 = 32768 * width) && bit mask 0
  | 1 =>
    decide (c.cls = 4) && decide (c.tier = 2) && decide (c.typ = 10) && decide (c.dims = 1) && decide (c.ext 0 = 16) &&
    decide (c.base % 64 = 0) && !bit mask 1
  | _ => true

/-- The detail with which check 2 refuses a command for card `k`, if it does (R524). -/
def State.cardDetail (s : State) (cl : Nat) (x : CmdRead) (k : Nat) : Option Nat :=
  let mask := atOff x.raw 40 8
  let c := parseCard ((x.table.drop (64 * k)).take 64)
  if !(cardReservedOk ((x.table.drop (64 * k)).take 64) && s.cardOk cl c (bit mask k) && c.classOk) then some 0x0404
  else if bit (atOff x.raw 4 1) 2 && !residentCard mask (atOff x.raw 3 1) k c then some 0x0605
  else none

/-- The first index of a list at which `f` gives a detail. -/
def firstDetail (f : Nat → Option Nat) : List Nat → Option (Nat × Nat)
  | [] => none
  | i :: is => match f i with
    | some d => some (d, i)
    | none => firstDetail f is

/-- The detail with which check 2 refuses command `i`, if it does: the first failure in ascending order of its cards decides (R524). -/
def State.check2 (s : State) (cl : Nat) (x : CmdRead) (i : Nat) : Option Nat :=
  let n := (tableCards x.table).length
  if !cmdOk s.variant x.raw i then some 0x0502
  else match firstDetail (s.cardDetail cl x) (natRange 0 n) with
    | some (d, _) => some d
    | none =>
      if bit (atOff x.raw 4 1) 2 && decide (n < 2) then some 0x0605
      else if !pubsOk x.raw x.pubs then some 0x0502
      else none

/-- The sizes of every ALLOC of a program, in granules (R144); `fuel` bounds its instructions. -/
def allocSum : Nat → List Byte → Nat
  | 0, _ => 0
  | fuel + 1, p =>
    match p with
    | [] => 0
    | op :: _ => (if op = 0x05 then atOff p 4 2 else 0) + allocSum fuel (p.drop 16)

/-- A command as its structures give it. -/
def parseCmd (addr : Nat) (x : CmdRead) : Cmd :=
  let b := x.raw
  { index := atOff b 0 2, kind := atOff b 2 1, width := atOff b 3 1, reuse := bits (atOff b 4 1) 0 2
    resident := bit (atOff b 4 1) 2, deps := (natRange 0 (atOff b 5 1)).map fun k => atOff b (32 + k) 1
    program := atOff b 8 8, programLen := atOff b 16 4, cards := tableCards x.table, writeMask := atOff b 40 8
    pubList := atOff b 48 8, pubCount := atOff b 56 1, addr := addr
    hearthUse := allocSum (atOff b 16 4) x.prog }

/-- L4 use of a command in 4 KiB units (R324). -/
def State.l4UseOf (s : State) (cl : Nat) (c : Cmd) : Nat :=
  (c.cards.map fun k => if k.tier = 3 then
    ceilDiv (((s.cardRanges cl k).map (·.2)).foldl (· + ·) 0) 4096 else 0).foldl (· + ·) 0

/-! ### Checks 3 and 4 -/

/-- The first detail of a list of ranges that check 3 refuses. -/
def State.firstFault (s : State) (c : Nat) : List (Nat × Nat) → Option Nat
  | [] => none
  | r :: rs => match s.rangeFault c r with
    | some d => some d
    | none => s.firstFault c rs

/-- The detail with which check 3 refuses a publication target (R72). -/
def State.targetFault (s : State) (c t : Nat) : Option Nat :=
  match s.rangeFault c (t, 8) with
  | some d => some d
  | none => if t < s.deviceEnd then none else some 0x0D03

/-- Publication targets in a list's bytes. -/
def targetsIn (pubs : List Byte) : List Nat := (natRange 0 (pubs.length / 16)).map fun k => atOff pubs (16 * k) 8

/-- The first target that check 3 refuses. -/
def State.firstTarget (s : State) (c : Nat) : List Nat → Option Nat
  | [] => none
  | t :: ts => match s.targetFault c t with
    | some d => some d
    | none => s.firstTarget c ts

/-- The detail with which check 3 refuses a command: its entry of the command list and its card table, read for it, are held against
R308 like its cards, program and publication list (DEDUCED, log 130). -/
def State.check3 (s : State) (cl : Nat) (c : Cmd) (x : CmdRead) : Option Nat :=
  match s.firstFault cl ((c.addr, 64) :: (c.program, 16 * c.programLen) :: (atOff x.raw 24 8, 64 * c.cards.length) ::
      c.cards.flatMap (s.cardRanges cl) ++ [(c.pubList, 16 * c.pubCount)]) with
  | some d => some d
  | none => s.firstTarget cl (targetsIn x.pubs)

/-- Byte ranges that a command writes, its publication list among them, and those that it touches (R73). -/
def State.writtenRanges (s : State) (cl : Nat) (c : Cmd) : List (Nat × Nat) :=
  c.writeCards.flatMap (s.cardRanges cl) ++ [(c.pubList, 16 * c.pubCount)]
def State.touchedRanges (s : State) (cl : Nat) (c : Cmd) : List (Nat × Nat) :=
  c.cards.flatMap (s.cardRanges cl) ++ [(c.pubList, 16 * c.pubCount)]

/-- Within a command, no write-set card overlaps another card, and its publication list overlaps none. -/
def State.selfAlias (s : State) (cl : Nat) (c : Cmd) : Bool :=
  let fps := c.cards.map (s.cardRanges cl)
  listsMeet [(c.pubList, 16 * c.pubCount)] (c.cards.flatMap (s.cardRanges cl)) ||
  (natRange 0 fps.length).any fun i => c.writes i && (natRange 0 fps.length).any fun j =>
    decide (i ≠ j) && listsMeet (fps.getD i []) (fps.getD j [])

/-- Two unordered commands meet where one writes or publishes (R73). -/
def State.pairAlias (s : State) (cl : Nat) (a b : Cmd) (ta tb : List Nat) : Bool :=
  let wa := s.writtenRanges cl a
  let wb := s.writtenRanges cl b
  listsMeet wa (s.touchedRanges cl b) || listsMeet wb (s.touchedRanges cl a) || ta.any tb.contains ||
  listsMeet (ta.map fun t => (t, 8)) wb || listsMeet (tb.map fun t => (t, 8)) wa

/-- Command `i` breaks check 4. -/
def State.check4 (s : State) (cl : Nat) (cmds : List Cmd) (targets : List (List Nat)) (i : Nat) : Bool :=
  let c := cmds.getD i {}
  s.selfAlias cl c || (natRange 0 cmds.length).any fun j =>
    decide (j ≠ i) && unordered cmds i j && s.pairAlias cl c (cmds.getD j {}) (targets.getD i []) (targets.getD j [])

/-- The descriptor's fields in a step (R70). -/
def descStep (d : List Byte) (client ring seq : Nat) : Step :=
  let fl := atOff d 10 1
  { ring := ring, seq := seq, client := client, serial := bit fl 0, fence := bit fl 1, refuseIfLate := bit fl 2
    notify := bit fl 3, budgetUs := atOff d 12 4, deadline := atOff d 24 8, userTag := atOff d 32 8
    fenceRing := bits (atOff d 40 4) 0 20, fenceSeq := atOff d 48 8 }

/-- A checked step that has failed a check (R73). -/
def rejectStep (st : Step) (r : Reject) : Step :=
  { st with status := some r.status, detail := r.detail, failIndex := r.index, cmds := [] }

/-- The commands of a step that has passed check 1. -/
def State.parseCmds (s : State) (cl base : Nat) (xs : List CmdRead) : List Cmd :=
  (natRange 0 xs.length).map fun i =>
    let c := parseCmd (base + 64 * i) (xs.getD i ⟨[], [], [], []⟩)
    { c with l4Use := s.l4UseOf cl c }

/-- Checks 2 to 4 on a step that has passed check 1, its descriptor read at `da` (R73, R524). -/
def State.checkRead (s : State) (cl ring seq da : Nat) (d : List Byte) (xs : List CmdRead) : Step :=
  let st := descStep d cl ring seq
  let at_ := fun i => xs.getD i ⟨[], [], [], []⟩
  let idx := natRange 0 xs.length
  if !descOk d ring seq then rejectStep st ⟨stFaultDescriptor, 0x0502, 0xFF⟩
  else match firstDetail (fun i => s.check2 cl (at_ i) i) idx with
    | some (e, i) => rejectStep st ⟨stFaultDescriptor, e, i⟩
    | none =>
      let cmds := s.parseCmds cl (atOff d 16 8) xs
      if st.fence ∧ !s.ringOf cl st.fenceRing then rejectStep st ⟨stFaultAccess, 0x0503, 0xFF⟩
      else match s.rangeFault cl (da, 64) with
        | some e => rejectStep st ⟨stFaultAccess, e, 0xFF⟩
        | none => match firstDetail (fun i => s.check3 cl (cmds.getD i {}) (at_ i)) idx with
          | some (e, i) => rejectStep st ⟨stFaultAccess, e, i⟩
          | none =>
            let ts := xs.map fun x => targetsIn x.pubs
            match firstDetail (fun i => if s.check4 cl cmds ts i then some 0x0504 else none) idx with
            | some (e, i) => rejectStep st ⟨stFaultAlias, e, i⟩
            | none => { st with cmds := cmds }

/-- The step at the head of a ring, read and checked (R73). The tag of a descriptor that cannot be read is a free value. -/
def State.checkStep (s : State) (r : Nat) : State × Step :=
  let x := s.ring r
  let da := x.stepBase + x.head % 2 ^ x.log2 * 64
  match s.feRead x.client da 64 with
  | .error _ =>
    let (s1, tag) := s.drawWord
    (s1, rejectStep { ring := r, seq := x.head, client := x.client, userTag := tag } ⟨stFaultDescriptor, 0x0501, 0xFF⟩)
  | .ok d =>
    let n := inSize (atOff d 8 2) 256
    let base := atOff d 16 8
    let listGone := (natRange 0 n).all fun i => match s.feRead x.client (base + 64 * i) 64 with | .ok _ => false | .error _ => true
    if n ≠ 0 ∧ listGone then (s, rejectStep (descStep d x.client r x.head) ⟨stFaultDescriptor, 0x0501, 0xFF⟩)
    else match s.readCmds x.client base (natRange 0 n) with
      | .error e => (s, rejectStep (descStep d x.client r x.head) e)
      | .ok xs => (s, s.checkRead x.client r x.head da d xs)

/-- What the front end reads to check the step at the head of a ring: its descriptor, its command list, and each command's program, card
table and publication list. -/
def State.stepReads (s : State) (r : Nat) : List (Nat × Nat) :=
  let x := s.ring r
  let da := x.stepBase + x.head % 2 ^ x.log2 * 64
  (da, 64) :: match s.feRead x.client da 64 with
    | .error _ => []
    | .ok d => (natRange 0 (inSize (atOff d 8 2) 256)).flatMap fun i =>
        let a := atOff d 16 8 + 64 * i
        (a, 64) :: match s.feRead x.client a 64 with
          | .error _ => []
          | .ok raw => [(atOff raw 8 8, 16 * inSize (atOff raw 16 4) 65536), (atOff raw 24 8, 64 * inSize (atOff raw 20 1) 64),
              (atOff raw 48 8, 16 * inSize (atOff raw 56 1) 16)]

/-- The ring takes steps (R67). -/
def Ring.accepts (x : Ring) : Bool := decide (x.state = .active) || decide (x.state = .quiet)

/-- STEP_CHECK (R73, R77): the step at `head`, covered by the tail and not yet checked. -/
def stepCheck (ring : Nat) (s : State) : State :=
  let x := s.ring ring
  if s.serving ∧ x.accepts ∧ x.head < x.tail ∧ x.checked.isNone then
    let (s1, st) := (forEach (s.stepReads ring) s fun (a, n) t => t.fetchHub a n).checkStep ring
    s1.modRing ring fun y => { y with checked := some st }
  else s

def execStepCheck (ring : Nat) (s : State) : Host.Outcome State Fault Refusal := .next (stepCheck ring s)

/-! ### Refusals (R121 to R124, R323, R324) -/

/-- New pages of a step (R324), each once. -/
def State.newPages (s : State) (st : Step) : List Nat :=
  let touched := st.cmds.flatMap fun c => c.writeCards.flatMap fun k => (s.cardRanges st.client k).flatMap s.pagesOf
  let fresh := touched.filter fun n => decide ((s.page n).state = .granted) && (mapFind s.reserves n).isNone
  (forEach fresh ([] : NMap Unit) fun n m => mapSet m n ()).map (·.1)

/-- The quota detail of R121 to R123, if a quota is exceeded. -/
def State.quotaDetail (s : State) (st : Step) : Option Nat :=
  let c := st.client
  if st.cmds.any fun k => decide (s.fld (Fld.SCH_CLIENT_QUOTA_H_quota_hearth c) < k.hearthUse) then some 0x0001
  else if s.fld (Fld.SCH_CLIENT_QUOTA_P_quota_pages c) < s.pagesBacked c + s.pagesReserved c + (s.newPages st).length then
    some 0x0002
  else if st.cmds.any fun k => decide (s.fld (Fld.SCH_CLIENT_QUOTA_L4_quota_host c) < k.l4Use) then some 0x0003
  else none

/-- The mean dispatch wait of a client for a kind in ns (R123). -/
def State.meanWait (s : State) (c kind : Nat) : Nat :=
  let done := (s.client c).waits.filterMap fun (k, t, w) => if k = kind ∧ !s.passedUs t 1000 then some w else none
  let open_ := s.steps.flatMap fun st => if st.client = c then
    st.cmds.filterMap fun k => match k.readySince with
      | some t => if k.kind = kind ∧ k.isWaiting then some (s.nsSince t) else none
      | none => none
    else []
  let all := done ++ open_
  if all.isEmpty then 0 else all.foldl (· + ·) 0 / all.length

/-- A client's cost estimate for a command in ns (R123). -/
def State.costOf (s : State) (cl : Nat) (c : Cmd) : Nat :=
  match (s.client cl).costs.find? fun k => decide (k.program = c.program) && decide (k.width = c.width) with
  | some k => k.avgNs
  | none => 0

/-- Longest chain to each command of a list, in ns: the commands before `done` have theirs in `acc`. -/
def chains (own : Cmd → Nat) : List Cmd → List Nat → List Nat
  | [], acc => acc
  | c :: cs, acc =>
    let base := (c.deps.map fun d => acc.getD d 0).foldl max 0
    chains own cs (acc ++ [base + own c])

/-- Reserved pages that a step still waits for. -/
def State.stepReserved (s : State) (st : Step) : Nat :=
  (s.reserves.filter fun (n, _) => st.cmds.any fun c => c.cards.any fun k =>
    (s.cardRanges st.client k).any fun r => (s.pagesOf r).contains n).length

/-- The predicted commit time in ticks (R123). The time still needed to back reserved pages is estimated as their zeroing
times spread over the groups (DESIGN CHOICE, log 22). -/
def State.predicted (s : State) (st : Step) : Nat :=
  let own := fun (c : Cmd) => if c.dispatched then 0 else s.meanWait st.client c.kind + s.costOf st.client c
  let back := ceilDiv (s.stepReserved st) s.variant.groups * backNs
  let ns := back + (chains own st.cmds []).foldl max 0
  s.tb + (ns * 24 + 624) / 625

/-- The deadline detail of R122, if the step is refused for its deadline. -/
def State.deadlineDetail (s : State) (st : Step) : Option Nat :=
  if !st.refuseIfLate then none
  else if st.deadline < s.tb then some 0x0102
  else if st.deadline < s.predicted st then some 0x0101
  else none

/-- A kind is overloaded (R124). -/
def State.overloaded (s : State) (kind : Nat) : Bool :=
  let limit := s.fld Fld.SCH_SHED_shed_wait_us
  s.steps.any fun st => st.cmds.any fun c => decide (c.kind = kind) && c.isWaiting &&
    (match c.readySince with | some t => decide (1000 * limit < s.nsSince t) | none => false)

/-- The step is shed (R121). -/
def State.shed (s : State) (st : Step) : Bool :=
  decide (s.fld (Fld.SCH_CLIENT_CLASS_class st.client) = 3) && s.flag Fld.SCH_SHED_shed_enable &&
  st.cmds.any fun c => s.overloaded c.kind

/-- A step refused before its first dispatch (R122). -/
def State.refuse (s : State) (st : Step) (status detail : Nat) : State :=
  s.decideStep st.ring st.seq status detail 0xFF

/-- The refusals of R121 that may fall before the first dispatch, deadline before load: status and detail. -/
def State.lateReason (s : State) (st : Step) : Option (Nat × Nat) :=
  match s.deadlineDetail st with
  | some d => some (stRefusedDeadline, d)
  | none => if s.shed st then some (stRefusedLoad, 0x0201) else none

/-- A step refused for its deadline or by shedding, where it is. -/
def State.refuseLate (s : State) (st : Step) : State :=
  match s.lateReason st with
  | some (status, d) => s.refuse st status d
  | none => s

/-- Quota and frames at acceptance, then deadline and load, with the time to back the step's new pages in the prediction (R123); a
step that stands has those pages reserved (R324). -/
def State.takeIn (s : State) (st : Step) : State :=
  match s.quotaDetail st with
  | some d => s.refuse st stRefusedQuota d
  | none =>
    let new := s.newPages st
    if s.freeTotal - s.reserves.length < new.length then s.refuse st stRefusedLoad 0x0203
    else
      let s1 := { s with reserves := forEach new s.reserves fun n m => mapSet m n { client := st.client, since := s.tb } }
      match s1.lateReason st with
      | some (status, d) => s.refuse st status d
      | none => s1.refreshReady

/-- Acceptance of the checked step of a ring (R76). -/
def State.acceptStep (s : State) (ring : Nat) (st : Step) : State :=
  let s0 := s.chargeWaits st.client
  let s1 := State.breakResleep { s0 with steps := s0.steps ++ [{ st with acceptedAt := s0.tb }] }
  let s2 := s1.modRing ring fun y =>
    { y with head := y.head + 1, checked := none, heldWindow := none, heldLedger := none }
  let s3 := (((s2.wakeRing ring).noteCommit ring).writeHead ring).packet 0x10 unitSched st.client
    (seqRing st.seq ring ++ leBytes st.cmds.length 2)
  match st.status with
  | some _ => s3
  | none => s3.takeIn st

/-- STEP_ACCEPT (R76): the checked step is accepted, or the condition that holds it is noted for the wait counters (R127). -/
def stepAccept (ring : Nat) (s : State) : State :=
  let x := s.ring ring
  match x.checked with
  | none => s
  | some st =>
    if !(s.serving && x.accepts && decide (x.head < x.tail)) then s
    else if 256 ≤ x.head - x.released then
      s.modRing ring fun y => { y with heldWindow := some (y.heldWindow.getD s.tb) }
    else if 8192 ≤ s.steps.length then
      s.modRing ring fun y => { y with heldLedger := some (y.heldLedger.getD s.tb) }
    else s.acceptStep ring st

def execStepAccept (ring : Nat) (s : State) : Host.Outcome State Fault Refusal := .next (stepAccept ring s)

/-- REFUSAL_RECHECK (R121): deadline and shedding again, until the first dispatch. -/
def refusalRecheck (ring seq : Nat) (s : State) : State :=
  match s.step? ring seq with
  | some st => if st.committed || st.dispatched || !s.serving then s else s.refuseLate st
  | none => s

def execRefusalRecheck (ring seq : Nat) (s : State) : Host.Outcome State Fault Refusal := .next (refusalRecheck ring seq s)

/-! ### Release (R84) -/

/-- The step of a ring that is to be released next, where it is releasable. -/
def State.releasable (s : State) (ring : Nat) : Option (Step × Nat) :=
  match s.step? ring (s.ring ring).released with
  | some st => match st.status with
    | some code => if st.watching.isEmpty then some (st, code) else none
    | none => none
  | none => none

/-- Back-pressure that has ended counts no longer (R127): rings whose reorder window, or whose package's ledger, has room again. -/
def State.settleHeld (s : State) : State :=
  forEach s.rings s fun (r, x) t =>
    if (x.heldWindow.isSome ∧ x.head - x.released < 256) ∨ (x.heldLedger.isSome ∧ s.steps.length < 8192) then t.endHeld r else t

/-- One step released: record, `released`, interrupt (R84), and its counters (R127). -/
def State.releaseStep (s : State) (ring : Nat) (st : Step) (code : Nat) : State :=
  let x := s.ring ring
  let s1 := s.devWrite x.client (x.cplBase + st.seq % 2 ^ x.log2 * 32) (st.record code (s.usSince st.acceptedAt))
  let s2 := { s1 with steps := s1.steps.filter fun y => !(decide (y.ring = ring) && decide (y.seq = st.seq)) }
  let s3 := (s2.modRing ring fun y => { y with released := st.seq + 1 }).noteCommit ring
  let s4 := ((s3.acctRelease x.client code).writeHead ring).packet 0x15 unitSched x.client
    (seqRing st.seq ring ++ leBytes code 1 ++ leBytes st.cflags 1)
  let s5 := if x.irqMode = 1 ∨ (x.irqMode = 2 ∧ st.notify) then s4.msix (s4.ownerFn x.client) x.vector else s4
  ((s5.settleRing ring).settleHeld).refreshReady

/-- STEP_RELEASE (R84): the next step of a ring, once releasable. In the safe state nothing is released (R423). -/
def stepRelease (ring : Nat) (s : State) : State :=
  match s.releasable ring with
  | some (st, code) => if s.serving then s.releaseStep ring st code else s
  | none => s

def execStepRelease (ring : Nat) (s : State) : Host.Outcome State Fault Refusal := .next (stepRelease ring s)

/-! ### Budgets (R125) -/


/-- The lowest-indexed untallied command of a step. -/
def Step.lowestUntallied (st : Step) : Nat :=
  match st.cmds.find? fun c => !c.isTallied with
  | some c => c.index
  | none => 0xFF

/-- The reaction to an expired budget (R125). -/
def State.overBudget (s : State) (st : Step) : State :=
  let s1 := (s.acct st.client acBudgetOver 1).modStep st.ring st.seq fun x => { x with budgetDone := true }
  let r := s.reactionOf st.client
  if r = 0 then (s1.modStep st.ring st.seq fun x => { x with budgetOver := true }).refreshReady
  else
    let s2 := s1.decideStep st.ring st.seq stFaultTimeout 0x0E03 st.lowestUntallied
    let s3 := s2.logEvent 1 2 s2.unitPrimary 0x0E03 st.client st.seq st.ring
    if r = 2 then s3.escalate else s3

/-- A step's budget has expired. -/
def State.budgetExpired (s : State) (st : Step) : Bool := !st.committed && s.budgetSpent st

/-- Budgets of every step, in order of acceptance. -/
def State.checkBudgets (s : State) : State :=
  forEach s.steps s fun st t =>
    match t.step? st.ring st.seq with
    | some x => if t.budgetExpired x then t.overBudget x else t
    | none => t

/-- BUDGET_CHECK (R125). -/
def budgetCheck (s : State) : State := if s.serving then s.checkBudgets else s

def execBudgetCheck (s : State) : Host.Outcome State Fault Refusal := .next (budgetCheck s)

end Sys2Proof.Machine
end

