-- ==== Sys2Proof/Machine/Place.lean ====
section
/-! DEFINITION. The scheduler and the dispatchers: placement (R101 to R104, R209), control messages (R106, R107, R114), the tally
(R72, R78 to R81, R210), virtual time (R99), pre-emption (R112, R113), self-test windows (R117 to R120), and epochs (R109, R110). -/

namespace Sys2Proof.Machine

/-- The unit name of the tally unit (R31). -/
def unitTally : Nat := unitOf hubDie 0x001

/-! ### Self-tests that fall due (R117 to R119) -/

/-- Kind and number of an engine's unit number. -/
def engineOf (d u : Nat) : Option (Nat × Nat) :=
  if d = hubDie then (if u = 0x010 then some (6, 0) else none)
  else if u < 8 then some (0, u)
  else if u = 0x010 ∨ u = 0x011 then some (1, u - 0x010)
  else if u = 0x020 then some (2, 0)
  else if u = 0x021 then some (3, 0)
  else if u = 0x030 ∨ u = 0x031 then some (4, u - 0x030)
  else if 0x040 ≤ u ∧ u < 0x044 then some (5, u - 0x040)
  else none

/-- Clients of class SAFETY with a window: period, length and phase in ms (R119, R120). -/
def State.windows (s : State) : List (Nat × Nat × Nat) :=
  s.regs.filterMap fun (key, _) =>
    if 0x8000000 ≤ key ∧ key % 0x8000000 = Reg.SCH_CLIENT_EXCL then
      let c := key / 0x8000000 - 1
      if s.fld (Fld.SCH_CLIENT_CLASS_class c) = 0 ∧ s.fld (Fld.SCH_CLIENT_EXCL_excl_len_ms c) ≠ 0 then
        some (s.fld (Fld.SCH_CLIENT_EXCL_excl_period_ms c), s.fld (Fld.SCH_CLIENT_EXCL_excl_len_ms c),
          s.fld (Fld.SCH_CLIENT_EXCL_excl_phase_ms c))
      else none
    else none

/-- How far millisecond `t` lies behind the last start of a window. -/
def windowAge (w : Nat × Nat × Nat) (t : Nat) : Nat := (t + w.1 - w.2.2) % max 1 w.1

/-- Millisecond `t` lies in a window (R120); one whose phase is not below its period never starts. -/
def inWindow (w : Nat × Nat × Nat) (t : Nat) : Bool := decide (w.2.2 < w.1) && decide (windowAge w t < w.2.1)

/-- The timebase in whole milliseconds (R120). -/
def State.nowMs (s : State) : Nat := s.tb / 38400

/-- A test's latest start moved to 200 µs before any window that it falls in (R119); `fuel` bounds the moves. -/
def moveStart (ws : List (Nat × Nat × Nat)) : Nat → Nat → Nat
  | 0, t => t
  | fuel + 1, t =>
    match ws.find? fun w => inWindow w (t / 38400) with
    | some w => moveStart ws fuel (38400 * (t / 38400 - windowAge w (t / 38400)) - 7680)
    | none => t

/-- When the test of a unit falls due (R117). -/
def State.testDue (s : State) (u : Nat) : Nat := (s.unit u).testedAt + 38400 * s.fld Fld.SCH_SELFTEST_period_ms

/-- The latest start of a unit's test (R117, R119). -/
def State.latestStart (s : State) (u : Nat) : Nat := moveStart s.windows 4096 (s.testDue u + 38400000)

/-- A test of the unit may start now, but for what runs on it (R117, R119). -/
def State.mayTest (s : State) (d u kind n : Nat) : Bool :=
  let name := unitOf d u
  s.flag Fld.SCH_SELFTEST_enable && s.engineIn d kind n && s.dieOpen d && decide (s.testDue name ≤ s.tb) &&
  s.passedUs (s.unit name).testedAt 100000 && (s.unit name).testing.isNone && !s.epochPending name &&
  !(s.windows.any fun w => inWindow w s.nowMs) &&
  (natRange 0 (kindEngines kind)).all fun k => (s.unit (unitOf d (engineUnit kind k))).testing.isNone

/-- The engine of a kind on a die that a test takes next, ahead of every placement: the lowest-numbered free one whose test is due
(R118). -/
def State.testNext (s : State) (d kind : Nat) : Option Nat :=
  (natRange 0 (kindEngines kind)).find? fun n => s.engineFree d kind n && s.mayTest d (engineUnit kind n) kind n

/-- Engines of a kind on a die that a placement may take, in ascending order (R102, R118). -/
def State.openEngines (s : State) (d kind : Nat) : List Nat :=
  (s.freeEngines d kind).filter fun n => decide (s.testNext d kind ≠ some n)

/-! ### Choice of a command (R101, R104) -/

/-- The width at which a command may run: its own, or the most engines that one die has in service (R75). -/
def State.widthNow (s : State) (c : Cmd) : Nat :=
  if c.resident then c.width
  else min c.width (((s.kindDies c.kind).map fun d => s.inServiceCount d c.kind).foldl max 0)

/-- The die whose Hearth holds a resident command's card 0 (R209). -/
def Cmd.homeDie (c : Cmd) : Nat := ((c.cards.getD 0 {}).base - hearthBase) / 0x100000000

/-- The record of a resident command (R208). -/
def Cmd.record (c : Cmd) : Nat := (c.cards.getD 1 {}).base

/-- The live residency of a command's record. -/
def State.liveResidency (s : State) (cl : Nat) (c : Cmd) : Option Residency :=
  if c.resident then s.residencies.find? fun x => decide (x.client = cl) && decide (x.record = c.record) else none

/-- A command that names a record is placed or running (R209). -/
def State.recordBusy (s : State) (cl : Nat) (c : Cmd) : Bool :=
  c.resident && s.steps.any fun st => decide (st.client = cl) && st.cmds.any fun k =>
    k.resident && k.isPlaced && decide (k.record = c.record)

/-- MXEs of a die that take part in residency, from a list. -/
def State.residentAllow (s : State) (d : Nat) (ns : List Nat) : List Nat :=
  ns.filter fun n => s.flag (Fld.MXE_CTRL_resident_allow d n)

/-- The command can find no engine at all: REFUSED_LOAD with 0x0202 (R75, R209). -/
def State.noEngine (s : State) (cl : Nat) (c : Cmd) : Bool :=
  if c.resident then
    (s.liveResidency cl c).isNone &&
    decide ((s.residentAllow c.homeDie ((natRange 0 8).filter (s.engineIn c.homeDie 0))).length < c.width)
  else decide (s.widthNow c = 0)

/-- Engines of a kind on a die in service outside an avoid set. -/
def State.inOutside (s : State) (d kind : Nat) (avoid : List (Nat × Nat)) : Nat :=
  ((natRange 0 (kindEngines kind)).filter fun n => s.engineIn d kind n && !avoid.contains (d, n)).length

/-- The avoid set as it counts for this placement (R103): empty where no die on which the command may run has the width outside
it. -/
def State.avoidNow (s : State) (c : Cmd) : List (Nat × Nat) :=
  let fits :=
    if c.resident then
      decide (c.width ≤ ((s.residentAllow c.homeDie ((natRange 0 8).filter (s.engineIn c.homeDie 0))).filter fun n =>
        !c.avoid.contains (c.homeDie, n)).length)
    else (s.kindDies c.kind).any fun d => decide (s.widthNow c ≤ s.inOutside d c.kind c.avoid)
  if fits then c.avoid else []

/-- Commands of a kind on their way to a die, each with the client of its step, in the order in which they were placed. -/
def State.onWay (s : State) (d kind : Nat) : List (Nat × Cmd) :=
  let all := s.steps.flatMap fun st => st.cmds.filterMap fun c => match c.state with
    | .placed e t => if e = d ∧ c.kind = kind then some (t, st.client, c) else none
    | _ => none
  (sortBy (·.1) all).map (·.2)

/-- The engines that a command on its way will take from a list of open ones (R103, R209). -/
def State.willTake (s : State) (d cl : Nat) (c : Cmd) (free : List Nat) : List Nat :=
  if (s.liveResidency cl c).isSome then []
  else ((if c.resident then s.residentAllow d free else free).filter fun n => !bit c.placedAvoid n).take c.placedWidth

/-- Open engines of a kind on a die, less those that commands on their way will take: a later placement sees them as taken (R104). -/
def State.freeLeft (s : State) (d kind : Nat) : List Nat :=
  forEach (s.onWay d kind) (s.openEngines d kind) fun (cl, c) free =>
    let taken := s.willTake d cl c free
    free.filter fun n => !taken.contains n

/-- Those of them outside an avoid set. -/
def State.freeOutside (s : State) (d kind : Nat) (avoid : List (Nat × Nat)) : List Nat :=
  (s.freeLeft d kind).filter fun n => !avoid.contains (d, n)

/-- The dispatcher's table has an entry for one more command (R22). -/
def State.tableRoom (s : State) (d : Nat) : Bool :=
  let onWay := (s.steps.map fun st => (st.cmds.filter fun c =>
    match c.state with | .placed e _ => decide (e = d) | _ => false).length).foldl (· + ·) 0
  decide ((s.runs.filter fun r => decide (r.die = d)).length + onWay < tableSize d)

/-! ### Power reservations (R469) -/

/-- The DVFS point of a die, the hub as 8. -/
def State.pointOf (s : State) (d : Nat) : Nat := if d = hubDie then s.fld Fld.CLK_POINT_HUB_point else s.fld (Fld.CLK_POINT_point d)

/-- The peak of a compute die at a point, in mW (R466), and that of the hub die: 9 W at point 0 (R23), and less at each point lowered
(R469; log 172). -/
def diePeak (point : Nat) : Nat := [24000, 18300, 13500, 6800].getD point 2700
def hubPeak : Nat → Nat
  | 0 => 9000
  | p + 1 => hubPeak p - 1 - Config.hubPeak p % (hubPeak p / 2)

/-- The floor of a powered compute die, in mW. -/
def dieFloor : Nat := 2000

/-- The peak of an engine of a kind at a point, in mW: with the floor, those of a die's engines add up to the die's peak. -/
def enginePeak (kind point : Nat) : Rat :=
  let weight := fun (k : Nat) => Config.engineWeight k point + 1
  let all := ((natRange 0 6).map fun k => kindEngines k * weight k).foldl (· + ·) 0
  ((diePeak point - dieFloor : Nat) : Rat) * (weight kind : Nat) / (all : Nat)

/-- What throttling at level `n` leaves of a peak. -/
def throttled (n : Nat) (mw : Rat) : Rat := mw * ((16 - n : Nat) : Rat) / 16

/-- The kinds of the busy engines of a die, those of commands on their way to it among them. -/
def State.busyKinds (s : State) (d : Nat) : List Nat :=
  ((s.runs.filter fun r => decide (r.die = d) && !r.tallySent).flatMap fun r => r.engs.map fun _ => r.kind) ++
  s.steps.flatMap fun st => st.cmds.flatMap fun c => match c.state with
    | .placed e _ => if e = d then List.replicate c.placedWidth c.kind else []
    | _ => []

/-- Power reserved for a die at a point, in mW, at throttle level `n`. -/
def State.dieReserve (s : State) (d point n : Nat) : Rat :=
  if d = hubDie then (hubPeak point : Nat)
  else if s.flag (Fld.CDG_STATUS_island_up d) then
    (dieFloor : Nat) + throttled n (((s.busyKinds d).map fun k => enginePeak k point).foldl (· + ·) 0)
  else 0

/-- Every die of the package, the hub last. -/
def State.allDies (s : State) : List Nat := natRange 0 s.nDies ++ [hubDie]

/-- Power reserved for the DRAM, in mW: 3.75 W for each group. -/
def State.dramReserve (s : State) (n : Nat) : Rat := throttled n (3750 * s.variant.groups : Nat)

/-- The total reservation, in mW, at a throttle level. -/
def State.reserve (s : State) (n : Nat) : Rat := ((s.allDies).map fun d => s.dieReserve d (s.pointOf d) n).foldl (· + ·) 0 + s.dramReserve n

/-- Nanojoules that the cap adds in one step of the grid, 0.9975 × `cap_w` × 10 µs, and the most that the credit holds. -/
def State.creditFill (s : State) : Rat := (9975 * s.fld Fld.PWR_CAP_cap_w : Nat)
def State.creditMax (s : State) : Rat := (2500 * s.fld Fld.PWR_CAP_cap_w : Nat)

/-- The credit carries the next step of the grid at a reservation of `mw`. -/
def State.creditFits (s : State) (mw : Rat) : Bool := decide (10 * mw ≤ s.power.credit + s.creditFill)

/-- The peaks of the dies and of the DRAM: no reservation exceeds them. -/
def State.peakReserve (s : State) : Rat :=
  (hubPeak (s.pointOf hubDie) + ((natRange 0 s.nDies).map fun d => diePeak (s.pointOf d)).foldl (· + ·) 0 : Nat) + s.dramReserve 0

/-- The credit carries a placement of `width` engines of a kind on a compute die; Kindling lies within the hub's peak. -/
def State.powerRoom (s : State) (d kind width : Nat) : Bool :=
  let n := s.fld Fld.PWR_STATUS_throttle_level
  decide (d = hubDie) || s.creditFits s.peakReserve ||
    s.creditFits (s.reserve n + throttled n ((width : Nat) * enginePeak kind (s.pointOf d)))

/-! ### Choice of a die (R102, R209, R325) -/

/-- The quotas of R325. -/
def State.quotaFits (s : State) (cl d : Nat) (c : Cmd) : Bool :=
  decide (s.keptGranules d cl + s.reservedGranules d cl + c.hearthUse ≤ s.fld (Fld.SCH_CLIENT_QUOTA_H_quota_hearth cl)) &&
  decide (s.l4InUse cl + c.l4Use ≤ s.fld (Fld.SCH_CLIENT_QUOTA_L4_quota_host cl))

/-- A resident command may be placed on die `d` (R209). -/
def State.residentFits (s : State) (cl d : Nat) (c : Cmd) : Bool :=
  decide (d = c.homeDie) && !s.recordBusy cl c &&
  (match s.liveResidency cl c with
   | some x => x.parkedSince.isSome
   | none => decide (c.width ≤ (s.residentAllow d (s.freeOutside d 0 (s.avoidNow c))).length))

/-- Die `d` is eligible for a command (R102, R209, R325), and the credit carries it (R469). -/
def State.eligible (s : State) (cl : Nat) (c : Cmd) (d : Nat) : Bool :=
  s.dieOpen d && s.tableRoom d && s.quotaFits cl d c && s.powerRoom d c.kind (s.widthNow c) &&
  (if c.resident then s.residentFits cl d c
   else decide (s.widthNow c ≤ (s.freeOutside d c.kind (s.avoidNow c)).length))

/-- The Hearth die of a card's base (R102 rule 1). -/
def Card.hearthDie (c : Card) : Option Nat :=
  if hearthBase ≤ c.base ∧ c.base < hearthEnd then some ((c.base - hearthBase) / 0x100000000) else none

/-- The die that owns the home of the first write-set card's first page (R102 rule 2). -/
def State.homeOf (s : State) (c : Cmd) : Option Nat :=
  match c.writeCards with
  | k :: _ =>
    if k.base < s.deviceEnd ∧ (s.page (k.base / 0x200000)).state = .backed then
      some (groupDie (s.page (k.base / 0x200000)).group) else none
  | [] => none

/-- The die that takes a command, if one is eligible (R102). -/
def State.chooseDie (s : State) (cl : Nat) (c : Cmd) : Option Nat :=
  let ds := (s.kindDies c.kind).filter (s.eligible cl c)
  match ds.find? fun d => c.cards.any fun k => decide (k.hearthDie = some d) with
  | some d => some d
  | none =>
    match s.homeOf c with
    | some h => if ds.contains h then some h else ds.head?
    | none => ds.head?

/-- A ready command with its step. -/
structure Ready where
  ring : Nat
  seq : Nat
  client : Nat
  cmd : Cmd
  since : Nat
  deriving DecidableEq, Repr

/-- Ready commands in order of acceptance, sequence and index. A key load holds back its client's codec commands (R439). -/
def State.readyCmds (s : State) : List Ready :=
  s.steps.flatMap fun st => st.cmds.filterMap fun c => match c.readySince with
    | some t =>
      if s.cmdReady st c && !(decide (c.kind = 4) && decide (s.keys.compatPending = some st.client)) then
        some ⟨st.ring, st.seq, st.client, c, t⟩
      else none
    | none => none

/-- The candidate of each client for a kind, lowest virtual time first, ties to the lower ClientId (R101). -/
def State.candidates (s : State) (kind : Nat) (rs : List Ready) : List Ready :=
  let mine := rs.filter fun r => decide (r.cmd.kind = kind)
  let firsts := forEach mine ([] : NMap Ready) fun r m =>
    match mapFind m r.client with
    | some _ => m
    | none => mapSet m r.client r
  sortBy (fun r => s.vt r.client kind) (firsts.map (·.2))

/-- The command of a kind that is placed next, with its die (R101). -/
def State.chooseOf (s : State) (kind : Nat) (rs : List Ready) : Option (Ready × Nat) :=
  (s.candidates kind rs).findSome? fun r => (s.chooseDie r.client r.cmd).map fun d => (r, d)

/-- When the longest-waiting ready command of a kind became ready. -/
def oldestReady (kind : Nat) (rs : List Ready) : Nat :=
  match leastBy (·.since) (rs.filter fun r => decide (r.cmd.kind = kind)) with
  | some r => r.since
  | none => 0

/-- The next placement (R104): of the kinds with a placeable command, the one whose ready command has waited longest. -/
def State.nextPlacement (s : State) : Option (Ready × Nat) :=
  let rs := s.readyCmds
  let kinds := (natRange 0 7).filterMap fun k => (s.chooseOf k rs).map fun x => (k, x)
  (leastBy (fun (p : Nat × (Ready × Nat)) => oldestReady p.1 rs) kinds).map (·.2)

/-! ### Placement and DISPATCH (R103, R106) -/

/-- The avoid bits for die `d` (R106). -/
def avoidMask (d : Nat) (avoid : List (Nat × Nat)) : Nat :=
  (natRange 0 16).foldl (fun m n => if avoid.contains (d, n) then m + 2 ^ n else m) 0

/-- No die that takes commands has `w` open engines of a kind. -/
def State.noRoom (s : State) (kind w : Nat) : Bool :=
  (s.kindDies kind).all fun d => !s.dieOpen d || decide ((s.freeLeft d kind).length < w)

/-- Ready commands for which no die has room keep since when that has been so (R113). -/
def State.noteRoom (s : State) : State :=
  { s with steps := s.steps.map fun st => { st with cmds := st.cmds.map fun c =>
      { c with blockedSince :=
          if c.isWaiting && c.readySince.isSome && s.noRoom c.kind (s.widthNow c) then some (c.blockedSince.getD s.tb) else none } } }

/-- A ready command placed on die `d` (R101, R106): the DISPATCH goes out, a segment of occupancy starts and parking ends (R99), and the
wait is accounted (R123, R127); a narrowed command counts once. -/
def State.place1 (s : State) (r : Ready) (d : Nat) : State :=
  let w := s.widthNow r.cmd
  let e := s.knownEpoch (dieUnit d)
  let st := s.step? r.ring r.seq
  let m : Dispatch :=
    { seq := r.seq, ring := r.ring, index := r.cmd.index, op := 0, kind := r.cmd.kind, width := w, cmdAddr := r.cmd.addr
      deadline := match st with | some x => x.deadline | none => 0
      tallyEpoch := e, avoid := avoidMask d (s.avoidNow r.cmd), headerEpoch := e, reason := 0, curEpoch := 0 }
  let s0 := match s.liveResidency r.client r.cmd with
    | some x => s.chargeParked x
    | none => s
  let s1 := s0.modStep r.ring r.seq fun x =>
    { x.modCmd r.cmd.index fun c =>
        { c with state := .placed d s.tb, readySince := none, blockedSince := none, dispatched := true, placedWidth := w
                 placedAvoid := m.avoid, segStart := s.tb, segShare := s.share r.client r.cmd.kind, owed := 0, narrowed := c.narrowed || decide (w < c.width) }
      with dispatched := true, narrowed := x.narrowed || decide (w < r.cmd.width) }
  let s2 := (s1.acct r.client acWaitDispatch (s1.usSince r.since)).modClient r.client fun x =>
    { x with waits := (r.cmd.kind, s1.tb, s1.nsSince r.since) :: x.waits.filter fun y => !s1.passedUs y.2.1 1000 }
  let s3 := if w < r.cmd.width ∧ !r.cmd.narrowed then s2.acct r.client acNarrowed 1 else s2
  s3.sendDispatch d m

/-- A step that can find no engine for a ready command: REFUSED_LOAD with 0x0202 (R75, R121, R209). -/
def State.refuseNoEngine (s : State) (r : Ready) : State :=
  match s.step? r.ring r.seq with
  | some st => s.decideStep r.ring r.seq stRefusedLoad 0x0202 (if st.dispatched then r.cmd.index else 0xFF)
  | none => s

/-- The decision itself, new shares being in effect. -/
def State.placeNext (s : State) : State :=
  match s.readyCmds.find? fun r => s.noEngine r.client r.cmd with
  | some r => s.refuseNoEngine r
  | none =>
    match s.nextPlacement with
    | some (r, d) => s.place1 r d
    | none => s

/-- PLACEMENT (R97, R101 to R104, R116): one decision of the scheduler front end, at which shares and pre-emption controls written before
take effect. -/
def placement (s : State) : State :=
  if s.serving then ({ s.adoptShares with oldPreempt := none }.placeNext).noteRoom else s

def execPlacement (s : State) : Host.Outcome State Fault Refusal := .next (placement s)

/-! ### Dispatchers (R22, R106, R107, R114) -/

/-- The dispatcher of a die returns a message (R107). Messages for Kindling reach no dispatcher of a compute die, and count as bounced by
Kindling (R479). -/
def State.sendBounce (s : State) (d : Nat) (m : Dispatch) (reason : Nat) : State :=
  let cl := match s.step? m.ring m.seq with | some st => st.client | none => 0xFFF
  let s := if d = hubDie then s.count d 0x010 0x0E 1 (some cl) else s
  (s.packet 0x13 (unitOf d 0x060) cl (seqRing m.seq m.ring ++ leBytes m.index 1 ++ leBytes reason 1 ++
    leBytes (s.epoch (dieUnit d)) 2)).send (.bounce d { m with reason := reason, curEpoch := s.epoch (dieUnit d) }
      (bounceData { m with reason := reason, curEpoch := s.epoch (dieUnit d) }))

/-- The reason with which a message is returned before its own conditions are looked at (R107, R110). -/
def State.bounceReason (s : State) (d : Nat) (m : Dispatch) : Option Nat :=
  if !s.logicUp d then some 3
  else if m.headerEpoch ≠ s.epoch (dieUnit d) ∨ s.epochPending (dieUnit d) then some 0
  else none

/-- The engines that a PLACE takes, in order of position: those of a live residency, or the lowest-numbered free ones outside
`avoid` (R103, R209). None where there are too few. -/
def State.takeEngines (s : State) (d : Nat) (m : Dispatch) (cl : Nat) (c : Cmd) : Option (List Nat) :=
  match s.liveResidency cl c with
  | some x => if x.parkedSince.isSome ∧ x.die = d then some x.engines else none
  | none =>
    let free := (s.openEngines d m.kind).filter fun n => !bit m.avoid n
    let ns := (if c.resident then s.residentAllow d free else free).take m.width
    if ns.length = m.width then some ns else none

/-- A parked residency whose command is placed runs again (R213). -/
def State.resumeResidency (s : State) (x : Residency) : State :=
  let s1 := (s.chargeParked x).countParked x
  let s2 := { s1 with residencies := s1.residencies.map fun y =>
    if y.record = x.record ∧ y.client = x.client then { y with parkedSince := none } else y }
  forEach x.engines s2 fun n t => t.setFld (Fld.MXE_STATUS_res_state x.die n) 1

/-- A placement on a die whose engine clocks are gated starts them (R453). -/
def State.ungate (s : State) (d : Nat) : State := { s with power := { s.power with gated := mapDel s.power.gated d } }

/-- A command started on engines of a die (R130, R133): what earlier segments of its placement owe is charged (R99). -/
def State.startRun (s : State) (d : Nat) (m : Dispatch) (cl entry : Nat) (c : Cmd) (ns : List Nat) : State :=
  let live := s.liveResidency cl c
  let run : Run :=
    { die := d, entry := entry, kind := m.kind, width := m.width
      engs := ns.map fun n => { unit := engineUnit m.kind n }
      ring := m.ring, seq := m.seq, index := m.index, client := cl, cmd := c, tallyEpoch := m.tallyEpoch
      epoch0 := s.epoch (unitOf d (engineUnit m.kind (ns.getD 0 0)))
      start := s.tb, segStart := c.segStart, segShare := c.segShare }
  let mask := ns.foldl (fun a n => a + 2 ^ n) 0
  let s0 := s.packet 0x11 unitSched cl (seqRing m.seq m.ring ++ leBytes m.index 1 ++ leBytes d 1 ++ leBytes mask 2 ++
    leBytes run.epoch0 2 ++ leBytes (s.epoch (dieUnit d)) 2)
  let s1 := { (s0.ungate d).setVt cl m.kind (s0.vt cl m.kind + c.owed) with runs := s0.runs ++ [run] }.modCmd m.ring m.seq m.index fun k => { k with state := .running d }
  match live with
  | some x => s1.resumeResidency x
  | none => s1

/-- A PLACE that reaches the dispatcher of die `d` in its epoch (R103, R107): the engines and the entry that it takes, or the reason with
which it is returned. -/
def State.takePlace (s : State) (d : Nat) (m : Dispatch) (cl : Nat) (c : Cmd) : Except Nat (List Nat × Nat) :=
  match s.takeEngines d m cl c with
  | none => .error 1
  | some ns => match s.freeEntry d with
    | none => .error 2
    | some e => .ok (ns, e)

/-- DISPATCH_PLACE (R103, R106, R107): returned as BOUNCE, or the run starts. Of a valid PLACE for which the scheduler has no placed
command on this die, nothing runs (log 45). -/
def dispatchPlace (die : Nat) (m : Dispatch) (s : State) : State :=
  match s.bounceReason die m with
  | some r => s.sendBounce die m r
  | none =>
    let st := (s.step? m.ring m.seq).getD {}
    let c := (st.cmd? m.index).getD {}
    match s.takePlace die m st.client c with
    | .error r => s.sendBounce die m r
    | .ok (ns, e) => match c.state with
      | .placed d _ => if d = die then (s.startRun die m st.client e c ns).noteRoom else s
      | _ => s

def execDispatchPlace (die : Nat) (m : Dispatch) (s : State) : Host.Outcome State Fault Refusal := .next (dispatchPlace die m s)

/-- A KILL of a command whose engines are parked ends their residency (R212, R213). -/
def State.killParked (s : State) (die : Nat) (m : Dispatch) : State :=
  match s.residencies.find? fun x => decide (x.die = die) && decide (x.ring = m.ring) && decide (x.seq = m.seq) &&
      decide (x.index = m.index) && x.parkedSince.isSome with
  | some x => s.endResidency x true
  | none => s

/-- DISPATCH_KILL (R114, R115, R213): ignored once the command's TALLY has been sent. -/
def dispatchKill (die : Nat) (m : Dispatch) (s : State) : State :=
  match s.bounceReason die m with
  | some r => s.sendBounce die m r
  | none =>
    match s.runOf? m.ring m.seq m.index with
    | some r => if r.die = die ∧ !r.tallySent then (s.takeKill r).noteRoom else s
    | none => s.killParked die m

def execDispatchKill (die : Nat) (m : Dispatch) (s : State) : Host.Outcome State Fault Refusal := .next (dispatchKill die m s)

/-- A KILL that the die has returned: the run still goes on, and a new KILL is sent (R111). -/
def State.killAgain (s : State) (r : Run) : State :=
  (s.modRun r.die r.entry fun x => { x with killSent := false }).schedKill r r.preempted

/-- A TALLY that the tally unit has returned goes out again under its present epoch (R421). -/
def State.tallyAgain (s : State) (r : Run) : State :=
  match r.tallyMsg with
  | some m => s.send (.tally { m with headerEpoch := s.epoch unitTally } (tallyData m))
  | none => s

/-- BOUNCE (R107, R111): the scheduler learns the die's epoch. The bounce counts once for the command's client. A placed command whose
PLACE comes back waits again, as it has since it was placed, unless its step has been decided; one that still runs is killed and placed
again; `op` 2 stands for a TALLY that the tally unit has returned, which is sent again (R421). -/
def bounce (die : Nat) (m : Dispatch) (s : State) : State :=
  let s0 := { s with known := mapSet s.known (dieUnit die) (m.curEpoch % 65536) }
  match s0.step? m.ring m.seq with
  | none => s0
  | some st =>
    match st.cmd? m.index with
    | none => s0
    | some c =>
      let s1 := s0.acct st.client acBounces 1
      match c.state with
      | .placed d at_ =>
        if d = die ∧ m.op = 0 then
          ((s1.modCmd m.ring m.seq m.index fun k =>
            if st.status.isSome then { k with state := .dropped, readySince := none }
            else { k with state := .waiting, readySince := some at_ }).refreshReady).noteRoom
        else s1
      | .running d =>
        match s1.runOf? m.ring m.seq m.index with
        | some r =>
          if d ≠ die then s1
          else if m.op = 2 then s1.tallyAgain r
          else s1.killAgain r
        | none => s1
      | _ => s1

def execBounce (die : Nat) (m : Dispatch) (s : State) : Host.Outcome State Fault Refusal := .next (bounce die m s)

/-! ### The end of a command (R108, R133, R145, R215) -/

/-- The TALLY of a run (R108). -/
def State.tallyOf (s : State) (r : Run) (energyNj : Nat) : TallyMsg :=
  { seq := r.seq, ring := r.ring, index := r.index, width := r.engs.length, tallyEpoch := r.tallyEpoch, die := r.die
    engineNs := r.engs.length * s.nsSince r.start, bytesL1 := r.bytes.getD 0 0, bytesL2 := r.bytes.getD 1 0
    bytesL3 := r.bytes.getD 2 0, bytesL4 := r.bytes.getD 3 0, energyNj := s.scaledEnergy r.die energyNj
    headerEpoch := s.epoch unitTally }

/-- Every engine of a run has executed END and no host read is outstanding (R133). -/
def Run.finished (r : Run) : Bool := !r.tallySent && r.engs.all (·.ended)

/-- COMMAND_FINISH (R133): the TALLY goes out, buffers without `keep` are freed (R145), and the engines are free. `energyNj` is what
the die's power model estimates for the run, before its scaling to the measured energy (R128). -/
def commandFinish (die entry energyNj : Nat) (s : State) : State :=
  match s.run? die entry with
  | some r =>
    if r.finished then
      let s1 := ((((s.chargeRun r).endCycles r).cmdEnd r 0 0).freeRunBufs die entry false).modRun die entry fun x =>
        { x with tallySent := true, endedAt := s.tb }
      let m := s.tallyOf r energyNj
      let s2 := (s1.modRun die entry fun x => { x with tallyMsg := some m }).send (.tally m (tallyData m))
      (forEach r.engs s2 fun e t => t.settleDisable die e.unit).noteRoom
    else s
  | none => s

def execCommandFinish (die entry energyNj : Nat) (s : State) : Host.Outcome State Fault Refusal :=
  .next (commandFinish die entry energyNj s)

/-! ### The tally (R72, R78 to R81, R210) -/

/-- The detail with which the tally unit refuses a target (R72). -/
def State.pubFault (s : State) (st : Step) (c : Cmd) (t : Nat) : Option Nat :=
  let p := s.page (t / 0x200000)
  if !(decide (t % 8 = 0) && decide (t < s.deviceEnd) && decide (p.state = .backed) && decide (p.owner = st.client)) then
    some 0x0D03
  else if st.cmds.any fun k => decide (k.index ≠ c.index) && unordered st.cmds c.index k.index &&
      listsMeet [(t, 8)] (k.writeCards.flatMap (s.cardRanges st.client)) then some 0x0504
  else none

/-- The entries of a command's publication list, or the detail of the first that breaks a rule. -/
def State.readPubs (s : State) (st : Step) (c : Cmd) : Except Nat (List (Nat × Nat)) :=
  match s.pubEntries st.client c with
  | .error d => .error d
  | .ok es => match es.findSome? fun e => s.pubFault st c e.1 with
    | some d => .error d
    | none => .ok es

/-- The snapshot pointer of a resident command's group (R208, R210): the record's address and its bytes 0 to 23. -/
def State.snapshotOf (s : State) (st : Step) (c : Cmd) (m : TallyMsg) : Option (Nat × List Byte) :=
  if c.resident then
    let base := (c.cards.getD 0 {}).base
    let slot := fun k => base + 65536 * (k * c.width)
    let cur := match s.cread64 st.client c.record with | .ok n => n | .error _ => 0
    let next := if bit cur 48 ∧ bits cur 0 48 = slot 0 then slot 1 else slot 0
    some (c.record, leBytes (next + 0x1000000000000) 8 ++ leBytes m.seq 8 ++ leBytes m.tallyEpoch 2 ++ leBytes m.die 1 ++
      leBytes 0 5)
  else none

/-- A publication or snapshot pointer stored (R79). -/
def State.applyPub (s : State) (cl : Nat) (p : Nat × Nat) : State := s.devWrite cl p.1 (leBytes p.2 8)

/-- A journalled group applied from step 2 of R79 on: publications, snapshot pointer and tally bit. -/
def State.applyGroup (s : State) (j : Journal) (cl : Nat) : State :=
  let s1 := forEach j.pubs s fun p t => t.applyPub cl p
  let s2 := match j.snap with
    | some (a, bs) => s1.devWrite cl a bs
    | none => s1
  s2.modCmd j.ring j.seq j.index fun c => { c with state := .tallied }

/-- A cost entry updated with weight 1/8, or a new one, most recently used first, 256 of them (R123). DESIGN CHOICE (log 145): only
a tally counts as a use of an entry, not a look-up for a prediction. -/
def updateCost (costs : List Cost) (program width ns : Nat) : List Cost :=
  let rest := costs.filter fun k => !(decide (k.program = program) && decide (k.width = width))
  let avg := match costs.find? fun k => decide (k.program = program) && decide (k.width = width) with
    | some k => (k.avgNs * 7 + ns) / 8
    | none => ns
  (⟨program, width, avg⟩ :: rest).take 256

/-- A tally's counts added to the client's accounting (R108, R127). -/
def State.chargeTally (s : State) (cl : Nat) (c : Cmd) (m : TallyMsg) : State :=
  let s1 := ((((((s.acct cl (16 + 8 * c.kind) m.engineNs).acct cl acBytes m.bytesL1).acct cl (acBytes + 8) m.bytesL2).acct cl
    (acBytes + 16) m.bytesL3).acct cl (acBytes + 24) m.bytesL4).acct cl acEnergy m.energyNj)
  s1.modClient cl fun x => { x with costs := updateCost x.costs c.program c.width (m.engineNs / max 1 m.width) }

/-- After the tally of a resident command its engines park; they leave the residency after REC_UNBIND, or where one of them has been
taken out of service (R212, R213, R215). -/
def State.settleResidency (s : State) (r : Run) : State :=
  match s.residencyOf r with
  | none => s
  | some x =>
    if (r.engs.any (·.unbind)) || (x.engines.any fun n => !s.engineIn x.die 0 n) then s.endResidency x true
    else
      let s1 := { s with residencies := s.residencies.map fun y => if y.record = x.record ∧ y.client = x.client then
        { y with parkedSince := some s.tb, segStart := s.tb, segCharged := 0, segShare := s.share x.client 0
                 ring := r.ring, seq := r.seq, index := r.index } else y }
      forEach x.engines s1 fun n t => t.setFld (Fld.MXE_STATUS_res_state x.die n) 2

/-- A tally ends its run, if there is one: its residency settles and its buffers stay. -/
def State.leaveRun (s : State) (r : Run) : State :=
  let s1 := if r.tallySent then s else s.chargeRun r
  ((s1.settleResidency r).keepRunBufs r.die r.entry).dropRun r.die r.entry

/-- What a performed tally does to its run, if there is one (R478: command ends are counted). -/
def State.settleRun (s : State) (r : Run) : State :=
  let s1 := s.modStep r.ring r.seq fun st => { st with roundSubst := st.roundSubst || r.roundSubst }
  (forEach r.engs s1 fun e t => forEach (withGate r.die e.unit) t fun u t0 => t0.countFixed r.die u 13 1).leaveRun r

/-- Ticks that a journal entry with `n` publications stays in use (R81; DESIGN CHOICE, log 23). -/
def journalTicks (n : Nat) : Nat := ((500 + 100 * n) * 24 + 624) / 625

/-- Rule 3 of R78: the tally performed, or refused under R72. -/
def State.performTally (s : State) (st : Step) (c : Cmd) (m : TallyMsg) : State :=
  match s.readPubs st c with
  | .error d => match s.runOf? m.ring m.seq m.index with
    | some r => s.failFinal r unitTally d
    | none => s.decideStep m.ring m.seq (statusOf d) d m.index
  | .ok pubs =>
    let j : Journal := ⟨m.ring, m.seq, m.index, pubs, s.snapshotOf st c m, false, s.tb + journalTicks pubs.length⟩
    let s0 := if c.resident then s.fetchHub c.record 8 else s
    let s1 := ({ s0 with journal := s0.journal ++ [j] }.applyGroup j st.client).chargeTally st.client c m
    let s2 := match s1.runOf? m.ring m.seq m.index with
      | some r => s1.settleRun r
      | none => s1
    let s3 := s2.packet 0x14 unitTally st.client (seqRing m.seq m.ring ++ leBytes m.index 1)
    ((s3.commitIfDone m.ring m.seq).refreshReady).send (.tallyAck m.seq m.ring m.index)

/-- A TALLY under a stale epoch is discarded (R78); the run that sent it is placed again (R94). A message of any other run changes
nothing. -/
def State.staleTally (s : State) (m : TallyMsg) : State :=
  match s.runOf? m.ring m.seq m.index with
  | some r => if r.tallySent ∧ r.die = m.die ∧ r.tallyEpoch = m.tallyEpoch then s.replayLost r else s
  | none => s

/-- A TALLY that has its journal entry (R78). -/
def State.handleTally (s : State) (m : TallyMsg) : State :=
  match s.step? m.ring m.seq with
  | none => s.send (.tallyAck m.seq m.ring m.index)
  | some st =>
    match st.cmd? m.index with
    | none => s
    | some c =>
      if c.isTallied then s.send (.tallyAck m.seq m.ring m.index)
      else if m.tallyEpoch ≠ s.knownEpoch (dieUnit m.die) then s.staleTally m
      else s.performTally st c m

/-- Journal entries still in use: those not marked done, which happens at the end of the entry's time (R79, R81). -/
def State.journalUsed (s : State) : List Journal :=
  (s.journal.map fun j => { j with done := j.done || decide (j.until_ ≤ s.tb) }).filter fun j => !j.done

/-- Every journal entry that is not marked done is applied from step 2 of R79 on, and marked done. -/
def State.redoJournal (s : State) : State :=
  let s1 := forEach s.journalUsed s fun j t =>
    match t.step? j.ring j.seq with
    | some st => t.applyGroup j st.client
    | none => t.applyGroup j (t.ring j.ring).client
  { s1 with journal := [] }

/-- A step released before a TALLY of it came: nothing is left of its run. -/
def State.dropLate (s : State) (m : TallyMsg) : State :=
  match s.step? m.ring m.seq, s.runOf? m.ring m.seq m.index with
  | none, some r => s.leaveRun r
  | _, _ => s

/-- TALLY (R78, R81, R111): returned where it is addressed under another epoch than the tally unit's; it waits while all 64 journal
entries are in use, and behind those that wait already. The damper discards what is not journalled (R423). -/
def tally (m : TallyMsg) (s : State) : State :=
  let s0 := { s with journal := s.journalUsed }
  if s.saf.damped then s0
  else if m.headerEpoch ≠ s.epoch unitTally ∨ s.epochPending unitTally then s0.send (.tallyBounce m)
  else if 64 ≤ s0.journal.length ∨ !s0.tallyQueue.isEmpty then { s0 with tallyQueue := s0.tallyQueue ++ [m] }
  else (s0.dropLate m).handleTally m

def execTally (m : TallyMsg) (s : State) : Host.Outcome State Fault Refusal := .next (tally m s)

/-- TALLY_DEQUEUE (R81): the oldest waiting message finds a free entry. -/
def tallyDequeue (s : State) : State :=
  let s0 := { s with journal := s.journalUsed }
  match s0.tallyQueue with
  | [] => s0
  | m :: rest =>
    if 64 ≤ s0.journal.length ∨ s.saf.damped then s0
    else ({ s0 with tallyQueue := rest }.dropLate m).handleTally m

def execTallyDequeue (s : State) : Host.Outcome State Fault Refusal := .next (tallyDequeue s)

/-! ### Virtual time and pre-emption (R99, R112, R113, R212) -/

/-- VTIME_TICK (R99, R213): the occupancy of a run, and of every parked residency of its die, charged up to now. -/
def vtimeTick (die entry : Nat) (s : State) : State :=
  let s1 := match s.run? die entry with
    | some r => if r.tallySent then s else s.chargeRun r
    | none => s
  forEach (s1.residencies.filter fun x => decide (x.die = die)) s1 fun x t => t.chargeParked x

def execVtimeTick (die entry : Nat) (s : State) : Host.Outcome State Fault Refusal := .next (vtimeTick die entry s)

/-- Free engines of a kind on a die, less those promised, with those that a KILL on its way will free. -/
def State.spare (s : State) (d kind : Nat) : Nat :=
  (s.freeLeft d kind).length +
    ((s.runs.filter fun r => decide (r.die = d) && decide (r.kind = kind) && r.killSent && !r.tallySent).map (·.engs.length)).foldl (· + ·) 0

/-- Victims on a die in the order of R112: highest virtual time first, within a client the most recently started first. -/
def State.victims (s : State) (d kind : Nat) (p : Run → Bool) : List Run :=
  let rs := s.runs.filter fun r => decide (r.die = d) && decide (r.kind = kind) && !r.tallySent && !r.killSent &&
    decide (s.fld (Fld.SCH_CLIENT_CLASS_class r.client) ≠ 0) && p r
  let top := 2 ^ 64
  sortBy (fun r => top - s.vt r.client kind) (sortBy (fun r => r.client) (sortBy (fun r => s.tb - r.start) rs))

/-- The victims that must go until `need` engines are free, if that is enough. -/
def takeVictims : Nat → List Run → Option (List Run)
  | need, rs =>
    match rs with
    | [] => if need = 0 then some [] else none
    | r :: rest =>
      if need = 0 then some []
      else (takeVictims (need - r.engs.length) rest).map (r :: ·)

/-- The die on which the fewest kills free `w` engines, and those kills (R112); none where kills on their way free them already. -/
def State.killPlan (s : State) (kind w : Nat) (p : Run → Bool) : Option (List Run) :=
  let plans := (s.kindDies kind).filterMap fun d =>
    if s.dieOpen d then takeVictims (w - s.spare d kind) (s.victims d kind p) else none
  match leastBy List.length plans with
  | some (v :: vs) => some (v :: vs)
  | _ => none

/-- The pre-emption for fair share that a ready command justifies (R112). -/
def State.fairPlan (s : State) (r : Ready) : Option (List Run) :=
  let q := s.quantum
  let k := r.cmd.kind
  let w := s.widthNow r.cmd
  let mine := s.vt r.client k
  let limit := mine + 65536 * (w * (1000 * q)) / s.share r.client k
  if s.passedUs r.since q ∧ s.noRoom k w ∧
      (s.runs.any fun x => decide (x.kind = k) && !x.tallySent && decide (s.fld (Fld.SCH_CLIENT_CLASS_class x.client) ≠ 0) &&
        decide (limit < s.vt x.client k)) then
    s.killPlan k w fun x => decide (mine < s.vt x.client k) && s.passedUs x.start q
  else none

/-- The parked residency that a ready command of another client ends (R212). -/
def State.parkedVictim (s : State) (r : Ready) : Option Residency :=
  let q := s.quantum
  if r.cmd.kind = 0 ∧ s.passedUs r.since q ∧ s.noRoom 0 (s.widthNow r.cmd) then
    leastBy (fun x => 2 ^ 64 - s.vt x.client 0) (s.residencies.filter fun x => x.parkedSince.isSome && !s.calledBack x &&
      decide (x.client ≠ r.client) && decide (s.vt r.client 0 < s.vt x.client 0))
  else none

/-- PREEMPT_FAIR (R112, R212): parked residencies go before running commands are killed (DESIGN CHOICE, log 24). Of several ready
commands that justify a pre-emption, the first in order of acceptance has its way (DESIGN CHOICE, log 146). -/
def preemptFair (s : State) : State :=
  if s.flag Fld.SCH_PREEMPT_enable ∧ s.serving then
    let rs := s.readyCmds
    match rs.findSome? s.parkedVictim with
    | some x => s.endResidency x true
    | none =>
      match rs.findSome? s.fairPlan with
      | some vs => forEach vs s fun r t => t.preempt r
      | none => s
  else s

def execPreemptFair (s : State) : Host.Outcome State Fault Refusal := .next (preemptFair s)

/-- The pre-emption that a ready command of a SAFETY client justifies (R113). -/
def State.safetyPlan (s : State) (r : Ready) : Option (List Run) :=
  let w := s.widthNow r.cmd
  let waited : Bool := match r.cmd.blockedSince with
    | some t => s.passedUs t s.safetyWait
    | none => decide (s.safetyWait = 0)
  if s.fld (Fld.SCH_CLIENT_CLASS_class r.client) = 0 ∧ waited ∧ s.noRoom r.cmd.kind w then s.killPlan r.cmd.kind w fun _ => true
  else none

/-- PREEMPT_SAFETY (R113). -/
def preemptSafety (s0 : State) : State :=
  if s0.serving then
    let s := s0.noteRoom
    match s.readyCmds.findSome? s.safetyPlan with
    | some vs => forEach vs s fun r t => t.preempt r
    | none => s
  else s0

def execPreemptSafety (s : State) : Host.Outcome State Fault Refusal := .next (preemptSafety s)

/-! ### Self-test (R117 to R120, R415) -/

/-- The test of a unit starts (R109, R117). -/
def State.startTest (s : State) (name : Nat) : State :=
  (s.modUnit name fun x => { x with testing := some s.tb, testedAt := s.tb }).advanceEpoch name

/-- The parked residency that holds MXE `n`. -/
def State.parkedOn (s : State) (d kind n : Nat) : Option Residency :=
  if kind = 0 then s.residencies.find? fun x => decide (x.die = d) && x.engines.contains n && x.parkedSince.isSome else none

/-- SELFTEST_START (R117, R118, R212): a due engine that is free, or parked, is taken. -/
def selftestStart (unit : Nat) (s : State) : State :=
  match engineOf (unit / 4096) (unit % 4096) with
  | none => s
  | some (kind, n) =>
    if s.mayTest (unit / 4096) (unit % 4096) kind n then
      match s.parkedOn (unit / 4096) kind n with
      | some x => if s.calledBack x then s else ((s.endResidency x true).startTest unit).noteRoom
      | none => if s.engineFree (unit / 4096) kind n then (s.startTest unit).noteRoom else s
    else s

def execSelftestStart (unit : Nat) (s : State) : Host.Outcome State Fault Refusal := .next (selftestStart unit s)

/-- SELFTEST_FORCE (R118): at the latest start, the command on the engine is killed as a pre-emption; the test starts once the engine is
free. -/
def selftestForce (unit : Nat) (s : State) : State :=
  match engineOf (unit / 4096) (unit % 4096) with
  | none => s
  | some (kind, n) =>
    if s.mayTest (unit / 4096) (unit % 4096) kind n ∧ s.latestStart unit ≤ s.tb then
      match s.runOn? (unit / 4096) (unit % 4096) with
      | some r => (s.preempt r).setFlag Fld.SCH_STATUS_selftest_forced true
      | none => s
    else s

def execSelftestForce (unit : Nat) (s : State) : Host.Outcome State Fault Refusal := .next (selftestForce unit s)

/-- The events of a self-test run at a unit, counted where `count_selftest` says so: how many there are the spec leaves open (R479, R480;
log 173). -/
def State.countTest (s : State) (d u : Nat) : State :=
  match counterBlock d u with
  | none => s
  | some blk =>
    if !(s.flag (Fld.X_CNT_CTRL_cnt_enable blk) && s.flag (Fld.X_CNT_CTRL_count_selftest blk)) then s
    else forEach (natRange 0 13 ++ [15]) s fun i t =>
      if i < 12 ∧ (t.fld (Fld.X_CNT_SEL_event blk i) = 0 ∨ t.flag (Fld.X_CNT_SEL_client_only blk i)) then t
      else
        let (t1, k) := t.drawWord
        t1.bump blk i (k % 2 ^ 48)

/-- SELFTEST_END (R109, R415): the signature is compared; a mismatch takes the engine out. -/
def selftestEnd (unit : Nat) (pass : Bool) (s : State) : State :=
  match (s.unit unit).testing with
  | none => s
  | some _ =>
    let s0 := forEach (withGate (unit / 4096) (unit % 4096)) s fun u t => t.countTest (unit / 4096) u
    let s1 := (s0.modUnit unit fun x => { x with testing := none }).advanceEpoch unit
    if pass then s1.noteRoom else (s1.takeOutEngine (unit / 4096) (unit % 4096) 0).noteRoom

def execSelftestEnd (unit : Nat) (pass : Bool) (s : State) : Host.Outcome State Fault Refusal := .next (selftestEnd unit pass s)

/-! ### Exclusion windows (R120) -/

/-- The longest stretch of milliseconds that some window covers, over `fuel` milliseconds from `t`. -/
def longestStretch (ws : List (Nat × Nat × Nat)) : Nat → Nat → Nat → Nat → Nat
  | 0, _, _, best => best
  | fuel + 1, t, cur, best =>
    let c := if ws.any fun w => inWindow w t then cur + 1 else 0
    longestStretch ws fuel (t + 1) c (max best c)

/-- Least common multiple of the periods. -/
def hyperPeriod (ws : List (Nat × Nat × Nat)) : Nat := (ws.map (·.1)).foldl Nat.lcm 1

/-- EXCL_WRITE (R120): discarded with `excl_error`, or applied for the selected client. DESIGN CHOICE (log 147): a period or a phase
out of its range is stored as written. -/
def exclWrite (value : W32) (s : State) : State :=
  let c := s.selected
  let v := value.toNat % 2 ^ 28
  let s1 := s.setReg (Fld.SCH_CLIENT_EXCL_excl_period_ms c).key v
  let ws := s1.windows
  if s.fld (Fld.SCH_CLIENT_CLASS_class c) ≠ 0 ∨ bits v 0 10 < 2 * bits v 10 8 ∨
      200 < longestStretch ws (2 * hyperPeriod ws) 0 0 0 then
    s.setFlag Fld.SCH_STATUS_excl_error true
  else s1

def execExclWrite (value : W32) (s : State) : Host.Outcome State Fault Refusal := .next (exclWrite value s)

/-! ### Power model and epochs (R46, R109, R110, R128) -/

/-- POWER_MODEL_SCALE (R46, R128): the energy of the last millisecond as the die's model has it, unscaled, and as measured; from now on
the model's estimates are scaled by their quotient, and the die's power is shown in mW. -/
def powerModelScale (die modelledNj measuredNj : Nat) (s : State) : State :=
  let s1 := { s with measured := mapSet s.measured die (modelledNj, measuredNj) }
  if s.fitted die then s1.setFld (Fld.CPC_POWER_die_mw die) (min (measuredNj / 1000) (2 ^ 32 - 1)) else s1

def execPowerModelScale (die modelledNj measuredNj : Nat) (s : State) : Host.Outcome State Fault Refusal :=
  .next (powerModelScale die modelledNj measuredNj s)

/-- Runs of a die whose TALLY was sent under another epoch than the one now known: the tally unit will discard it (R78), so their
commands are placed again (R94). -/
def State.replayStale (s : State) (unit : Nat) : State :=
  forEach (s.runs.filter fun r => decide (dieUnit r.die = unit) && r.tallySent && decide (r.tallyEpoch ≠ s.knownEpoch unit)) s
    fun r t => t.replayLost r

/-- EPOCH_NOTICE (R94, R109): the scheduler front end and the tally unit adopt a unit's epoch; a TALLY sent under the one before is
lost. -/
def epochNotice (unit epoch : Nat) (s : State) : State :=
  { s with known := mapSet s.known unit (epoch % 65536) }.replayStale unit

def execEpochNotice (unit epoch : Nat) (s : State) : Host.Outcome State Fault Refusal := .next (epochNotice unit epoch s)

/-- EPOCH_DEFERRED_ADVANCE (R110): 1 µs after the previous advance, one that had to wait is made. -/
def epochDeferredAdvance (unit : Nat) (s : State) : State :=
  if 0 < (s.unit unit).deferred ∧ !s.advancedLately unit then
    (s.modUnit unit fun x => { x with deferred := x.deferred - 1 }).stepEpoch unit
  else s

def execEpochDeferredAdvance (unit : Nat) (s : State) : Host.Outcome State Fault Refusal := .next (epochDeferredAdvance unit s)

end Sys2Proof.Machine
end

