-- ==== Sys2Proof/Machine/Control.lean ====
section
/-! DEFINITION. How an engine executes an instruction (R130 to R138, R178), the bytes it moves (R108, R327), and the control
instructions (R138 to R145, R151, R210, R310 to R313), with MARK and CNT_EMIT (R488). -/

namespace Sys2Proof.Machine

/-! ### The frame of an instruction -/

/-- The opcodes that the manual defines (R134, R138, R164, R194, R230, R239, R250, R263, R271, R272, R298, R488). -/
def definedOps : List Nat :=
  [0x00, 0x01, 0x02, 0x03, 0x04, 0x05, 0x06, 0x07, 0x10, 0x11, 0x12, 0x13, 0x14, 0x15, 0x20, 0x21, 0x30, 0x31, 0x38, 0x39,
   0x3A, 0x50, 0x51, 0x52, 0x53, 0x70, 0x71, 0x72, 0x73, 0x74, 0x80, 0x81, 0x90, 0x91, 0x92, 0x98, 0x99, 0x9A, 0xA0, 0xA1]

/-- The kinds that the group of an opcode is allowed in (R134). -/
def kindTakes (kind op : Nat) : Bool :=
  if op < 0x10 then true
  else if op < 0x30 then decide (kind = 5)
  else if op < 0x70 then decide (kind = 0) || decide (kind = 6)
  else if op < 0x80 then decide (kind = 1)
  else if op < 0x90 then decide (kind = 2)
  else if op < 0x98 then decide (kind = 3)
  else if op < 0xA0 then decide (kind = 4)
  else decide (op < 0xB0)

/-- An opcode may be decoded by an engine of a kind. -/
def opAllowed (kind op : Nat) : Bool := definedOps.contains op && kindTakes kind op

/-- What an instruction knows of where it runs: run, engine, its position, its number within the kind, its rounding after
R178 and its internal rounding ρ (R177), and the unit whose counters its events go to, the EWE for a gate engine's instruction (R478). -/
structure Ctx where
  r : Run
  g : EngRun
  pos : Nat
  num : Nat
  rnd : Nat
  rho : Nat
  unit : Nat
  deriving DecidableEq, Repr

/-- Client of the command. -/
def Ctx.cl (c : Ctx) : Nat := c.r.client
/-- Engines of the command. -/
def Ctx.width (c : Ctx) : Nat := c.r.engs.length
/-- A card of the command. -/
def Ctx.card (c : Ctx) (i : Nat) : Card := c.r.cmd.cards.getD i {}
/-- The cards that an instruction's references name. -/
def Ctx.dst (c : Ctx) (w : W128) : Card := c.card (wdst w).card
def Ctx.srcA (c : Ctx) (w : W128) : Card := c.card (wsrcA w).card
def Ctx.srcB (c : Ctx) (w : W128) : Card := c.card (wsrcB w).card

/-- The draw of R180 for a linear element index. -/
def Ctx.draw (c : Ctx) (index : Nat) : Nat := seedDraw c.r.seq c.r.ring c.r.index c.g.pc index

/-- The run and engine that an `Eng` names. -/
def State.engOf (s : State) (e : Eng) : Option (Run × EngRun) :=
  match s.run? e.die e.entry with
  | some r => match r.engs[e.pos]? with
    | some g => some (r, g)
    | none => none
  | none => none

/-- An engine of a run changed. -/
def State.modEng (s : State) (e : Eng) (f : EngRun → EngRun) : State :=
  s.modRun e.die e.entry fun r =>
    { r with engs := (natRange 0 r.engs.length).map fun i =>
        let g := r.engs.getD i {}
        if i = e.pos then f g else g }

/-- Engines stalled. -/
def EngRun.stalled (g : EngRun) : Bool := match g.stall with | .none => false | _ => true

/-- The engine may execute its next instruction: its command runs, it has not ended, it does not wait, its program goes on, and
the trace throttle does not hold its die (R491). The safe state stops every engine (R423). -/
def State.mayRun (s : State) (e : Eng) (r : Run) (g : EngRun) : Bool :=
  !r.tallySent && !g.ended && !g.stalled && decide (g.pc < r.cmd.programLen) && !s.saf.damped &&
  s.logicUp e.die && (mapFind s.trace.throttled e.die).isNone

/-- The number of the engine within its kind. -/
def engNumber (die : Nat) (g : EngRun) : Nat :=
  match engineOf die g.unit with
  | some (_, n) => n
  | none => 0

/-- The instruction is substituted under R178: `rnd` 0 with a destination of class gradient or optimiser. -/
def substituted (r : Run) (w : W128) : Bool :=
  decide (0x10 ≤ wbyte w 0) && decide (wbyte w 0 < 0xA0) && decide (wrnd w = 0) && !(wdst w).absent &&
  (let k := (r.cmd.cards.getD (wdst w).card {}).cls
   decide (k = 2) || decide (k = 3))

/-- The unit that counts an instruction's events: the EWE for the gate engine's own opcodes, the engine for every other (R478). -/
def eventUnit (die : Nat) (r : Run) (g : EngRun) (w : W128) : Nat :=
  if r.kind = 0 ∧ 0x50 ≤ wbyte w 0 ∧ wbyte w 0 < 0x60 then 0x100 + engNumber die g else g.unit

/-- The context of an instruction. -/
def ctxOf (e : Eng) (r : Run) (g : EngRun) (w : W128) : Ctx :=
  let rnd := if substituted r w then 1 else wrnd w
  { r := r, g := g, pos := e.pos, num := engNumber e.die g, rnd := rnd, rho := if rnd = 0 then 0 else 1, unit := eventUnit e.die r g w }

/-- The engine passes on to its next instruction. -/
def State.advance (s : State) (e : Eng) : State := s.modEng e fun g => { g with pc := g.pc + 1, stall := .none, blocksDone := 0, homeBlocks := [], resumed := false }

/-- Details that a check of the engine's own finds, and that count as detections at it (R526). -/
def isDetection (detail : Nat) : Bool :=
  [0x0601, 0x0602, 0x0701, 0x0702, 0x0801, 0x0805, 0x0901, 0x0902, 0x0A01, 0x0A02, 0x0C07].contains detail

/-- The command of an engine fails (R94, R165, R526). -/
def State.failEng (s : State) (e : Eng) (detail : Nat) : State :=
  match s.engOf e with
  | some (r, g) =>
    if isDetection detail then s.checkFault r detail (engNumber e.die g) else s.failRun r detail (engNumber e.die g)
  | none => s

/-- Whether the opcode of an instruction is the one expected. -/
def opIs (w : W128) (op : Nat) : Bool := decide (wbyte w 0 = op)

/-- The state in which an instruction's own effect begins: the substitution of its rounding mode is noted (R178), and an
instruction that is not resumed is counted (R479). -/
def State.begun (s : State) (e : Eng) (w : W128) (r : Run) (g : EngRun) : State :=
  let s0 := if substituted r w then s.modRun e.die e.entry fun x => { x with roundSubst := true } else s
  if g.resumed then s0 else s0.count e.die (eventUnit e.die r g w) 0x05 1 (some r.client)

/-- What follows an instruction's own effect: the failure it gives, or the next instruction, unless the engine now stalls. -/
def State.ended (e : Eng) : State × Option Nat → State
  | (t, some d) => t.failEng e d
  | (t, none) =>
    match t.engOf e with
    | some (_, g1) => if g1.stalled then t else t.advance e
    | none => t

/-- The instruction that an engine has reached (R131): instruction `pc` of its command's program, as the client reads it, or the
detail of a fault in reading it. It is read when it is executed; R131 lets an engine read it earlier too (DESIGN CHOICE, log 9). -/
def State.fetch (s : State) (r : Run) (g : EngRun) : Except Nat W128 :=
  match s.cread r.client (r.cmd.program + 16 * g.pc) 16 with
  | .ok bs => .ok (BitVec.ofNat 128 (leNat bs))
  | .error d => .error d

/-- The operation of a GSEQ_SET word. -/
def gMop (w : W128) : Nat := wbyte w 9

/-- Positions from `pos` to the first END. -/
def seqFrom (g : EngRun) (slot : Nat) : Nat → Nat → List W128
  | 0, _ => []
  | n + 1, pos =>
    match mapFind g.gseq (slot * 16 + pos) with
    | none => []
    | some w => if gMop w = 0 then [] else w :: seqFrom g slot n (pos + 1)

/-- The sequence in a slot (R221). -/
def gateSeq (g : EngRun) (slot : Nat) : List W128 := seqFrom g slot 16 0

/-- The references of an instruction, with those of the gate sequence that it runs (R193, R221, R230). -/
def Ctx.refs (c : Ctx) (w : W128) : List Ref :=
  usedRefs w ++
  (if [0x30, 0x52, 0x53].contains (wbyte w 0) then (gateSeq c.g (bits (wbyte w 9) 0 4)).flatMap usedRefs else [])

/-- The cards that bytes of `imm` name: in ATTEND, ATTEND_RING and KV_APPEND (R254, R260, R264, R274). -/
def immCardsOf (w : W128) : List Nat :=
  match wbyte w 0 with
  | 0x70 => [wbyte w 9, wbyte w 10, wbyte w 11, wbyte w 12]
  | 0x73 => [wbyte w 13, wbyte w 14]
  | 0x74 => [wbyte w 9, wbyte w 10, wbyte w 11]
  | _ => []

/-- The instruction would reach the ring window and is no mover instruction (R51). GSEQ_SET only names its cards. -/
def Ctx.ringBarred (c : Ctx) (s : State) (w : W128) : Bool :=
  let op := wbyte w 0
  decide (0x30 ≤ op) && decide (op < 0xA0) && decide (op ≠ 0x50) &&
  ((c.refs w).map (·.card) ++ immCardsOf w).any fun k =>
    decide (k < c.r.cmd.cards.length) && listsMeet (s.cardRanges c.cl (c.card k)) [(remoteBase, remoteEnd - remoteBase)]

/-- An effect that has ended without a failure, held against R51: the ring window is reached by mover instructions only, and another
instruction that reaches it fails with 0x0505 (DESIGN CHOICE of the detail, log 155). -/
def Ctx.heldToWindow (c : Ctx) (w : W128) (s : State) : State × Option Nat → State × Option Nat
  | (t, none) => if c.ringBarred s w then (s, some 0x0505) else (t, none)
  | x => x

/-- An instruction that fails on uncorrectable data (0x0D02) shows it in the Hearths whose words its operands name (R316). -/
def Ctx.noteUe (c : Ctx) (w : W128) : State × Option Nat → State × Option Nat
  | (t, some 0x0D02) =>
    let ks := ((c.refs w).map (·.card) ++ immCardsOf w).filter fun k => decide (k < c.r.cmd.cards.length)
    (forEach (ks.flatMap fun k => t.cardRanges c.cl (c.card k)) t fun (a, n) u => if hearthBase ≤ a ∧ a < hearthEnd then u.noteReads a n else u, some 0x0D02)
  | x => x

/-- One instruction with opcode `op` on an engine that may execute it and whose program holds it next (R130, R131): `f` gives its
effect, or the detail with which the command fails. Afterwards the engine passes on, unless `f` has made it wait. -/
def State.instr (s : State) (e : Eng) (w : W128) (op : Nat) (f : Ctx → State → State × Option Nat) : State :=
  match s.engOf e with
  | none => s
  | some (r, g) =>
    if !(s.mayRun e r g && opIs w op) then s
    else match s.fetch r g with
      | .error d => s.failEng e d
      | .ok x =>
        if x ≠ w then s
        else if !opAllowed r.kind op then s.failEng e 0x0401
        else
          let c := ctxOf e r g w
          let t := s.begun e w r g
          State.ended e (c.noteUe w (c.heldToWindow w t (f c t)))

/-! ### Bytes moved (R108, R307, R327, R479) -/

/-- One range of bytes moved by an engine: counted per tier, by the engine's counters, and per page. -/
def State.moved1 (s : State) (c : Ctx) (isRead : Bool) (a n : Nat) : State :=
  let tier := s.tierAt c.r.die a
  let s1 := s.modRun c.r.die c.r.entry fun x => { x with bytes := addAt x.bytes tier n }
  (s1.count c.r.die c.unit (if isRead then 0x06 + tier else 0x0A) n (some c.cl)).touch c.r.die a n isRead

/-- Ranges of bytes read or written by an engine (log 27). -/
def State.moved (s : State) (c : Ctx) (isRead : Bool) (rs : List (Nat × Nat)) : State :=
  forEach rs s fun (a, n) t =>
    forEach (cutRange 0x200000 (n / 0x200000 + 2) a n) t fun (x, k) u => u.moved1 c isRead x k

/-- The writes of an instruction performed, with their saturations counted at unit `u` (R179, R478). -/
def State.doWrites (s : State) (c : Ctx) (u : Nat) (ws : Writes) : State × Option Nat :=
  let s1 := (s.moved c false ws.ranges).countFixed c.r.die u 15 ws.sats
  match s1.applyWrites c.cl ws.items with
  | (s2, some d) => (s2, some d)
  | (s2, none) => runEach (State.applyHalf c.cl) ws.halves s2

/-- What an instruction computes, written. Where its two staged operands share a buffer, which tile the engine finds there depends on
an order of copies and loads that R155 does not give: the values are free (log 156). -/
def State.writeOut (s : State) (clash : Bool) (c : Ctx) (u : Nat) (ws : Writes) : State × Option Nat :=
  if clash then (ws.freed s).1.doWrites c u (ws.freed s).2 else s.doWrites c u ws

/-- Writes of many rows, one after the other. -/
def joinWrites (ws : List Writes) : Writes := ws.foldl Writes.append {}

/-- A reading that ends in writes or in the detail of a fault. -/
def State.finish (s : State) (c : Ctx) (u : Nat) (x : Except Nat Writes) : State × Option Nat :=
  match x with
  | .error d => (s, some d)
  | .ok ws => s.doWrites c u ws

/-! ### NOP, END and what follows the last instruction (R131, R133, R138, R210) -/

/-- Reserved fields of NOP and END are zero (R137). -/
def nopOk (w : W128) : Bool := wzero w 1 15

/-- Fields of SYNC, WAIT and SIGNAL (R137, R138). -/
def syncOk (w : W128) : Bool := wzero w 1 1 && wzero w 4 15
def waitOk (w : W128) : Bool := decide (bits (wbyte w 1) 4 4 = 0) && decide (wword w 4 ≠ 0) && wzero w 6 15
def signalOk (w : W128) : Bool :=
  decide (bits (wbyte w 1) 6 2 = 0) && wzero w 2 3 && decide (wword w 4 ≠ 0) && wzero w 6 15

/-- What NOP does on one engine, before its pc moves on: the next state, or the detail it fails with. -/
def nopFx (w : W128) (_c : Ctx) (t : State) : State × Option Nat :=
  (t, if nopOk w then none else some 0x0402)

/-- NOP (R138). -/
def nop (e : Eng) (w : W128) (s : State) : State :=
  s.instr e w 0x00 (nopFx w)

def execNop (e : Eng) (w : W128) (s : State) : Host.Outcome State Fault Refusal := .next (nop e w s)

/-- The rods of a position as bytes, row 0 first, column fastest (R207). -/
def rodBytes (m : NMap Nat) : List Byte := (natRange 0 16384).flatMap fun i => leBytes (mapGet m i 0) 4

/-- Address of engine `pos`'s part of slot `k` of a snapshot card (R207). -/
def slotPart (base width k pos : Nat) : Nat := base + 65536 * (k * width + pos)

/-- The slot that is not named by the record's pointer (R210). -/
def State.nextSlot (s : State) (cl : Nat) (c : Cmd) : Nat :=
  let cur := match s.cread64 cl c.record with | .ok n => n | .error _ => 0
  if bit cur 48 ∧ bits cur 0 48 = (c.cards.getD 0 {}).base then 1 else 0

/-- The snapshot of a resident command's engine at its END (R210). -/
def State.snapshot (s : State) (c : Ctx) : State × Option Nat :=
  match s.residencyOf c.r with
  | none => (s, some 0x0605)
  | some x =>
    let base := (c.card 0).base
    let a := slotPart base c.r.cmd.width (s.nextSlot c.cl c.r.cmd) c.pos
    s.doWrites c c.g.unit { items := [(a, rodBytes (x.state.getD c.pos []))] }

/-- What END does on one engine, before its pc moves on: the next state, or the detail it fails with. -/
def endProgramFx (e : Eng) (w : W128) (c : Ctx) (t : State) : State × Option Nat :=
  if !nopOk w then (t, some 0x0402)
  else
    let (t1, d) := if c.r.cmd.resident then (if c.g.bound then t.snapshot c else (t, some 0x0605)) else (t, none)
    (t1.modEng e fun g => { g with ended := true }, d)

/-- END (R133, R210): a resident command that has executed no REC_BIND breaks R207. -/
def endProgram (e : Eng) (w : W128) (s : State) : State :=
  s.instr e w 0x01 (endProgramFx e w)

def execEndProgram (e : Eng) (w : W128) (s : State) : Host.Outcome State Fault Refusal := .next (endProgram e w s)

/-- RUN_PAST_END (R131). -/
def runPastEnd (e : Eng) (s : State) : State :=
  match s.engOf e with
  | some (r, g) => if !r.tallySent ∧ !g.ended ∧ r.cmd.programLen ≤ g.pc then s.failEng e 0x0403 else s
  | none => s

def execRunPastEnd (e : Eng) (s : State) : Host.Outcome State Fault Refusal := .next (runPastEnd e s)

/-- RESERVED_OPCODE (R134): an opcode that the manual does not define, or not for this kind. -/
def reservedOpcode (e : Eng) (w : W128) (s : State) : State :=
  match s.engOf e with
  | some (r, g) =>
    if !s.mayRun e r g ∨ opAllowed r.kind (wbyte w 0) then s
    else match s.fetch r g with
      | .error d => s.failEng e d
      | .ok x => if x = w then s.failEng e 0x0401 else s
  | none => s

def execReservedOpcode (e : Eng) (w : W128) (s : State) : Host.Outcome State Fault Refusal := .next (reservedOpcode e w s)

/-! ### Barriers and signals (R139 to R142) -/

/-- A limit field: 0 means 65,535. -/
def limitOf (n : Nat) : Nat := if n = 0 then 65535 else n

/-- An engine that waits at a SYNC at `pc`. -/
def EngRun.atSync (g : EngRun) (pc : Nat) : Bool := match g.stall with | .sync _ _ => decide (g.pc = pc) | _ => false

/-- SYNC released once every engine of the command has reached it (R141). -/
def State.releaseSync (s : State) (e : Eng) : State :=
  match s.engOf e with
  | none => s
  | some (r, g) =>
    if r.engs.all fun x => x.atSync g.pc then
      let s1 := forEach r.engs s fun x t => match x.stall with | .sync _ since => t.countStall r x 0x03 since | _ => t
      s1.modRun e.die e.entry fun y => { y with engs := y.engs.map fun x => { x with pc := x.pc + 1, stall := .none } }
    else s

/-- What SYNC does on one engine, before its pc moves on: the next state, or the detail it fails with. -/
def syncFx (e : Eng) (w : W128) (_c : Ctx) (t : State) : State × Option Nat :=
  if !syncOk w then (t, some 0x0402)
  else (t.modEng e fun g => { g with stall := .sync (limitOf (wword w 2)) t.tb }, none)

/-- SYNC (R141). -/
def sync (e : Eng) (w : W128) (s : State) : State :=
  let t := s.instr e w 0x02 (syncFx e w)
  t.releaseSync e

def execSync (e : Eng) (w : W128) (s : State) : Host.Outcome State Fault Refusal := .next (sync e w s)

/-- A WAIT released if its counter has reached its count, which is subtracted (R140). -/
def EngRun.release (g : EngRun) : EngRun :=
  match g.stall with
  | .wait k n _ _ =>
    let v := mapGet g.counters k 0
    if n ≤ v then { g with counters := mapPut g.counters k (v - n) 0, stall := .none, pc := g.pc + 1 } else g
  | _ => g

/-- What WAIT does on one engine, before its pc moves on: the next state, or the detail it fails with. -/
def waitFx (e : Eng) (w : W128) (c : Ctx) (t : State) : State × Option Nat :=
  let k := bits (wbyte w 1) 0 4
  let n := wword w 4
  if !waitOk w then (t, some 0x0402)
  else
    let v := mapGet c.g.counters k 0
    (t.modEng e fun g =>
      if n ≤ v then { g with counters := mapPut g.counters k (v - n) 0 }
      else { g with stall := .wait k n (limitOf (wword w 2)) t.tb }, none)

/-- WAIT (R140). -/
def wait (e : Eng) (w : W128) (s : State) : State :=
  s.instr e w 0x03 (waitFx e w)

def execWait (e : Eng) (w : W128) (s : State) : Host.Outcome State Fault Refusal := .next (wait e w s)

/-- STALL_TIMEOUT (R142). -/
def stallTimeout (e : Eng) (s : State) : State :=
  match s.engOf e with
  | some (_, g) =>
    match g.stall with
    | .wait _ _ limit since => if 1000 * limit < s.nsSince since then s.failEng e 0x0408 else s
    | .sync limit since => if 1000 * limit < s.nsSince since then s.failEng e 0x0408 else s
    | _ => s
  | none => s

def execStallTimeout (e : Eng) (s : State) : Host.Outcome State Fault Refusal := .next (stallTimeout e s)

/-- The positions that a SIGNAL reaches (R139). -/
def signalTargets (target pos width : Nat) : List Nat :=
  match target with
  | 0 => [pos]
  | 1 => if pos = 0 then [] else [pos - 1]
  | 2 => if pos + 1 < width then [pos + 1] else []
  | _ => natRange 0 width

/-- Engine `p` of run `r` after a SIGNAL of `n` to counter `k`: a WAIT that the counter now meets ends, and its stall is counted
(R139, R140, R479). -/
def State.signalled (s : State) (r : Run) (e : Eng) (k n p : Nat) : State :=
  let add := fun (g : EngRun) => { g with counters := mapPut g.counters k (mapGet g.counters k 0 + n) 0 }
  let g := add (r.engs.getD p {})
  let s1 := match g.stall with
    | .wait j m _ since => if m ≤ mapGet g.counters j 0 then s.countStall r g 0x03 since else s
    | _ => s
  s1.modEng { e with pos := p } fun x => (add x).release

/-- What SIGNAL does on one engine, before its pc moves on: the next state, or the detail it fails with. -/
def signalFx (e : Eng) (w : W128) (c : Ctx) (t : State) : State × Option Nat :=
  let k := bits (wbyte w 1) 0 4
  let n := wword w 4
  if !signalOk w then (t, some 0x0402)
  else
    let live := (signalTargets (bits (wbyte w 1) 4 2) c.pos c.width).filter fun p => !(c.r.engs.getD p {}).ended
    if live.any fun p => decide (65535 < mapGet (c.r.engs.getD p {}).counters k 0 + n) then (t, some 0x0409)
    else
      (forEach live t fun p u => u.signalled c.r e k n p, none)

/-- SIGNAL (R139): what would take a counter above 65,535 fails the command. -/
def signal (e : Eng) (w : W128) (s : State) : State :=
  s.instr e w 0x04 (signalFx e w)

def execSignal (e : Eng) (w : W128) (s : State) : Host.Outcome State Fault Refusal := .next (signal e w s)

/-! ### Hearth buffers (R143 to R145, R310 to R313) -/

/-- ALLOC and FREE are performed by engine 0; another engine passes over one that engine 0 has performed, and waits for it
before (R143). `perform` is what engine 0 does. -/
def State.once (s : State) (e : Eng) (w : W128) (op : Nat) (perform : Ctx → State → State × Option Nat) : State :=
  if e.pos = 0 then s.instr e w op perform
  else match s.engOf e with
    | none => s
    | some (r, g) =>
      let first := r.engs.getD 0 {}
      if first.ended ∨ g.pc < first.pc then s.instr e w op fun _ t => (t, none) else s

/-- The handle of a buffer that an ALLOC has completed put into its register. -/
def State.giveHandle (s : State) (d entry hreg g : Nat) : State :=
  s.modRun d entry fun r => { r with hregs := mapSet r.hregs hreg (handleOf g d ((s.hearth d).gen g)) }

/-- Space taken for an ALLOC (R311): it completes at once where nothing is to be zeroed, and otherwise after the zeroing. -/
def State.takeSpace (s : State) (e : Eng) (hreg g size client : Nat) (keep : Bool) : State :=
  let dirty := ((s.hearth e.die).foreign g size client).length
  let s1 := s.takeBuf e.die g size client keep e.entry
  if dirty = 0 then s1.giveHandle e.die e.entry hreg g
  else
    let until_ := s1.tb + (s1.zeroNs e.die dirty * 24 + 624) / 625
    (s1.modHearth e.die fun h => { h with zeroing := h.zeroing ++ [⟨e.entry, hreg, size, keep, client, some (g, until_)⟩] }).modEng
      e fun x => { x with stall := .space s1.tb }

/-- What ALLOC does on one engine, before its pc moves on: the next state, or the detail it fails with. -/
def allocFx (e : Eng) (w : W128) (c : Ctx) (t : State) : State × Option Nat :=
  let hreg := bits (wbyte w 1) 0 4
  let fixed := bit (wbyte w 2) 0
  let keep := bit (wbyte w 2) 1
  let size := wword w 4
  let off := wword w 6
  if !(decide (bits (wbyte w 1) 4 4 = 0) && decide (bits (wbyte w 2) 2 6 = 0) && wzero w 3 3 && decide (1 ≤ size) &&
      decide (size ≤ 32768) && decide (off ≤ 32767) && (fixed || decide (off = 0)) && wzero w 8 15) then (t, some 0x0402)
  else if c.r.kind = 6 then (t, some 0x0606)
  else if (mapFind c.r.hregs hreg).isSome ∨ (keep ∧ !fixed) then (t, some 0x040A)
  else if fixed then
    if (t.hearth e.die).regionFree off size then (t.takeSpace e hreg off size c.cl keep, none) else (t, some 0x040B)
  else
    match (if (t.hearth e.die).queue.isEmpty then firstFit size (t.hearth e.die).bufs 0 else none) with
    | some g => (t.takeSpace e hreg g size c.cl keep, none)
    | none =>
      ((t.modHearth e.die fun h => { h with queue := h.queue ++ [⟨e.entry, hreg, size, keep, c.cl, none⟩] }).modEng e fun g =>
        { g with stall := .space t.tb }, none)

/-- ALLOC (R143, R310, R311). -/
def alloc (e : Eng) (w : W128) (s : State) : State :=
  s.once e w 0x05 (allocFx e w)

def execAlloc (e : Eng) (w : W128) (s : State) : Host.Outcome State Fault Refusal := .next (alloc e w s)

/-- Engine 0 of a run goes on after an ALLOC. -/
def State.resumeAlloc (s : State) (d entry : Nat) : State :=
  match s.engOf ⟨d, entry, 0⟩ with
  | some (r, g) => match g.stall with
    | .space since => (s.countStall r g 0x04 since).advance ⟨d, entry, 0⟩
    | _ => s
  | none => s

/-- ALLOC_WAIT_GRANT (R310): the oldest waiting ALLOC of a die, once it fits. -/
def allocWaitGrant (die : Nat) (s : State) : State :=
  match (s.hearth die).queue with
  | [] => s
  | a :: rest =>
    match firstFit a.size (s.hearth die).bufs 0 with
    | none => s
    | some g =>
      let s1 := (s.modHearth die fun h => { h with queue := rest }).takeSpace ⟨die, a.entry, 0⟩ a.hreg g a.size a.client a.keep
      if (s1.hearth die).zeroing.any fun z => decide (z.entry = a.entry) then s1 else s1.resumeAlloc die a.entry

def execAllocWaitGrant (die : Nat) (s : State) : Host.Outcome State Fault Refusal := .next (allocWaitGrant die s)

/-- ALLOC_ZERO_DONE (R311). -/
def allocZeroDone (die entry : Nat) (s : State) : State :=
  match (s.hearth die).zeroing.find? fun z => decide (z.entry = entry) with
  | none => s
  | some z =>
    match z.taken with
    | none => s
    | some (g, until_) =>
      if s.tb < until_ then s
      else
        let s1 := s.modHearth die fun h => { h with zeroing := h.zeroing.filter fun y => decide (y.entry ≠ entry) }
        (s1.giveHandle die entry z.hreg g).resumeAlloc die entry

def execAllocZeroDone (die entry : Nat) (s : State) : Host.Outcome State Fault Refusal := .next (allocZeroDone die entry s)

/-- What FREE does on one engine, before its pc moves on: the next state, or the detail it fails with. -/
def freeFx (e : Eng) (w : W128) (c : Ctx) (t : State) : State × Option Nat :=
  let hreg := bits (wbyte w 1) 0 4
  let byOff := bit (wbyte w 2) 0
  let off := wword w 6
  if !(decide (bits (wbyte w 1) 4 4 = 0) && decide (bits (wbyte w 2) 1 7 = 0) && wzero w 3 5 && (byOff || decide (off = 0)) &&
      wzero w 8 15) then (t, some 0x0402)
  else if c.r.kind = 6 then (t, some 0x0606)
  else if byOff then (t.freeFor e.die c.cl off true, none)
  else match mapFind c.r.hregs hreg with
    | none => (t, none)
    | some h =>
      let g := handleGranule h
      let live := decide (handleDie h = e.die) && decide (handleGen h = (t.hearth e.die).gen g)
      ((t.freeFor e.die c.cl g live).modRun e.die e.entry fun r => { r with hregs := mapDel r.hregs hreg }, none)

/-- FREE (R143, R312). -/
def free (e : Eng) (w : W128) (s : State) : State :=
  s.once e w 0x06 (freeFx e w)

def execFree (e : Eng) (w : W128) (s : State) : Host.Outcome State Fault Refusal := .next (free e w s)

/-! ### Walks, MARK and CNT_EMIT (R151, R488) -/

/-- Reserved fields of WALK are zero and its level is defined (R137, R151). -/
def walkFieldsOk (w : W128) : Bool :=
  !bit (wbyte w 1) 3 && decide (bits (wbyte w 1) 6 2 = 0) && decide (bits (wbyte w 1) 4 2 ≠ 3) && wzero w 3 7

/-- What WALK does on one engine, before its pc moves on: the next state, or the detail it fails with. -/
def walkFx (e : Eng) (w : W128) (_c : Ctx) (t : State) : State × Option Nat :=
  let slot := bits (wbyte w 1) 0 3
  let level := bits (wbyte w 1) 4 2
  if !walkFieldsOk w then (t, some 0x0402)
  else
    let lv : WalkLevel := { perm := wbyte w 2, ext := (natRange 0 4).map fun k => wword w (8 + 2 * k) }
    (t.modEng e fun g => { g with walks := mapSet g.walks (slot * 4 + level) lv }, none)

/-- WALK (R151). -/
def walk (e : Eng) (w : W128) (s : State) : State :=
  s.instr e w 0x07 (walkFx e w)

def execWalk (e : Eng) (w : W128) (s : State) : Host.Outcome State Fault Refusal := .next (walk e w s)

/-- All three references of an instruction are `absent` and `walk_rnd` is zero (R488). -/
def allAbsent (w : W128) : Bool :=
  decide ((wdst w).raw = 128) && decide ((wsrcA w).raw = 128) && decide ((wsrcB w).raw = 128)

/-- Fields of MARK (R137, R488). -/
def markOk (w : W128) : Bool := allAbsent w && decide (wbyte w 8 = 0) && decide (wmods w ≤ 1) && wzero w 10 11

/-- Fields of CNT_EMIT (R137, R488). -/
def cntEmitOk (w : W128) : Bool := allAbsent w && decide (wbyte w 8 = 0) && decide (wmods w = 0) && wzero w 9 15

/-- What MARK does on one engine, before its pc moves on: the next state, or the detail it fails with. -/
def markFx (e : Eng) (w : W128) (c : Ctx) (t : State) : State × Option Nat :=
  if !markOk w then (t, some 0x0402)
  else
    let t1 := t.packet 0x20 (unitOf e.die c.g.unit) c.cl (seqRing c.r.seq c.r.ring ++ leBytes c.r.index 1 ++
      leBytes (wbyte w 9) 1 ++ leBytes c.g.pc 2 ++ leBytes (wlong w 12) 4)
    (if wmods w = 1 ∧ t1.flag Fld.DBG_TRACE_TRIG_on_mark then t1.trigger 3 else t1, none)

/-- MARK (R488, R492). -/
def mark (e : Eng) (w : W128) (s : State) : State :=
  s.instr e w 0xA0 (markFx e w)

def execMark (e : Eng) (w : W128) (s : State) : Host.Outcome State Fault Refusal := .next (mark e w s)

/-- The counters of a unit as eight COUNTER packets (R486). -/
def State.counterPackets (s : State) (d u client : Nat) : State :=
  match counterBlock d u with
  | none => s
  | some blk =>
    let one := fun i => leBytes i 1 ++ leBytes 0 1 ++ leBytes (mapGet (s.cnt blk).counts i 0) 6
    forEach (natRange 0 8) s fun k t => t.packet 0x21 (unitOf d (u % 0x100)) client (one (2 * k) ++ one (2 * k + 1))

/-- What CNTEMIT does on one engine, before its pc moves on: the next state, or the detail it fails with. -/
def cntEmitFx (e : Eng) (w : W128) (c : Ctx) (t : State) : State × Option Nat :=
  if !cntEmitOk w then (t, some 0x0402)
  else (t.counterPackets e.die c.g.unit c.cl, none)

/-- CNT_EMIT (R488). -/
def cntEmit (e : Eng) (w : W128) (s : State) : State :=
  s.instr e w 0xA1 (cntEmitFx e w)

def execCntEmit (e : Eng) (w : W128) (s : State) : Host.Outcome State Fault Refusal := .next (cntEmit e w s)

end Sys2Proof.Machine
end

