-- ==== Sys2Proof/Machine/Ember.lean ====
section
/-! DEFINITION. The reader of Ember streams and codebook sets (R284 to R293), which the matrix engine and the codec engines share:
headers, tables, blocks with their checks, codebooks, and expanded elements. -/

namespace Sys2Proof.Machine

/-- The stream header's fields (R285). -/
structure EmHdr where
  compat : Bool
  two : Bool
  etype : Nat
  v : Nat
  b0 : Nat
  b1 : Nat
  vpb : Nat
  units : Nat
  bpc : Nat
  setId : Nat
  nonce : Nat
  deriving DecidableEq, Repr

/-- An entry of a codebook set's table (R290). -/
structure EmBook where
  off : Nat
  width : Nat
  stage : Nat
  deriving DecidableEq, Repr

/-- A stream with its codebook set, both headers checked. -/
structure Ember where
  card : Card
  h : EmHdr
  books : List EmBook
  deriving DecidableEq, Repr

/-- Bits of a codebook element (R166). -/
def EmHdr.ebits (h : EmHdr) : Nat := typeBits h.etype

/-- The type that elements expand to (R284). -/
def EmHdr.expanded (h : EmHdr) : Nat := if h.etype = 0 then 1 else h.etype

/-- Bytes of a codebook of a width (R290). -/
def EmHdr.bookSize (h : EmHdr) (width : Nat) : Nat := 2 ^ width * h.v * h.ebits / 8

/-- The block stride S (R286). -/
def EmHdr.stride (h : EmHdr) : Nat := 64 * h.units

/-- Bits of the codes of one vector. -/
def EmHdr.codeBits (h : EmHdr) : Nat := h.b0 + h.b1

/-- A little-endian field of a structure's bytes. -/
def emAt (b : List Byte) (o n : Nat) : Nat := leNat ((b.drop o).take n)

/-- The bytes end in their CRC-32C (R285, R287, R289). -/
def crcOk (b : List Byte) : Bool := decide ((crc32c (b.take (b.length - 4))).toNat = emAt b (b.length - 4) 4)

def parseEmHdr (b : List Byte) : EmHdr :=
  let f := emAt b 5 1
  { compat := bit f 0, two := bit f 1, etype := emAt b 6 1, v := 2 ^ emAt b 7 1, b0 := emAt b 8 1, b1 := emAt b 9 1
    vpb := emAt b 10 2, units := emAt b 12 1, bpc := emAt b 28 4, setId := emAt b 32 4, nonce := emAt b 36 4 }

/-- Blocks per column of a card (R285). -/
def blocksPerCol (c : Card) (v vpb : Nat) : Nat := ceilDiv (c.ext 0) (v * vpb)

/-- Check 1 of R293: the stream header's fields (R285, R286). -/
def emHdrOk (c : Card) (b : List Byte) (setId : Nat) : Bool :=
  let h := parseEmHdr b
  decide (c.base % 64 = 0) && decide (emAt b 0 4 = 0x31524D45) && decide (emAt b 4 1 = 1) && decide (emAt b 5 1 < 4) &&
  [0, 1, 3, 5].contains h.etype && (decide (emAt b 7 1 = 2) || decide (emAt b 7 1 = 3)) &&
  decide (4 ≤ h.b0) && decide (h.b0 ≤ 12) && (if h.two then decide (4 ≤ h.b1) && decide (h.b1 ≤ 12) else decide (h.b1 = 0)) &&
  decide (1 ≤ h.vpb) && decide (h.vpb ≤ 8192) && decide (1 ≤ h.units) && decide (h.units ≤ 64) && decide (emAt b 13 3 = 0) &&
  (natRange 0 3).all (fun k => decide (emAt b (16 + 4 * k) 4 = c.ext k)) && decide (h.bpc = blocksPerCol c h.v h.vpb) &&
  decide (h.setId = setId) && (h.compat || decide (h.nonce = 0)) && decide (emAt b 40 20 = 0) &&
  (decide (c.scaleType = 0) || decide (h.v * h.vpb % groupSize c.group = 0)) &&
  decide (64 + c.ext 1 * c.ext 2 * h.bpc * h.stride ≤ c.streamLen)

/-- Check 2 of R293 on the set's header (R289, R291). -/
def emSetOk (c : Card) (h : EmHdr) (b : List Byte) : Bool :=
  decide (c.scaleBase % 64 = 0) && decide (emAt b 0 4 = 0x31434D45) && decide (1 ≤ emAt b 8 1) && decide (emAt b 9 1 = h.etype) &&
  decide (2 ^ emAt b 10 1 = h.v) && decide (emAt b 11 1 = 0) && decide (emAt b 16 44 = 0)

/-- An entry of the table, and whether it is as R290 says. -/
def parseBook (n : Nat) : EmBook := ⟨bits n 0 32, bits n 32 4, bits n 36 1⟩
def bookOk (h : EmHdr) (setLen n : Nat) : Bool :=
  let k := parseBook n
  decide (n < 2 ^ 37) && decide (4 ≤ k.width) && decide (k.width ≤ 12) && decide (k.off % 64 = 0) &&
  decide (k.off + h.bookSize k.width + 4 ≤ setLen)

/-- A stream and its set opened: CRCs of both headers, then checks 1 and 2 of R293. -/
def State.openEmber (s : State) (cl : Nat) (c : Card) : Except Nat Ember :=
  match s.cread cl c.base 64, s.cread cl c.scaleBase 64 with
  | .error d, _ => .error d
  | _, .error d => .error d
  | .ok hb, .ok sb =>
    if !(crcOk hb && crcOk sb) then .error 0x0C01
    else if !emHdrOk c hb (emAt sb 4 4) then .error 0x0C02
    else
      let h := parseEmHdr hb
      if !emSetOk c h sb then .error 0x0C04
      else
        let n := emAt sb 8 1
        match s.cread cl (c.scaleBase + 64) (8 * n) with
        | .error d => .error d
        | .ok tb =>
          let es := (natRange 0 n).map fun i => emAt tb (8 * i) 8
          if !(decide (64 + 8 * n ≤ emAt sb 12 4) && es.all (bookOk h (emAt sb 12 4))) then .error 0x0C04
          else .ok { card := c, h := h, books := es.map parseBook }

/-- The number of the block of column (n, b) at place `kb` (R286). -/
def Ember.blockNo (em : Ember) (kb n b : Nat) : Nat := (b * em.card.ext 1 + n) * em.h.bpc + kb

/-- Address of block `q`. -/
def Ember.blockAddr (em : Ember) (q : Nat) : Nat := em.card.base + 64 + q * em.h.stride

/-- Vectors along dimension 0. -/
def Ember.vectors (em : Ember) : Nat := ceilDiv (em.card.ext 0) em.h.v

/-- Vectors in block `kb` of a column (R287). -/
def Ember.vecCount (em : Ember) (kb : Nat) : Nat := min em.h.vpb (em.vectors - kb * em.h.vpb)

/-- Scales in a block of `cnt` vectors, and where its codes begin (R287). -/
def Ember.blockScales (em : Ember) (cnt : Nat) : Nat :=
  if em.card.scaleType = 0 then 0 else ceilDiv (cnt * em.h.v) (groupSize em.card.group)
def Ember.codesAt (em : Ember) (cnt : Nat) : Nat := 16 + 4 * ceilDiv (em.blockScales cnt * scaleSize em.card.scaleType) 4

/-- Check 3 of R293 on one block (R287, R291). -/
def Ember.blockOk (em : Ember) (q : Nat) (b : List Byte) : Bool :=
  let cnt := em.vecCount (q % em.h.bpc)
  let named := fun i stage width => match em.books[i]? with
    | some (k : EmBook) => decide (k.stage = stage) && decide (k.width = width)
    | none => false
  decide (emAt b 0 4 = q) && decide (emAt b 6 2 = cnt) && decide (emAt b 8 8 = 0) && named (emAt b 4 1) 0 em.h.b0 &&
  (if em.h.two then named (emAt b 5 1) 1 em.h.b1 else decide (emAt b 5 1 = 0)) &&
  decide (em.codesAt cnt + ceilDiv (cnt * em.h.codeBits) 8 + 4 ≤ em.h.stride)

/-- A block in plain form: its compatibility encryption removed (R292). -/
def Ember.plain (em : Ember) (key q : Nat) (b : List Byte) : List Byte :=
  if em.h.compat then b.take 16 ++ ctrCrypt key em.h.nonce q ((b.drop 16).take (em.h.stride - 20)) ++ b.drop (em.h.stride - 4) else b

/-- The compatibility key of a client, 0 where none is loaded. -/
def State.compatKey (s : State) (cl : Nat) : Nat := mapGet s.keys.compatKeys cl 0

/-- Block `q`, its CRC and check 3 passed, as it stands in memory. -/
def State.emRaw (s : State) (cl : Nat) (em : Ember) (q : Nat) : Except Nat (List Byte) :=
  match s.cread cl (em.blockAddr q) em.h.stride with
  | .error d => .error d
  | .ok b => if !crcOk b then .error 0x0C01 else if !em.blockOk q b then .error 0x0C03 else .ok b

/-- The column group of a block (R288), as a number. -/
def Ember.groupOf (em : Ember) (q : Nat) : Nat :=
  let col := q / em.h.bpc
  0x100000000 * (col / max 1 (em.card.ext 1)) + col % max 1 (em.card.ext 1) / 128

/-- Blocks of one column group carry the same codebooks (R288). -/
def Ember.groupsOk (em : Ember) : List (Nat × List Byte) → NMap (List Byte) → Bool
  | [], _ => true
  | (q, b) :: rest, seen =>
    let cbs := (b.drop 4).take 2
    match mapFind seen (em.groupOf q) with
    | some x => decide (x = cbs) && em.groupsOk rest seen
    | none => em.groupsOk rest (mapSet seen (em.groupOf q) cbs)

/-- What a reader has of a stream: the blocks it asked for, in plain form, and the codebooks that they name. -/
structure EmRead where
  em : Ember
  blocks : NMap (List Byte)
  books : NMap (List Byte)
  deriving DecidableEq, Repr

/-- `n` bytes of a codebook read from `a`, its CRC passed (R290, R293). -/
def State.bookAt (s : State) (cl a n : Nat) : Except Nat (List Byte) :=
  match s.cread cl a (n + 4) with
  | .error d => .error d
  | .ok b => if crcOk b then .ok (b.take (b.length - 4)) else .error 0x0C01

/-- A codebook's bytes. -/
def State.emBook (s : State) (cl : Nat) (em : Ember) (i : Nat) : Except Nat (List Byte) :=
  let k := em.books.getD i ⟨0, 4, 0⟩
  s.bookAt cl (em.card.scaleBase + k.off) (em.h.bookSize k.width)

/-- Two codebooks are one and the same of a set. -/
def Book.same (a b : Book) : Bool := decide (a.set = b.set) && decide (a.idx = b.idx)

/-- Codebook `i` of a set as the store knows it, not yet loaded. -/
def Ember.bookOf (em : Ember) (i : Nat) : Book :=
  let k := em.books.getD i ⟨0, 4, 0⟩
  { set := em.card.scaleBase, idx := i, stage := k.stage, bytes := em.h.bookSize k.width, off := k.off }

/-- A codebook's bytes for a reader that holds the codebooks `have_`: one that is held is not loaded again, and its CRC was checked
as it was loaded (R293). -/
def State.heldBook (s : State) (cl : Nat) (em : Ember) (have_ : List Book) (i : Nat) : Except Nat (List Byte) :=
  match have_.find? (em.bookOf i).same with
  | some b => .ok b.data
  | none => s.emBook cl em i

/-- Codebooks that a block names. -/
def Ember.namedBooks (em : Ember) (b : List Byte) : List Nat := emAt b 4 1 :: (if em.h.two then [emAt b 5 1] else [])

/-- Check 4 of R293: an MXE (`mxe`) accepts only native streams, and a compatibility stream needs a key. -/
def State.emModeOk (s : State) (cl : Nat) (em : Ember) (mxe : Bool) : Bool :=
  !em.h.compat || (!mxe && (mapFind s.keys.compatKeys cl).isSome)

/-- Blocks `qs` of a stream read with every check of R293, for a reader that holds the codebooks `have_`. -/
def State.emRead (s : State) (cl : Nat) (em : Ember) (mxe : Bool) (have_ : List Book) (qs : List Nat) : Except Nat EmRead :=
  match tryMap (fun q => match s.emRaw cl em q with | .ok b => .ok (q, b) | .error d => .error d) qs with
  | .error d => .error d
  | .ok raws =>
    if !em.groupsOk raws [] then .error 0x0C03
    else if !s.emModeOk cl em mxe then .error 0x0C05
    else
      let ids := (raws.flatMap fun p => em.namedBooks p.2).eraseDups
      match tryMap (fun i => match s.heldBook cl em have_ i with | .ok b => .ok (i, b) | .error d => .error d) ids with
      | .error d => .error d
      | .ok books =>
        .ok { em := em, blocks := forEach raws [] fun p m => mapSet m p.1 (em.plain (s.compatKey cl) p.1 p.2)
              books := forEach books [] fun p m => mapSet m p.1 p.2 }

/-- A codebook that a reader has read, as the store keeps it. -/
def EmRead.bookOf (r : EmRead) (i : Nat) : Book := { r.em.bookOf i with data := mapGet r.books i [] }

/-- Blocks of a list of columns (n, b). -/
def Ember.colBlocks (em : Ember) (cols : List (Nat × Nat)) : List Nat :=
  cols.flatMap fun (n, b) => (natRange 0 em.h.bpc).map fun kb => em.blockNo kb n b

/-- Element `t` of entry `i` of a codebook, as a value. -/
def EmHdr.entry (h : EmHdr) (book : List Byte) (i t : Nat) : Num :=
  let k := i * h.v + t
  let raw := leNat ((book.drop (k * h.ebits / 8)).take 1) >>> (k * h.ebits % 8)
  match elemOf h.etype with
  | some e => e.decode (raw % 2 ^ h.ebits)
  | none => numZero

/-- The sum of two stages' elements (R284). -/
def EmHdr.stageSum (h : EmHdr) (a b : Num) : Num :=
  let sum := a.add b
  match elemOf h.expanded with
  | some (.flt f) => (f.round (round32 1 sum) 1 0).1
  | some e => e.decode (e.store sum 1 0).1
  | none => numZero

/-- Expanded element `t` of vector `j` of a block, with codes `c`. -/
def EmRead.vector (r : EmRead) (b : List Byte) (codes : Nat) (j t : Nat) : Num :=
  let h := r.em.h
  let c := bits codes (j * h.codeBits) h.codeBits
  let x := h.entry (mapGet r.books (emAt b 4 1) []) (c % 2 ^ h.b0) t
  if h.two then h.stageSum x (h.entry (mapGet r.books (emAt b 5 1) []) (c / 2 ^ h.b0) t) else x

/-- The expanded elements of column (n, b), within the card's extent. -/
def EmRead.column (r : EmRead) (n b : Nat) : List Num :=
  let em := r.em
  ((natRange 0 em.h.bpc).flatMap fun kb =>
    let blk := mapGet r.blocks (em.blockNo kb n b) []
    let cnt := em.vecCount kb
    let codes := leNat ((blk.drop (em.codesAt cnt)).take (ceilDiv (cnt * em.h.codeBits) 8))
    (natRange 0 cnt).flatMap fun j => (natRange 0 em.h.v).map fun t => r.vector blk codes j t).take (em.card.ext 0)

/-- The encodings of the scales of column (n, b), in ascending group order; none where the card is unscaled. -/
def EmRead.colScales (r : EmRead) (n b : Nat) : List Nat :=
  let em := r.em
  if em.card.scaleType = 0 then []
  else
    let w := scaleSize em.card.scaleType
    (natRange 0 em.h.bpc).flatMap fun kb =>
      let blk := mapGet r.blocks (em.blockNo kb n b) []
      (natRange 0 (em.blockScales (em.vecCount kb))).map fun i => emAt blk (16 + w * i) w

/-- The scale of group `g` of column (n, b) as a value. -/
def EmRead.scaleOf (r : EmRead) (scales : List Nat) (g : Nat) : Num :=
  if r.em.card.scaleType = 0 then numOne else scaleValue r.em.card.scaleType (scales.getD g 0)

/-- An Ember card's shape is one that R284 allows. -/
def Card.emberOk (c : Card) : Bool := c.ember && decide (c.dims ≤ 3) && (decide (c.scaleType = 0) || decide (c.groupDim = 0))

end Sys2Proof.Machine
end

