-- ==== Sys2Proof/Machine/Movers.lean ====
section
/-! DEFINITION. The mover opcodes COPY, FILL, GATHER, SCATTER, TRANSPOSE and WINDOW (R158 to R160, R164, R527). -/

namespace Sys2Proof.Machine

/-- The band of the outermost dimension of a destination that an engine covers (R158). -/
def Ctx.outerBand (c : Ctx) (dst : Card) : Nat × Nat := band dst.outer 1 c.width c.pos

/-- Rows of a destination in an engine's band, and the elements of each: a card of one dimension is split along it (R158). -/
def Ctx.bandRows (c : Ctx) (dst : Card) : List Ix := dst.rows (c.outerBand dst).1 (c.outerBand dst).2
def Ctx.rowLen (c : Ctx) (dst : Card) : Nat := dst.rowLen (c.outerBand dst).1 (c.outerBand dst).2

/-- Two cards have equal extents. -/
def sameExt (a b : Card) : Bool := (natRange 0 5).all fun k => decide (a.ext k = b.ext k)

/-- Coordinates with dimension 0 replaced. -/
def ixSet0 (i : Ix) (x : Int) : Ix := x :: i.drop 1

/-- Coordinates `x` elements further along dimension 0. -/
def ixPlus (i : Ix) (x : Nat) : Ix := ixSet0 i (ixAt i 0 + Int.ofNat x)

/-- Coordinates with dimension `k` replaced. -/
def ixSet (i : Ix) (k : Nat) (x : Int) : Ix := (natRange 0 5).map fun j => if j = k then x else ixAt i j

/-- The checks that the mover opcodes share, before the opcode's own effect `f` (R134, R148, R158). -/
def moverFx (w : W128) (sh : OpShape) (own : Ctx → Bool) (ok : Ctx → Bool) (f : Ctx → State → State × Option Nat)
    (c : Ctx) (t : State) : State × Option Nat :=
  match checks123 c.r.cmd sh w (own c) with
  | some d => (t, some d)
  | none =>
    if ((usedRefs w).any fun r => (c.card r.card).ember) ∨ !ok c then (t, some 0x040C) else f c t

/-- The frame of a mover opcode: checks 1 to 3, then R527, then the effect. -/
def State.mover (s : State) (e : Eng) (w : W128) (op : Nat) (sh : OpShape) (own : Ctx → Bool) (ok : Ctx → Bool)
    (f : Ctx → State → State × Option Nat) : State :=
  s.instr e w op (moverFx w sh own ok f)

/-- The ranges of runs of `n` elements of a card. -/
def Card.rowRanges (k : Card) (n : Nat) (rows : List Ix) : List (Nat × Nat) := rows.map fun i => k.runAt i n

def moverShape1 : OpShape := ⟨.required, .required, .unused, false⟩
def moverShape0 : OpShape := ⟨.required, .unused, .unused, false⟩
def moverShape2 : OpShape := ⟨.required, .required, .required, false⟩

/-- Patterns of a run of `n` elements of a card, as a mover reads them (R159). -/
def State.readRow (s : State) (cl : Nat) (k : Card) (i : Ix) (n : Nat) : Except Nat (List Nat) :=
  tryMap (fun x => s.elem cl k none (ixPlus i x)) (natRange 0 n)

/-! ### COPY (R164) -/

/-- Addresses of the scales of an element in two cards of one shape, and their size. -/
def State.copyScale (s : State) (cl : Nat) (src dst : Card) (i : Ix) : Except Nat Writes :=
  let w := scaleSize dst.scaleType
  let k := dst.scaleIndex i * w
  match s.cread cl (src.scaleBase + k) w with
  | .ok bs => .ok { items := [(dst.scaleBase + k, bs)] }
  | .error d => .error d

/-- Elements of a run of `n` from `i` upward whose scales are copied with it: those that begin a scale group, or all of them in a row
that begins a group of another dimension. -/
def Card.scaleStarts (k : Card) (i : Ix) (n : Nat) : List Ix :=
  ((natRange 0 n).map (ixPlus i)).filter fun j => decide ((ixAt j k.groupDim).toNat % groupSize k.group = 0)

/-- Ranges of the scales of a run. -/
def Card.scaleRanges (k : Card) (i : Ix) (n : Nat) : List (Nat × Nat) :=
  if k.scaleType = 0 then []
  else (k.scaleStarts i n).map fun j => (k.scaleBase + k.scaleIndex j * scaleSize k.scaleType, scaleSize k.scaleType)

/-- One row copied bit for bit, with its scales. -/
def State.copyRow (s : State) (cl : Nat) (src dst : Card) (n : Nat) (i : Ix) : Except Nat Writes :=
  match s.readRow cl src i n with
  | .error d => .error d
  | .ok ps =>
    if dst.scaleType = 0 then .ok (dst.storeRaw i ps)
    else match tryMap (s.copyScale cl src dst) (dst.scaleStarts i n) with
      | .error d => .error d
      | .ok ws => .ok ((dst.storeRaw i ps).append (joinWrites ws))

/-- One row converted (R164). -/
def State.convertRow (s : State) (c : Ctx) (src dst : Card) (n : Nat) (i : Ix) : Except Nat Writes :=
  match tryMap (fun x => s.scaledVal c.cl src c.rho (ixPlus i x)) (natRange 0 n) with
  | .error d => .error d
  | .ok vs => .ok (dst.storeRow c.rnd c.draw i vs)

/-- The rules of R527 for COPY. -/
def copyOk (conv : Bool) (dst src : Card) : Bool :=
  sameExt dst src &&
  (if conv then decide (dst.scaleType = 0)
   else decide (dst.typ = src.typ) && decide (dst.scaleType = src.scaleType) && decide (dst.group = src.group) &&
     decide (dst.groupDim = src.groupDim))

/-- Rows turned into writes one after the other. -/
def rowWrites (f : Ix → Except Nat Writes) (rows : List Ix) : Except Nat Writes :=
  match tryMap f rows with
  | .error d => .error d
  | .ok ws => .ok (joinWrites ws)

/-- What COPY does on one engine, before its pc moves on: the next state, or the detail it fails with. -/
def copyFx (w : W128) (c : Ctx) (t : State) : State × Option Nat :=
  let dst := c.dst w
  let src := c.srcA w
  let rows := c.bandRows dst
  let n := c.rowLen dst
  let t1 := t.moved c true (src.rowRanges n rows ++ rows.flatMap fun i => src.scaleRanges i n)
  t1.finish c c.g.unit (if wmods w = 1 then rowWrites (t.convertRow c src dst n) rows else rowWrites (t.copyRow c.cl src dst n) rows)

/-- COPY (R164, R527). -/
def copy (e : Eng) (w : W128) (s : State) : State :=
  s.mover e w 0x10 moverShape1 (fun _ => decide (wmods w ≤ 1) && wzero w 9 15)
    (fun c => copyOk (decide (wmods w = 1)) (c.dst w) (c.srcA w)) (copyFx w)

def execCopy (e : Eng) (w : W128) (s : State) : Host.Outcome State Fault Refusal := .next (copy e w s)

/-! ### FILL, GATHER, SCATTER, TRANSPOSE (R164, R527) -/

/-- What FILL does on one engine, before its pc moves on: the next state, or the detail it fails with. -/
def fillFx (w : W128) (c : Ctx) (t : State) : State × Option Nat :=
  let dst := c.dst w
  t.doWrites c c.g.unit (joinWrites ((c.bandRows dst).map fun i => dst.storeRaw i ((natRange 0 (c.rowLen dst)).map fun _ => wlong w 12)))

/-- FILL (R137, R164): the value's bits above the width of the destination's type are zero. -/
def fill (e : Eng) (w : W128) (s : State) : State :=
  s.mover e w 0x11 moverShape0
    (fun c => decide (wmods w = 0) && wzero w 9 11 && decide (wlong w 12 < 2 ^ (min 32 (c.dst w).bits))) (fun _ => true) (fillFx w)

def execFill (e : Eng) (w : W128) (s : State) : Host.Outcome State Fault Refusal := .next (fill e w s)

/-- The rules of R527 for GATHER and SCATTER; `many` is the card whose outermost extent the indices count. -/
def gatherOk (dst src idx many : Card) : Bool :=
  decide (idx.dims = 1) && decide (idx.typ = 10) && decide (idx.scaleType = 0) && decide (dst.typ = src.typ) &&
  decide (dst.scaleType = 0) && decide (src.scaleType = 0) && decide (dst.dims = src.dims) &&
  (natRange 0 (dst.dims - 1)).all (fun k => decide (dst.ext k = src.ext k)) && decide (many.outer = idx.ext 0)

/-- An index card's entry `j`. -/
def State.indexAt (s : State) (cl : Nat) (idx : Card) (j : Nat) : Except Nat Int :=
  match s.rawElem cl idx [Int.ofNat j, 0, 0, 0, 0] with
  | .ok n => .ok (signed n 32)
  | .error d => .error d

/-- Runs of the destination of a GATHER, one for each row of R527 that it takes: its coordinates in `dst`, its outermost coordinate
and its length. In a card of one dimension a row is one element. -/
def gatherRuns (dst : Card) (lo hi : Nat) : List (Ix × Nat × Nat) :=
  if dst.dims = 1 then (natRange lo (hi - lo)).map fun x => ([Int.ofNat x, 0, 0, 0, 0], x, 1)
  else (dst.rows lo hi).map fun i => (i, (ixAt i (dst.dims - 1)).toNat, dst.ext 0)

/-- One run gathered: the bytes that its source occupies, none for an index out of range (R159), and what it writes. -/
def State.gatherRun (s : State) (cl : Nat) (src idx dst : Card) (r : Ix × Nat × Nat) : Except Nat (List (Nat × Nat) × Writes) :=
  let (i, j, n) := r
  match s.indexAt cl idx j with
  | .error d => .error d
  | .ok x =>
    let at_ := ixSet i (dst.dims - 1) x
    match s.readRow cl src at_ n with
    | .error d => .error d
    | .ok ps => .ok (if src.inside at_ then [src.runAt at_ n] else [], dst.storeRaw i ps)

/-- What GATHER does on one engine, before its pc moves on: the next state, or the detail it fails with. -/
def gatherFx (w : W128) (c : Ctx) (t : State) : State × Option Nat :=
  let dst := c.dst w
  let (lo, hi) := c.outerBand dst
  match tryMap (t.gatherRun c.cl (c.srcA w) (c.srcB w) dst) (gatherRuns dst lo hi) with
  | .error d => (t, some d)
  | .ok rs => (t.moved c true (((c.srcB w).base + 4 * lo, 4 * (hi - lo)) :: rs.flatMap (·.1))).doWrites c c.g.unit (joinWrites (rs.map (·.2)))

/-- GATHER (R164, R527). -/
def gather (e : Eng) (w : W128) (s : State) : State :=
  s.mover e w 0x12 moverShape2 (fun _ => decide (wmods w = 0) && wzero w 9 15)
    (fun c => gatherOk (c.dst w) (c.srcA w) (c.srcB w) (c.dst w)) (gatherFx w)

def execGather (e : Eng) (w : W128) (s : State) : Host.Outcome State Fault Refusal := .next (gather e w s)

/-- What SCATTER does with row `j` of `src_a`: it is stored at the row that its index names, and dropped, unread, where that is out
of range. -/
def State.scatterRow (s : State) (c : Ctx) (src dst : Card) (x : Int) (j : Nat) : State × Option Nat :=
  if x < 0 ∨ (dst.outer : Int) ≤ x then (s, none)
  else
    let runs := gatherRuns src j (j + 1)
    (s.moved c true (runs.map fun (i, _, n) => src.runAt i n)).finish c c.g.unit (match tryMap (fun (r : Ix × Nat × Nat) =>
        match s.readRow c.cl src r.1 r.2.2 with
        | .ok ps => .ok (dst.storeRaw (ixSet r.1 (dst.dims - 1) x) ps)
        | .error d => .error d) runs with
      | .ok ws => .ok (joinWrites ws)
      | .error d => .error d)

/-- What SCATTER does on one engine, before its pc moves on: the next state, or the detail it fails with. -/
def scatterFx (w : W128) (c : Ctx) (t : State) : State × Option Nat :=
  if c.pos ≠ 0 then (t, none)
  else
    let idx := c.srcB w
    runEach (fun j u => match u.indexAt c.cl idx j with
      | .error d => (u, some d)
      | .ok x => u.scatterRow c (c.srcA w) (c.dst w) x j) (natRange 0 (idx.ext 0)) (t.moved c true [(idx.base, 4 * idx.ext 0)])

/-- SCATTER (R164, R527): engine 0 alone, the highest `j` winning. -/
def scatter (e : Eng) (w : W128) (s : State) : State :=
  s.mover e w 0x13 moverShape2 (fun _ => decide (wmods w = 0) && wzero w 9 15)
    (fun c => gatherOk (c.dst w) (c.srcA w) (c.srcB w) (c.srcA w)) (scatterFx w)

def execScatter (e : Eng) (w : W128) (s : State) : Host.Outcome State Fault Refusal := .next (scatter e w s)

/-- Coordinates with dimensions 0 and 1 exchanged. -/
def ixSwap (i : Ix) : Ix := [ixAt i 1, ixAt i 0, ixAt i 2, ixAt i 3, ixAt i 4]

/-- The rules of R527 for TRANSPOSE. -/
def transposeOk (dst src : Card) : Bool :=
  decide (dst.typ = src.typ) && decide (dst.scaleType = 0) && decide (src.scaleType = 0) && decide (dst.ext 0 = src.ext 1) &&
  decide (dst.ext 1 = src.ext 0) && (natRange 2 3).all fun k => decide (dst.ext k = src.ext k)

/-- The bytes of the source that an engine's band of a transposed card comes from. -/
def transposeReads (dst src : Card) (lo hi : Nat) : List (Nat × Nat) :=
  match dst.dims with
  | 1 => (natRange lo (hi - lo)).map fun r => src.runAt [0, Int.ofNat r, 0, 0, 0] 1
  | 2 => if hi ≤ lo then [] else (natRange 0 (src.ext 1)).map fun r => src.runAt [Int.ofNat lo, Int.ofNat r, 0, 0, 0] (hi - lo)
  | _ => ((dst.rows lo hi).filter fun i => decide (ixAt i 1 = 0)).flatMap fun i =>
      (natRange 0 (src.ext 1)).map fun r => src.runAt (ixSet i 1 (Int.ofNat r)) (src.ext 0)

/-- What TRANSPOSE does on one engine, before its pc moves on: the next state, or the detail it fails with. -/
def transposeFx (w : W128) (c : Ctx) (t : State) : State × Option Nat :=
  let dst := c.dst w
  let src := c.srcA w
  let rows := c.bandRows dst
  let n := c.rowLen dst
  let row := fun (i : Ix) => match tryMap (fun x => t.elem c.cl src none (ixSwap (ixPlus i x))) (natRange 0 n) with
    | .ok ps => .ok (dst.storeRaw i ps)
    | .error d => .error d
  (t.moved c true (transposeReads dst src (c.outerBand dst).1 (c.outerBand dst).2)).finish c c.g.unit (rowWrites row rows)

/-- TRANSPOSE (R164, R527). -/
def transpose (e : Eng) (w : W128) (s : State) : State :=
  s.mover e w 0x14 moverShape1 (fun _ => decide (wmods w = 0) && wzero w 9 15) (fun c => transposeOk (c.dst w) (c.srcA w)) (transposeFx w)

def execTranspose (e : Eng) (w : W128) (s : State) : Host.Outcome State Fault Refusal := .next (transpose e w s)

/-! ### WINDOW (R164, R236, R527) -/

/-- The fields of a WINDOW: kernel, strides, dilations and paddings. -/
structure WinFields where
  kh : Nat
  kw : Nat
  sy : Nat
  sx : Nat
  dy : Nat
  dx : Nat
  pt : Nat
  pb : Nat
  pl : Nat
  pr : Nat
  deriving DecidableEq, Repr

def winFields (w : W128) : WinFields :=
  { kh := wbyte w 9, kw := wbyte w 10, sy := bits (wbyte w 11) 0 4 + 1, sx := bits (wbyte w 11) 4 4 + 1
    dy := bits (wbyte w 12) 0 4 + 1, dx := bits (wbyte w 12) 4 4 + 1, pt := bits (wbyte w 13) 0 4, pb := bits (wbyte w 13) 4 4
    pl := bits (wbyte w 14) 0 4, pr := bits (wbyte w 14) 4 4 }

/-- An output extent of a convolution (R236), none where the window does not fit once. -/
def convOut (inp pad k d st : Nat) : Option Nat :=
  let span := (k - 1) * d + 1
  if span ≤ inp + pad then some ((inp + pad - span) / st + 1) else none

/-- The rules of R527 for WINDOW. -/
def windowOk (f : WinFields) (dst src : Card) : Bool :=
  decide (src.dims = 3) && decide (dst.dims = 3) && decide (dst.ext 0 = src.ext 0 * f.kw * f.kh) &&
  decide (convOut (src.ext 1) (f.pl + f.pr) f.kw f.dx f.sx = some (dst.ext 1)) &&
  decide (convOut (src.ext 2) (f.pt + f.pb) f.kh f.dy f.sy = some (dst.ext 2)) &&
  decide (dst.typ = src.typ) && decide (dst.scaleType = 0) && decide (src.scaleType = 0)

/-- Where element `v` of the window vector at an output position is read. -/
def winIx (f : WinFields) (chans : Nat) (i : Ix) (v : Nat) : Ix :=
  let k := v / chans
  [Int.ofNat (v % chans), ixAt i 1 * f.sx - f.pl + ((k % f.kw * f.dx : Nat) : Int),
   ixAt i 2 * f.sy - f.pt + ((k / f.kw * f.dy : Nat) : Int), 0, 0]

/-- A window over one dimension of extent `n`: its size, stride, dilation and leading padding. -/
structure Win1 where
  n : Nat
  k : Nat
  st : Nat
  dl : Nat
  pad : Nat
  deriving DecidableEq, Repr

/-- The core of an engine for a band of output rows (R161). -/
def Win1.core (v : Win1) (b : Nat × Nat) : Int × Int := (Int.ofNat (b.1 * v.st) - v.pad, Int.ofNat (b.2 * v.st) - v.pad)

/-- Input indices from `lo` up to `hi` that lie inside. -/
def Win1.clip (v : Win1) (lo hi : Int) : List Nat := natRange lo.toNat ((min hi v.n).toNat - lo.toNat)

/-- The input rows that the engine at position `pos` of `width` fetches for its band, of output rows cut in units of `u` (R161): with
halo exchange its core, and of the rows past it those that lie outside the next engine's core. -/
def Win1.fetched (v : Win1) (halo : Bool) (m u width pos : Nat) : List Nat :=
  let own := band m u width pos
  if own.2 ≤ own.1 then []
  else
    let c := v.core own
    let reach := (v.k - 1) * v.dl + 1
    if !halo then v.clip c.1 (c.2 - v.st + reach)
    else
      let next := band m u width (pos + 1)
      let nc := if pos + 1 < width ∧ next.1 < next.2 then v.core next else (0, 0)
      v.clip c.1 c.2 ++ (v.clip c.2 (c.2 + Int.ofNat (reach - v.st))).filter fun r => !(decide (nc.1 ≤ Int.ofNat r) && decide (Int.ofNat r < nc.2))

/-- The input columns that output columns [lo, hi) read. -/
def Win1.span (v : Win1) (lo hi : Nat) : List Nat :=
  v.clip (Int.ofNat (lo * v.st) - v.pad) (Int.ofNat ((hi - 1) * v.st + (v.k - 1) * v.dl + 1) - v.pad)

/-- The runs of rows `ys` and columns `xs` of plane `b` of an input. -/
def Card.planeRuns (k : Card) (xs ys : List Nat) (b : Nat) : List (Nat × Nat) :=
  ys.flatMap fun y => xs.map fun x => k.runAt [0, Int.ofNat x, Int.ofNat y, Int.ofNat b, 0] (k.ext 0)

/-- What WINDOW does on one engine, before its pc moves on: the next state, or the detail it fails with. -/
def windowFx (w : W128) (c : Ctx) (t : State) : State × Option Nat :=
  let f := winFields w
  let dst := c.dst w
  let src := c.srcA w
  let rows := c.bandRows dst
  let row := fun (i : Ix) => match tryMap (fun v => t.elem c.cl src none (winIx f (src.ext 0) i v)) (natRange 0 (dst.ext 0)) with
    | .ok ps => .ok (dst.storeRaw i ps)
    | .error d => .error d
  let vx : Win1 := ⟨src.ext 1, f.kw, f.sx, f.dx, f.pl⟩
  let vy : Win1 := ⟨src.ext 2, f.kh, f.sy, f.dy, f.pt⟩
  (t.moved c true (src.planeRuns (vx.span 0 (dst.ext 1)) (vy.fetched (decide (c.r.cmd.reuse = 1)) dst.outer 1 c.width c.pos) 0)).finish c
    c.g.unit (rowWrites row rows)

/-- WINDOW (R164, R527). -/
def window (e : Eng) (w : W128) (s : State) : State :=
  let f := winFields w
  s.mover e w 0x15 moverShape1
    (fun _ => decide (wmods w = 0) && decide (1 ≤ f.kh) && decide (f.kh ≤ 16) && decide (1 ≤ f.kw) && decide (f.kw ≤ 16) && wzero w 15 15)
    (fun c => windowOk f (c.dst w) (c.srcA w)) (windowFx w)

def execWindow (e : Eng) (w : W128) (s : State) : Host.Outcome State Fault Refusal := .next (window e w s)

end Sys2Proof.Machine
end

