-- ==== Sys2Proof/Machine/Gate.lean ====
section
/-! DEFINITION. The gate engine (R219 to R234): functions, micro-sequences and their checks, and what a sequence does to one row; with
GSEQ_SET, GSEQ_CLR, GATE_MAP and GATE_ROWS. -/

namespace Sys2Proof.Machine

/-! ### Functions (R223, R224) -/

/-- The integer square root of `n`, by its bits from bit `k` downward. -/
def sqrtBits : Nat → Nat → Nat → Nat
  | 0, _, r => r
  | k + 1, n, r => let t := r + 2 ^ k; sqrtBits k n (if t * t ≤ n then t else r)

/-- Square root, close enough to be rounded correctly to FP32: at least 40 bits and a sticky bit. -/
def Num.sqrt : Num → Num
  | .nan => .nan
  | .inf neg => if neg then .nan else .inf false
  | .fin neg m e =>
    if m = 0 then .fin neg 0 e
    else if neg then .nan
    else
      let k : Nat := 80 + (if (e - 80) % 2 = 0 then 0 else 1)
      let n := m * 2 ^ k
      let r := sqrtBits (bitLen n / 2 + 1) n 0
      .fin false (2 * r + (if r * r = n then 0 else 1)) ((e - k) / 2 - 1)

def negZero : Num := .fin true 0 0

/-! The exact results of R224, to far more than the bound asks: fixed-point numbers of 256 fraction bits -/

def fixOne : Nat := 2 ^ 256

/-- The magnitude of a finite number in fixed point. -/
def fixOf (m : Nat) (e : Int) : Nat := (scaledInt false m e (-256)).toNat

/-- The sum of `y^k / k!` from the term `t` on. -/
def expSeries (y : Nat) : Nat → Nat → Nat → Nat
  | 0, _, _ => 0
  | n + 1, k, t => t + expSeries y n (k + 1) (t * y / (k * fixOne))

/-- `v` squared `n` times. -/
def fixSquares : Nat → Nat → Nat
  | 0, v => v
  | n + 1, v => fixSquares n (v * v / fixOne)

/-- e^x for x in fixed point, below 2^8. -/
def fixExp (neg : Bool) (x : Nat) : Nat :=
  let v := fixSquares 16 (expSeries (x / 65536) 32 1 fixOne)
  if neg then fixOne * fixOne / v else v

/-- 1 / √(2π). -/
def fixInvSqrtTwoPi : Nat := 0x662114cf50d942343f2cf1402eae38bfd3829f30512706d8c0471b4802639d2e

/-- The sum of `x^(2n+1) / (2n+1)!!` from the term `t` on. -/
def normalSeries (x2 : Nat) : Nat → Nat → Nat → Nat
  | 0, _, _ => 0
  | n + 1, k, t => t + normalSeries x2 n (k + 2) (t * x2 / (k * fixOne))

/-- (1 + erf(x / √2)) / 2 for x in fixed point, below 2^4. -/
def fixNormal (neg : Bool) (x : Nat) : Nat :=
  let x2 := x * x / fixOne
  let tail := normalSeries x2 900 3 x * fixInvSqrtTwoPi / fixExp false (x2 / 2)
  if neg then fixOne / 2 - tail else fixOne / 2 + tail

/-- 1 / (1 + e^-x) in fixed point. -/
def fixSigmoid (neg : Bool) (x : Nat) : Nat :=
  let v := fixExp true x
  if neg then v * fixOne / (fixOne + v) else fixOne * fixOne / (fixOne + v)

/-- The exact result of a function of R224 at a finite input that is not zero, up to an error far below its bound. Beyond the
magnitudes named, the result is the limit that it differs from by less than the bound. -/
def gateExact (code : Nat) (n : Bool) (m : Nat) (e : Int) : Num :=
  let big := fun (k : Nat) => (Num.fin false k 0).lt (.fin false m e)
  let x := fixOf m e
  match code with
  | 0x08 => if big 150 then (if n then numZero else numOne) else .fin false (fixSigmoid n x) (-256)
  | 0x09 => if big 150 then (if n then negZero else .fin false m e) else .fin n (m * fixSigmoid n x) (e - 256)
  | 0x0A => if big 15 then (if n then negZero else .fin false m e) else .fin n (m * fixNormal n x) (e - 256)
  | 0x0B => if big 150 then (if n then numZero else .inf false) else .fin false (fixExp n x) (-256)
  | _ =>
    let q := m * (if e % 2 = 0 then 1 else 2)
    let r := sqrtBits 241 (2 ^ 480 / q) 0
    .fin false r (-240 - (if e % 2 = 0 then e / 2 else (e - 1) / 2))

/-- The bound of R224 around the exact result. -/
def gateBound (a : Num) : Num :=
  match a with
  | .fin _ m e => let top : Int := (bitLen m : Int) - 1 + e; .fin false 1 (if m = 0 ∨ top < -126 then -132 else top - 6)
  | _ => numZero

/-- A function of R224 at a finite input that is not zero: ±∞ where the exact result lies beyond the FP32 range, else a free value
within the bound, which depends on the function, ρ and the input alone (log 10). -/
def gateFree (code rho : Nat) (x : Num) : Num :=
  match x with
  | .fin n m e =>
    let a := gateExact code n m e
    if (Num.fin false (2 ^ 24 - 1) 104).lt a.abs then .inf (a.lt numZero)
    else
      let r := num32 (Config.gateFunction code (decide (rho = 0)) (BitVec.ofNat 32 (fp32.encode x))).toNat
      match r with
      | .fin _ _ _ => if (gateBound a).lt (r.add a.neg).abs then round32 1 a else r
      | _ => round32 1 a
  | y => y

/-- A function of R223 by its `mop`, 0x08 to 0x0E. -/
def gateFn (code rho : Nat) (x : Num) : Num :=
  match code, x with
  | 0x0C, _ => div32 rho numOne x
  | 0x0E, _ => round32 rho x.sqrt
  | _, .nan => .nan
  | 0x08, .inf n => if n then numZero else numOne
  | 0x0B, .inf n => if n then numZero else .inf false
  | 0x0D, .inf n => if n then .nan else numZero
  | _, .inf n => if n then negZero else .inf false
  | _, .fin n m e =>
    if m = 0 then
      match code with
      | 0x08 => .fin false 1 (-1)
      | 0x0B => numOne
      | 0x0D => .inf n
      | _ => .fin n 0 0
    else if code = 0x0D ∧ n then .nan
    else gateFree code rho (.fin n m e)

/-- max and min of R223: NaN for a NaN, and -0 below +0. -/
def gateMax (a b : Num) : Num :=
  match a, b with
  | .fin n 0 _, .fin n' 0 _ => .fin (n && n') 0 0
  | _, _ => maxNum a b
def gateMin (a b : Num) : Num :=
  match a, b with
  | .fin n 0 _, .fin n' 0 _ => .fin (n || n') 0 0
  | _, _ => minNum a b

/-! ### Micro-sequences (R221 to R223, R229) -/

/-- Where a sequence runs (R219). -/
inductive GCtx where
  | matmul | map | rows
  deriving DecidableEq, Repr

/-- More fields of a GSEQ_SET word. -/
def gArg (w : W128) : Nat := wbyte w 10
def gConst (w : W128) : Num := num32 (wlong w 12)
def gBcast (w : W128) : Nat := bits (gArg w) 0 2

/-- A micro-operation reads a stream. -/
def isStreamOp (mop : Nat) : Bool := decide (1 ≤ mop ∧ mop ≤ 3) || decide (mop = 0x0F)

/-- `arg` values that are not reserved (R223). -/
def argOk (mop arg : Nat) : Bool :=
  if 1 ≤ mop ∧ mop ≤ 3 then decide (arg ≤ 2)
  else if mop = 0x0F then decide (bits arg 0 2 ≠ 3) && decide (bits arg 2 2 ≠ 3) && decide (arg < 16)
  else if mop = 0x10 then decide (arg ≤ 2)
  else if mop = 0x11 then decide (arg ≤ 1)
  else if mop = 0x13 then decide (bits arg 0 2 ≠ 0) && decide (bits arg 2 2 ≠ 0) && decide (arg < 16)
  else decide (arg = 0)

/-- An operation is allowed in a context (R223). -/
def opInCtx (k : GCtx) (mop : Nat) : Bool :=
  if mop = 0x10 then decide (k ≠ .rows)
  else if mop = 0x11 ∨ mop = 0x12 then decide (k = .rows)
  else true

/-- The rules of R229 but those of cards. -/
def seqOk (k : GCtx) (ops : List W128) : Bool :=
  let cnt := fun (p : W128 → Bool) => (ops.filter p).length
  ops.all (fun w => opInCtx k (gMop w)) && decide (cnt (fun w => decide (gMop w = 0x10)) ≤ 1) &&
  decide (cnt (fun w => decide (gMop w = 0x11) || decide (gMop w = 0x12)) ≤ 1) &&
  (ops.take (ops.length - 1)).all (fun w => decide (gMop w ≠ 0x13)) &&
  decide (cnt (fun w => isStreamOp (gMop w) && decide (gBcast w = 0)) ≤ 4)

/-- A card's extents equal `ext` (missing ones are 1). -/
def extIs (c : Card) (ext : List Nat) : Bool := (natRange 0 5).all fun k => decide (c.ext k = ext.getD k 1)

/-- A stream card is as R225 says for a value shape. -/
def streamOk (c : Card) (bcast : Nat) (shape : List Nat) : Bool :=
  decide (c.tier = 1) && !c.ember && [3, 5, 6, 7, 8, 9].contains c.typ &&
  (decide (c.scaleType = 0) || ([3, 5, 6].contains c.typ && decide (c.groupDim = 0))) &&
  (match bcast with
   | 0 => extIs c shape
   | 1 => decide (c.dims = 1) && decide (c.ext 0 = shape.getD 0 1)
   | _ => extIs c (shape.drop 1))

/-- A stats card is as R226 says; the value shape has one extent for each of its dimensions. -/
def statsOk (c : Card) (e : Nat) (shape : List Nat) : Bool :=
  decide (c.typ = 9) && decide (c.scaleType = 0) && decide (shape.length ≤ 4) &&
  extIs c (2 :: ceilDiv (shape.getD 0 1) e :: shape.drop 1)

/-- The strides of a card are dense. -/
def Card.dense (c : Card) : Bool :=
  (natRange 1 (c.dims - 1)).all fun k => decide (c.str k = (if k = 1 then c.rowBytes else c.str (k - 1) * c.ext (k - 1)))

/-- Where a REQUANT's scales go, and whether its cards are as R228 says; `e` is the level-0 extent of walk dimension 1. -/
def requantOk (k : GCtx) (w : W128) (dst : Card) (extra : Option Card) (e : Nat) : Bool :=
  let st := bits (gArg w) 0 2
  let gr := bits (gArg w) 2 2
  [1, 3, 5, 6].contains dst.typ &&
  (if k = .matmul then
    match extra with
    | none => false
    | some c => decide (c.typ = (match st with | 1 => 5 | 2 => 7 | _ => 4)) &&
        extIs c (ceilDiv (dst.ext 0) (groupSize gr) :: (natRange 1 4).map dst.ext) && c.dense && decide (c.scaleType = 0) &&
        decide (e % groupSize gr = 0)
   else extra.isNone && decide (dst.scaleType = st) && decide (dst.group = gr) && decide (dst.groupDim = 0))

/-- A card that an operand of a sequence position names. -/
def Ctx.refCard (c : Ctx) (r : Ref) : Option Card := if r.absent then none else some (c.card r.card)

/-- The card rules of a sequence (R225, R226, R228, R229). -/
def Ctx.seqCards (c : Ctx) (k : GCtx) (ops : List W128) (dst : Card) (shape : List Nat) (e : Nat) : Bool :=
  (ops.all fun w =>
    if isStreamOp (gMop w) then
      match c.refCard (wsrcA w) with | some x => streamOk x (gBcast w) shape | none => false
    else if gMop w = 0x10 then
      match c.refCard (wdst w) with | some x => statsOk x e shape | none => false
    else if gMop w = 0x13 then requantOk k w dst (c.refCard (wdst w)) e
    else true) &&
  (decide (dst.scaleType = 0) || ops.any fun w => decide (gMop w = 0x13))

/-! ### One row (R219, R220, R223, R226 to R228) -/

/-- Pairs of neighbours added, one level of the tree of R226. -/
def treeLevel (rho : Nat) : List Num → List Num
  | a :: b :: rest => add32 rho a b :: treeLevel rho rest
  | [a] => [a]
  | [] => []

def treeFold (rho : Nat) : Nat → List Num → Num
  | 0, xs => xs.headD numZero
  | n + 1, xs => treeFold rho n (treeLevel rho xs)

/-- The pairwise sum of a block of at most 2^`lv` lanes, out-of-bound lanes +0 (R226). -/
def treeSum (rho lv : Nat) (xs : List Num) : Num :=
  treeFold rho lv (xs ++ (natRange xs.length (2 ^ lv - xs.length)).map fun _ => numZero)

/-- A list in blocks of `k`. -/
def blocksOf {α : Type} (k : Nat) : Nat → List α → List (List α)
  | 0, _ => []
  | n + 1, xs => if xs.isEmpty then [] else xs.take k :: blocksOf k n (xs.drop k)

/-- The sum of a row: trees over blocks of 2^`lv`, added in ascending order (R227). -/
def rowSum (rho lv : Nat) (xs : List Num) : Num :=
  match (blocksOf (2 ^ lv) xs.length xs).map (treeSum rho lv) with
  | [] => numZero
  | b :: bs => bs.foldl (add32 rho) b

/-- The largest value of a list, NaN if it holds one. Of zeros of both signs it is the first in lane order (DESIGN CHOICE,
log 196). -/
def listMax : List Num → Num
  | [] => .inf true
  | x :: xs => xs.foldl maxNum x

def isMinusInf (x : Num) : Bool := decide (x = .inf true)

/-- A record of ROWSTAT over one block (R226). -/
def statRecord (rho lv stat : Nat) (xs : List Num) : List Num :=
  match stat with
  | 0 =>
    let m := listMax xs
    [m, if isMinusInf m then numZero else treeSum rho lv (xs.map fun x => gateFn 0x0B rho (add32 rho x m.neg))]
  | 1 => [treeSum rho lv xs, treeSum rho lv (xs.map fun x => mul32 rho x x)]
  | _ => [treeSum rho lv (xs.map fun x => mul32 rho x x), numZero]

/-- NORM and SOFTMAX over a row (R227). -/
def normRow (rho lv : Nat) (layer : Bool) (eps : Num) (ys : List Num) : List Num :=
  let len := numOfInt (Int.ofNat ys.length)
  let mu := div32 rho (rowSum rho lv ys) len
  let zs := if layer then ys.map fun y => add32 rho y mu.neg else ys
  let q := div32 rho (rowSum rho lv (zs.map fun z => mul32 rho z z)) len
  let k := gateFn 0x0D rho (add32 rho q eps)
  zs.map fun z => mul32 rho z k
def softmaxRow (rho lv : Nat) (ys : List Num) : List Num :=
  let m := listMax ys
  if isMinusInf m then ys.map fun _ => numZero
  else
    let es := ys.map fun y => gateFn 0x0B rho (add32 rho y m.neg)
    let t := rowSum rho lv es
    es.map fun x => div32 rho x t

/-- What a sequence has made of a run of a row that begins in column `first`: its values, what it writes beside them, and function
evaluations. -/
structure GRow where
  first : Nat
  vals : List Num
  extra : Writes := {}
  evals : Nat := 0
  deriving DecidableEq, Repr

/-- Log2 of the gate engine's lanes: 128, or 32 on Kindling (R219). -/
def Ctx.lanes (c : Ctx) : Nat := if c.r.kind = 6 then 5 else 7

/-- The stream value for column `x` of a row (R225). -/
def State.streamVal (s : State) (c : Ctx) (k : Card) (bcast : Nat) (i : Ix) (x : Nat) : Except Nat Num :=
  s.laneVal c.cl k c.rho (match bcast with
    | 0 => ixSet0 i (Int.ofNat x)
    | 1 => [Int.ofNat x, 0, 0, 0, 0]
    | _ => i.drop 1 ++ [0])

/-- A stream operation on one lane (R223). -/
def streamOp (rho : Nat) (w : W128) (x t : Num) : Num :=
  match gMop w with
  | 1 => add32 rho x t
  | 2 => mul32 rho x t
  | 3 => add32 rho x (mul32 rho (gConst w) t)
  | _ => mul32 rho (gateFn (match bits (gArg w) 2 2 with | 0 => 0x08 | 1 => 0x09 | _ => 0x0A) rho t) x

/-- The scale of group `j` of a requantised row written: into `dst`'s scale array, or into the scale card behind a MATMUL (R228). -/
def scaleWrite (k : GCtx) (dst : Card) (extra : Option Card) (i : Ix) (j enc : Nat) : Writes :=
  match k, extra with
  | .matmul, some c => c.storeRaw (ixSet0 i (Int.ofNat j)) [enc]
  | _, _ =>
    let w := scaleSize dst.scaleType
    { items := [(dst.scaleBase + dst.scaleIndex (ixSet0 i (Int.ofNat (j * groupSize dst.group))) * w, leBytes enc w)] }

/-- What the blocks of `n` columns of a run write, for the blocks that begin in a column of the engine's own (R158, log 29); `f` gives
the write of a block by its number in the row. -/
def blockWrites (own : Nat → Bool) (first n count : Nat) (f : Nat → Nat → Writes) : Writes :=
  joinWrites (((natRange 0 count).filter fun j => own (first + j * n)).map fun j => f j (first / n + j))

/-- REQUANT of a run of a row (R183, R184, R228). -/
def requantRow (k : GCtx) (rho : Nat) (w : W128) (dst : Card) (extra : Option Card) (own : Nat → Bool) (i : Ix) (first : Nat) (xs : List Num) :
    List Num × Writes :=
  let st := bits (gArg w) 0 2
  let n := groupSize (bits (gArg w) 2 2)
  let groups := (blocksOf n xs.length xs).map fun g =>
    let (s, enc) := requantScale st (requantLimit dst.typ) (listMax (g.map Num.abs))
    (g.map (requantValue st rho s), enc)
  ((groups.map (·.1)).flatten,
   blockWrites own first n groups.length fun j at_ => scaleWrite k dst extra i at_ (groups.getD j ([], 0)).2)

/-- One operation on a run of a row; `e` is the block width of ROWSTAT, `own` the engine's own columns. -/
def State.gateOp (s : State) (c : Ctx) (k : GCtx) (dst : Card) (e : Nat) (own : Nat → Bool) (i : Ix) (g : GRow) (w : W128) : Except Nat GRow :=
  let rho := c.rho
  let xs := g.vals
  let mop := gMop w
  if isStreamOp mop then
    let card := c.card (wsrcA w).card
    match tryMap (fun x => match s.streamVal c card (gBcast w) i (g.first + x) with
        | .ok t => .ok (streamOp rho w (xs.getD x numZero) t)
        | .error d => .error d) (natRange 0 xs.length) with
    | .ok ys => .ok { g with vals := ys, evals := g.evals + (if mop = 0x0F then xs.length else 0) }
    | .error d => .error d
  else .ok (match mop with
    | 0x04 => { g with vals := xs.map (add32 rho · (gConst w)) }
    | 0x05 => { g with vals := xs.map (mul32 rho · (gConst w)) }
    | 0x06 => { g with vals := xs.map (gateMax · (gConst w)) }
    | 0x07 => { g with vals := xs.map (gateMin · (gConst w)) }
    | 0x10 =>
      let card := c.card (wdst w).card
      let recs := (blocksOf e xs.length xs).map (statRecord rho c.lanes (gArg w))
      let ws := blockWrites own g.first e recs.length fun j at_ =>
        card.storeRow 1 (fun _ => 0) (0 :: Int.ofNat at_ :: i.drop 1 |>.take 5) (recs.getD j [])
      { g with extra := g.extra.append ws, evals := g.evals + (if gArg w = 0 then xs.length else 0) }
    | 0x11 => { g with vals := normRow rho c.lanes (bit (gArg w) 0) (gConst w) xs, evals := g.evals + 1 }
    | 0x12 => { g with vals := softmaxRow rho c.lanes xs, evals := g.evals + xs.length }
    | 0x13 =>
      let (ys, ws) := requantRow k rho w dst (c.refCard (wdst w)) own i g.first xs
      { g with vals := ys, extra := g.extra.append ws }
    | _ => { g with vals := xs.map (gateFn mop rho), evals := g.evals + xs.length })

/-- A sequence applied to the run of a row from column `first` on, of the row at coordinates `i`. -/
def State.gateRow (s : State) (c : Ctx) (k : GCtx) (ops : List W128) (dst : Card) (e : Nat) (own : Nat → Bool) (i : Ix) (first : Nat)
    (xs : List Num) : Except Nat GRow :=
  tryFold (s.gateOp c k dst e own i) { first := first, vals := xs } ops

/-- The counter block of the gate engine: of the EWE fused to the engine, or Kindling's own. -/
def Ctx.gateUnit (c : Ctx) : Nat := if c.r.kind = 6 then 0x010 else 0x100 + c.num

/-- Rows and function evaluations counted at an EWE; the codes mean other events on Kindling (R479). -/
def State.gateEvents (s : State) (c : Ctx) (rows evals : Nat) : State :=
  if c.r.kind = 6 then s
  else (s.count c.r.die c.gateUnit 0x40 rows (some c.cl)).count c.r.die c.gateUnit 0x41 evals (some c.cl)

/-- Bytes that the streams of a sequence supply for columns [first, first + n) of rows (R232): a full stream's runs, a per-column
stream's once, and a per-row stream's value for each row where `perRow` asks for it. -/
def Ctx.streamRanges (c : Ctx) (ops : List W128) (rows : List Ix) (first n : Nat) (perRow : Bool) : List (Nat × Nat) :=
  ops.flatMap fun w =>
    if isStreamOp (gMop w) then
      let k := c.card (wsrcA w).card
      match gBcast w with
      | 0 => rows.flatMap fun i => let j := ixSet0 i (Int.ofNat first); k.runAt j n :: k.scaleRanges j n
      | 1 => if rows.isEmpty then [] else let j : Ix := [Int.ofNat first, 0, 0, 0, 0]; k.runAt j n :: k.scaleRanges j n
      | _ => if perRow then rows.flatMap fun i => let j := i.drop 1 ++ [0]; k.runAt j 1 :: k.scaleRanges j 1 else []
    else []

/-! ### What a check finds (R199 to R203, R234) -/

/-- A status field of an MXE's gate engine, or of the MXE, raised with its fault counter. -/
def State.noteCheck (s : State) (seen cnt : Fld) : State := (s.setFlag seen true).addFld cnt 1

/-- A detection at a gate engine (R234): no register of Kindling shows it. -/
def State.gateFault (s : State) (c : Ctx) (detail : Nat) : State × Option Nat :=
  let s1 := s.count c.r.die c.gateUnit 0x0C (b2n (decide (detail = 0x0701))) (some c.cl)
  let s2 := if c.r.kind = 6 then s1
    else if detail = 0x0701 then
      s1.noteCheck (Fld.EWE_STATUS_check_seen c.r.die c.num) (Fld.EWE_STATUS_check_faults c.r.die c.num)
    else s1.addFld (Fld.EWE_STATUS_check_faults c.r.die c.num) 1
  (s2, some detail)

/-- The gate engine's checks are on (R249). -/
def State.gateChecks (s : State) (c : Ctx) : Bool × Bool :=
  if c.r.kind = 6 then (true, true)
  else (s.flag (Fld.EWE_CTRL_check_enable c.r.die c.num), s.flag (Fld.EWE_CTRL_ecc_enable c.r.die c.num))

/-- A single-bit error that the SECDED of a unit's store has corrected while a command ran, where it is `on`: counted, shown in the
unit's status and logged with class 0 (R234, R250, R281, R409). -/
def State.corrected (s : State) (c : Ctx) (u : Nat) (on : Bool) : State :=
  if on then (s.storeCorrected c.r.die u (some c.cl)).logCorrected (unitOf c.r.die u) 0 c.cl else s

/-- What a check result leaves of a corrected error in the gate engine's store. -/
def State.gateCorrected (s : State) (c : Ctx) (chk : EngCheck) : State :=
  s.corrected c c.g.unit ((s.gateChecks c).2 && (decide (chk = .storeCorrected) || decide (chk = .gateStoreCorrected)))

/-- The detail with which a check of the gate engine ends an instruction. -/
def State.gateCheck (s : State) (c : Ctx) (chk : EngCheck) : Option Nat :=
  match chk with
  | .mismatch => if (s.gateChecks c).1 then some 0x0701 else none
  | .gateMismatch => if (s.gateChecks c).1 then some 0x0701 else none
  | .storeUncorrectable => if (s.gateChecks c).2 then some 0x0702 else none
  | .gateStoreUncorrectable => if (s.gateChecks c).2 then some 0x0702 else none
  | _ => none

/-! ### The gate opcodes (R222, R230, R231) -/

def gateShape : OpShape := ⟨.required, .required, .unused, false⟩

/-- GSEQ_SET (R222, R223): check 1 of R137 on its own layout. -/
def gseqSetOk (w : W128) : Bool :=
  let mop := gMop w
  decide (1 ≤ bits (wmods w) 0 4) && decide (mop ≤ 0x13) && argOk mop (gArg w) && decide (wbyte w 8 = 0) && wzero w 11 11 &&
  refOk (wdst w) (if mop = 0x10 then .required else if mop = 0x13 then .optional else .unused) false &&
  refOk (wsrcA w) (if isStreamOp mop then .required else .unused) false && refOk (wsrcB w) .unused false

/-- What GSEQSET does on one engine, before its pc moves on: the next state, or the detail it fails with. -/
def gseqSetFx (e : Eng) (w : W128) (c : Ctx) (t : State) : State × Option Nat :=
  match checks123 c.r.cmd ⟨.optional, .optional, .unused, false⟩ w (gseqSetOk w) with
  | some d => (t, some d)
  | none =>
    let key := bits (wmods w) 0 4 * 16 + bits (wmods w) 4 4
    (t.modEng e fun g => { g with gseq := if gMop w = 0 then mapDel g.gseq key else mapSet g.gseq key w }, none)

/-- GSEQ_SET (R221, R222, R223). -/
def gseqSet (e : Eng) (w : W128) (s : State) : State :=
  s.instr e w 0x50 (gseqSetFx e w)

def execGseqSet (e : Eng) (w : W128) (s : State) : Host.Outcome State Fault Refusal := .next (gseqSet e w s)

/-- Fields of GSEQ_CLR (R137, R221). -/
def gseqClrOk (w : W128) : Bool := allAbsent w && decide (1 ≤ wmods w) && decide (wmods w ≤ 15) && wzero w 8 15

/-- What GSEQCLR does on one engine, before its pc moves on: the next state, or the detail it fails with. -/
def gseqClrFx (e : Eng) (w : W128) (_c : Ctx) (t : State) : State × Option Nat :=
  let slot := wmods w
  if !gseqClrOk w then (t, some 0x0402)
  else (t.modEng e fun g => { g with gseq := g.gseq.filter fun (k, _) => decide (k / 16 ≠ slot) }, none)

/-- Own fields of GATE_MAP and GATE_ROWS (R137, R231). -/
def gateOwn (w : W128) : Bool := decide (wmods w = 0) && decide (1 ≤ wbyte w 9) && decide (wbyte w 9 < 16) && wzero w 10 15

/-- GSEQ_CLR (R221, R222). -/
def gseqClr (e : Eng) (w : W128) (s : State) : State :=
  s.instr e w 0x51 (gseqClrFx e w)

def execGseqClr (e : Eng) (w : W128) (s : State) : Host.Outcome State Fault Refusal := .next (gseqClr e w s)

/-- Types that R225 allows for streams, and INT32 (R231). -/
def gateOperandsOk (k : GCtx) (dst src : Card) : Bool :=
  sameExt dst src && [3, 5, 6, 7, 8, 9, 10].contains src.typ && !src.ember && !dst.ember && decide (dst.typ ≠ 11) &&
  (decide (k ≠ .rows) || decide (src.ext 0 ≤ 16384))

/-- The extents of a card as a value shape. -/
def Card.shape (c : Card) : List Nat := (natRange 0 c.dims).map c.ext

/-- The columns that an engine's lanes take of each row of a card, and the first of them. Where a card of one dimension is split
along its rows' own dimension (R158), a sequence with operations over blocks or rows takes the whole row, and the engine stores its
own columns of it (log 29). -/
def Ctx.gateCols (c : Ctx) (ops : List W128) (dst : Card) : Nat × Nat :=
  if dst.dims = 1 ∧ !(ops.any fun w => decide (0x10 ≤ gMop w)) then ((c.outerBand dst).1, c.rowLen dst) else (0, dst.ext 0)

/-- The engine's own columns. -/
def Ctx.ownCol (c : Ctx) (dst : Card) (x : Nat) : Bool :=
  decide (dst.dims ≠ 1) || (decide ((c.outerBand dst).1 ≤ x) && decide (x < (c.outerBand dst).2))

/-- One row of GATE_MAP or GATE_ROWS: what it writes, and its evaluations. -/
def State.gateSrcRow (s : State) (c : Ctx) (k : GCtx) (ops : List W128) (dst src : Card) (i : Ix) : Except Nat (Writes × Nat) :=
  let (first, n) := c.gateCols ops dst
  match tryMap (fun x => s.laneVal c.cl src c.rho (ixSet0 i (Int.ofNat x))) (natRange first n) with
  | .error d => .error d
  | .ok xs =>
    match s.gateRow c k ops dst (2 ^ c.lanes) (c.ownCol dst) i first xs with
    | .error d => .error d
    | .ok g =>
      let mine := (g.vals.drop ((ixAt i 0).toNat - first)).take (c.rowLen dst)
      .ok ((dst.storeRow c.rnd c.draw i mine).append g.extra, g.evals)

/-- What GATE_MAP and GATE_ROWS do on one engine, before its pc moves on: the next state, or the detail it fails with. -/
def gateFx (w : W128) (k : GCtx) (chk : EngCheck) (c : Ctx) (t : State) : State × Option Nat :=
  let slot := bits (wbyte w 9) 0 4
  match checks123 c.r.cmd gateShape w (gateOwn w) with
  | some d => (t, some d)
  | none =>
    let dst := c.dst w
    let src := c.srcA w
    let ops := gateSeq c.g slot
    if !seqOk k ops then (t, some 0x0703)
    else if !c.seqCards k ops dst src.shape (2 ^ c.lanes) then (t, some 0x0704)
    else if !gateOperandsOk k dst src then (t, some 0x0705)
    else
      let rows := c.bandRows dst
      let (first, n) := c.gateCols ops dst
      let t1 := (t.moved c true ((rows.flatMap fun i => let j := ixSet0 i (Int.ofNat first); src.runAt j n :: src.scaleRanges j n) ++
        c.streamRanges ops rows first n true)).gateCorrected c chk
      match t1.gateCheck c chk with
      | some d => t1.gateFault c d
      | none =>
        match tryMap (t1.gateSrcRow c k ops dst src) rows with
        | .error d => (t1, some d)
        | .ok rs =>
          (t1.gateEvents c rows.length ((rs.map (·.2)).foldl (· + ·) 0)).doWrites c c.gateUnit (joinWrites (rs.map (·.1)))

/-- GATE_MAP and GATE_ROWS (R219, R229, R231). -/
def State.gateAll (s : State) (e : Eng) (w : W128) (op : Nat) (k : GCtx) (chk : EngCheck) : State :=
  s.instr e w op (gateFx w k chk)

/-- GATE_MAP (R231). -/
def gateMap (e : Eng) (w : W128) (chk : EngCheck) (s : State) : State := s.gateAll e w 0x52 .map chk

def execGateMap (e : Eng) (w : W128) (chk : EngCheck) (s : State) : Host.Outcome State Fault Refusal := .next (gateMap e w chk s)

/-- GATE_ROWS (R231). -/
def gateRows (e : Eng) (w : W128) (chk : EngCheck) (s : State) : State := s.gateAll e w 0x53 .rows chk

def execGateRows (e : Eng) (w : W128) (chk : EngCheck) (s : State) : Host.Outcome State Fault Refusal := .next (gateRows e w chk s)

end Sys2Proof.Machine
end

