-- ==== Sys2Proof/Machine/Walks.lean ====
section
/-! DEFINITION. The visits of a walk (R151 to R154), the operands that an engine stages and loads on the way (R155, R156, R188), and
multicast (R162). -/

namespace Sys2Proof.Machine

/-- Ranges of the four walk dimensions. -/
abbrev Tile := List (Nat × Nat)

/-- Range `d` of a tile. -/
def tileDim (t : Tile) (d : Nat) : Nat × Nat := t.getD d (0, 1)

/-- A range cut into pieces of `step`, or left whole where `step` is 0. -/
def piecesOf (step : Nat) : Nat → Nat → Nat → List (Nat × Nat)
  | 0, _, _ => []
  | n + 1, lo, hi =>
    if hi ≤ lo then [] else if step = 0 then [(lo, hi)] else (lo, min (lo + step) hi) :: piecesOf step n (lo + step) hi

/-- A list of four with entry `i` replaced. -/
def setAt {α : Type} (xs : List α) (i : Nat) (v d : α) : List α := (natRange 0 4).map fun k => if k = i then v else xs.getD k d

/-- The nested loops of one level, outermost dimension first. -/
def levelTiles (ext : List Nat) : List Nat → Tile → List Tile
  | [], rng => [rng]
  | d :: ds, rng =>
    let r := tileDim rng d
    (piecesOf (ext.getD d 0) (r.2 - r.1) r.1 r.2).flatMap fun p => levelTiles ext ds (setAt rng d p (0, 1))

/-- The dimensions of a permutation, outermost first. -/
def permOrder (p : Nat) : List Nat := [bits p 6 2, bits p 4 2, bits p 2 2, bits p 0 2]

/-- The tiles of one level of a walk inside a tile, in visiting order (R153). -/
def walkTiles (g : EngRun) (slot level : Nat) (t : Tile) : List Tile :=
  match mapFind g.walks (slot * 4 + level) with
  | none => []
  | some lv => levelTiles lv.ext (permOrder lv.perm) t

/-- The level-1 visits of a walk, each with the level-2 tile around it. -/
def walkVisits (g : EngRun) (slot : Nat) (full : Tile) : List (Tile × Tile) :=
  (walkTiles g slot 2 full).flatMap fun t2 => (walkTiles g slot 1 t2).map fun t1 => (t2, t1)

/-! ### Boxes of a card -/

/-- Ranges of a card's five dimensions. -/
abbrev Box := List (Nat × Nat)

/-- Length of range `k` of a box. -/
def boxLen (b : Box) (k : Nat) : Nat := (b.getD k (0, 1)).2 - (b.getD k (0, 1)).1

/-- Coordinates of the first element of each row of a box, lower dimensions fastest. -/
def boxRows (b : Box) : List Ix :=
  let rng := fun k => let r := b.getD k (0, 1); natRange r.1 (r.2 - r.1)
  let x : Int := Int.ofNat (b.getD 0 (0, 1)).1
  if boxLen b 0 = 0 then []
  else (rng 4).flatMap fun i4 => (rng 3).flatMap fun i3 => (rng 2).flatMap fun i2 => (rng 1).map fun (i1 : Nat) =>
    ([x, Int.ofNat i1, Int.ofNat i2, Int.ofNat i3, Int.ofNat i4] : Ix)

/-- The scales of a box, as a box of the scale array (R148). -/
def Card.scaleBox (c : Card) (b : Box) : Box :=
  (natRange 0 5).map fun k =>
    let r := b.getD k (0, 1)
    if k = c.groupDim then (r.1 / groupSize c.group, ceilDiv r.2 (groupSize c.group)) else r

/-- Address of the scale at coordinates of the scale array. -/
def Card.scaleAddr (c : Card) (i : Ix) : Nat :=
  let x := fun k => (ixAt i k).toNat
  c.scaleBase + scaleSize c.scaleType *
    (x 0 + c.scaleExt 0 * (x 1 + c.scaleExt 1 * (x 2 + c.scaleExt 2 * (x 3 + c.scaleExt 3 * x 4))))

/-- Runs of the scales of a box, none where the card is unscaled. -/
def Card.scaleRuns (c : Card) (b : Box) : List (Nat × Nat) :=
  if c.scaleType = 0 then []
  else
    let q := c.scaleBox b
    (boxRows q).map fun i => (c.scaleAddr i, boxLen q 0 * scaleSize c.scaleType)

/-- Runs of the elements of a box. -/
def Card.elemRuns (c : Card) (b : Box) : List (Nat × Nat) := (boxRows b).map fun i => c.runAt i (boxLen b 0)

/-- The elements of a box, dense in the card's dimension order. -/
def State.boxBytes (s : State) (cl : Nat) (c : Card) (b : Box) : Except Nat (List Byte) :=
  match tryMap (fun i => match s.readRow cl c i (boxLen b 0) with
      | .ok ps => .ok (packRow c.bits ps)
      | .error d => .error d) (boxRows b) with
  | .ok rows => .ok rows.flatten
  | .error d => .error d

/-- Runs of memory read one after another. -/
def State.readRuns (s : State) (cl : Nat) (rs : List (Nat × Nat)) : Except Nat (List Byte) :=
  match tryMap (fun (r : Nat × Nat) => s.cread cl r.1 r.2) rs with
  | .ok bs => .ok bs.flatten
  | .error d => .error d

/-! ### Operands (R155, R156, R162, R297) -/

/-- A source of an opcode that takes a walk: its card, its stream where it is an Ember card, its reference, whether it is band-split,
the walk dimension that each card dimension follows, a window over the walk where it is read through one (R236), and its staged
size. -/
structure Operand where
  card : Card
  em : Option Ember := none
  ref : Ref
  split : Bool
  dims : List (Option Nat)
  win : Option (Win1 × Win1) := none
  size : Nat := 0
  deriving DecidableEq, Repr

/-- The box of the card that a tile takes, of input columns and rows where the operand is read through a window. -/
def Operand.box (o : Operand) (t : Tile) : Box :=
  (natRange 0 5).map fun k =>
    match o.win, o.dims.getD k none with
    | some (vx, vy), some d =>
      let v := if d = 1 then vx else vy
      let r := tileDim t d
      if d ≤ 1 then (let xs := v.span r.1 r.2; (xs.headD 0, xs.headD 0 + xs.length)) else r
    | _, some d => tileDim t d
    | _, none => (0, o.card.ext k)

/-- The blocks of an Ember operand's box, in block order (R297). -/
def Ember.boxBlocks (em : Ember) (b : Box) : List Nat :=
  let k := b.getD 0 (0, 1)
  let per := em.h.v * em.h.vpb
  let rng := fun j => let r := b.getD j (0, 1); natRange r.1 (r.2 - r.1)
  (rng 2).flatMap fun i2 => (rng 1).flatMap fun i1 => (natRange (k.1 / per) (ceilDiv k.2 per - k.1 / per)).map fun kb => em.blockNo kb i1 i2

/-- The bytes that a box occupies in the card's memory. -/
def Operand.runs (o : Operand) (b : Box) : List (Nat × Nat) :=
  match o.em with
  | some em => (em.boxBlocks b).map fun q => (em.blockAddr q, em.h.stride)
  | none => o.card.elemRuns b ++ o.card.scaleRuns b

/-- The two parts of a staged tile: elements, or an Ember tile's blocks, and scales (R155, R297). -/
def State.stagedParts (s : State) (cl : Nat) (o : Operand) (b : Box) : Except Nat (List Byte × List Byte) :=
  match o.em with
  | some _ => match s.readRuns cl (o.runs b) with
    | .ok bs => .ok (bs, [])
    | .error d => .error d
  | none => match s.boxBytes cl o.card b, s.readRuns cl (o.card.scaleRuns b) with
    | .ok els, .ok scs => .ok (els, scs)
    | .error d, _ => .error d
    | _, .error d => .error d

/-- A staged tile as a card of its own at `base`: dense, its scales behind its elements at a multiple of 256 B (R155). -/
def Card.stagedAt (c : Card) (b : Box) (base : Nat) : Card :=
  let e := fun k => boxLen b k
  let row := ceilDiv (e 0 * c.bits) 8
  { c with base := base, extent := (natRange 0 5).map e, stride := [0, row, row * e 1, row * e 1 * e 2, row * e 1 * e 2 * e 3]
           scaleBase := base + up256 (row * e 1 * e 2 * e 3 * e 4) }

/-- A box inside another, counted from the other's corner. -/
def boxFrom (outer b : Box) : Box :=
  (natRange 0 5).map fun k => let o := (outer.getD k (0, 1)).1; let r := b.getD k (0, 1); (r.1 - o, r.2 - o)

/-- The engine's part of an operand's staging buffer: its address and size (R156). The parts are equal and whole multiples of 256 B, as
what lies in them is (R155); what is left of a buffer that they do not fill serves no engine (DESIGN CHOICE, log 156). -/
def State.stagePart (s : State) (c : Ctx) (o : Operand) : Nat × Nat :=
  match mapFind c.r.hregs o.ref.hreg with
  | none => (0, 0)
  | some h =>
    match mapFind (s.hearth c.r.die).bufs (handleGranule h) with
    | none => (0, 0)
    | some b =>
      let parts := if o.split ∨ c.r.cmd.reuse ≠ 2 then c.width else 1
      let size := 4096 * b.size / parts / 256 * 256
      (hearthKey c.r.die (4096 * handleGranule h + (if parts = 1 then 0 else c.pos * size)), size)

/-- Where staged tile `no` of an operand lies: a part of at least twice the staged size holds two tiles by turns, the second behind the
first (R156; its place is a DESIGN CHOICE, log 156). -/
def State.stageBase (s : State) (c : Ctx) (o : Operand) (no : Nat) : Nat :=
  let (a, n) := s.stagePart c o
  a + (if 2 * o.size ≤ n then no % 2 * o.size else 0)

/-- The engine fetches the operand itself. Under multicast a band-independent operand is fetched once for the whole command, which
engine 0, whose band is the longest, does here (R162). -/
def Ctx.fetches (c : Ctx) (o : Operand) : Bool := o.split || decide (c.r.cmd.reuse ≠ 2) || decide (c.pos = 0)

/-- Tile `no` of a staged operand copied into its buffer (R155). -/
def State.stageTile (s : State) (c : Ctx) (o : Operand) (no : Nat) (b : Box) : State × Option Nat :=
  if o.ref.absent ∨ !o.ref.staged ∨ !c.fetches o then (s, none)
  else match s.stagedParts c.cl o b with
    | .error d => (s, some d)
    | .ok (els, scs) =>
      let base := s.stageBase c o no
      (s.moved c true (o.runs b)).doWrites c c.g.unit
        { items := (base, els) :: if scs.isEmpty then [] else [(base + up256 els.length, scs)] }

/-- The bytes of a box of an operand where the engine loads them from: its memory, or staged tile `no`, which holds the box `outer`. -/
def State.loadRuns (s : State) (c : Ctx) (o : Operand) (no : Nat) (outer b : Box) : List (Nat × Nat) :=
  if !o.ref.staged then o.runs b
  else
    let base := s.stageBase c o no
    match o.em with
    | some em => (em.boxBlocks b).map fun q => (base + em.h.stride * (em.boxBlocks outer).idxOf q, em.h.stride)
    | none =>
      let k := o.card.stagedAt outer base
      k.elemRuns (boxFrom outer b) ++ k.scaleRuns (boxFrom outer b)

/-- A box of an operand loaded into the operand stores. -/
def State.loadBox (s : State) (c : Ctx) (o : Operand) (no : Nat) (outer b : Box) : State :=
  if o.ref.absent ∨ !c.fetches o then s else s.moved c true (s.loadRuns c o no outer b)

/-- Where a walk stands: the visit before, and the number of each operand's staged tile. -/
structure WalkAt where
  prev : Option (Tile × Tile) := none
  nos : List Nat := []
  deriving DecidableEq, Repr

/-- Walk position at the visit (t2, t1): an operand's staged tile is another one where the level-2 tile takes another box of it. -/
def WalkAt.enter (p : WalkAt) (os : List Operand) (t2 t1 : Tile) : WalkAt :=
  { prev := some (t2, t1)
    nos := (natRange 0 os.length).map fun i =>
      match p.prev, os[i]? with
      | some (q2, _), some o => if o.box q2 = o.box t2 then p.nos.getD i 0 else p.nos.getD i 0 + 1
      | _, _ => 0 }

/-- The visits of a walk carried out in order (R153): each operand staged where its level-2 tile is another than before, loaded where its
level-1 tile differs from the resident one (R188) and `loads` asks for it, then `out` on each level-0 tile. -/
def runWalk (c : Ctx) (slot : Nat) (os : List Operand) (loads : Operand → Bool) (out : Tile → State → State × Option Nat) :
    WalkAt → List (Tile × Tile) → State → State × Option Nat
  | _, [], s => (s, none)
  | p, (t2, t1) :: rest, s =>
    let q := p.enter os t2 t1
    let fresh := fun (now : Box) (was : Tile × Tile → Box) => match p.prev with
      | some v => decide (now ≠ was v)
      | none => true
    let step := fun (i : Nat) (u : State) => match os[i]? with
      | none => (u, none)
      | some o =>
        match (if fresh (o.box t2) (fun v => o.box v.1) then u.stageTile c o (q.nos.getD i 0) (o.box t2) else (u, none)) with
        | (u1, some d) => (u1, some d)
        | (u1, none) =>
          (if loads o && fresh (o.box t1) (fun v => o.box v.2) then u1.loadBox c o (q.nos.getD i 0) (o.box t2) (o.box t1) else u1, none)
    match runEach step (natRange 0 os.length) s with
    | (s1, some d) => (s1, some d)
    | (s1, none) =>
      match runEach out (walkTiles c.g slot 0 t1) s1 with
      | (s2, some d) => (s2, some d)
      | (s2, none) => runWalk c slot os loads out q rest s2

end Sys2Proof.Machine
end

