-- ==== Sys2Proof/Machine/Matrix.lean ====
section
/-! DEFINITION. The matrix engine and Kindling (R186 to R218): MATMUL with its walk, stores, codebooks, rods and checks, CB_PRELOAD,
and the recurrence opcodes with residency. -/

namespace Sys2Proof.Machine

/-! ### One output element (R169 to R173) -/

/-- A column of an operand along the reduction: its values, and the scale of each chunk. -/
structure KCol where
  vals : List Num
  scales : List Num
  deriving DecidableEq, Repr

/-- An integer value. -/
def Num.toInt : Num → Int
  | .fin neg m e => scaledInt neg m e 0
  | _ => 0

/-- The bead count of one chunk of integer products (R171). -/
def beadInt : List Num → List Num → Int → Int
  | a :: as, w :: ws, acc => beadInt as ws (acc + a.toInt * w.toInt)
  | _, _, acc => acc

/-- The bead count of one chunk with a float operand (R171). -/
def beadFlt (rho : Nat) : List Num → List Num → Num → Num
  | a :: as, w :: ws, acc => beadFlt rho as ws (add32 rho acc (a.mul w))
  | _, _, acc => acc

/-- An error in a bead count: its chunk, and by how much it is wrong (R200). -/
abbrev BeadErr := Option (Nat × Int)

/-- What an error adds to the bead count of chunk `m`. -/
def beadErrAt (err : BeadErr) (m : Nat) : Int :=
  match err with
  | some (k, d) => if k = m then d else 0
  | none => 0

/-- A processing element's rod over the chunks of a reduction (R171). -/
def rodOf (rho g : Nat) (ints : Bool) (err : BeadErr) (a w : KCol) : Num :=
  let as := blocksOf g a.vals.length a.vals
  let ws := blocksOf g w.vals.length w.vals
  (natRange 0 as.length).foldl (fun rod m =>
    let x := as.getD m []
    let y := ws.getD m []
    let bead := if ints then round32 rho (numOfInt (beadInt x y (beadErrAt err m))) else beadFlt rho x y numZero
    let k := mul32 rho (a.scales.getD m numOne) (w.scales.getD m numOne)
    add32 rho rod (mul32 rho bead k)) numZero

/-- The INT32 accumulator of R173, with the saturations counted on the way. -/
def accOf (g : Nat) (err : BeadErr) (a w : KCol) : Int × Nat :=
  let as := blocksOf g a.vals.length a.vals
  let ws := blocksOf g w.vals.length w.vals
  (natRange 0 as.length).foldl (fun acc m =>
    let t := acc.1 + beadInt (as.getD m []) (ws.getD m []) (beadErrAt err m)
    if t < -2147483648 then (-2147483648, acc.2 + 1) else if 2147483647 < t then (2147483647, acc.2 + 1) else (t, acc.2)) (0, 0)

/-! ### The cast-out check (R199, R200) -/

/-- Chunk `m` of the columns of an operand, as integers. -/
def chunkInts (g m : Nat) (xs : List KCol) : List (List Int) :=
  xs.map fun x => ((blocksOf g x.vals.length x.vals).getD m []).map Num.toInt

/-- The sum of products of two vectors. -/
def dotInt (xs ys : List Int) : Int := ((xs.zip ys).map fun p => p.1 * p.2).foldl (· + ·) 0

/-- The sum of vectors, index by index; `n` gives their length. -/
def sumVecs (n : Nat) (xs : List (List Int)) : List Int := (natRange 0 n).map fun k => (xs.map fun v => v.getD k 0).foldl (· + ·) 0

/-- What an error adds in the array: to the bead count at a row and column (`kind` 1), or to the check sum of the row (2) or of the
column (3). -/
structure ArrayErr where
  row : Nat
  col : Nat
  kind : Nat
  m : Nat
  by_ : Int
  deriving DecidableEq, Repr

/-- The cast-out check of one chunk (R199): actual row and column sums of the bead counts against the predictions that the edge units
form, modulo 255. The rows and the columns that mismatch; a masked row or column holds zero products and takes part. -/
def castout (as ws : List (List Int)) (err : ArrayErr) : List Nat × List Nat :=
  let k := (as.map List.length).foldl max 0
  let rows := natRange 0 (max as.length (err.row + 1))
  let cols := natRange 0 (max ws.length (err.col + 1))
  let bead := fun i j => dotInt (as.getD i []) (ws.getD j []) + (if err.kind = 1 ∧ i = err.row ∧ j = err.col then err.by_ else 0)
  let wSum := sumVecs k ws
  let aSum := sumVecs k as
  let rowBad := fun i =>
    let actual := (cols.map (bead i)).foldl (· + ·) 0 + (if err.kind = 2 ∧ i = err.row then err.by_ else 0)
    decide ((actual - dotInt (as.getD i []) wSum) % 255 ≠ 0)
  let colBad := fun j =>
    let actual := (rows.map fun i => bead i j).foldl (· + ·) 0 + (if err.kind = 3 ∧ j = err.col then err.by_ else 0)
    decide ((actual - dotInt aSum (ws.getD j [])) % 255 ≠ 0)
  (rows.filter rowBad, cols.filter colBad)

/-- What MXE_FAULT_LOC shows of a mismatch (R217): row, column and kind; none where every residue agrees. -/
def castoutKind (x : List Nat × List Nat) : Option (Nat × Nat × Nat) :=
  match x with
  | ([], []) => none
  | (i :: _, j :: _) => some (i, j, 1)
  | (i :: _, []) => some (i, 0, 2)
  | ([], j :: _) => some (0, j, 3)

/-- A card's group size as R169 counts it. -/
def Card.redGroup (c : Card) : Nat := if c.scaleType = 0 then 128 else groupSize c.group

/-- Column `i` of an uncompressed operand along dimension 0, with the scales of chunks of `g` (R159, R169, R170). -/
def State.kCol (s : State) (cl : Nat) (c : Card) (g : Nat) (i : Ix) : Except Nat KCol :=
  match tryMap (fun k => s.elemVal cl c (some 0) (ixSet0 i (Int.ofNat k))) (natRange 0 (c.ext 0)) with
  | .error d => .error d
  | .ok vs =>
    match tryMap (fun m => s.elemScale cl c (ixSet0 i (Int.ofNat (m * g)))) (natRange 0 (ceilDiv (c.ext 0) g)) with
    | .error d => .error d
    | .ok ks => .ok ⟨vs, ks⟩

/-- Column (n, b) of an Ember weight, as the array sees it (R196). -/
def EmRead.kCol (r : EmRead) (g n b : Nat) : KCol :=
  let sc := r.colScales n b
  ⟨r.column n b, (natRange 0 (ceilDiv (r.em.card.ext 0) g)).map fun m => r.scaleOf sc (m * g / r.em.card.redGroup)⟩

/-! ### The codebook store (R197, R198, R294) -/

/-- The codebooks that pending CB_PRELOADs are loading, and all that they have named. -/
def EngRun.loadingBooks (g : EngRun) : List Book := g.preloads.flatMap (·.want)
def EngRun.pendingBooks (g : EngRun) : List Book := g.preloads.flatMap fun p => p.want ++ p.held

/-- Bytes and codebooks of a stage. -/
def stageBytes (stage : Nat) (bs : List Book) : Nat := (bs.map fun b => if b.stage = stage then b.bytes else 0).foldl (· + ·) 0

/-- Room made for a codebook in its stage: the least recently used of that stage give way, but those in `keep` (R197, R294); none where that
is not enough. Where
16 codebooks are resident and none of the stage may give way, the least recently used of the other stage does (DESIGN CHOICE, log 157). -/
def evictFor (k : Book) (keep : List Book) : Nat → List Book → Option (List Book)
  | 0, _ => none
  | n + 1, bs =>
    if stageBytes k.stage bs + k.bytes ≤ 32768 ∧ bs.length < 16 then some bs
    else
      let may := bs.filter fun b => !keep.any b.same
      let out := match (may.filter fun b => decide (b.stage = k.stage)).getLast? with
        | some v => some v
        | none => if bs.length < 16 then none else may.getLast?
      match out with
      | none => none
      | some v => evictFor k keep n (bs.filter fun b => !b.same v)

/-- A codebook used: moved to the front, or loaded. -/
def useBook (keep : List Book) (bs : List Book) (k : Book) : Option (List Book) :=
  match bs.find? k.same with
  | some b => some (b :: bs.filter fun x => !x.same k)
  | none => (evictFor k keep 17 bs).map fun rest => k :: rest

/-- Codebooks used one after the other; none where one of them finds nothing that it may evict. -/
def useBooks (keep : List Book) : List Book → List Book → Option (List Book)
  | [], bs => some bs
  | k :: ks, bs => match useBook keep bs k with
    | some b => useBooks keep ks b
    | none => none

/-- The codebooks that a tile needs can be held together (R197). -/
def booksFit (need : List Book) : Bool :=
  decide (need.length ≤ 16) && decide (stageBytes 0 need ≤ 32768) && decide (stageBytes 1 need ≤ 32768)

/-- Bytes that a tier delivers to an engine of a die in 10 ns at the most (R25, R27, R306); none stands for the engine's own Hearth. -/
def State.tierRate (s : State) (die a : Nat) : Option Nat :=
  match s.tierAt die a with
  | 0 => if (a - hearthBase) / 0x100000000 = die then none else some 3840
  | 3 => some 280
  | _ => some 1536

/-- CORE cycles that the load of a codebook takes: at 256 B per cycle, or as long as its tier takes to deliver it (R294, R39). -/
def State.loadCycles (s : State) (c : Ctx) (k : Book) : Nat :=
  let n := k.bytes + 4
  match s.tierRate c.r.die k.set with
  | none => ceilDiv n 256
  | some r => max (ceilDiv n 256) (ceilDiv (n * s.unitMhz c.r.die c.g.unit) (r * 100))

/-- The codebooks that the columns [lo, hi) of one `b` need. -/
def EmRead.need (r : EmRead) (lo hi b : Nat) : List Book :=
  ((natRange lo (hi - lo)).flatMap fun n => (r.em.namedBooks (mapGet r.blocks (r.em.blockNo 0 n b) [])).map r.bookOf).eraseDups

/-! ### MATMUL (R190, R193, R194, R297) -/

def matShape : OpShape := ⟨.required, .required, .required, true⟩

/-- The operand rules of R190 and R193. -/
def matCardsOk (d a w : Card) : Bool :=
  let plain := fun (c : Card) => decide (c.typ ≠ 9) && decide (c.typ ≠ 10) && decide (c.typ ≠ 0)
  plain a && plain w && !a.ember && (!w.ember || w.emberOk) && !d.ember && decide (d.scaleType = 0) &&
  (decide (a.dims = 2) || decide (a.dims = 3)) && (decide (w.dims = 2) || decide (w.dims = 3)) && decide (d.dims = a.dims) &&
  (decide (w.dims = 2) || (decide (a.dims = 3) && decide (w.ext 2 = a.ext 2))) &&
  decide (w.ext 0 = a.ext 0) && decide (d.ext 0 = w.ext 1) && decide (d.ext 1 = a.ext 1) && decide (d.ext 2 = a.ext 2) &&
  (decide (a.scaleType = 0) || decide (a.groupDim = 0)) && (decide (w.scaleType = 0) || decide (w.groupDim = 0))

/-- Bytes of elements and of scales of `cols` columns of `k` values. -/
def tileElemBytes (c : Card) (k cols : Nat) : Nat := ceilDiv (k * c.bits) 8 * cols
def tileScaleBytes (c : Card) (k cols : Nat) : Nat :=
  if c.scaleType = 0 ∨ c.ember then 0 else ceilDiv k (groupSize c.group) * cols * scaleSize c.scaleType

/-- Bytes of `cols` columns of an Ember operand over a reduction extent of `k`: its whole blocks (R297). -/
def Ember.tileBytes (em : Ember) (k cols : Nat) : Nat := ceilDiv k (em.h.v * em.h.vpb) * cols * em.h.stride

/-- What MATMUL knows of its operands once decoded. -/
structure Mat where
  d : Card
  a : Card
  w : Card
  em : Option Ember
  slot : Nat
  clash : Bool := false
  deriving DecidableEq, Repr

/-- The type of the weights as the array sees it. -/
def Mat.wType (x : Mat) : Nat := match x.em with | some e => e.h.expanded | none => x.w.typ

/-- Both operands are integers (R171). -/
def Mat.ints (x : Mat) : Bool := isIntType x.a.typ && isIntType x.wType

/-- The effective group size (R169). -/
def Mat.g (x : Mat) : Nat := min x.a.redGroup x.w.redGroup

/-- The limits of R194; `m0` bounds the level-0 extents of m and n. -/
def Mat.limitsOk (x : Mat) (e : EngRun) (m0 : Nat) : Bool :=
  let e0 := walkExt e x.slot 0
  let clip := fun d n => min (walkExt e x.slot 1 d) n
  let k1 := clip 2 (x.a.ext 0)
  let m1 := clip 0 (x.a.ext 1)
  let n1 := clip 1 (x.w.ext 1)
  let b1 := clip 3 (x.a.ext 2)
  let bw := if x.w.dims = 3 then b1 else 1
  let wBytes := match x.em with | some em => em.tileBytes k1 (n1 * bw) | none => tileElemBytes x.w k1 (n1 * bw)
  decide (e0 0 ≤ m0) && decide (e0 1 ≤ m0) && decide (e0 2 % x.g = 0) && decide (e0 3 = 1) &&
  decide (tileElemBytes x.a k1 (m1 * b1) ≤ 1572864) && decide (wBytes ≤ 1048576) &&
  decide (tileScaleBytes x.a k1 (m1 * b1) + tileScaleBytes x.w k1 (n1 * bw) ≤ 131072)

/-- The walk extent along the reduction suits an Ember weight (R297). -/
def Mat.emWalkOk (x : Mat) (e : EngRun) : Bool :=
  match x.em with
  | none => true
  | some em =>
    let k1 := walkExt e x.slot 1 2
    decide (k1 % (em.h.v * em.h.vpb) = 0) || decide (x.a.ext 0 ≤ k1)

/-- Extents of the walk's dimensions m, n, k, b. -/
def Mat.full (x : Mat) : List Nat := [x.a.ext 1, x.w.ext 1, x.a.ext 0, x.a.ext 2]

/-- The two sources as the walk takes them, with their staged sizes (R156, R193, R297). An Ember weight's level-2
reduction extent counts up to K, where its blocks end; its columns count by the walk (DESIGN CHOICE, log 193). -/
def Mat.operands (x : Mat) (c : Ctx) (w : W128) : List Operand :=
  let size := fun (k : Card) (m : Nat) => stagedSize k c.g x.slot c.width x.full fun j =>
    match j with | 0 => some 2 | 1 => some m | 2 => if 2 < k.dims then some 3 else none | _ => none
  let wSize := match x.em with
    | some em => up256 (em.tileBytes (min (stagedExt c.g x.slot c.width x.full 2) (x.a.ext 0))
        (stagedExt c.g x.slot c.width x.full 1 * (if x.w.dims = 3 then stagedExt c.g x.slot c.width x.full 3 else 1)))
    | none => size x.w 1
  [{ card := x.a, ref := wsrcA w, split := true, dims := [some 2, some 0, if x.a.dims = 3 then some 3 else none], size := size x.a 0 },
   { card := x.w, em := x.em, ref := wsrcB w, split := false, dims := [some 2, some 1, if x.w.dims = 3 then some 3 else none], size := wSize }]

/-- A staged source's handle register holds a buffer, of whatever size. -/
def State.stageHeld (s : State) (c : Ctx) (r : Ref) : Bool := s.stageOk c.r r true 0

/-- Check 5 of R137 on sources (R156). -/
def State.staged5 (s : State) (c : Ctx) (os : List Operand) : Bool := os.all fun o => s.stageOk c.r o.ref o.split o.size

/-- Decode checks of MATMUL after checks 1 to 3, in the order of R137: its operands, or the detail of the first check that fails. On
Kindling 0x0606 stands in place of check 5 (R214). The staged size of an Ember weight takes its stream's header, so a stream that cannot
be opened is reported before a buffer that is too small for the weight. -/
def State.matDecode (s : State) (c : Ctx) (w : W128) : Except Nat Mat :=
  let d := c.dst w
  let a := c.srcA w
  let k := c.srcB w
  let slot := wwalk w
  let small := decide (c.r.kind = 6)
  if !walkOk c.g slot (some 2) then .error 0x0405
  else if small ∧ ((wsrcA w).staged ∨ (wsrcB w).staged) then .error 0x0606
  else if !(s.staged5 c (({ d := d, a := a, w := k, em := none, slot := slot : Mat }.operands c w).take 1) && s.stageHeld c (wsrcB w)) then
    .error 0x0407
  else
    match (if k.emberOk then (match s.openEmber c.cl k with | .ok e => Except.ok (some e) | .error n => .error n) else .ok none) with
    | .error n => .error n
    | .ok e =>
      let x : Mat := { d := d, a := a, w := k, em := e, slot := slot, clash := (wsrcA w).clashes (wsrcB w) }
      if !s.staged5 c (x.operands c w) then .error 0x0407
      else if c.r.cmd.resident then .error 0x0605
      else if !matCardsOk d a k then .error 0x0604
      else if !x.limitsOk c.g (if small then 32 else 128) then .error 0x0603
      else if !x.emWalkOk c.g then .error 0x0C02
      else
        let gs := bits (wbyte w 9) 0 4
        let ops := if gs = 0 then [] else gateSeq c.g gs
        if !seqOk .matmul ops then .error 0x0703
        else if !c.seqCards .matmul ops d d.shape (walkExt c.g slot 0 1) then .error 0x0704
        else .ok x

/-- Reduction indices per CORE cycle, as a fraction of cycles per index times 2: 1, 2, 4 or 8 (R189). -/
def Mat.halfCycles (x : Mat) : Nat :=
  let four := fun t => decide (typeBits t = 4)
  if typeBits x.a.typ = 16 ∨ typeBits x.wType = 16 then 8
  else if !x.ints then 4
  else if four x.a.typ ∧ four x.wType then 1
  else if four x.a.typ ∨ four x.wType then 2
  else 4

/-- The reduction extent rounded up to whole level-0 pieces (R191). -/
def Mat.reach (x : Mat) (e : EngRun) : Nat :=
  let k0 := max 1 (walkExt e x.slot 0 2)
  ceilDiv (x.a.ext 0) k0 * k0

/-- CORE cycles with products in the array for one output tile (R191): K' / r. -/
def Mat.tileCycles (x : Mat) (e : EngRun) : Nat := ceilDiv (x.reach e * x.halfCycles) 2

/-- One drained tile row of D: its rods and saturations (R171, R173), put through the gate sequence and stored (R195). `cols` are the
columns of W from column `n0` on, `err` the error of each. -/
def State.matRow (s : State) (c : Ctx) (x : Mat) (ops : List W128) (e0n n0 : Nat) (cols : List KCol) (err : Nat → BeadErr) (m b : Nat) :
    Except Nat (Writes × Nat) :=
  let i : Ix := [Int.ofNat n0, Int.ofNat m, Int.ofNat b, 0, 0]
  match s.kCol c.cl x.a x.g [0, Int.ofNat m, Int.ofNat b, 0, 0] with
  | .error d => .error d
  | .ok a =>
    let acc := x.ints && decide (x.a.scaleType = 0) && decide (x.w.scaleType = 0) && decide (x.d.typ = 10)
    let none_ : KCol := ⟨[], []⟩
    let outs := (natRange 0 cols.length).map fun j =>
      let w := cols.getD j none_
      if acc then (let (v, n) := accOf x.g (err j) a w; (numOfInt v, n)) else (rodOf c.rho x.g x.ints (err j) a w, 0)
    let sats := (outs.map (·.2)).foldl (· + ·) 0
    let vals := outs.map (·.1)
    match s.gateRow c .matmul ops x.d e0n (fun _ => true) i n0 (if ops.isEmpty then vals else vals.map (round32 c.rho)) with
    | .error d => .error d
    | .ok g => .ok (((x.d.storeRow c.rnd c.draw i g.vals).append g.extra).append { sats := sats }, g.evals)

/-- Columns [lo, hi) of W for one b. -/
def State.matCols (s : State) (c : Ctx) (x : Mat) (rd : Option EmRead) (lo hi b : Nat) : Except Nat (List KCol) :=
  let bw := if x.w.dims = 3 then b else 0
  match rd with
  | some r => .ok ((natRange lo (hi - lo)).map fun n => r.kCol x.g n bw)
  | none => tryMap (fun n => s.kCol c.cl x.w x.g [0, Int.ofNat n, Int.ofNat bw, 0, 0]) (natRange lo (hi - lo))

/-- The error that an array error puts into the element at row `i` and column `j` of its tile. -/
def ArrayErr.at (e : Option ArrayErr) (i j : Nat) : BeadErr :=
  match e with
  | some x => if x.kind = 1 ∧ x.row = i ∧ x.col = j then some (x.m, x.by_) else none
  | none => none

/-- One output tile (R193, R195): what its rows write, and their evaluations. -/
def State.matTile (s : State) (c : Ctx) (x : Mat) (ops : List W128) (e0n : Nat) (rd : Option EmRead) (err : Option ArrayErr) (t : Tile) :
    Except Nat (List (Writes × Nat)) :=
  let m := tileDim t 0
  let n := tileDim t 1
  let b := tileDim t 3
  match tryMap (fun bi =>
      match s.matCols c x rd n.1 n.2 bi with
      | .error d => .error d
      | .ok cols => tryMap (fun mi => s.matRow c x ops e0n n.1 cols (ArrayErr.at err (mi - m.1)) mi bi) (natRange m.1 (m.2 - m.1)))
      (natRange b.1 (b.2 - b.1)) with
  | .error d => .error d
  | .ok ys => .ok ys.flatten

/-- The cast-out check of an output tile with an error in its array (R199, R200). -/
def State.castoutOf (s : State) (c : Ctx) (x : Mat) (rd : Option EmRead) (err : ArrayErr) (t : Tile) : Option (Nat × Nat × Nat) :=
  let m := tileDim t 0
  let n := tileDim t 1
  let b := (tileDim t 3).1
  match tryMap (fun mi => s.kCol c.cl x.a x.g [0, Int.ofNat mi, Int.ofNat b, 0, 0]) (natRange m.1 (m.2 - m.1)), s.matCols c x rd n.1 n.2 b with
  | .ok as, .ok ws => castoutKind (castout (chunkInts x.g err.m as) (chunkInts x.g err.m ws) err)
  | _, _ => none

/-- The codebook store while the tiles of an engine's band run: the store, the loads so far, their cycles *W* so far (R295), and
the codebooks that the tile before uses. -/
structure BookUse where
  store : List Book
  loads : Nat := 0
  wait : Nat := 0
  last : Option (List Book) := none
  deriving DecidableEq, Repr

/-- A tile that needs these codebooks, `base` being its time without *W*: loads begin with the previous tile where its own codebooks leave
them room and stay, else when it has ended (R294, R295). A codebook that the tile needs, or one in `keep`, does not give way; none where
a load finds nothing that it may evict even then. -/
def BookUse.tile (need keep : List Book) (cost : Book → Nat) (base : Nat) (u : BookUse) : Option BookUse :=
  let new := need.filter fun k => !u.store.any k.same
  let cycles := (new.map cost).foldl (· + ·) 0
  let early := match u.last with
    | some p => if booksFit (p ++ need.filter fun k => !p.any k.same) then useBooks (p ++ need ++ keep) need u.store else none
    | none => none
  match early, useBooks (need ++ keep) need u.store with
  | some st, _ => some { store := st, loads := u.loads + new.length, wait := u.wait + (cycles - base), last := some need }
  | none, some st => some { store := st, loads := u.loads + new.length, wait := u.wait + cycles, last := some need }
  | none, none => none

/-- The codebooks that the tiles of an engine's band need, used one tile after the other: the detail where a tile's codebooks cannot be
held together (R197), and none where a load has to wait for a pending CB_PRELOAD. `base` is a tile's time without *W*. -/
def EmRead.useTiles (r : EmRead) (wide : Bool) (keep : List Book) (cost : Book → Nat) (base : Nat) :
    List Tile → BookUse → Except Nat (Option BookUse)
  | [], u => .ok (some u)
  | t :: ts, u =>
    let n := tileDim t 1
    let need := r.need n.1 n.2 (if wide then (tileDim t 3).1 else 0)
    if booksFit need then
      match u.tile need keep cost base with
      | some v => r.useTiles wide keep cost base ts v
      | none => .ok none
    else .error 0x0605

/-- Cycles of a tile with an Ember weight without *W*: the products, the lookups and the drain floor (R295). -/
def Mat.emTileCycles (x : Mat) (r : EmRead) (kindling : Bool) (e : EngRun) : Nat :=
  max (max (x.tileCycles e) (ceilDiv (4 * x.reach e) r.em.h.v)) (if kindling then 32 else 128)

/-- What a check of the MXE ends MATMUL or REC_SCAN with: the detail, and what MXE_FAULT_LOC shows (R199 to R203, R215). `found` is
what the cast-out check finds of an error in the array. -/
def State.mxeCheck (s : State) (c : Ctx) (ints gated : Bool) (found : ArrayErr → Option (Nat × Nat × Nat)) (chk : EngCheck) :
    Option (Nat × Nat × Nat × Nat) :=
  let on := fun (f : Fld) => decide (c.r.kind = 6) || s.flag f
  match chk with
  | .castout _ row col kind m by_ =>
    if ints ∧ on (Fld.MXE_CTRL_castout_enable c.r.die c.num) then
      (match found ⟨row, col, kind, m, by_⟩ with | some (i, j, k) => some (0x0601, i % 128, j % 128, k) | none => none)
    else none
  | .rescale row col => if on (Fld.MXE_CTRL_rescale_compare c.r.die c.num) then some (0x0602, row % 128, col % 128, 4) else none
  | .gateMismatch => if gated ∧ (s.gateChecks c).1 then some (0x0701, 0, 0, 0) else none
  | .gateStoreUncorrectable => if gated ∧ (s.gateChecks c).2 then some (0x0702, 0, 0, 0) else none
  | _ => none

/-- An error in the array that integer products carry on (R200). -/
def arrayErrOf (ints : Bool) : EngCheck → Option ArrayErr
  | .castout _ row col kind m by_ => if ints then some ⟨row, col, kind, m, by_⟩ else none
  | _ => none

/-- The output tile of an engine's band in whose chunk an error in the array falls (R199). -/
def errTile (tiles : List Tile) : EngCheck → Option Tile
  | .castout tile _ _ _ _ _ => tiles[tile]?
  | _ => none

/-- A detection recorded at the MXE, or at its gate engine (R203, R216, R217, R234). -/
def State.mxeFault (s : State) (c : Ctx) (f : Nat × Nat × Nat × Nat) : State × Option Nat :=
  let (detail, row, col, kind) := f
  if 0x0700 ≤ detail then s.gateFault c detail
  else
    let s1 := s.count c.r.die c.g.unit 0x0C 1 (some c.cl)
    let d := c.r.die
    let n := c.num
    let s2 := if c.r.kind = 6 then s1
      else
        let t := s1.noteCheck (if kind = 4 then Fld.MXE_STATUS_rescale_seen d n else Fld.MXE_STATUS_castout_seen d n)
          (Fld.MXE_STATUS_check_faults d n)
        ((t.setFld (Fld.MXE_FAULT_LOC_fault_row d n) row).setFld (Fld.MXE_FAULT_LOC_fault_col d n) col).setFld
          (Fld.MXE_FAULT_LOC_fault_kind d n) kind
    (s2, some detail)

/-- The Ember blocks of a weight that MATMUL reads, and the codebooks that they name, of which the store holds some. -/
def State.matEmber (s : State) (c : Ctx) (x : Mat) : Except Nat (Option EmRead) :=
  match x.em with
  | none => .ok none
  | some em =>
    let cols := (natRange 0 (x.w.ext 2)).flatMap fun b => (natRange 0 (x.w.ext 1)).map fun n => (n, b)
    match s.emRead c.cl em true c.g.codebooks (em.colBlocks cols) with
    | .ok r => .ok (some r)
    | .error d => .error d

/-- The whole range of MATMUL's walk on an engine's band. -/
def Mat.range (x : Mat) (c : Ctx) : Tile :=
  [band (x.a.ext 1) (walkExt c.g x.slot 1 0) c.width c.pos, (0, x.w.ext 1), (0, x.a.ext 0), (0, x.a.ext 2)]

/-- A level-0 tile with the last products of its output tile (R195). -/
def Mat.last (x : Mat) (t : Tile) : Bool := decide ((tileDim t 2).2 = x.a.ext 0)

/-- The output tiles of an engine's band in the order in which they drain. -/
def Mat.outTiles (x : Mat) (c : Ctx) : List Tile :=
  ((walkVisits c.g x.slot (x.range c)).flatMap fun v => walkTiles c.g x.slot 0 v.2).filter x.last

/-- Rows of a tile of D, from its first column on. -/
def tileRows (t : Tile) : List Ix := boxRows [tileDim t 1, tileDim t 0, tileDim t 3, (0, 1), (0, 1)]

/-- An output tile drained (R195, R232): its streams read, its rows computed and stored. -/
def State.matOut (c : Ctx) (x : Mat) (ops : List W128) (gated : Bool) (rd : Option EmRead) (err : Option ArrayErr) (bad : Option Tile) (t : Tile)
    (s : State) : State × Option Nat :=
  if !x.last t then (s, none)
  else match s.matTile c x ops (walkExt c.g x.slot 0 1) rd (if some t = bad then err else none) t with
    | .error d => (s, some d)
    | .ok rows =>
      let n := tileDim t 1
      let s1 := s.moved c true (c.streamRanges ops (tileRows t) n.1 (n.2 - n.1) (decide (n.1 = 0)))
      (s1.gateEvents c (if gated then rows.length else 0) ((rows.map (·.2)).foldl (· + ·) 0)).writeOut x.clash c c.g.unit (joinWrites (rows.map (·.1)))

/-- The work of MATMUL on an engine's band of m (R153, R193, R195). -/
def State.matRun (s : State) (e : Eng) (c : Ctx) (x : Mat) (w : W128) (chk : EngCheck) : State × Option Nat :=
  match x.outTiles c with
  | [] => (s, none)
  | tiles =>
    let gs := bits (wbyte w 9) 0 4
    let ops := if gs = 0 then [] else gateSeq c.g gs
    match s.matEmber c x with
    | .error d => (s, some d)
    | .ok rd =>
      match (match rd with
        | some r => r.useTiles (decide (x.w.dims = 3)) c.g.pendingBooks (s.loadCycles c)
            (x.emTileCycles r (decide (c.r.kind = 6)) c.g) tiles { store := c.g.codebooks }
        | none => .ok (some { store := c.g.codebooks })) with
      | .error d => (s, some d)
      | .ok none => (s.modEng e fun g => { g with stall := .codebook s.tb, resumed := true }, none)
      | .ok (some u) =>
        let s1 := (((s.modEng e fun g => { g with codebooks := u.store }).count c.r.die c.g.unit 0x41 u.loads (some c.cl)).count c.r.die
          c.g.unit 0x42 u.wait (some c.cl)).count c.r.die c.g.unit 0x40 (tiles.length * x.tileCycles c.g) (some c.cl)
        let s2 := if ops.isEmpty then s1 else s1.gateCorrected c (if chk = .storeCorrected then .pass else chk)
        match s2.mxeCheck c x.ints (!ops.isEmpty) (fun err => (errTile tiles chk).bind (s.castoutOf c x rd err)) chk with
        | some f => s2.mxeFault c f
        | none =>
          runWalk c x.slot (x.operands c w) (fun _ => true) (State.matOut c x ops (decide (gs ≠ 0)) rd (arrayErrOf x.ints chk) (errTile tiles chk)) {}
            (walkVisits c.g x.slot (x.range c)) s2

/-- Check 1 of R137 on MATMUL's own fields (R193). -/
def matOwn (w : W128) : Bool := decide (wmods w = 0) && decide (wbyte w 9 < 16) && wzero w 10 15

/-- The shape of CB_PRELOAD, and its own fields (R137, R197). -/
def preloadShape : OpShape := ⟨.unused, .required, .unused, false⟩
def preloadOwn (w : W128) : Bool :=
  decide (wmods w = 0) && decide (wbyte w 8 = 0) && decide (1 ≤ wbyte w 10) && decide (wbyte w 10 ≤ 16) && wzero w 11 15

/-- The codebooks that the blocks of an Ember weight name, none where they cannot be read. -/
def State.weightBooks (s : State) (c : Ctx) (k : Card) : List Book :=
  match s.openEmber c.cl k with
  | .error _ => []
  | .ok em =>
    let cols := (natRange 0 (k.ext 2)).flatMap fun b => (natRange 0 (k.ext 1)).map fun n => (n, b)
    match tryMap (s.emRaw c.cl em) (em.colBlocks cols) with
    | .error _ => []
    | .ok bs => ((bs.flatMap em.namedBooks).map em.bookOf).eraseDups

/-- The engine waits for a codebook that CB_PRELOAD is loading and this MATMUL, which its program holds next, needs (R198, R294). -/
def State.waitsBook (s : State) (e : Eng) (w : W128) : Bool :=
  match s.engOf e with
  | some (r, g) =>
    let c := ctxOf e r g w
    let k := c.srcB w
    s.mayRun e r g && opIs w 0x30 && opAllowed r.kind 0x30 && (match s.fetch r g with | .ok x => decide (x = w) | .error _ => false) &&
    !g.preloads.isEmpty && k.emberOk && (s.weightBooks c k).any fun b => g.loadingBooks.any b.same
  | none => false

/-- What MATMUL does on one engine, before its pc moves on: the next state, or the detail it fails with. -/
def matmulFx (e : Eng) (w : W128) (chk : EngCheck) (c : Ctx) (t : State) : State × Option Nat :=
  match checks123 c.r.cmd matShape w (matOwn w) with
  | some d => (t, some d)
  | none => match t.matDecode c w with
    | .error d => (t, some d)
    | .ok x => t.matRun e c x w chk

/-- MATMUL (R190 to R203, R297). -/
def matmul (e : Eng) (w : W128) (chk : EngCheck) (s : State) : State :=
  if s.waitsBook e w then s.modEng e fun g => { g with stall := .codebook s.tb }
  else s.instr e w 0x30 (matmulFx e w chk)

def execMatmul (e : Eng) (w : W128) (chk : EngCheck) (s : State) : Host.Outcome State Fault Refusal := .next (matmul e w chk s)

/-! ### CB_PRELOAD and the end of loads (R198, R294) -/

/-- What CBPRELOAD does on one engine, before its pc moves on: the next state, or the detail it fails with. A CRC of a codebook is
checked as it is loaded (R293). -/
def cbPreloadFx (e : Eng) (w : W128) (c : Ctx) (t : State) : State × Option Nat :=
  let first := wbyte w 9
  let n := wbyte w 10
  match checks123 c.r.cmd preloadShape w (preloadOwn w) with
  | some d => (t, some d)
  | none =>
    let k := c.srcA w
    if c.r.cmd.resident then (t, some 0x0605)
    else if !k.emberOk then (t, some 0x0604)
    else match t.openEmber c.cl k with
      | .error d => (t, some d)
      | .ok em =>
        let asked := (natRange first n).map em.bookOf
        if em.books.length < first + n then (t, some 0x0C04)
        else if !t.emModeOk c.cl em true then (t, some 0x0C05)
        else if !booksFit asked then (t, some 0x0605)
        else
          let held := asked.filter fun b => c.g.codebooks.any b.same
          let want := asked.filter fun b => !c.g.codebooks.any b.same && !c.g.loadingBooks.any b.same
          let cycles := (want.map (t.loadCycles c)).foldl (· + ·) 0
          let start := match c.g.preloads.getLast? with | some p => max p.until_ t.tb | none => t.tb
          let until_ := start + ceilDiv (cycles * 384) (10 * max 1 (t.unitMhz c.r.die c.g.unit))
          let t1 := (t.moved c true (want.map fun b => (k.scaleBase + b.off, b.bytes + 4))).count c.r.die c.g.unit 0x41 want.length (some c.cl)
          if want.isEmpty then (t1, none)
          else (t1.modEng e fun g => { g with preloads := g.preloads ++ [⟨want, held, until_⟩] }, none)

/-- CB_PRELOAD (R198). -/
def cbPreload (e : Eng) (w : W128) (s : State) : State :=
  s.instr e w 0x31 (cbPreloadFx e w)

def execCbPreload (e : Eng) (w : W128) (s : State) : Host.Outcome State Fault Refusal := .next (cbPreload e w s)

/-- Codebooks loaded, each with its bytes, its CRC checked (R293). -/
def State.loadBooks (s : State) (cl : Nat) (bs : List Book) : Except Nat (List Book) :=
  tryMap (fun (b : Book) => match s.bookAt cl (b.set + b.off) b.bytes with
    | .ok d => .ok { b with data := d }
    | .error n => .error n) bs

/-- The oldest pending CB_PRELOAD whose loads have ended by `now` and find room, with its place: a load does not evict what a pending
CB_PRELOAD has named, and waits where nothing else is left (R294). -/
def EngRun.preloadDone (g : EngRun) (now : Nat) : Option (Nat × Preload) :=
  (natRange 0 g.preloads.length).findSome? fun i =>
    match g.preloads[i]? with
    | some p => if p.until_ ≤ now ∧ (useBooks g.pendingBooks p.want g.codebooks).isSome then some (i, p) else none
    | none => none

/-- CODEBOOK_LOAD_DONE (R294): the loads of a CB_PRELOAD have ended, and an instruction that waits for one may go on. -/
def codebookLoadDone (e : Eng) (s : State) : State :=
  match s.engOf e with
  | none => s
  | some (r, g) =>
    match g.preloadDone s.tb with
    | none => s
    | some (i, p) =>
      match s.loadBooks r.client p.want with
      | .error d => s.failEng e d
      | .ok bs => s.modEng e fun g =>
        { g with
          codebooks := (useBooks g.pendingBooks bs g.codebooks).getD g.codebooks
          preloads := g.preloads.eraseIdx i
          stall := match g.stall with | .codebook _ => .none | y => y }

def execCodebookLoadDone (e : Eng) (s : State) : Host.Outcome State Fault Refusal := .next (codebookLoadDone e s)

/-! ### Recurrence (R204 to R213) -/

/-- A shape (R206, R208): N, P, H and a_mode. -/
structure RecShape where
  n : Nat
  p : Nat
  h : Nat
  wide : Bool
  deriving DecidableEq, Repr

def shapeOf (x : Nat) : RecShape := ⟨bits x 0 7 + 1, bits x 7 7 + 1, bits x 14 7 + 1, bit x 21⟩

/-- The rods that a snapshot part holds (R207, R211). -/
def rodsFrom (b : List Byte) : NMap Nat :=
  forEach (natRange 0 16384) [] fun i m => mapPut m i (emAt b (4 * i) 4) 0

/-- The rods of every position as R211 loads them, from a record's bytes. A record that names a slot of card 0 but another die fails as one
whose Hearth has been lost does (DEDUCED, log 187). -/
def State.loadRods (s : State) (c : Ctx) (rec : List Byte) : Except Nat (List (NMap Nat)) :=
  let ptr := emAt rec 0 8
  if !bit ptr 48 then .ok ((natRange 0 c.width).map fun _ => [])
  else if emAt rec 16 2 ≠ s.epoch (dieUnit c.r.die) then .error 0x0E01
  else
    let base := (c.card 0).base
    let slot := if bits ptr 0 48 = base then some 0 else if bits ptr 0 48 = base + 65536 * c.width then some 1 else none
    match slot with
    | none => .error 0x0605
    | some k =>
      if emAt rec 18 1 ≠ c.r.die then .error 0x0E01
      else tryMap (fun i => match s.cread c.cl (slotPart base c.width k i) 65536 with
        | .ok b => .ok (rodsFrom b)
        | .error d => .error d) (natRange 0 c.width)

/-- Engines enter residency (R206, R211): their epochs advance, and the state is loaded. -/
def State.enterResidency (s : State) (c : Ctx) (rec : List Byte) (shape : Nat) : State × Option Nat :=
  match s.loadRods c rec with
  | .error d => (s, some d)
  | .ok rods =>
    let ns := c.r.engs.map fun g => g.unit
    let x : Residency :=
      { client := c.cl, record := c.r.cmd.record, shape := shape, die := c.r.die, engines := ns, ring := c.r.ring, state := rods
        segStart := s.tb, segShare := s.share c.cl 0 }
    let s1 := { s with residencies := s.residencies ++ [x] }
    (forEach (natRange 0 ns.length) s1 fun i t =>
      let n := ns.getD i 0
      (((t.setFld (Fld.MXE_STATUS_res_state c.r.die n) 1).setFld (Fld.MXE_RES_res_record c.r.die n) c.r.cmd.record).setFld
        (Fld.MXE_RES_res_position c.r.die n) i).advanceEpoch (unitOf c.r.die n), none)

/-- Rules that every recurrence opcode shares (R207, R214): the detail with which it fails. -/
def Ctx.recFault (c : Ctx) : Option Nat :=
  if c.r.kind = 6 then some 0x0606 else if !c.r.cmd.resident then some 0x0605 else none

/-- The reserved fields of a residency record are zero (R10, R208). R208 names no detail for a breach: it is that of a record that
breaks R207 (DESIGN CHOICE, log 158). -/
def recordReservedOk (rec : List Byte) : Bool :=
  decide (emAt rec 0 8 < 2 ^ 49) && decide (emAt rec 19 5 = 0) && decide (emAt rec 28 36 = 0)

/-- What RECBIND does on one engine, before its pc moves on: the next state, or the detail it fails with. -/
def recBindFx (e : Eng) (w : W128) (c : Ctx) (t : State) : State × Option Nat :=
  match checks123 c.r.cmd ⟨.required, .required, .unused, false⟩ w (decide (wmods w = 0) && decide (wbyte w 8 = 0) &&
      decide (wbyte w 9 < 128) && decide (wbyte w 10 < 128) && decide (wbyte w 12 < 2) && wzero w 13 15) with
  | some d => (t, some d)
  | none => match c.recFault with
    | some d => (t, some d)
    | none =>
      let shape := wbyte w 9 + wbyte w 10 * 128 + 16384 * wbyte w 11 + 2097152 * wbyte w 12 + 4194304 * (c.r.cmd.width - 1)
      if (wdst w).card ≠ 0 ∨ (wsrcA w).card ≠ 1 ∨ c.g.bound ∨ 128 < (wbyte w 11 + 1) * (wbyte w 10 + 1) then (t, some 0x0605)
      else match t.cread c.cl c.r.cmd.record 64 with
        | .error d => (t, some d)
        | .ok rec =>
          if emAt rec 24 4 ≠ shape ∨ !recordReservedOk rec then (t, some 0x0605)
          else
            let t1 := t.modEng e fun g => { g with bound := true }
            match t1.residencyOf c.r with
            | some x => if x.shape = shape then (t1, none) else (t1, some 0x0605)
            | none => (t1.moved c true [((c.card 0).base, if bit (emAt rec 0 8) 48 then 65536 * c.width else 0)]).enterResidency c rec shape

/-- REC_BIND (R206, R207). -/
def recBind (e : Eng) (w : W128) (s : State) : State :=
  s.instr e w 0x38 (recBindFx e w)

def execRecBind (e : Eng) (w : W128) (s : State) : Host.Outcome State Fault Refusal := .next (recBind e w s)

/-- The operand rules of REC_SCAN (R205). -/
def scanOk (q : RecShape) (width : Nat) (d a x : Card) : Bool :=
  let l := if q.wide then 3 * q.n else 2 * q.n + 1
  let flt := fun (c : Card) => [7, 8, 9].contains c.typ && decide (c.scaleType = 0) && decide (c.dims = 3)
  flt a && flt x && ([5, 6, 7, 8, 9].contains d.typ || decide (d.typ = 3)) && decide (d.scaleType = 0) && decide (d.dims = 3) &&
  decide (x.ext 0 = q.p) && decide (x.ext 1 = width * q.h) && decide (a.ext 0 = l) && decide (a.ext 1 = width * q.h) &&
  decide (a.ext 2 = x.ext 2) && decide (d.ext 0 = q.p) && decide (d.ext 1 = width * q.h) && decide (d.ext 2 = x.ext 2)

/-- A vector of a source for one head and token, zeros for a token out of bounds (R159). -/
def State.scanVec (s : State) (cl : Nat) (k : Card) (g t : Nat) : Except Nat (List Num) :=
  tryMap (fun i => if t < k.ext 2 then s.elemVal cl k none [Int.ofNat i, Int.ofNat g, Int.ofNat t, 0, 0] else .ok numZero)
    (natRange 0 (k.ext 0))

/-- The rods of one head after a token, and its outputs (R205). -/
def scanHead (rho : Nat) (q : RecShape) (g : Nat) (coef x : List Num) (rods : NMap Nat) : NMap Nat × List Num :=
  let na := if q.wide then q.n else 1
  let cf := fun i => coef.getD i numZero
  let rods1 := forEach (natRange 0 q.n) rods fun n m =>
    let alpha := cf (if q.wide then n else 0)
    forEach (natRange 0 q.p) m fun p m1 =>
      let key := n * 128 + g * q.p + p
      let h := num32 (mapGet m1 key 0)
      mapPut m1 key (fp32.encode (add32 rho (mul32 rho alpha h) (mul32 rho (cf (na + n)) (x.getD p numZero)))) 0
  (rods1, (natRange 0 q.p).map fun p =>
    (natRange 0 q.n).foldl (fun acc n =>
      add32 rho acc (mul32 rho (cf (na + q.n + n)) (num32 (mapGet rods1 (n * 128 + g * q.p + p) 0)))) numZero)

/-- One token on one engine: the rods, and what is stored. -/
def State.scanToken (s : State) (c : Ctx) (q : RecShape) (d a x : Card) (t : Nat) (acc : NMap Nat × Writes) :
    Except Nat (NMap Nat × Writes) :=
  tryFold (fun acc g =>
    let head := c.pos * q.h + g
    match s.scanVec c.cl a head t, s.scanVec c.cl x head t with
    | .ok cv, .ok xv =>
      let (rods, ys) := scanHead c.rho q g cv xv acc.1
      .ok (rods, if t < d.ext 2 then acc.2.append (d.storeRow c.rnd c.draw [0, Int.ofNat head, Int.ofNat t, 0, 0] ys) else acc.2)
    | .error n, _ => .error n
    | _, .error n => .error n) acc (natRange 0 q.h)

/-- What RECSCAN does on one engine, before its pc moves on: the next state, or the detail it fails with. -/
def recScanFx (w : W128) (chk : EngCheck) (c : Ctx) (t : State) : State × Option Nat :=
  let n := wbyte w 13
  match checks123 c.r.cmd ⟨.required, .required, .required, false⟩ w
      (decide (wmods w = 0) && decide (1 ≤ n) && decide (n ≤ 64) && wzero w 14 15) with
  | some d => (t, some d)
  | none => match c.recFault with
    | some d => (t, some d)
    | none => match (if c.g.bound then t.residencyOf c.r else none) with
      | none => (t, some 0x0605)
      | some x =>
        let q := shapeOf x.shape
        let d := c.dst w
        if !scanOk q c.width d (c.srcA w) (c.srcB w) then (t, some 0x0604)
        else
          let first := wlong w 9
          let toks := natRange first n
          let live := toks.filter fun k => decide (k < d.ext 2)
          let rd := fun (k : Card) => live.flatMap fun tok => (natRange 0 q.h).map fun g =>
            (k.rowAddr [0, Int.ofNat (c.pos * q.h + g), Int.ofNat tok, 0, 0], k.rowBytes)
          let t1 := (t.moved c true (rd (c.srcA w) ++ rd (c.srcB w))).count c.r.die c.g.unit 0x43 n (some c.cl)
          match t1.mxeCheck c false false (fun _ => none) chk with
          | some f => t1.mxeFault c f
          | none =>
            match tryFold (fun acc k => t.scanToken c q d (c.srcA w) (c.srcB w) k acc) (x.state.getD c.pos [], {}) toks with
            | .error k => (t1, some k)
            | .ok (rods, ws) =>
              let t2 := { t1 with residencies := t1.residencies.map fun (y : Residency) => if y.record = x.record ∧ y.client = x.client then
                { y with state := (natRange 0 y.state.length).map fun i => if i = c.pos then rods else y.state.getD i [] } else y }
              t2.doWrites c c.g.unit ws

/-- REC_SCAN (R205). -/
def recScan (e : Eng) (w : W128) (chk : EngCheck) (s : State) : State :=
  s.instr e w 0x39 (recScanFx w chk)

def execRecScan (e : Eng) (w : W128) (chk : EngCheck) (s : State) : Host.Outcome State Fault Refusal := .next (recScan e w chk s)

/-- What RECUNBIND does on one engine, before its pc moves on: the next state, or the detail it fails with. -/
def recUnbindFx (e : Eng) (w : W128) (c : Ctx) (t : State) : State × Option Nat :=
  if !(allAbsent w && decide (wmods w = 0) && wzero w 8 15) then (t, some 0x0402)
  else match c.recFault with
    | some d => (t, some d)
    | none => if !c.g.bound ∨ c.g.unbind then (t, some 0x0605)
      else (t.modEng e fun g => { g with unbind := true }, none)

/-- REC_UNBIND (R206, R207): the residency ends at the tally of the command. -/
def recUnbind (e : Eng) (w : W128) (s : State) : State :=
  s.instr e w 0x3A (recUnbindFx e w)

def execRecUnbind (e : Eng) (w : W128) (s : State) : Host.Outcome State Fault Refusal := .next (recUnbind e w s)

/-- The parked residency that holds MXE `n` of a die. -/
def State.parkedWith (s : State) (d n : Nat) : Option Residency :=
  s.residencies.find? fun x => decide (x.die = d) && x.engines.contains n && x.parkedSince.isSome

/-- PARK_LIMIT (R212, R215): a parking limit below 50 µs is 50. -/
def parkLimit (die engine : Nat) (s : State) : State :=
  match s.parkedWith die engine with
  | none => s
  | some x =>
    match x.parkedSince with
    | none => s
    | some t =>
      if s.passedUs t (max 50 (s.fld (Fld.MXE_CTRL_park_limit_us die engine))) ∧ !s.calledBack x then s.endResidency x true else s

def execParkLimit (die engine : Nat) (s : State) : Host.Outcome State Fault Refusal := .next (parkLimit die engine s)

/-- The `enable` field of an engine's control register, where it has one (R215, R249, R283, R304). -/
def enableFld (d u : Nat) : Option Fld :=
  if u < 8 then some (Fld.MXE_CTRL_enable d u)
  else if u = 0x010 ∨ u = 0x011 then some (Fld.ATE_CTRL_enable d (u - 0x010))
  else if u = 0x020 then some (Fld.CEE_CTRL_enable d)
  else if u = 0x021 then some (Fld.PPE_CTRL_enable d)
  else if u = 0x030 ∨ u = 0x031 then some (Fld.CDC_CTRL_enable d (u - 0x030))
  else none

/-- An engine disabled by its control register: out of service at once, or after its running command; a residency that holds it
parked ends (R212, R215). -/
def State.disableEngine (s : State) (d u : Nat) : State :=
  match (if u < 8 then s.parkedWith d u else none) with
  | some x => (s.endResidency x true).setInService d u false
  | none =>
    if (s.runOn? d u).isSome then s.modUnit (unitOf d u) fun x => { x with disabling := true }
    else (s.setInService d u false).advanceEpoch (unitOf d u)

/-- ENGINE_DISABLE (R215): a write of 0 to an engine's `enable`, discarded while its block does not answer (R43). -/
def engineDisable (unit : Nat) (s : State) : State :=
  let d := unit / 4096
  let u := unit % 4096
  match enableFld d u with
  | none => s
  | some f => if s.fitted d ∧ s.logicServes d ∧ s.flag f then (s.setFlag f false).disableEngine d u else s

def execEngineDisable (unit : Nat) (s : State) : Host.Outcome State Fault Refusal := .next (engineDisable unit s)

end Sys2Proof.Machine
end

