-- ==== Sys2Proof/Machine/Window.lean ====
section
/-! DEFINITION. The window engine, with CONV and CONV_PARAM (R235 to R241), and the detection engine, with BOX_DECODE, SCORE_FILTER
and NMS (R242 to R248). -/

namespace Sys2Proof.Machine

/-- The detail with which a check of a duplicated datapath (`dm`) or of a store (`ds`) ends an instruction, if the check is
enabled (R241, R248, R249, R269, R280, R303, R304). -/
def unitCheck (checkOn eccOn : Bool) (dm ds : Nat) (chk : EngCheck) : Option Nat :=
  match chk with
  | .mismatch => if checkOn then some dm else none
  | .storeUncorrectable => if eccOn then some ds else none
  | _ => none

/-- A detection recorded in a unit's status: `seen` for a mismatch, and the fault counter (R250, R281, R304). -/
def State.unitFault (s : State) (c : Ctx) (seen cnt : Fld) (isMismatch : Bool) (detail : Nat) : State × Option Nat :=
  let s1 := (s.count c.r.die c.g.unit 0x0C (b2n isMismatch) (some c.cl)).addFld cnt 1
  (if isMismatch then s1.setFlag seen true else s1, some detail)

/-! ### CONV and CONV_PARAM (R235 to R241) -/

/-- What CONVPARAM does on one engine, before its pc moves on: the next state, or the detail it fails with. -/
def convParamFx (e : Eng) (w : W128) (c : Ctx) (t : State) : State × Option Nat :=
  match checks123 c.r.cmd ⟨.unused, .optional, .optional, false⟩ w (decide (wmods w = 0) && wzero w 8 15) with
  | some d => (t, some d)
  | none =>
    let ok := fun (r : Ref) => r.absent || (let k := c.card r.card; decide (k.typ = 9) && decide (k.scaleType = 0) && decide (k.dims = 1) && decide (k.ext 0 ≤ 256))
    if !(ok (wsrcA w) && ok (wsrcB w)) then (t, some 0x0803)
    else (t.modEng e fun g => { g with convParam := some w }, none)

/-- CONV_PARAM (R235). -/
def convParam (e : Eng) (w : W128) (s : State) : State :=
  s.instr e w 0x81 (convParamFx e w)

def execConvParam (e : Eng) (w : W128) (s : State) : Host.Outcome State Fault Refusal := .next (convParam e w s)

/-- The fields of CONV (R236). -/
structure ConvFields where
  kw : Nat
  kh : Nat
  sx : Nat
  sy : Nat
  dx : Nat
  dy : Nat
  pt : Nat
  pb : Nat
  pl : Nat
  pr : Nat
  et : Nat
  eb : Nat
  el : Nat
  er : Nat
  clash : Bool := false
  deriving DecidableEq, Repr

def convFields (w : W128) : ConvFields :=
  let p := bits (wlong w 12) 0 24
  { kw := bits (wbyte w 9) 0 4 + 1, kh := bits (wbyte w 9) 4 4 + 1, sx := bits (wbyte w 10) 0 3 + 1, sy := bits (wbyte w 10) 3 3 + 1
    dx := bits (wbyte w 11) 0 3 + 1, dy := bits (wbyte w 11) 3 3 + 1, pt := bits p 0 6, pb := bits p 6 6, pl := bits p 12 6, pr := bits p 18 6
    et := bits (wbyte w 15) 0 2, eb := bits (wbyte w 15) 2 2, el := bits (wbyte w 15) 4 2, er := bits (wbyte w 15) 6 2
    clash := (wsrcA w).clashes (wsrcB w) }

def convShape : OpShape := ⟨.required, .required, .required, true⟩

/-- Check 1 of R137 on CONV's reserved bits. -/
def convOwn (w : W128) : Bool := decide (wmods w ≤ 1) && decide (wbyte w 10 < 64) && decide (wbyte w 11 < 64)

/-- Element types of CONV's sources. -/
def convInts (k : Card) : Bool := decide (k.typ = 3) || decide (k.typ = 4) || decide (k.typ = 1)

/-- The operands of CONV (R236). -/
def convOk (f : ConvFields) (d a k : Card) : Bool :=
  decide (f.kw ≤ 11) && decide (f.kh ≤ 11) && [3, 4, 7, 8].contains a.typ && [3, 1, 7, 8].contains k.typ && (convInts a == convInts k) &&
  (decide (a.dims = 3) || decide (a.dims = 4)) && decide (k.dims = 4) && decide (d.dims = a.dims) && decide (a.scaleType = 0) &&
  decide (k.scaleType = 0) && decide (d.scaleType = 0) && decide (d.typ ≠ 11) && decide (k.ext 0 = a.ext 0) && decide (k.ext 1 = f.kw) &&
  decide (k.ext 2 = f.kh) && decide (d.ext 0 = k.ext 3) && decide (d.ext 3 = a.ext 3) && decide (min (a.ext 0) (k.ext 3) ≤ 16) &&
  decide (max (a.ext 0) (k.ext 3) ≤ 256) && decide (convOut (a.ext 1) (f.pl + f.pr) f.kw f.dx f.sx = some (d.ext 1)) &&
  decide (convOut (a.ext 2) (f.pt + f.pb) f.kh f.dy f.sy = some (d.ext 2))

/-- How far output `o` elements of a stride reach beyond the trailing edge of an axis of extent `n`. -/
def trailReach (n o st lead k d : Nat) : Nat := (o - 1) * st + (k - 1) * d - lead - (n - 1)

/-- No mirror edge reaches beyond the input (R238). -/
def mirrorOk (f : ConvFields) (d a : Card) : Bool :=
  let ok := fun (mode reach n : Nat) => decide (mode ≠ 2) || decide (reach ≤ n - 1)
  ok f.el f.pl (a.ext 1) && ok f.et f.pt (a.ext 2) && ok f.er (trailReach (a.ext 1) (d.ext 1) f.sx f.pl f.kw f.dx) (a.ext 1) &&
  ok f.eb (trailReach (a.ext 2) (d.ext 2) f.sy f.pt f.kh f.dy) (a.ext 2)

/-- The limits of R239. -/
def convWalkOk (f : ConvFields) (e : EngRun) (slot : Nat) (a : Card) : Bool :=
  let e0 := walkExt e slot 0
  let wi := (walkExt e slot 1 1 - 1) * f.sx + (f.kw - 1) * f.dx + 1
  let rows := (f.kh - 1) * f.dy + 1 + f.sy
  decide (e0 0 = 1) && decide (e0 1 = 16) && decide (e0 2 = 16) && decide (e0 3 = 1) && decide (wi ≤ 4096) &&
  decide (rows * wi * a.ext 0 * (a.bits / 8) ≤ 1572864)

/-- What an axis supplies at an index (R238): an element's index, or the padding's value. -/
inductive AxisPad where
  | at_ (i : Nat)
  | zero
  | const
  deriving DecidableEq, Repr

def axisPad (n lead trail : Nat) (i : Int) : AxisPad :=
  if i < 0 then
    match lead with | 0 => .zero | 1 => .const | 2 => .at_ (-i).toNat | _ => .at_ 0
  else if (n : Int) ≤ i then
    match trail with | 0 => .zero | 1 => .const | 2 => .at_ (2 * ((n : Int) - 1) - i).toNat | _ => .at_ (n - 1)
  else .at_ i.toNat

/-- A CONV read (R238). -/
def State.convRead (s : State) (cl : Nat) (f : ConvFields) (a : Card) (ci : Nat) (ix iy : Int) (b : Nat) : Except Nat Num :=
  match axisPad (a.ext 1) f.el f.er ix, axisPad (a.ext 2) f.et f.eb iy with
  | .zero, _ => .ok numZero
  | .const, _ => .ok (a.value a.padValue)
  | .at_ _, .zero => .ok numZero
  | .at_ _, .const => .ok (a.value a.padValue)
  | .at_ x, .at_ y => s.elemVal cl a none [Int.ofNat ci, Int.ofNat x, Int.ofNat y, Int.ofNat b, 0]

/-- The window at an output position in the order of R237: ky, kx, ci. -/
def State.convWindow (s : State) (cl : Nat) (f : ConvFields) (a : Card) (ox oy b : Nat) : Except Nat (List Num) :=
  tryMap (fun (v : Nat) =>
    let k := v / a.ext 0
    s.convRead cl f a (v % a.ext 0) (Int.ofNat (ox * f.sx + k % f.kw * f.dx) - f.pl) (Int.ofNat (oy * f.sy + k / f.kw * f.dy) - f.pt) b)
    (natRange 0 (a.ext 0 * f.kw * f.kh))

/-- A filter in the same order. -/
def State.convFilter (s : State) (cl : Nat) (f : ConvFields) (k : Card) (co : Nat) : Except Nat (List Num) :=
  tryMap (fun (v : Nat) =>
    let j := v / k.ext 0
    s.elemVal cl k none [Int.ofNat (v % k.ext 0), Int.ofNat (j % f.kw), Int.ofNat (j / f.kw), Int.ofNat co, 0]) (natRange 0 (k.ext 0 * f.kw * f.kh))

/-- A per-channel parameter: element `co` of a card that CONV_PARAM named, or a default. It is read as the
CONV runs, not as CONV_PARAM does (DESIGN CHOICE, log 194). -/
def State.convParamAt (s : State) (c : Ctx) (pick : W128 → Ref) (dflt : Num) (co : Nat) : Except Nat Num :=
  match c.g.convParam with
  | none => .ok dflt
  | some w => if (pick w).absent then .ok dflt else s.elemVal c.cl (c.card (pick w).card) none [Int.ofNat co, 0, 0, 0, 0]

/-- The parameter cards suit the output channels (R235). -/
def Ctx.convParamOk (c : Ctx) (co : Nat) : Bool :=
  match c.g.convParam with
  | none => true
  | some w => [wsrcA w, wsrcB w].all fun r => r.absent || decide ((c.card r.card).ext 0 = co)

/-- The last steps of R237 on a sum. -/
def convEnd (rho : Nat) (relu : Bool) (acc scale bias : Num) : Num :=
  let v := add32 rho (mul32 rho (round32 rho acc) scale) bias
  if relu && (v.lt numZero || v.isZero) then numZero else v

/-- One run of outputs along the channels from channel `ixAt i 0` on. -/
def State.convRow (s : State) (c : Ctx) (f : ConvFields) (relu : Bool) (d a : Card) (filters : List (List Num × Num × Num)) (ints : Bool)
    (i : Ix) : Except Nat Writes :=
  match s.convWindow c.cl f a (ixAt i 1).toNat (ixAt i 2).toNat (ixAt i 3).toNat with
  | .error n => .error n
  | .ok win => .ok (d.storeRow c.rnd c.draw i (filters.map fun (k, scale, bias) =>
      convEnd c.rho relu (if ints then numOfInt (beadInt win k 0) else beadFlt c.rho win k numZero) scale bias))

/-- The windows of CONV along x and y. -/
def ConvFields.winX (f : ConvFields) (a : Card) : Win1 := ⟨a.ext 1, f.kw, f.sx, f.dx, f.pl⟩
def ConvFields.winY (f : ConvFields) (a : Card) : Win1 := ⟨a.ext 2, f.kh, f.sy, f.dy, f.pt⟩

/-- A level-0 tile as the line buffers see it: the columns of its stripe, its plane and its output row. -/
structure Line where
  cols : Nat × Nat
  plane : Nat
  row : Nat
  deriving DecidableEq, Repr

/-- The level-0 tiles of visits as the line buffers see them. -/
def linesOfWalk (g : EngRun) (slot : Nat) (vs : List (Tile × Tile)) : List Line :=
  vs.flatMap fun v => (walkTiles g slot 0 v.2).map fun t => ⟨tileDim v.2 1, (tileDim t 3).1, (tileDim t 0).1⟩

/-- The line buffers go on from `p` to `q` without a refill: one stripe, and the same output row or the next (R239). -/
def Line.follows (p q : Line) : Bool :=
  decide (p.cols = q.cols) && decide (p.plane = q.plane) && (decide (q.row = p.row) || decide (q.row = p.row + 1))

/-- The input rows that a level-0 tile adds to the line buffers: those of its window that the tile before it has not fetched (R239). -/
def lineRows (v : Win1) (prev : Option Line) (q : Line) : List Nat :=
  let all := v.clip (Int.ofNat (q.row * v.st) - v.pad) (Int.ofNat (q.row * v.st + (v.k - 1) * v.dl + 1) - v.pad)
  match prev with
  | some p =>
    if p.follows q then
      let old := v.clip (Int.ofNat (p.row * v.st) - v.pad) (Int.ofNat (p.row * v.st + (v.k - 1) * v.dl + 1) - v.pad)
      all.filter fun r => decide ((old.getLast?.getD 0) < r) || old.isEmpty
    else all
  | none => all

/-- The boxes of the input that the line buffers fetch, tile after tile; columns that neighbouring stripes share are fetched by each. -/
def lineBoxes (vx vy : Win1) (chans : Nat) : Option Line → List Line → List Box
  | _, [] => []
  | prev, q :: qs =>
    let xs := vx.span q.cols.1 q.cols.2
    let ys := lineRows vy prev q
    let box : Box := [(0, chans), (xs.headD 0, xs.headD 0 + xs.length), (ys.headD 0, ys.headD 0 + ys.length), (q.plane, q.plane + 1), (0, 1)]
    (if ys.isEmpty then [] else [box]) ++ lineBoxes vx vy chans (some q) qs

/-- Refills of the line buffers: tiles that do not go on from the tile before them (R239). -/
def refills : List Line → Nat
  | p :: q :: rest => b2n (!p.follows q) + refills (q :: rest)
  | _ => 0

/-- The two sources of CONV as the walk takes them, with their staged sizes: the input tile with its halo, and the filters (R156, R239).
The staged rows and columns of the input are those that the windows of the level-2 extents span, halo and padding included, and at most
the input's own (DESIGN CHOICE, log 192). -/
def convOperands (c : Ctx) (f : ConvFields) (w : W128) (slot : Nat) (d a k : Card) : List Operand :=
  let full := [d.ext 2, d.ext 1, d.ext 0, d.ext 3]
  let ext := fun j => stagedExt c.g slot c.width full j
  let ih := min (a.ext 2) ((ext 0 - 1) * f.sy + (f.kh - 1) * f.dy + 1)
  let iw := min (a.ext 1) ((ext 1 - 1) * f.sx + (f.kw - 1) * f.dx + 1)
  [{ card := a, ref := wsrcA w, split := true, dims := [none, some 1, some 0, if a.dims = 4 then some 3 else none]
     win := some (f.winX a, f.winY a), size := up256 (ceilDiv (a.ext 0 * a.bits) 8 * iw * ih * ext 3) },
   { card := k, ref := wsrcB w, split := false, dims := [none, none, none, some 2]
     size := stagedSize k c.g slot c.width full fun j => if j = 3 then some 2 else none }]

/-- The filters of the output channels [lo, hi) with their scales and biases. -/
def State.convFilters (s : State) (c : Ctx) (f : ConvFields) (k : Card) (lo hi : Nat) : Except Nat (List (List Num × Num × Num)) :=
  tryMap (fun co =>
    match s.convFilter c.cl f k co, s.convParamAt c wsrcB numOne co, s.convParamAt c wsrcA numZero co with
    | .ok x, .ok sc, .ok bi => .ok (x, sc, bi)
    | .error n, _, _ => .error n
    | _, .error n, _ => .error n
    | _, _, .error n => .error n) (natRange lo (hi - lo))

/-- A level-0 tile of CONV computed and stored (R237). -/
def State.convOut (c : Ctx) (f : ConvFields) (relu : Bool) (d a k : Card) (t : Tile) (s : State) : State × Option Nat :=
  let co := tileDim t 2
  match s.convFilters c f k co.1 co.2 with
  | .error n => (s, some n)
  | .ok filters =>
    match rowWrites (s.convRow c f relu d a filters (convInts a)) (boxRows [co, tileDim t 1, tileDim t 0, tileDim t 3, (0, 1)]) with
    | .error n => (s, some n)
    | .ok ws => s.writeOut f.clash c c.g.unit ws

/-- The work of CONV on an engine's band of output rows (R153, R239). The filters are loaded with the walk, the input line by line. A
CEE command has one engine, so no halo is exchanged. -/
def State.convRun (s : State) (c : Ctx) (f : ConvFields) (w : W128) (d a k : Card) (chk : EngCheck) : State × Option Nat :=
  let slot := wwalk w
  let rows := band (d.ext 2) (walkExt c.g slot 1 0) c.width c.pos
  let vs := walkVisits c.g slot [rows, (0, d.ext 1), (0, d.ext 0), (0, d.ext 3)]
  let lines := linesOfWalk c.g slot vs
  let os := convOperands c f w slot d a k
  let src : Operand := os.getD 0 { card := a, ref := wsrcA w, split := true, dims := [] }
  let outer := src.box ((vs.headD ([], [])).1)
  let s1 := forEach (lineBoxes (f.winX a) (f.winY a) (a.ext 0) none lines) s fun b t => t.loadBox c src 0 outer b
  let passes := (rows.2 - rows.1) * ceilDiv (d.ext 1) 16 * ceilDiv (d.ext 0) 16 * d.ext 3
  let s2 := (s1.count c.r.die c.g.unit 0x40 passes (some c.cl)).count c.r.die c.g.unit 0x41 (refills lines) (some c.cl)
  let die := c.r.die
  let ecc := s2.flag (Fld.CEE_CTRL_ecc_enable die)
  let s3 := s2.corrected c c.g.unit (ecc && decide (chk = .storeCorrected))
  match unitCheck (s3.flag (Fld.CEE_CTRL_check_enable die) && convInts a) ecc 0x0801 0x0805 chk with
  | some n => s3.unitFault c (Fld.CEE_STATUS_check_seen die) (Fld.CEE_STATUS_check_faults die) (decide (n = 0x0801)) n
  | none => runWalk c slot os (fun o => !o.split) (State.convOut c f (decide (wmods w = 1)) d a k) {} vs s3

/-- What CONV does on one engine, before its pc moves on: the next state, or the detail it fails with. -/
def convFx (w : W128) (chk : EngCheck) (c : Ctx) (t : State) : State × Option Nat :=
  match checks123 c.r.cmd convShape w (convOwn w) with
  | some n => (t, some n)
  | none =>
    let f := convFields w
    let d := c.dst w
    let a := c.srcA w
    let k := c.srcB w
    let slot := wwalk w
    if !walkOk c.g slot none then (t, some 0x0405)
    else if !t.staged5 c (convOperands c f w slot d a k) then (t, some 0x0407)
    else if !(convOk f d a k && c.convParamOk (d.ext 0)) then (t, some 0x0803)
    else if !convWalkOk f c.g slot a then (t, some 0x0802)
    else if !mirrorOk f d a then (t, some 0x0804)
    else t.convRun c f w d a k chk

/-- CONV (R236 to R241). -/
def conv (e : Eng) (w : W128) (chk : EngCheck) (s : State) : State :=
  s.instr e w 0x80 (convFx w chk)

def execConv (e : Eng) (w : W128) (chk : EngCheck) (s : State) : Host.Outcome State Fault Refusal := .next (conv e w chk s)

/-! ### The detection engine (R242 to R248) -/

/-- The check of the detection engine, then its work. -/
def State.ppe (s : State) (c : Ctx) (chk : EngCheck) (f : State → State × Option Nat) : State × Option Nat :=
  let d := c.r.die
  let ecc := s.flag (Fld.PPE_CTRL_ecc_enable d)
  match unitCheck (s.flag (Fld.PPE_CTRL_check_enable d)) ecc 0x0901 0x0902 chk with
  | some n => s.unitFault c (Fld.PPE_STATUS_check_seen d) (Fld.PPE_STATUS_check_faults d) (decide (n = 0x0901)) n
  | none => f (s.corrected c c.g.unit (ecc && decide (chk = .storeCorrected)))

/-- A value clamped to [0, `clip`], `clip` 0 meaning no clip (R244). -/
def clipTo (clip : Nat) (x : Num) : Num :=
  let top := numOfInt (Int.ofNat clip)
  if clip = 0 then x else if x.lt numZero then numZero else if top.lt x then top else x

/-- The corners of a box (R244). -/
def boxOf (rho mode : Nat) (vxy vwh : Num) (t a : List Num) : List Num :=
  let at_ := fun (l : List Num) i => l.getD i numZero
  let half : Num := .fin false 1 (-1)
  let corners := fun (cx cy w h : Num) =>
    let x := mul32 rho half w
    let y := mul32 rho half h
    [add32 rho cx x.neg, add32 rho cy y.neg, add32 rho cx x, add32 rho cy y]
  match mode with
  | 0 =>
    let ctr := fun i => add32 rho (at_ a i) (mul32 rho (mul32 rho (at_ t i) vxy) (at_ a (i + 2)))
    let size := fun i => mul32 rho (at_ a i) (gateFn 0x0B rho (mul32 rho (at_ t i) vwh))
    corners (ctr 0) (ctr 1) (size 2) (size 3)
  | 1 => corners (at_ t 0) (at_ t 1) (at_ t 2) (at_ t 3)
  | _ => [add32 rho (at_ a 0) (at_ t 0).neg, add32 rho (at_ a 1) (at_ t 1).neg, add32 rho (at_ a 0) (at_ t 2), add32 rho (at_ a 1) (at_ t 3)]

/-- A row of four values of a card, as FP32. -/
def State.row4 (s : State) (c : Ctx) (k : Card) (j : Nat) : Except Nat (List Num) :=
  tryMap (fun (x : Nat) => s.laneVal c.cl k c.rho [Int.ofNat x, Int.ofNat j, 0, 0, 0]) (natRange 0 4)

/-- A card of `n` rows of four values that the detection engine may read. -/
def boxCard (k : Card) (n : Nat) : Bool := decide (k.dims = 2) && decide (k.ext 0 = 4) && decide (k.ext 1 = n) && !k.ember

/-- What BOXDECODE does on one engine, before its pc moves on: the next state, or the detail it fails with. -/
def boxDecodeFx (w : W128) (chk : EngCheck) (c : Ctx) (t : State) : State × Option Nat :=
  let mode := bits (wmods w) 0 2
  match checks123 c.r.cmd ⟨.required, .required, .optional, false⟩ w (decide (wmods w < 4) && decide (mode ≠ 3)) with
  | some n => (t, some n)
  | none =>
    let d := c.dst w
    let a := c.srcA w
    let k := c.srcB w
    let noAnchor := (wsrcB w).absent
    if !(boxCard a (d.ext 1) && boxCard d (d.ext 1) && [7, 8, 9].contains d.typ && decide (d.scaleType = 0) &&
        (if noAnchor then decide (mode = 1) else boxCard k (d.ext 1))) then (t, some 0x0903)
    else t.ppe c chk fun t =>
      let var := fun n => if n = 0 then numOne else bf16.decode n
      let clips := [bits (wlong w 12) 8 12, bits (wlong w 12) 20 12]
      let row := fun (j : Nat) => match t.row4 c a j, (if noAnchor then .ok [] else t.row4 c k j) with
        | .ok x, .ok y => .ok (d.storeRow c.rnd c.draw [0, Int.ofNat j, 0, 0, 0]
            ((natRange 0 4).map fun i => clipTo (clips.getD (i % 2) 0) ((boxOf c.rho mode (var (wword w 9)) (var (wword w 11)) x y).getD i numZero)))
        | .error n, _ => .error n
        | _, .error n => .error n
      let t1 := (t.moved c true (a.footprint 0 ++ if noAnchor then [] else k.footprint 0)).count c.r.die c.g.unit 0x40 (d.ext 1) (some c.cl)
      match tryMap row (natRange 0 (d.ext 1)) with
      | .error n => (t1, some n)
      | .ok ws => t1.doWrites c c.g.unit (joinWrites ws)

/-- BOX_DECODE (R244). -/
def boxDecode (e : Eng) (w : W128) (chk : EngCheck) (s : State) : State :=
  s.instr e w 0x90 (boxDecodeFx w chk)

def execBoxDecode (e : Eng) (w : W128) (chk : EngCheck) (s : State) : Host.Outcome State Fault Refusal := .next (boxDecode e w chk s)

/-- A candidate record (R243). -/
structure Cand where
  box : List Num
  score : Num
  cls : Num
  index : Num
  deriving DecidableEq, Repr

/-- The eight values of a record, and of one that a list does not fill. -/
def Cand.row (k : Cand) : List Num := k.box ++ [k.score, k.cls, k.index, numZero]
def unfilled : List Num := [numZero, numZero, numZero, numZero, .inf true, numZero, .fin true 1 0, numZero]

/-- Descending score, then ascending index; NaN scores last (R245, R246). -/
def candBefore (a b : Cand) : Bool :=
  if a.score.isNan || b.score.isNan then (!a.score.isNan) || (b.score.isNan && !b.index.lt a.index)
  else if b.score.lt a.score then true
  else if a.score.lt b.score then false
  else !b.index.lt a.index

/-- A candidate list card of at most `n` records (R243). -/
def listCard (k : Card) (n : Nat) : Bool :=
  decide (k.typ = 9) && decide (k.scaleType = 0) && decide (k.dims = 2) && decide (k.ext 0 = 8) && decide (k.ext 1 ≤ n)

/-- A list written from its records, the rest unfilled. -/
def listWrites (c : Ctx) (d : Card) (ks : List Cand) : Writes :=
  joinWrites ((natRange 0 (d.ext 1)).map fun j =>
    d.storeRow c.rnd c.draw [0, Int.ofNat j, 0, 0, 0] (match ks[j]? with | some (k : Cand) => k.row | none => unfilled))

/-- A score of SCORE_FILTER. -/
def State.scoreAt (s : State) (c : Ctx) (a : Card) (sig : Bool) (cl an : Nat) : Except Nat Num :=
  match s.laneVal c.cl a c.rho [Int.ofNat cl, Int.ofNat an, 0, 0, 0] with
  | .ok x => .ok (if sig then gateFn 0x08 c.rho x else x)
  | .error d => .error d

/-- The highest-scoring class of an anchor, ties to the lowest (R245). A score that is no NaN goes before one that is
(DESIGN CHOICE, log 195). -/
def bestClass : List Num → Nat → Nat × Num → Nat × Num
  | [], _, best => best
  | x :: xs, k, best => bestClass xs (k + 1) (if best.2.lt x || (best.2.isNan && !x.isNan) then (k, x) else best)

/-- What SCOREFILTER does on one engine, before its pc moves on: the next state, or the detail it fails with. -/
def scoreFilterFx (w : W128) (chk : EngCheck) (c : Ctx) (t : State) : State × Option Nat :=
  match checks123 c.r.cmd ⟨.required, .required, .required, false⟩ w (decide (wmods w < 4) && wzero w 9 11) with
  | some n => (t, some n)
  | none =>
    let d := c.dst w
    let a := c.srcA w
    let k := c.srcB w
    let nc := a.ext 0
    if !(decide (a.dims = 2) && !a.ember && decide (nc * a.ext 1 ≤ 16777216) && boxCard k (a.ext 1) && decide (k.typ = 9) &&
        decide (k.scaleType = 0) && listCard d 8192) then (t, some 0x0903)
    else t.ppe c chk fun t =>
      let thr := num32 (wlong w 12)
      let one := fun (an : Nat) =>
        match tryMap (fun cl => t.scoreAt c a (bit (wmods w) 0) cl an) (natRange 0 nc), t.row4 c k an with
        | .ok ss, .ok box =>
          let best := bestClass (ss.drop 1) 1 (0, ss.headD .nan)
          let all := if bit (wmods w) 1 then [(best.1, best.2, an)] else (natRange 0 nc).map fun cl => (cl, ss.getD cl .nan, an * nc + cl)
          .ok ((all.filter fun x => thr.lt x.2.1).map fun (cl, sc, ix) => ({ box := box, score := sc, cls := numOfInt (Int.ofNat cl), index := numOfInt (Int.ofNat ix) } : Cand))
        | .error n, _ => .error n
        | _, .error n => .error n
      let t0 := t.moved c true (a.footprint 0 ++ k.footprint 0)
      match tryMap one (natRange 0 (a.ext 1)) with
      | .error n => (t0, some n)
      | .ok cs =>
        let all := cs.flatten.mergeSort candBefore
        (t0.count c.r.die c.g.unit 0x41 (all.length - d.ext 1) (some c.cl)).doWrites c c.g.unit (listWrites c d (all.take (d.ext 1)))

/-- SCORE_FILTER (R245). -/
def scoreFilter (e : Eng) (w : W128) (chk : EngCheck) (s : State) : State :=
  s.instr e w 0x91 (scoreFilterFx w chk)

def execScoreFilter (e : Eng) (w : W128) (chk : EngCheck) (s : State) : Host.Outcome State Fault Refusal := .next (scoreFilter e w chk s)

/-- A record read from a list (R243). -/
def State.candAt (s : State) (cl : Nat) (k : Card) (j : Nat) : Except Nat Cand :=
  match tryMap (fun (x : Nat) => s.elemVal cl k none [Int.ofNat x, Int.ofNat j, 0, 0, 0]) (natRange 0 7) with
  | .ok v => .ok ⟨v.take 4, v.getD 4 .nan, v.getD 5 .nan, v.getD 6 .nan⟩
  | .error d => .error d

/-- max(0, x), NaN for NaN. -/
def clampLow (x : Num) : Num := maxNum numZero x

/-- The length of an overlap or of a side. -/
def sideLen (rho : Nat) (hi lo : Num) : Num := clampLow (add32 rho hi lo.neg)

/-- The area of a box (R246). -/
def boxArea (rho : Nat) (b : List Num) : Num :=
  let at_ := fun i => b.getD i numZero
  mul32 rho (sideLen rho (at_ 2) (at_ 0)) (sideLen rho (at_ 3) (at_ 1))

/-- A kept record suppresses a candidate (R246). -/
def suppresses (rho : Nat) (classwise : Bool) (thr : Num) (k q : Cand) : Bool :=
  let at_ := fun (b : List Num) i => b.getD i numZero
  let iw := sideLen rho (minNum (at_ q.box 2) (at_ k.box 2)) (maxNum (at_ q.box 0) (at_ k.box 0))
  let ih := sideLen rho (minNum (at_ q.box 3) (at_ k.box 3)) (maxNum (at_ q.box 1) (at_ k.box 1))
  let inter := mul32 rho iw ih
  let union := add32 rho (add32 rho (boxArea rho q.box) (boxArea rho k.box)) inter.neg
  (!classwise || q.cls.eqv k.cls) && (mul32 rho thr union).lt inter

/-- The kept records in keeping order, newest first, and the candidates suppressed. -/
def nmsKeep (rho kmax : Nat) (classwise : Bool) (thr : Num) : List Cand → List Cand × Nat → List Cand × Nat
  | [], acc => acc
  | q :: qs, (kept, n) =>
    if kmax ≤ kept.length then (kept, n)
    else if kept.any fun k => suppresses rho classwise thr k q then nmsKeep rho kmax classwise thr qs (kept, n + 1)
    else nmsKeep rho kmax classwise thr qs (q :: kept, n)

/-- What NMS does on one engine, before its pc moves on: the next state, or the detail it fails with. -/
def nmsFx (w : W128) (chk : EngCheck) (c : Ctx) (t : State) : State × Option Nat :=
  match checks123 c.r.cmd ⟨.required, .required, .unused, false⟩ w (decide (wmods w ≤ 1) && wzero w 13 15) with
  | some n => (t, some n)
  | none =>
    let d := c.dst w
    let a := c.srcA w
    let thr := num32 (wlong w 9)
    if !(listCard a 8192 && listCard d 1024 && !thr.isNan && !thr.lt numZero && !numOne.lt thr) then (t, some 0x0903)
    else t.ppe c chk fun t =>
      let t0 := t.moved c true (a.footprint 0)
      match tryMap (t.candAt c.cl a) (natRange 0 (a.ext 1)) with
      | .error n => (t0, some n)
      | .ok cs =>
        let live := (cs.filter fun k => !k.index.lt numZero).mergeSort candBefore
        let (kept, n) := nmsKeep c.rho (d.ext 1) (decide (wmods w = 1)) thr live ([], 0)
        (t0.count c.r.die c.g.unit 0x42 n (some c.cl)).doWrites c c.g.unit (listWrites c d kept.reverse)

/-- NMS (R246). -/
def nms (e : Eng) (w : W128) (chk : EngCheck) (s : State) : State :=
  s.instr e w 0x92 (nmsFx w chk)

def execNms (e : Eng) (w : W128) (chk : EngCheck) (s : State) : Host.Outcome State Fault Refusal := .next (nms e w chk s)

end Sys2Proof.Machine
end

