-- ==== Sys2Proof/Machine/Attention.lean ====
section
/-! DEFINITION. The attention engine and the key-value store (R252 to R269): formats, pages and page tables, ATTEND, ATT_PARAM, MERGE
and KV_APPEND. -/

namespace Sys2Proof.Machine

/-! ### The KV format and its pages (R255, R256) -/

/-- A format word's fields (R255). -/
structure KvFmt where
  dc : Nat
  dp : Nat
  int8 : Bool
  sfmt : Nat
  g : Nat
  deriving DecidableEq, Repr

def parseFmt (n : Nat) : KvFmt := ⟨(bits n 0 5 + 1) * 32, bits n 5 4 * 16, bit n 9, bits n 10 2, groupSize (bits n 12 2)⟩

/-- Scales of a token. -/
def KvFmt.scales (f : KvFmt) : Nat := f.dc / f.g

/-- Where the scale and the positional parts begin, and the slot size (R256). -/
def KvFmt.scaleAt (f : KvFmt) : Nat := up256 (16 * f.dc)
def KvFmt.posAt (f : KvFmt) : Nat := up256 (f.scaleAt + 16 * f.scales * scaleSize f.sfmt)
def KvFmt.slot (f : KvFmt) : Nat := up256 (f.posAt + 16 * f.dp * 2)

/-- The rules of R255 and R256. -/
def fmtOk (n : Nat) : Bool :=
  let f := parseFmt n
  decide (n < 0x4000) && decide (bits n 5 4 ≤ 8) && decide (f.sfmt ≠ 0) && decide (bits n 12 2 ≠ 0) && decide (f.dc % f.g = 0) && decide (f.slot ≤ 65536)

/-- The latent type. -/
def KvFmt.typ (f : KvFmt) : Nat := if f.int8 then 3 else 5

/-- A token of a page: latent values, group scales and the positional part. -/
structure KvTok where
  lat : List Num
  scales : List Num
  pos : List Num
  deriving DecidableEq, Repr

/-- Token `j` of a page's bytes (R256). -/
def KvFmt.token (f : KvFmt) (page : List Byte) (j : Nat) : KvTok :=
  let dec := match elemOf f.typ with | some t => t.decode | none => fun _ => numZero
  let w := scaleSize f.sfmt
  { lat := (natRange 0 f.dc).map fun i => dec (emAt page (j * f.dc + i) 1)
    scales := (natRange 0 f.scales).map fun i => scaleValue f.sfmt (emAt page (f.scaleAt + (j * f.scales + i) * w) w)
    pos := (natRange 0 f.dp).map fun i => bf16.decode (emAt page (f.posAt + (j * f.dp + i) * 2) 2) }

/-! ### Arenas, page tables and sequences (R257 to R259) -/

/-- A one-dimensional or two-dimensional byte card without scales. -/
def byteCard (k : Card) (dims : Nat) : Bool := decide (k.typ = 4) && decide (k.scaleType = 0) && decide (k.dims = dims) && !k.ember

/-- An arena card (R257). -/
def arenaOk (f : KvFmt) (k : Card) : Bool :=
  byteCard k 1 && decide (k.cls = 5) && (decide (k.tier = 1) || decide (k.tier = 2)) && decide (k.ext 0 % f.slot = 0)

/-- A page-table card of `n` sequences (R259). -/
def tableOk (k : Card) (n : Nat) : Bool :=
  byteCard k 2 && (decide (k.tier = 1) || decide (k.tier = 2)) && decide (k.ext 0 % 8 = 0) && decide (k.ext 0 ≤ 8 * 65536) && decide (k.ext 1 = n)

/-- A sequence card of `n` sequences (R259). -/
def seqCardOk (k : Card) (n : Nat) : Bool :=
  decide (k.typ = 10) && decide (k.scaleType = 0) && decide (k.dims = 2) && decide (k.ext 0 = 4) && decide (k.ext 1 = n)

/-- The words of a sequence: `len`, `qpos`, `win`. -/
structure SeqWords where
  len : Nat
  qpos : Nat
  win : Nat
  deriving DecidableEq, Repr

/-- The words of sequence `i`, which are not negative (R259). -/
def State.seqWords (s : State) (cl : Nat) (k : Card) (i : Nat) : Except Nat SeqWords :=
  match tryMap (fun (x : Nat) => s.rawElem cl k [Int.ofNat x, Int.ofNat i, 0, 0, 0]) (natRange 0 4) with
  | .error d => .error d
  | .ok v =>
    if v.all (fun x => decide (x < 2147483648)) ∧ v.getD 3 0 = 0 then .ok ⟨v.getD 0 0, v.getD 1 0, v.getD 2 0⟩ else .error 0x0A04

/-- Address of entry `e` of sequence `i` in a page table. -/
def entryAddr (k : Card) (e i : Nat) : Nat := k.rowAddr [0, Int.ofNat i, 0, 0, 0] + 8 * e

/-- An entry of a page table (R258): its slot and `last`, where it is valid; one with a reserved bit set is refused (R10, R283). -/
def State.pageEntry (s : State) (cl : Nat) (k : Card) (e i : Nat) : Except Nat (Option (Nat × Nat)) :=
  if k.ext 0 ≤ 8 * e then .ok none
  else match s.cread64 cl (entryAddr k e i) with
    | .ok n =>
      if 2 ^ 37 ≤ n then .error 0x0A04
      else .ok (if bit n 36 then some (bits n 0 32, bits n 32 4) else none)
    | .error d => .error d

/-! ### One row of attention (R263 to R267) -/

/-- The parameters that ATT_PARAM sets (R263). -/
structure AttPar where
  scale : Num
  dn : Nat
  dv : Nat
  deriving DecidableEq, Repr

def Ctx.attPar (c : Ctx) : AttPar :=
  match c.g.attParam with
  | none => ⟨numOne, 0, 0⟩
  | some w => ⟨num32 (wlong w 9), wbyte w 13 * 16, wbyte w 14 * 16⟩

/-- A running state (R266). -/
structure AttState where
  m : Num
  l : Num
  o : List Num
  deriving DecidableEq, Repr

def AttState.init (dv : Nat) : AttState := ⟨.inf true, numZero, (natRange 0 dv).map fun _ => numZero⟩

/-- What a row sees of a token: its score and its value vector. -/
structure Seen where
  z : Num
  v : List Num
  deriving DecidableEq, Repr

/-- One page's step of R266; a token that the row does not see is `none`, and contributes
nothing; one that it sees contributes p times its value by R167, also where its score is −∞. -/
def attPage (rho : Nat) (toks : List (Option Seen)) (st : AttState) : AttState :=
  let zs := toks.map fun t => match t with | some x => x.z | none => .inf true
  let m1 := zs.foldl maxNum st.m
  let ex := fun x => gateFn 0x0B rho (add32 rho x m1.neg)
  let a := if isMinusInf m1 then numOne else ex st.m
  let ps := zs.map fun z => if isMinusInf z then numZero else ex z
  let term := fun (d j : Nat) => match toks.getD j none with
    | some x => mul32 rho (ps.getD j numZero) (x.v.getD d numZero)
    | none => numZero
  { m := m1
    l := add32 rho (mul32 rho st.l a) (treeSum rho 4 ps)
    o := (natRange 0 st.o.length).map fun d =>
      add32 rho (mul32 rho (st.o.getD d numZero) a) (treeSum rho 4 ((natRange 0 toks.length).map (term d))) }

/-- The normalised output of a state (R266). -/
def AttState.output (rho : Nat) (st : AttState) : List Num :=
  st.o.map fun x => if st.l.isZero then numZero else div32 rho x st.l

/-- A final chunk of scale 1.0 added to a rod (R266). -/
def lastChunk (rho : Nat) (rod : Num) (a b : List Num) : Num :=
  if a.isEmpty then rod else add32 rho rod (mul32 rho (beadFlt rho a b numZero) numOne)

/-- Score and value of a token in absorb mode (R266). -/
def seenAbsorb (rho : Nat) (f : KvFmt) (scale : Num) (q : List Num) (t : KvTok) : Seen :=
  let rod := rodOf rho f.g false none ⟨q.take f.dc, []⟩ ⟨t.lat, t.scales⟩
  { z := mul32 rho scale (lastChunk rho rod (q.drop f.dc) t.pos)
    v := (natRange 0 f.dc).map fun d => mul32 rho (t.lat.getD d numZero) (t.scales.getD (d / f.g) numOne) }

/-- Score and value of a token in expand mode: `cols` are the head's key and value columns (R264, R266). -/
def seenExpand (rho : Nat) (f : KvFmt) (p : AttPar) (g : Nat) (ints : Bool) (cols : List KCol) (q : List Num) (t : KvTok) : Seen :=
  let lat : KCol := ⟨t.lat, (natRange 0 (ceilDiv f.dc g)).map fun m => t.scales.getD (m * g / f.g) numOne⟩
  let kv := cols.map fun k => rodOf rho g ints none lat k
  let rod := rodOf rho 128 false none ⟨q.take p.dn, []⟩ ⟨kv.take p.dn, []⟩
  { z := mul32 rho p.scale (lastChunk rho rod (q.drop p.dn) t.pos), v := kv.drop p.dn }

/-- What ATTEND and ATTEND_RING know of their operands. -/
structure Att where
  f : KvFmt
  d : Card
  q : Card
  up : Option Card
  init : Option Card
  causal : Bool
  partial_ : Bool
  dv : Nat
  deriving DecidableEq, Repr

/-- The shape rules of R264 and R267; `up` is named in expand mode alone. -/
def Att.shapesOk (x : Att) (p : AttPar) (expand : Bool) : Bool :=
  let tail := [x.q.ext 1, x.q.ext 2, x.q.ext 3]
  let state := fun (k : Card) => decide (k.typ = 9) && decide (k.scaleType = 0) && !k.ember && extIs k ((2 + x.dv) :: tail)
  decide (x.q.scaleType = 0) && ([7, 8].contains x.q.typ || (!expand && decide (x.q.typ = 5))) && decide (x.q.ext 4 = 1) &&
  decide (x.q.ext 0 = (if expand then p.dn else x.f.dc) + x.f.dp) &&
  (if x.partial_ then state x.d else extIs x.d (x.dv :: tail) && decide (x.d.typ ≠ 11)) &&
  (match x.init with | some k => state k | none => true) &&
  (match x.up with
   | some k => expand && [3, 5, 7].contains k.typ && !k.ember && (decide (k.scaleType = 0) || decide (k.groupDim = 0)) &&
      extIs k [x.f.dc, x.q.ext 1 * (p.dn + p.dv)]
   | none => !expand)

/-- The up-projection card fits its area (R252, R264). -/
def Att.upFits (x : Att) : Bool :=
  match x.up with
  | some k => decide (tileElemBytes k (k.ext 0) (k.ext 1) + tileScaleBytes k (k.ext 0) (k.ext 1) ≤ 1572864)
  | none => true

/-- The chunk size of expand mode's rebuilding (R169). -/
def Att.g (x : Att) : Nat := match x.up with | some k => min x.f.g k.redGroup | none => x.f.g

/-- Key and value columns of head `h`. -/
def State.headCols (s : State) (cl : Nat) (x : Att) (p : AttPar) (h : Nat) : Except Nat (List KCol) :=
  match x.up with
  | none => .ok []
  | some k => tryMap (fun i => s.kCol cl k x.g [0, Int.ofNat (h * (p.dn + p.dv) + i), 0, 0, 0]) (natRange 0 (p.dn + p.dv))

/-- Score and value of a token for a row. -/
def Att.see (x : Att) (rho : Nat) (p : AttPar) (cols : List KCol) (q : List Num) (t : KvTok) : Seen :=
  match x.up with
  | none => seenAbsorb rho x.f p.scale q t
  | some k => seenExpand rho x.f p x.g (x.f.int8 && isIntType k.typ) cols q t

/-- The state that a row starts from: the input state card's, if one is named (R266, R267). -/
def State.attInit (s : State) (cl : Nat) (x : Att) (i : Ix) : Except Nat AttState :=
  match x.init with
  | none => .ok (AttState.init x.dv)
  | some k =>
    match tryMap (fun (j : Nat) => s.elemVal cl k none (ixSet0 i (Int.ofNat j))) (natRange 0 (2 + x.dv)) with
    | .ok v => .ok ⟨v.getD 0 (.inf true), v.getD 1 numZero, v.drop 2⟩
    | .error d => .error d

/-- The part of a row that the engine stores from column `ixAt i 0` on: all of it, unless dimension 0 itself is split (R158). -/
def Ctx.ownPart (c : Ctx) (d : Card) (i : Ix) (vals : List Num) : List Num := (vals.drop (ixAt i 0).toNat).take (c.rowLen d)

/-- A row's result stored (R266, R267): an output's scale array, if it has one, stays as it is. -/
def Att.store (x : Att) (c : Ctx) (i : Ix) (st : AttState) : Writes :=
  if x.partial_ then x.d.storeRow 1 c.draw i (c.ownPart x.d i (st.m :: st.l :: st.o))
  else x.d.storeRow c.rnd c.draw i (c.ownPart x.d i (st.output c.rho))

/-- The values of a query row. -/
def State.queryRow (s : State) (cl : Nat) (q : Card) (i : Ix) : Except Nat (List Num) :=
  tryMap (fun (j : Nat) => s.elemVal cl q none (ixSet0 i (Int.ofNat j))) (natRange 0 (q.ext 0))

/-- The positions that a query at position `q` sees among those from `lo` (R265). -/
def sees (causal : Bool) (win q t : Nat) : Bool := decide (win ≤ t) && (!causal || decide (t ≤ q))

/-- Page `e` of a sequence for a row: its tokens, none where no token is seen. A needed token that is not present ends the
instruction with 0x0A03 (R259, R265). -/
def State.arenaPage (s : State) (cl : Nat) (x : Att) (arena table : Card) (seq : Nat) (w : SeqWords) (q e : Nat) :
    Except Nat (Option (List (Option KvTok))) :=
  let need := (natRange 0 16).filter fun j => decide (16 * e + j < w.len) && sees x.causal w.win q (16 * e + j)
  if need.isEmpty then .ok none
  else match s.pageEntry cl table e seq with
    | .error d => .error d
    | .ok none => .error 0x0A03
    | .ok (some (slot, last)) =>
      if arena.ext 0 < (slot + 1) * x.f.slot ∨ need.any (fun j => decide (last < j)) then .error 0x0A03
      else match s.cread cl (arena.base + slot * x.f.slot) x.f.slot with
        | .error d => .error d
        | .ok pg => .ok (some ((natRange 0 16).map fun j => if need.contains j then some (x.f.token pg j) else none))

/-- One row of ATTEND: pages in ascending order (R266). -/
def State.attRow (s : State) (c : Ctx) (x : Att) (arena table : Card) (ws : List SeqWords) (i : Ix) : Except Nat Writes :=
  let p := c.attPar
  let seq := (ixAt i 3).toNat
  let w := ws.getD seq ⟨0, 0, 0⟩
  let pos := w.qpos + (ixAt i 2).toNat
  match s.queryRow c.cl x.q i, s.headCols c.cl x p (ixAt i 1).toNat, s.attInit c.cl x i with
  | .error d, _, _ => .error d
  | _, .error d, _ => .error d
  | _, _, .error d => .error d
  | .ok q, .ok cols, .ok st0 =>
    match tryFold (fun st e =>
        match s.arenaPage c.cl x arena table seq w pos e with
        | .error d => .error d
        | .ok none => .ok st
        | .ok (some toks) => .ok (attPage c.rho (toks.map fun t => match t with | some k => some (x.see c.rho p cols q k) | none => none) st))
      st0 (natRange 0 (ceilDiv w.len 16)) with
    | .error d => .error d
    | .ok st => .ok (x.store c i st)

/-- Rows of one tile (R268). -/
def Att.rowsPerTile (x : Att) : Nat := min 128 (393216 / max 1 (x.q.ext 0 * (x.q.bits / 8) + (2 + x.dv) * 4))

/-- Pages of a sequence that a tile of rows visits, and those it skips (R266, R268). -/
def Att.tileVisits (x : Att) (w : SeqWords) (rows : List Ix) : List Nat × Nat :=
  let all := natRange 0 (ceilDiv w.len 16)
  let seen := all.filter fun e => rows.any fun i => (natRange 0 16).any fun j =>
    decide (16 * e + j < w.len) && sees x.causal w.win (w.qpos + (ixAt i 2).toNat) (16 * e + j)
  (seen, all.length - seen.length)

/-- The tiles of a band: rows of one sequence, at most `rowsPerTile` of them. -/
def Att.tiles (x : Att) (rows : List Ix) : List (Nat × List Ix) :=
  (natRange 0 (x.q.ext 3)).flatMap fun q =>
    let mine := rows.filter fun i => decide ((ixAt i 3).toNat = q)
    (blocksOf (max 1 x.rowsPerTile) mine.length mine).map fun t => (q, t)

/-- Whole query or state rows read for the rows of a band. -/
def Card.wholeRows (k : Card) (rows : List Ix) : List (Nat × Nat) := k.rowRanges (k.ext 0) (rows.map fun i => ixSet0 i 0)

/-- What a tile reads of the arena and of the page table, for the pages of sequence `q` that it visits (R258, R266). -/
def State.visitReads (s : State) (cl : Nat) (x : Att) (arena table : Card) (q : Nat) (pages : List Nat) : List (Nat × Nat) :=
  pages.flatMap fun e => (entryAddr table e q, 8) :: match s.pageEntry cl table e q with
    | .ok (some (slot, _)) => [(arena.base + slot * x.f.slot, x.f.slot)]
    | _ => []

/-- What the engine reads beside pages: query rows, the rows of an input state and the up-projection card (R252, R264, R267). -/
def Att.reads (x : Att) (rows : List Ix) : List (Nat × Nat) :=
  x.q.wholeRows rows ++ (match x.init with | some k => k.wholeRows rows | none => []) ++
  (match x.up with | some k => if rows.isEmpty then [] else k.footprint 64 | none => [])

/-- A single-bit error that the SECDED of the ATE's store corrects (R252, R280, R281). -/
def State.ateCorrected (s : State) (c : Ctx) (chk : EngCheck) : State :=
  s.corrected c c.g.unit (s.flag (Fld.ATE_CTRL_ecc_enable c.r.die c.num) && decide (chk = .storeCorrected))

/-- Check of the attention engine (R269, R280). -/
def State.ateCheck (s : State) (c : Ctx) (chk : EngCheck) : Option Nat :=
  unitCheck (s.flag (Fld.ATE_CTRL_check_enable c.r.die c.num)) (s.flag (Fld.ATE_CTRL_ecc_enable c.r.die c.num)) 0x0A01 0x0A02 chk
def State.ateFault (s : State) (c : Ctx) (n : Nat) : State × Option Nat :=
  s.unitFault c (Fld.ATE_STATUS_check_seen c.r.die c.num) (Fld.ATE_STATUS_check_faults c.r.die c.num) (decide (n = 0x0A01)) n

/-- A card that a byte of `imm` names, 0xFF for none (R254): the detail where it lies at or beyond `card_count`. -/
def Ctx.immCard (c : Ctx) (n : Nat) : Except Nat (Option Card) :=
  if n = 0xFF then .ok none else if n < c.r.cmd.cards.length then .ok (some (c.card n)) else .error 0x0404

/-- The cards that several bytes of `imm` name. -/
def Ctx.immCards (c : Ctx) (ns : List Nat) : Except Nat (List (Option Card)) := tryMap c.immCard ns

/-- The operands of ATTEND (R264). -/
def Ctx.attend (c : Ctx) (w : W128) : Except Nat (Att × Card × Card) :=
  match c.immCards [wbyte w 9, wbyte w 10, wbyte w 11, wbyte w 12] with
  | .error d => .error d
  | .ok ks =>
    let expand := bit (wmods w) 0
    let p := c.attPar
    let f := parseFmt (wword w 13)
    let x : Att :=
      { f := f, d := c.dst w, q := c.srcA w, up := ks.getD 3 none, init := ks.getD 2 none, causal := bit (wmods w) 1
        partial_ := bit (wmods w) 2, dv := if expand then p.dv else f.dc }
    match ks.getD 0 none, ks.getD 1 none with
    | some table, some seq =>
      if !fmtOk (wword w 13) ∨ !arenaOk f (c.srcB w) ∨ !tableOk table (x.q.ext 3) ∨ !seqCardOk seq (x.q.ext 3) ∨ !x.shapesOk p expand then
        .error 0x0A04
      else if !x.upFits then .error 0x0A05
      else .ok (x, table, seq)
    | _, _ => .error 0x0A04

def attShape : OpShape := ⟨.required, .required, .required, false⟩

/-- What ATTEND does on one engine, before its pc moves on: the next state, or the detail it fails with. -/
def attendFx (w : W128) (chk : EngCheck) (c : Ctx) (t : State) : State × Option Nat :=
  match checks123 c.r.cmd attShape w (decide (wmods w < 8) && wzero w 15 15) with
  | some d => (t, some d)
  | none => match c.attend w with
    | .error d => (t, some d)
    | .ok (x, table, seq) =>
      let rows := c.bandRows x.d
      match tryMap (t.seqWords c.cl seq) (natRange 0 (x.q.ext 3)) with
      | .error d => (t, some d)
      | .ok ws =>
        let visits := (x.tiles rows).map fun (q, ts) => (q, x.tileVisits (ws.getD q ⟨0, 0, 0⟩) ts)
        let arena := c.srcB w
        let pages := visits.flatMap fun (_, v) => v.1
        let reads := x.reads rows ++ seq.wholeRows ((natRange 0 (x.q.ext 3)).map fun (i : Nat) => [0, Int.ofNat i, 0, 0, 0]) ++
          visits.flatMap fun (q, v) => t.visitReads c.cl x arena table q v.1
        let t1 := ((((t.moved c true reads).count c.r.die c.g.unit 0x40 pages.length (some c.cl)).count c.r.die c.g.unit 0x41
          ((visits.map fun v => v.2.2).foldl (· + ·) 0) (some c.cl))).ateCorrected c chk
        match t1.ateCheck c chk with
        | some n => t1.ateFault c n
        | none => t1.finish c c.g.unit (rowWrites (t.attRow c x arena table ws) rows)

/-- ATTEND (R264 to R269). -/
def attend (e : Eng) (w : W128) (chk : EngCheck) (s : State) : State :=
  s.instr e w 0x70 (attendFx w chk)

def execAttend (e : Eng) (w : W128) (chk : EngCheck) (s : State) : Host.Outcome State Fault Refusal := .next (attend e w chk s)

/-- What ATTPARAM does on one engine, before its pc moves on: the next state, or the detail it fails with. -/
def attParamFx (e : Eng) (w : W128) (_c : Ctx) (t : State) : State × Option Nat :=
  if !(allAbsent w && decide (wmods w = 0) && decide (wbyte w 8 = 0) && wzero w 15 15) then (t, some 0x0402)
  else if 16 < wbyte w 13 ∨ 16 < wbyte w 14 then (t, some 0x0A04)
  else (t.modEng e fun g => { g with attParam := some w }, none)

/-- ATT_PARAM (R263). -/
def attParam (e : Eng) (w : W128) (s : State) : State :=
  s.instr e w 0x71 (attParamFx e w)

def execAttParam (e : Eng) (w : W128) (s : State) : Host.Outcome State Fault Refusal := .next (attParam e w s)

/-- Two states merged (R267). -/
def mergeStates (rho : Nat) (a b : AttState) : AttState :=
  let m := maxNum a.m b.m
  let k := fun (x : Num) => if x.eqv m then numOne else gateFn 0x0B rho (add32 rho x m.neg)
  let ka := k a.m
  let kb := k b.m
  { m := m, l := add32 rho (mul32 rho a.l ka) (mul32 rho b.l kb)
    o := (natRange 0 a.o.length).map fun d => add32 rho (mul32 rho (a.o.getD d numZero) ka) (mul32 rho (b.o.getD d numZero) kb) }

/-- The operands of MERGE (R267): state cards have four extents, and a normalised output any type but VQ code (R264). -/
def mergeOk (part : Bool) (d a b : Card) : Bool :=
  let state := fun (k : Card) => decide (k.typ = 9) && decide (k.scaleType = 0) && !k.ember && decide (k.ext 4 = 1)
  state a && state b && sameExt a b && decide (3 ≤ a.ext 0) && decide (d.typ ≠ 11) &&
  (if part then state d && sameExt d a
   else decide (d.ext 0 = a.ext 0 - 2) && (natRange 1 4).all (fun k => decide (d.ext k = a.ext k)))

/-- What MERGE does on one engine, before its pc moves on: the next state, or the detail it fails with. -/
def mergeFx (w : W128) (chk : EngCheck) (c : Ctx) (t : State) : State × Option Nat :=
  match checks123 c.r.cmd attShape w ((decide (wmods w = 0) || decide (wmods w = 4)) && wzero w 9 15) with
  | some d => (t, some d)
  | none =>
    let d := c.dst w
    let a := c.srcA w
    let b := c.srcB w
    let part := decide (wmods w = 4)
    if !mergeOk part d a b then (t, some 0x0A04)
    else
      let rows := c.bandRows d
      let x : Att := { f := parseFmt 0, d := d, q := a, up := none, init := none, causal := false, partial_ := part, dv := a.ext 0 - 2 }
      let one := fun (i : Ix) => match t.attInit c.cl { x with init := some a } i, t.attInit c.cl { x with init := some b } i with
        | .ok p, .ok q => .ok (x.store c i (mergeStates c.rho p q))
        | .error n, _ => .error n
        | _, .error n => .error n
      let t1 := (t.moved c true (a.wholeRows rows ++ b.wholeRows rows)).ateCorrected c chk
      match t1.ateCheck c chk with
      | some n => t1.ateFault c n
      | none => t1.finish c c.g.unit (rowWrites one rows)

/-- MERGE (R267). -/
def merge (e : Eng) (w : W128) (chk : EngCheck) (s : State) : State :=
  s.instr e w 0x72 (mergeFx w chk)

def execMerge (e : Eng) (w : W128) (chk : EngCheck) (s : State) : Host.Outcome State Fault Refusal := .next (merge e w chk s)

/-! ### KV_APPEND (R260 to R262) -/

/-- What KV_APPEND knows of its operands. -/
structure Append where
  f : KvFmt
  arena : Card
  lat : Card
  pos : Option Card
  table : Card
  free : Card
  pubFirst : Nat
  ws : List SeqWords
  deriving DecidableEq, Repr

/-- Pages of a sequence that an append touches, and the new ones among them, whose first token opens them. -/
def SeqWords.touched (w : SeqWords) : List Nat := if w.qpos = 0 then [] else natRange (w.len / 16) ((w.len + w.qpos - 1) / 16 - w.len / 16 + 1)
def SeqWords.newPages (w : SeqWords) : List Nat := w.touched.filter fun e => decide (w.len ≤ 16 * e)

/-- New pages, or touched pages, of the sequences below `i`. -/
def below (f : SeqWords → List Nat) (ws : List SeqWords) (i : Nat) : Nat := ((ws.take i).map fun w => (f w).length).foldl (· + ·) 0

/-- The slot of page `e` of sequence `i` (R260): from the free-slot card where the page is new, else the table's entry, which must
end just before the first appended token. A free-slot card with fewer entries than new pages fails with 0x0A04, for which R260 has no
failure (DESIGN CHOICE, log 59). -/
def State.appendSlot (s : State) (cl : Nat) (x : Append) (i e : Nat) : Except Nat Nat :=
  let w := x.ws.getD i ⟨0, 0, 0⟩
  let slot := if w.len ≤ 16 * e then
      let k := below SeqWords.newPages x.ws i + (w.newPages.filter fun j => decide (j < e)).length
      if x.free.ext 0 ≤ k then .error 0x0A04 else s.rawElem cl x.free [Int.ofNat k, 0, 0, 0, 0]
    else match s.pageEntry cl x.table e i with
      | .error d => .error d
      | .ok (some (n, last)) => if last + 1 = w.len % 16 then .ok n else .error 0x0A03
      | .ok none => .error 0x0A03
  match slot with
  | .error d => .error d
  | .ok n => if x.arena.ext 0 < (n + 1) * x.f.slot then .error 0x0A03 else .ok n

/-- Values stored byte after byte at arena offset `off`, drawing by the byte offset of each element (R260). -/
def Append.put (x : Append) (c : Ctx) (t : Nat) (off : Nat) (vals : List Num) : Writes :=
  match elemOf t with
  | none => {}
  | some el =>
    let w := typeBits t / 8
    let rs := (natRange 0 vals.length).map fun k => el.store (vals.getD k numZero) c.rnd (c.draw (off + k * w))
    { items := [(x.arena.base + off, rs.flatMap fun r => leBytes r.1 w)], sats := (rs.map fun r => b2n r.2).foldl (· + ·) 0 }

/-- One token appended: `j` of sequence `i`, into a slot. -/
def State.appendTok (s : State) (c : Ctx) (x : Append) (i j slot : Nat) : Except Nat Writes :=
  let row := fun (k : Card) => tryMap (fun (d : Nat) => s.elemVal c.cl k none [Int.ofNat d, Int.ofNat j, Int.ofNat i, 0, 0]) (natRange 0 (k.ext 0))
  let f := x.f
  let p := ((x.ws.getD i ⟨0, 0, 0⟩).len + j) % 16
  let base := slot * f.slot
  match row x.lat, (match x.pos with | some k => row k | none => .ok []) with
  | .error d, _ => .error d
  | _, .error d => .error d
  | .ok lat, .ok pos =>
    let q := requantLimit f.typ
    let gs := (blocksOf f.g lat.length lat).map fun g =>
      let (sc, enc) := requantScale f.sfmt q (listMax (g.map Num.abs))
      (g.map (requantValue f.sfmt c.rho sc), enc)
    let w := scaleSize f.sfmt
    let scales : Writes := { items := [(x.arena.base + base + f.scaleAt + p * f.scales * w, gs.flatMap fun g => leBytes g.2 w)] }
    .ok (((x.put c f.typ (base + p * f.dc) (gs.map (·.1)).flatten).append scales).append
      (if pos.isEmpty then {} else x.put c 7 (base + f.posAt + p * f.dp * 2) pos))

/-- A sequence's tokens and publication entries (R260, R261). -/
def State.appendSeq (s : State) (c : Ctx) (x : Append) (i : Nat) : Except Nat Writes :=
  let w := x.ws.getD i ⟨0, 0, 0⟩
  let pages := w.touched
  let total := below SeqWords.touched x.ws x.ws.length
  let first := x.pubFirst + below SeqWords.touched x.ws i
  match tryMap (s.appendSlot c.cl x i) pages with
  | .error d => .error d
  | .ok slots =>
    let slotOf := fun e => slots.getD (e - w.len / 16) 0
    match tryMap (fun j => s.appendTok c x i j (slotOf ((w.len + j) / 16))) (natRange 0 w.qpos) with
    | .error d => .error d
    | .ok ws =>
      let entry := fun e =>
        let last := min 15 (w.len + w.qpos - 1 - 16 * e)
        leBytes (entryAddr x.table e i) 8 ++ leBytes (slotOf e + 0x100000000 * last + 0x1000000000) 8
      let pubs := (natRange 0 pages.length).map fun k => (c.r.cmd.pubList + 16 * (first + k), entry (pages.getD k 0))
      let lastOne := decide (first + pages.length = x.pubFirst + total) && !pages.isEmpty
      let fill := if lastOne then (natRange (x.pubFirst + total) (c.r.cmd.pubCount - (x.pubFirst + total))).map fun k =>
          (c.r.cmd.pubList + 16 * k, entry (pages.getD (pages.length - 1) 0)) else []
      .ok ((joinWrites ws).append { items := pubs ++ fill })

/-- The operands of KV_APPEND (R260, R261). -/
def State.appendOps (s : State) (c : Ctx) (w : W128) : Except Nat Append :=
  match c.immCards [wbyte w 9, wbyte w 10, wbyte w 11] with
  | .error d => .error d
  | .ok ks =>
    match ks.getD 0 none, ks.getD 1 none, ks.getD 2 none with
    | some table, some seq, some free =>
      let f := parseFmt (wword w 12)
      let a := c.srcA w
      let n := a.ext 2
      let src := fun (k : Card) (d : Nat) => decide (k.dims = 3) && decide (k.ext 0 = d) && decide (k.ext 1 = a.ext 1) && decide (k.ext 2 = n) &&
        [7, 9].contains k.typ && decide (k.scaleType = 0)
      if !fmtOk (wword w 12) ∨ !arenaOk f (c.dst w) ∨ !tableOk table n ∨ !seqCardOk seq n ∨ !src a f.dc ∨
          !(if f.dp = 0 then (wsrcB w).absent else !(wsrcB w).absent && src (c.srcB w) f.dp) ∨
          !(decide (free.typ = 10) && decide (free.dims = 1) && decide (free.scaleType = 0)) then .error 0x0A04
      else match tryMap (s.seqWords c.cl seq) (natRange 0 n) with
        | .error d => .error d
        | .ok ws =>
          let x : Append := { f := f, arena := c.dst w, lat := a, pos := if f.dp = 0 then none else some (c.srcB w), table := table, free := free
                              pubFirst := wbyte w 14, ws := ws }
          if ws.any (fun q => decide (a.ext 1 < q.qpos) || q.touched.any fun e => decide (table.ext 0 ≤ 8 * e)) ∨
              c.r.cmd.pubCount < x.pubFirst + below SeqWords.touched ws n then .error 0x0A04
          else .ok x
    | _, _, _ => .error 0x0A04

/-- What KVAPPEND does on one engine, before its pc moves on: the next state, or the detail it fails with. -/
def kvAppendFx (w : W128) (chk : EngCheck) (c : Ctx) (t : State) : State × Option Nat :=
  match checks123 c.r.cmd ⟨.required, .required, .optional, false⟩ w (decide (wmods w = 0) && wzero w 15 15) with
  | some d => (t, some d)
  | none => match t.appendOps c w with
    | .error d => (t, some d)
    | .ok x =>
      let (lo, hi) := band x.ws.length 1 c.width c.pos
      let seqs := natRange lo (hi - lo)
      let rd := fun (k : Card) => seqs.flatMap fun i => (natRange 0 (x.ws.getD i ⟨0, 0, 0⟩).qpos).map fun (j : Nat) =>
        (k.rowAddr [0, Int.ofNat j, Int.ofNat i, 0, 0], k.rowBytes)
      let seqRow := fun (k : Card) => k.wholeRows ((natRange 0 x.ws.length).map fun (i : Nat) => [0, Int.ofNat i, 0, 0, 0])
      let news := (seqs.map fun i => ((x.ws.getD i ⟨0, 0, 0⟩).newPages).length).foldl (· + ·) 0
      let opened := seqs.flatMap fun i => let q := x.ws.getD i ⟨0, 0, 0⟩
        (q.touched.filter fun e => decide (16 * e < q.len)).map fun e => (entryAddr x.table e i, 8)
      let free := (x.free.base + 4 * below SeqWords.newPages x.ws lo, 4 * news)
      let t1 := (t.moved c true (rd x.lat ++ (match x.pos with | some k => rd k | none => []) ++
        (match c.immCard (wbyte w 10) with | .ok (some k) => seqRow k | _ => []) ++ [free] ++ opened)).ateCorrected c chk
      match t1.ateCheck c chk with
      | some n => t1.ateFault c n
      | none =>
        match tryMap (t.appendSeq c x) seqs with
        | .error d => (t1, some d)
        | .ok ws => t1.doWrites c c.g.unit (joinWrites ws)

/-- KV_APPEND (R260 to R262). -/
def kvAppend (e : Eng) (w : W128) (chk : EngCheck) (s : State) : State :=
  s.instr e w 0x74 (kvAppendFx w chk)

def execKvAppend (e : Eng) (w : W128) (chk : EngCheck) (s : State) : Host.Outcome State Fault Refusal := .next (kvAppend e w chk s)

end Sys2Proof.Machine
end

