-- ==== Sys2Proof/Machine/Relay.lean ====
section
/-! DEFINITION. Ring passes (R270 to R282): pass descriptors and packed blocks, BLK_PACK, BLK_SEND, the block relays of the dies, and
ATTEND_RING with its waits. -/

namespace Sys2Proof.Machine

/-! ### Pass descriptors and packed blocks (R270, R271) -/

structure PassDesc where
  passId : Nat
  parts : Nat
  position : Nat
  slots : Nat
  relayDie : Nat
  blockBytes : Nat
  fmt : Nat
  waitUs : Nat
  landBase : Nat
  homeTable : Nat
  nextPkg : Nat
  nextAddr : Nat
  tokenBase : Nat
  deriving DecidableEq, Repr

def parsePass (b : List Byte) : PassDesc :=
  { passId := emAt b 0 4, parts := emAt b 4 1, position := emAt b 5 1, slots := emAt b 6 1, relayDie := bits (emAt b 7 1) 0 3
    blockBytes := emAt b 8 4, fmt := emAt b 12 2, waitUs := limitOf (emAt b 14 2), landBase := emAt b 16 6, homeTable := emAt b 24 6
    nextPkg := bits (emAt b 32 8) 48 4, nextAddr := bits (emAt b 32 8) 0 48, tokenBase := emAt b 40 4 }

/-- This package's number (R509), and an address of a package as this one reaches it (R51, R270). -/
def State.pkgId (s : State) : Nat := s.fld Fld.HXR_PKG_pkg_id
def State.windowAddr (s : State) (pkg addr : Nat) : Nat := if pkg = s.pkgId then addr else remoteBase + 0x20000000000 * pkg + addr

/-- The package in which an address lies. -/
def State.pkgOf (s : State) (addr : Nat) : Nat := if remoteBase ≤ addr ∧ addr < remoteEnd then (addr - remoteBase) / 0x20000000000 else s.pkgId

/-- The rules of R270 on the bytes of a descriptor: of this package (`here`), whose dies and device memory are known, or of another. -/
def State.passOk (s : State) (here : Bool) (b : List Byte) : Bool :=
  let p := parsePass b
  decide (2 ≤ p.parts) && decide (p.parts ≤ 112) && decide (p.position < p.parts) && decide (2 ≤ p.slots) && decide (p.slots ≤ 8) &&
  decide (emAt b 7 1 < 8) && (if here then s.fitted p.relayDie else decide (p.relayDie < 7)) &&
  decide (p.blockBytes % 256 = 0) && decide (256 ≤ p.blockBytes) && decide (p.blockBytes ≤ 16777216) && decide (emAt b 22 2 = 0) &&
  decide (p.landBase % 256 = 0) && decide (p.landBase + p.slots * p.blockBytes ≤ (if here then s.deviceEnd else 0x4000000000)) &&
  decide (emAt b 30 2 = 0) && decide (emAt b 32 8 < 2 ^ 52) && decide (emAt b 44 20 = 0)

/-- The descriptor at an address, as client `cl` reads it. -/
def State.readPass (s : State) (cl addr : Nat) : Except Nat PassDesc :=
  match s.cread cl addr 64 with
  | .error d => .error d
  | .ok b => if addr % 64 = 0 ∧ s.passOk (decide (s.pkgOf addr = s.pkgId)) b then .ok (parsePass b) else .error 0x0B01

/-- A card that names a pass descriptor in this package's device memory (R270). -/
def State.passCard (s : State) (k : Card) : Bool :=
  byteCard k 1 && decide (k.cls = 4) && decide (k.tier = 2) && decide (k.ext 0 = 64) && decide (k.base + 64 ≤ s.deviceEnd)

/-- The header of a packed block (R271): `good`, its CRC-32C is right; `clean`, its reserved bytes are zero. -/
structure BlkHdr where
  passId : Nat
  origin : Nat
  fmt : Nat
  tokenBase : Nat
  count : Nat
  land : Nat
  hop : Nat
  good : Bool
  clean : Bool
  deriving DecidableEq, Repr

/-- A header's bytes with `land_state` read as zero. -/
def hdrCrc (b : List Byte) : Nat := (crc32c (b.take 16 ++ leBytes 0 8 ++ (b.drop 24).take 228)).toNat

def parseBlk (b : List Byte) : BlkHdr :=
  { passId := emAt b 0 4, origin := emAt b 4 1, fmt := emAt b 6 2, tokenBase := emAt b 8 4, count := emAt b 12 4, land := emAt b 16 1
    hop := emAt b 17 1, good := decide (hdrCrc b = emAt b 252 4)
    clean := decide (emAt b 5 1 = 0) && decide (emAt b 18 6 = 0) && decide (emAt b 24 228 = 0) }

def State.readBlk (s : State) (cl addr : Nat) : Except Nat BlkHdr :=
  match s.cread cl addr 256 with
  | .ok b => .ok (parseBlk b)
  | .error d => .error d

/-- Bytes of a packed block of `count` tokens. -/
def blkBytes (f : KvFmt) (count : Nat) : Nat := 256 + ceilDiv count 16 * f.slot

/-- A package can be reached: it is this one, or one of the ring to which one of the two ways is whole (R278, R279, R509). -/
def State.reaches (s : State) (pkg : Nat) : Bool :=
  decide (pkg = s.pkgId) || (decide (pkg < s.fld Fld.HXR_PKG_ring_size) && (s.wayBy 0 pkg || s.wayBy 1 pkg))

/-! ### BLK_PACK (R271) -/

/-- The detail of the first thing wrong with BLK_PACK's operands, or the descriptor and the page-table card. The block
card is one-dimensional with `scale_type` 0, as the bytes of a block need (DESIGN CHOICE, log 197). -/
def State.packOps (s : State) (c : Ctx) (w : W128) (first count : Nat) : Except Nat (PassDesc × Card) :=
  match c.immCards [wbyte w 9] with
  | .error d => .error d
  | .ok ks =>
    match ks.getD 0 none with
    | none => .error 0x0B01
    | some table =>
      if !s.passCard (c.srcB w) then .error 0x0B01
      else match s.readPass c.cl (c.srcB w).base with
        | .error d => .error d
        | .ok p =>
          let f := parseFmt p.fmt
          if !fmtOk p.fmt ∨ !arenaOk f (c.srcA w) ∨ !tableOk table 1 then .error 0x0A04
          else if !(byteCard (c.dst w) 1 && decide ((c.dst w).cls = 5) && decide (1 ≤ count) && decide (count ≤ 1048576) &&
              decide (blkBytes f count ≤ (c.dst w).ext 0) && decide (blkBytes f count ≤ p.blockBytes) && decide (first + ceilDiv count 16 ≤ 65536)) then .error 0x0B01
          else .ok (p, table)

/-- Page `k` of a packed block (R259, R271). -/
def State.packPage (s : State) (cl : Nat) (f : KvFmt) (arena table : Card) (first count k : Nat) : Except Nat (List Byte) :=
  match s.pageEntry cl table (first + k) 0 with
  | .error d => .error d
  | .ok none => .error 0x0A03
  | .ok (some (slot, last)) =>
    if arena.ext 0 < (slot + 1) * f.slot ∨ last < min 15 (count - 1 - 16 * k) then .error 0x0A03
    else s.cread cl (arena.base + slot * f.slot) f.slot

/-- What BLK_PACK reads of the page table and of the arena. -/
def State.packReads (s : State) (cl : Nat) (f : KvFmt) (arena table : Card) (first n : Nat) : List (Nat × Nat) :=
  (natRange first n).flatMap fun e => (entryAddr table e 0, 8) :: match s.pageEntry cl table e 0 with
    | .ok (some (slot, _)) => [(arena.base + slot * f.slot, f.slot)]
    | _ => []

/-- A packed block's header (R271). -/
def blkHeader (p : PassDesc) (count : Nat) : List Byte :=
  let b := leBytes p.passId 4 ++ leBytes p.position 1 ++ leBytes 0 1 ++ leBytes p.fmt 2 ++ leBytes p.tokenBase 4 ++ leBytes count 4 ++ leBytes 0 236
  b ++ leBytes (hdrCrc b) 4

/-- What BLKPACK does on one engine, before its pc moves on: the next state, or the detail it fails with. -/
def blkPackFx (w : W128) (c : Ctx) (t : State) : State × Option Nat :=
  let first := wword w 10
  let count := wlong w 12 % 16777216
  match checks123 c.r.cmd moverShape2 w (decide (wmods w = 0) && wzero w 15 15) with
  | some d => (t, some d)
  | none =>
    if c.pos ≠ 0 then (t, none)
    else match t.packOps c w first count with
      | .error d => (t, some d)
      | .ok (p, table) =>
        let f := parseFmt p.fmt
        let n := ceilDiv count 16
        match tryMap (t.packPage c.cl f (c.srcA w) table first count) (natRange 0 n) with
        | .error d => (t, some d)
        | .ok pages =>
          let base := (c.dst w).base
          (t.moved c true (t.packReads c.cl f (c.srcA w) table first n ++ [((c.srcB w).base, 64)])).doWrites c c.g.unit
            { items := (base, blkHeader p count) :: (natRange 0 n).map fun k => (base + 256 + k * f.slot, pages.getD k []) }

/-- BLK_PACK (R271): engine 0 alone. -/
def blkPack (e : Eng) (w : W128) (s : State) : State :=
  s.instr e w 0x20 (blkPackFx w)

def execBlkPack (e : Eng) (w : W128) (s : State) : Host.Outcome State Fault Refusal := .next (blkPack e w s)

/-! ### The block relay (R272, R273, R277 to R279, R282) -/

def State.relay (s : State) (d : Nat) : Relay := mapGet s.relays d {}

/-- A relay changed, with `active_blocks` after it (R282). -/
def State.modRelay (s : State) (d : Nat) (f : Relay → Relay) : State :=
  let r := f (s.relay d)
  ({ s with relays := mapSet s.relays d r }).setFld (Fld.MOV_RELAY_STATUS_active_blocks d)
    (min 255 (r.blocks.filter fun (b : RelayBlock) => b.landing || !b.forwarded).length)

/-- An event of a die's relay, which belongs to no command (R272, R479). -/
def State.relayCount (s : State) (d code n : Nat) : State := s.count d 0x040 code n none

/-- Relay traffic of die `d` at an address: charged to the pass's client (R127, R272), and counted as accesses of the die (R327). -/
def State.relayBytes (s : State) (cl d addr n : Nat) (isRead : Bool) : State :=
  (s.acct cl (acBytes + 8 * s.tierAt d addr) n).touch d addr n isRead

/-- The die of a relay of package `pkg`, as offers number it. -/
def State.relayOf (s : State) (pkg die : Nat) : Nat := if pkg = s.pkgId then die else 16 * (pkg + 1) + die

/-- The bytes of a relay's message on a ring port, a header and its slot: left open (log 170). -/
def relayMsgBytes : Sent → List Byte
  | .offer _ o => bytesOf 0 o []
  | .grant _ o => bytesOf 1 o []
  | .decline _ o => bytesOf 2 o []
  | .relayRetry _ o notice epoch => bytesOf 3 o [b2n notice, epoch]
  | .landed _ o => bytesOf 4 o []
  | _ => []
where
  bytesOf (kind : Nat) (o : Offer) (more : List Nat) : List Byte :=
    (natRange 0 80).map (Config.relayByte kind ([o.passId, o.origin, o.hop, o.descAddr, o.srcAddr, o.client, o.sender, o.epoch] ++ more))

/-- A message of a relay towards the relay `d`: over a ring port, in a frame, where `d` lies in another package. What belongs to a hop takes
the path of its offer: by `port` from the sender, and back by the port at which that path comes in (R278, R508). -/
def State.toRelay (s : State) (d port : Nat) (m : Sent) : State :=
  if d < 16 then s.send m else (s.send m).sendToPackage port (d / 16 - 1) (relayMsgBytes m)

/-- The port by which a receiver answers an offer: the offer went out East and came in at the West port, or the other way (R278). -/
def offerBack (o : Offer) : Nat := 1 - o.port

/-- A WRITE of 64 B of a block at an address of another package's memory (R29, R30, R272; log 170). -/
def blockWrite (from_ dest epoch client addr : Nat) (b : List Byte) : List Byte :=
  headerBytes { opcode := 0x02, tag := 0, epoch := epoch, dst := dieUnit (dest % 16), src := dieUnit from_
                addr := (addr - remoteBase) % 0x20000000000, client := client, len := 64, clinker := false, reissued := false } ++
    b.take 64 ++ List.replicate (64 - b.length) 0

/-- The bytes of a packed block, as it is read from its source for hop count `k`: landed in state 2 (R271, R272). -/
def landedBytes (b : List Byte) (k : Nat) : List Byte := b.take 16 ++ leBytes (2 + k * 256) 8 ++ b.drop 24

/-- A block sent from die `from_` by a ring port towards the relay `dest` of another package: WRITEs of 64 B, each with its header, 25 to a frame, with
`land_state` 1 as it goes and 2 as the last (R30, R272, R508). -/
def State.sendBlock (s : State) (from_ dest port client addr : Nat) (b : List Byte) (k : Nat) : State :=
  if dest < 16 then s
  else
    let epoch := s.knownEpoch (dieUnit dest)
    let writing := b.take 16 ++ leBytes (1 + k * 256) 8 ++ b.drop 24
    let ws := (natRange 0 (ceilDiv b.length 64)).map (fun j => blockWrite from_ dest epoch client (addr + 64 * j) (writing.drop (64 * j))) ++
      [blockWrite from_ dest epoch client addr (landedBytes b k)]
    forEach (natRange 0 (ceilDiv ws.length 25)) s fun j t =>
      t.sendToPackage port (dest / 16 - 1) (((ws.drop (25 * j)).take 25).flatMap id)

/-- Two offers are one, whatever epochs they carry and whatever way they take. -/
def sameOffer (a b : Offer) : Bool := decide ({ a with epoch := 0, port := 0 } = { b with epoch := 0, port := 0 })

/-- A block of a relay noted as forwarded. -/
def Relay.noteForwarded (r : Relay) (p : RelayBlock → Bool) : Relay :=
  { r with blocks := r.blocks.map fun b => if p b then { b with forwarded := true } else b }

/-- The block that the relay of die `d` reads for an offer is forwarded, declined as a duplicate, or dropped. -/
def State.letGo (s : State) (d : Nat) (o : Offer) : State :=
  if d < 16 then s.modRelay d fun r => r.noteForwarded fun b =>
    decide (b.addr = o.srcAddr) && decide (b.passId = o.passId) && decide (b.origin = o.origin)
  else s

/-- There is a way from die `d` of this package to a relay (R37, R278, R279). -/
def State.wayTo (s : State) (d pkg die : Nat) : Bool :=
  if pkg = s.pkgId then (s.hops d die).isSome else s.reaches pkg

/-- An offer sent by the relay of die `d` to the participant whose descriptor it names, under the receiving die's epoch as it is
known and on the route chosen now; the block is dropped, and that recorded, where there is no way (R272, R278, R279, R409). A descriptor that cannot be used ends the block's way. -/
def State.sendOffer (s : State) (d : Nat) (o : Offer) : State :=
  let lost := ((s.setFlag (Fld.MOV_RELAY_STATUS_unreachable_seen d) true).letGo d o).logRecorded (unitOf d 0x040) 0 o.client
  let pkg := s.pkgOf o.descAddr
  if !s.reaches pkg then lost
  else match s.readPass o.client o.descAddr with
    | .error _ => s.letGo d o
    | .ok p =>
      let dest := s.relayOf pkg p.relayDie
      if s.wayTo d pkg p.relayDie then
        let out := { o with sender := d, epoch := s.knownEpoch (dieUnit dest), port := s.portTo pkg }
        s.toRelay dest out.port (.offer dest out)
      else lost

/-- What BLKSEND does on one engine, before its pc moves on: the next state, or the detail it fails with. -/
def blkSendFx (w : W128) (c : Ctx) (t : State) : State × Option Nat :=
  match checks123 c.r.cmd ⟨.unused, .required, .required, false⟩ w (decide (wmods w = 0) && wzero w 9 15) with
  | some d => (t, some d)
  | none =>
    if c.pos ≠ 0 then (t, none)
    else if !t.passCard (c.srcB w) ∨ !byteCard (c.srcA w) 1 ∨ (c.srcA w).cls ≠ 5 then (t, some 0x0B01)
    else match t.readPass c.cl (c.srcB w).base with
      | .error d => (t, some d)
      | .ok p =>
        if !t.logicUp p.relayDie then (t, none)
        else (t.sendOffer p.relayDie { passId := p.passId, origin := p.position, hop := 1, descAddr := t.windowAddr p.nextPkg p.nextAddr
                                       srcAddr := (c.srcA w).base, client := c.cl }, none)

/-- BLK_SEND (R272): engine 0 alone. -/
def blkSend (e : Eng) (w : W128) (s : State) : State :=
  s.instr e w 0x21 (blkSendFx w)

def execBlkSend (e : Eng) (w : W128) (s : State) : Host.Outcome State Fault Refusal := .next (blkSend e w s)

/-- Address of a participant's slot for hop count `k` (R272). -/
def State.slotAddr (s : State) (desc : Nat) (p : PassDesc) (k : Nat) : Nat :=
  s.windowAddr (s.pkgOf desc) (p.landBase + k % p.slots * p.blockBytes)

/-- The slot holds a block of the pass with hop count `k` or more. -/
def State.slotHolds (s : State) (cl desc : Nat) (p : PassDesc) (k : Nat) : Bool :=
  match s.readBlk cl (s.slotAddr desc p k) with
  | .ok h => decide (h.passId = p.passId) && (decide (h.land = 1) || decide (h.land = 2)) && decide (k ≤ h.hop)
  | .error _ => false

/-- An offer declined by the relay of die `d`, which its sender is told (R272). -/
def State.declineOffer (s : State) (d : Nat) (o : Offer) : State := (s.relayCount d 0x42 1).toRelay o.sender (offerBack o) (.decline o.sender o)

/-- A request to the dispatcher unit of die `d` is answered with RETRY (R41, R272): its logic is not up, or the epoch is stale. -/
def State.relayStale (s : State) (d epoch : Nat) : Bool :=
  !s.logicUp d || decide (epoch ≠ s.epoch (dieUnit d)) || s.epochPending (dieUnit d)

/-- BLOCK_OFFER (R272, R273, R277): the offer reaches the relay of `die`. One whose pass differs, or whose slot holds its block or a
later one, is declined for good; one whose slot holds a block not yet forwarded is repeated by its sender. -/
def blockOffer (die : Nat) (o : Offer) (s : State) : State :=
  if !s.fitted die then s
  else if s.relayStale die o.epoch then s.toRelay o.sender (offerBack o) (.relayRetry o.sender o false (s.epoch (dieUnit die)))
  else match s.readPass o.client o.descAddr with
    | .error _ => (s.declineOffer die o).letGo o.sender o
    | .ok p =>
      if p.passId ≠ o.passId ∨ s.slotHolds o.client o.descAddr p o.hop then
        ((s.setFlag (Fld.MOV_RELAY_STATUS_declines_seen die) true).declineOffer die o).letGo o.sender o
      else
        let addr := s.slotAddr o.descAddr p o.hop
        let held := (s.relay die).blocks.any fun b => decide (b.addr = addr) && (b.landing || !b.forwarded)
        if held then
          let s1 := s.declineOffer die o
          if o.sender < 16 then s1.modRelay o.sender fun r => { r with repeats := r.repeats ++ [(o, s.tb)] } else s1
        else
          let b : RelayBlock := { desc := o.descAddr, addr := addr, passId := o.passId, origin := o.origin, hop := o.hop, landing := true, forwarded := false }
          (s.modRelay die fun r => { r with blocks := b :: r.blocks.filter fun x => decide (x.addr ≠ addr) }).toRelay o.sender (offerBack o) (.grant o.sender o)

def execBlockOffer (die : Nat) (o : Offer) (s : State) : Host.Outcome State Fault Refusal := .next (blockOffer die o s)

/-- The engine's instruction reads the pass of descriptor `desc`. -/
def ringOn (r : Run) (g : EngRun) (desc : Nat) : Bool :=
  match g.ringWord with
  | some w => decide ((r.cmd.cards.getD (wsrcB w).card {}).base = desc)
  | none => false

/-- The wait of an engine ends: it goes on with ATTEND_RING. -/
def State.resumeRing (s : State) (e : Eng) (r : Run) (g : EngRun) (since : Nat) : State :=
  ((s.countStall r g 0x44 since).setFlag (Fld.ATE_STATUS_waiting e.die (engNumber e.die g)) false).modEng e fun x =>
    { x with stall := .none, resumed := true }

/-- Engines that wait for hop count `k` of a pass go on (R274). -/
def State.wakeLanding (s : State) (desc k : Nat) : State :=
  forEach s.runs s fun r t => forEach (natRange 0 r.engs.length) t fun i u =>
    let g := r.engs.getD i {}
    match g.stall with
    | .landing b _ since => if b = k ∧ ringOn r g desc then u.resumeRing ⟨r.die, r.entry, i⟩ r g since else u
    | _ => u

/-- The receiving relay, on die `d`, passes a landed block on (R272): with hop count P - 1 it ends here. -/
def State.passOn (s : State) (d : Nat) (p : PassDesc) (o : Offer) : State :=
  let a := s.slotAddr o.descAddr p o.hop
  let last := decide (o.hop + 1 = p.parts)
  let b : RelayBlock := { desc := o.descAddr, addr := a, passId := o.passId, origin := o.origin, hop := o.hop, landing := false, forwarded := last }
  let s1 := (s.modRelay d fun r => { r with blocks := b :: r.blocks.filter fun x => decide (x.addr ≠ a) }).relayCount d 0x41 1
  if last then s1
  else s1.sendOffer d { o with hop := o.hop + 1, descAddr := s1.windowAddr p.nextPkg p.nextAddr, srcAddr := a }

/-- An offer of the relay of die `d` has been taken up, or its notice: what was counted of their answers with RETRY is forgotten (R277). -/
def State.endTries (s : State) (d : Nat) (o : Offer) : State :=
  if d < 16 then s.modRelay d fun r => { r with tries := r.tries.filter fun x => !sameOffer x.1 o } else s

/-- The landing notice of the relay of `die`: the receiving relay of this package passes the block on, or answers with RETRY, and the
sender keeps the block until it is taken (R272, R277). -/
def State.sendNotice (s : State) (die : Nat) (p : PassDesc) (o : Offer) : State :=
  let dest := s.relayOf (s.pkgOf o.descAddr) p.relayDie
  let known := s.knownEpoch (dieUnit dest)
  let s1 := s.toRelay dest o.port (.landed dest { o with epoch := known })
  if 16 ≤ dest then s1.letGo die o
  else if s.relayStale dest known then s1.toRelay die (offerBack o) (.relayRetry die o true (s.epoch (dieUnit dest)))
  else ((s1.letGo die o).endTries die o).passOn dest p o

/-- BLOCK_GRANT (R272): the sender's relay, on die `die`, writes the block into the slot; what falls on a page that is not backed is
dropped (R319). A sender in another package reaches the slot through a ring port. -/
def blockGrant (die : Nat) (o : Offer) (s : State) : State :=
  match s.readPass o.client o.descAddr with
  | .error _ => s
  | .ok p =>
    let dest := s.relayOf (s.pkgOf o.descAddr) p.relayDie
    let dst := s.slotAddr o.descAddr p o.hop
    let granted := decide (16 ≤ dest) || (s.relay dest).blocks.any fun b =>
      decide (b.addr = dst) && decide (b.hop = o.hop) && decide (b.passId = o.passId) && b.landing
    if !(granted && (decide (16 ≤ die) || (s.fitted die && s.logicUp die))) then s
    else match s.readBlk o.client o.srcAddr with
      | .error _ => s
      | .ok h =>
        let n := min p.blockBytes (blkBytes (parseFmt h.fmt) h.count)
        match s.cread o.client o.srcAddr n with
        | .error _ => s
        | .ok b =>
          let s1 := (writePieces (fun t x => t.place o.client x) false (cutBytes 64 (n + 1) dst (landedBytes b o.hop)) (s.endTries die o)).1
          let s2 := if 16 ≤ die then s1.relayBytes o.client dest dst n false
            else ((s1.relayBytes o.client die o.srcAddr n true).relayBytes o.client die dst n false).relayCount die 0x40 (2 * n)
          let s3 := (s2.sendBlock die dest o.port o.client dst b o.hop).sendNotice die p o
          if dest < 16 then s3.wakeLanding o.descAddr o.hop else s3

def execBlockGrant (die : Nat) (o : Offer) (s : State) : Host.Outcome State Fault Refusal := .next (blockGrant die o s)

/-- OFFER_REPEAT (R272): an offer of the relay of `die`, declined for a block not yet forwarded, is sent again after 1 µs. What a relay of
another package declined, its answer says. -/
def offerRepeat (die : Nat) (o : Offer) (s : State) : State :=
  if !(s.fitted die && s.logicUp die) then s
  else match (s.relay die).repeats.find? fun x => sameOffer x.1 o with
    | some (_, t) =>
      if s.passedUs t 1 then (s.modRelay die fun r => { r with repeats := r.repeats.filter fun x => !sameOffer x.1 o }).sendOffer die o else s
    | none => if s.pkgOf o.descAddr = s.pkgId then s else s.sendOffer die o

def execOfferRepeat (die : Nat) (o : Offer) (s : State) : Host.Outcome State Fault Refusal := .next (offerRepeat die o s)

/-- The relay of `die` skips a participant (R277): the block is offered to the next one, with the hop count that it expects. -/
def State.skipParticipant (s : State) (die : Nat) (p : PassDesc) (o : Offer) : State :=
  let s1 := s.setFlag (Fld.MOV_RELAY_STATUS_skips_seen die) true
  if o.hop + 1 < p.parts then s1.sendOffer die { o with hop := o.hop + 1, descAddr := s1.windowAddr p.nextPkg p.nextAddr }
  else s1.letGo die o

/-- RELAY_RETRY (R277): RETRY to an offer, or to a landing `notice`, of the relay of `die`; it is sent again under the new epoch up to
four times, 1 µs apart, and then the participant is skipped. -/
def relayRetry (die : Nat) (o : Offer) (notice : Bool) (epoch : Nat) (s : State) : State :=
  if !(s.fitted die && s.logicUp die) then s
  else
    let mine := fun (x : Offer × Bool × Nat × Nat) => sameOffer x.1 o && decide (x.2.1 = notice)
    let old := (s.relay die).tries.find? mine
    let n := match old with | some (_, _, k, _) => k | none => 0
    let early := match old with | some (_, _, _, t) => !s.passedUs t 1 | none => false
    if early then s
    else match s.readPass o.client o.descAddr with
      | .error _ => s
      | .ok p =>
        let s0 := { s with known := mapSet s.known (dieUnit (s.relayOf (s.pkgOf o.descAddr) p.relayDie)) (epoch % 65536) }
        let rest := fun (r : Relay) => r.tries.filter fun x => !mine x
        if n < 4 then
          let s1 := s0.modRelay die fun r => { r with tries := (o, notice, n + 1, s.tb) :: rest r }
          if notice then s1.sendNotice die p o else s1.sendOffer die o
        else (s0.modRelay die fun r => { r with tries := rest r }).skipParticipant die p o

def execRelayRetry (die : Nat) (o : Offer) (notice : Bool) (epoch : Nat) (s : State) : Host.Outcome State Fault Refusal :=
  .next (relayRetry die o notice epoch s)

/-! ### ATTEND_RING (R274 to R276) -/

/-- The address of the home block of an origin, as this package reaches it (R270): 0x0B01 where reserved bytes are not zero. -/
def State.homeAddr (s : State) (cl : Nat) (p : PassDesc) (origin : Nat) : Except Nat Nat :=
  match s.cread cl (p.homeTable + 16 * origin) 16 with
  | .error d => .error d
  | .ok b => if emAt b 6 10 = 0 then .ok (emAt b 0 6) else .error 0x0B01

/-- A home block as the ATE finds it. -/
inductive HomeState where
  | ready (addr : Nat) (h : BlkHdr)
  | notReady
  | unreachable
  deriving DecidableEq, Repr

/-- The home block of hop count `k` (R275, R279). -/
def State.homeState (s : State) (cl : Nat) (p : PassDesc) (k : Nat) : Except Nat HomeState :=
  let origin := (p.position + p.parts - k % p.parts) % p.parts
  match s.homeAddr cl p origin with
  | .error d => .error d
  | .ok a =>
    if !s.reaches (s.pkgOf a) then .ok .unreachable
    else match s.readBlk cl a with
      | .error d => .error d
      | .ok h =>
        if h.passId = p.passId ∧ h.origin = origin ∧ h.good then (if h.fmt = p.fmt ∧ h.clean then .ok (.ready a h) else .error 0x0B01)
        else .ok .notReady

/-- Every home block of a pass, by hop count. -/
def State.homeStates (s : State) (cl : Nat) (p : PassDesc) : Except Nat (List HomeState) := tryMap (s.homeState cl p) (natRange 0 p.parts)

/-- The tokens that a home block counts for the limit of R274: one that is not ready, or cannot be reached, counts none yet (DESIGN CHOICE,
log 198). -/
def HomeState.count : HomeState → Nat
  | .ready _ h => h.count
  | _ => 0

/-- Some row of a band sees some token of a block (R265, R274); a block whose header is not known is taken as seen. -/
def blockSeen (causal : Bool) (top : Nat) (rows : Bool) : HomeState → Bool
  | .ready _ h => rows && decide (0 < h.count) && (!causal || decide (h.tokenBase ≤ top))
  | _ => rows

/-- Where block `k` stands in its slot: landed, landed with a reserved field that is not zero (R10, R283), replaced by a later block of
the pass, or not there (R274). -/
inductive SlotState where
  | landed (addr : Nat)
  | refused
  | replaced
  | absent
  deriving DecidableEq, Repr

def State.slotState (s : State) (cl desc : Nat) (p : PassDesc) (k : Nat) : SlotState :=
  let a := s.slotAddr desc p k
  let origin := (p.position + p.parts - k % p.parts) % p.parts
  match s.readBlk cl a with
  | .error _ => .absent
  | .ok h =>
    if h.land = 2 ∧ h.passId = p.passId ∧ h.origin = origin ∧ h.hop = k then (if h.clean then .landed a else .refused)
    else if h.passId = p.passId ∧ (h.land = 1 ∨ h.land = 2) ∧ k < h.hop then .replaced
    else .absent

/-- What the settling of block sources comes to: all settled, a wait for a landing or for a home block, or a failure; with the hop
counts read from home. -/
inductive RingStep where
  | done (home : List Nat)
  | waitLand (k : Nat) (home : List Nat)
  | waitHome (k : Nat) (home : List Nat)
  | fail (detail : Nat)
  deriving DecidableEq, Repr

/-- Sources settled from hop count to hop count (R274, R275). -/
def State.settleBlocks (s : State) (cl desc : Nat) (p : PassDesc) (causal : Bool) (top : Nat) (rows : Bool) (hs : List HomeState) :
    List Nat → List Nat → RingStep
  | [], home => .done home
  | k :: ks, home =>
    let h := hs.getD k .notReady
    let fromHome := fun (home1 : List Nat) => match h with
      | .ready _ _ => s.settleBlocks cl desc p causal top rows hs ks home1
      | .notReady => .waitHome k home1
      | .unreachable => .fail 0x0A07
    if !blockSeen causal top rows h then s.settleBlocks cl desc p causal top rows hs ks home
    else if k = 0 ∨ home.contains k then fromHome (k :: home.filter fun x => decide (x ≠ k))
    else match s.slotState cl desc p k with
      | .landed _ => s.settleBlocks cl desc p causal top rows hs ks home
      | .refused => .fail 0x0B01
      | .replaced => fromHome (k :: home)
      | .absent => .waitLand k home

/-- Page `e` of a block at `addr` for a row at position `q` (R265, R271, R274). -/
def State.blockPage (s : State) (cl : Nat) (x : Att) (addr : Nat) (h : BlkHdr) (q e : Nat) : Except Nat (Option (List (Option KvTok))) :=
  let need := (natRange 0 16).filter fun j => decide (16 * e + j < h.count) && sees x.causal 0 q (h.tokenBase + 16 * e + j)
  if need.isEmpty then .ok none
  else match s.cread cl (addr + 256 + e * x.f.slot) x.f.slot with
    | .error d => .error d
    | .ok pg => .ok (some ((natRange 0 16).map fun j => if need.contains j then some (x.f.token pg j) else none))

/-- Pages of a block that a tile of rows visits, and how many it skips (R266, R268). -/
def Att.blockVisits (x : Att) (h : BlkHdr) (qpos : Nat) (rows : List Ix) : List Nat × Nat :=
  let all := natRange 0 (ceilDiv h.count 16)
  let seen := all.filter fun e => rows.any fun i => (natRange 0 16).any fun j =>
    decide (16 * e + j < h.count) && sees x.causal 0 (qpos + (ixAt i 2).toNat) (h.tokenBase + 16 * e + j)
  (seen, all.length - seen.length)

/-- What each tile of a band reads of each block, and the pages that it skips (R268, R274). -/
def Att.ringVisits (x : Att) (qpos : Nat) (rows : List Ix) (srcs : List (Nat × BlkHdr)) : List (Nat × Nat) × Nat :=
  let vs := (blocksOf (max 1 x.rowsPerTile) rows.length rows).flatMap fun ts => srcs.map fun (a, h) => (a, x.blockVisits h qpos ts)
  (vs.flatMap fun (a, v) => v.1.map fun e => (a + 256 + e * x.f.slot, x.f.slot), (vs.map fun (_, v) => v.2).foldl (· + ·) 0)

/-- One row over the blocks in their order (R266, R274). -/
def State.ringRow (s : State) (c : Ctx) (x : Att) (qpos : Nat) (srcs : List (Nat × BlkHdr)) (i : Ix) : Except Nat Writes :=
  let p := c.attPar
  let pos := qpos + (ixAt i 2).toNat
  match s.queryRow c.cl x.q i, s.headCols c.cl x p (ixAt i 1).toNat, s.attInit c.cl x i with
  | .error d, _, _ => .error d
  | _, .error d, _ => .error d
  | _, _, .error d => .error d
  | .ok q, .ok cols, .ok st0 =>
    match tryFold (fun st (src : Nat × BlkHdr) => tryFold (fun st e =>
        match s.blockPage c.cl x src.1 src.2 pos e with
        | .error d => .error d
        | .ok none => .ok st
        | .ok (some toks) => .ok (attPage c.rho (toks.map fun t => match t with | some k => some (x.see c.rho p cols q k) | none => none) st))
        st (natRange 0 (ceilDiv src.2.count 16))) st0 srcs with
    | .error d => .error d
    | .ok st => .ok (x.store c i st)

/-- The operands of ATTEND_RING (R264, R270, R274). -/
def State.ringOps (s : State) (c : Ctx) (w : W128) : Except Nat (Att × PassDesc) :=
  match c.immCards [wbyte w 13, wbyte w 14] with
  | .error d => .error d
  | .ok ks =>
    if !s.passCard (c.srcB w) then .error 0x0B01
    else match s.readPass c.cl (c.srcB w).base with
      | .error d => .error d
      | .ok p =>
        let expand := bit (wmods w) 0
        let f := parseFmt p.fmt
        let x : Att :=
          { f := f, d := c.dst w, q := c.srcA w, up := ks.getD 1 none, init := ks.getD 0 none, causal := bit (wmods w) 1
            partial_ := bit (wmods w) 2, dv := if expand then c.attPar.dv else f.dc }
        if !fmtOk p.fmt ∨ x.q.ext 3 ≠ 1 ∨ !x.shapesOk c.attPar expand then .error 0x0A04
        else if !x.upFits then .error 0x0A05
        else .ok (x, p)

/-- The engine waits: its progress is kept, and `waiting` is set (R276, R281). -/
def State.waitRing (s : State) (e : Eng) (c : Ctx) (w : W128) (st : Stall) (home : List Nat) : State :=
  (s.modEng e fun g => { g with stall := st, ringWord := some w, homeBlocks := home }).setFlag (Fld.ATE_STATUS_waiting c.r.die c.num) true

/-- The sources of every block that is seen, in order: address and header, with whether it is a slot's. -/
def State.ringSources (s : State) (cl desc : Nat) (p : PassDesc) (causal : Bool) (top : Nat) (rows : Bool) (hs : List HomeState) (home : List Nat) :
    List (Nat × BlkHdr × Bool) :=
  (natRange 0 p.parts).flatMap fun k =>
    let h := hs.getD k .notReady
    if !blockSeen causal top rows h then []
    else
      let atHome := match h with | .ready a b => [(a, b, false)] | _ => []
      if home.contains k then atHome
      else match s.slotState cl desc p k with
        | .landed a => match s.readBlk cl a with | .ok b => [(a, b, true)] | .error _ => atHome
        | _ => atHome

/-- What ATTENDRING does on one engine, before its pc moves on: the next state, or the detail it fails with. -/
def attendRingFx (e : Eng) (w : W128) (chk : EngCheck) (c : Ctx) (t : State) : State × Option Nat :=
  match checks123 c.r.cmd attShape w (decide (wmods w < 8) && wzero w 15 15) with
  | some d => (t, some d)
  | none => match t.ringOps c w with
    | .error d => (t, some d)
    | .ok (x, p) =>
      let desc := (c.srcB w).base
      match t.homeStates c.cl p with
      | .error d => (t, some d)
      | .ok hs =>
        if 16777216 < (hs.map HomeState.count).foldl (· + ·) 0 then (t, some 0x0A04)
        else
          let rows := c.bandRows x.d
          let qpos := wlong w 9
          let top := qpos + (rows.map fun i => (ixAt i 2).toNat).foldl max 0
          let some_ := !rows.isEmpty
          match t.settleBlocks c.cl desc p x.causal top some_ hs (natRange 0 p.parts) c.g.homeBlocks with
          | .fail d => (t, some d)
          | .waitLand k home => (t.waitRing e c w (.landing k p.waitUs t.tb) home, none)
          | .waitHome k home => (t.waitRing e c w (.home k p.waitUs t.tb t.tb) home, none)
          | .done home =>
            let srcs := t.ringSources c.cl desc p x.causal top some_ hs home
            let u := c.g.unit
            let (pages, skipped) := x.ringVisits qpos rows (srcs.map fun q => (q.1, q.2.1))
            let reads := x.reads rows ++ [(desc, 64), (p.homeTable, 16 * p.parts)] ++ (srcs.map fun q => (q.1, 256)) ++ pages
            let t1 := (((((t.moved c true reads).count c.r.die u 0x40 pages.length (some c.cl)).count c.r.die u 0x41 skipped (some c.cl)).count
              c.r.die u 0x42 (srcs.filter fun q => q.2.2).length (some c.cl)).count c.r.die u 0x43 (srcs.filter fun q => !q.2.2).length
              (some c.cl)).ateCorrected c chk
            match t1.ateCheck c chk with
            | some n => t1.ateFault c n
            | none => t1.finish c u (rowWrites (t.ringRow c x qpos (srcs.map fun q => (q.1, q.2.1))) rows)

/-- ATTEND_RING (R274 to R276). -/
def attendRing (e : Eng) (w : W128) (chk : EngCheck) (s : State) : State :=
  s.instr e w 0x73 (attendRingFx e w chk)

def execAttendRing (e : Eng) (w : W128) (chk : EngCheck) (s : State) : Host.Outcome State Fault Refusal := .next (attendRing e w chk s)

/-- LAND_WAIT_TIMEOUT (R274): the block is read from home. -/
def landWaitTimeout (e : Eng) (s : State) : State :=
  match s.engOf e with
  | none => s
  | some (r, g) =>
    match g.stall with
    | .landing k limit since =>
      if s.passedUs since limit then (s.resumeRing e r g since).modEng e fun x => { x with homeBlocks := k :: x.homeBlocks } else s
    | _ => s

def execLandWaitTimeout (e : Eng) (s : State) : Host.Outcome State Fault Refusal := .next (landWaitTimeout e s)

/-- HOME_BLOCK_RECHECK (R275): every 10 µs the header is read again. -/
def homeBlockRecheck (e : Eng) (s : State) : State :=
  match s.engOf e with
  | none => s
  | some (r, g) =>
    match g.stall, g.ringWord with
    | .home k limit since last, some w =>
      if !s.passedUs last 10 then s
      else
        let fail := fun (d : Nat) => (s.setFlag (Fld.ATE_STATUS_waiting e.die (engNumber e.die g)) false).failEng e d
        match s.readPass r.client (r.cmd.cards.getD (wsrcB w).card {}).base with
        | .error d => fail d
        | .ok p => match s.homeState r.client p k with
          | .error d => fail d
          | .ok .unreachable => fail 0x0A07
          | .ok (.ready _ _) => s.resumeRing e r g since
          | .ok .notReady =>
            if s.passedUs since limit then fail 0x0A06
            else s.modEng e fun x => { x with stall := .home k limit since s.tb }
    | _, _ => s

def execHomeBlockRecheck (e : Eng) (s : State) : Host.Outcome State Fault Refusal := .next (homeBlockRecheck e s)

end Sys2Proof.Machine
end

