-- ==== Sys2Proof/Machine/Codec.lean ====
section
/-! DEFINITION. The codec engines (R298 to R305): EMB_DECODE, EMB_ENCODE and EMB_REWRAP. -/

namespace Sys2Proof.Machine

/-- The end of a codec instruction that failed: a CRC mismatch shows in the engine's status and its counters (R293, R304, R479). -/
def State.codecFail (s : State) (c : Ctx) (d : Nat) : State × Option Nat :=
  if d = 0x0C01 then
    ((s.setFlag (Fld.CDC_STATUS_crc_seen c.r.die c.num) true).count c.r.die c.g.unit 0x42 1 (some c.cl), some d)
  else (s, some d)

/-- The codec engine's comparison (R303), and the work if it passes. -/
def State.codecRun (s : State) (c : Ctx) (chk : EngCheck) (f : State → State × Option Nat) : State × Option Nat :=
  match unitCheck (s.flag (Fld.CDC_CTRL_check_enable c.r.die c.num)) false 0x0C07 0x0C07 chk with
  | some n => s.unitFault c (Fld.CDC_STATUS_check_seen c.r.die c.num) (Fld.CDC_STATUS_check_faults c.r.die c.num) true n
  | none => f s

/-- Places of the blocks of a column that hold its elements [lo, hi). -/
def Ember.blocksIn (em : Ember) (lo hi : Nat) : List Nat :=
  let per := em.h.v * em.h.vpb
  natRange (lo / per) (ceilDiv hi per - lo / per)

/-- Blocks with an element of an engine's band of a decoded shape `d`, whose rows are `rows`. -/
def Ember.bandBlocks (em : Ember) (c : Ctx) (d : Card) (rows : List Ix) : List Nat :=
  rows.flatMap fun i =>
    let x := (ixAt i 0).toNat
    (em.blocksIn x (x + c.rowLen d)).map fun kb => em.blockNo kb (ixAt i 1).toNat (ixAt i 2).toNat

/-- Places of the blocks of a column that an engine writes: whole blocks, all of a column in its band. Where the one column of a card of
one dimension is split over bands, a block is written by the engine whose band holds its first element (DESIGN CHOICE, log 29). -/
def Ember.ownBlocks (em : Ember) (c : Ctx) (d : Card) (i : Ix) : List Nat :=
  let per := em.h.v * em.h.vpb
  let x := (ixAt i 0).toNat
  (natRange 0 em.h.bpc).filter fun kb => decide (x ≤ kb * per) && decide (kb * per < x + c.rowLen d)

/-- Bytes of blocks. -/
def Ember.blockRanges (em : Ember) (qs : List Nat) : List (Nat × Nat) := qs.map fun q => (em.blockAddr q, em.h.stride)

/-! ### EMB_DECODE (R299) -/

/-- `dst` takes the lossless form, or the scaled form. -/
def lossless (d : Card) (em : Ember) : Bool :=
  decide (d.typ = em.h.expanded) && decide (d.scaleType = em.card.scaleType) && decide (d.group = em.card.group) && decide (d.groupDim = 0)
def scaledForm (d : Card) : Bool := [7, 8, 9].contains d.typ && decide (d.scaleType = 0)

/-- The `cnt` elements of a column from `i` on decoded (R299), each scale with the element that begins its group. -/
def EmRead.decodeCol (r : EmRead) (c : Ctx) (d : Card) (cnt : Nat) (i : Ix) : Writes :=
  let run := natRange (ixAt i 0).toNat cnt
  let n := (ixAt i 1).toNat
  let b := (ixAt i 2).toNat
  let vals := r.column n b
  let encs := r.colScales n b
  if lossless d r.em then
    let w := scaleSize d.scaleType
    let own := if encs.isEmpty then [] else d.scaleStarts i cnt
    (d.storeRow 1 c.draw i (run.map fun k => vals.getD k numZero)).append { items := own.map fun j =>
      (d.scaleBase + d.scaleIndex j * w, leBytes (encs.getD ((ixAt j 0).toNat / groupSize d.group) 0) w) }
  else
    let scs := (natRange 0 (ceilDiv vals.length r.em.card.redGroup)).map (r.scaleOf encs)
    d.storeRow c.rnd c.draw i (run.map fun k => mul32 c.rho (vals.getD k numZero) (scs.getD (k / r.em.card.redGroup) numOne))

/-- What EMBDECODE does on one engine, before its pc moves on: the next state, or the detail it fails with. -/
def embDecodeFx (w : W128) (chk : EngCheck) (c : Ctx) (t : State) : State × Option Nat :=
  match checks123 c.r.cmd moverShape1 w (decide (wmods w = 0) && wzero w 9 15) with
  | some d => (t, some d)
  | none =>
    let d := c.dst w
    let a := c.srcA w
    if !(a.emberOk && !d.ember && sameExt d a) then (t, some 0x0C06)
    else match t.openEmber c.cl a with
      | .error n => t.codecFail c n
      | .ok em =>
        if !(lossless d em || scaledForm d) then (t, some 0x0C06)
        else t.codecRun c chk fun t =>
          let rows := c.bandRows d
          match t.emRead c.cl em false [] (em.bandBlocks c d rows) with
          | .error n => t.codecFail c n
          | .ok r =>
            let qs := em.bandBlocks c d rows
            let t1 := (t.moved c true (em.blockRanges qs)).count c.r.die c.g.unit 0x40 qs.length (some c.cl)
            t1.doWrites c c.g.unit (joinWrites (rows.map (r.decodeCol c d (c.rowLen d))))

/-- EMB_DECODE (R299). -/
def embDecode (e : Eng) (w : W128) (chk : EngCheck) (s : State) : State :=
  s.instr e w 0x98 (embDecodeFx w chk)

def execEmbDecode (e : Eng) (w : W128) (chk : EngCheck) (s : State) : Host.Outcome State Fault Refusal := .next (embDecode e w chk s)

/-! ### EMB_ENCODE (R300) -/

/-- A codebook set read for writing a stream: etype, v, cbset_id and its codebooks with their elements' bytes. -/
structure EmSet where
  etype : Nat
  v : Nat
  id : Nat
  books : List EmBook
  deriving DecidableEq, Repr

/-- A codebook set opened by itself (R289, R290, R293). -/
def State.openSet (s : State) (cl base : Nat) : Except Nat EmSet :=
  match s.cread cl base 64 with
  | .error d => .error d
  | .ok b =>
    let v := emAt b 10 1
    let h : EmHdr := { compat := false, two := false, etype := emAt b 9 1, v := 2 ^ v, b0 := 4, b1 := 0, vpb := 1, units := 1, bpc := 1, setId := 0, nonce := 0 }
    if !crcOk b then .error 0x0C01
    else if !(emSetOk { scaleBase := base } h b && [0, 1, 3, 5].contains h.etype && (decide (v = 2) || decide (v = 3))) then .error 0x0C04
    else
      let n := emAt b 8 1
      match s.cread cl (base + 64) (8 * n) with
      | .error d => .error d
      | .ok tb =>
        let es := (natRange 0 n).map fun i => emAt tb (8 * i) 8
        if !(decide (64 + 8 * n ≤ emAt b 12 4) && es.all (bookOk h (emAt b 12 4))) then .error 0x0C04
        else .ok { etype := h.etype, v := h.v, id := emAt b 4 4, books := es.map parseBook }

/-- The map card's pairs of codebooks, one per column group and b (R300). -/
def State.cbMap (s : State) (cl : Nat) (k : Card) : Except Nat (List (Nat × Nat)) :=
  tryMap (fun (j : Nat) =>
    let ix := fun (x : Nat) => ([Int.ofNat x, Int.ofNat (j % k.ext 1), Int.ofNat (j / k.ext 1), 0, 0] : Ix)
    match s.rawElem cl k (ix 0), s.rawElem cl k (ix 1) with
    | .ok a, .ok b => .ok (a, b)
    | .error d, _ => .error d
    | _, .error d => .error d) (natRange 0 (k.ext 1 * k.ext 2))

/-- The header of the stream to be written: its code widths and stages follow from the codebooks that the map names. -/
def encodeHdr (d : Card) (st : EmSet) (pairs : List (Nat × Nat)) (vpb : Nat) : Option EmHdr :=
  let book := fun i => st.books.getD i ⟨0, 0, 2⟩
  let p0 := pairs.headD (255, 255)
  let two := decide ((book p0.2).stage = 1)
  let b0 := (book p0.1).width
  let b1 := if two then (book p0.2).width else 0
  let h0 : EmHdr := { compat := false, two := two, etype := st.etype, v := st.v, b0 := b0, b1 := b1, vpb := vpb, units := 1
                      bpc := blocksPerCol d st.v (max 1 vpb), setId := st.id, nonce := 0 }
  let em : Ember := ⟨d, h0, st.books⟩
  let units := ceilDiv (em.codesAt vpb + ceilDiv (vpb * h0.codeBits) 8 + 4) 64
  let ok := pairs.all (fun p => decide ((book p.1).stage = 0) && decide ((book p.1).width = b0) &&
      (if two then decide ((book p.2).stage = 1) && decide ((book p.2).width = b1) else decide (p.2 = 0))) &&
    decide (1 ≤ vpb) && decide (vpb ≤ 8192) && decide (units ≤ 64) && (decide (d.scaleType = 0) || decide (st.v * vpb % groupSize d.group = 0))
  if ok then some { h0 with units := units } else none

/-- The 64 bytes of a stream header (R285). -/
def EmHdr.bytes (h : EmHdr) (d : Card) : List Byte :=
  let b := leBytes 0x31524D45 4 ++ leBytes 1 1 ++ leBytes (b2n h.compat + 2 * b2n h.two) 1 ++ leBytes h.etype 1 ++
    leBytes (if h.v = 8 then 3 else 2) 1 ++ leBytes h.b0 1 ++ leBytes h.b1 1 ++ leBytes h.vpb 2 ++ leBytes h.units 1 ++ leBytes 0 3 ++
    leBytes (d.ext 0) 4 ++ leBytes (d.ext 1) 4 ++ leBytes (d.ext 2) 4 ++ leBytes h.bpc 4 ++ leBytes h.setId 4 ++
    leBytes (if h.compat then h.nonce else 0) 4 ++ leBytes 0 20
  b ++ leBytes (crc32c b).toNat 4

/-- Bytes followed by their CRC-32C. -/
def withCrc (b : List Byte) : List Byte := b ++ leBytes (crc32c b).toNat 4

/-- The squared distance of two vectors, in FP32 under nearest-even (R300). -/
def vecDist : List Num → List Num → Num → Num
  | y :: ys, c :: cs, acc => let d := add32 1 y c.neg; vecDist ys cs (add32 1 acc (mul32 1 d d))
  | _, _, acc => acc

/-- The nearest entry of a codebook to a vector, ties to the lowest: entry and distance of the best so far. -/
def nearest (y : List Num) : List (List Num) → Nat → Nat × Num → Nat × Num
  | [], _, best => best
  | c :: cs, i, best => let d := vecDist y c numZero; nearest y cs (i + 1) (if d.lt best.2 then (i, d) else best)

/-- The entries of a codebook as vectors. -/
def EmHdr.entries (h : EmHdr) (width : Nat) (book : List Byte) : List (List Num) :=
  (natRange 0 (2 ^ width)).map fun i => (natRange 0 h.v).map fun t => h.entry book i t

/-- The code of a vector: stage 0, and stage 1 above it. -/
def EmHdr.code (h : EmHdr) (cb0 cb1 : List (List Num)) (y : List Num) : Nat :=
  let best := fun (cb : List (List Num)) (v : List Num) => (nearest v (cb.drop 1) 1 (0, vecDist v (cb.headD []) numZero)).1
  let i := best cb0 y
  if h.two then
    let c := cb0.getD i []
    let r := (natRange 0 h.v).map fun t => add32 1 (y.getD t numZero) (c.getD t numZero).neg
    2 ^ h.b0 * best cb1 r + i
  else i

/-- Numbers of `w` bits packed from bit 0 upward. -/
def packBits (w : Nat) : List Nat → Nat
  | [] => 0
  | x :: xs => 2 ^ w * packBits w xs + x % 2 ^ w

/-- Block `kb` of column (n, b), from the column's values (R287, R300). -/
def Ember.encodeBlock (em : Ember) (rho : Nat) (qmax : Num) (pair : Nat × Nat) (cb0 cb1 : List (List Num)) (kb n b : Nat) (col : List Num) : List Byte :=
  let h := em.h
  let cnt := em.vecCount kb
  let from_ := kb * h.vpb * h.v
  let xs := (col.drop from_).take (cnt * h.v)
  let st := em.card.scaleType
  let gs := (blocksOf em.card.redGroup xs.length xs).map fun g =>
    if st = 0 then (g, 0)
    else let (sc, enc) := requantScale st qmax (listMax (g.map Num.abs)); (g.map (requantValue st rho sc), enc)
  let ys := (gs.map (·.1)).flatten
  let codes := (natRange 0 cnt).map fun j => h.code cb0 cb1 ((natRange 0 h.v).map fun t => ys.getD (j * h.v + t) numZero)
  let w := scaleSize st
  let scales := if st = 0 then [] else gs.flatMap fun g => leBytes g.2 w
  let body := leBytes (em.blockNo kb n b) 4 ++ leBytes pair.1 1 ++ leBytes (if h.two then pair.2 else 0) 1 ++ leBytes cnt 2 ++ leBytes 0 8 ++ scales
  let body1 := body ++ leBytes 0 (em.codesAt cnt - body.length) ++ leBytes (packBits h.codeBits codes) (ceilDiv (cnt * h.codeBits) 8)
  withCrc (body1 ++ leBytes 0 (h.stride - 4 - body1.length))

/-- The codebook pair of a column (R300). -/
def pairOf (k : Card) (pairs : List (Nat × Nat)) (n b : Nat) : Nat × Nat := pairs.getD (b * k.ext 1 + n / 128) (0, 0)

/-- One column encoded: its blocks. -/
def State.encodeCol (s : State) (c : Ctx) (em : Ember) (src map : Card) (pairs : List (Nat × Nat)) (qmax : Num) (i : Ix) : Except Nat Writes :=
  let n := (ixAt i 1).toNat
  let b := (ixAt i 2).toNat
  let p := pairOf map pairs n b
  match tryMap (fun (k : Nat) => s.elemVal c.cl src none (ixSet0 i (Int.ofNat k))) (natRange 0 (src.ext 0)),
      s.emBook c.cl em p.1, (if em.h.two then s.emBook c.cl em p.2 else .ok []) with
  | .error d, _, _ => .error d
  | _, .error d, _ => .error d
  | _, _, .error d => .error d
  | .ok col, .ok k0, .ok k1 =>
    let cb0 := em.h.entries em.h.b0 k0
    let cb1 := if em.h.two then em.h.entries em.h.b1 k1 else []
    .ok { items := (em.ownBlocks c em.card i).map fun kb => (em.blockAddr (em.blockNo kb n b), em.encodeBlock c.rho qmax p cb0 cb1 kb n b col) }

/-- The stream card has room for its stream (R285, R286). -/
def streamRoom (d : Card) (h : EmHdr) : Bool :=
  decide (d.base % 64 = 0) && decide (64 + d.ext 1 * d.ext 2 * h.bpc * h.stride ≤ d.streamLen)

/-- What EMBENCODE does on one engine, before its pc moves on: the next state, or the detail it fails with. -/
def embEncodeFx (w : W128) (chk : EngCheck) (c : Ctx) (t : State) : State × Option Nat :=
  match checks123 c.r.cmd moverShape2 w (decide (wmods w = 0)) with
  | some d => (t, some d)
  | none => match c.immCards [wbyte w 9] with
    | .error n => (t, some n)
    | .ok ks =>
      let d := c.dst w
      let a := c.srcA w
      let k := c.srcB w
      let qmax := num32 (wlong w 12)
      let map := match ks.getD 0 none with | some m => m | none => {}
      let mapOk := (ks.getD 0 none).isSome && decide (map.typ = 4) && !map.ember &&
        extIs map [2, ceilDiv (d.ext 1) 128, d.ext 2]
      let qOk := match qmax with | .fin neg m _ => !neg && decide (m ≠ 0) | _ => false
      if !(d.emberOk && !a.ember && sameExt d a && [7, 8, 9].contains a.typ && decide (a.scaleType = 0) && decide (k.typ = 4) &&
          decide (k.base = d.scaleBase) && mapOk && qOk) then (t, some 0x0C06)
      else match t.openSet c.cl d.scaleBase, t.cbMap c.cl map with
        | .error n, _ => t.codecFail c n
        | _, .error n => t.codecFail c n
        | .ok st, .ok pairs =>
          match encodeHdr d st pairs (wword w 10) with
          | none => (t, some 0x0C06)
          | some h =>
            if !streamRoom d h then (t, some 0x0C02)
            else t.codecRun c chk fun t =>
              let em : Ember := ⟨d, h, st.books⟩
              let rows := c.bandRows d
              match rowWrites (t.encodeCol c em a map pairs qmax) rows with
              | .error n => t.codecFail c n
              | .ok ws =>
                let hdr : Writes := if c.pos = 0 then { items := [(d.base, h.bytes d)] } else {}
                let t1 := (t.moved c true (a.rowRanges (c.rowLen d) rows)).count c.r.die c.g.unit 0x41 ws.items.length (some c.cl)
                t1.doWrites c c.g.unit (hdr.append ws)

/-- EMB_ENCODE (R300). -/
def embEncode (e : Eng) (w : W128) (chk : EngCheck) (s : State) : State :=
  s.instr e w 0x99 (embEncodeFx w chk)

def execEmbEncode (e : Eng) (w : W128) (chk : EngCheck) (s : State) : Host.Outcome State Fault Refusal := .next (embEncode e w chk s)

/-! ### EMB_REWRAP (R301) -/

/-- A block as it stands in one mode put into another (R292, R301): its payload crypted, its CRC recomputed. -/
def Ember.rewrap (em : Ember) (key nonce q : Nat) (b : List Byte) : List Byte :=
  withCrc (b.take 16 ++ ctrCrypt key nonce q ((b.drop 16).take (em.h.stride - 20)))

/-- What EMBREWRAP does on one engine, before its pc moves on: the next state, or the detail it fails with. -/
def embRewrapFx (w : W128) (chk : EngCheck) (c : Ctx) (t : State) : State × Option Nat :=
  let toCompat := decide (wmods w = 1)
  match checks123 c.r.cmd moverShape1 w (decide (wmods w ≤ 1) && decide (wrnd w = 0) && wzero w 9 11 && (toCompat || decide (wlong w 12 = 0))) with
  | some d => (t, some d)
  | none =>
    let d := c.dst w
    let a := c.srcA w
    if !(d.emberOk && a.emberOk && sameExt d a && decide (d.scaleBase = a.scaleBase) && decide (d.scaleType = a.scaleType) && decide (d.group = a.group)) then
      (t, some 0x0C06)
    else match t.openEmber c.cl a with
      | .error n => t.codecFail c n
      | .ok em =>
        if !streamRoom d em.h then (t, some 0x0C02)
        else
          let same := em.h.compat == toCompat
          let rows := c.bandRows d
          let qs := rows.flatMap fun i => (em.ownBlocks c d i).map fun kb => em.blockNo kb (ixAt i 1).toNat (ixAt i 2).toNat
          match tryMap (fun q => match t.emRaw c.cl em q with | .ok b => .ok (q, b) | .error n => .error n) qs with
          | .error n => t.codecFail c n
          | .ok raws =>
            if !em.groupsOk raws [] then (t, some 0x0C03)
            else if !same ∧ (mapFind t.keys.compatKeys c.cl).isNone then (t, some 0x0C05)
            else t.codecRun c chk fun t =>
              let nonce := if same then em.h.nonce else if toCompat then wlong w 12 else em.h.nonce
              let key := t.compatKey c.cl
              let out : Ember := ⟨d, { em.h with compat := toCompat, nonce := if toCompat then nonce else 0 }, em.books⟩
              let blocks := raws.map fun (q, b) => (out.blockAddr q, if same then b else em.rewrap key nonce q b)
              let hdr := if c.pos = 0 then [(d.base, out.h.bytes d)] else []
              (t.moved c true (em.blockRanges qs)).doWrites c c.g.unit { items := hdr ++ blocks }

/-- EMB_REWRAP (R301). -/
def embRewrap (e : Eng) (w : W128) (chk : EngCheck) (s : State) : State :=
  s.instr e w 0x9A (embRewrapFx w chk)

def execEmbRewrap (e : Eng) (w : W128) (chk : EngCheck) (s : State) : Host.Outcome State Fault Refusal := .next (embRewrap e w chk s)

end Sys2Proof.Machine
end

