-- ==== Sys2Proof/Machine/Dies.lean ====
section
/-! DEFINITION. The damper, and the compute logic of a die: its reset, take-out, drain, power-down and release (R41 to R44, R55,
R409, R416 to R419, R422, R423). -/

namespace Sys2Proof.Machine

open Sys2Proof

/-! ### The damper (R422, R423) -/

/-- The completion records of ring `r` that are due, at most `n` of them. -/
def State.releaseAll (r : Nat) : Nat → State → State
  | 0, s => s
  | n + 1, s =>
    match s.releasable r with
    | some (st, code) => releaseAll r n (s.releaseStep r st code)
    | none => s

/-- The damper acts with a cause, for an error that a unit reports with a detail (R406, R423): FAULT_N low, acceptance and placement stopped, journal entries that are not done completed, TALLY
messages that are not journalled discarded, the completion records of committed steps written, and `state` SAFE. The engines stop, since
nothing runs while it has acted. -/
def State.dampAt (s : State) (cause unit detail : Nat) (client : Nat := 0xFFF) : State :=
  if s.saf.damped then s
  else
    let s1 := (s.logEvent 3 6 unit detail client).setFld Fld.SAF_STATUS_damper_cause cause
    let s2 := { (s1.setFlag Fld.SAF_STATUS_fault_n_low true).redoJournal with tallyQueue := [] }
    let s3 := forEach s2.rings s2 fun (r, _) t => t.releaseAll r t.steps.length
    let s4 := s3.setFld Fld.SAF_STATUS_state safSafe
    { s4 with saf := { s4.saf with damped := true, pulseSince := none } }

/-- The damper's own triggers: the record names the primary supervisor (DESIGN CHOICE, log 184: R31 gives the damper no unit of its own). -/
def State.damp (s : State) (cause : Nat) : State := s.dampAt cause s.unitPrimary 0

/-- DAMPER: a Package-class error reaches the damper (R422), with its cause as `damper_cause` numbers it. -/
def damper (cause : Nat) (s : State) : State := if 1 ≤ cause ∧ cause ≤ 6 then s.damp cause else s

def execDamper (cause : Nat) (s : State) : Host.Outcome State Fault Refusal := .next (damper cause s)

/-- ENTER_SAFE: a write of 1 to `enter_safe` (R422, R428). -/
def enterSafe (s : State) : State := s.damp 6

def execEnterSafe (s : State) : Host.Outcome State Fault Refusal := .next (enterSafe s)

/-! ### The compute logic (R42) -/

/-- A register key lies in a compute-logic block of die `d` (R43, R54). -/
def inLogic (d key : Nat) : Bool := decide (dieBase d + 0x10000 ≤ key) && decide (key < dieBase d + 0x70000)

/-- A register key lies in an island block of die `d` (R40, R54). -/
def inIsland (d key : Nat) : Bool :=
  (decide (dieBase d ≤ key) && decide (key < dieBase d + 0x800000)) && !inLogic d key

/-- The registers, counters and engine histories of the compute logic of die `d` take their reset values; RWS fields are kept
(R13, R42, R480, R526), and the relay loses its blocks (R282). The ends at the other side of its links have their failed rounds forgotten
with its own (R416). -/
def State.resetLogic (s : State) (d : Nat) : State :=
  let s1 := s.resetRegs (inLogic d) fun a => decide (a = .rws)
  let s2 := { s1 with
    cnts := s1.cnts.filter fun (b, _) => !inLogic d b
    relays := mapDel s1.relays d
    translations := s1.translations.filter fun (k, _) => decide (k / 0x100000 ≠ d)
    waiting := s1.waiting.filter fun w => !dieEngines.any fun u => decide (w.src = unitOf d u) }
  let n := s.nDies
  let peers := unitOf hubDie (0x080 + d) :: if 1 < n then [unitOf ((d + 1) % n) 0x082, unitOf ((d + n - 1) % n) 0x081] else []
  let s3 := forEach peers s2 fun u t => t.modUnit u fun x => { x with rounds := 0, passes := 0 }
  forEach (dieEngines ++ [0x080, 0x081, 0x082]) s3 fun u t =>
    let link := decide (0x080 ≤ u)
    t.modUnit (unitOf d u) fun x =>
      { x with rounds := 0, passes := 0, detectedAt := none, testing := none, disabling := false
               outSince := if link then x.outSince else none }

/-- A move that a reset of a die concerned or of the package interrupts (R331): abandoned while the old frame holds every write,
standing afterwards; commands whose requests were held run again. -/
def State.cutMove (s : State) (n : Nat) (m : Move) : State :=
  match m.phase with
  | .copying => s.abandonMove n
  | _ => forEach m.held { s with moves := mapDel s.moves n } fun (_, q) t =>
      match t.runOn? (q.hdr.src / 4096) (q.hdr.src % 4096) with
      | some r => t.schedKill r false
      | none => t

/-- Every move from or to a group of die `d`. -/
def State.cutMovesOf (s : State) (d : Nat) : State :=
  forEach (s.moves.filter fun (_, m) => decide (groupDie m.oldGroup = d) || decide (groupDie m.newGroup = d)) s fun (n, m) t =>
    t.cutMove n m

/-- Steps 1 to 3 of R42, with what was running already killed: the gate closes, every epoch of the die advances, residencies
end, the Hearth is lost, moves of its pages are cut off, and the logic enters reset or loses power. -/
def State.closeGate (s0 : State) (d : Nat) (off : Bool) : State :=
  let s := s0.cutMovesOf d
  let s1 := forEach (s.residencies.filter fun x => decide (x.die = d)) s fun x t => t.endResidency x false
  let s2 := forEach (dieUnit d :: dieEngines.map (unitOf d)) s1 fun u t => t.advanceEpoch u
  let s3 := ((s2.failHearthSteps d).loseHearth d).modHearth d fun h => { h with clinker := [], errs := [] }
  let s4 := (s3.resetLogic d).setFld (Fld.CDG_STATUS_logic_state d) (if off then logicOff else logicReset)
  let s5 := (s4.setFlag (Fld.CPC_STATUS_logic_powered d) (!off)).modDie d fun x =>
    { x with gate := false, since := s.tb, drainAt := none, loggedOff := off && x.loggedOff }
  s5

/-- The running commands of die `d` whose TALLY has not been sent. -/
def State.liveRuns (s : State) (d : Nat) : List Run := s.runs.filter fun r => decide (r.die = d) && !r.tallySent

/-- Every running command of die `d` is killed as its unit is taken out (R94, R409), and the clients whose work ran there are told
(R408). -/
def State.killForTakeOut (s : State) (d : Nat) (clients : List Nat) : State :=
  let live := s.liveRuns d
  let s1 := forEach live s fun r t =>
    match t.run? d r.entry with
    | some x => if x.tallySent then t else t.faultKill x (dieUnit d) 0x0E02 0x0E02 none
    | none => t
  forEach clients s1 fun c t => t.clientEvent c 2 (dieUnit d) 0

/-- The compute logic of die `d` is taken out (R409, R417): steps that lose their Hearth end (R90), what else runs there is replayed, and
the gate closes; the third take-out within 10 minutes, or `hold_out`, holds it out. -/
def State.takeOutDie (s : State) (d cause : Nat) (off : Bool) : State :=
  let recent := ((s.dieSt d).takeoutAt.filter fun t => !s.passedUs t 600000000) ++ [s.tb]
  let s1 := (s.modDie d fun x => { x with takeoutAt := recent }).addFld (Fld.CFR_STATUS_takeouts d) 1
  let s2 := (s1.setFld (Fld.CFR_CAUSE_last_cause d) cause).logEvent 2 3 (dieUnit d) 0
  let s3 := ((s2.failHearthSteps d).killForTakeOut d ((s.liveRuns d).map (·.client)).eraseDups).closeGate d off
  let held := decide (3 ≤ recent.length) || s3.flag (Fld.CFR_CTRL_hold_out d)
  let s4 := if held then s3.setFlag (Fld.CFR_STATUS_held_out d) true else s3
  (s4.notePresent d).refreshReady

/-- DIE_LOGIC_RESET: the recovery sequencer takes the logic out for a cause of CFR_CAUSE (R42, R409). -/
def dieLogicReset (die cause : Nat) (s : State) : State :=
  if s.fitted die && (s.dieSt die).gate && decide (1 ≤ cause) && decide (cause ≤ 7) then
    let s1 := s.takeOutDie die cause false
    if cause = 7 then s1.modDie die fun x => { x with thermalOut := true } else s1
  else s

def execDieLogicReset (die cause : Nat) (s : State) : Host.Outcome State Fault Refusal := .next (dieLogicReset die cause s)

/-! ### Drains (R417, R418) -/

/-- DIE_DRAIN: a write of 1 to `drain`, ignored unless READY (R417, R418). -/
def dieDrain (die : Nat) (s : State) : State :=
  if s.fitted die && decide (s.logicState die = logicReady) && (s.dieSt die).gate then
    let s1 := (s.setFld (Fld.CDG_STATUS_logic_state die) logicDraining).setFld (Fld.CFR_CAUSE_last_cause die) 8
    (s1.modDie die fun x => { x with drainAt := some s.tb }).holdDrained die
  else s

def execDieDrain (die : Nat) (s : State) : Host.Outcome State Fault Refusal := .next (dieDrain die s)

/-- DRAIN_TIMEOUT: 10 ms into a drain, the commands that remain are killed as a pre-emption and residencies end (R212, R418). -/
def drainTimeout (die : Nat) (s : State) : State :=
  match (s.dieSt die).drainAt with
  | some t0 =>
    if decide (s.logicState die = logicDraining) && s.passedUs t0 10000 then
      let s1 := forEach (s.liveRuns die) s fun r t =>
        match t.run? die r.entry with
        | some x => t.preempt x
        | none => t
      let s2 := forEach (s1.residencies.filter fun x => decide (x.die = die)) s1 fun x t => t.endResidency x true
      s2.holdDrained die
    else s
  | none => s

def execDrainTimeout (die : Nat) (s : State) : Host.Outcome State Fault Refusal := .next (drainTimeout die s)

/-- Step 4 of R42 for logic that no hold, power-down or heat keeps out: 2.1 µs after the gate closed it is released from reset and
shows SELFTEST. -/
def State.releaseLogic (s : State) (d : Nat) : State :=
  let x := s.dieSt d
  if decide (s.logicState d = logicReset) && !x.gate && !s.dieOut d && !x.thermalOut && !x.updating && !s.saf.damped &&
      decide (s.power.phase = .run) && decide (81 ≤ s.tb - x.since) then
    s.setFld (Fld.CDG_STATUS_logic_state d) logicSelftest
  else s

/-- DIE_LOGIC_OFF: a write of 1 to `logic_off`, ignored unless `drained` (R417, R418). -/
def dieLogicOff (die : Nat) (s : State) : State :=
  if s.fitted die && s.drained die then
    let s1 := (s.modDie die fun x => { x with loggedOff := true }).closeGate die true
    (s1.notePresent die).refreshReady
  else s

def execDieLogicOff (die : Nat) (s : State) : Host.Outcome State Fault Refusal := .next (dieLogicOff die s)

/-- DIE_RELEASE: a write of 1 to `release` (R417): drained, powered-down or held-out logic goes to step 4 of R42. The drain keeps
no Hearth contents, so a drained die passes steps 1 to 3 first (R418). -/
def dieRelease (die : Nat) (s : State) : State :=
  if !s.fitted die || (s.dieSt die).islandFailed then s
  else
    let back := fun (t : State) =>
      let t1 := (t.setFlag (Fld.CFR_STATUS_held_out die) false).modDie die fun x => { x with loggedOff := false, since := s.tb }
      ((t1.setFlag (Fld.CPC_STATUS_logic_powered die) true).setFld (Fld.CDG_STATUS_logic_state die) logicSelftest).notePresent die
    if s.drained die then back (s.closeGate die false)
    else if !(s.dieSt die).gate && ((s.dieSt die).loggedOff || s.flag (Fld.CFR_STATUS_held_out die)) then back s
    else s

def execDieRelease (die : Nat) (s : State) : Host.Outcome State Fault Refusal := .next (dieRelease die s)

end Sys2Proof.Machine
end

