-- ==== Sys2Proof/Machine/Ledger.lean ====
section
/-! DEFINITION. The ledger's two copies (R85 to R87, R129): the bytes of its entries with their CRCs, the retained copy with the errors
found in it, and its repair from the mirror. The fields of the steps, rings, clients and journal are what both copies hold; the
spec gives each entry's size and contents, and their order in it is this model's (DESIGN CHOICE, log 148). -/

namespace Sys2Proof.Machine

/-- An entry's bytes with their CRC-32C behind them. -/
def ledgerCrc (bs : List Byte) : List Byte := bs ++ leBytes (crc32c bs).toNat 4

/-- A ring record, 32 bytes. -/
def Ring.ledgerRecord (x : Ring) : List Byte :=
  ledgerCrc (leBytes x.head 8 ++ leBytes x.committed 8 ++ leBytes x.released 8 ++ leBytes (ringCode x.state) 1 ++ leBytes x.error 1 ++
    leBytes 0 2)

/-- The tally mask of a step. -/
def Step.tallyMask (st : Step) : Nat := (st.cmds.filter Cmd.isTallied).foldl (fun m c => m + 2 ^ c.index) 0

/-- A step record, 64 bytes. -/
def Step.ledgerRecord (st : Step) : List Byte :=
  ledgerCrc (leBytes st.seq 8 ++ leBytes st.ring 4 ++ leBytes (st.status.getD 0xFF) 1 ++ leBytes st.cflags 1 ++ leBytes st.detail 2 ++
    leBytes st.tallyMask 32 ++ leBytes st.acceptedAt 8 ++ leBytes 0 4)

/-- A journal entry, 320 bytes. -/
def Journal.ledgerRecord (j : Journal) : List Byte :=
  let pubs := (natRange 0 16).flatMap fun k => match j.pubs[k]? with
    | some p => leBytes p.1 8 ++ leBytes p.2 8
    | none => leBytes 0 16
  ledgerCrc (leBytes j.ring 4 ++ leBytes j.index 1 ++ leBytes j.pubs.length 1 ++ leBytes (b2n j.snap.isSome) 1 ++ leBytes (b2n j.done) 1 ++
    leBytes j.seq 8 ++ pubs ++ (match j.snap with | some (a, bs) => leBytes a 8 ++ bs | none => leBytes 0 32) ++ leBytes 0 12)

/-- A client record, 4,608 bytes (R129). -/
def State.clientRecord (s : State) (c : Nat) : List Byte :=
  let x := s.client c
  let costs := (natRange 0 256).flatMap fun k => match x.costs[k]? with
    | some e => leBytes e.program 8 ++ leBytes e.width 1 ++ leBytes e.avgNs 7
    | none => leBytes 0 16
  ledgerCrc (((s.acctBlock c 0).drop 16).take 188 ++ ((natRange 0 7).flatMap fun k => leBytes (s.vt c k) 8) ++
    leBytes (s.pagesReserved c) 8 ++ costs ++ leBytes 0 256)

/-! ### Entry numbers: RingIds from 0, step records from 2^20, journal entries from 2^21 -/

def stepEntry : Nat := 0x100000
def journalEntry : Nat := 0x200000

/-- What both copies of an entry should hold; none where the retained copy has no such entry: it has the record of a ring only while steps
of the ring are in flight (R85). -/
def State.ledgerEntry (s : State) (k : Nat) : Option (List Byte) :=
  if k < stepEntry then (if (s.ring k).released = (s.ring k).head then none else some (s.ring k).ledgerRecord)
  else if k < journalEntry then (s.steps[k - stepEntry]?).map Step.ledgerRecord
  else (s.journal[k - journalEntry]?).map Journal.ledgerRecord

/-- The retained copy of an entry, with the errors in it. -/
def State.retainedEntry (s : State) (k : Nat) : Option (List Byte) :=
  (s.ledgerEntry k).map fun bs => (xorBytes bs (mapGet s.ledgerErr k [])).take bs.length

/-- An entry's last four bytes are the CRC-32C of the others. -/
def crcGood (bs : List Byte) : Bool :=
  decide (bs.drop (bs.length - 4) = leBytes (crc32c (bs.take (bs.length - 4))).toNat 4)

/-- Where the mirror holds an entry: its offset and its bytes. The journal has no mirror (R85). -/
def mirrorPlace (k : Nat) : Option (Nat × Nat) :=
  if k < stepEntry then some (32 * k, 32)
  else if k < journalEntry then some (0x2000000 + 64 * (k - stepEntry), 64)
  else none

/-- The mirror's copy of an entry can be used: no code word of it is uncorrectable or marked (R343). -/
def State.mirrorGood (s : State) (k : Nat) : Bool :=
  match mirrorPlace k with
  | none => false
  | some (o, n) => (natRange 0 n).all fun i =>
    match s.sysByte 0 (s.fld Fld.SCH_LEDGER_BASE_mirror_base + o + i) with
    | .ok _ => true
    | .error _ => false

/-- The tally unit reads the retained copy of an entry: one with a mismatch is restored from the mirror, `rebuilt` is set and the
event is logged (R87, R409). Where the mirror's copy is bad too, the tally unit raises a package fault (R343). -/
def State.checkEntry (s : State) (k : Nat) : State :=
  match s.retainedEntry k with
  | none => { s with ledgerErr := mapDel s.ledgerErr k }
  | some bs =>
    if crcGood bs then s
    else if !s.mirrorGood k then s.dampAt 1 unitTally 0
    else
      (({ s with ledgerErr := mapDel s.ledgerErr k }).setFlag Fld.SCH_LEDGER_CTRL_rebuilt true).logCorrected unitTally 0

/-- The retained copy of a journal entry that is not done is bad: it has no other copy. -/
def State.journalBad (s : State) : Bool :=
  s.ledgerErr.any fun (k, _) => decide (journalEntry ≤ k) && match s.retainedEntry k with
    | some bs => !crcGood bs
    | none => false

/-- Every entry in which errors have been found. -/
def State.checkLedger (s : State) : State := forEach s.ledgerErr s fun (k, _) t => t.checkEntry k

/-- Errors found in the retained copy of an entry, which is then read. -/
def State.ledgerFault (s : State) (k : Nat) (err : List Byte) : State :=
  { s with ledgerErr := mapSet s.ledgerErr k err }.checkEntry k

/-! ### System pages as the host reads them (R318, R505) -/

/-- A step record of the mirror that no step has: zeros, with their CRC. -/
def noStepRecord : List Byte := ledgerCrc (List.replicate 60 0)

/-- The byte of the mirror at offset `o`: a record of every RingId, the step records, a record of every ClientId, then nothing (R85). -/
def State.mirrorByte (s : State) (o : Nat) : Byte :=
  if o < 0x2000000 then (s.ring (o / 32)).ledgerRecord.getD (o % 32) 0
  else if o < 0x2080000 then (((s.steps[(o - 0x2000000) / 64]?).map Step.ledgerRecord).getD noStepRecord).getD (o % 64) 0
  else if o < 0x2080000 + 4608 * 4096 then (s.clientRecord ((o - 0x2080000) / 4608)).getD ((o - 0x2080000) % 4608) 0
  else 0

/-- A client's entry of the key table (R434): all zeros where it has no memory key. -/
def State.keyEntry (s : State) (c : Nat) : List Byte :=
  match mapFind s.keys.clientKeys c with
  | none => List.replicate 128 0
  | some k =>
    let compat := match mapFind s.keys.compatKeys c with
      | some v => v + 1
      | none => 0
    ledgerCrc ((natRange 0 104).map (Config.wrappedByte (s.keys.kek.getD 0) k.1 compat) ++ List.replicate 20 0)

/-- The byte that the device keeps at device address `a` of its own pages: the page map's entries, 8 bytes each from `map_base` on
(R318), the key table (R434), and the mirror. -/
def State.systemByte (s : State) (a : Nat) : Option Byte :=
  let map := s.fld Fld.MEM_MAP_BASE_map_base
  let mir := s.fld Fld.SCH_LEDGER_BASE_mirror_base
  if s.flag Fld.MEM_MAP_CTRL_enable ∧ map ≤ a ∧ a < map + 8 * s.variant.pages then
    some ((leBytes (s.page ((a - map) / 8)).word 8).getD ((a - map) % 8) 0)
  else if s.flag Fld.MEM_MAP_CTRL_enable ∧ map + 0x100000 ≤ a ∧ a < map + 0x180000 then
    some ((s.keyEntry ((a - map - 0x100000) / 128)).getD ((a - map) % 128) 0)
  else if s.flag Fld.SCH_LEDGER_CTRL_enable ∧ mir ≤ a ∧ a < mir + 0x4000000 then some (s.mirrorByte (a - mir))
  else none

end Sys2Proof.Machine
end

