-- ==== Sys2Proof/Machine/Links.lean ====
section
/-! DEFINITION. The in-package Hentex links: flits, replay, link loss, routes, and the requests and responses that they carry
(R26 to R45, R330, R339, R343 to R345, R409, R419, R434). -/

namespace Sys2Proof.Machine

open Sys2Proof

/-! ### Link ends (R31, R36, R45) -/

/-- The register block of link end `u`. -/
def linkBlk (u : Nat) : Nat := if u / 4096 = hubDie then hubLinkBase (u % 4096 - 0x080) else hxlBase (u / 4096) (u % 4096 - 0x080)

/-- The link end at the other end of a link. -/
def State.peerEnd (s : State) (u : Nat) : Option Nat :=
  let d := u / 4096
  let e := u % 4096
  let n := s.nDies
  if d = hubDie then
    if 0x080 ≤ e ∧ e < 0x080 + n then some (unitOf (e - 0x080) 0x080) else none
  else if !s.fitted d then none
  else if e = 0x080 then some (unitOf hubDie (0x080 + d))
  else if e = 0x081 ∧ 1 < n then some (unitOf ((d + 1) % n) 0x082)
  else if e = 0x082 ∧ 1 < n then some (unitOf ((d + n - 1) % n) 0x081)
  else none

def State.endUp (s : State) (u : Nat) : Bool := s.flag (Fld.HXL_STATUS_link_up (linkBlk u))

def Link.module (l : Link) (m : Nat) : LinkModule := if m = 0 then l.m0 else l.m1

def Link.setModule (l : Link) (m : Nat) (x : LinkModule) : Link := if m = 0 then { l with m0 := x } else { l with m1 := x }

/-- The topology and die status registers follow the link ends (R44, R55). -/
def State.syncTopo (s : State) : State :=
  let n := s.nDies
  let hub := (natRange 0 n).map fun d => s.endUp (unitOf hubDie (0x080 + d))
  let ring := (natRange 0 n).map fun d => decide (1 < n) && s.endUp (unitOf d 0x081)
  let mask := fun (bs : List Bool) => (natRange 0 bs.length).foldl (fun a i => a + b2n (bs.getD i false) * 2 ^ i) 0
  let s1 := (s.setFld Fld.GLB_TOPO_hub_links_up (mask hub)).setFld Fld.GLB_TOPO_ring_links_up (mask ring)
  let s2 := s1.setFlag Fld.GLB_TOPO_ring_closed (decide (1 < n) && ring.all id)
  forEach (natRange 0 n) s2 fun d t =>
    ((t.setFlag (Fld.CDG_STATUS_hub_link_up d) (hub.getD d false)).setFlag (Fld.CDG_STATUS_east_link_up d)
      (ring.getD d false)).setFlag (Fld.CDG_STATUS_west_link_up d) (ring.getD ((d + n - 1) % n) false)

/-! ### Messages in flits (R28, R29) -/

def headerAt (b : List Byte) : Header :=
  let w := atOff b 14 2
  { opcode := atOff b 0 1, tag := atOff b 1 1, epoch := atOff b 2 2, dst := atOff b 4 2, src := atOff b 6 2, addr := atOff b 8 6
    client := w % 4096, len := 8 * 2 ^ bits w 12 2, clinker := bit w 14, reissued := bit w 15 }

/-- The class of a message (R30): 0 REQ, 1 RSP, 2 CTL, 3 MGMT. -/
def msgClass (m : Msg) : Nat := m.hdr.opcode / 64 % 4

/-- A flit that carries one message and returns `freed` slots of each class, with its CRC. -/
def msgFlit (m : Msg) (seq ackSeq : Nat) (freed : List Nat) : List Byte :=
  let slot := headerBytes m.hdr ++ m.data.take 64 ++ List.replicate (64 - m.data.length) 0
  let body := leBytes (seq % 4096) 2 ++ leBytes (ackSeq % 4096) 2 ++
    ((natRange 0 4).flatMap fun c => leBytes (freed.getD c 0) 1) ++ slot ++ List.replicate 160 0 ++
    leBytes (if m.data.isEmpty then 1 else 2) 1 ++ List.replicate 3 0
  body ++ leBytes (crc32c body).toNat 4

def knownOpcodes : List Nat := [0x01, 0x02, 0x41, 0x42, 0x43, 0x44, 0x81, 0x82, 0x83, 0x84, 0xC1, 0xC2]

/-- The messages of one slot; none where the slot's kind is reserved (R28). A header of zeros is an empty place. -/
def slotMsgs (kind : Nat) (b : List Byte) : Option (List Msg) :=
  if kind = 0 then some []
  else if kind = 1 then
    some (((natRange 0 5).map fun k => ({ hdr := headerAt (b.drop (16 * k)), data := [] } : Msg)).filter fun m =>
      decide (m.hdr.opcode ≠ 0))
  else if kind = 2 then
    let h := headerAt b
    some [{ hdr := h, data := (b.drop 16).take h.len }]
  else none

/-- The messages of a flit; none where an opcode or a slot kind is not defined (R30). -/
def flitMsgs (f : List Byte) : Option (List Msg) :=
  let kinds := atOff f 248 1
  let parts := (natRange 0 3).map fun k => slotMsgs (bits kinds (2 * k) 2) ((f.drop (8 + 80 * k)).take 80)
  if parts.all (·.isSome) then
    let ms := parts.flatMap fun p => p.getD []
    if ms.all fun m => knownOpcodes.contains m.hdr.opcode then some ms else none
  else none

/-! ### Sending (R32 to R34, R37) -/

/-- The link that link end `u` sends on is up (R37, R55). -/
def State.endLinkUp (s : State) (u : Nat) : Bool :=
  let d := u / 4096
  let e := u % 4096
  if d = hubDie then s.hubLinkUp (e - 0x080)
  else if e = 0x080 then s.hubLinkUp d
  else if e = 0x081 then s.ringLinkUp d
  else s.ringLinkUp ((d + s.nDies - 1) % s.nDies)

/-- The link ends by which a message goes `k` dies round the ring from die `a`. -/
def State.ringWay (s : State) (a k : Nat) (east : Bool) : List Nat :=
  let n := s.nDies
  (natRange 0 k).map fun i => if east then unitOf ((a + i) % n) 0x081 else unitOf ((a + n - i % n) % n) 0x082

/-- The paths between two dies in the order in which they are chosen, as the link ends that a message leaves by (R37). -/
def State.pathsOf (s : State) (a b : Nat) : List (List Nat) :=
  let n := s.nDies
  let next := fun d => (d + 1) % n
  let prev := fun d => (d + n - 1) % n
  if a = b then [[]]
  else if b = hubDie then
    [unitOf a 0x080] ::
      (if 1 < n then [[unitOf a 0x081, unitOf (next a) 0x080], [unitOf a 0x082, unitOf (prev a) 0x080]] else [])
  else if a = hubDie then
    [unitOf hubDie (0x080 + b)] ::
      (if 1 < n then [[unitOf hubDie (0x080 + next b), unitOf (next b) 0x082],
        [unitOf hubDie (0x080 + prev b), unitOf (prev b) 0x081]] else [])
  else
    let e := (b + n - a) % n
    let w := (a + n - b) % n
    let short := if e < w then s.ringWay a e true else s.ringWay a w false
    let long := if e < w then s.ringWay a w false else s.ringWay a e true
    let hub := [unitOf a 0x080, unitOf hubDie (0x080 + b)]
    if min e w ≤ 2 then [short, hub, long] else [hub, short, long]

/-- The path from die `a` to die `b`: the first whose links are all up (R37). -/
def State.path (s : State) (a b : Nat) : Option (List Nat) := (s.pathsOf a b).find? fun p => p.all s.endLinkUp

/-- The link end by which die `a` reaches die `b` (R37). -/
def State.routeEnd (s : State) (a b : Nat) : Option Nat := (s.path a b).bind List.head?

/-- The link end by which die `at_` sends on a message from die `a` to die `b`: the next of their path, so that a message keeps to the
path chosen for its two dies; where links have changed while it was on its way, the path from here (R37, R38). -/
def State.nextEnd (s : State) (a b at_ : Nat) : Option Nat :=
  match (s.path a b).bind fun p => p.find? fun u => decide (u / 4096 = at_) with
  | some u => some u
  | none => s.routeEnd at_ b

/-- The link ends by which a message leaves the dies on its way. -/
def State.routeOf (s : State) (m : Msg) : List Nat := ((s.path (m.hdr.src / 4096) (m.hdr.dst / 4096))).getD []

/-- A request waits for its response from when its source sent it; a request that already waits goes on doing so (R35). -/
def State.noteRequest (s : State) (m : Msg) : State :=
  let same := fun (w : Waiting) => decide (w.src = m.hdr.src) && decide (w.tag = m.hdr.tag)
  if s.waiting.any fun w => same w && decide (w.msg.hdr.dst = m.hdr.dst) && decide (w.msg.hdr.addr = m.hdr.addr) then s
  else { s with waiting := (s.waiting.filter fun w => !same w) ++
    [{ src := m.hdr.src, tag := m.hdr.tag, msg := m, since := s.tb, via := s.routeOf m }] }

/-- A receive slot of class `c` at link end `u` is free again; its credit goes back with the next flit (R28, R32). -/
def State.freeSlot (s : State) (u c : Nat) : State :=
  s.modLink u fun l => { l with freed := l.freed.set c (min 255 (l.freed.getD c 0 + 1)) }

/-- Link end `u` sends a message: with a credit of its class, room in the retry buffer and no message of its class ahead of it, it
leaves in a flit, which returns the credits of the slots freed here; otherwise it waits (R28, R32 to R34). -/
def State.linkSend (s : State) (u : Nat) (o : OutMsg) : State :=
  let l := s.link u
  let mods := s.fld (Fld.HXL_STATUS_modules_up (linkBlk u))
  let k := if bit mods 0 then 0 else 1
  let x := l.module k
  let c := msgClass o.msg
  let credit := l.credits.getD c 0
  let behind := l.outbox.any fun y => decide (msgClass y.msg = c)
  if mods = 0 ∨ (credit = 0 ∧ !o.paid) ∨ 128 ≤ x.retry.length ∨ behind then s.modLink u fun y => { y with outbox := y.outbox ++ [o] }
  else
    let f : Flit := { seq := x.txSeq, bytes := msgFlit o.msg x.txSeq x.rxSeq l.freed, sentAt := s.tb }
    let x' := { x with txSeq := (x.txSeq + 1) % 4096, retry := x.retry ++ [f] }
    let s1 := (s.modLink u fun y => { y.setModule k x' with
      credits := if o.paid then y.credits else y.credits.set c (credit - 1), freed := [0, 0, 0, 0] }).send (.msg o.msg)
    match o.slot with
    | some v => s1.freeSlot v c
    | none => s1

/-- A unit sends a message, within its die or over the route to its destination (R37); a request waits for its response from now
on (R35). -/
def State.sendMsg (s : State) (m : Msg) : State :=
  let a := m.hdr.src / 4096
  let b := m.hdr.dst / 4096
  let s1 := if msgClass m = 0 then s.noteRequest m else s
  if a = b then s1.send (.msg m)
  else
    match s1.routeEnd a b with
    | some u => s1.linkSend u { msg := m }
    | none => s1

/-- The messages that waited at link end `u` are tried again, in their order. -/
def State.drainOutbox (s : State) (u : Nat) : State :=
  let ms := (s.link u).outbox
  forEach ms (s.modLink u fun y => { y with outbox := [] }) fun m t => t.linkSend u m

/-- A message that arrives at link end `u` is delivered on its die, or forwarded on its route, where it holds its receive slot
until it leaves (R28, R38). -/
def State.deliver (s : State) (u : Nat) (m : Msg) : State :=
  let b := m.hdr.dst / 4096
  let s1 := if msgClass m = 0 then s.noteRequest m else s
  if b = u / 4096 then (s1.send (.msg m)).freeSlot u (msgClass m)
  else
    match (if b = hubDie ∨ s.fitted b then s1.nextEnd (m.hdr.src / 4096) b (u / 4096) else none) with
    | some v => s1.linkSend v { msg := m, slot := some u }
    | none => s1.freeSlot u (msgClass m)

/-! ### Link loss (R34, R35, R37, R409) -/

/-- One end handles the messages in its retry buffers: a request of its own die returns to its source as RETRY, the others are
discarded (R35). A message still waiting for a credit is handled as one in the retry buffer (DESIGN CHOICE, log 191). -/
def State.endLost (s : State) (u : Nat) : State :=
  let l := s.link u
  let ms := (l.m0.retry ++ l.m1.retry).flatMap fun f => (flitMsgs f.bytes).getD []
  let blk := linkBlk u
  let s1 := (((s.setFlag (Fld.HXL_STATUS_link_up blk) false).setFld (Fld.HXL_STATUS_modules_up blk) 0).setFlag
    (Fld.HXL_STATUS_module_degraded blk) false).setFlag (Fld.HXL_STATUS_down_seen blk) true
  let s2 := (s1.advanceEpoch u).modLink u fun y =>
    { y with m0 := {}, m1 := {}, downAt := some s.tb, outbox := [], protoAt := [] }
  let own := (ms ++ l.outbox.map (·.msg)).filter fun m => decide ((msgClass m) = 0) && decide (m.hdr.src / 4096 = u / 4096)
  let s3 := forEach own s2 fun m t =>
    t.send (.msg { hdr := { m.hdr with opcode := 0x43, epoch := t.epoch u, dst := m.hdr.src, src := u, addr := 0 }, data := [] })
  (s3.modUnit u fun x => { x with outSince := some s.tb, retestAt := s.tb, passes := 0 }).logEvent 2 3 u 0

/-- Every die that no route reaches is taken out (R37, R409). -/
def State.takeOutUnreached (s : State) : State :=
  forEach (natRange 0 s.nDies) s fun d t =>
    if (t.dieSt d).gate && (t.hops hubDie d).isNone then t.takeOutDie d 6 false else t

/-- A link goes down at both ends, routes change and are announced, and a die that cannot be reached is taken out. -/
def State.linkDown (s : State) (u : Nat) : State :=
  if s.endUp u then
    let s1 := s.endLost u
    let s2 := match s1.peerEnd u with
      | some v => if s1.endUp v then s1.endLost v else s1
      | none => s1
    ((s2.syncTopo.send .routeUpdate).takeOutUnreached)
  else s

/-- LINK_TRAINED: a link completes training with a mask of modules (R26, R27, R32, R109). A link end that was taken out comes
back after two trainings 100 ms apart (R416); a training that no module passes is a failed round. -/
def State.trainEnd (s : State) (u modules lanes : Nat) : State :=
  let blk := linkBlk u
  let s1 := (s.setFlag (Fld.HXL_STATUS_link_up blk) true).setFld (Fld.HXL_STATUS_modules_up blk) modules
  let s2 := (s1.setFlag (Fld.HXL_STATUS_module_degraded blk) (decide (modules ≠ 3))).setFld (Fld.HXL_STATUS_lanes_repaired blk)
    (min lanes 255)
  let s3 := s2.modLink u fun _ => ({ m0 := { lastAck := s.tb }, m1 := { lastAck := s.tb }, credits := [64, 64, 32, 8] } : Link)
  let back := (s3.unit u).outSince.isSome
  let s4 := (s3.modUnit u fun x => { x with outSince := none, passes := 0, rounds := 0 }).advanceEpoch u
  if back then s4.logEvent 2 4 u 0 else s4

/-- A training of a link end that was taken out counts as its test: whether the link comes up, and the unit's count (R416). -/
def State.trainTest (s : State) (u modules : Nat) : State × Bool :=
  let x := s.unit u
  match x.outSince with
  | none => (s, decide (modules ≠ 0))
  | some _ =>
    let wait := if x.rounds = 0 ∨ 0 < x.passes then 100000 else 10000000
    if 3 ≤ x.rounds ∨ !s.passedUs x.retestAt wait then (s, false)
    else if modules = 0 then (s.modUnit u fun y => { y with rounds := y.rounds + 1, passes := 0, retestAt := s.tb }, false)
    else if x.passes = 0 then (s.modUnit u fun y => { y with passes := 1, retestAt := s.tb }, false)
    else (s, true)

def linkTrained (link modules lanesRepaired : Nat) (s : State) : State :=
  match s.peerEnd link with
  | none => s
  | some v =>
    if s.endUp link then s
    else
      let ms := modules % 4
      let (s1, up1) := s.trainTest link ms
      let (s2, up2) := s1.trainTest v ms
      if up1 && up2 && decide (ms ≠ 0) then
        ((s2.trainEnd link ms lanesRepaired).trainEnd v ms lanesRepaired).syncTopo.send .routeUpdate
      else s2

def execLinkTrained (link modules lanesRepaired : Nat) (s : State) : Host.Outcome State Fault Refusal :=
  .next (linkTrained link modules lanesRepaired s)

/-- Link end `u` runs on the modules `left`: module `k` carries nothing more, and the messages of its flits that were not
acknowledged leave again, ahead of those that wait, on the other module (R27, R34; DEDUCED, log 131). -/
def State.dropModule (s : State) (u k left : Nat) : State :=
  let s1 := (s.setFld (Fld.HXL_STATUS_modules_up (linkBlk u)) left).setFlag (Fld.HXL_STATUS_module_degraded (linkBlk u)) true
  let ms := ((s.link u).module k).retry.flatMap fun f => (flitMsgs f.bytes).getD []
  (s1.modLink u fun l => { l.setModule k { lastAck := s.tb } with
    outbox := ms.map (fun m => ({ msg := m, paid := true } : OutMsg)) ++ l.outbox }).drainOutbox u

/-- MODULE_FAIL: a module fails; the link runs on the other, or goes down (R27, R409). -/
def moduleFail (link module : Nat) (s : State) : State :=
  match s.peerEnd link with
  | none => s
  | some v =>
    let mods := s.fld (Fld.HXL_STATUS_modules_up (linkBlk link))
    if !s.endUp link || !bit mods (module % 2) then s
    else
      let left := setBit mods (module % 2) false
      if left = 0 then s.linkDown link
      else
        ((s.dropModule link (module % 2) left).dropModule v (module % 2) left).logRecorded link 0

def execModuleFail (link module : Nat) (s : State) : Host.Outcome State Fault Refusal := .next (moduleFail link module s)

/-! ### Flits received (R28, R30, R34) -/

/-- The retry buffer after an acknowledgement of every flit up to `ackSeq`. -/
def ackFlits (ackSeq : Nat) (fs : List Flit) : List Flit :=
  if fs.any fun f => decide (f.seq = ackSeq) then (fs.dropWhile fun f => decide (f.seq ≠ ackSeq)).drop 1 else fs

def State.ackModule (s : State) (u k ackSeq : Nat) : State :=
  s.modLink u fun l =>
    let x := l.module k
    let left := ackFlits ackSeq x.retry
    if left.length < x.retry.length then l.setModule k { x with retry := left, replays := 0, lastAck := s.tb } else l

/-- FLIT_NAK_REPLAY: the sender replays from the flit after `ackSeq`; the eighth replay of one flit takes the link down. -/
def State.replay (s : State) (u k ackSeq : Nat) : State :=
  if !s.endUp u || !bit (s.fld (Fld.HXL_STATUS_modules_up (linkBlk u))) k then s
  else
    let s1 := s.ackModule u k ackSeq
    let x := (s1.link u).module k
    if x.retry.isEmpty then s1.drainOutbox u
    else if 8 ≤ x.replays + 1 then s1.linkDown u
    else
      ((s1.modLink u fun l => l.setModule k { x with
        replays := x.replays + 1, retry := x.retry.map fun f => { f with sentAt := s.tb } }).addFld
        (Fld.HXL_REPLAYS_replays (linkBlk u)) x.retry.length).drainOutbox u

def flitNakReplay (link module ackSeq : Nat) (s : State) : State :=
  match s.peerEnd link with
  | some _ => s.replay link (module % 2) (ackSeq % 4096)
  | none => s

def execFlitNakReplay (link module ackSeq : Nat) (s : State) : Host.Outcome State Fault Refusal :=
  .next (flitNakReplay link module ackSeq s)

/-- LINK_ACK_TIMEOUT: no acknowledgement for 2 µs while flits are outstanding (R34). -/
def linkAckTimeout (link module : Nat) (s : State) : State :=
  match s.peerEnd link with
  | none => s
  | some _ =>
    let x := (s.link link).module (module % 2)
    if !bit (s.fld (Fld.HXL_STATUS_modules_up (linkBlk link))) (module % 2) then s else
    match x.retry with
    | [] => s
    | f :: _ => if s.passedUs (max f.sentAt x.lastAck) 2 then s.linkDown link else s

def execLinkAckTimeout (link module : Nat) (s : State) : Host.Outcome State Fault Refusal := .next (linkAckTimeout link module s)

/-- A flit with an undefined opcode is discarded; the third within 1 ms on one link takes it down (R30, R409). -/
def State.protocolError (s : State) (u : Nat) : State :=
  let recent := ((s.link u).protoAt.filter fun t => !s.passedUs t 1000) ++ [s.tb]
  let s1 := (s.setFlag (Fld.HXL_STATUS_proto_error (linkBlk u)) true).modLink u fun l => { l with protoAt := recent }
  if 3 ≤ recent.length then s1.linkDown u else s1.logRecorded u 0

/-- The acknowledgement of flit `seq`, which returns the credits of the slots freed at this end, in an idle flit (R28, R34; log 136). -/
def State.sendAck (s : State) (u seq : Nat) : State :=
  (s.modLink u fun l => { l with freed := [0, 0, 0, 0] }).send (.ack u seq (s.link u).freed)

/-- The credits that a flit returns (R28, R32). -/
def State.takeCredits (s : State) (u : Nat) (flit : List Byte) : State :=
  s.modLink u fun l =>
    { l with credits := (natRange 0 4).map fun c => min (l.credits.getD c 0 + atOff flit (4 + c) 1) ([64, 64, 32, 8].getD c 0) }

/-- FLIT_RECEIVE: a module of a link end receives a flit. A bad CRC is counted and answered with `nak`; an idle flit, whose slots are
all empty, returns credits and has no place in the sequence (log 136); a flit out of order is discarded, since its sender replays
it; a good one returns credits, delivers or forwards its messages, and is acknowledged. -/
def flitReceive (link module : Nat) (flit : List Byte) (s : State) : State :=
  let k := module % 2
  let blk := linkBlk link
  let x := (s.link link).module k
  if (s.peerEnd link).isNone || !s.endUp link || !bit (s.fld (Fld.HXL_STATUS_modules_up blk)) k then s
  else if flit.length ≠ 256 ∨ (crc32c (flit.take 252)).toNat ≠ atOff flit 252 4 then
    ((s.addFld (Fld.HXL_CRC_crc_errors blk) 1).send (.nak link x.rxSeq)).logCorrected link 0
  else
    let seq := atOff flit 0 2 % 4096
    let ack := atOff flit 2 2
    let s1 := if bit ack 12 then s.replay link k (ack % 4096) else (s.ackModule link k (ack % 4096)).drainOutbox link
    if !s1.endUp link then s1
    else if atOff flit 248 1 % 64 = 0 then (s1.takeCredits link flit).drainOutbox link
    else if seq ≠ (x.rxSeq + 1) % 4096 then s1
    else
      let s2 := (s1.takeCredits link flit).modLink link fun l => l.setModule k { l.module k with rxSeq := seq }
      let s3 := s2.drainOutbox link
      match flitMsgs flit with
      | none => (s3.sendAck link seq).protocolError link
      | some ms => (forEach ms s3 fun m t => t.deliver link m).sendAck link seq

def execFlitReceive (link module : Nat) (flit : List Byte) (s : State) : Host.Outcome State Fault Refusal :=
  .next (flitReceive link module flit s)

/-- ROUTE_UPDATE: the routes follow the links that are up (R37). -/
def routeUpdate (s : State) : State := s.syncTopo

def execRouteUpdate (s : State) : Host.Outcome State Fault Refusal := .next (routeUpdate s)

/-! ### Requests at their responders (R29, R30, R41, R110, R111, R329, R330, R339, R343) -/

/-- Requesters that may receive data with the clinker mark (R343): the supervisor cores, the bellows, the tally unit's recovery
copies, and the host port for the host. -/
def privilegedUnit (u : Nat) : Bool := [0x8001, 0x8002, 0x8003, 0x8030, 0x8050].contains u

/-- The unit whose role epoch unit `u` answers under: a compute die's Hearth has that of its die (R41, R109). -/
def epochOwner (u : Nat) : Nat := if u % 4096 = 0x050 ∧ u / 4096 ≠ hubDie then dieUnit (u / 4096) else u

/-- A response to a request under the role epoch of unit `own` (R29, R30). -/
def State.respondAs (s : State) (m : Msg) (op : Nat) (data : List Byte) (mark : Bool) (own : Nat) : State :=
  s.sendMsg { hdr := { opcode := op, tag := m.hdr.tag, epoch := s.epoch own, dst := m.hdr.src, src := m.hdr.dst, addr := 0
                       client := m.hdr.client, len := m.hdr.len, clinker := mark, reissued := false }
              data := data }

/-- A response to a request under the responder's current epoch (R29). -/
def State.respond (s : State) (m : Msg) (op : Nat) (data : List Byte) (mark : Bool) : State :=
  s.respondAs m op data mark (epochOwner m.hdr.dst)

/-- The command that a request acts for: that of the engine which sent it, where the client is the same (R308, R343). -/
def State.askedBy (s : State) (m : Msg) : Option Run :=
  match s.runOn? (m.hdr.src / 4096) (m.hdr.src % 4096) with
  | some r => if r.client = m.hdr.client then some r else none
  | none => none

/-- A request that its responder turns away: the command that it acts for fails with `detail` (R308, R314, R319, R345), and the requester gets
BUS_ERROR. -/
def State.refuseAccess (s : State) (m : Msg) (detail : Nat) : State :=
  let s1 := s.respond m 0x44 [] false
  match s.askedBy m with
  | some r => s1.failFinal r m.hdr.src detail
  | none => s1

/-- Data of a read at a place, with marked or uncorrectable bytes: an unprivileged requester gets BUS_ERROR, a privileged one the
mark; the bytes that it then gets are open (R343). A read that the host refuses fails its command with 0x0D04 (R345). -/
def State.answerRead (s : State) (m : Msg) (places : List Place) : State :=
  let got := places.map s.byteAt
  let bad := got.any fun x => match x with | .error _ => true | .ok _ => false
  if got.any fun x => match x with | .error e => decide (e = 0x0D04) | .ok _ => false then s.refuseAccess m 0x0D04
  else if !bad then s.respond m 0x41 (got.map fun x => match x with | .ok b => b | .error _ => 0) false
  else if privilegedUnit m.hdr.src then
    let (s1, bs) := s.drawBytes m.hdr.len
    s1.respond m 0x41 bs true
  else s.respond m 0x44 [] false

def shiftPlace (p : Place) (i : Nat) : Place :=
  match p with
  | .dram g off => .dram g (off + i)
  | .unbacked => .unbacked
  | .hearth d off => .hearth d (off + i)
  | .host k => .host (k + i)
  | .remote k => .remote (k + i)

/-- Bytes stored in marked form at offset `off` of group `g`: the code words that they touch take the stored clinker form, and the bytes
are no longer those of a merge-buffer entry of their line (R339, R344). -/
def State.putMarked (s : State) (g off : Nat) (bs : List Byte) : State :=
  let inside := fun a => decide (off ≤ a) && decide (a < off + bs.length)
  let rest := fun (e : MergeEntry) =>
    let left := e.bytes.filter fun b => !(inside (64 * e.line + b.1))
    if left.isEmpty then none else some { e with bytes := left }
  let s1 := s.modDmc g fun d => { d with merge := d.merge.filterMap rest }
  forEach (natRange (off / 16) ((off + bs.length + 15) / 16 - off / 16)) s1 fun cw t =>
    let old := t.load (dramKey g (cw * 16)) 16
    t.putClinker g cw ((natRange 0 16).map fun i => if inside (cw * 16 + i) then bs.getD (cw * 16 + i - off) 0 else old.getD i 0)

/-- A write at a place; with the mark it is stored in marked form (R344). -/
def State.answerWrite (s : State) (m : Msg) (p : Place) : State :=
  let bs := m.data.take m.hdr.len
  let s1 := match p, m.hdr.clinker with
    | .dram g off, true => (s.markDirty g off).putMarked g off bs
    | _, _ => s.putAt p bs
  let s2 := if !m.hdr.clinker then s1
    else match p with
      | .hearth d off => s1.modHearth d fun h =>
          { h with clinker := forEach (natRange (off / 16) ((m.hdr.len + 15) / 16)) h.clinker fun k c => mapSet c k true }
      | .host k => { s1 with env := { s1.env with poisoned := s1.env.poisoned ++ [(k, m.hdr.len)] } }
      | _ => s1
  s2.respond m 0x42 [] false

def State.answer (s : State) (isRead : Bool) (m : Msg) (p : Place) : State :=
  if isRead then
    let s1 := match p with
      | .dram g off => s.noteRead g off m.hdr.len
      | .hearth d off => s.noteHearthRead d off m.hdr.len
      | _ => s
    s1.answerRead m ((natRange 0 m.hdr.len).map (shiftPlace p))
  else s.answerWrite m p

/-- The place of a page's byte for DMC `g`: its own frame, or the new one of a page that it forwards (R329, R330). -/
def State.dmcPlace (s : State) (g a : Nat) : Option Place :=
  if s.deviceEnd ≤ a then none
  else
    let p := s.page (a / 0x200000)
    let here := Place.dram p.group (0x200000 * p.frame + a % 0x200000)
    match p.state with
    | .free => none
    | .granted => some .unbacked
    | _ =>
      if p.group = g then some here
      else match mapFind s.moves (a / 0x200000) with
        | some mv => if mv.oldGroup = g then some here else none
        | none => none

/-- Whether the old home DMC holds requests to this page (R329 step 4). -/
def State.heldAt (s : State) (g a : Nat) : Bool :=
  match mapFind s.moves (a / 0x200000) with
  | some mv => decide (mv.phase = .hold) && decide (mv.oldGroup = g)
  | none => false

/-- The DMC has the keys of the page's owner; a system page needs none of a client (R434, R435). -/
def State.keyCached (s : State) (u a : Nat) : Bool :=
  let p := s.page (a / 0x200000)
  match p.state with
  | .backed => mapGet s.keys.cached (4096 * u + p.owner) false
  | _ => true

/-- A DMC answers a request whose page it may use: the accesses are counted by the die that made them (R327). -/
def State.serveDmc (s : State) (isRead : Bool) (m : Msg) (p : Place) : State :=
  (s.countLines (m.hdr.src / 4096) m.hdr.addr m.hdr.len).answer isRead m p

/-- A DMC answers a request; it waits while the page is held, or while the owner's keys are unwrapped. A request for a command is
turned away with 0x0D03 where the page is not granted to the client, as a free or a system page never is, or where it writes a page that
is not backed (R308, R318, R319). -/
def State.atDmc (s : State) (isRead : Bool) (g : Nat) (m : Msg) : State :=
  let a := m.hdr.addr
  if s.heldAt g a then
    { s with moves := mapMod s.moves (a / 0x200000) fun mv => { mv with held := mv.held ++ [(isRead, m)] } }
  else
    let mine := match s.askedBy m with
      | some r =>
        let p := s.page (a / 0x200000)
        decide (s.deviceEnd ≤ a) || decide (p.owner = r.client) && (decide (p.state = .backed) || isRead && decide (p.state = .granted))
      | none => true
    if !mine then s.refuseAccess m 0x0D03
    else match s.dmcPlace g a with
      | none => s.respond m 0x44 [] false
      | some p =>
        if s.keyCached m.hdr.dst a then s.serveDmc isRead m p
        else { s with keys := { s.keys with unwrapWait := s.keys.unwrapWait ++ [(m.hdr.dst, isRead, m)] } }

/-- Errors found in the 16 B pieces of a die's Hearth, added to what is stored there: the environment's input of a read (R314). -/
def State.addHearthErrors (s : State) (d : Nat) (errs : List (Nat × List W16)) : State :=
  s.modHearth d fun h =>
    { h with errs := forEach errs h.errs fun (k, e) m =>
        let old := mapGet m k noError
        mapPut m k ((natRange 0 10).map fun j => old.getD j 0 ^^^ e.getD j 0) noError }

/-- A WRITE to the dispatcher unit of die `d` puts a page's new entry into its translation cache (R330). -/
def State.cacheEntry (s : State) (d : Nat) (m : Msg) : State :=
  let base := s.fld Fld.MEM_MAP_BASE_map_base
  if base ≤ m.hdr.addr ∧ m.hdr.addr < base + 8 * s.variant.pages then
    { s with translations := mapSet s.translations (0x100000 * d + (m.hdr.addr - base) / 8) (leNat (m.data.take 8)) }
  else s

/-- The package whose window an address lies in (R51). -/
def windowPkg (a : Nat) : Nat := (a - remoteBase) / 0x20000000000

/-- A request for another package at a ring port: it waits while the port has not the client's keys, and then leaves in a frame under link
encryption; its requester waits on for the answer (R434, R437). Without a way, BUS_ERROR (R279; log 185). -/
def State.atPort (s : State) (isRead : Bool) (m : Msg) : State :=
  let pkg := windowPkg m.hdr.addr
  let port := s.portTo pkg
  if !s.wayBy port pkg then s.respond m 0x44 [] false
  else if s.attached m.hdr.client && !mapGet s.keys.cached (4096 * m.hdr.dst + m.hdr.client) false then
    { s with keys := { s.keys with unwrapWait := s.keys.unwrapWait ++ [(m.hdr.dst, isRead, m)] } }
  else s.sendToPackage port pkg (msgBytes { m with hdr := { m.hdr with addr := m.hdr.addr % 0x20000000000 } })

/-- The DMC unit of a code group. -/
def dmcUnit (g : Nat) : Nat := if g < 2 then unitOf hubDie (0x070 + g) else unitOf (g / 2 - 1) (0x070 + g % 2)

/-- A message of another package, from a frame (R437): a request for this package's memory goes to the DMC of its page, asked for by the
port, and a response to the unit that waits for it. The tags that the port gives are the lowest free ones (DESIGN CHOICE, log 185). -/
def State.takeMessage (s : State) (port pkg : Nat) (m : Msg) : State :=
  let me := unitOf hubDie (0x090 + port)
  if m.hdr.opcode = 0x01 ∨ m.hdr.opcode = 0x02 then
    match (natRange 0 256).find? fun t => !((s.ringPort port).asked.any fun x => decide (x.1 = t)) with
    | none => s
    | some t =>
      let dest := dmcUnit (s.page (m.hdr.addr / 0x200000)).group
      (s.modRingPort port fun x => { x with asked := x.asked ++ [(t, pkg, m.hdr.src, m.hdr.tag)] }).sendMsg
        { m with hdr := { m.hdr with src := me, dst := dest, tag := t, epoch := s.knownEpoch dest } }
  else s.sendMsg { m with hdr := { m.hdr with src := me } }

/-- The messages of a frame's payload, one after the other; what is no message of R30 that crosses packages goes to the relays as it is. -/
def State.takePayload (s : State) (port pkg : Nat) : Nat → List Byte → State
  | 0, _ => s
  | n + 1, bs =>
    let h := parseHeader bs
    if [0x01, 0x02, 0x41, 0x42, 0x43, 0x44].contains h.opcode ∧ 16 ≤ bs.length then
      let k := if h.opcode = 0x02 ∨ h.opcode = 0x41 then h.len else 0
      (s.takeMessage port pkg { hdr := h, data := (bs.drop 16).take k }).takePayload port pkg n (bs.drop (16 + k))
    else if bs.all (· = 0) then s
    else s.send (.port "ring port messages" bs)

/-- An answer to a request that a ring port has asked for another package goes back there (R437). -/
def State.answerPackage (s : State) (port : Nat) (m : Msg) : State :=
  match (s.ringPort port).asked.find? fun x => decide (x.1 = m.hdr.tag) with
  | none => s
  | some (t, pkg, src, tag) =>
    (s.modRingPort port fun x => { x with asked := x.asked.filter fun y => decide (y.1 ≠ t) }).sendToPackage port pkg
      (msgBytes { m with hdr := { m.hdr with dst := src, tag := tag } })

/-- The ring port that a unit is. -/
def portOfUnit (u : Nat) : Option Nat :=
  if u = unitOf hubDie 0x090 then some 0 else if u = unitOf hubDie 0x091 then some 1 else none

/-- A READ or WRITE reaches its responder (R30). -/
def State.atResponder (s : State) (isRead : Bool) (m : Msg) (errs : List (Nat × List W16)) : State :=
  let u := m.hdr.dst
  let d := u / 4096
  let n := u % 4096
  let s1 := s.noteRequest m
  let stale := fun (own : Nat) => decide (m.hdr.epoch ≠ s1.epoch own) || s1.epochPending own
  if d ≠ hubDie ∧ !s1.fitted d then s1.respond m 0x44 [] false
  else if n = 0x070 ∨ n = 0x071 then
    let g := if d = hubDie then n % 2 else 2 + 2 * d + n % 2
    if !s1.groupUp g then s1.respond m 0x44 [] false
    else if stale u then s1.respond m 0x43 [] false
    else (s1.addErrors g errs).atDmc isRead g m
  else if d ≠ hubDie ∧ (n = 0x050 ∨ n = 0x060 ∨ dieEngines.contains n) then
    if !s1.logicUp d then s1.respondAs m 0x43 [] false (dieUnit d)
    else if stale (epochOwner u) then s1.respond m 0x43 [] false
    else if n = 0x050 then
      let s2 := s1.addHearthErrors d errs
      match s2.place m.hdr.client m.hdr.addr with
      | .ok (.hearth d' off) => if d' = d then s2.answer isRead m (.hearth d off) else s2.respond m 0x44 [] false
      | .error x => s2.refuseAccess m x
      | _ => s2.respond m 0x44 [] false
    else if n = 0x060 ∧ !isRead then (s1.cacheEntry d m).respond m 0x42 [] false
    else s1.respond m 0x44 [] false
  else if d = hubDie ∧ n = 0x050 ∧ hostBase ≤ m.hdr.addr ∧ m.hdr.addr < addrEnd then
    s1.answer isRead m (.host (hostKey m.hdr.client m.hdr.addr))
  else if d = hubDie ∧ (n = 0x090 ∨ n = 0x091) ∧ remoteBase ≤ m.hdr.addr ∧ m.hdr.addr < remoteEnd then
    s1.atPort isRead m
  else s1.respond m 0x44 [] false

/-- READ. -/
def read (m : Msg) (errs : List (Nat × List W16)) (s : State) : State :=
  if m.hdr.opcode = 0x01 then s.atResponder true m errs else s

def execRead (m : Msg) (errs : List (Nat × List W16)) (s : State) : Host.Outcome State Fault Refusal := .next (read m errs s)

/-- WRITE. -/
def write (m : Msg) (errs : List (Nat × List W16)) (s : State) : State :=
  if m.hdr.opcode = 0x02 then s.atResponder false m errs else s

def execWrite (m : Msg) (errs : List (Nat × List W16)) (s : State) : Host.Outcome State Fault Refusal := .next (write m errs s)

/-- A client's entry of the key table can be unwrapped: no code word of it is uncorrectable or marked (R434). -/
def State.keyEntryGood (s : State) (c : Nat) : Bool :=
  (natRange (s.fld Fld.MEM_MAP_BASE_map_base + 0x100000 + 128 * c) 128).all fun a =>
    match s.sysByte 0 a with
    | .error d => decide (d ≠ 0x0D02)
    | .ok _ => true

/-- An entry that fails its check is restored from the security engine's own copy (R434). -/
def State.restoreKeyEntry (s : State) (c : Nat) : State :=
  if s.keyEntryGood c then s
  else
    let a := s.fld Fld.MEM_MAP_BASE_map_base + 0x100000 + 128 * c
    let p := s.page (a / 0x200000)
    let bs := s.keyEntry c
    forEach (cutBytes 64 (bs.length + 1) a bs) s fun (x, bs) t => t.dramWrite p.group (0x200000 * p.frame + x % 0x200000) bs

/-- KEY_UNWRAP_DONE: the security engine has unwrapped a client's entry for a DMC or a ring port, which caches up to 256 clients,
and the requests that waited for it proceed in order (R434); an entry that fails its check is restored first. Which entry a full cache
gives up is open; this model takes the lowest. -/
def keyUnwrapDone (unit client : Nat) (s : State) : State :=
  if s.attached client then
    let mine := s.keys.cached.filter fun (k, _) => decide (k / 4096 = unit)
    let full := decide (256 ≤ mine.length) && !mine.any fun (k, _) => decide (k = 4096 * unit + client)
    let kept := match full, mine with
      | true, (k, _) :: _ => mapDel s.keys.cached k
      | _, _ => s.keys.cached
    let owned := fun (w : Nat × Bool × Msg) =>
      decide (w.1 = unit) && decide ((if (portOfUnit w.1).isSome then w.2.2.hdr.client else (s.page (w.2.2.hdr.addr / 0x200000)).owner) = client)
    let now := s.keys.unwrapWait.filter owned
    let s0 := s.restoreKeyEntry client
    let s1 := { s0 with keys := { s0.keys with
      cached := mapSet kept (4096 * unit + client) true, unwrapWait := s.keys.unwrapWait.filter fun w => !owned w } }
    forEach now s1 fun (u, isRead, m) t =>
      let d := u / 4096
      if (portOfUnit u).isSome then t.atPort isRead m
      else t.atDmc isRead (if d = hubDie then u % 2 else 2 + 2 * d + u % 2) m
  else s

def execKeyUnwrapDone (unit client : Nat) (s : State) : Host.Outcome State Fault Refusal := .next (keyUnwrapDone unit client s)

/-- BELLOWS_HOLD_END: every die that was READY at the switch has answered, or holds no translations; the held requests go to the
new frame in the order in which they arrived (R329, R330). -/
def bellowsHoldEnd (page : Nat) (s : State) : State :=
  match mapFind s.moves page with
  | none => s
  | some mv =>
    match mv.phase with
    | .hold =>
      if mv.waiting.any s.logicUp then s
      else
        let s1 := { s with moves := mapSet s.moves page { mv with phase := .forwarding, since := s.tb, held := [], waiting := [] }
                           movesDone := if mv.evac then s.movesDone else s.movesDone + 1 }
        forEach mv.held s1 fun (isRead, m) t => t.atDmc isRead mv.oldGroup m
    | _ => s

def execBellowsHoldEnd (page : Nat) (s : State) : Host.Outcome State Fault Refusal := .next (bellowsHoldEnd page s)

/-! ### Responses at their requesters (R35, R41, R111, R330, R343, R345, R419) -/

def State.waitingFor (s : State) (m : Msg) : Option Waiting :=
  s.waiting.find? fun w => decide (w.src = m.hdr.dst) && decide (w.tag = m.hdr.tag)

/-- The request that a response answers waits no longer. -/
def State.answered (s : State) (m : Msg) : State :=
  { s with waiting := s.waiting.filter fun w => !(decide (w.src = m.hdr.dst) && decide (w.tag = m.hdr.tag)) }

/-- A waiting request is sent again as `m`. -/
def State.waitAgain (s : State) (w : Waiting) (m : Msg) : State :=
  { s with waiting := s.waiting.map fun (x : Waiting) =>
      if x.src = w.src ∧ x.tag = w.tag then { x with msg := m, since := s.tb, via := s.routeOf m } else x }

/-- A privileged requester reads on, 16 B from `a`, with `left` bytes to go and `got` read, of a range whose reply was marked (R344). -/
def State.readPiece (s : State) (w : Waiting) (a left : Nat) (got : List Byte) (marked : Bool) : State :=
  let m : Msg := { hdr := { w.msg.hdr with addr := a, len := 16 }, data := [] }
  let s1 := s.waitAgain w m
  { s1 with waiting := s1.waiting.map fun (x : Waiting) =>
      if x.src = w.src ∧ x.tag = w.tag then { x with left := left, got := got, marked := marked } else x }.sendMsg m

/-- READ_DATA: a response that no request waits for is discarded (R419). A privileged requester reads a range whose reply is marked
again in pieces of 16 B (R344). Data for the host completes its read, with the EP bit where some of it is marked (R343). -/
def readData (m : Msg) (s : State) : State :=
  match s.waitingFor m with
  | none => s
  | some w =>
    let got := w.got ++ m.data.take m.hdr.len
    let marked := w.marked || m.hdr.clinker
    if w.left = 0 ∧ m.hdr.clinker ∧ 16 < m.hdr.len ∧ privilegedUnit m.hdr.dst then s.readPiece w w.msg.hdr.addr m.hdr.len [] false
    else if 16 < w.left then s.readPiece w (w.msg.hdr.addr + 16) (w.left - 16) got marked
    else
      let s1 := s.answered m
      match portOfUnit m.hdr.dst with
      | some p => s1.answerPackage p m
      | none => if m.hdr.dst = unitOf hubDie 0x050 then { s1 with hostRsp := got, hostPoison := marked } else s1

def execReadData (m : Msg) (s : State) : Host.Outcome State Fault Refusal := .next (readData m s)

/-- The oldest hold that waits for die `d` waits for it no longer (R330). -/
def State.translationsDone (s : State) (d : Nat) : State :=
  let held := s.moves.filter fun (_, mv) => decide (mv.phase = .hold) && mv.waiting.contains d
  match leastBy (fun (x : Nat × Move) => x.2.since) held with
  | some (n, _) => { s with moves := mapMod s.moves n fun mv => { mv with waiting := mv.waiting.filter (· ≠ d) } }
  | none => s

/-- WRITE_ACK: the write is done; an answer to the bellows from a dispatcher ends the wait for that die (R330). -/
def writeAck (m : Msg) (s : State) : State :=
  let s1 := s.answered m
  match portOfUnit m.hdr.dst with
  | some p => s1.answerPackage p m
  | none => if m.hdr.dst = unitOf hubDie 0x030 ∧ m.hdr.src % 4096 = 0x060 then s1.translationsDone (m.hdr.src / 4096) else s1

def execWriteAck (m : Msg) (s : State) : Host.Outcome State Fault Refusal := .next (writeAck m s)

/-- RETRY: the requester learns the new epoch and tries again; a request to a Hearth, dispatcher or engine whose die's gate has
closed has its command killed and placed again (R41, R419); a die that answers the bellows so holds no translations (R330).
A request that a lost link returned is sent again on its new route (R35). -/
def retry (m : Msg) (s : State) : State :=
  let u := m.hdr.src
  if m.hdr.dst = unitOf hubDie 0x030 ∧ u % 4096 = 0x060 then (s.answered m).translationsDone (u / 4096)
  else
    match s.waitingFor m with
    | none => s
    | some w =>
      let d := w.msg.hdr.dst / 4096
      if 0x080 ≤ u % 4096 ∧ u % 4096 ≤ 0x086 then (s.waitAgain w w.msg).sendMsg w.msg
      else if u ≠ w.msg.hdr.dst then s
      else if d ≠ hubDie ∧ !s.logicUp d ∧ u % 4096 < 0x061 then
        match s.runOn? (w.src / 4096) (w.src % 4096) with
        | some r => (s.answered m).bounceRun r
        | none => s.answered m
      else
        let again : Msg := { w.msg with hdr := { w.msg.hdr with epoch := m.hdr.epoch } }
        (s.waitAgain w again).sendMsg again

def execRetry (m : Msg) (s : State) : Host.Outcome State Fault Refusal := .next (retry m s)

/-- BUS_ERROR: the command for which the requester acts fails with FAULT_DATA 0x0D02 (R343). -/
def busError (m : Msg) (s : State) : State :=
  match s.waitingFor m with
  | none => s
  | some w =>
    let s1 := s.answered m
    match portOfUnit w.src with
    | some p => s1.answerPackage p m
    | none => match s1.runOn? (w.src / 4096) (w.src % 4096) with
      | some r => (s1.failFinal r w.src 0x0D02)
      | none => s1

def execBusError (m : Msg) (s : State) : Host.Outcome State Fault Refusal := .next (busError m s)

/-- REQUEST_REISSUE: 5 µs after a link on its route went down, a request that has had no response is sent again on the new route with
`reissued` set (R35). -/
def requestReissue (src tag : Nat) (s : State) : State :=
  match s.waiting.find? fun w => decide (w.src = src) && decide (w.tag = tag) with
  | none => s
  | some w =>
    let lost := w.via.any fun u => match (s.link u).downAt with
      | some t => decide (w.since ≤ t) && s.passedUs t 5
      | none => false
    if lost then
      let again : Msg := { w.msg with hdr := { w.msg.hdr with reissued := true } }
      (s.waitAgain w again).sendMsg again
    else s

def execRequestReissue (src tag : Nat) (s : State) : Host.Outcome State Fault Refusal := .next (requestReissue src tag s)

/-- HOST_READ_COMPLETION: a host read of a running command ends; a failure fails the command (R343, R345). -/
def hostReadCompletion (e : Eng) (status : HostStatus) (s : State) : State :=
  match s.engOf e with
  | none => s
  | some (r, _) =>
    if r.tallySent then s
    else
      match status with
      | .success => s
      | .poisoned => s.failEng e 0x0D02
      | _ => s.failEng e 0x0D04

def execHostReadCompletion (e : Eng) (status : HostStatus) (s : State) : Host.Outcome State Fault Refusal :=
  .next (hostReadCompletion e status s)

/-- HOST_COMPLETION_TIMEOUT: as a host read that fails (R345, R409). -/
def hostCompletionTimeout (e : Eng) (s : State) : State :=
  match s.engOf e with
  | none => s
  | some (r, _) => if r.tallySent then s else s.failEng e 0x0D04

def execHostCompletionTimeout (e : Eng) (s : State) : Host.Outcome State Fault Refusal := .next (hostCompletionTimeout e s)

end Sys2Proof.Machine
end

