-- ==== Sys2Proof/Machine/Faults.lean ====
section
/-! DEFINITION. Start-up injection, returns to service, supervisors, the fault log's merged records and the watch port (R407, R412
to R416, R420, R421, R424 to R426, R428). -/

namespace Sys2Proof.Machine

open Sys2Proof

/-! ### Start-up injection (R412 to R414) -/

/-- A unit starts out of service (R414): it stays so until its die's logic is next reset. -/
def State.startOut (s : State) (u : Nat) : State :=
  let s1 := (s.setInService (u / 4096) (u % 4096) false).modUnit u fun x =>
    { x with outSince := some s.tb, rounds := 3, passes := 0, retestAt := s.tb }
  s1.logEvent 2 3 u 0

/-- No frame of a group is granted, and its backed pages are evacuated (R414). -/
def State.barGroup (s : State) (g : Nat) : State :=
  s.modDmc g fun d =>
    { d with barred := true
             evac := match d.evac with
               | some e => some e
               | none => some { since := s.tb, stalled := false, retired := false, owners := s.groupOwners g } }

/-- The engine of bit `i` of SAF_INJ_DIE (R413). -/
def injEngine (i : Nat) : Option Nat :=
  if i < 8 then some i
  else if i < 16 then some (i - 8)
  else if i = 16 ∨ i = 17 then some (0x010 + (i - 16))
  else if i = 18 then some 0x020
  else if i = 19 then some 0x021
  else if i = 20 ∨ i = 21 then some (0x030 + (i - 20))
  else none

/-- A link end starts out of service, and its link is down. -/
def State.startLinkOut (s : State) (u : Nat) : State :=
  let s1 := s.linkDown u
  (s1.modUnit u fun x => { x with outSince := some s.tb, rounds := 3 }).logEvent 2 3 u 0

/-- The engines of die `d` start in service, as far as they are enabled and have not been taken out (R215, R416). -/
def State.startEngines (s : State) (d : Nat) : State :=
  forEach dieEngines s fun u t =>
    if (t.unit (unitOf d u)).outSince.isSome then t
    else t.setInService d u (match enableFld d u with | some f => t.flag f | none => true)

/-- The pass map of die `d` with the consequences of its failed bits; it reads once `inj_done` is 1 (R413), and bits of links that VXP2
lacks read 1. -/
def State.dieMap (s : State) (d : Nat) (pass : W32) : State :=
  let p := pass.toNat % 2 ^ 30
  let map := if s.nDies = 1 then setBit (setBit p 26 true) 27 true else p
  let bad := fun (i : Nat) => !bit map i
  let s1 := if s.flag Fld.SAF_STATUS_inj_done then s.setFld (Fld.SAF_INJ_DIE_pass d) map else s
  let s2 := forEach (((natRange 0 22).filter bad).filterMap injEngine).eraseDups s1 fun u t => t.startOut (unitOf d u)
  let s3 := forEach ((natRange 0 2).filter fun i => bad (23 + i)) s2 fun i t => t.barGroup (2 + 2 * d + i)
  let s4 := forEach ((natRange 0 3).filter fun i => bad (25 + i)) s3 fun i t => t.startLinkOut (unitOf d (0x080 + i))
  let fail := bad 22 || bad 28 || bad 29
  (s4.modDie d fun x => { x with startFailed := fail }).notePresent d

/-- DIE_SELFTEST_DONE: the logic, released and in its self-test (`logic_state` SELFTEST), passes step 4 of R42, and with bits 22, 28 and 29 of its map set the gate opens and EPOCH_NOTICE
announces the epoch (R42, R412, R414, R417). Logic that is held out, powered down or too hot does not start. -/
def dieSelftestDone (die : Nat) (pass : W32) (s : State) : State :=
  let x := s.dieSt die
  if !s.fitted die || x.gate || x.islandFailed || x.loggedOff || x.thermalOut || s.flag (Fld.CFR_STATUS_held_out die) ||
      s.saf.damped || decide (s.logicState die ≠ logicSelftest) then s
  else
    let s1 := (s.startEngines die).dieMap die pass
    if (s1.dieSt die).startFailed then (s1.setFld (Fld.CDG_STATUS_logic_state die) logicReset).logEvent 2 3 (dieUnit die) 0
    else
      let s2 := (s1.setFld (Fld.CDG_STATUS_logic_state die) logicReady).setFlag (Fld.CPC_STATUS_logic_powered die) true
      let out := decide (0 < x.takeoutAt.length) && decide (x.since = x.takeoutAt.getLastD 0)
      let s3 := (s2.modDie die fun y => { y with gate := true, since := s.tb }).send (.epochNotice (dieUnit die) (s2.epoch (dieUnit die)))
      (if out then s3.logEvent 2 4 (dieUnit die) 0 else s3).refreshReady

def execDieSelftestDone (die : Nat) (pass : W32) (s : State) : Host.Outcome State Fault Refusal :=
  .next (dieSelftestDone die pass s)

/-! ### The header of an image (R445) -/

def imageMagic (c : Image) : Nat := leNat (c.header.take 4)
def imageVersion (c : Image) : Nat := leNat ((c.header.drop 4).take 4)
def securityVersion (c : Image) : Nat := leNat ((c.header.drop 8).take 1)
def commitVersion (c : Image) : Bool := bit (leNat ((c.header.drop 9).take 1)) 0

/-- The image of the preferred slot `p` runs, has not served within 100 ms of its start, and this start has not been counted (R447). -/
def State.servedLate (s : State) (p : Nat) : Bool :=
  s.keys.running.isSome && decide (s.fld Fld.SEC_STATUS_boot_slot = p) && s.passedUs s.keys.bootAt 100000 && !s.keys.bootLate

/-- The preferred image serves: in time, no failed start counts any more; later than 100 ms after its start, that is one (R447). -/
def State.noteServing (s : State) : State :=
  match s.keys.preferred with
  | none => s
  | some p =>
    let fails := if s.keys.bootLate then s.keys.bootFails else if s.servedLate p then min 2 (s.keys.bootFails + 1)
      else if s.fld Fld.SEC_STATUS_boot_slot = p then 0 else s.keys.bootFails
    { s with keys := { s.keys with bootFails := fails, bootLate := s.keys.bootLate || s.servedLate p } }

/-- Start-up has passed: with an image running, `state` shows SERVING, and an image that asks for it raises the fused version
(R446, R519). -/
def State.serveImage (s : State) : State :=
  match s.keys.running with
  | none => s
  | some c =>
    let s1 := s.setFld Fld.SAF_STATUS_state safServing
    let s2 := s1.noteServing
    if commitVersion c then s2.setFld Fld.SEC_STATUS_fuse_version (max (s2.fld Fld.SEC_STATUS_fuse_version) (securityVersion c))
    else s2

/-- The pass map of a die at the end of the package's start-up injection: failed die bits take its logic out, also where it has passed its
self-test already (R414). -/
def State.dieInjected (s : State) (d : Nat) (pass : W32) : State :=
  let s1 := s.dieMap d pass
  if (s1.dieSt d).startFailed ∧ (s1.dieSt d).gate then
    ((s1.killForTakeOut d ((s1.liveRuns d).map (·.client)).eraseDups).closeGate d false).logEvent 2 3 (dieUnit d) 0
  else s1

/-- INJECTION_DONE: the pass maps become valid and `state` shows SERVING, or START_FAILED with FAULT_N low (R412 to R414). -/
def injectionDone (hub : W32) (dies : List W32) (s : State) : State :=
  if s.fld Fld.SAF_STATUS_state ≠ safStarting then s
  else
    let n := s.nDies
    let map := forEach (natRange n (7 - n)) (hub.toNat % 2 ^ 31) fun d m => setBit m (11 + d) true
    let bad := fun (i : Nat) => !bit map i
    let s1 := (s.setFld Fld.SAF_INJ_HUB_pass map).setFlag Fld.SAF_STATUS_inj_done true
    let s2 := forEach (natRange 0 n) s1 fun d t => t.dieInjected d (dies.getD d 0)
    let s2 := s2.setFlag Fld.SEC_STATUS_rng_ok (!bad 26)
    let s3 := forEach ((natRange 0 2).filter fun i => bad (8 + i)) s2 fun g t => t.barGroup g
    let s4 := forEach ((natRange 0 n).filter fun d => bad (11 + d)) s3 fun d t => t.startLinkOut (unitOf hubDie (0x080 + d))
    let outs := (if bad 18 then [0x090] else []) ++ (if bad 19 then [0x091] else []) ++
      (if bad 21 || bad 22 then [0x010] else []) ++ (if bad 24 then [0x020] else [])
    let s5 := forEach outs s4 fun u t => t.startOut (unitOf hubDie u)
    let fail := (bad 0 && bad 1) || (natRange 2 6).any bad || bad 29
    let s6 := (s5.setFlag Fld.SAF_STATUS_primary (bad 0)).setFlag Fld.SAF_STATUS_standby_ok (!bad 0 && !bad 1)
    let s7 := { s6 with saf := { s6.saf with aliveAt := s.tb, kickedAt := none, missedP := 0, missedS := 0, testing := none } }
    if fail then (s7.setFld Fld.SAF_STATUS_state safFailed).setFlag Fld.SAF_STATUS_fault_n_low true
    else s7.serveImage

def execInjectionDone (hub : W32) (dies : List W32) (s : State) : Host.Outcome State Fault Refusal :=
  .next (injectionDone hub dies s)

/-- ISLAND_FAILURE: the die is taken out wholly, its links go down, and its groups become unreachable (R44, R409). -/
def islandFailure (die : Nat) (s : State) : State :=
  if !s.fitted die || (s.dieSt die).islandFailed then s
  else
    let s1 := s.modDie die fun x => { x with islandFailed := true, island := false }
    let s2 := (s1.logEvent 2 3 (unitOf hubDie (0x080 + die)) 0).setFlag (Fld.CDG_STATUS_island_up die) false
    let s3 := if (s2.dieSt die).gate then s2.takeOutDie die 6 true else s2.setFld (Fld.CDG_STATUS_logic_state die) logicOff
    let s4 := forEach [0x080, 0x081, 0x082] s3 fun e t => t.linkDown (unitOf die e)
    let s5 := forEach s4.moves s4 fun (n, mv) t =>
      if mv.phase = .copying ∧ (groupDie mv.oldGroup = die ∨ groupDie mv.newGroup = die) then t.abandonMove n else t
    (s5.notePresent die).refreshReady

def execIslandFailure (die : Nat) (s : State) : Host.Outcome State Fault Refusal := .next (islandFailure die s)

/-- ENGINE_RETEST: the test of an engine that was taken out, 100 ms after its reset and again 100 ms later, then a further round
every 10 s; two passes return it to service, and after three failed rounds it stays out (R416, R526). -/
def engineRetest (unit : Nat) (pass : Bool) (s : State) : State :=
  let d := unit / 4096
  let x := s.unit unit
  match x.outSince with
  | none => s
  | some _ =>
    let wait := if x.rounds = 0 ∨ 0 < x.passes then 100000 else 10000000
    let engine := (decide (d < s.nDies) && dieEngines.contains (unit % 4096)) || decide (unit = unitOf hubDie 0x010)
    if !engine || !s.logicUp d || decide (3 ≤ x.rounds) || !s.passedUs x.retestAt wait then s
    else if !pass then s.modUnit unit fun y => { y with rounds := y.rounds + 1, passes := 0, retestAt := s.tb }
    else if x.passes = 0 then s.modUnit unit fun y => { y with passes := 1, retestAt := s.tb }
    else
      let s1 := s.modUnit unit fun y => { y with outSince := none, detectedAt := none, passes := 0, rounds := 0 }
      let on := match enableFld d (unit % 4096) with
        | some f => s.flag f
        | none => true
      (((s1.setInService d (unit % 4096) on).advanceEpoch unit).logEvent 2 4 unit 0).refreshReady

def execEngineRetest (unit : Nat) (pass : Bool) (s : State) : Host.Outcome State Fault Refusal := .next (engineRetest unit pass s)

/-! ### The fault log (R407) and the escalation pulse (R125, R409) -/

/-- LOG_MERGE_FLUSH: the record of corrected events of one detail from one unit is written 1 ms after its first event. -/
def logMergeFlush (unit detail : Nat) (s : State) : State :=
  match s.saf.merges.find? fun m => decide (m.unit = unit) && decide (m.detail = detail) with
  | none => s
  | some m =>
    if s.passedUs m.tb 1000 then s.writeMerge m else s

def execLogMergeFlush (unit detail : Nat) (s : State) : Host.Outcome State Fault Refusal := .next (logMergeFlush unit detail s)

/-- FAULT_N is held low by the damper and by a failed start (R414, R423). -/
def State.faultHeld (s : State) : Bool := s.saf.damped || decide (s.fld Fld.SAF_STATUS_state = safFailed)

/-- ESCALATE_PULSE_END: the pulse of FAULT_N for an escalation ends after `escalate_pulse_us` (R409, R428). -/
def escalatePulseEnd (s : State) : State :=
  match s.saf.pulseSince with
  | none => s
  | some t =>
    if s.passedUs t (s.fld Fld.SAF_CTRL_escalate_pulse_us) then
      { s.setFlag Fld.SAF_STATUS_fault_n_low s.faultHeld with saf := { s.saf with pulseSince := none } }
    else s

def execEscalatePulseEnd (s : State) : Host.Outcome State Fault Refusal := .next (escalatePulseEnd s)

/-! ### Supervisors (R420, R421) -/

/-- The core that is primary: 0 SUP.P, 1 SUP.S. -/
def State.primaryCore (s : State) : Nat := s.fld Fld.SAF_STATUS_primary

def coreUnit (core : Nat) : Nat := unitOf hubDie (0x002 + core)

/-- The failover sequence of R421; without a standby the damper acts (R422). -/
def State.failOver (s : State) : State :=
  if s.saf.damped then s
  else if !s.flag Fld.SAF_STATUS_standby_ok then s.damp 3
  else
    let old := s.primaryCore
    let s1 := (s.advanceEpoch unitSched).advanceEpoch unitTally
    let s2 := s1.checkBudgets.setFld Fld.SAF_STATUS_primary (1 - old)
    let s3 := (s2.setFlag Fld.SAF_STATUS_standby_ok false).logEvent 2 5 (coreUnit old) 0
    { s3 with saf := { s3.saf with testing := some old } }

/-- FAILOVER: the primary shows a lockstep mismatch. -/
def failover (s : State) : State := s.failOver

def execFailover (s : State) : Host.Outcome State Fault Refusal := .next (failover s)

/-- The standby is reset and tested while `standby_ok` reads 0 (R420). -/
def State.standbyOut (s : State) : State :=
  let core := 1 - s.primaryCore
  let s1 := (s.setFlag Fld.SAF_STATUS_standby_ok false).logEvent 2 3 (coreUnit core) 0
  { s1 with saf := { s1.saf with testing := some core } }

/-- The test of the core held in reset ends: on a pass it is the standby, and its heartbeats count anew. -/
def State.coreTested (s : State) (pass : Bool) : State :=
  match s.saf.testing with
  | none => s
  | some core =>
    let saf := { s.saf with
      testing := none
      missedP := if pass ∧ core = 0 then 0 else s.saf.missedP
      missedS := if pass ∧ core ≠ 0 then 0 else s.saf.missedS }
    { s with saf := saf }.setFlag Fld.SAF_STATUS_standby_ok pass

/-- FAILOVER_STANDBY_TEST_DONE: the former primary has run its injection and test (R421 step 6). -/
def failoverStandbyTestDone (pass : Bool) (s : State) : State := s.coreTested pass

def execFailoverStandbyTestDone (pass : Bool) (s : State) : Host.Outcome State Fault Refusal :=
  .next (failoverStandbyTestDone pass s)

/-- STANDBY_LOCKSTEP_MISMATCH (R420). -/
def standbyLockstepMismatch (s : State) : State := if s.flag Fld.SAF_STATUS_standby_ok then s.standbyOut else s

def execStandbyLockstepMismatch (s : State) : Host.Outcome State Fault Refusal := .next (standbyLockstepMismatch s)

/-- STANDBY_TEST_DONE (R420). -/
def standbyTestDone (pass : Bool) (s : State) : State := s.coreTested pass

def execStandbyTestDone (pass : Bool) (s : State) : Host.Outcome State Fault Refusal := .next (standbyTestDone pass s)

/-- SUPERVISOR_HEARTBEAT: a heartbeat of core 0 (SUP.P) or 1 (SUP.S) falls due and arrives or is missed; the damper acts when
neither core has given one for 15 µs, and three misses of one core take it out (R420 to R422). -/
def supervisorHeartbeat (core : Nat) (received : Bool) (s : State) : State :=
  if 2 ≤ core then s
  else if received then
    if core = 0 then { s with saf := { s.saf with missedP := 0, beatP := s.tb } }
    else { s with saf := { s.saf with missedS := 0, beatS := s.tb } }
  else
    let s1 := if core = 0 then { s with saf := { s.saf with missedP := s.saf.missedP + 1 } }
      else { s with saf := { s.saf with missedS := s.saf.missedS + 1 } }
    if 3 ≤ s1.saf.missedP ∧ 3 ≤ s1.saf.missedS then s1.damp 2
    else if (if core = 0 then s1.saf.missedP else s1.saf.missedS) < 3 then s1
    else if core = s1.primaryCore then s1.failOver
    else if s1.flag Fld.SAF_STATUS_standby_ok then s1.standbyOut
    else s1

def execSupervisorHeartbeat (core : Nat) (received : Bool) (s : State) : Host.Outcome State Fault Refusal :=
  .next (supervisorHeartbeat core received s)

/-! ### The watch port (R424 to R426) -/

/-- One bit of the CRC-8 with polynomial 0x2F, most significant bit first. -/
def crc8Shift : Nat → Byte → Byte
  | 0, c => c
  | n + 1, c => crc8Shift n (if c.msb then (c <<< 1) ^^^ 0x2F else c <<< 1)

/-- The CRC-8 of a watch frame (R424). -/
def crc8 (bs : List Byte) : Byte := bs.foldl (fun c b => crc8Shift 8 (c ^^^ b)) 0xFF ^^^ 0xFF

/-- The data of a STATUS response (R425). -/
def State.statusWord (s : State) : Nat :=
  s.fld Fld.SAF_STATUS_state + s.fld Fld.SAF_STATUS_fault_n_low * 4 + s.fld Fld.SAF_STATUS_standby_ok * 8 +
    b2n s.saf.escalatedSince * 16 + s.usSince s.saf.aliveAt / 1000 % 256 * 256

/-- The response that the next frame shifts out: its byte 0 and its data. -/
def State.watchResponse (s : State) : Nat × Nat := s.saf.watchNext.getD (0x01, s.statusWord)

/-- The port shifts out the response to the previous frame. -/
def State.watchShift (s : State) : State :=
  let (b0, data) := s.watchResponse
  let bytes := leBytes b0 1 ++ leBytes (data / 256) 1 ++ leBytes (data % 256) 1
  let s1 := s.send (.port "WATCH" (bytes ++ [crc8 bytes]))
  if b0 = 0x01 then { s1 with saf := { s1.saf with lastStatus := some data } } else s1

def State.watchSet (s : State) (b0 data : Nat) : State := { s with saf := { s.saf with watchNext := some (b0, data) } }

/-- An error response; its data is open. -/
def State.watchError (s : State) (b0 : Nat) : State :=
  let (s1, w) := s.drawWord
  s1.watchSet b0 (w % 65536)

/-- WATCH_STATUS: the data sent is ignored. The watch port answers in RUN and IDLE only (R455). -/
def watchStatus (_data : Nat) (s : State) : State :=
  if !s.awake then s
  else
    let s1 := s.watchShift
    let s2 := s1.watchSet 0x01 s1.statusWord
    { s2 with saf := { s2.saf with escalatedSince := false } }

def execWatchStatus (data : Nat) (s : State) : Host.Outcome State Fault Refusal := .next (watchStatus data s)

/-- WATCH_CAUSE: the data sent is ignored. -/
def watchCause (_data : Nat) (s : State) : State :=
  if !s.awake then s
  else
    let s1 := s.watchShift
    s1.watchSet 0x02 (s1.fld Fld.SAF_STATUS_damper_cause + min s1.saf.escalations 255 * 256)

def execWatchCause (data : Nat) (s : State) : Host.Outcome State Fault Refusal := .next (watchCause data s)

/-- WATCH_KICK: accepted with the complement of the last STATUS response that earlier frames shifted out. -/
def watchKick (data : Nat) (s : State) : State :=
  let s1 := s.watchShift
  if !s.awake then s
  else if s.saf.lastStatus = some (65535 - data % 65536) then
    let s2 := s1.watchSet 0x03 0
    { s2 with saf := { s2.saf with kickedAt := some s.tb } }
  else s1.watchError 0xE3

def execWatchKick (data : Nat) (s : State) : Host.Outcome State Fault Refusal := .next (watchKick data s)

/-- WATCH_SAFE: with data 0xA55A the damper acts. -/
def watchSafe (data : Nat) (s : State) : State :=
  let s1 := s.watchShift
  if !s.awake then s
  else if data % 65536 = 0xA55A then (s1.watchSet 0x5A 0).damp 5 else s1.watchError 0xE3

def execWatchSafe (data : Nat) (s : State) : Host.Outcome State Fault Refusal := .next (watchSafe data s)

/-- WATCH_FRAME_REJECT: a frame with a bad CRC or length is ignored and counted. -/
def watchFrameReject (s : State) : State :=
  if !s.awake then s
  else ((s.watchShift.addFld Fld.SAF_WATCH_bad_frames 1).logRecorded (unitOf hubDie 0x002) 0).watchError 0xE1

def execWatchFrameReject (s : State) : Host.Outcome State Fault Refusal := .next (watchFrameReject s)

/-- WATCH_UNKNOWN_COMMAND. -/
def watchUnknownCommand (command : Nat) (s : State) : State :=
  if !s.awake ∨ [0x01, 0x02, 0x03, 0x5A].contains (command % 256) then s else s.watchShift.watchError 0xE2

def execWatchUnknownCommand (command : Nat) (s : State) : Host.Outcome State Fault Refusal :=
  .next (watchUnknownCommand command s)

/-- WATCH_TIMEOUT: an interval between accepted KICKs longer than `watch_timeout_ms` (R426). -/
def watchTimeout (s : State) : State :=
  let ms := s.fld Fld.SAF_WATCH_watch_timeout_ms
  match s.saf.kickedAt with
  | none => s
  | some t => if ms ≠ 0 ∧ 38400 * ms < s.tb - t then s.damp 4 else s

def execWatchTimeout (s : State) : Host.Outcome State Fault Refusal := .next (watchTimeout s)

end Sys2Proof.Machine
end

