-- ==== Sys2Proof/Machine/Image.lean ====
section
/-! DEFINITION. The arithmetic of the image pipeline (R359, R361 to R368): lines as received and as repaired, the stages in their order,
the statistics, and the outputs. Values are exact, as fractions of full scale, up to the rounding of what is written (DESIGN CHOICE,
log 162); what the spec gives no arithmetic for is a free value (`Config.imageStage`). -/

namespace Sys2Proof.Machine

def isRaw (dt : Nat) : Bool := decide (0x2A ≤ dt) && decide (dt ≤ 0x2F)

def CamFrame.layer (f : CamFrame) (l : Nat) : CamLayer := f.layers.getD l {}

/-! ### Lines (R350, R351, R368) -/

def dtBits (dt : Nat) : Nat :=
  if dt = 0x2A then 8 else if dt = 0x2B then 10 else if dt = 0x2C then 12 else if dt = 0x2D then 14 else if dt = 0x2E then 16 else 20

/-- Pixels and bytes of one pixel group of a packed format. -/
def dtGroup (dt : Nat) : Nat × Nat :=
  if dt = 0x1E then (2, 4) else if dt = 0x24 then (1, 3) else if dt = 0x2A then (1, 1) else if dt = 0x2B then (4, 5)
  else if dt = 0x2C then (2, 3) else if dt = 0x2D then (4, 7) else if dt = 0x2E then (1, 2) else (2, 5)

/-- Whole pixels of a line (R368). -/
def linePixels (dt : Nat) (payload : List Byte) : Nat := payload.length / (dtGroup dt).2 * (dtGroup dt).1

/-- Pixel `i` of a RAW line in the packed formats of CSI-2: the high bytes of a group first, then the low bits (PRESUMED). -/
def rawPixel (dt : Nat) (b : List Byte) (i : Nat) : Nat :=
  let at_ := fun (k : Nat) => (b.getD k 0).toNat
  if dt = 0x2A then at_ i
  else if dt = 0x2B then at_ (i / 4 * 5 + i % 4) * 4 + bits (at_ (i / 4 * 5 + 4)) (2 * (i % 4)) 2
  else if dt = 0x2C then at_ (i / 2 * 3 + i % 2) * 16 + bits (at_ (i / 2 * 3 + 2)) (4 * (i % 2)) 4
  else if dt = 0x2D then
    let o := i / 4 * 7
    at_ (o + i % 4) * 64 + bits (at_ (o + 4) + at_ (o + 5) * 256 + 65536 * at_ (o + 6)) (6 * (i % 4)) 6
  else if dt = 0x2E then at_ (2 * i) * 256 + at_ (2 * i + 1)
  else
    let o := i / 2 * 5
    4096 * at_ (o + 2 * (i % 2)) + at_ (o + 2 * (i % 2) + 1) * 16 + bits (at_ (o + 4)) (4 * (i % 2)) 4

/-- The black pedestal of a Bayer position (R364, R368): 0 R, 1 Gr, 2 Gb, 3 B. -/
def blackOf (tune : Option (List Byte)) (dt pos : Nat) : Nat :=
  match tune with
  | some t => atOff t (2 * pos) 2
  | none => 64 * 2 ^ dtBits dt / 1024

/-- The Bayer position of a pixel for an order (R355): 0 RGGB, 1 GRBG, 2 GBRG, 3 BGGR. -/
def bayerPos (order x y : Nat) : Nat := Nat.xor (x % 2 + y % 2 * 2) order

/-- Pixel `x` of line `y` of a layer's RAW data as R368 repairs it, by the frame's fuel of earlier lines. -/
def CamLayer.pixel (l : CamLayer) (padLast : Bool) (dt order : Nat) (tune : Option (List Byte)) (x : Nat) : Nat → Nat
  | 0 =>
    match l.lines[0]? with
    | some (b, false) =>
      let n := linePixels dt b
      if x < n then rawPixel dt b x
      else if padLast ∧ (n - 1 + x) % 2 < n then rawPixel dt b (n - 1 - (n - 1 + x) % 2)
      else blackOf tune dt (bayerPos order x 0)
    | _ => blackOf tune dt (bayerPos order x 0)
  | y + 1 =>
    let before := if padLast then l.pixel padLast dt order tune x y else blackOf tune dt (bayerPos order x (y + 1))
    match l.lines[y + 1]? with
    | some (b, false) =>
      let n := linePixels dt b
      if x < n then rawPixel dt b x
      else if padLast ∧ (n - 1 + x) % 2 < n then rawPixel dt b (n - 1 - (n - 1 + x) % 2)
      else blackOf tune dt (bayerPos order x (y + 1))
    | _ => before

/-- The three components of pixel `i` of a line that is not RAW: Y, Cb, Cr of a YUV 4:2:2 stream in the order U, Y, V, Y, or R, G, B of an
RGB888 stream in the order B, G, R (PRESUMED, log 163). -/
def cellOf (dt : Nat) (b : List Byte) (i : Nat) : Nat × Nat × Nat :=
  let at_ := fun (k : Nat) => (b.getD k 0).toNat
  if dt = 0x1E then (at_ (2 * i + 1), at_ (i / 2 * 4), at_ (i / 2 * 4 + 2)) else (at_ (3 * i + 2), at_ (3 * i + 1), at_ (3 * i))

/-- Black of a stream that is not RAW (R368). -/
def blackCell (dt : Nat) : Nat × Nat × Nat := if dt = 0x1E then (16, 128, 128) else (0, 0, 0)

/-- Pixel `x` of line `y` of a layer that is not RAW, as R368 repairs it. -/
def CamLayer.cell (l : CamLayer) (padLast : Bool) (dt x : Nat) : Nat → Nat × Nat × Nat
  | 0 => match l.lines[0]? with
    | some (b, false) =>
      let n := linePixels dt b
      if x < n then cellOf dt b x else if padLast ∧ 1 ≤ n then cellOf dt b (n - 1) else blackCell dt
    | _ => blackCell dt
  | y + 1 =>
    let before := if padLast then l.cell padLast dt x y else blackCell dt
    match l.lines[y + 1]? with
    | some (b, false) =>
      let n := linePixels dt b
      if x < n then cellOf dt b x else if padLast ∧ 1 ≤ n then cellOf dt b (n - 1) else blackCell dt
    | _ => before

/-! ### Numbers -/

def clamp01 (v : Rat) : Rat := max 0 (min v 1)

/-- A value rounded to the nearest whole number, halves up. -/
def roundHalf (v : Rat) : Nat := (v + 1 / 2).floor.toNat

/-- A value as a byte. -/
def toByte (v : Rat) : Nat := roundHalf (clamp01 v * 255)

def sumRat (xs : List Rat) : Rat := xs.foldl (· + ·) 0

/-- The greatest `r` below 2^`k` + `r0` with r^12 ≤ `n`, bit by bit. -/
def root12 (n : Nat) : Nat → Nat → Nat
  | 0, r => r
  | k + 1, r => root12 n k (if (r + 2 ^ k) ^ 12 ≤ n then r + 2 ^ k else r)

/-- Point `i` of the sRGB transfer curve on 257 points of 16 bits (R364): x^(5/12) by its twelfth root. -/
def srgbPoint (i : Nat) : Nat :=
  if i = 0 then 0 else roundHalf (65535 * ((1055 / 1000 : Rat) * root12 (i ^ 5 * 2 ^ 344) 33 0 / 2 ^ 32 - 55 / 1000))

/-! ### A frame and its tuning set (R363, R364) -/

/-- What the pipeline knows of a frame: its geometry, its configured layers, the white-balance sums of the previous frame where
`awb_auto` uses them, its raw values by layer, column and line, and the lines that a lane could not read. -/
structure Img where
  w : Nat
  h : Nat
  dt : Nat
  order : Nat
  padLast : Bool
  layers : Nat
  frame : CamFrame
  awb : Option (Nat × Nat × Nat)
  raw : Nat → Nat → Nat → Nat
  lost : Nat → Nat → Bool

/-- A 16-bit field of the tuning set, or the value of the default set. -/
def Img.tune16 (g : Img) (o : Nat) (dflt : Rat) (unit : Nat) : Rat :=
  match g.frame.tune with
  | some t => (atOff t o 2 : Rat) / unit
  | none => dflt

/-- `denoise` or `sharpen`. -/
def Img.strength (g : Img) (o : Nat) : Nat := match g.frame.tune with | some t => atOff t o 1 | none => 0

/-- Columns and lines, line by line. -/
def Img.pixels (g : Img) : List (Nat × Nat) := (natRange 0 (g.w * g.h)).map fun k => (k % g.w, k / g.w)

def Img.pos (g : Img) (x y : Nat) : Nat := bayerPos g.order x y

/-! ### Stages 1 to 4: black level, defective pixels, lens shading, HDR merge -/

/-- Stage 1 (R364): the pedestal subtracted, as a fraction of full scale. -/
def Img.level (g : Img) (l x y : Nat) : Rat :=
  ((g.raw l x y - blackOf g.frame.tune g.dt (g.pos x y) : Nat) : Rat) / 2 ^ dtBits g.dt

/-- The colour of a Bayer position: red, green or blue. -/
def colourOf (pos : Nat) : Nat := if pos = 0 then 0 else if pos = 3 then 2 else 1

/-- The median of values, the mean of the middle two where their number is even; none of no value. -/
def medianOf (xs : List Rat) : Option Rat :=
  let ys := xs.mergeSort fun a b => decide (a ≤ b)
  match ys[(ys.length - 1) / 2]?, ys[ys.length / 2]? with
  | some a, some b => some ((a + b) / 2)
  | _, _ => none

/-- The values of the neighbours of a pixel that have its colour. -/
def Img.sameColour (g : Img) (p : Array Rat) (k : Nat) : List Rat :=
  let c := fun (i : Nat) => colourOf (g.pos (i % g.w) (i / g.w))
  ((Config.neighbours g.w g.h k).filter fun i => decide (c i = c k)).filterMap fun i => p[i]?

/-- Stage 2 (R364): a pixel that deviates by more than `defect_thr` from the median of its same-colour neighbours becomes that median, and
every other pixel stays. Which neighbours these are is open, and a deviation is the difference from their median, in input code units
(DESIGN CHOICE, log 85). -/
def Img.defects (g : Img) (p : List Rat) : List Rat :=
  match g.frame.tune with
  | none => p
  | some t =>
    let thr := atOff t 8 2
    if thr = 0 then p
    else
      let a := p.toArray
      p.mapIdx fun k v =>
        match medianOf (g.sameColour a k) with
        | some m => if (thr : Rat) / 2 ^ dtBits g.dt < max (v - m) (m - v) then m else v
        | none => v

/-- The shading gain of a pixel (R364): bilinear between the points of the 17 × 17 grid laid over the frame. -/
def Img.shade (g : Img) (x y : Nat) : Rat :=
  let i := 16 * x / g.w
  let j := 16 * y / g.h
  let fx : Rat := ((16 * x % g.w : Nat) : Rat) / g.w
  let fy : Rat := ((16 * y % g.h : Nat) : Rat) / g.h
  let at_ := fun (a b : Nat) => g.tune16 (1024 + 8 * (17 * b + a) + 2 * g.pos x y) 1 4096
  (at_ i j * (1 - fx) + at_ (i + 1) j * fx) * (1 - fy) + (at_ i (j + 1) * (1 - fx) + at_ (i + 1) (j + 1) * fx) * fy

/-- A layer's values after stage 3. -/
def Img.layerPlane (g : Img) (l : Nat) : List Rat :=
  let p := g.defects (g.pixels.map fun (x, y) => g.level l x y)
  (p.zip g.pixels).map fun (v, x, y) => v * g.shade x y

/-- `hdr_ratio` of a layer, 1.0 for layer 0 (R364, R367). -/
def Img.ratio (g : Img) (l : Nat) : Rat := if l = 0 then 1 else g.tune16 (36 + 2 * l) (if l = 1 then 16 else 256) 256

/-- The weight of a layer whose value is `v` (R367): it falls linearly from 1 to 0 between the two knee points. -/
def Img.weight (g : Img) (v : Rat) : Rat :=
  let a := g.tune16 42 (3 / 4) 65536
  let b := g.tune16 44 (19 / 20) 65536
  if v ≤ a then 1 else if b ≤ v then 0 else (b - v) / (b - a)

/-- The merge of a pixel (R367), from its included layers in ascending order with their values: the weighted mean of the scaled values, or
the scaled value of the highest layer where every weight is 0. -/
def Img.merge (g : Img) (vals : List (Nat × Rat)) : Rat :=
  let total := sumRat (vals.map fun (_, v) => g.weight v)
  if total = 0 then match vals.getLast? with
    | some (l, v) => v * g.ratio l
    | none => 0
  else sumRat (vals.map fun (l, v) => g.weight v * (v * g.ratio l)) / total

/-- The layers included for line `y` (R366, R367). -/
def Img.included (g : Img) (y : Nat) : List Nat :=
  (natRange 0 g.layers).filter fun l => match (g.frame.layer l).cut with
    | some k => decide (y < k)
    | none => true

/-- The merged values, as they pass tap 5; a stream that is not RAW enters behind it (R362). -/
def Img.tap5 (g : Img) : List Rat :=
  if !isRaw g.dt then []
  else
    let ps := (natRange 0 g.layers).map g.layerPlane
    g.pixels.map fun (x, y) => g.merge ((g.included y).map fun l => (l, (ps.getD l []).getD (y * g.w + x) 0))

/-! ### Statistics at tap 5 (R365) -/

/-- A value at tap 5 scaled to 16 bits, the scaled full scale of the highest configured layer being the top (DESIGN CHOICE, log 162). -/
def Img.scaled16 (g : Img) (v : Rat) : Nat := min 65535 (v * 65536 / g.ratio (g.layers - 1)).floor.toNat

/-- The sum of one colour (0 R, 1 G, 2 B) over the pixels of a range of columns and lines. -/
def Img.sumIn (g : Img) (tap : List Rat) (x0 x1 y0 y1 colour : Nat) : Nat :=
  (((natRange y0 (y1 - y0)).flatMap fun y => (natRange x0 (x1 - x0)).map fun x => (x, y)).map fun (x, y) =>
    if colourOf (g.pos x y) = colour then g.scaled16 (tap.getD (y * g.w + x) 0) else 0).foldl (· + ·) 0

def Img.zone (g : Img) (tap : List Rat) (z colour : Nat) : Nat :=
  let i := z % 32
  let j := z / 32
  if tap.isEmpty then 0
  else min (2 ^ 32 - 1) (g.sumIn tap (i * g.w / 32) ((i + 1) * g.w / 32) (j * g.h / 16) ((j + 1) * g.h / 16) colour)

/-- ΣR, ΣG and ΣB over all zones. -/
def Img.zoneTotals (g : Img) (tap : List Rat) : Nat × Nat × Nat :=
  let total := fun (k : Nat) => ((natRange 0 512).map fun z => g.zone tap z k).foldl (· + ·) 0
  (total 0, total 1, total 2)

/-! ### Stages 6 to 11: white balance, demosaic, colour matrix, denoise, tone curve, sharpen -/

/-- A gain of `awb_auto` (R365): ΣG over another colour's sum, from 0.25 to 8.0. -/
def awbGain (green other : Nat) : Rat := if other = 0 then 8 else max (1 / 4) (min ((green : Rat) / other) 8)

/-- The white-balance gain of a Bayer position (R364, R365). -/
def Img.balance (g : Img) (pos : Nat) : Rat :=
  match g.awb with
  | some (r, gr, b) => if pos = 0 then awbGain gr r else if pos = 3 then awbGain gr b else 1
  | none => g.tune16 (12 + 2 * pos) 1 4096

/-- A pixel's red, green and blue. -/
structure Rgb where
  r : Rat
  g : Rat
  b : Rat

/-- Y, Cb and Cr of a BT.709 pixel in full range, the chroma centred on 1/2, and back from the studio range of a YUV stream (R362). -/
def Rgb.luma (p : Rgb) : Rat := 2126 / 10000 * p.r + 7152 / 10000 * p.g + 722 / 10000 * p.b
def Rgb.cb (p : Rgb) : Rat := (p.b - p.luma) / (18556 / 10000) + 1 / 2
def Rgb.cr (p : Rgb) : Rat := (p.r - p.luma) / (15748 / 10000) + 1 / 2
def ofYuv (c : Nat × Nat × Nat) : Rgb :=
  let y : Rat := ((c.1 : Rat) - 16) / 219
  let cb : Rat := ((c.2.1 : Rat) - 128) / 224
  let cr : Rat := ((c.2.2 : Rat) - 128) / 224
  let r := y + 15748 / 10000 * cr
  let b := y + 18556 / 10000 * cb
  { r := r, g := (y - 2126 / 10000 * r - 722 / 10000 * b) / (7152 / 10000), b := b }

/-- The pixels that enter the colour matrix: balanced and demosaiced (free values), or those of a YUV or RGB stream (R362). -/
def Img.enter (g : Img) (tap : List Rat) : List Rgb :=
  if isRaw g.dt then
    let p := (tap.zip g.pixels).map fun (v, x, y) => v * g.balance (g.pos x y)
    let full := Config.imageStage 7 [g.w, g.h, g.order] p
    (natRange 0 (g.w * g.h)).map fun k => ⟨full (3 * k), full (3 * k + 1), full (3 * k + 2)⟩
  else g.pixels.map fun (x, y) =>
    let c := if g.lost g.frame.lead y then blackCell g.dt else (g.frame.layer g.frame.lead).cell g.padLast g.dt x y
    if g.dt = 0x1E then ofYuv c else ⟨(c.1 : Rat) / 255, (c.2.1 : Rat) / 255, (c.2.2 : Rat) / 255⟩

/-- An entry of the colour matrix, S3.12, row-major (R364). -/
def Img.ccm (g : Img) (row col : Nat) : Rat :=
  match g.frame.tune with
  | some t => (signed (atOff t (20 + 2 * (3 * row + col)) 2) 16 : Rat) / 4096
  | none => if row = col then 1 else 0

def Img.matrix (g : Img) (p : Rgb) : Rgb :=
  let row := fun (k : Nat) => g.ccm k 0 * p.r + g.ccm k 1 * p.g + g.ccm k 2 * p.b
  ⟨row 0, row 1, row 2⟩

/-- Stage 9 or 11 on whole planes: nothing at strength 0, else open (R364). -/
def Img.filtered (g : Img) (stage strength : Nat) (ps : List Rgb) : List Rgb :=
  if strength = 0 then ps
  else
    let full := Config.imageStage stage [strength, g.w, g.h] (ps.flatMap fun p => [p.r, p.g, p.b])
    (natRange 0 ps.length).map fun k => ⟨full (3 * k), full (3 * k + 1), full (3 * k + 2)⟩

/-- Point `i` of the tone curve (R364). -/
def Img.tonePoint (g : Img) (i : Nat) : Rat := match g.frame.tune with | some t => atOff t (64 + 2 * i) 2 | none => srgbPoint i

/-- The tone curve: input `i` × 256 maps to point `i`, linear between points (R364). -/
def Img.tone (g : Img) (v : Rat) : Rat :=
  let t := clamp01 v * 65536
  let i := min 255 (t / 256).floor.toNat
  let f := t / 256 - i
  (g.tonePoint i * (1 - f) + g.tonePoint (i + 1) * f) / 65535

def Img.toned (g : Img) (p : Rgb) : Rgb := ⟨g.tone p.r, g.tone p.g, g.tone p.b⟩

/-! ### Stages 12 and 13: conversion, scaling and formatting (R359, R362, R365) -/

/-- What the outputs are made of: the pixels after stage 11 with their luma and chroma. -/
structure Planes where
  rgb : List Rgb
  y : List Rat
  cb : List Rat
  cr : List Rat

/-- Stages 6 to 12 of a frame whose values at tap 5 are `tap`. -/
def Img.planes (g : Img) (tap : List Rat) : Planes :=
  let a := g.filtered 9 (g.strength 10) ((g.enter tap).map g.matrix)
  let b := g.filtered 11 (g.strength 11) (a.map g.toned)
  { rgb := b, y := b.map Rgb.luma, cb := b.map Rgb.cb, cr := b.map Rgb.cr }

/-- How much of cell `k` lies between `lo` and `hi`. -/
def overlap (k : Nat) (lo hi : Rat) : Rat := max 0 (min ((k : Rat) + 1) hi - max (k : Rat) lo)

/-- Cell (`i`, `j`) of a plane scaled to `w1` × `h1`: the area-weighted average of the source (R362). -/
def Img.area (g : Img) (p : List Rat) (w1 h1 i j : Nat) : Rat :=
  let x0 : Rat := ((i * g.w : Nat) : Rat) / w1
  let x1 : Rat := (((i + 1) * g.w : Nat) : Rat) / w1
  let y0 : Rat := ((j * g.h : Nat) : Rat) / h1
  let y1 : Rat := (((j + 1) * g.h : Nat) : Rat) / h1
  let xs := natRange x0.floor.toNat (x1.ceil.toNat - x0.floor.toNat)
  let ys := natRange y0.floor.toNat (y1.ceil.toNat - y0.floor.toNat)
  sumRat (ys.flatMap fun y => xs.map fun x => overlap x x0 x1 * overlap y y0 y1 * p.getD (y * g.w + x) 0) / ((x1 - x0) * (y1 - y0))

/-- An output of `w1` × `h1` pixels in format `fmt` (R359): NV12, RGB888 or Y8. -/
def Img.output (g : Img) (ps : Planes) (fmt w1 h1 : Nat) : List Byte :=
  let scaled := fun (p : List Rat) (w h k : Nat) => BitVec.ofNat 8 (toByte (g.area p w h (k % w) (k / w)))
  let lumas := (natRange 0 (w1 * h1)).map (scaled ps.y w1 h1)
  if fmt = 1 then
    lumas ++ (natRange 0 (w1 / 2 * (h1 / 2))).flatMap fun k => [scaled ps.cb (w1 / 2) (h1 / 2) k, scaled ps.cr (w1 / 2) (h1 / 2) k]
  else if fmt = 2 then
    (natRange 0 (w1 * h1)).flatMap fun k =>
      [scaled (ps.rgb.map (·.r)) w1 h1 k, scaled (ps.rgb.map (·.g)) w1 h1 k, scaled (ps.rgb.map (·.b)) w1 h1 k]
  else if fmt = 3 then lumas
  else []

/-- The statistics part of a buffer (R365): the histogram of Y, the zones, the saturated pixels, and zeros. -/
def Img.statistics (g : Img) (tap : List Rat) (ps : Planes) : List Byte :=
  let ys := ps.y.map toByte
  ((natRange 0 256).flatMap fun v => leBytes (ys.filter fun y => decide (y = v)).length 4) ++
  ((natRange 0 512).flatMap fun z => (natRange 0 3).flatMap fun k => leBytes (g.zone tap z k) 4) ++
  leBytes (tap.filter fun v => decide (g.scaled16 v = 65535)).length 4 ++ List.replicate 1020 0

end Sys2Proof.Machine
end

