-- ==== Sys2Proof/Machine/Cameras.lean ====
section
/-! DEFINITION. Cameras, capture channels and the lanes of the image pipeline (R349 to R370). -/

namespace Sys2Proof.Machine

open Sys2Proof

def unitImage : Nat := unitOf hubDie 0x020

def State.camPort (s : State) (p : Nat) : CamPort := mapGet s.cams.ports p {}

def State.modPort (s : State) (p : Nat) (f : CamPort → CamPort) : State :=
  { s with cams := { s.cams with ports := mapPut s.cams.ports p (f (s.camPort p)) {} } }

/-! ### Ports and routing (R349 to R354) -/

/-- The port's copy of the routing table is refreshed (R354). -/
def State.refreshTable (s : State) (p : Nat) : State :=
  let words := (natRange 0 64).flatMap fun n => [(2 * n, s.reg (Reg.CAM_ROUTE_MATCH n)), (2 * n + 1, s.reg (Reg.CAM_ROUTE_ACT n))]
  s.modPort p fun x => { x with table := words }

def State.portOn (s : State) (p : Nat) : Bool :=
  decide (p < 4) && s.flag (Fld.CAM_PORT_CTRL_enable p) && s.live

/-- CAM_PORT_ENABLE: a write of CAM_PORT_CTRL with `enable` 1; a change of the E field `settle` while the port is enabled is
discarded whole (R17, R370). -/
def camPortEnable (port : Nat) (value : W32) (s : State) : State :=
  let v := value.toNat
  if 4 ≤ port then s
  else if s.flag (Fld.CAM_PORT_CTRL_enable port) ∧ bits v 4 8 ≠ s.fld (Fld.CAM_PORT_CTRL_settle port) then
    s.setFlag Fld.CAM_STATUS_expert_write_ignored true
  else
    let s1 := s.setReg (Reg.CAM_PORT_CTRL port) (v % 4096)
    if bit v 0 ∧ !s.flag (Fld.CAM_PORT_CTRL_enable port) then s1.refreshTable port else s1

def execCamPortEnable (port : Nat) (value : W32) (s : State) : Host.Outcome State Fault Refusal :=
  .next (camPortEnable port value s)

/-- Entry `n` of a port's copy: MATCH and ACT. -/
def CamPort.entry (x : CamPort) (n : Nat) : Nat × Nat := (mapGet x.table (2 * n) 0, mapGet x.table (2 * n + 1) 0)

def entryOn (e : Nat × Nat) (p vc : Nat) : Bool := bit e.2 0 && bit e.1 p && bit e.1 (4 + vc)

/-- A long packet's data type matches an entry (R353). -/
def entryType (e : Nat × Nat) (dt : Nat) : Bool := decide (Nat.land (Nat.xor dt (bits e.1 20 6)) (bits e.1 26 6) = 0)

/-- The winning entry of a packet, and whether several matched at its priority (R353). -/
def CamPort.route (x : CamPort) (p vc dt : Nat) : Option ((Nat × Nat) × Bool) :=
  let hits := ((natRange 0 64).map x.entry).filter fun e => entryOn e p vc && entryType e dt
  let best := (hits.map fun e => bits e.2 1 2).foldl max 0
  match hits.filter fun e => decide (bits e.2 1 2 = best) with
  | [] => none
  | [e] => some (e, false)
  | e :: _ => some (e, true)

/-- The channels that entries of a virtual channel name, those for embedded data among them. -/
def CamPort.channelsOf (x : CamPort) (p vc : Nat) : List Nat :=
  (((natRange 0 64).map x.entry).filterMap fun e => if entryOn e p vc then some (bits e.2 3 4) else none).eraseDups

/-- The channels and layers that FS and FE on a virtual channel apply to (R353). -/
def CamPort.layersOf (x : CamPort) (p vc : Nat) : List (Nat × Nat) :=
  (((natRange 0 64).map x.entry).filterMap fun e =>
    if entryOn e p vc && !bit e.2 9 then some (bits e.2 3 4, bits e.2 7 2) else none).eraseDups

/-! ### Channels (R355, R356) -/

def State.camClient (s : State) (c : Nat) : Nat := s.fld (Fld.CAM_CH_OWNER_client c)
def State.camLayers (s : State) (c : Nat) : Nat := s.fld (Fld.CAM_CH_CTRL_layers c) + 1
def State.camOn (s : State) (c : Nat) : Bool := decide (c < 16) && s.flag (Fld.CAM_CH_CTRL_enable c) && s.live
def State.inlineCh (s : State) (c : Nat) : Bool := s.flag (Fld.CAM_CH_CTRL_inline c)

/-- Bytes `a` to `a + n` lie in pages granted to the client and backed (R319). -/
def State.inBacked (s : State) (cl a n : Nat) : Bool :=
  decide (a + n ≤ s.deviceEnd) && (natRange (a / 0x200000) ((a + max n 1 - 1) / 0x200000 - a / 0x200000 + 1)).all fun k =>
    decide ((s.page k).owner = cl) && decide ((s.page k).state = .backed)

/-- A word of a structure in such pages or in host memory. -/
def State.wordPlace (s : State) (cl a : Nat) : Bool := s.inBacked cl a 8 || (decide (hostBase ≤ a) && decide (a + 8 ≤ addrEnd))

def up4k (n : Nat) : Nat := 4096 * ((n + 4095) / 4096)

/-- The size of an output (R359). -/
def outSize (fmt w h : Nat) : Nat :=
  if fmt = 1 then w * h + w * h / 2 else if fmt = 2 then 3 * w * h else if fmt = 3 then w * h else if fmt = 4 then 2 * w * h else 0

/-- The layout of a frame buffer (R359): offsets of output 1, the statistics, the embedded data, and the end. -/
def State.bufLayout (s : State) (c : Nat) : Nat × Nat × Nat × Nat :=
  let o1 := up4k (outSize (s.fld (Fld.CAM_CH_CTRL_out0_fmt c)) (s.fld (Fld.CAM_CH_GEOM_width c)) (s.fld (Fld.CAM_CH_GEOM_height c)))
  let st := up4k (o1 + outSize (s.fld (Fld.CAM_CH_CTRL_out1_fmt c)) (s.fld (Fld.CAM_CH_OUT1_out1_width c))
    (s.fld (Fld.CAM_CH_OUT1_out1_height c)))
  (o1, st, st + 8192, st + 8192 + 16384)

def State.rawSize (s : State) (c : Nat) : Nat :=
  s.camLayers c * s.fld (Fld.CAM_CH_GEOM_width c) * s.fld (Fld.CAM_CH_GEOM_height c) *
    (if s.fld (Fld.CAM_CH_CTRL_in_dt c) = 0x2F then 4 else 2)

/-- The checks of R356 in order; 0 where all pass. Check 6 takes in the other fields for which R355 gives a range or reserved values, with
the geometry fields (DESIGN CHOICE, log 186). -/
def State.camCheck (s : State) (c : Nat) : Nat :=
  let cl := s.camClient c
  let w := s.fld (Fld.CAM_CH_GEOM_width c)
  let h := s.fld (Fld.CAM_CH_GEOM_height c)
  let dt := s.fld (Fld.CAM_CH_CTRL_in_dt c)
  let n := s.fld (Fld.CAM_CH_BUF_CFG_buf_count c)
  let stride := 4096 * s.fld (Fld.CAM_CH_BUF_CFG_buf_stride c)
  let base := s.fld (Fld.CAM_CH_BUF_BASE_buf_base c)
  let rec_ := s.fld (Fld.CAM_CH_REC_BASE_rec_base c)
  let cons := s.fld (Fld.CAM_CH_CONSUMED_consumed_addr c)
  let tune := s.fld (Fld.CAM_CH_TUNE_tune_addr c)
  let raw := s.fld (Fld.CAM_CH_RAW_BASE_raw_base c)
  let rn := s.fld (Fld.CAM_CH_RAW_CFG_raw_count c)
  let rs := 4096 * s.fld (Fld.CAM_CH_RAW_CFG_raw_stride c)
  let inl := s.inlineCh c
  let w1 := s.fld (Fld.CAM_CH_OUT1_out1_width c)
  let h1 := s.fld (Fld.CAM_CH_OUT1_out1_height c)
  let f0 := s.fld (Fld.CAM_CH_CTRL_out0_fmt c)
  let f1 := s.fld (Fld.CAM_CH_CTRL_out1_fmt c)
  let even := fun (x lo hi : Nat) => decide (lo ≤ x) && decide (x ≤ hi) && decide (x % 2 = 0)
  if !s.attached cl || s.detaching cl then 1
  else if !(decide (base % 4096 = 0) && decide (rec_ % 32 = 0) && decide (cons % 8 = 0) && decide (tune % 8 = 0) &&
      s.inBacked cl base (n * stride) && s.inBacked cl rec_ (32 * n) && s.wordPlace cl cons && (decide (tune = 0) || s.wordPlace cl tune) &&
      (inl || (decide (raw % 4096 = 0) && s.inBacked cl raw (rn * rs)))) then 2
  else if stride < (s.bufLayout c).2.2.2 ∨ (!inl ∧ rs < s.rawSize c + 4096) then 3
  else if inl && (natRange 0 16).any fun k => decide (k ≠ c) && s.flag (Fld.CAM_CH_CTRL_enable k) && s.inlineCh k then 4
  else if inl && decide (0x400000 < s.fld (Fld.CAM_CH_TIMING_layer_deadline c) * w * 2 * s.camLayers c) then 5
  else if !((decide (s.camLayers c = 1) || isRaw dt) && decide (s.camLayers c ≤ 3) && even w 64 8192 && even h 64 8192 &&
      decide (2 ≤ n) && decide (f0 ≤ 4) && decide (f1 ≤ 3) && (inl || (decide (2 ≤ rn) && decide (rn ≤ 8))) &&
      decide (1 ≤ s.fld (Fld.CAM_CH_TIMING_layer_deadline c)) && decide (100 ≤ s.fld (Fld.CAM_CH_TIMING_fe_timeout_us c)) &&
      (decide (f1 = 0) || (even w1 2 w && even h1 2 h && decide (w ≤ 16 * w1) && decide (h ≤ 16 * h1)))) then 6
  else 0

/-- CAM_CHANNEL_ENABLE: a write of CAM_CH_CTRL with `enable` 1. While the channel is enabled its other fields do not change. -/
def camChannelEnable (channel : Nat) (value : W32) (s : State) : State :=
  let v := value.toNat % 0x400000
  if 16 ≤ channel ∨ !bit v 0 then s
  else if s.flag (Fld.CAM_CH_CTRL_enable channel) then
    if v = s.reg (Reg.CAM_CH_CTRL channel) then s else s.setFlag (Fld.CAM_CH_STATUS_write_ignored channel) true
  else
    let s1 := s.setReg (Reg.CAM_CH_CTRL channel) (v - 1)
    let e := s1.camCheck channel
    if e ≠ 0 then s1.setFld (Fld.CAM_CH_STATUS_cfg_error channel) e
    else (((s1.setFlag (Fld.CAM_CH_CTRL_enable channel) true).setFld (Fld.CAM_CH_DROPS_drops channel) 0).modChan channel
      fun _ => {}).breakResleep

def execCamChannelEnable (channel : Nat) (value : W32) (s : State) : Host.Outcome State Fault Refusal :=
  .next (camChannelEnable channel value s)

/-- CAM_CHANNEL_DISABLE: a write of CAM_CH_CTRL with `enable` 0. Of an enabled channel only `enable` changes; a change of another field is
discarded (R355). -/
def camChannelDisable (channel : Nat) (value : W32) (s : State) : State :=
  let v := value.toNat % 0x400000
  if 16 ≤ channel ∨ bit v 0 then s
  else if s.flag (Fld.CAM_CH_CTRL_enable channel) then
    (if v + 1 = s.reg (Reg.CAM_CH_CTRL channel) then s else s.setFlag (Fld.CAM_CH_STATUS_write_ignored channel) true).stopChannel channel
  else s.setReg (Reg.CAM_CH_CTRL channel) v

def execCamChannelDisable (channel : Nat) (value : W32) (s : State) : Host.Outcome State Fault Refusal :=
  .next (camChannelDisable channel value s)

/-! ### Frames (R357 to R360, R363, R366) -/

def flMissing : Nat := 0
def flShortLine : Nat := 1
def flLongLine : Nat := 2
def flShortFrame : Nat := 3
def flLongFrame : Nat := 4
def flCrc : Nat := 5
def flEcc : Nat := 6
def flLost : Nat := 7
def flMulti : Nat := 8
def flFe : Nat := 9
def flOver : Nat := 10
def flMem : Nat := 11
def flTune : Nat := 12
def flEmb : Nat := 13

def CamFrame.flag (f : CamFrame) (i : Nat) : CamFrame := { f with flags := setBit f.flags i true }


def CamFrame.setLayer (f : CamFrame) (l : Nat) (x : CamLayer) : CamFrame := { f with layers := f.layers.set l x }

/-- Reads of the consumed word: frames taken and not finished with (R357); none where it cannot be read. -/
def State.camHeld (s : State) (c : Nat) : Option Nat :=
  let f := (s.chan c).next
  match s.cread64 (s.camClient c) (s.fld (Fld.CAM_CH_CONSUMED_consumed_addr c)) with
  | .ok n => some (f - min n f)
  | .error _ => none

def State.dropFrame (s : State) (c : Nat) : State :=
  let s1 := (s.addFld (Fld.CAM_CH_DROPS_drops c) 1).setFlag (Fld.CAM_CH_STATUS_dropped_seen c) true
  s1.modChan c fun x => { x with dropped := min (x.dropped + 1) 255 }

/-- A buffer is taken for a frame, which has number F from then on; otherwise the frame is dropped (R357). -/
def State.takeBuffer (s : State) (c : Nat) : State × Option Nat :=
  let x := s.chan c
  let held := s.camHeld c
  let s := s.fetchHub (s.fld (Fld.CAM_CH_CONSUMED_consumed_addr c)) 8
  match held with
  | some n =>
    if n < s.fld (Fld.CAM_CH_BUF_CFG_buf_count c) then (s.modChan c fun y => { y with next := y.next + 1 }, some x.next)
    else (s.dropFrame c, none)
  | none => ((s.dropFrame c).modChan c fun y => { y with memError := true }, none)

/-- Reserved bytes of a tuning set are zero and its CRC matches (R364). -/
def tuneOk (t : List Byte) : Bool :=
  let zero := fun (a n : Nat) => ((t.drop a).take n).all fun b => decide (b = 0)
  decide (t.length = 4096) && decide (atOff t 4092 4 = (crc32c (t.take 4092)).toNat) && decide (atOff t 10 1 ≤ 15) &&
    decide (atOff t 11 1 ≤ 15) && zero 46 18 && zero 578 446 && zero 3336 756

/-- The tuning set of a frame, and whether a set was rejected (R363). -/
def State.readTune (s : State) (c : Nat) : Option (List Byte) × Bool :=
  let a := s.fld (Fld.CAM_CH_TUNE_tune_addr c)
  let cl := s.camClient c
  if a = 0 then (none, false)
  else
    match s.cread64 cl a with
    | .error _ => ((s.chan c).tune, true)
    | .ok p =>
      match s.cread cl p 4096 with
      | .ok t => if tuneOk t then (some t, false) else ((s.chan c).tune, true)
      | .error _ => ((s.chan c).tune, true)

/-- What the reading of a tuning set reads. -/
def State.tuneReads (s : State) (c : Nat) : State :=
  let a := s.fld (Fld.CAM_CH_TUNE_tune_addr c)
  if a = 0 then s
  else match s.cread64 (s.camClient c) a with
    | .ok p => (s.fetchHub a 8).fetchHub p 4096
    | .error _ => s.fetchHub a 8

/-- The configured layers still included whole, and those used on some lines only (R358). -/
def CamFrame.layersByte (f : CamFrame) (n : Nat) : Nat :=
  let whole := (natRange 0 n).filter fun l => (f.layer l).cut.isNone
  let part := (natRange 0 n).filter fun l => match (f.layer l).cut with | some k => decide (0 < k) | none => false
  whole.foldl (fun a l => a + 2 ^ l) 0 + part.foldl (fun a l => a + 2 ^ (3 + l)) 0

/-- Bytes that the spec does not give: what a raw slot or RAW16 output holds of a stream that is not RAW. -/
def State.imageParts (s : State) (c : Nat) (f : CamFrame) (part n : Nat) : List Byte :=
  let ctrl := [s.fld (Fld.CAM_CH_CTRL_layers c), s.fld (Fld.CAM_CH_CTRL_pad_last c), s.fld (Fld.CAM_CH_CTRL_in_dt c),
    s.reg (Reg.CAM_CH_GEOM c)]
  let lines := f.layers.map fun l => (l.lines, l.cut)
  (natRange 0 n).map fun i => Config.imageByte part i ctrl (f.tune.getD []) lines

/-- The raw values of a layer as R368 repairs them. -/
def State.captured (s : State) (c : Nat) (f : CamFrame) (l x y : Nat) : Nat :=
  (f.layer l).pixel (s.flag (Fld.CAM_CH_CTRL_pad_last c)) (s.fld (Fld.CAM_CH_CTRL_in_dt c)) (s.fld (Fld.CAM_CH_CTRL_bayer c)) f.tune x y

/-- Bytes of a raw value in a raw slot (R356). -/
def rawBytes (dt : Nat) : Nat := if dt = 0x2F then 4 else 2

/-- The raw slot of a frame (R361). -/
def State.rawSlot (s : State) (c : Nat) (f : CamFrame) : Nat :=
  s.fld (Fld.CAM_CH_RAW_BASE_raw_base c) + f.raw % max 1 (s.fld (Fld.CAM_CH_RAW_CFG_raw_count c)) *
    (4096 * s.fld (Fld.CAM_CH_RAW_CFG_raw_stride c))

/-- What a memory-to-memory channel writes into a frame's raw slot: its raw layers one after another, line by line (R356, R361). -/
def State.rawFrame (s : State) (c : Nat) (f : CamFrame) : List Byte :=
  let w := s.fld (Fld.CAM_CH_GEOM_width c)
  let h := s.fld (Fld.CAM_CH_GEOM_height c)
  let dt := s.fld (Fld.CAM_CH_CTRL_in_dt c)
  if isRaw dt then
    (natRange 0 (s.camLayers c)).flatMap fun l => (natRange 0 (w * h)).flatMap fun k =>
      leBytes (s.captured c f l (k % w) (k / w)) (rawBytes dt)
  else s.imageParts c f 3 (s.rawSize c)

/-- A line of a layer read back from its raw slot; none where it cannot be read (R369). -/
def State.rawLine (s : State) (c : Nat) (f : CamFrame) (l y : Nat) : Option (List Byte) :=
  let n := s.fld (Fld.CAM_CH_GEOM_width c) * rawBytes (s.fld (Fld.CAM_CH_CTRL_in_dt c))
  match s.cread (s.camClient c) (s.rawSlot c f + (l * s.fld (Fld.CAM_CH_GEOM_height c) + y) * n) n with
  | .ok b => some b
  | .error _ => none

/-- Every line of every layer of a frame in its raw slot. A line of a stream that is not RAW takes as many bytes of the slot as R356 counts
for it. -/
def State.rawLines (s : State) (c : Nat) (f : CamFrame) : List (List (Option (List Byte))) :=
  (natRange 0 (s.camLayers c)).map fun l => (natRange 0 (s.fld (Fld.CAM_CH_GEOM_height c))).map fun y => s.rawLine c f l y

/-- The frame as the pipeline sees it: raw values as received, or as a lane reads them back, a line that it cannot read black (R369). -/
def State.image (s : State) (c : Nat) (f : CamFrame) : Img :=
  let dt := s.fld (Fld.CAM_CH_CTRL_in_dt c)
  let order := s.fld (Fld.CAM_CH_CTRL_bayer c)
  { w := s.fld (Fld.CAM_CH_GEOM_width c), h := s.fld (Fld.CAM_CH_GEOM_height c), dt := dt, order := order
    padLast := s.flag (Fld.CAM_CH_CTRL_pad_last c), layers := s.camLayers c, frame := f
    awb := if s.flag (Fld.CAM_CH_CTRL_awb_auto c) then (s.chan c).awb else none
    raw := fun l x y =>
      match f.back[l]? with
      | none => s.captured c f l x y
      | some ls => match ls.getD y none with
        | some b => leNat ((b.drop (x * rawBytes dt)).take (rawBytes dt))
        | none => blackOf f.tune dt (bayerPos order x y)
    lost := fun l y => match f.back[l]? with
      | some ls => (ls.getD y none).isNone
      | none => false }

/-- Output 0: RAW16 of a RAW stream is the lead layer's values left-justified (R359). -/
def State.output0 (s : State) (c : Nat) (f : CamFrame) (g : Img) (ps : Planes) : List Byte :=
  let fmt := s.fld (Fld.CAM_CH_CTRL_out0_fmt c)
  if fmt = 4 then
    if isRaw g.dt then
      (natRange 0 (g.w * g.h)).flatMap fun k =>
        let v := g.raw f.lead (k % g.w) (k / g.w)
        leBytes (if g.dt = 0x2F then v / 16 else v * 2 ^ (16 - dtBits g.dt)) 2
    else s.imageParts c f 0 (outSize fmt g.w g.h)
  else g.output ps fmt g.w g.h

/-- The frame's writes into its buffer; a write into a page that is no longer backed is dropped and sets MEM_ERROR (R319, R360), as does
a line of its raw slot that cannot be read (R369). Its zone sums serve the next frame's white balance (R365). -/
def State.writeFrame (s : State) (c : Nat) (f : CamFrame) : State × CamFrame :=
  let cl := s.camClient c
  let stride := 4096 * s.fld (Fld.CAM_CH_BUF_CFG_buf_stride c)
  let base := s.fld (Fld.CAM_CH_BUF_BASE_buf_base c) + f.no % max 1 (s.fld (Fld.CAM_CH_BUF_CFG_buf_count c)) * stride
  let (o1, st, em, endO) := s.bufLayout c
  let g := s.image c f
  let tap := g.tap5
  let ps := g.planes tap
  let out1 := g.output ps (s.fld (Fld.CAM_CH_CTRL_out1_fmt c)) (s.fld (Fld.CAM_CH_OUT1_out1_width c)) (s.fld (Fld.CAM_CH_OUT1_out1_height c))
  let emb := leBytes f.emb.length 4 ++ f.emb
  let s1 := s.devWrite cl base (s.output0 c f g ps)
  let s2 := s1.devWrite cl (base + o1) out1
  let s3 := s2.devWrite cl (base + st) (g.statistics tap ps)
  let s4 := (s3.devWrite cl (base + em) emb).modChan c fun x => { x with awb := some (g.zoneTotals tap) }
  let lost := f.back.any fun ls => ls.any (·.isNone)
  (s4, if s.inBacked cl base endO ∧ !lost then f else f.flag flMem)

/-- The flags that the close of a frame adds (R358, R366, R368): rule 3 excludes a layer from the first line that it lacks, a layer
whose FS has not come from the whole frame. -/
def CamFrame.settle (f : CamFrame) (n h tb : Nat) : CamFrame :=
  let f1 := if (f.layer f.lead).fe then f else f.flag flFe
  let f2 := forEach ((natRange 0 n).filter (· ≠ f.lead)) f1 fun l g =>
    let x := g.layer l
    match x.cut with
    | some _ => g
    | none =>
      let k := x.lines.length
      if !x.fs || decide (k < min h (f.layer f.lead).lines.length) then g.setLayer l { x with cut := some k } else g
  let short := (natRange 0 n).any fun l => (f2.layer l).cut.isNone && decide ((f2.layer l).lines.length < h)
  let f3 := if short then f2.flag flShortFrame else f2
  let f4 := if (natRange 0 n).all fun l => (f3.layer l).cut.isNone then f3 else f3.flag flMissing
  { f4 with tClose := tb }

/-- Layers that a frame excludes and whose FE has not come (R366 rule 5). -/
def CamFrame.outside (f : CamFrame) : List Nat :=
  (natRange 0 3).filter fun l => (f.layer l).cut.isSome && !(f.layer l).fe

/-- The open frame of a channel closes (R366 rule 4). A piece of a raw frame in a page that is no longer backed is dropped and sets
MEM_ERROR (R360). -/
def State.closeFrame (s : State) (c : Nat) : State :=
  match (s.chan c).open_ with
  | none => s
  | some f0 =>
    let f := f0.settle (s.camLayers c) (s.fld (Fld.CAM_CH_GEOM_height c)) s.tb
    let s1 := s.modChan c fun x => { x with open_ := none, outside := (x.outside ++ f.outside).eraseDups }
    if f.drop then s1
    else if s.inlineCh c then
      let (s2, g) := s1.writeFrame c f
      s2.modChan c fun x => { x with ready := x.ready ++ [g] }
    else
      let s2 := s1.devWrite (s.camClient c) (s.rawSlot c f) (s.rawFrame c f)
      let g := if s1.inBacked (s.camClient c) (s.rawSlot c f) (s.rawSize c) then f else f.flag flMem
      s2.modChan c fun x => { x with queue := x.queue ++ [g] }

/-- The frame is complete when every included layer has delivered its FE. -/
def CamFrame.complete (f : CamFrame) (n : Nat) : Bool :=
  (natRange 0 n).all fun l => (f.layer l).fe || (f.layer l).cut.isSome

def State.closeIfDone (s : State) (c : Nat) : State :=
  match (s.chan c).open_ with
  | some f => if f.complete (s.camLayers c) then s.closeFrame c else s
  | none => s

/-- Room for a raw frame (R362): where every raw slot holds a queued frame, the oldest queued frame of the channel is discarded. -/
def State.rawRoom (s : State) (c : Nat) : State :=
  if (s.chan c).queue.length < s.fld (Fld.CAM_CH_RAW_CFG_raw_count c) then s
  else (s.dropFrame c).modChan c fun x => { x with queue := x.queue.drop 1 }

/-- A frame opens at the FS of its lead layer (R357, R362, R363, R366). -/
def State.openFrame (s : State) (c l frameNo : Nat) : State :=
  let (s1, no) := if s.inlineCh c then s.takeBuffer c else (s.rawRoom c, some 0)
  let (tune, bad) := s1.readTune c
  let s1 := s1.tuneReads c
  let x := s1.chan c
  let f : CamFrame := { no := no.getD 0, tStart := s.tb, csi := frameNo % 65536, lead := l, tune := tune, drop := no.isNone, raw := x.captured }
  let f1 := (if bad then f.flag flTune else f).setLayer l { fs := true }
  s1.modChan c fun y =>
    { y with open_ := some f1, tune := tune, captured := if no.isSome then y.captured + 1 else y.captured }

def State.frameStart (s : State) (c l frameNo : Nat) : State :=
  if !s.camOn c || decide (s.camLayers c ≤ l) || (s.chan c).outside.contains l then s
  else
    match (s.chan c).open_ with
    | none => s.openFrame c l frameNo
    | some f =>
      if l = f.lead then (s.closeFrame c).openFrame c l frameNo
      else
        let x := f.layer l
        if x.fs || x.cut.isSome then s
        else s.modChan c fun y => { y with open_ := some (f.setLayer l { x with fs := true }) }

/-! ### Tinder's presence watch (R389) -/

/-- The stream that Tinder watches; its port's receiver stays powered in SLEEP. -/
def State.watched (s : State) (p vc : Nat) : Bool :=
  s.flag Fld.WAK_CTRL_presence_enable && s.flag Fld.WAK_CTRL_tinder_enable && decide (s.fld Fld.WAK_PRES_pres_port = p) &&
  decide (s.fld Fld.WAK_PRES_pres_vc = vc) && s.flag (Fld.CAM_PORT_CTRL_enable p) && !s.saf.damped &&
  (decide (s.power.phase = .run) || decide (s.power.phase = .sleep) || decide (s.power.left = 2))

/-- A line of pixels of the watched stream. -/
def State.watchLine (s : State) (p vc dt : Nat) (payload : List Byte) : State :=
  if s.watched p vc && (isRaw dt || decide (dt = 0x1E) || decide (dt = 0x24)) then
    { s with wake := { s.wake with presLines := s.wake.presLines ++ [(dt, payload)] } }
  else s

/-- A frame of the watched stream begins. -/
def State.watchFrame (s : State) (p vc : Nat) : State :=
  if s.watched p vc then { s with wake := { s.wake with presLines := [] } } else s

/-- The luma of pixel `x` of a line in 8-bit code units: Y, that of BT.709, or the leading bits of a RAW value (DESIGN CHOICE, log 189). -/
def lumaAt (dt : Nat) (b : List Byte) (x : Nat) : Nat :=
  if isRaw dt then rawPixel dt b x / 2 ^ (dtBits dt - 8)
  else
    let c := cellOf dt b x
    if dt = 0x1E then c.1 else (2126 * c.1 + 7152 * c.2.1 + 722 * c.2.2) / 10000

/-- The mean luma of the 8 × 6 zones of a frame, zone by zone along x first; column k of w pixels lies in zone 8k / w, and a line likewise
(DESIGN CHOICE, log 189). -/
def zoneMeans (lines : List (Nat × List Byte)) : List Rat :=
  let h := lines.length
  let zone := fun (i j : Nat) =>
    let vs := (natRange (j * h / 6) ((j + 1) * h / 6 - j * h / 6)).flatMap fun y =>
      match lines[y]? with
      | some (dt, b) =>
        let w := linePixels dt b
        (natRange (i * w / 8) ((i + 1) * w / 8 - i * w / 8)).map (lumaAt dt b)
      | none => []
    ((vs.foldl (· + ·) 0 : Nat) : Rat) / max 1 vs.length
  (natRange 0 48).map fun z => zone (z % 8) (z / 8)

def State.discardPacket (s : State) (p : Nat) : State := s.addFld (Fld.CAM_PORT_CNT_discarded p) 1

/-- Flags for the open frames that a stream feeds, with lines or with embedded data. -/
def State.flagStream (s : State) (p vc i : Nat) : State :=
  forEach ((s.camPort p).channelsOf p vc) s fun c t =>
    t.modChan c fun y => { y with open_ := y.open_.map fun f => f.flag i }

/-- The packet is lost with its header (R351). -/
def lostPacket (err : PacketError) : Bool := match err with | .headerLost | .sot | .sync => true | _ => false

/-- A packet lost with its header (R351): `f` is the port's status bit. -/
def State.losePacket (s : State) (p vc : Nat) (f : Fld) : State :=
  (((s.setFlag f true).discardPacket p).flagStream p vc flLost).logRecorded unitImage 0

/-- The port's side of a corrected header. -/
def State.eccPacket (s : State) (p : Nat) : State :=
  (s.setFlag (Fld.CAM_PORT_STATUS_ecc_corrected p) true).logCorrected unitImage 0

/-- A short packet with its header's condition (R351): lost, or used as `use` says, with ECC_CORRECTED in the frames of the stream where the
header was corrected. A short packet has no payload, so that no other condition applies to it. -/
def State.shortHeader (s : State) (p vc : Nat) (err : PacketError) (use : State → State) : State :=
  match err with
  | .headerLost => s.losePacket p vc (Fld.CAM_PORT_STATUS_header_lost p)
  | .sot => s.losePacket p vc (Fld.CAM_PORT_STATUS_sot_error p)
  | .sync => s.losePacket p vc (Fld.CAM_PORT_STATUS_sync_error p)
  | .eccCorrected => use (s.eccPacket p)
  | .none | .crc | .overflow => use s

/-- FRAME_START_PACKET: the port refreshes its table copy, and every channel and layer of the stream gets an FS (R353, R354). -/
def frameStartPacket (port vc frameNo : Nat) (err : PacketError) (s0 : State) : State :=
  let s := if lostPacket err then s0 else s0.watchFrame port (vc % 16)
  if !s.portOn port then s
  else
    (s.modPort port fun x => { x with packetAt := s.tb }).shortHeader port (vc % 16) err fun t =>
      let t1 := t.refreshTable port
      let t2 := forEach ((t1.camPort port).layersOf port (vc % 16)) t1 fun (c, l) u => u.frameStart c l frameNo
      if err = .eccCorrected then t2.flagStream port (vc % 16) flEcc else t2

def execFrameStartPacket (port vc frameNo : Nat) (err : PacketError) (s : State) : Host.Outcome State Fault Refusal :=
  .next (frameStartPacket port vc frameNo err s)

/-- FE of a layer: the end of what excluded it from a frame already closed (R366 rule 5), else its end in the open frame. -/
def State.frameEnd (s : State) (c l : Nat) : State :=
  if (s.chan c).outside.contains l then s.modChan c fun y => { y with outside := y.outside.erase l }
  else
  match (s.chan c).open_ with
  | some f =>
    let x := f.layer l
    if s.camOn c && (x.fs || x.cut.isSome) && decide (l < s.camLayers c) then
      (s.modChan c fun y => { y with open_ := some (f.setLayer l { x with fe := true }) }).closeIfDone c
    else s
  | none => s

/-- FRAME_END_PACKET (R353, R366). -/
def frameEndPacket (port vc : Nat) (err : PacketError) (s : State) : State :=
  if !s.portOn port then s
  else
    (s.modPort port fun x => { x with packetAt := s.tb }).shortHeader port (vc % 16) err fun t =>
      let t1 := if err = .eccCorrected then t.flagStream port (vc % 16) flEcc else t
      forEach ((t1.camPort port).layersOf port (vc % 16)) t1 fun (c, l) u => u.frameEnd c l

def execFrameEndPacket (port vc : Nat) (err : PacketError) (s : State) : Host.Outcome State Fault Refusal :=
  .next (frameEndPacket port vc err s)

/-! ### Packets (R350 to R353, R366) -/

def knownDt (dt : Nat) : Bool :=
  decide (dt = 0x12) || decide (dt = 0x1E) || decide (dt = 0x24) || isRaw dt || (decide (0x30 ≤ dt) && decide (dt ≤ 0x37))

/-- A lead line has arrived: exclusions under rules 1 and 2 of R366. -/
def CamFrame.exclude (f : CamFrame) (n d : Nat) : CamFrame :=
  let lead := (f.layer f.lead).lines.length
  forEach ((natRange 0 n).filter (· ≠ f.lead)) f fun l g =>
    let x := g.layer l
    match x.cut with
    | some _ => g
    | none =>
      if lead = d ∧ !x.fs then g.setLayer l { x with cut := some 0 }
      else if d < lead ∧ x.lines.length < lead - d then g.setLayer l { x with cut := some x.lines.length }
      else g

/-- A line of pixels for a layer of the open frame of a channel, from port `p` (R366, R368): one of an excluded layer, and one beyond
`height`, is discarded and counted. -/
def State.addLine (s : State) (p c l dt : Nat) (payload : List Byte) (bad : Bool) (f : CamFrame) : State :=
  let keep := fun (g : CamFrame) (t : State) => t.modChan c fun y => { y with open_ := some g }
  let x := f.layer l
  let w := s.fld (Fld.CAM_CH_GEOM_width c)
  let px := linePixels dt payload
  let f0 := if bad then f.flag flCrc else if px < w then f.flag flShortLine else if w < px then f.flag flLongLine else f
  if x.cut.isSome then keep f (s.discardPacket p)
  else if s.fld (Fld.CAM_CH_GEOM_height c) ≤ x.lines.length then keep (f0.flag flLongFrame) (s.discardPacket p)
  else
    let f1 := f0.setLayer l { x with lines := x.lines ++ [(payload, bad)] }
    let f2 := if l = f.lead then f1.exclude (s.camLayers c) (s.fld (Fld.CAM_CH_TIMING_layer_deadline c)) else f1
    (keep f2 s).closeIfDone c

/-- Embedded data of the open frame (R359). -/
def State.addEmbedded (s : State) (c : Nat) (payload : List Byte) (f : CamFrame) : State :=
  let all := f.emb ++ payload
  let f1 := if 16380 < all.length then f.flag flEmb else f
  s.modChan c fun y => { y with open_ := some { f1 with emb := all.take 16380 } }

/-- A packet that can be used is routed (R353), its condition under R351 in the record of the frame it belongs to. One that has no open
frame is discarded, counted and logged (R351, R409). -/
def State.routePacket (s : State) (p vc dt : Nat) (payload : List Byte) (err : PacketError) : State :=
  let drop := fun (t : State) => (t.discardPacket p).setFlag (Fld.CAM_PORT_STATUS_unrouted p) true
  let note := fun (f : CamFrame) => match err with
    | .eccCorrected => f.flag flEcc
    | .crc => f.flag flCrc
    | .overflow => f.flag flOver
    | _ => f
  match (s.camPort p).route p vc dt with
  | none => drop s
  | some (e, multi) =>
    let c := bits e.2 3 4
    let l := bits e.2 7 2
    let s1 := if multi then s.setFlag (Fld.CAM_PORT_STATUS_multi_match p) true else s
    if !s1.camOn c || decide (s1.camLayers c ≤ l) then
      (s1.discardPacket p).setFlag (Fld.CAM_CH_STATUS_route_error c) true
    else
      match (s1.chan c).open_ with
      | none => (drop s1).logRecorded unitImage 0
      | some f0 =>
        let f := note (if multi then f0.flag flMulti else f0)
        if bit e.2 9 || !(isRaw dt || decide (dt = 0x1E) || decide (dt = 0x24)) then s1.addEmbedded c payload f
        else if (f.layer l).fs ∨ (f.layer l).cut.isSome then s1.addLine p c l dt payload (decide (err = .crc)) f
        else if (s1.chan c).outside.contains l then s1.discardPacket p
        else (drop s1).logRecorded unitImage 0

/-- LONG_PACKET. -/
def longPacket (port vc dt : Nat) (payload : List Byte) (err : PacketError) (s00 : State) : State :=
  let s := if lostPacket err then s00 else s00.watchLine port (vc % 16) dt payload
  if !s.portOn port then s
  else
    let v := vc % 16
    let s0 := s.modPort port fun x => { x with packetAt := s.tb }
    match err with
    | .headerLost => s0.losePacket port v (Fld.CAM_PORT_STATUS_header_lost port)
    | .sot => s0.losePacket port v (Fld.CAM_PORT_STATUS_sot_error port)
    | .sync => s0.losePacket port v (Fld.CAM_PORT_STATUS_sync_error port)
    | _ =>
      if !knownDt dt then ((s0.discardPacket port).setFlag (Fld.CAM_PORT_STATUS_unknown_dt port) true).logRecorded unitImage 0
      else
        match err with
        | .eccCorrected => (s0.eccPacket port).routePacket port v dt payload err
        | .crc =>
          (((s0.setFlag (Fld.CAM_PORT_STATUS_crc_error port) true).addFld (Fld.CAM_PORT_CNT_crc_errors port) 1).logRecorded
            unitImage 0).routePacket port v dt payload err
        | .overflow =>
          ((s0.setFlag (Fld.CAM_PORT_STATUS_overflow port) true).logRecorded unitImage 0).routePacket port v dt payload err
        | _ => s0.routePacket port v dt payload err

def execLongPacket (port vc dt : Nat) (payload : List Byte) (err : PacketError) (s : State) : Host.Outcome State Fault Refusal :=
  .next (longPacket port vc dt payload err s)

/-- SHORT_PACKET: line starts and ends are ignored, generic short packets counted and ignored (R350); a frame start or end has a
command of its own. -/
def shortPacket (port vc dt : Nat) (err : PacketError) (s : State) : State :=
  if !s.portOn port ∨ dt ≤ 0x01 ∨ 16 ≤ vc then s
  else
    (s.modPort port fun x => { x with packetAt := s.tb }).shortHeader port vc err fun t =>
      let s0 := if err = .eccCorrected then t.flagStream port vc flEcc else t
      if dt = 0x02 ∨ dt = 0x03 then s0
      else if 0x08 ≤ dt ∧ dt ≤ 0x0F then s0.discardPacket port
      else ((s0.discardPacket port).setFlag (Fld.CAM_PORT_STATUS_unknown_dt port) true).logRecorded unitImage 0

def execShortPacket (port vc dt : Nat) (err : PacketError) (s : State) : Host.Outcome State Fault Refusal :=
  .next (shortPacket port vc dt err s)

/-- ROUTE_TABLE_REFRESH: 100 µs without a packet (R354). -/
def routeTableRefresh (port : Nat) (s : State) : State :=
  if s.portOn port && s.passedUs (s.camPort port).packetAt 100 then s.refreshTable port else s

def execRouteTableRefresh (port : Nat) (s : State) : Host.Outcome State Fault Refusal := .next (routeTableRefresh port s)

/-- FRAME_TIMEOUT: `fe_timeout_us` after the lead FS (R366). -/
def frameTimeout (channel : Nat) (s : State) : State :=
  match (s.chan channel).open_ with
  | none => s
  | some f =>
    if s.camOn channel && s.passedUs f.tStart (s.fld (Fld.CAM_CH_TIMING_fe_timeout_us channel)) then s.closeFrame channel else s

def execFrameTimeout (channel : Nat) (s : State) : Host.Outcome State Fault Refusal := .next (frameTimeout channel s)

/-- FRAME_RECORD_WRITE: the record of the channel's oldest finished frame, with the MSI-X message of `irq_mode` (R358, R360). -/
def frameRecordWrite (channel : Nat) (s : State) : State :=
  match (s.chan channel).ready with
  | [] => s
  | f0 :: rest =>
    if !s.camOn channel then s
    else
      let x := s.chan channel
      let f := if x.memError then f0.flag flMem else f0
      let n := s.camLayers channel
      let record := leBytes f.no 8 ++ leBytes f.tStart 8 ++ leBytes f.tClose 8 ++ leBytes f.csi 2 ++ leBytes (f.layersByte n) 1 ++
        leBytes x.dropped 1 ++ leBytes f.flags 4
      let cl := s.camClient channel
      let s1 := s.devWrite cl (s.fld (Fld.CAM_CH_REC_BASE_rec_base channel) +
        32 * (f.no % max 1 (s.fld (Fld.CAM_CH_BUF_CFG_buf_count channel)))) record
      let s2 := s1.modChan channel fun y => { y with ready := rest, dropped := 0, memError := false }
      let s3 := if f.flags ≠ 0 then s2.setFlag (Fld.CAM_CH_STATUS_frame_flagged channel) true else s2
      let irq := s.fld (Fld.CAM_CH_CTRL_irq_mode channel)
      if irq = 1 ∨ (irq = 2 ∧ f.flags ≠ 0) then s3.msix (s3.ownerFn cl) (s3.fld (Fld.CAM_CH_OWNER_msix_vector channel)) else s3

def execFrameRecordWrite (channel : Nat) (s : State) : Host.Outcome State Fault Refusal := .next (frameRecordWrite channel s)

/-! ### Memory-to-memory lanes (R361, R362) -/

/-- What a lane reads of a frame's raw slot. -/
def State.rawReads (s : State) (c : Nat) (f : CamFrame) : State := s.fetchHub (s.rawSlot c f) (s.rawSize c)

/-- M2M_LANE_START: a free lane takes the queued frame with the earliest close, and a buffer for it (R357, R361, R362), and reads its raw
slot. -/
def m2mLaneStart (lane : Nat) (s : State) : State :=
  if 2 ≤ lane || (mapFind s.cams.lanes lane).isSome || s.saf.damped then s
  else
    let queued := (natRange 0 16).flatMap fun c => if s.camOn c then (s.chan c).queue.map fun f => (c, f) else []
    match leastBy (fun (x : Nat × CamFrame) => x.2.tClose) queued with
    | none => s
    | some (c, f) =>
      let s1 := s.modChan c fun x => { x with queue := x.queue.drop 1 }
      let (s2, no) := s1.takeBuffer c
      match no with
      | none => s2
      | some k =>
        let s3 := s2.rawReads c f
        { s3 with cams := { s3.cams with lanes := mapSet s3.cams.lanes lane (c, { f with no := k, back := s2.rawLines c f }) } }

def execM2mLaneStart (lane : Nat) (s : State) : Host.Outcome State Fault Refusal := .next (m2mLaneStart lane s)

/-- M2M_LANE_DONE: the frame's outputs are written and it waits for its record (R360, R361). -/
def m2mLaneDone (lane : Nat) (s : State) : State :=
  match mapFind s.cams.lanes lane with
  | none => s
  | some (c, f) =>
    if s.saf.damped then s
    else
      let s1 := { s with cams := { s.cams with lanes := mapDel s.cams.lanes lane } }
      let (s2, g) := s1.writeFrame c f
      s2.modChan c fun x => { x with ready := x.ready ++ [g] }

def execM2mLaneDone (lane : Nat) (s : State) : Host.Outcome State Fault Refusal := .next (m2mLaneDone lane s)

end Sys2Proof.Machine
end

