-- ==== Sys2Proof/Machine/Audio.lean ====
section
/-! DEFINITION. Listening: the sample index, microphones, analog inputs, beams, the history and TDM playback (R371 to R384). -/

namespace Sys2Proof.Machine

open Sys2Proof

/-! ### Sample words (R378) -/

def fSettle : Nat := 2 ^ 26
def fMuted : Nat := 2 ^ 27
def fRamp : Nat := 2 ^ 28
def fLowband : Nat := 2 ^ 29
def fClip : Nat := 2 ^ 30
def fUnderrun : Nat := 2 ^ 31

/-- A sample before it is packed: its value, its range code, and its flags as set bits of the word. -/
structure Sample where
  value : Int := 0
  range : Nat := 3
  flags : Nat := 0
  deriving DecidableEq, Repr

def Sample.word (x : Sample) : W32 := BitVec.ofNat 32 (unsigned x.value 24 + 2 ^ 24 * x.range + x.flags)

def fullScale : Int := 2 ^ 23 - 1

/-- Saturates at a peak, with CLIP. -/
def saturate (peak v : Int) : Int × Nat :=
  if peak < v then (peak, fClip) else if v < -peak then (-peak, fClip) else (v, 0)

def State.audMuted (s : State) : Bool := s.flag Fld.AUD_MUTE_muted

/-! ### Clock modes (R372) -/

/-- The mode that a PDM clock is asked for, that of SLEEP until the hub's logic is ready: 0 off, 1 listening, 2 full; a reserved code leaves it off. -/
def State.wantedMode (s : State) (k : Nat) : Nat :=
  let asleep := decide (s.power.phase = .sleep) || (decide (s.power.left = 2) && decide (s.power.phase ≠ .run))
  let m := if k = 0 then (if asleep then s.fld Fld.AUD_CTRL_mode_sleep0 else s.fld Fld.AUD_CTRL_mode_run0)
    else (if asleep then s.fld Fld.AUD_CTRL_mode_sleep1 else s.fld Fld.AUD_CTRL_mode_run1)
  if s.audMuted ∨ m = 3 then 0 else m

/-- At an index divisible by 3 the clocks take the modes asked for, and the microphones of a clock whose mode changes settle. -/
def State.applyModes (s : State) : State :=
  let a := s.audio
  if a.index % 3 ≠ 0 then s
  else
    let new := [s.wantedMode 0, s.wantedMode 1]
    let until_ := fun (k : Nat) =>
      if new.getD k 0 ≠ a.modes.getD k 0 then a.index + max 1 (s.fld Fld.AUD_CTRL_settle_ms) * 48
      else a.settle.getD k 0
    { s with audio := { a with modes := new, settle := [until_ 0, until_ 1] } }

/-- The clock of a microphone (R371). -/
def micClock (c : Nat) : Nat := c / 8

/-! ### Microphones and beams (R376, R379) -/

/-- Flags of microphone `c` for a stream of a rate. -/
def State.micFlags (s : State) (c : Nat) (rate48 : Bool) : Nat :=
  let a := s.audio
  let k := micClock c
  (if a.index < a.settle.getD k 0 then fSettle else 0) + (if s.audMuted then fMuted else 0) +
    (if rate48 ∧ a.modes.getD k 0 = 1 then fLowband else 0)

/-- A microphone's sample: `mics` holds what the decimators deliver, at 48 kHz from place 0 and at 16 kHz from place 16. -/
def State.micSample (s : State) (mics : List Int) (c : Nat) (rate48 : Bool) : Sample :=
  let (v, clip) := saturate fullScale (mics.getD (if rate48 then c else 16 + c) 0)
  { value := if s.audMuted then 0 else v, flags := s.micFlags c rate48 + (if s.audMuted then 0 else clip) }

/-- The delay in samples of a beam's rate, where it is whole (R379): in listening mode a third, rounded to 1/16. -/
def wholeDelay (delay : Nat) (rate48 : Bool) : Option Nat :=
  let d := if rate48 then delay else (2 * delay + 3) / 6
  if d % 16 = 0 then some (d / 16) else none

/-- A beam's sample. With whole delays and the rate of its microphones' mode the sum is exact up to the rounding of its fraction,
which is open by one unit; otherwise the interpolator and the decimator, whose taps are not given, leave it open. -/
def State.beamSample (s : State) (mics : List Int) (b : Nat) (rate48 : Bool) : State × Sample :=
  let a := s.audio
  let reg := fun (c : Nat) => mapGet a.beams (b * 16 + c) 0
  let ms := (natRange 0 16).filter fun c => decide (bits (reg c) 16 16 ≠ 0)
  let flags := ms.foldl (fun f c => Nat.lor f (s.micSample mics c rate48).flags) 0
  if s.audMuted then (s, { value := 0, flags := Nat.lor flags fMuted })
  else
    let (s1, w) := s.drawWord
    let exact := ms.all fun c => decide (a.modes.getD (micClock c) 0 = if rate48 then 2 else 1) &&
      (wholeDelay (bits (reg c) 0 14) rate48).isSome
    let sum := ms.foldl (fun t c =>
      let k := (wholeDelay (bits (reg c) 0 14) rate48).getD 0
      let past := a.past.getD (if rate48 then k else 3 * k) []
      t + signed (bits (reg c) 16 16) 16 * past.getD (if rate48 then c else 16 + c) 0) (0 : Int)
    let v := if exact then (if sum % 16384 = 0 then sum / 16384 else sum / 16384 + ((w % 2 : Nat) : Int)) else signed (w % 2 ^ 24) 24
    let (v1, clip) := saturate fullScale v
    (s1, { value := v1, flags := Nat.lor flags clip })

/-- Rewritten delays and weights take effect at an index divisible by 48 (R379). -/
def State.applyBeams (s : State) : State :=
  if s.audio.index % 48 ≠ 0 then s
  else
    let regs := (natRange 0 64).map fun i => (i, s.reg (Reg.AUD_BEAM (i / 16) (i % 16)))
    { s with audio := { s.audio with beams := regs } }

/-! ### Analog inputs (R373 to R375) -/

/-- The code of a range's peak. -/
def rangePeak (r : Nat) : Int := fullScale / (4 ^ r : Nat)

/-- A range is requested at an index (R374). -/
def Adc.request (a : Adc) (target n : Nat) : Adc :=
  match a.ramp with
  | some _ => { a with held := some target }
  | none =>
    if target = a.range then { a with pending := none }
    else
      match a.pending with
      | some (_, at_) => { a with pending := some (target, at_) }
      | none => { a with pending := some (target, n), crossed := false }

/-- A pending range is applied at the first sample after a zero crossing, or forced at the end of its window; a ramp goes on. -/
def Adc.begin (a : Adc) (n : Nat) : Adc :=
  match a.ramp with
  | some (pos, t) => if pos = 16 then { a with range := t } else a
  | none =>
    match a.pending with
    | some (t, at_) =>
      if a.crossed then { a with range := t, pending := none }
      else if at_ + 48 ≤ n then { a with ramp := some (0, t), pending := none }
      else a
    | none => a

/-- What follows the sample: its crossing, its level for automatic ranging, and the end of a ramp. -/
def Adc.finish (a : Adc) (v : Int) (n : Nat) : Adc :=
  let crossed := decide (v = 0) || decide (a.last * v < 0)
  let below := fun (r : Nat) => decide (2 * (v.natAbs : Int) < rangePeak r)
  let a1 := { a with crossed := crossed, last := v, quiet1 := if below 1 then a.quiet1 + 1 else 0, quiet2 := if below 2 then a.quiet2 + 1 else 0 }
  match a1.ramp with
  | some (pos, t) =>
    if pos = 31 then
      match a1.held with
      | some h => ({ a1 with ramp := none, held := none }).request h n
      | none => { a1 with ramp := none }
    else { a1 with ramp := some (pos + 1, t) }
  | none => a1

/-- Steps of automatic ranging (R375). -/
def Adc.auto (a : Adc) (v : Int) (hold n : Nat) : Adc :=
  if 0 < a.range ∧ 7 * rangePeak a.range < 8 * (v.natAbs : Int) then a.request (a.range - 1) n
  else if a.range < 2 ∧ hold * 48 ≤ (if a.range = 0 then a.quiet1 else a.quiet2) then a.request (a.range + 1) n
  else a

/-- A sample under the digital gain of place `pos` of a ramp (R374): the gain falls from 1 to 0 over 16 samples and rises from 0 to 1 over
the next 16; the rounding of the product is open by one unit (DESIGN CHOICE, log 167). -/
def rampValue (pos : Nat) (v : Int) (up : Bool) : Int :=
  let k : Int := if pos < 16 then ((15 - pos : Nat) : Int) else ((pos - 16 : Nat) : Int)
  if v * k % 15 = 0 then v * k / 15 else v * k / 15 + (if up then 1 else 0)

/-- One analog sample; under mute the ADC's output is zero (R381). -/
def State.adcSample (s : State) (i : Nat) (raw : Int) : State × Sample :=
  let a0 := s.audio.adcs.getD i {}
  let n := s.audio.index
  let a1 := a0.begin n
  let (v, clip) := if s.audMuted then (0, 0) else saturate (rangePeak a1.range) raw
  let ramp := a1.ramp.isSome
  let (s1, w) := s.drawWord
  let a2 := a1.finish v n
  let a3 := if s.flag (Fld.AUD_ADC_CTRL_auto_range i) then a2.auto v (s.fld (Fld.AUD_ADC_CTRL_down_hold_ms i)) n else a2
  let out := match a1.ramp with | some (pos, _) => rampValue pos v (decide (w % 2 = 1)) | none => v
  let s2 := if ramp then s1 else s
  ({ s2 with audio := { s2.audio with adcs := s2.audio.adcs.set i a3 } },
   { value := out, range := a1.range
     flags := (if s.audMuted then fMuted else 0) + (if ramp then fRamp else 0) + clip })

/-- RANGE_REQUEST: a write of AUD_ADC_CTRL of an input; code 3 stores 2 (R374, R400). -/
def rangeRequest (input : Nat) (value : W32) (s : State) : State :=
  if 2 ≤ input then s
  else
    let v0 := value.toNat % 0x4000
    let v := if bits v0 1 2 = 3 then setBits v0 1 2 2 else v0
    if s.flag (Fld.AUD_ADC_CTRL_adc_enable input) ∧ bits v 4 10 ≠ s.fld (Fld.AUD_ADC_CTRL_down_hold_ms input) then
      s.setFlag Fld.AUD_STATUS_expert_write_ignored true
    else
      let s1 := s.setReg (Reg.AUD_ADC_CTRL input) v
      let a := s1.audio.adcs.getD input {}
      { s1 with audio := { s1.audio with adcs := s1.audio.adcs.set input (a.request (bits v 1 2) s1.audio.index) } }

def execRangeRequest (input : Nat) (value : W32) (s : State) : Host.Outcome State Fault Refusal :=
  .next (rangeRequest input value s)

/-! ### TDM (R383, R384) -/

def State.wakeClient (s : State) : Nat := s.fld Fld.WAK_CLIENT_client

def State.tdmOn (s : State) : Bool := s.flag Fld.AUD_TDM_CTRL_tdm_enable
def State.tdmSlots (s : State) : Nat := 2 ^ (s.fld Fld.AUD_TDM_CTRL_slots + 1)
def State.tdmTimes (s : State) : Nat := if s.flag Fld.AUD_TDM_CTRL_tdm_rate48 then 48 else 16

/-- A word as its slot carries it: its leading 16, 24 or 32 bits (R383); a reserved `slot_bits` acts as 2. -/
def State.slotWord (s : State) (n : Nat) : W32 :=
  let k := match s.fld Fld.AUD_TDM_CTRL_slot_bits with | 0 => 16 | 1 => 8 | _ => 0
  BitVec.ofNat 32 (n / 2 ^ k * 2 ^ k)

/-- A word on the wire: the bits of its slot, most significant first (R383). -/
def State.slotBytes (s : State) (w : W32) : List Byte :=
  (leBytes w.toNat 4).reverse.take (match s.fld Fld.AUD_TDM_CTRL_slot_bits with | 0 => 2 | 1 => 3 | _ => 4)

/-- TDM_PLAYBACK_TICK: each 1 ms the next frame of the playback ring is sent when the produced word exceeds its number, and
otherwise, or after the damper has acted, or where the memory cannot be read, as in SLEEP, 1 ms of zeros. -/
def tdmPlaybackTick (s : State) : State :=
  if !s.tdmOn then s
  else
    let cl := s.fld Fld.WAK_CLIENT_client
    let n := s.tdmTimes * s.tdmSlots
    let f := s.audio.playFrame
    let a := s.fld Fld.AUD_PLAY_BASE_play_base + f % max 1 (s.fld Fld.AUD_TDM_CTRL_play_count) * (4 * n)
    let up := decide (s.power.phase = .run)
    let due := up && match s.cread64 cl (s.fld Fld.AUD_PLAY_PRODUCED_produced_addr) with
      | .ok p => decide (f < p)
      | .error _ => false
    let data := match due, s.cread cl a (4 * n) with
      | true, .ok bs => some bs
      | _, _ => none
    let s := if up then s.fetchHub (s.fld Fld.AUD_PLAY_PRODUCED_produced_addr) 8 else s
    let s := if due then s.fetchHub a (4 * n) else s
    let play := fun (t : State) (ws : List W32) (silence : Bool) =>
      let a := t.audio
      (t.send (.port "TDM_OUT" (ws.flatMap s.slotBytes))) |> fun (u : State) =>
        { u with audio := { a with played := a.playing, playing := (ws, silence) } }
    match data, s.saf.damped with
    | some bs, false =>
      let ws := (natRange 0 n).map fun k => s.slotWord (atOff bs (4 * k) 4)
      let t := play s ws false
      { t with audio := { t.audio with playFrame := f + 1 } }
    | _, _ => (play s (List.replicate n 0) true).addFld Fld.AUD_TDM_CTRL_underrun_ms 1

def execTdmPlaybackTick (s : State) : Host.Outcome State Fault Refusal := .next (tdmPlaybackTick s)

/-- A TDM in slot, or the loopback of a TDM out slot 48 indices after it was sent (R377, R380); a slot that the configuration lacks gives a
zero word. -/
def State.tdmSample (s : State) (tdmIn : List Int) (out : Bool) (slot : Nat) : Sample :=
  if !s.tdmOn ∨ s.tdmSlots ≤ slot then { range := 0 }
  else if !out then { value := tdmIn.getD slot 0 }
  else
    let (ws, silence) := s.audio.played
    let i := if s.tdmTimes = 48 then s.audio.index % 48 else s.audio.index % 48 / 3
    { value := signed ((ws.getD (i * s.tdmSlots + slot) 0).toNat / 256) 24, flags := if silence then fUnderrun else 0 }

/-! ### The history (R380) and one sample period -/

/-- The latest index written. -/
def State.liveIndex (s : State) : Nat := s.audio.index - 1

/-- Samples that the history of a 48,000 Hz stream holds (R380). -/
def historySamples : Nat := 120000

/-- The lowest index that the history holds (R380). -/
def State.historyLow (s : State) : Nat := if s.liveIndex < historySamples then 0 else s.liveIndex + 1 - historySamples

def State.histWord (s : State) (e i : Nat) : Option W32 :=
  (((mapGet s.audio.hist e []).find? fun x => decide (x.1 = i))).map (·.2)

/-- The sample of a history entry's source. -/
def State.sourceSample (s : State) (mics tdmIn : List Int) (adcs : List Sample) (source : Nat) (rate48 : Bool) : State × Sample :=
  if source < 0x10 then (s, s.micSample mics source rate48)
  else if source < 0x14 then s.beamSample mics (source - 0x10) rate48
  else if source = 0x14 ∨ source = 0x15 then (s, adcs.getD (source - 0x14) {})
  else if 0x20 ≤ source ∧ source < 0x30 then (s, s.tdmSample tdmIn false (source - 0x20))
  else if 0x30 ≤ source ∧ source < 0x40 then (s, s.tdmSample tdmIn true (source - 0x30))
  else (s, {})

def State.recordEntry (s : State) (mics tdmIn : List Int) (adcs : List Sample) (e : Nat) : State :=
  let rate48 := s.flag (Fld.AUD_HIST_ENTRY_rate48 e)
  let n := s.audio.index
  if !s.flag (Fld.AUD_HIST_ENTRY_hist_enable e) ∨ (!rate48 ∧ n % 3 ≠ 0) then s
  else
    let (s1, x) := s.sourceSample mics tdmIn adcs (s.fld (Fld.AUD_HIST_ENTRY_source e)) rate48
    let words := ((n, x.word) :: mapGet s1.audio.hist e []).take (if rate48 then historySamples else 40000)
    let s2 := { s1 with audio := { s1.audio with hist := mapSet s1.audio.hist e words } }
    if Nat.land x.flags fClip ≠ 0 then s2.setFlag Fld.AUD_STATUS_clip_seen true else s2

/-- Listening runs in RUN, IDLE and SLEEP, and through a wake (R380). -/
def State.listening (s : State) : Bool :=
  s.flag Fld.AUD_CTRL_enable && !([PowerPhase.unpowered, .off, .deep].contains s.power.phase) && (s.awake || decide (s.power.left ≠ 3))

/-- SAMPLE_TICK: one 48 kHz period. -/
def sampleTick (mics analog tdmIn : List Int) (s : State) : State :=
  if !s.listening then s
  else
    let s1 := s.applyModes.applyBeams
    let s2 := { s1 with audio := { s1.audio with
      past := (mics.map (fun v => if s.audMuted then 0 else (saturate fullScale v).1) :: s1.audio.past).take 1100
      stamps := if s1.audio.index % 48 = 0 then ((s1.audio.index, s.tb) :: s1.audio.stamps).take 2501 else s1.audio.stamps } }
    let (s3, x0) := s2.adcSample 0 (analog.getD 0 0)
    let (s4, x1) := s3.adcSample 1 (analog.getD 1 0)
    let s5 := forEach (natRange 0 24) s4 fun e t => t.recordEntry mics tdmIn [x0, x1] e
    { s5 with audio := { s5.audio with index := s5.audio.index + 1 } }

def execSampleTick (mics analog tdmIn : List Int) (s : State) : Host.Outcome State Fault Refusal :=
  .next (sampleTick mics analog tdmIn s)

/-- AUD_ENABLE: a write of AUD_CTRL with `enable` 1 while it is 0 starts listening, with the index at 0 and the history empty. Any other
write of the register sets its fields, but for `mic_enable` while it is 1, and is discarded where it changes `settle_ms` then (R17,
R400). -/
def audEnable (value : W32) (s : State) : State :=
  let v0 := value.toNat % 2 ^ 31
  let v := if bits v0 25 6 = 0 then setBits v0 25 6 1 else v0
  let old := s.reg Reg.AUD_CTRL
  if s.flag Fld.AUD_CTRL_enable then
    if bits v 25 6 ≠ bits old 25 6 then s.setFlag Fld.AUD_STATUS_expert_write_ignored true
    else
      let s1 := s.setReg Reg.AUD_CTRL (setBits v 1 16 (bits old 1 16))
      if bits v 1 16 ≠ bits old 1 16 then s1.setFlag Fld.AUD_STATUS_write_ignored true else s1
  else if !bit v 0 then s.setReg Reg.AUD_CTRL v
  else
    let ranges := (natRange 0 2).map fun i => ({ range := s.fld (Fld.AUD_ADC_CTRL_range i) } : Adc)
    { s.setReg Reg.AUD_CTRL v with audio := { adcs := ranges, playFrame := s.audio.playFrame, playing := s.audio.playing, played := s.audio.played } }

def execAudEnable (value : W32) (s : State) : Host.Outcome State Fault Refusal := .next (audEnable value s)

/-- AUD_LATCH: the index and the timebase at one instant (R377). -/
def audLatch (s : State) : State := (s.setReg Reg.AUD_LATCH_INDEX s.audio.index).setReg Reg.AUD_LATCH_TB s.tb

def execAudLatch (s : State) : Host.Outcome State Fault Refusal := .next (audLatch s)

/-- A wake source fires (R457, R475): from SLEEP, DEEP or OFF the power-up order starts, and PWR_WAKE_LOG takes the state left and
the cause (1 WAKE pin, 2 Tinder, 4 alarm); a source in the same RTC tick as the wake is recorded too. -/
def State.wakeUp (s : State) (cause : Nat) : State :=
  let left := match s.power.phase with
    | .sleep => 2
    | .deep => 3
    | .off => 4
    | _ => 0
  if left ≠ 0 then
    let s1 := (s.setFld Fld.PWR_WAKE_LOG_last_state left).setFld Fld.PWR_WAKE_LOG_cause cause
    let s2 := s1.setFld Fld.PWR_STATUS_state 3
    { s2 with power := { s2.power with
        phase := .regulator, left := left, edgeAt := s.tb, oscReady := false, edgeSinceOsc := false
        wokeAt := if cause = 1 then none else some s.tb } }
  else if s.power.phase = .regulator ∧ s.power.left ≠ 0 ∧ s.power.edgeAt = s.tb then
    s.setFld Fld.PWR_WAKE_LOG_cause (Nat.lor (s.fld Fld.PWR_WAKE_LOG_cause) cause)
  else s

/-! ### The always-on budget (R463) -/

/-- Microphones whose clock has a mode. -/
def State.micsIn (s : State) (m0 m1 mode : Nat) : Nat :=
  ((natRange 0 16).filter fun c => bit (s.fld Fld.AUD_CTRL_mic_enable) c && decide ((if micClock c = 0 then m0 else m1) = mode)).length

/-- Enabled history entries of a rate. -/
def State.histAt (s : State) (rate48 : Bool) : List Nat :=
  (natRange 0 24).filter fun e => s.flag (Fld.AUD_HIST_ENTRY_hist_enable e) && decide (s.flag (Fld.AUD_HIST_ENTRY_rate48 e) = rate48)

/-- Beams that entries of a rate record. -/
def State.beamsAt (s : State) (rate48 : Bool) : Nat :=
  ((natRange 0 4).filter fun b => (s.histAt rate48).any fun e => decide (s.fld (Fld.AUD_HIST_ENTRY_source e) = 0x10 + b)).length

/-- The maximum AON current in µA in SLEEP, or in DEEP (R463). -/
def State.aonBudget (s : State) (deep : Bool) : Nat :=
  let banks := ((natRange 0 s.nDies).map fun d =>
    ((natRange 0 16).filter fun k => bit (s.fld (Fld.PWR_RETAIN_banks d)) k).length).foldl (· + ·) 0
  let base := 2000 + 1500 + 5000 * banks
  if deep then base
  else
    let on := s.flag Fld.AUD_CTRL_enable && !s.audMuted
    let m0 := s.fld Fld.AUD_CTRL_mode_sleep0
    let m1 := s.fld Fld.AUD_CTRL_mode_sleep1
    base + (if on then 400 * s.micsIn m0 m1 1 + 1200 * s.micsIn m0 m1 2 else 0) +
      (if s.flag Fld.AUD_CTRL_enable then
        500 * s.beamsAt false + 1500 * s.beamsAt true + 300 * (s.histAt false).length + 800 * (s.histAt true).length else 0) +
      (if s.flag Fld.WAK_CTRL_tinder_enable then 2600 else 0) + (if s.flag Fld.WAK_CTRL_presence_enable then 10000 else 0)

end Sys2Proof.Machine
end

