-- ==== Sys2Proof/Machine/WakeRun.lean ====
section
/-! DEFINITION. What the stages of the wake chain compute: Tinder's features, and the programs of wake images (R387, R388, R391, R398,
R399). -/

namespace Sys2Proof.Machine

open Sys2Proof

/-! ### Features (R387) -/

/-- π in fixed point of 128 fraction bits. -/
def fixPi : Int := 1069028584064966747859680373161870783301

/-- The terms of the cosine series from `t` on, the next being of degree 2`k`; `x2` is the square of the angle in fixed point. -/
def cosSeries (x2 : Int) : Nat → Int → Int → Int
  | 0, _, _ => 0
  | n + 1, k, t => t + cosSeries x2 n (k + 1) (-(t * x2) / (2 ^ 128 * ((2 * k - 1) * (2 * k))))

/-- cos(2π `num` / `den`) in fixed point, to far more bits than a band value shows. -/
def cosTurn (num den : Nat) : Int :=
  let x := 2 * fixPi * ((num % den : Nat) : Int) / den
  cosSeries (x * x / 2 ^ 128) 48 1 (2 ^ 128)

/-- A Hann window over samples (R387). Whether its period is their number or one less is open (`Config.hannPeriodic`, log 93). -/
def hann (samples : List Int) : List Int :=
  let n := if Config.hannPeriodic then samples.length else samples.length - 1
  samples.mapIdx fun i v => v * ((2 ^ 128 - cosTurn i n) / 2)

/-- The power of bin `k` of the 512-point FFT of windowed samples, full scale being 1.0 (R387). -/
def binPower (cosines : Array Int) (xs : List Int) (k : Nat) : Rat :=
  let part := fun (turn : Nat) => (xs.mapIdx fun i v => v * cosines.getD ((k * i + turn) % 512) 0).foldl (· + ·) (0 : Int)
  let re := part 0
  let im := part 384
  ((re * re + im * im : Int) : Rat) / ((2 ^ 512 * ((2 ^ 23 - 1) * (2 ^ 23 - 1)) : Int) : Rat)

/-- Bins from 60 Hz to 7.6 kHz: bin `k` is `k` × 31.25 Hz. -/
def melBins : List Nat := natRange 2 242

/-- The energies of the 40 mel bands of a hop's samples (R387). How much of a bin each band takes is open (`Config.melWeight`, log 93). -/
def bandEnergies (samples : List Int) : List Rat :=
  let xs := hann samples
  let cosines := ((natRange 0 512).map fun i => cosTurn i 512).toArray
  let powers := melBins.map fun k => (k, binPower cosines xs k)
  (natRange 0 40).map fun b => (powers.map fun p => max 0 (Config.melWeight b p.1) * p.2).foldl (· + ·) 0

/-- The value of a mel band from its energy (R387): 8 (log2(E + 2^-24) + 8) rounded, as the number of half-way points that the sixteenth
power of E + 2^-24 reaches. -/
def bandValue (energy : Rat) : Int :=
  let x := (max energy 0 + 1 / 2 ^ 24) ^ 16
  let reached := (natRange 0 255).filter fun (i : Nat) =>
    -- the half-way point below -127 + i
    let k : Int := 2 * ((i : Int) - 127 - 64) - 1
    decide ((if k < 0 then (1 : Rat) / 2 ^ (-k).toNat else 2 ^ k.toNat) ≤ x)
  (reached.length : Int) - 128

/-- The sample that a history entry holds at an index. -/
def State.sampleAt (s : State) (e i : Nat) : Int := signed (((s.histWord e i).getD 0).toNat % 2 ^ 24) 24

/-- The 40 values of the hop that ends before index `n`: its window is the last 25 ms of the samples of `tinder_src` (R387). -/
def State.hopFeatures (s : State) (n : Nat) : List Int :=
  let samples := (natRange 0 400).map fun i => s.sampleAt (s.fld Fld.WAK_CTRL_tinder_src) (n + 3 * i - 1200)
  (bandEnergies samples).map bandValue

/-! ### A program of a wake image (R388, R391, R398)

An image's copy is in its stage's own memory. The model runs a program of it on a state of its own, in which the copy lies at the start of
the ring window and Kindling's unit is the one engine, and takes the copy back from there (DESIGN CHOICE, log 188). -/

/-- A field of a wake image. -/
def imageField (img : Option (List Byte)) (o n : Nat) : Nat := atOff (img.getD []) o n

def imageEng : Eng := ⟨hubDie, 0, 0⟩

/-- A card of an image, its addresses counted from the start of the copy (R398), in the state that runs it. -/
def Card.inStage (c : Card) : Card := { c with base := remoteBase + c.base, scaleBase := remoteBase + c.scaleBase }

/-- The card table of program `k`. -/
def imageCards (img : List Byte) (k : Nat) : List Card :=
  (natRange 0 (atOff img (28 + 16 * k) 1)).map fun i => parseCard ((img.drop (atOff img (24 + 16 * k) 4 + 64 * i)).take 64)

/-- The instructions of program `k`. -/
def imageWords (img : List Byte) (k : Nat) : List W128 :=
  (natRange 0 (atOff img (20 + 16 * k) 4)).map fun i => BitVec.ofNat 128 (atOff img (atOff img (16 + 16 * k) 4 + 16 * i) 16)

/-- Program `k` as a run of one engine. -/
def State.imageRun (s : State) (img : List Byte) (k : Nat) : Run :=
  { die := hubDie, kind := 6, engs := [{ unit := 0x010 }], client := s.wakeClient, start := s.tb
    cmd := { kind := 6, program := remoteBase + atOff img (16 + 16 * k) 4, programLen := atOff img (20 + 16 * k) 4
             cards := (imageCards img k).map Card.inStage } }

/-- The state that runs program `k` of an image, with what `input` puts into its card 0. -/
def State.stageState (s : State) (img : List Byte) (k : Nat) (input : Card → List (Nat × List Byte)) : State :=
  let t := ({ s with mem := [], runs := [s.imageRun img k], steps := [], residencies := [], waiting := [] }).store remoteBase img
  match ((imageCards img k).map Card.inStage)[0]? with
  | some c => forEach ((input c).filter fun x => decide (x.1 + x.2.length ≤ remoteBase + img.length)) t fun x u => u.store x.1 x.2
  | none => t

/-- The cards that instruction `w` of a program may write: an image has no write mask, so every card that the program writes counts as
one of its write set but for the sources of the instruction itself (DESIGN CHOICE, log 188). -/
def imageMask (words : List W128) (w : W128) : Nat :=
  let cards := fun (x : W128) => (usedRefs x).map (·.card)
  let outs := words.flatMap fun x => if (wdst x).absent then [] else (cards x).take 1
  let ins := (cards w).drop (if (wdst w).absent then 0 else 1)
  (outs.eraseDups.filter fun k => !ins.contains k).foldl (fun a k => a + 2 ^ k) 0

/-- Codebooks that are being loaded arrive. -/
def State.loadsDone (t : State) : State :=
  match t.engOf imageEng with
  | some (_, g) =>
    let u := forEach g.preloads { t with tb := 2 ^ 64 } fun _ v => codebookLoadDone imageEng v
    { u with tb := t.tb }
  | none => t

/-- One instruction of an image's program (R214). -/
def stageFx (w : W128) (c : Ctx) (t : State) : State × Option Nat :=
  match wbyte w 0 with
  | 0x00 => nopFx w c t
  | 0x01 => endProgramFx imageEng w c t
  | 0x02 => syncFx imageEng w c t
  | 0x03 => waitFx imageEng w c t
  | 0x04 => signalFx imageEng w c t
  | 0x05 => allocFx imageEng w c t
  | 0x06 => freeFx imageEng w c t
  | 0x07 => walkFx imageEng w c t
  | 0x30 => matmulFx imageEng w .pass c t
  | 0x31 => cbPreloadFx imageEng w c t
  | 0x50 => gseqSetFx imageEng w c t
  | 0x51 => gseqClrFx imageEng w c t
  | 0x52 => gateFx w .map .pass c t
  | 0x53 => gateFx w .rows .pass c t
  | 0xA0 => markFx imageEng w c t
  | 0xA1 => cntEmitFx imageEng w c t
  | _ => (t, some (if opAllowed 6 (wbyte w 0) then 0x0606 else 0x0401))

/-- The engine of a program runs until its END, for at most so many instructions: the state, and the detail of what it fails with. A wait
that nothing can end is one (R142). -/
def State.runStage (words : List W128) : Nat → State → State × Option Nat
  | 0, t => (t, some 0x0403)
  | n + 1, t =>
    match t.engOf imageEng with
    | none => (t, some 0x0402)
    | some (r, g) =>
      match words[g.pc]? with
      | none => (t, some 0x0403)
      | some w =>
        let r1 := { r with cmd := { r.cmd with writeMask := imageMask words w } }
        match stageFx w (ctxOf imageEng r1 g w) (t.begun imageEng w r g) with
        | (t1, some d) => (t1, some d)
        | (t1, none) =>
          let t2 := t1.loadsDone
          match t2.engOf imageEng with
          | none => (t2, some 0x0402)
          | some (_, g2) =>
            if g2.ended then (t2, none)
            else match g2.stall with
              | .none => State.runStage words n (t2.advance imageEng)
              | .sync _ _ => State.runStage words n (t2.releaseSync imageEng)
              | _ => (t2, some 0x0408)

/-- What a program's run leaves: the state that ran it, and the detail of its failure. -/
def State.runWake (s : State) (img : List Byte) (k : Nat) (input : Card → List (Nat × List Byte)) : State × Option Nat :=
  let words := imageWords img k
  State.runStage words (words.length + 1) (s.stageState img k input)

/-- The image's copy after a run. -/
def imageAfter (t : State) (img : List Byte) : List Byte := (natRange remoteBase img.length).map fun a => memoryGet t.mem a

/-- `n` bytes of card 1 of a program, as its run left them. -/
def imageOutput (t : State) (img : List Byte) (k n : Nat) : List Byte :=
  match (imageCards img k)[1]? with
  | some c => (natRange (remoteBase + c.base) n).map fun a => memoryGet t.mem a
  | none => List.replicate n 0

/-- FP32 values of card 1. -/
def imageValues (t : State) (img : List Byte) (k n : Nat) : List W32 :=
  let bs := imageOutput t img k (4 * n)
  (natRange 0 n).map fun i => BitVec.ofNat 32 (atOff bs (4 * i) 4)

/-- What a run on Kindling leaves in the package beside the image's copy: the free values it drew, and its counters and trace packets.
Tinder has neither counters nor trace. -/
def State.afterImage (s t : State) (kindling : Bool) : State :=
  if kindling then { s with drawn := t.drawn, cnts := t.cnts, trace := t.trace } else { s with drawn := t.drawn }

/-- The feature window as an INT8 card of extents (40, 100), the newest hop at column 99; hops before the first hold silence (R387). -/
def featureInput (feats : List (List Int)) (c : Card) : List (Nat × List Byte) :=
  (natRange 0 100).map fun h =>
    (c.base + c.str 1 * h, (natRange 0 40).map fun b => BitVec.ofInt 8 (((feats[99 - h]?).getD []).getD b (-128)))

/-- A sample as FP32, full scale being 1.0 (DESIGN CHOICE, log 188). -/
def sample32 (v : Int) : Nat := pattern32 (div32 1 (numOfInt v) (numOfInt fullScale))

/-- Samples of `tinder_src` from index `from_` on as an FP32 card (R391). -/
def State.sampleInput (s : State) (from_ : Nat) (c : Card) : List (Nat × List Byte) :=
  [(c.base, (natRange 0 (min 32000 (c.ext 0))).flatMap fun j =>
    leBytes (sample32 (s.sampleAt (s.fld Fld.WAK_CTRL_tinder_src) (from_ + 3 * j))) 4)]

/-- The last sample that card 0 of a program holds, whose first is that of index `from_`. -/
def imageLast (img : List Byte) (k from_ : Nat) : Nat := from_ + 3 * (min 32000 (((imageCards img k).getD 0 {}).ext 0) - 1)

/-! ### The checks of an image (R398, R399) -/

/-- The array's limits on an instruction: level-0 extents m and n of 1 to 16 on Tinder's array and 1 to 32 on Kindling's, and on Tinder's
INT8 and INT4 operands alone (R214, R398). -/
def imageLimitsOk (target : Nat) (cards : List Card) (w : W128) : Bool :=
  let most := if target = 1 then 16 else 32
  let int := fun (r : Ref) => r.absent || [1, 3].contains (cards.getD r.card {}).typ
  if wbyte w 0 = 0x07 ∧ bits (wbyte w 1) 4 2 = 0 then
    [wword w 8, wword w 10].all fun n => decide (1 ≤ n) && decide (n ≤ most)
  else target ≠ 1 || wbyte w 0 ≠ 0x30 || (int (wsrcA w) && int (wsrcB w))

/-- A card of an image: its tier is 1 and its bytes lie in the image (R398); Tinder's is not Ember. -/
def State.imageCardOk (s : State) (target len : Nat) (c : Card) : Bool :=
  decide (c.tier = 1) && (decide (target = 2) || !c.ember) &&
  (s.cardRanges s.wakeClient c.inStage).all fun r => decide (remoteBase ≤ r.1) && decide (r.1 + r.2 ≤ remoteBase + len)

/-- The checks of program `k` of an image: its parts and its cards lie in the image, its instructions keep the array's limits, and a run of
it on the image's copy as it is, from which nothing is kept, ends without a failure, so that every instruction passes the checks of R137
and R214 (R398, R399). -/
def State.programOk (s : State) (img : List Byte) (target k : Nat) : Bool :=
  let o := 16 + 16 * k
  let p := atOff img o 4
  let n := atOff img (o + 4) 4
  let t := atOff img (o + 8) 4
  let cards := imageCards img k
  decide (0 < n) && decide (p % 16 = 0) && decide (t % 16 = 0) && decide (p + 16 * n ≤ img.length) &&
    decide (t + 64 * cards.length ≤ img.length) && decide (atOff img (o + 13) 3 = 0) &&
    (let u := s.stageState img k fun _ => []
     cards.all (u.imageCardOk target img.length)) &&
    (imageWords img k).all (imageLimitsOk target cards) && (s.runWake img k fun _ => []).2.isNone

end Sys2Proof.Machine
end

