-- ==== Sys2Proof/Machine/Wake.lean ====
section
/-! DEFINITION. The wake chain: Tinder, Kindling, Blaze, privacy mute, the capture ring and wake images (R381, R382, R385 to
R399). -/

namespace Sys2Proof.Machine

open Sys2Proof

def unitKindling : Nat := unitOf hubDie 0x010

def State.stage (s : State) : Nat := s.fld Fld.WAK_STATE_stage
def State.modWake (s : State) (f : Wake → Wake) : State := { s with wake := f s.wake }
def State.running (s : State) : Bool := decide (s.power.phase = .run) && !s.saf.damped

/-- The chain goes to a stage (R385); Kindling stays held (R105) until the chain is back at Tinder (DESIGN CHOICE, log 151). -/
def State.setStage (s : State) (n : Nat) : State :=
  let s1 := (s.setFld Fld.WAK_STATE_stage n).packet 0x32 unitKindling 0xFFF (leBytes (n + s.wake.now.kind * 256) 4)
  let s2 := s1.modWake fun w =>
    { w with since := s.tb, tinderAt := if n = 0 then s.tb else w.tinderAt
             running := w.running && decide (n ≠ 0), resting := w.resting && decide (n = 1) }
  if n = 0 then { s2 with kindlingHeld := false } else s2.breakResleep

/-- Writes a wake record with its MSI-X message (R392, R393). -/
def State.wakeRecord (s : State) (event : Nat) : State :=
  let cl := s.wakeClient
  let d := s.wake.last
  let record := leBytes s.wake.wakeNo 8 ++ leBytes event 1 ++ leBytes d.kind 1 ++ leBytes d.speaker 1 ++ List.replicate 5 0 ++
    leBytes d.detect 8 ++ leBytes d.start 8 ++ leBytes s.historyLow 8 ++ leBytes d.encStart 8 ++ leBytes d.confirm.toNat 4 ++
    leBytes d.sim.toNat 4 ++ leBytes s.tb 8
  let slot := s.wake.wakeNo % max 1 (s.fld Fld.WAK_IRQ_rec_count)
  let s1 := (s.devWrite cl (s.fld Fld.WAK_REC_BASE_rec_base + 64 * slot) record).modWake fun w => { w with wakeNo := w.wakeNo + 1 }
  let s2 := s1.noteWakeOut
  s2.msix (s2.ownerFn cl) (s2.fld Fld.WAK_IRQ_msix_vector)

/-! ### Capture (R395, R396) -/

/-- The capture ring opens at a start index: rounded down to a multiple of 48, within what the history holds. -/
def State.openRing (s : State) (start : Nat) : State :=
  let live := s.liveIndex
  let low := s.historyLow
  let i := if live < start then live / 48 * 48 else if start / 48 * 48 < low then (low + 47) / 48 * 48 else start / 48 * 48
  (s.setFlag Fld.WAK_STATE_capture_open true).modWake fun w =>
    { w with capIndex := i, capFrame := 0, capLost := 0, capGap := false }

def State.closeRing (s : State) : State := s.setFlag Fld.WAK_STATE_capture_open false

/-- Entries that a capture frame holds. -/
def State.capEntries (s : State) : List Nat :=
  (natRange 0 24).filter fun e => s.flag (Fld.AUD_HIST_ENTRY_hist_enable e) && s.flag (Fld.AUD_HIST_ENTRY_capture e)

/-- The words of an entry in the 48 indices from `i`. -/
def State.capWords (s : State) (e i : Nat) : List W32 :=
  ((natRange i 48).filter fun k => s.flag (Fld.AUD_HIST_ENTRY_rate48 e) || decide (k % 3 = 0)).map fun k => (s.histWord e k).getD 0

/-- Whether a frame of the capture is free: the host has consumed enough of them. -/
def State.captureFree (s : State) : Bool :=
  match s.cread64 s.wakeClient (s.fld Fld.WAK_CAP_CONSUMED_consumed_addr) with
  | .ok n => decide (s.wake.capFrame - min n s.wake.capFrame < s.fld Fld.WAK_CAP_CFG_cap_count)
  | .error _ => false

/-- The first sample of the next frame: the next one due, or, once the history has dropped it, the next multiple of 48 held. -/
def State.captureStart (s : State) : Nat :=
  if s.wake.capIndex < s.historyLow then (s.historyLow + 47) / 48 * 48 else s.wake.capIndex

/-- The bytes of the frame that starts at sample `i` after `lost` samples lost: its header and its words. -/
def State.captureBytes (s : State) (i lost : Nat) (gap : Bool) : List Byte :=
  let entries := s.capEntries
  let words := entries.map fun e => s.capWords e i
  let any := fun (m : Nat) => words.any fun ws => ws.any fun x => decide (Nat.land x.toNat m ≠ 0)
  let flags := b2n gap + b2n (decide (i + 95 ≤ s.liveIndex)) * 2 + b2n (any fMuted) * 4 + b2n (any fSettle) * 8
  let stamp := match s.audio.stamps.find? fun (x : Nat × Nat) => decide (x.1 = i) with
    | some x => x.2
    | none => s.tb
  leBytes i 8 ++ leBytes stamp 8 ++ leBytes (entries.foldl (fun a e => a + 2 ^ e) 0) 4 ++ leBytes flags 4 ++
    leBytes (min lost 0xFFFFFFFF) 4 ++ leBytes 0 4 ++ words.flatMap fun ws => ws.flatMap fun x => leBytes x.toNat 4

/-- CAPTURE_FRAME: the next frame, when its 48 indices have been written and the ring has room; indices that have left the
history are skipped with GAP. -/
def captureFrame (s : State) : State :=
  if !s.flag Fld.WAK_STATE_capture_open || s.saf.damped then s
  else
    let w0 := s.wake
    let i := s.captureStart
    let lost := w0.capLost + (i - w0.capIndex)
    let gap := w0.capGap || decide (i ≠ w0.capIndex)
    let s0 := s.modWake fun w => { w with capIndex := i, capLost := lost, capGap := gap }
    if s.liveIndex < i + 47 then s0
    else if !s.captureFree then s0.fetchHub (s.fld Fld.WAK_CAP_CONSUMED_consumed_addr) 8
    else
      let slot := s.fld Fld.WAK_CAP_BASE_cap_base +
        w0.capFrame % max 1 (s.fld Fld.WAK_CAP_CFG_cap_count) * (s.fld Fld.WAK_CAP_CFG_cap_stride * 256)
      ((s0.fetchHub (s.fld Fld.WAK_CAP_CONSUMED_consumed_addr) 8).devWrite s.wakeClient slot (s.captureBytes i lost gap)).modWake fun w =>
        { w with capIndex := i + 48, capFrame := w.capFrame + 1, capLost := 0, capGap := false }

def execCaptureFrame (s : State) : Host.Outcome State Fault Refusal := .next (captureFrame s)

/-! ### Replies (R385, R394) -/

def State.accept (s : State) (start : Nat) : State := if s.stage = 2 then (s.setStage 3).openRing start else s

def State.decline (s : State) : State :=
  if s.stage = 2 ∨ s.stage = 3 then
    (((s.closeRing.addFld Fld.WAK_CNT3_false_blaze 1).modWake fun w => { w with resting := true, running := false }).setStage 1)
  else s

def State.closeBlaze (s : State) : State := if s.stage = 2 ∨ s.stage = 3 then s.closeRing.setStage 0 else s

def State.openBlaze (s : State) (start : Nat) : State := if s.running then (s.setStage 3).openRing start else s

/-- ACCEPT. -/
def acceptReply (startIndex : Nat) (s : State) : State := s.accept startIndex

def execAcceptReply (startIndex : Nat) (s : State) : Host.Outcome State Fault Refusal := .next (acceptReply startIndex s)

/-- DECLINE. -/
def declineReply (s : State) : State := s.decline

def execDeclineReply (s : State) : Host.Outcome State Fault Refusal := .next (declineReply s)

/-- CLOSE. -/
def closeCapture (s : State) : State := s.closeBlaze

def execCloseCapture (s : State) : Host.Outcome State Fault Refusal := .next (closeCapture s)

/-- OPEN. -/
def openCapture (startIndex : Nat) (s : State) : State := s.openBlaze startIndex

def execOpenCapture (startIndex : Nat) (s : State) : Host.Outcome State Fault Refusal := .next (openCapture startIndex s)

/-- The control word is read, and acted on when its `cmd_seq` differs from the last one acted on; one with a reserved byte that is not zero
is ignored and recorded, as an undefined `op` is (R10, R394). -/
def State.readControl (s : State) : State :=
  let word := s.cread s.wakeClient (s.fld Fld.WAK_CTL_ADDR_ctl_addr) 16
  let s := s.fetchHub (s.fld Fld.WAK_CTL_ADDR_ctl_addr) 16
  match word with
  | .error _ => s
  | .ok b =>
    let seq := atOff b 0 4
    if s.wake.ctlSeq = some seq then s
    else
      let s1 := s.modWake fun w => { w with ctlSeq := some seq }
      let op := atOff b 4 1
      let start := atOff b 8 8
      if atOff b 5 3 ≠ 0 then s1
      else if op = 1 then s1.accept start
      else if op = 2 then s1.decline
      else if op = 3 then s1.closeBlaze
      else if op = 4 then s1.openBlaze start
      else s1

/-- The chain is enabled. -/
def State.chainOn (s : State) : Bool :=
  (s.flag Fld.WAK_CTRL_tinder_enable || s.flag Fld.WAK_CTRL_kindling_enable) && !s.saf.damped

/-- Bytes from one slot of the encoder ring to the next (R391). -/
def State.encPitch (s : State) : Nat := (imageField s.wake.kindling 74 2 + 8 + 63) / 64 * 64

/-- The check of the chain's structures as it is enabled (R356, R391 to R396): the client is attached and not detaching, addresses are
aligned, counts in their ranges, and every ring and word lies in pages granted to the client and backed. -/
def State.wakeStructsOk (s : State) : Bool :=
  let cl := s.wakeClient
  let recs := s.fld Fld.WAK_IRQ_rec_count
  let caps := s.fld Fld.WAK_CAP_CFG_cap_count
  let encs := s.fld Fld.WAK_CAP_CFG_enc_count
  let part := fun (a align n : Nat) => decide (a % align = 0) && s.inBacked cl a n
  s.attached cl && !s.detaching cl && decide (4 ≤ recs) && decide (4 ≤ caps) && decide (4 ≤ encs) &&
    part (s.fld Fld.WAK_REC_BASE_rec_base) 64 (64 * recs) && part (s.fld Fld.WAK_CTL_ADDR_ctl_addr) 16 16 &&
    part (s.fld Fld.WAK_CAP_BASE_cap_base) 4096 (caps * s.fld Fld.WAK_CAP_CFG_cap_stride * 256) &&
    part (s.fld Fld.WAK_CAP_CONSUMED_consumed_addr) 8 8 && part (s.fld Fld.WAK_ENC_BASE_enc_base) 64 (encs * s.encPitch)

/-- WAKE_RING_NUDGE: a nudge word that names the wake ring. -/
def wakeRingNudge (word : W32) (s : State) : State :=
  if s.chainOn && decide (bits word.toNat 0 20 = s.fld Fld.WAK_CLIENT_wake_ring) && decide (bits word.toNat 20 12 = 0) then s.readControl else s

def execWakeRingNudge (word : W32) (s : State) : Host.Outcome State Fault Refusal := .next (wakeRingNudge word s)

/-- CONTROL_WORD_POLL: each 1 ms while Blaze is pending or engaged. -/
def controlWordPoll (s : State) : State := if s.chainOn && decide (2 ≤ s.stage) then s.readControl else s

def execControlWordPoll (s : State) : Host.Outcome State Fault Refusal := .next (controlWordPoll s)

/-! ### Mute (R381, R382, R385) -/

/-- Mute comes into force: the clocks stop, MIC_VDD opens and indicator channel 0 is lit while `muted` reads 1; the chain leaves
Kindling or Blaze pending, and Blaze engaged gets a record. -/
def State.forceMute (s : State) : State :=
  if s.audMuted then s
  else
    let s0 := (s.setFlag Fld.AUD_MUTE_muted true).setFlag (Fld.IND_CH_on 0) true
    let s1 :=
      if s0.flag (Fld.IND_CH_short_latched 0) then s0.setFlag Fld.IND_STATUS_mute_ind_fault true
      else if (s0.indCh 0).lit then s0 else s0.lightChannel 0
    let s2 := { s1 with audio := { s1.audio with modes := [0, 0] } }
    if s.stage = 1 ∨ s.stage = 2 then s2.closeRing.setStage 0
    else if s.stage = 3 then (s2.wakeRecord 2).modWake fun w => { w with muteOn := true }
    else s2

/-- MUTE_PIN_FALL. -/
def mutePinFall (s : State) : State := (s.setFlag Fld.AUD_MUTE_pin_muted true).forceMute

def execMutePinFall (s : State) : Host.Outcome State Fault Refusal := .next (mutePinFall s)

/-- MUTE_WRITE: a write of AUD_MUTE sets or clears `mute`, and clears `mic_vdd_fault` where its bit is 1. -/
def muteWrite (value : W32) (s : State) : State :=
  let s1 := if bit value.toNat 3 then s.setFlag Fld.AUD_MUTE_mic_vdd_fault false else s
  let s2 := s1.setFlag Fld.AUD_MUTE_mute (bit value.toNat 0)
  if bit value.toNat 0 then s2.forceMute else s2

def execMuteWrite (value : W32) (s : State) : Host.Outcome State Fault Refusal := .next (muteWrite value s)

/-- MUTE_RELEASE: MUTE_N has been high for 1 ms; mute ends unless `mute` is 1, with a record after a MUTE_ON, and
indicator channel 0 is again as it was written. -/
def muteRelease (s : State) : State :=
  let s1 := s.setFlag Fld.AUD_MUTE_pin_muted false
  if s1.flag Fld.AUD_MUTE_mute ∨ !s1.audMuted then s1
  else
    let s2a := (s1.setFlag Fld.AUD_MUTE_muted false).endMuteLight
    let s2 := if 40000 < s2a.aonBudget false then s2a.breakResleep else s2a
    if s2.wake.muteOn then (s2.wakeRecord 3).modWake fun w => { w with muteOn := false } else s2

def execMuteRelease (s : State) : Host.Outcome State Fault Refusal := .next (muteRelease s)

/-- MIC_VDD is on unless muted: in RUN, IDLE and SLEEP, and through a wake from SLEEP (R464). -/
def State.micSupplied (s : State) : Bool :=
  decide (s.power.phase = .run) || decide (s.power.phase = .sleep) || decide (s.power.left = 2)

/-- MIC_VDD_LIMIT_EXPIRE: MIC_VDD, on and in current limit for 1 ms, opens. -/
def micVddLimitExpire (s : State) : State :=
  if s.audMuted ∨ s.micOpen ∨ !s.micSupplied then s
  else (({ s with micOpen := true }).setFlag Fld.AUD_MUTE_mic_vdd_fault true).logRecorded unitImage 0

def execMicVddLimitExpire (s : State) : Host.Outcome State Fault Refusal := .next (micVddLimitExpire s)

/-- MIC_VDD_RETRY: the switch closes again. -/
def micVddRetry (s : State) : State := { s with micOpen := false }

def execMicVddRetry (s : State) : Host.Outcome State Fault Refusal := .next (micVddRetry s)

/-! ### Tinder (R387 to R389) -/

/-- A threshold in S7.8. -/
def thresh (n : Nat) : Num := .fin (decide (0x8000 ≤ n)) (signed n 16).natAbs (-8)

/-- FP32 `x` is at least `t`. -/
def atLeast (x : W32) (t : Num) : Bool := !(num32 x.toNat).isNan && !(num32 x.toNat).lt t

/-- A detection (R385): it escalates from Tinder, waking the package from SLEEP, or being recorded as a cause of a wake in the same RTC tick
(R475), or starts a new confirmation while Kindling
holds after a Blaze decline. -/
def State.detected (s : State) (kind index : Nat) : State :=
  let asleep := decide (s.power.phase = .sleep)
  let note := fun (t : State) => t.modWake fun w => { w with now := { kind := kind, detect := index }, running := false, resting := false }
  if s.stage = 0 ∧ s.flag Fld.WAK_CTRL_kindling_enable ∧ (!asleep ∨ s.flag Fld.PWR_CTRL_wake_tinder_en) then
    let s1 := (((note s).setStage 1).addFld Fld.WAK_CNT0_esc_tinder 1)
    if asleep ∨ (s.power.phase = .regulator ∧ s.flag Fld.PWR_CTRL_wake_tinder_en) then s1.wakeUp 2 else s1
  else if s.stage = 1 ∧ s.wake.resting then (note s).modWake fun w => { w with since := s.tb }
  else s

/-- The nine logits of a hop decide which keywords are held, and a keyword held long enough is detected (R388). -/
def State.keywords (s : State) (logits : List W32) : State :=
  let hop := fun (k : Nat) => if s.flag (Fld.WAK_KW_kw_enable k) ∧
      atLeast (logits.getD (k + 1) 0) (thresh (s.fld (Fld.WAK_KW_kw_thresh k))) then s.wake.held.getD k 0 + 1 else 0
  let held := (natRange 0 8).map hop
  let s1 := s.modWake fun w => { w with held := held }
  let voice := !s.flag Fld.WAK_CTRL_vad_gate || atLeast (logits.getD 0 0) (thresh (s.fld Fld.WAK_VAD_vad_thresh))
  match (natRange 0 8).find? fun k => decide (max 1 (s.fld (Fld.WAK_KW_kw_hold k)) ≤ held.getD k 0) && voice with
  | some k => s1.detected k (s.audio.index - 1)
  | none => s1

/-- TINDER_HOP: the hop's features enter the window of the last 100; then DETECT runs on the window, where an image is loaded, and its
card 1 gives the nine logits. A program that has not ended by the next hop is stopped and its scores discarded, as are those of one that
fails (DESIGN CHOICE, log 188). -/
def tinderHop (ended : Bool) (s : State) : State :=
  let n := s.audio.index
  if !s.listening || !s.flag Fld.WAK_CTRL_tinder_enable || s.saf.damped ||
      decide (n % 480 ≠ 0) || decide (n = 0) || decide (s.wake.lastHop = n) then s
  else
    let s0 := s.modWake fun w => { w with lastHop := n, feats := (s.hopFeatures n :: w.feats).take 100 }
    match s.wake.tinder with
    | none => s0
    | some img =>
      if !ended then (s0.addFld Fld.WAK_CNT4_overrun 1).modWake fun w => { w with held := [] }
      else
        let (t, failed) := s0.runWake img 0 (featureInput s0.wake.feats)
        let s1 := (s0.afterImage t false).modWake fun w => { w with tinder := some (imageAfter t img) }
        match failed with
        | some _ => s1.modWake fun w => { w with held := [] }
        | none => s1.keywords (imageValues t img 0 9)

def execTinderHop (ended : Bool) (s : State) : Host.Outcome State Fault Refusal := .next (tinderHop ended s)

/-- PRESENCE_FRAME: a frame of the watched stream has ended: its lines are binned to the mean luma of 48 zones (R389). -/
def presenceFrame (s : State) : State :=
  if !s.listening || !s.flag Fld.WAK_CTRL_presence_enable || !s.flag Fld.WAK_CTRL_tinder_enable || s.saf.damped then s
  else
    let zones := zoneMeans s.wake.presLines
    let s0 := s.modWake fun w => { w with zones := some zones, presLines := [] }
    match s.wake.zones with
    | none => s0
    | some old =>
      let delta : Rat := s.fld Fld.WAK_PRES_pres_delta
      let moved := ((natRange 0 48).filter fun z =>
        let a := old.getD z 0
        let b := zones.getD z 0
        decide (a + delta < b) || decide (b + delta < a)).length
      let n := if max 1 (s.fld Fld.WAK_PRES_pres_zones) ≤ moved then s.wake.changed + 1 else 0
      let s1 := s0.modWake fun w => { w with changed := n }
      if 3 ≤ n then s1.detected 8 s1.liveIndex else s1

def execPresenceFrame (s : State) : Host.Outcome State Fault Refusal := .next (presenceFrame s)

/-! ### Kindling (R390, R391) -/

/-- KINDLING_START: with the hub up, Kindling takes its start index and runs its programs; on VXP8 a client's command on it is
killed as a pre-emption (R105). -/
def kindlingStart (s : State) : State :=
  if decide (s.stage ≠ 1) || s.wake.running || s.wake.resting || !s.running || s.wake.kindling.isNone then s
  else
    let s1 := match s.runOn? hubDie 0x010 with
      | some r => s.preempt r
      | none => s
    let start := max (s.wake.now.detect - imageField s.wake.kindling 12 4) s.historyLow
    ({ s1 with kindlingHeld := true }).modWake fun w =>
      { w with running := true, encSlots := 0
               now := { w.now with start := start, encStart := (start + 479) / 480 * 480 } }

def execKindlingStart (s : State) : Host.Outcome State Fault Refusal := .next (kindlingStart s)

def dotNum (a b : List Num) : Num := (a.zip b).foldl (fun t x => t.add (x.1.mul x.2)) (.fin false 0 0)

/-- The cosine similarity of two vectors, to 128 bits and a sticky bit (R391); 0 where one of them is zero, NaN where a value is not
finite (DESIGN CHOICE, log 168). -/
def cosine (a b : List Num) : Num :=
  match dotNum a b, (dotNum a a).mul (dotNum b b) with
  | .fin neg md ed, .fin _ mp ep =>
    if md = 0 ∨ mp = 0 then .fin false 0 0
    else
      let k0 := 256 + bitLen mp
      let k := if (2 * ed - ep - k0) % 2 = 0 then k0 else k0 + 1
      let n := md * md * 2 ^ k
      let q := n / mp
      let r := sqrtBits (bitLen q / 2 + 1) q 0
      .fin neg (2 * r + (if r * r * mp = n then 0 else 1)) ((2 * ed - ep - k) / 2 - 1)
  | _, _ => .nan

/-- The enrolled embeddings of an image: BF16 values, 256 a speaker (R391, R398). -/
def enrolled (img : Option (List Byte)) : List (List Num) :=
  let t := (img.getD []).drop (imageField img 76 4)
  (natRange 0 (imageField img 72 1)).map fun i => (natRange 0 256).map fun j => bf16.decode (atOff t (512 * i + 2 * j) 2)

/-- The enrolled speaker of the highest similarity to an embedding, the lowest entry on ties, and that similarity in FP32. -/
def nearestSpeaker (img : Option (List Byte)) (embedding : List W32) : Nat × W32 :=
  let e := (natRange 0 256).map fun j => num32 (embedding.getD j 0).toNat
  let sims := (enrolled img).map (cosine e)
  match sims with
  | [] => (0xFF, 0)
  | x :: _ =>
    let best := (natRange 0 sims.length).foldl (fun (b : Nat × Num) i =>
      let y := sims.getD i .nan
      if b.2.lt y then (i, y) else b) (0, x)
    (best.1, BitVec.ofNat 32 (pattern32 best.2))

/-- A program of Kindling's image run on samples from index `from_` on: what it leaves of the state, the image's copy and its card 1. -/
def State.runKindling (s : State) (img : List Byte) (k from_ : Nat) : State × State × Bool :=
  let (t, failed) := s.runWake img k (s.sampleInput from_)
  ((s.afterImage t true).modWake fun w => { w with kindling := some (imageAfter t img) }, t, failed.isNone)

/-- The first index of Kindling's samples: `tinder_src` is a 16 kHz entry, with samples at indices divisible by 3 (R377). -/
def State.kindlingFrom (s : State) : Nat := (s.wake.now.start + 2) / 3 * 3

/-- CONFIRM_DECISION: once the history holds the samples from *S* onward that CONFIRM reads, CONFIRM gives its logit and SPEAKER its embedding
(R390, R391). A program that fails gives a logit below every threshold (DESIGN CHOICE, log 188). -/
def confirmDecision (s : State) : State :=
  match s.wake.kindling with
  | none => s
  | some img =>
    if s.stage ≠ 1 ∨ !s.wake.running ∨ s.saf.damped ∨ s.audio.index ≤ imageLast img 0 s.kindlingFrom then s
    else
      let (s1, t1, ok) := s.runKindling img 0 s.kindlingFrom
      let logit := (imageValues t1 img 0 1).getD 0 0
      if ok ∧ atLeast logit (num32 (imageField (some img) 64 4)) then
        let img1 := imageAfter t1 img
        let (s2, t2, _) := s1.runKindling img1 1 s.kindlingFrom
        let (nearest, similarity) := nearestSpeaker (some img1) (imageValues t2 img1 1 256)
        let known := atLeast similarity (num32 (imageField (some img1) 68 4)) && decide (nearest < imageField (some img1) 72 1)
        let s3 := s2.modWake fun w =>
          let d := { w.now with confirm := logit, sim := similarity, speaker := if known then nearest else 0xFF }
          { w with now := d, last := d, running := false }
        ((s3.setStage 2).addFld Fld.WAK_CNT1_esc_kindling 1).wakeRecord 1
      else (s1.setStage 0).addFld Fld.WAK_CNT2_false_kindling 1

def execConfirmDecision (s : State) : Host.Outcome State Fault Refusal := .next (confirmDecision s)

/-- KINDLING_ENCODER_HOP: one slot of the encoder ring: its first index, then `enc_bytes` of what ENCODER has written, once the hop's samples
are there, for as long as Kindling holds the chain (R391). -/
def kindlingEncoderHop (s : State) : State :=
  match s.wake.kindling with
  | none => s
  | some img =>
    let k := s.wake.encSlots
    let first := s.wake.now.encStart + 480 * k
    if s.stage ≠ 1 ∨ !(s.wake.running || s.wake.resting) ∨ s.saf.damped ∨ s.audio.index < first + 480 then s
    else
      let (s1, t, _) := s.runKindling img 2 first
      let slot := s.fld Fld.WAK_ENC_BASE_enc_base + k % max 1 (s.fld Fld.WAK_CAP_CFG_enc_count) * s.encPitch
      let data := leBytes first 8 ++ imageOutput t img 2 (imageField s.wake.kindling 74 2)
      (s1.devWrite s.wakeClient slot data).modWake fun w => { w with encSlots := k + 1 }

def execKindlingEncoderHop (s : State) : Host.Outcome State Fault Refusal := .next (kindlingEncoderHop s)

/-- CONFIRM_TIMEOUT: `confirm_ms` without a decision, which counts, or after a Blaze decline without a new detection. -/
def confirmTimeout (s : State) : State :=
  if s.stage ≠ 1 ∨ !s.passedUs s.wake.since (1000 * s.fld Fld.WAK_CTRL_confirm_ms) then s
  else if s.wake.resting then s.setStage 0
  else (s.setStage 0).addFld Fld.WAK_CNT2_false_kindling 1

def execConfirmTimeout (s : State) : Host.Outcome State Fault Refusal := .next (confirmTimeout s)

/-- REPLY_TIMEOUT: Blaze pending without a reply for `reply_ms`. -/
def replyTimeout (s : State) : State :=
  if s.stage ≠ 2 ∨ !s.passedUs s.wake.since (1000 * s.fld Fld.WAK_CTRL_reply_ms) then s
  else
    (((s.modWake fun w => { w with resting := true }).setStage 1).addFld Fld.WAK_CNT4_timeout_blaze 1).wakeRecord 4

def execReplyTimeout (s : State) : Host.Outcome State Fault Refusal := .next (replyTimeout s)

/-! ### Wake images (R398, R399) -/

/-- The stage of an image is enabled. -/
def State.imageStageOn (s : State) (target : Nat) : Bool :=
  if target = 1 then s.flag Fld.WAK_CTRL_tinder_enable else s.flag Fld.WAK_CTRL_kindling_enable

def State.loadImage (s : State) (target : Nat) : State :=
  if s.flag Fld.WAK_LOAD_load_busy then s
  else if s.imageStageOn target then
    let s1 := s.setFld Fld.WAK_LOAD_load_error 6
    if target = 1 then s1.modWake fun w => { w with tinder := none } else s1.modWake fun w => { w with kindling := none }
  else ((s.setFld Fld.WAK_LOAD_load_error 0).setFlag Fld.WAK_LOAD_load_busy true).modWake fun w => { w with loading := some target }

/-- LOAD_TINDER. -/
def loadTinder (s : State) : State := s.loadImage 1

def execLoadTinder (s : State) : Host.Outcome State Fault Refusal := .next (loadTinder s)

/-- LOAD_KINDLING. -/
def loadKindling (s : State) : State := s.loadImage 2

def execLoadKindling (s : State) : Host.Outcome State Fault Refusal := .next (loadKindling s)

/-- Reserved bytes of an image's header are zero and its fields in their ranges (R10, R398); one that fails is refused as a bad header
(DESIGN CHOICE, log 168). -/
def headerOk (h : List Byte) (target : Nat) : Bool :=
  decide (atOff h 5 3 = 0) && decide (atOff h 73 1 = 0) && decide (atOff h 80 44 = 0) &&
    (target = 1 || (decide (atOff h 12 4 ≤ 96000) && decide (atOff h 72 1 ≤ 16) && decide (1 ≤ atOff h 74 2) && decide (atOff h 74 2 ≤ 4096)))

/-- Why an image cannot be loaded (R399), or the image. -/
def State.imageAt (s : State) (target a : Nat) : Except Nat (List Byte) :=
  let cl := s.wakeClient
  let limit := if target = 1 then 0x100000 else 0xB00000
  match s.cread cl a 128 with
  | .error _ => .error 5
  | .ok h =>
    let len := atOff h 8 4
    if atOff h 0 4 ≠ 0x47574B57 ∨ atOff h 4 1 ≠ target ∨ !headerOk h target then .error 1
    else if limit < len ∨ len < 128 then .error 2
    else
      match s.cread cl a len with
      | .error _ => .error 5
      | .ok img =>
        if (crc32c (img.take 124 ++ List.replicate 4 0 ++ img.drop 128)).toNat ≠ atOff img 124 4 then .error 3
        else if (natRange 0 (if target = 1 then 1 else 3)).all (s.programOk img target) then .ok img
        else .error 4

/-- IMAGE_LOAD_DONE: the copy and its checks end. -/
def imageLoadDone (s : State) : State :=
  match s.wake.loading with
  | none => s
  | some target =>
    let s1 := (s.setFlag Fld.WAK_LOAD_load_busy false).modWake fun w => { w with loading := none }
    let put := fun (t : State) (img : Option (List Byte)) =>
      if target = 1 then t.modWake fun w => { w with tinder := img, held := [] } else t.modWake fun w => { w with kindling := img }
    let a := if target = 1 then s.fld Fld.WAK_TINDER_IMG_tinder_img else s.fld Fld.WAK_KND_IMG_kindling_img
    let len := match s.cread s.wakeClient a 128 with | .ok h => max 128 (min 0xB00000 (atOff h 8 4)) | .error _ => 128
    let s1 := s1.fetchHub a len
    if s.imageStageOn target then put (s1.setFld Fld.WAK_LOAD_load_error 6) none
    else match s.imageAt target a with
      | .ok img => put s1 (some img)
      | .error e => put (s1.setFld Fld.WAK_LOAD_load_error e) none

def execImageLoadDone (s : State) : Host.Outcome State Fault Refusal := .next (imageLoadDone s)

end Sys2Proof.Machine
end

