-- ==== Sys2Proof/Machine/Boot.lean ====
section
/-! DEFINITION. Verified boot and firmware (R445 to R448, R519). -/

namespace Sys2Proof.Machine

open Sys2Proof

def State.modKeys (s : State) (f : Keys → Keys) : State := { s with keys := f s.keys }

/-- The magic number, and a security version from 0 to 63 (R445). -/
def imageHeaderOk (c : Image) : Bool := decide (imageMagic c = 0x57465856) && decide (securityVersion c < 64)

/-- `fw_status` for an image (R446, R450): 2 valid, 3 signature or digest bad, 4 below the fused version, 5 header bad. -/
def State.imageStatus (s : State) (c : Image) : Nat :=
  if !imageHeaderOk c then 5
  else if !(c.signatureOk && c.digestOk) then 3
  else if securityVersion c < s.fld Fld.SEC_STATUS_fuse_version then 4
  else 2

def State.validImage (s : State) (c : Option Image) : Option Image :=
  match c with
  | some x => if s.imageStatus x = 2 then some x else none
  | none => none

/-- The image in slot 0 (A) or 1 (B), when it is valid. -/
def State.slotImage (s : State) (slot : Nat) : Option Image :=
  s.validImage (if slot = 0 then s.keys.slotA else s.keys.slotB)

/-- Without a preference: the highest `security_version`, then the highest `image_version`, A on a tie (R446). -/
def State.bestSlot (s : State) : Option Nat :=
  match s.slotImage 0, s.slotImage 1 with
  | none, none => none
  | some _, none => some 0
  | none, some _ => some 1
  | some a, some b =>
    if securityVersion a < securityVersion b ∨ (securityVersion a = (securityVersion b) ∧ imageVersion a < imageVersion b) then some 1
    else some 0

/-- The slot that the boot ROM chooses: the preferred one where it is valid and has not failed two starts (R446, R447). -/
def State.bootSlot (s : State) : Option Nat :=
  match s.keys.preferred with
  | some p =>
    let p' := if 2 ≤ s.keys.bootFails then 1 - p else p
    if (s.slotImage p').isSome then some p' else s.bestSlot
  | none => s.bestSlot

/-- An image runs, on the hub and on every compute die that a package reset has started (R448). -/
def State.runImage (s : State) (c : Image) : State :=
  s.modKeys fun k =>
    { k with running := some c, bootAt := s.tb, bootLate := false, hostBoot := false
             dieFw := (natRange 0 s.nDies).map fun d => (d, imageVersion c) }

/-- The boot ROM runs the image of a slot. -/
def State.runSlot (s : State) (slot : Nat) : State :=
  match s.slotImage slot with
  | some c =>
    let s1 := (s.runImage c).setFld Fld.SEC_STATUS_boot_slot slot
    match s.keys.preferred with
    | some p => if 2 ≤ s.keys.bootFails ∧ slot ≠ p then s1.setFlag Fld.SEC_STATUS_fallback true else s1
    | none => s1
  | none => s

/-- The boot ROM waits for the host to stage an image (R519). -/
def State.waitHost (s : State) : State := s.modKeys fun k => { k with running := none, hostBoot := true }

/-- Boot selection at LOGIC_RDY: 0 and 3 the flash, 1 the host, 2 the flash and then the host (R519). Without a valid image in
the flash the start has failed (R446, R414). `slotA` and `slotB` are what a slot holds that this device has not written itself; what
`stage` wrote stands (R448; log 102). -/
def State.boot (s : State) (bootSel : Nat) (slotA slotB : Option Image) : State :=
  let s1 := s.modKeys fun k =>
    { k with slotA := k.slotA.or slotA, slotB := k.slotB.or slotB, running := none, hostBoot := false }
  if bootSel % 4 = 1 then s1.waitHost
  else match s1.bootSlot with
    | some slot => s1.runSlot slot
    | none =>
      if bootSel % 4 = 2 then s1.waitHost
      else (s1.setFld Fld.SAF_STATUS_state safFailed).setFlag Fld.SAF_STATUS_fault_n_low true

/-- BOOT_SERVING_TIMEOUT (R447): the preferred image has not reached SERVING within 100 ms, which counts once in a start; on the second
successive start the other slot runs. -/
def bootServingTimeout (s : State) : State :=
  match s.keys.preferred with
  | none => s
  | some p =>
    if s.fld Fld.SAF_STATUS_state = safStarting ∧ s.servedLate p ∧ s.keys.bootFails < 2 then
      let s1 := s.modKeys fun k => { k with bootFails := k.bootFails + 1, bootLate := true }
      if s1.keys.bootFails = 2 then s1.runSlot (1 - p) else s1
    else s

def execBootServingTimeout (s : State) : Host.Outcome State Fault Refusal := .next (bootServingTimeout s)

/-- FW_STAGE (R448): the image at `fw_src` is copied, its header first, and verified; a header that cannot be read is no good. A write while
one is busy is ignored. -/
def fwStage (s : State) : State :=
  if s.fld Fld.SEC_FW_CTRL_fw_status = 1 then s
  else
    let header := match s.sysRead hostPf (s.fld Fld.SEC_FW_SRC_fw_src) 512 with
      | .ok bs => bs
      | .error _ => []
    (s.modKeys fun k => { k with staging := header }).setFld Fld.SEC_FW_CTRL_fw_status 1

def execFwStage (s : State) : Host.Outcome State Fault Refusal := .next (fwStage s)

/-- FW_STAGE_DONE (R448): a valid image is written to the slot that does not run, or, where the boot ROM waits for the host, runs
(R519). -/
def fwStageDone (digestOk signatureOk : Bool) (s : State) : State :=
  if s.fld Fld.SEC_FW_CTRL_fw_status ≠ 1 then s
  else
    let c : Image := ⟨s.keys.staging, digestOk, signatureOk⟩
    let status := s.imageStatus c
    let s1 := s.setFld Fld.SEC_FW_CTRL_fw_status status
    if status ≠ 2 then s1
    else if s1.keys.hostBoot then
      let s2 := s1.runImage c
      if s2.flag Fld.SAF_STATUS_inj_done ∧ s2.fld Fld.SAF_STATUS_state = safStarting then s2.serveImage else s2
    else if s1.fld Fld.SEC_STATUS_boot_slot = 0 then s1.modKeys fun k => { k with slotB := some c, staged := some 1 }
    else s1.modKeys fun k => { k with slotA := some c, staged := some 0 }

def execFwStageDone (digestOk signatureOk : Bool) (s : State) : Host.Outcome State Fault Refusal :=
  .next (fwStageDone digestOk signatureOk s)

/-- FW_ACTIVATE (R448): the staged image is preferred from the next start on. -/
def fwActivate (s : State) : State :=
  match s.keys.staged with
  | some slot => s.modKeys fun k => { k with preferred := some slot, bootFails := 0 }
  | none => s

def execFwActivate (s : State) : Host.Outcome State Fault Refusal := .next (fwActivate s)

/-- FW_DIE_UPDATE (R448, R418): the firmware of the new image is applied to a drained die, whose logic then returns through its
self-test; a die that is not drained refuses it. -/
def fwDieUpdate (die : Nat) (s : State) : State :=
  if !s.fitted die then s
  else if !s.drained die then (s.setFlag (Fld.CFR_STATUS_update_refused die) true).setFld Fld.SEC_FW_CTRL_fw_status 6
  else
    let image := match s.keys.staged with
      | some slot => s.slotImage slot
      | none => s.keys.running
    let s1 := (s.closeGate die false).setFld (Fld.CDG_STATUS_logic_state die) logicSelftest
    match image with
    | some c => s1.modKeys fun k => { k with dieFw := mapSet k.dieFw die (imageVersion c) }
    | none => s1

def execFwDieUpdate (die : Nat) (s : State) : Host.Outcome State Fault Refusal := .next (fwDieUpdate die s)

end Sys2Proof.Machine
end

