-- ==== Sys2Proof/Machine/Power.lean ====
section
/-! DEFINITION. Power states, starts and resets, and the timebase (R452 to R465, R471 to R475, R501, R511). -/

namespace Sys2Proof.Machine

open Sys2Proof

def State.modPower (s : State) (f : Power → Power) : State := { s with power := f s.power }

/-! ### What resets keep (R13, R347, R417, R456, R458) -/

/-- Registers that a reset of the package leaves as they are: clients' registers, the wake log, the timebase's error and last
sleep, the wake counters, and after DEEP the GPIO settings of the always-on island. -/
def keptKey (deep : Bool) (key : Nat) : Bool :=
  decide (0x8000000 ≤ key) ||
  [Reg.PWR_WAKE_LOG, Reg.CLK_TB_UNCERT, Reg.CLK_LAST_SLEEP, Reg.WAK_CNT0, Reg.WAK_CNT1, Reg.WAK_CNT2, Reg.WAK_CNT3,
    Reg.WAK_CNT4].contains key ||
  (deep && (natRange 0 4).any fun i => decide (key = Reg.IND_GPIO i))

/-- Fields of a DMC that survive: its marks always, its counts and scrub position where memory does. -/
def dmcKept (deep : Bool) (g : Nat) : List Fld :=
  let b := dmcBase g
  [Fld.DMC_STATUS_marked b, Fld.DMC_STATUS_group_exposed b] ++
  (if deep then [] else [Fld.DMC_STATUS_lap_overdue b, Fld.DMC_CE_COUNT_corrections b, Fld.DMC_SCRUB_LAP_lap_end b,
    Fld.DMC_SCRUB_POS_position b, Fld.DMC_SCRUB_LAPS_laps b])

/-- Fields of a compute die's island that show what a reset does not end. -/
def dieKept (d : Nat) : List Fld :=
  [Fld.CFR_STATUS_held_out d, Fld.CFR_STATUS_takeouts d, Fld.CPC_STATUS_point d, Fld.CPC_STATUS_temp_c d,
    Fld.CLK_POINT_point d, Fld.CLK_POINT_temp_c d]

/-- Status fields that a reset of the package leaves as they are. -/
def State.statusKept (s : State) (deep : Bool) : List Fld :=
  (natRange 0 s.variant.groups).flatMap (dmcKept deep) ++ (natRange 0 s.nDies).flatMap dieKept ++
  (natRange 0 24).map Fld.IND_GPIO_in ++
  [Fld.SEC_STATUS_kek_valid, Fld.SEC_STATUS_boot_slot, Fld.SEC_STATUS_fuse_version, Fld.CLK_TB_STATUS_rtc_mode,
    Fld.CLK_TB_STATUS_restarted, Fld.CLK_POINT_HUB_point, Fld.CLK_POINT_HUB_temp_c, Fld.AUD_MUTE_pin_muted, Fld.HST_LINK_speed,
    Fld.HST_LINK_width] ++
  (if s.flag Fld.AUD_MUTE_pin_muted then [Fld.AUD_MUTE_muted] else []) ++
  (if s.pageCmd.isSome || s.power.heldPage.isSome then [Fld.MEM_PAGE_CMD_busy, Fld.MEM_PAGE_CMD_error] else [])

/-- The registers after a warm reset or, with `deep`, a return from DEEP. -/
def State.resetHub (s : State) (deep : Bool) : State :=
  let t := s.resetRegs (fun k => !keptKey deep k) fun a => decide (a = .rws)
  forEach (s.statusKept deep) t fun f u => u.setFld f (s.fld f)

/-- Every link end loses its link without an event: an end that was up advances its epoch, and what it held is gone. -/
def State.dropLinks (s : State) : State :=
  let ends := (natRange 0 s.nDies).flatMap fun d =>
    [unitOf hubDie (0x080 + d), unitOf d 0x080, unitOf d 0x081, unitOf d 0x082]
  let s1 := forEach ends s fun u t =>
    if t.endUp u then
      let blk := linkBlk u
      (((t.setFlag (Fld.HXL_STATUS_link_up blk) false).setFld (Fld.HXL_STATUS_modules_up blk) 0).setFlag
        (Fld.HXL_STATUS_module_degraded blk) false).advanceEpoch u
    else t
  let s2 := forEach ends s1 fun u t => t.modUnit u fun x => { x with outSince := none, passes := 0, rounds := 0 }
  { s2.syncTopo with
    links := [], waiting := [], ports := []
    keys := { s2.syncTopo.keys with unwrapWait := [], cached := [] } }

/-- The link status of a ring port that has lost its link and its keys. -/
def State.dropPorts (s : State) : State :=
  forEach [0, 1] s fun p t =>
    ((t.setFlag (Fld.HXR_STATUS_link_up p) false).setReg (Reg.HXR_SEC_STATUS p) 0).setReg (Reg.HXR_SEC_COUNT p) 0

/-- Moves that a reset or an entry interrupts (R331). -/
def State.endMoves (s : State) : State := forEach s.moves s fun (n, m) t => t.cutMove n m

/-- What the package keeps of a die when its logic has been reset with the package. -/
def State.restDie (s : State) (d : Nat) : State :=
  s.modDie d fun x =>
    { x with gate := false, startFailed := false, loggedOff := false, thermalOut := false, updating := false, drainAt := none
             island := false, idleSince := s.tb }

/-! ### Entry (R454, R455, R460, R461) -/

/-- The code of the first condition that refuses an entry (R454); 0 where none does. -/
def State.entryError (s : State) (target : Nat) : Nat :=
  if !s.steps.isEmpty then 1
  else if ((natRange 0 16).any fun c => s.flag (Fld.CAM_CH_CTRL_enable c)) || decide (s.stage ≠ 0) then 2
  else if decide (target = 1) && !s.flag Fld.PWR_CTRL_allow_drop &&
      s.pages.any (fun (_, p) => decide (p.state = .backed) && !s.keptGroup p.group) then 3
  else if decide (target ≤ 2) && decide (40000 < s.aonBudget (decide (target = 2))) then 4
  else if decide (target = 3) && !s.attachedClients.isEmpty then 5
  else 0

/-- Backed pages of groups that lose power become granted (R460). -/
def State.dropPages (s : State) : State :=
  let lost := s.pages.filter fun (_, p) => decide (p.state = .backed) && !s.keptGroup p.group
  let s1 := forEach lost s fun (n, _) t => t.modPage n fun p =>
    { p with state := .granted, frame := 0, group := 0, pinned := false, migrating := false }
  s1.setFld Fld.PWR_STATUS_pages_dropped (min lost.length (2 ^ 17 - 1))

/-- The DRAM of a group loses power: its counts of corrections are saved (R456). -/
def State.loseGroup (s : State) (g : Nat) : State :=
  { s.modDmc g (fun d => { d with merge := [], errs := [] }) with
    mem := s.mem.filter fun c => decide (c.1 < dramKey g 0) || decide (dramKey (g + 1) 0 ≤ c.1) }

/-- Offset `off` of the Hearth of die `d` lies in a retained bank of 8 MiB (R461). -/
def State.bankKept (s : State) (d off : Nat) : Bool := bit (s.fld (Fld.PWR_RETAIN_banks d)) (off / 0x800000)

/-- A buffer lies wholly inside retained banks. -/
def State.bufKept (s : State) (d g : Nat) (b : Buf) : Bool :=
  (natRange (4096 * g / 0x800000) (4096 * (g + b.size) / 0x800000 + 1 - 4096 * g / 0x800000)).all fun k =>
    bit (s.fld (Fld.PWR_RETAIN_banks d)) k || decide (4096 * (g + b.size) ≤ 0x800000 * k)

/-- Fields of a die's island that SLEEP keeps beside its RW and RWS fields: the state of its DMCs (R347), the counts of its link ends (R45),
and what R417 keeps (R456). -/
def islandKept (d : Nat) : List Fld :=
  dieKept d ++ ([2 * d + 2, 2 * d + 3].flatMap (dmcKept false)) ++
  [0x080, 0x081, 0x082].flatMap fun u => [Fld.HXL_REPLAYS_replays (linkBlk (unitOf d u)), Fld.HXL_CRC_crc_errors (linkBlk (unitOf d u))]

/-- The island registers of a die as they are restored after SLEEP (R456). -/
def State.sleepIsland (s : State) (d : Nat) : State :=
  forEach (islandKept d) (s.resetRegs (inIsland d) fun a => decide (a = .rw) || decide (a = .rws)) fun f t => t.setFld f (s.fld f)

/-- A die loses power: its gate closes, buffers in retained banks keep contents, owner and generation, and its RW and RWS fields
are saved unless device memory is lost (R456, R461). -/
def State.sleepDie (s : State) (d : Nat) (deep : Bool) : State :=
  let h := s.hearth d
  let kept := h.bufs.filter fun (g, b) => s.bufKept d g b
  let in_ := fun (g : Nat) => kept.any fun (k, b) => decide (k ≤ g) && decide (g < k + b.size)
  let s1 := ((if deep then s else s.sleepIsland d).closeGate d true).restDie d
  let ks := kept.flatMap fun (p : Nat × Buf) => natRange p.1 p.2.size
  let last := h.last.filter fun (p : Nat × Nat) => in_ p.1
  let marks := h.clinker.filter fun (p : Nat × Bool) => in_ (p.1 * 16 / 4096)
  let s2 := s1.modHearth d fun n =>
    let gens := forEach ks n.gens fun g m => mapPut m g ((mapGet m g 0 + 1023) % 1024) 0
    { n with bufs := kept, last := last, clinker := marks, gens := gens
             errs := h.errs.filter fun (p : Nat × List W16) => in_ (p.1 * 16 / 4096) }
  let keep := fun (c : Host.Cell) =>
    decide (c.1 < hearthKey d 0) || decide (hearthKey (d + 1) 0 ≤ c.1) || s.bankKept d (c.1 - hearthKey d 0)
  let s3 := { s2 with mem := s2.mem.filter keep }
  let s4 := s3.setFlag (Fld.CDG_STATUS_island_up d) false
  if deep then s4
  else
    let s5 := forEach s.regs s4 fun (key, v) t =>
      if inLogic d key then
        match regAt key with
        | some (r, _) => t.setReg key (keptFields (fun a => decide (a = .rw) || decide (a = .rws)) v.toNat r.fields)
        | none => t
      else t
    { s5 with cnts := forEach s.cnts s5.cnts fun (b, c) m => if inLogic d b then mapSet m b { counts := c.counts } else m }

/-- What SLEEP and DEEP have in common (R455): links, ports, the trace buffers and everything that waited are gone, and the
timebase enters RTC mode at the next edge. -/
def State.goDown (s : State) (deep : Bool) : State :=
  let s1 := forEach (natRange 0 s.nDies) (s.endMoves) fun d t => t.sleepDie d deep
  let s2 := s1.dropLinks.dropPorts
  let s3 := { s2 with
    trace := { s2.trace with dieBufs := [], hub := [], post := [], loss := [], throttled := [], copying := [] }
    tap := {}, inds := {}, relays := [], access := [], latch := []
    saf := { s2.saf with kickedAt := none } }
  let s4 := ((s3.setFld Fld.HST_LINK_speed 0).setFld Fld.HST_LINK_width 0).setFld Fld.PWR_STATUS_state 2
  let s5 := (s4.setFlag Fld.CLK_TB_STATUS_rtc_mode true).setFlag Fld.PWR_STATUS_mem_ready false
  s5.modPower fun p =>
    { p with phase := if deep then .deep else .sleep, targetAt := none, wokeAt := none, rtcFrom := s.tb, frac := 0, oscReady := false
             edgeSinceOsc := false, gated := [], heldStarts := [] }

def State.enterSleep (s : State) : State :=
  let s1 := forEach (natRange 0 s.variant.groups) s fun g t => if t.groupUp g then t.flushGroup g else t
  let s2 := s1.endMoves.dropPages
  let s3 := forEach ((natRange 0 s.variant.groups).filter fun g => !s.keptGroup g) s2 fun g t => t.loseGroup g
  s3.goDown false

/-- Entry into DEEP: accounting written once more, rings STOPPED in the ledger, every DRAM group and every key lost. -/
def State.enterDeep (s : State) : State :=
  let s1 := forEach s.attachedClients s fun c t => t.writeAcct c
  let stop := fun (x : Ring) =>
    { x with state := if x.state = .active ∨ x.state = .quiet then .stopped else x.state, reading := false, checked := none }
  let s2 := { s1 with rings := s1.rings.map fun (p : Nat × Ring) => (p.1, stop p.2) }
  let s3 := forEach (natRange 0 s.variant.groups) s2 fun g t => t.loseGroup g
  let sys := s3.pages.filter fun (p : Nat × Page) => decide (p.2.state = .system)
  let s4 := { s3 with
    pages := sys, reserves := [], moves := [], movesDone := 0, audio := {}, wake := {}, cams := {}, kindlingHeld := false
    keys := { s3.keys with kek := none, deviceKey := none, clientKeys := [], compatKeys := [], compatPending := none } }
  (s4.setFlag Fld.SEC_STATUS_kek_valid false).goDown true

/-- What neither OFF nor a cold reset nor a loss of VIN ends: the part, its fuses and flash, the world outside, the level of the
mute pin, and, except at a loss of VIN, the wake log (R452, R458). -/
def State.fresh (s : State) (vin : Bool) (phase : PowerPhase) : State :=
  let t : State :=
    { pending := s.pending, variant := s.variant, grade := s.grade, env := s.env, drawn := s.drawn, sent := s.sent
      mem := s.mem.filter fun c => decide (remoteBase ≤ c.1)
      keys := { identity := s.keys.identity, serial := s.keys.serial, slotA := s.keys.slotA, slotB := s.keys.slotB, preferred := s.keys.preferred
                bootFails := s.keys.bootFails }
      power := { phase := phase } }
  let t1 := t.setFld Fld.SEC_STATUS_fuse_version (s.fld Fld.SEC_STATUS_fuse_version)
  let t2 := forEach ((natRange 0 24).map Fld.IND_GPIO_in ++ [Fld.AUD_MUTE_pin_muted]) t1 fun f u => u.setFld f (s.fld f)
  let t3 := if t2.flag Fld.AUD_MUTE_pin_muted then t2.setFlag Fld.AUD_MUTE_muted true else t2
  if vin then t3 else t3.setReg Reg.PWR_WAKE_LOG (s.reg Reg.PWR_WAKE_LOG)

def State.enterOff (s : State) : State := s.fresh false .off

def State.enterState (s : State) (target : Nat) : State :=
  if target = 1 then s.enterSleep else if target = 2 then s.enterDeep else s.enterOff

/-- An entry refused (R454). -/
def State.refuseEntry (s : State) (e : Nat) : State :=
  (((s.setFlag Fld.PWR_STATUS_entry_refused true).setFld Fld.PWR_STATUS_entry_error e).setFld Fld.PWR_CTRL_target 0).modPower fun p =>
    { p with targetAt := none }

/-- POWER_ENTRY_CHECK (R454): the PME_Turn_Off handshake completes. The safe state is left by a reset only, so no entry follows there
(R423). -/
def powerEntryCheck (s : State) : State :=
  let target := s.fld Fld.PWR_CTRL_target
  if s.power.phase ≠ .run then s
  else
    let s1 := s.modPower fun p => { p with l2 := true }
    if target = 0 ∨ 3 < target ∨ s.saf.damped then s1
    else
      let e := s1.entryError target
      if e ≠ 0 then s1.refuseEntry e else s1.enterState target

def execPowerEntryCheck (s : State) : Host.Outcome State Fault Refusal := .next (powerEntryCheck s)

/-- ENTRY_HANDSHAKE_TIMEOUT (R454): `entry_error` 6. -/
def entryHandshakeTimeout (s : State) : State :=
  let target := s.fld Fld.PWR_CTRL_target
  match s.power.targetAt with
  | some t =>
    if s.power.phase = .run ∧ 1 ≤ target ∧ target ≤ 3 ∧ s.power.l2 = false ∧ s.passedUs t 10000 then s.refuseEntry 6 else s
  | none => s

def execEntryHandshakeTimeout (s : State) : Host.Outcome State Fault Refusal := .next (entryHandshakeTimeout s)

/-! ### Waking and starting (R457 to R459) -/

/-- WAKE_PIN (R511): WAKE high for 100 µs; it has no effect in RUN or IDLE. -/
def wakePin (s : State) : State := s.wakeUp 1

def execWakePin (s : State) : Host.Outcome State Fault Refusal := .next (wakePin s)

/-- RTC_ALARM (R474): the timebase has reached `alarm`. -/
def rtcAlarm (s : State) : State :=
  let alarm := s.fld Fld.CLK_ALARM_alarm
  if alarm = 0 ∨ s.tb < alarm ∨ s.power.alarmFired then s
  else
    let s1 := ((s.setFlag Fld.CLK_TB_STATUS_alarm_seen true).modPower fun p => { p with alarmFired := true }).noteWakeOut
    if (s.power.phase = .sleep ∨ s.power.phase = .deep ∨ s.power.phase = .regulator) ∧ s.flag Fld.PWR_CTRL_wake_alarm_en then s1.wakeUp 4
    else s1

def execRtcAlarm (s : State) : Host.Outcome State Fault Refusal := .next (rtcAlarm s)

/-- Every die's rail is at the lowest DVFS point (R457). -/
def State.lowestPoints (s : State) : State :=
  forEach (natRange 0 s.nDies) (s.setFld Fld.CLK_POINT_HUB_point 4) fun d t =>
    (t.setFld (Fld.CLK_POINT_point d) 4).setFld (Fld.CPC_STATUS_point d) 4

/-- REGULATOR_READY: PG_REG rises, with the main rails at the lowest DVFS point. -/
def regulatorReady (s : State) : State :=
  if s.power.phase = .regulator then s.lowestPoints.modPower fun p => { p with phase := .oscillator } else s

def execRegulatorReady (s : State) : Host.Outcome State Fault Refusal := .next (regulatorReady s)

/-- OSCILLATOR_READY: OSC_RDY rises. -/
def oscillatorReady (s : State) : State :=
  if s.power.phase = .oscillator then s.modPower fun p => { p with phase := .memory, oscReady := true, edgeSinceOsc := false } else s

def execOscillatorReady (s : State) : Host.Outcome State Fault Refusal := .next (oscillatorReady s)

/-- MEMORY_READY: MEM_RDY rises; the islands have power. -/
def memoryReady (s : State) : State :=
  if s.power.phase = .memory then
    let s1 := forEach (natRange 0 s.nDies) s fun d t =>
      if (t.dieSt d).islandFailed then t
      else (t.modDie d fun x => { x with island := true }).setFlag (Fld.CDG_STATUS_island_up d) true
    s1.modPower fun p => { p with phase := .logic }
  else s

def execMemoryReady (s : State) : Host.Outcome State Fault Refusal := .next (memoryReady s)

/-- A new KEK and device memory key, and new memory keys for every attached client (R432, R459). -/
def State.newKeys (s : State) : State :=
  let (s1, k1) := s.newKey
  let (s2, k2) := s1.newKey
  let s3 := (s2.modKeys fun k => { k with kek := some k1, deviceKey := some k2 }).setFlag Fld.SEC_STATUS_kek_valid true
  forEach s3.attachedClients s3 fun c t =>
    let (t1, k) := t.newMemoryKey
    t1.modKeys fun x => { x with clientKeys := mapSet x.clientKeys c k }

/-- A compute die's logic goes to step 4 of R42, unless it is held out or its island has failed. -/
def State.raiseDie (s : State) (d : Nat) : State :=
  if (s.dieSt d).islandFailed || s.flag (Fld.CFR_STATUS_held_out d) then s.notePresent d
  else
    (((s.setFlag (Fld.CPC_STATUS_logic_powered d) true).setFld (Fld.CDG_STATUS_logic_state d) logicSelftest).modDie d fun x =>
      { x with since := s.tb }).notePresent d

/-- The laps of every group's scrubber start again after DEEP, with no counts (R347, R456). -/
def State.startLaps (s : State) : State :=
  { s with dmcs := s.dmcs.map fun (g, d) => (g, { d with lapStart := s.tb, lapCounts := [] }) }

/-- Accounting and virtual time start again from zero after DEEP (R129). -/
def State.zeroClients (s : State) : State :=
  { s with clients := s.clients.map fun (c, x) => (c, { evqWritten := x.evqWritten, evqLost := x.evqLost }) }

/-- Mute in force as the hub starts lights channel 0 (R381). -/
def State.relightMute (s : State) : State :=
  if s.audMuted then (s.setFlag (Fld.IND_CH_on 0) true).lightChannel 0 else s

/-- The indicator channels that are on light again after SLEEP (R464, R515). -/
def State.relight (s : State) : State :=
  forEach (natRange 0 6) s fun n t =>
    if t.flag (Fld.IND_CH_on n) && !t.flag (Fld.IND_CH_short_latched n) then t.lightChannel n
    else t

/-- LOGIC_READY (R457): the hub's logic leaves reset with the registers that its start keeps, the boot source is sampled (R519),
start-up injection begins, and every compute die goes to its self-test. After SLEEP the hub goes on as it was. -/
def hubLogicReady (bootSel : Nat) (slotA slotB : Option Image) (s : State) : State :=
  if s.power.phase ≠ .logic then s
  else
    let left := s.power.left
    let s1 := if left = 3 then ((s.resetHub true).zeroClients).startLaps else s
    let s2 := s1.modPower fun p => { p with phase := .run, targetAt := none, wokeAt := p.wokeAt.map fun _ => s.tb }
    let s3 := (s2.setFld Fld.PWR_CTRL_target 0).setFld Fld.PWR_STATUS_state 0
    let s4 := if left = 0 ∨ left = 4 then s3.newKeys else s3
    let s5 := { s4.setFlag Fld.PWR_STATUS_mem_ready (decide (left ≠ 3)) with saf := { s4.saf with aliveAt := s.tb, beatP := s.tb, beatS := s.tb } }
    let s6 := if left = 2 then s5.relight
      else (s5.relightMute.boot bootSel slotA slotB).modPower fun p => { p with therm := [], capSteps := [] }
    let s7 := forEach (natRange 0 s.nDies) s6 fun d t => t.raiseDie d
    let ds := s7.dmcs.map fun (g, d) => (g, { d with barred := d.barred && decide (left = 2) })
    let s8 := { s7 with dmcs := ds, pageCmd := s7.pageCmd.map fun (c : PageCmd) => { c with since := s7.tb } }
    s8.startPeriod.refreshReady

def execLogicReady (bootSel : Nat) (slotA slotB : Option Image) (s : State) : Host.Outcome State Fault Refusal :=
  .next (hubLogicReady bootSel slotA slotB s)

/-- MEM_REBUILD_DONE (R459): new keys, the page map and the ledger mirror stand, and what was held goes on. -/
def memRebuildDone (s : State) : State :=
  if !s.rebuilding then s
  else
    let s1 := s.newKeys.setFlag Fld.PWR_STATUS_mem_ready true
    let s2 := s1.modPower fun p => { p with heldStarts := [], heldPage := none }
    let s3 := match s.power.heldPage with
      | some c => (s2.setFlag Fld.MEM_PAGE_CMD_busy false).pageRun { c with since := s.tb }
      | none => s2
    forEach s.power.heldStarts s3 fun (c, r) t => t.startRing c r

def execMemRebuildDone (s : State) : Host.Outcome State Fault Refusal := .next (memRebuildDone s)

/-- AUTO_RESLEEP (R465): 10 ms after a wake by Tinder or the alarm, with the link in L2 all along. A request in `target` comes
before it (R475). -/
def autoResleep (s : State) : State :=
  match s.power.wokeAt with
  | some t =>
    if s.power.phase = .run ∧ !s.saf.damped ∧ s.power.l2 ∧ s.flag Fld.PWR_CTRL_auto_resleep ∧ s.stage = 0 ∧ s.fld Fld.PWR_CTRL_target = 0 ∧
        s.passedUs t 10000 ∧ s.entryError 1 = 0 then s.enterSleep
    else s
  | none => s

def execAutoResleep (s : State) : Host.Outcome State Fault Refusal := .next (autoResleep s)

/-! ### Loss of power and resets (R458, R462, R475, R501, R511) -/

/-- AON_BROWNOUT (R462): in SLEEP, in DEEP or during a wake from them the package enters OFF. -/
def aonBrownout (s : State) : State :=
  let from_ := match s.power.phase with
    | .sleep => 2
    | .deep => 3
    | .run => 0
    | _ => if s.power.left = 2 ∨ s.power.left = 3 then s.power.left else 0
  if from_ = 0 then s
  else (s.enterOff.setFlag Fld.PWR_WAKE_LOG_brownout true).setFld Fld.PWR_WAKE_LOG_brownout_state from_

def execAonBrownout (s : State) : Host.Outcome State Fault Refusal := .next (aonBrownout s)

/-- VIN_LOSS (R501): every domain loses power. -/
def vinLoss (s : State) : State := s.fresh true .unpowered

def execVinLoss (s : State) : Host.Outcome State Fault Refusal := .next (vinLoss s)

/-- VIN_POWER_ON (R501): the package starts. -/
def vinPowerOn (s : State) : State :=
  if s.power.phase = .unpowered then s.modPower fun _ => { phase := .regulator } else s

def execVinPowerOn (s : State) : Host.Outcome State Fault Refusal := .next (vinPowerOn s)

/-- A cold reset (R458). -/
def State.cold (s : State) : State := if s.power.phase = .unpowered then s else s.fresh false .regulator

/-- A run killed by a warm reset: its command runs again with REPLAYED, and the kill counts towards no limit (R94, R129). A step that has
lost its Hearth is decided before, is not run again, and so keeps REPLAYED as it was (R90). -/
def State.resetKill (s : State) (r : Run) : State :=
  match s.run? r.die r.entry with
  | some x => (s.killRun x).modStep r.ring r.seq fun st => if st.status.isSome then st else { st with replayed := true }
  | none => s

/-- The waits of ready commands up to now, charged before a warm reset ends them (R127, R129). -/
def State.chargeReady (s : State) : State :=
  forEach s.steps s fun st t => forEach st.cmds t fun c u =>
    match c.readySince with
    | some since => if c.isWaiting then u.acct st.client acWaitDispatch (u.usSince since) else u
    | none => u

/-- Commands placed but not started are placed afresh, unless their step has been decided. -/
def Step.unplaced (st : Step) : Step :=
  { st with cmds := st.cmds.map fun c =>
      match c.state with
      | .placed _ _ => { c with state := if st.status.isSome then .dropped else .waiting, readySince := none, blockedSince := none }
      | _ => { c with readySince := none, blockedSince := none } }

/-- The main regulators and the oscillator are off. -/
def State.asleep (s : State) : Bool := [PowerPhase.sleep, .deep, .regulator, .oscillator].contains s.power.phase

/-- Device memory has been lost to DEEP and is not rebuilt. -/
def State.deepLost (s : State) : Bool :=
  decide (s.power.phase = .deep) || (decide (s.power.left = 3) && !s.flag Fld.PWR_STATUS_mem_ready)

/-- A warm reset (R89, R129, R322, R331, R411, R458): runs are killed, journalled tallies stand and are redone, DRAM, the ledger,
clients and rings are kept, the Hearth is lost, and registers keep their RWS fields. The runs are killed before the Hearth goes: a step that then ends with
0x0E01 has REPLAYED set for a command that was running, though it is never placed again (DESIGN CHOICE, log 190). The retained ledger is then read and repaired (R87); a
journal entry found bad has no second copy, and is a package fault (log 41). -/
def State.warm (s : State) : State :=
  let redo := !s.journalUsed.isEmpty
  let s1 := (forEach s.attachedClients s.redoJournal fun c t => t.chargeWaits c).chargeReady
  let s1a := forEach (natRange 0 s.nDies) s1 fun d t => t.failHearthSteps d
  let s2 := forEach s1a.runs s1a fun r t => t.resetKill r
  let s3 := forEach s2.residencies s2 fun x t => t.endResidency x false
  let s4 := forEach (natRange 0 s.variant.groups) s3.endMoves fun g t => if t.groupUp g then t.flushGroup g else t
  let s5 := forEach (natRange 0 s.nDies) s4 fun d t => (t.closeGate d false).restDie d
  let s6 := s5.dropLinks.resetHub false
  let s7 := (s6.setFlag Fld.SCH_LEDGER_CTRL_journal_redone redo).setFld Fld.PWR_STATUS_state 3
  let s8 : State := { s7 with
    pageCmd := s7.pageCmd.map fun c => c.resume s7.tb
    latch := [], journal := [], tallyQueue := [], sweepAt := 0, runs := [], kindlingHeld := false, access := [], cnts := [], trace := {}
    relays := [], cams := {}, audio := {}, wake := {}, inds := {}, tap := {}
    steps := s7.steps.map Step.unplaced
    rings := s7.rings.map fun (r, x) => (r, { x with reading := false, checked := none, heldWindow := none, heldLedger := none })
    units := s7.units.map fun (u, x) =>
      (u, ({ epoch := x.epoch, lastAdvance := x.lastAdvance, deferred := x.deferred } : UnitSt))
    saf := {}
    keys := { s7.keys with compatWords := [], compatPending := none, running := none, hostBoot := false }
    power := { phase := if s.asleep then .regulator else .memory, left := if s.deepLost then 3 else if s.keys.kek.isNone then s.power.left else 1, frac := s7.power.frac, rtcFrom := s7.power.rtcFrom, oscReady := s7.power.oscReady
               edgeSinceOsc := s7.power.edgeSinceOsc, alarmFired := false, heldPage := s7.power.heldPage } }
  let s9 := s8.checkLedger
  if s.journalBad then s9.dampAt 1 unitTally 0 else s9

/-- From OFF every reset is cold (R511); elsewhere a warm reset is made, once the package has power. -/
def State.reset1 (s : State) : State :=
  match s.power.phase with
  | .unpowered => s
  | .off => s.cold
  | .regulator => if s.power.left = 4 ∨ s.power.left = 0 then s.cold else s.warm
  | _ => s.warm

/-- WARM_RESET: a write of 1 to `warm_reset`. -/
def warmReset (s : State) : State := s.reset1

def execWarmReset (s : State) : Host.Outcome State Fault Refusal := .next (warmReset s)

/-- COLD_RESET: a write of 1 to `cold_reset`. -/
def coldReset (s : State) : State := s.cold

def execColdReset (s : State) : Host.Outcome State Fault Refusal := .next (coldReset s)

/-- RESET_PIN_RISE (R511): RESET_N rises after `lowUs`; pulses below 10 µs are ignored, and one of 10 ms or longer was cold. -/
def resetPinRise (lowUs : Nat) (s : State) : State :=
  if lowUs < 10 then s else if lowUs < 10000 then s.reset1 else s.cold

def execResetPinRise (lowUs : Nat) (s : State) : Host.Outcome State Fault Refusal := .next (resetPinRise lowUs s)

/-- RESET_PIN_COLD_TIMEOUT (R511): RESET_N has been low for 10 ms. -/
def resetPinColdTimeout (s : State) : State := s.cold

def execResetPinColdTimeout (s : State) : Host.Outcome State Fault Refusal := .next (resetPinColdTimeout s)

/-- HOST_PORT_RESET (R511): PERST_N, or a conventional PCIe reset; the host port alone. -/
def hostPortReset (s : State) : State :=
  ((s.setFld Fld.HST_LINK_speed 0).setFld Fld.HST_LINK_width 0)

def execHostPortReset (s : State) : Host.Outcome State Fault Refusal := .next (hostPortReset s)

/-- HOST_LINK_L0 (R465): the host link has trained; the wake output is released, and no automatic re-sleep follows. -/
def hostLinkL0 (speed width : Nat) (s : State) : State :=
  if s.power.phase ≠ .run then s
  else
    ((s.setFld Fld.HST_LINK_speed speed).setFld Fld.HST_LINK_width width).modPower fun p =>
      { p with l2 := false, wakeOut := false, wokeAt := none }

def execHostLinkL0 (speed width : Nat) (s : State) : Host.Outcome State Fault Refusal := .next (hostLinkL0 speed width s)

/-! ### The timebase in RTC mode (R472, R473) -/

def State.rtcMode (s : State) : Bool := s.flag Fld.CLK_TB_STATUS_rtc_mode

/-- The hand-back is due: this edge is the first after OSC_RDY at which `frac` is 0. -/
def State.handbackDue (s : State) : Bool := s.rtcMode && s.power.oscReady && s.power.edgeSinceOsc && decide (s.power.frac = 0)

/-- RTC_EDGE (R472). At the edge of a hand-back the timebase has left RTC mode. -/
def rtcEdge (s : State) : State :=
  if !s.rtcMode ∨ s.handbackDue then s
  else
    let f := s.power.frac + 7
    { s with
      tb := (s.tb + 1171 + b2n (decide (8 ≤ f))) % 2 ^ 64
      power := { s.power with frac := f % 8, edgeSinceOsc := s.power.oscReady } }

def execRtcEdge (s : State) : Host.Outcome State Fault Refusal := .next (rtcEdge s)

/-- TIMEBASE_HANDBACK (R473). -/
def timebaseHandback (s : State) : State :=
  if s.handbackDue then
    let delta := s.tb - s.power.rtcFrom
    let s1 := s.setFld Fld.CLK_LAST_SLEEP_last_sleep delta
    (s1.addFld Fld.CLK_TB_UNCERT_uncert ((delta * 20 + 999999) / 1000000 + 1)).setFlag Fld.CLK_TB_STATUS_rtc_mode false
  else s

def execTimebaseHandback (s : State) : Host.Outcome State Fault Refusal := .next (timebaseHandback s)

/-- UNCERT_CLEAR (R473): a write of 1 to `uncert_clear`. -/
def uncertClear (s : State) : State := s.setFld Fld.CLK_TB_UNCERT_uncert 0

def execUncertClear (s : State) : Host.Outcome State Fault Refusal := .next (uncertClear s)

end Sys2Proof.Machine
end

