-- ==== Sys2Proof/Machine/Thermal.lean ====
section
/-! DEFINITION. Clock gating, DVFS points, the power cap and thermal limits (R427, R453, R466 to R470). -/

namespace Sys2Proof.Machine

open Sys2Proof

/-! ### IDLE (R453) -/

/-- No channel has a frame in the image pipeline. -/
def State.pipelineIdle (s : State) : Bool :=
  s.cams.lanes.isEmpty && s.cams.chans.all fun (_, c) => c.open_.isNone && c.queue.isEmpty && c.ready.isEmpty

/-- `state` of PWR_STATUS: RUN (0), or IDLE (1) while every fitted compute die is gated and the image pipeline has no frame in progress;
2 and 3 on the way into another state and out of it (R453, R476). -/
def State.powerState (s : State) : Nat :=
  if s.power.phase = .run then
    b2n (((natRange 0 s.nDies).all fun d => (mapFind s.power.gated d).isSome) && s.pipelineIdle)
  else s.fld Fld.PWR_STATUS_state

/-- A command is in flight on die `d`: it runs there or is on its way (R453). -/
def State.inFlightOn (s : State) (d : Nat) : Bool :=
  (s.runs.any fun r => decide (r.die = d)) || s.steps.any fun st => st.cmds.any fun c => match c.state with
    | .placed e _ => decide (e = d)
    | _ => false

/-- DIE_IDLE_GATE: a die without a command for `idle_us` gates its engine clocks. -/
def dieIdleGate (die : Nat) (s : State) : State :=
  if s.fitted die && decide (s.power.phase = .run) && !s.inFlightOn die &&
      s.passedUs (s.dieSt die).idleSince (s.fld Fld.PWR_CTRL_idle_us) then
    s.modPower fun p => { p with gated := mapSet p.gated die () }
  else s

def execDieIdleGate (die : Nat) (s : State) : Host.Outcome State Fault Refusal := .next (dieIdleGate die s)

/-! ### Points (R466 to R468) -/


def State.maxPoint (s : State) (d : Nat) : Nat :=
  if d = hubDie then s.fld Fld.CLK_POINT_HUB_max_point else s.fld (Fld.CLK_POINT_max_point d)

/-- Ring neighbours of a compute die, and the hub with every compute die (R427). -/
def State.neighbours (s : State) (d : Nat) : List Nat :=
  let n := s.nDies
  if d = hubDie then natRange 0 n
  else hubDie :: (if n < 2 then [] else [(d + 1) % n, (d + n - 1) % n].eraseDups)


/-- Points that temperature and the cap take from a die. -/
def State.takenPoints (s : State) (d : Nat) : Nat :=
  (mapGet s.power.therm d {}).steps.length + (s.power.capSteps.filter fun x => decide (x = d)).length

/-- The point that a die's own limits ask for (R467). -/
def State.ownPoint (s : State) (d : Nat) : Nat := min 4 (s.maxPoint d + s.takenPoints d)

/-- With the neighbour rule: at most 1 beside a die that goes to point 4. -/
def State.wantedPoint (s : State) (d : Nat) : Nat :=
  if (s.neighbours d).any fun k => decide (s.ownPoint k = 4) then max 1 (s.ownPoint d) else s.ownPoint d


/-! ### A move of one point (R467, R468) -/

/-- A die's point set, in every register that reports it, with its POWER packet (R486). -/
def State.setPoint (s : State) (d p : Nat) : State :=
  let s0 := s.settleCycles d
  let s1 := if d = hubDie then s0.setFld Fld.CLK_POINT_HUB_point p
    else (s0.setFld (Fld.CLK_POINT_point d) p).setFld (Fld.CPC_STATUS_point d) p
  let temp := if d = hubDie then s1.fld Fld.CLK_POINT_HUB_temp_c else s1.fld (Fld.CLK_POINT_temp_c d)
  s1.packet 0x31 (unitOf d 0x060) 0xFFF (leBytes (s1.powerState + p * 16 + temp * 256) 4)

/-- A die moves one point, where its limits and the neighbour rule allow it and, upward, the credit carries the difference. -/
def State.moveDie (s : State) (d : Nat) (lower : Bool) : State :=
  let p := s.pointOf d
  let n := s.fld Fld.PWR_STATUS_throttle_level
  let ns := (s.neighbours d).map s.pointOf
  if lower then
    if p < s.wantedPoint d && !(decide (p + 1 = 4) && ns.contains 0) then s.setPoint d (p + 1) else s
  else if decide (s.wantedPoint d < p) && !(decide (p = 1) && ns.contains 4) &&
      s.creditFits (s.reserve n + s.dieReserve d (p - 1) n - s.dieReserve d p n) then s.setPoint d (p - 1)
  else s

/-- DVFS_STEP (R468): the power manager moves a die, the hub as 8, one point. -/
def dvfsStep (die : Nat) (lower : Bool) (s : State) : State :=
  if (s.fitted die || decide (die = hubDie)) && decide (s.power.phase = .run) then s.moveDie die lower else s

def execDvfsStep (die : Nat) (lower : Bool) (s : State) : Host.Outcome State Fault Refusal := .next (dvfsStep die lower s)

/-! ### The cap (R469) -/

/-- `throttle_level` and `cap_limiting`. -/
def State.setThrottle (s : State) (n : Nat) : State :=
  (s.setFld Fld.PWR_STATUS_throttle_level n).setFlag Fld.PWR_STATUS_cap_limiting (decide (0 < n) || !s.power.capSteps.isEmpty)

/-- The least throttle level from `n` upward at which the credit carries the next step; 15 where none below does. -/
def State.raiseTo (s : State) : Nat → Nat → Nat
  | 0, n => n
  | k + 1, n => if s.creditFits (s.reserve n) then n else s.raiseTo k (n + 1)

/-- POWER_CAP_GRID: one step of the 10 µs grid. -/
def powerCapGrid (s : State) : State :=
  let n := s.fld Fld.PWR_STATUS_throttle_level
  let c := min s.creditMax (s.power.credit + s.creditFill - 10 * s.reserve n)
  let s1 := s.modPower fun p => { p with credit := c }
  if !s1.creditFits (s1.reserve n) then s1.setThrottle (s1.raiseTo (15 - n) n)
  else if 0 < n ∧ s1.creditFits (s1.reserve (n - 1)) then s1.setThrottle (n - 1)
  else s1.setThrottle n

def execPowerCapGrid (s : State) : Host.Outcome State Fault Refusal := .next (powerCapGrid s)

/-- The cap takes a point from a die. -/
def State.capLower (s : State) (d : Nat) : State :=
  ((s.modPower fun p => { p with capSteps := d :: p.capSteps, capAt := s.tb }).moveDie d true)

/-- POWER_CAP_ADJUST: every 100 µs while throttling, a compute die, those that draw most first in `heaviest`, or the hub with all of
them at point 4, is lowered one point. -/
def powerCapAdjust (heaviest : List Nat) (s : State) : State :=
  if s.fld Fld.PWR_STATUS_throttle_level = 0 ∨ !s.passedUs s.power.capAt 100 then s
  else
    match heaviest.find? fun d => s.fitted d && decide (s.ownPoint d < 4) with
    | some d => (s.capLower d).setThrottle (s.fld Fld.PWR_STATUS_throttle_level)
    | none =>
      if ((natRange 0 s.nDies).all fun d => decide (s.pointOf d = 4)) ∧ s.ownPoint hubDie < 4 then
        (s.capLower hubDie).setThrottle (s.fld Fld.PWR_STATUS_throttle_level)
      else s

def execPowerCapAdjust (heaviest : List Nat) (s : State) : Host.Outcome State Fault Refusal := .next (powerCapAdjust heaviest s)

/-- POWER_CAP_RESTORE: every 1 ms while the total reservation stays below 0.95 × `cap_w`, the latest lowering is undone. -/
def powerCapRestore (s : State) : State :=
  match s.power.capSteps with
  | [] => s
  | d :: rest =>
    if s.passedUs s.power.capAt 1000 ∧ s.reserve (s.fld Fld.PWR_STATUS_throttle_level) * 100 < 95000 * s.fld Fld.PWR_CAP_cap_w then
      ((s.modPower fun p => { p with capSteps := rest, capAt := s.tb }).moveDie d false).setThrottle
        (s.fld Fld.PWR_STATUS_throttle_level)
    else s

def execPowerCapRestore (s : State) : Host.Outcome State Fault Refusal := .next (powerCapRestore s)

/-! ### Temperature (R427, R470) -/

/-- By how much a die is hotter than its coolest neighbour. -/
def State.hotterBy (s : State) (temp : Nat → Int) (d : Nat) : Int :=
  ((s.neighbours d).map fun k => temp d - temp k).foldl max 0

/-- The clocks of cooling, and whether the newest step taken may be undone. -/
def coolFor (s : State) (since : Option Nat) : Bool :=
  match since with
  | some t => s.passedUs t 10000
  | none => false

/-- One sample of a die: a point taken each 1 ms while it is too hot, or from a difference above 25 °C to a neighbour on until that is 20 °C
or less, one step for both, and the newest taken back after 10 ms of what it was taken for being low. -/
def State.thermDie (s : State) (temp : Nat → Int) (d : Nat) : State :=
  let limit := Int.ofNat (s.fld Fld.CLK_THERM_throttle_c)
  let diff := s.hotterBy temp d
  let hotT := decide (limit < temp d)
  let x := mapGet s.power.therm d {}
  let hotD := decide (25 < diff) || (x.diffOn && decide (20 < diff))
  let note := fun (low : Bool) (since : Option Nat) => if low then some (since.getD s.tb) else none
  let x1 := { x with diffOn := hotD, coolT := note (decide (temp d ≤ limit - 5)) x.coolT, coolD := note (decide (diff ≤ 20)) x.coolD }
  let put := fun (y : Therm) => s.modPower fun p => { p with therm := mapPut p.therm d y {} }
  let due := match x.loweredAt with
    | some t => s.passedUs t 1000
    | none => true
  if hotT || hotD then
    if due && decide (s.ownPoint d < 4) then (put { x1 with steps := (hotT, hotD) :: x.steps, loweredAt := some s.tb }).moveDie d true
    else put x1
  else
    match x1.steps with
    | (t, f) :: rest =>
      if (!t || coolFor s x1.coolT) && (!f || coolFor s x1.coolD) then
        (put { x1 with steps := rest, coolT := x1.coolT.map fun _ => s.tb, coolD := x1.coolD.map fun _ => s.tb }).moveDie d false
      else put x1
    | [] => put x1

/-- A die's temperature in its registers. -/
def State.setTemp (s : State) (d : Nat) (t : Int) : State :=
  let v := unsigned t 8
  if d = hubDie then s.setFld Fld.CLK_POINT_HUB_temp_c v
  else (s.setFld (Fld.CLK_POINT_temp_c d) v).setFld (Fld.CPC_STATUS_temp_c d) v

/-- The logic of a die loses power as the damper acts on the shutdown limit (R409, R470). -/
def State.thermalOffDie (s : State) (d : Nat) : State :=
  if (s.dieSt d).gate then
    ((s.failHearthSteps d).killForTakeOut d ((s.liveRuns d).map (·.client)).eraseDups).closeGate d true
  else if s.flag (Fld.CPC_STATUS_logic_powered d) then
    (s.setFlag (Fld.CPC_STATUS_logic_powered d) false).setFld (Fld.CDG_STATUS_logic_state d) logicOff
  else s

/-- THERMAL_SAMPLE: every 100 µs, the temperature of each compute die in order and of the hub last. -/
def thermalSample (temps : List Int) (s : State) : State :=
  let temp := fun (d : Nat) => temps.getD (if d = hubDie then s.nDies else d) 0
  let s1 := forEach s.allDies s fun d t => t.setTemp d (temp d)
  let s2 := forEach s.allDies s1 fun d t => t.thermDie temp d
  let s3 := forEach s.allDies s2 fun d t =>
    let diff := t.hotterBy temp d
    let t1 := if 30 < diff then t.logRecorded (unitOf d 0x060) 0 else t
    if d = hubDie then t1
    else if 35 < diff ∧ (t1.dieSt d).gate then (t1.takeOutDie d 7 false).modDie d fun x => { x with thermalOut := true }
    else if diff ≤ 20 ∧ (t1.dieSt d).thermalOut then
      let t2 := t1.modDie d fun x => { x with thermalOut := false }
      if (t2.dieOut d) then t2 else t2.setFld (Fld.CDG_STATUS_logic_state d) logicSelftest
    else t1
  let hot := s.allDies.any fun d => decide (135 < temp d)
  let s4 := if hot then forEach (natRange 0 s.nDies) (s3.damp 1) fun d t => t.thermalOffDie d else s3
  let limited := s.allDies.any fun d => !(mapGet s4.power.therm d {}).steps.isEmpty
  (s4.setFlag Fld.PWR_STATUS_thermal_limiting limited).modPower fun p =>
    { p with hotSince := if hot then some (p.hotSince.getD s.tb) else none }

def execThermalSample (temps : List Int) (s : State) : Host.Outcome State Fault Refusal := .next (thermalSample temps s)

/-- THERMAL_OFF_TIMEOUT: a die has been above the shutdown limit for 100 ms after the damper acted. -/
def thermalOffTimeout (s : State) : State :=
  match s.power.hotSince with
  | some t => if s.saf.damped ∧ s.passedUs t 100000 then s.enterOff.setFlag Fld.PWR_WAKE_LOG_thermal_off true else s
  | none => s

def execThermalOffTimeout (s : State) : Host.Outcome State Fault Refusal := .next (thermalOffTimeout s)

end Sys2Proof.Machine
end

