-- ==== Sys2Proof/Machine/Security.lean ====
section
/-! DEFINITION. Keys, the ring ports, the clearing of a client, and EVENT messages (R30, R409, R431 to R443, R507 to R509). -/

namespace Sys2Proof.Machine

open Sys2Proof

/-! ### The DRBG and compatibility keys (R431, R439, R450) -/

/-- DRBG_RESEED (R431). -/
def drbgReseed (s : State) : State := s.modKeys fun k => { k with served := 0, reseedAt := s.tb }

def execDrbgReseed (s : State) : Host.Outcome State Fault Refusal := .next (drbgReseed s)

/-- COMPAT_KEY_LOAD (R439): 1 to `load` with the client. It waits until no codec command of the client is in flight. -/
def compatKeyLoad (client : Nat) (s : State) : State :=
  let c := client % 4096
  let s1 := s.setFld Fld.SEC_COMPAT_CTRL_client c
  if !s1.attached c then (s1.setFlag Fld.SEC_COMPAT_CTRL_load_error true).modKeys fun k => { k with compatWords := [] }
  else (s1.modKeys fun k => { k with compatPending := some c }).settleCompat

def execCompatKeyLoad (client : Nat) (s : State) : Host.Outcome State Fault Refusal := .next (compatKeyLoad client s)

/-- COMPAT_KEY_CLEAR (R450). -/
def compatKeyClear (client : Nat) (s : State) : State :=
  let c := client % 4096
  (s.setFld Fld.SEC_COMPAT_CTRL_client c).modKeys fun k => { k with compatKeys := mapDel k.compatKeys c }

def execCompatKeyClear (client : Nat) (s : State) : Host.Outcome State Fault Refusal := .next (compatKeyClear client s)

/-! ### Ring ports (R440 to R442, R508, R509) -/

/-- The unit name of a ring port (R31): 0 East, 1 West. -/
def portUnit (p : Nat) : Nat := unitOf hubDie (0x090 + p)

/-- With `ring_size` 1 both ports are powered down. -/
def State.portPowered (s : State) (p : Nat) : Bool :=
  decide (p < 2) && s.awake && s.flag (Fld.HXR_CTRL_enable p) && decide (1 < s.fld Fld.HXR_PKG_ring_size)

/-- A port carries no traffic and holds no keys. -/
def State.portOff (s : State) (p : Nat) : State :=
  let s1 := ((s.setFlag (Fld.HXR_STATUS_link_up p) false).setFlag (Fld.HXR_SEC_STATUS_secure p) false).setFlag
    (Fld.HXR_SEC_STATUS_rekey_busy p) false
  ((s1.setFlag (Fld.HXR_SEC_STATUS_key_phase p) false).setFld (Fld.HXR_SEC_COUNT_tx_counter p) 0).modRingPort p fun _ => {}

/-- A port goes down (R409): the ring becomes a line (R278). -/
def State.portDown (s : State) (p : Nat) : State :=
  ((s.portOff p).setFlag (Fld.HXR_STATUS_down_seen p) true).logEvent 2 3 (portUnit p) 0

/-- HXR_ENABLE (R509): `enable` written. -/
def hxrEnable (port : Nat) (on : Bool) (s : State) : State :=
  if 2 ≤ port then s
  else
    let s1 := s.setFlag (Fld.HXR_CTRL_enable port) on
    if on then s1
    else if s1.flag (Fld.HXR_STATUS_link_up port) then (s1.portOff port).setFlag (Fld.HXR_STATUS_down_seen port) true
    else s1.portOff port

def execHxrEnable (port : Nat) (on : Bool) (s : State) : Host.Outcome State Fault Refusal := .next (hxrEnable port on s)

/-- RING_PORT_TRAINED (R441). -/
def ringPortTrained (port : Nat) (s : State) : State :=
  if s.portPowered port && !(s.ringPort port).trained then
    (s.modRingPort port fun x => { x with trained := true }).sendAgreement port
  else s

def execRingPortTrained (port : Nat) (s : State) : Host.Outcome State Fault Refusal := .next (ringPortTrained port s)

/-- The peer's numbers fit R509: East is the next package, West the one before. -/
def State.peerFits (s : State) (p : Nat) (m : KeyMsg) : Bool :=
  let n := s.fld Fld.HXR_PKG_ring_size
  let own := s.fld Fld.HXR_PKG_pkg_id
  decide (m.ringSize = n) && decide (m.pkgId = (if p = 0 then (own + 1) % n else (own + n - 1) % n))

/-- A failed agreement: no traffic until one succeeds, tried again every 1 s (R441, R409). -/
def State.failAgreement (s : State) (p : Nat) (topo : Bool) : State :=
  let s1 := ((s.portOff p).modRingPort p fun _ => { trained := true, failedAt := some s.tb }).logRecorded (portUnit p) 0
  if topo then s1.setFlag (Fld.HXR_STATUS_topo_error p) true else s1.setFlag (Fld.HXR_SEC_STATUS_auth_failed p) true

/-- A new 32-bit salt, a free value (R432, R441). -/
def State.newSalt (s : State) : State × Nat :=
  let (s1, w) := s.drawWord
  (s1, w % 2 ^ 32)

/-- New keys and salts in both directions: counters start at 0, and at a rekey the key phase flips while the receiver keeps the old
key until the first frame of the new phase (R441, R442). -/
def State.installKeys (s : State) (p : Nat) : State :=
  let rekey := s.flag (Fld.HXR_SEC_STATUS_secure p)
  let (t1, k) := s.newKey
  let (t2, k') := t1.newKey
  let (t3, salt) := t2.newSalt
  let (s1, salt') := t3.newSalt
  let s2 := ((s1.setFlag (Fld.HXR_SEC_STATUS_secure p) true).setFlag (Fld.HXR_STATUS_link_up p) true).setFlag
    (Fld.HXR_SEC_STATUS_rekey_busy p) false
  let s3 := (s2.setFld (Fld.HXR_SEC_COUNT_tx_counter p) 0).setFlag (Fld.HXR_SEC_STATUS_key_phase p)
    (if rekey then !s2.flag (Fld.HXR_SEC_STATUS_key_phase p) else false)
  let s4 := s3.modRingPort p fun x =>
    { x with txKey := k, txSalt := salt, rxKey := k', rxSalt := salt', rekeyAt := none, failedAt := none, spent := false, rxOld := rekey
             rxNext := if rekey then x.rxNext else 0, rxPhase := if rekey then x.rxPhase else 0 }
  State.sendWaiting p (s4.ringPort p).waiting.length s4

/-- KEY_AGREEMENT_MSG (R441, R442, R509): the peer's signed message arrives. At a rekey that the peer has started, this end starts its own
and sends its message too. -/
def keyAgreementMsg (port : Nat) (m : KeyMsg) (s : State) : State :=
  if !(s.portPowered port && (s.ringPort port).trained) then s
  else if !(m.chainOk && m.signatureOk && decide (m.ringTag = s.fld (Fld.HXR_SEC_CTRL_ring_tag port))) then s.failAgreement port false
  else if !s.peerFits port m then s.failAgreement port true
  else if s.flag (Fld.HXR_SEC_STATUS_secure port) && (s.ringPort port).rekeyAt.isNone then (s.startRekey port).installKeys port
  else s.installKeys port

def execKeyAgreementMsg (port : Nat) (m : KeyMsg) (s : State) : Host.Outcome State Fault Refusal := .next (keyAgreementMsg port m s)

/-- KEY_AGREEMENT_RETRY (R441): 1 s after a failure. -/
def keyAgreementRetry (port : Nat) (s : State) : State :=
  match (s.ringPort port).failedAt with
  | some t =>
    if s.portPowered port && s.passedUs t 1000000 then
      (s.modRingPort port fun x => { x with failedAt := some s.tb }).sendAgreement port
    else s
  | none => s

def execKeyAgreementRetry (port : Nat) (s : State) : Host.Outcome State Fault Refusal := .next (keyAgreementRetry port s)

/-- REKEY_NOW (R442). -/
def rekeyNow (port : Nat) (s : State) : State :=
  if s.portPowered port && s.flag (Fld.HXR_SEC_STATUS_secure port) && (s.ringPort port).rekeyAt.isNone then s.startRekey port else s

def execRekeyNow (port : Nat) (s : State) : Host.Outcome State Fault Refusal := .next (rekeyNow port s)

/-- REKEY_TIMEOUT (R442): a rekey has not completed within `rekey_timeout_ms`, as it was when the rekey started (R451). -/
def rekeyTimeout (port : Nat) (s : State) : State :=
  match (s.ringPort port).rekeyAt with
  | some t => if s.passedUs t (1000 * (s.ringPort port).rekeyMs) then s.portDown port else s
  | none => s

def execRekeyTimeout (port : Nat) (s : State) : Host.Outcome State Fault Refusal := .next (rekeyTimeout port s)

/-- Frames of the retry buffer from the one with a counter on. -/
def framesFrom (counter : Nat) (xs : List SentFrame) : List SentFrame := xs.dropWhile fun f => decide (f.counter ≠ counter)

/-- Frames of the retry buffer up to the one acknowledged are gone. -/
def ackFrames (counter : Nat) (xs : List SentFrame) : List SentFrame :=
  if xs.any fun f => decide (f.counter = counter) then (framesFrom counter xs).drop 1 else xs

/-- The peer's acknowledgement in a control block, and the frames that waited for room (R508). -/
def State.ackPort (s : State) (p counter : Nat) : State :=
  let x := s.ringPort p
  let left := ackFrames counter x.retry
  let s1 := if left.length < x.retry.length then s.modRingPort p fun y => { y with retry := left, resends := 0 } else s
  State.sendWaiting p x.waiting.length s1

/-- Frames that a ring port has found bad in succession. -/
def State.noteBad (s : State) (port n : Nat) : State := { s with saf := { s.saf with ringBad := s.saf.ringBad.set port n } }

/-- RING_FRAME (R508, R440, R442): a sealed data frame; one that FEC cannot correct or whose tag fails is answered with NAK and
logged, and the eighth in succession takes the port down (R409). In order, its messages are delivered, or forwarded where it is for another package (R278); out of order it is
discarded. The receive counter starts a rekey as the other does (R442). -/
def ringFrame (port : Nat) (f : RingFrame) (s : State) : State :=
  if !(s.portPowered port && s.flag (Fld.HXR_SEC_STATUS_secure port)) then s
  else
    let x := s.ringPort port
    let s0 := s.ackPort port f.ackCounter
    if !f.fecOk ∨ !f.tagOk then
      let n := s0.saf.ringBad.getD port 0 + 1
      let s1 := ((s0.send (.nak (portUnit port) x.rxNext)).logCorrected (portUnit port) 0).noteBad port n
      if 8 ≤ n then s1.portDown port else s1
    else if f.kind ≠ 0 ∨ f.payload.length < 16 ∨ 2048 < f.payload.length ∨ f.payload.length % 16 ≠ 0 then s0
    else
      let flip := x.rxOld && decide (f.phase % 2 ≠ x.rxPhase)
      let want := if flip then 0 else x.rxNext
      if f.counter % 2 ^ 32 ≠ want % 2 ^ 32 ∨ (!flip ∧ f.phase % 2 ≠ x.rxPhase) then s0
      else
        let s1 := ((s0.noteBad port 0).modRingPort port fun y =>
          { y with rxNext := want + 1, rxPhase := f.phase % 2, rxOld := y.rxOld && !flip }).rekeyAtCount port (want + 1)
        let s2 := s1.send (.ack (portUnit port) want [])
        if f.dstPkg = s.fld Fld.HXR_PKG_pkg_id then s2.takePayload port f.srcPkg (f.payload.length / 16) f.payload
        else if s2.flag (Fld.HXR_STATUS_link_up (1 - port)) then s2.sendFrame (1 - port) ⟨f.srcPkg, f.dstPkg, f.payload⟩
        else s2

def execRingFrame (port : Nat) (f : RingFrame) (s : State) : Host.Outcome State Fault Refusal := .next (ringFrame port f s)

/-- RING_FRAME_NAK (R508): the sender sends again from the frame; the eighth successive resend of one frame takes the port down. -/
def ringFrameNak (port counter : Nat) (s : State) : State :=
  let x := s.ringPort port
  if !(s.portPowered port && x.retry.any fun f => decide (f.counter = counter)) then s
  else
    let left := framesFrom counter x.retry
    let n := if left.length < x.retry.length then 1 else x.resends + 1
    let s1 := (s.modRingPort port fun y => { y with retry := left, resends := n }).addFld (Fld.HXR_STATUS_resends port) left.length
    let s2 := forEach left s1 fun f t => t.send (f.sent port)
    if 8 ≤ n then s2.portDown port else s2

def execRingFrameNak (port counter : Nat) (s : State) : Host.Outcome State Fault Refusal := .next (ringFrameNak port counter s)

/-! ### Clearing a client (R443, R444) -/

/-- The last ring of a detaching client shows STOPPED and nothing of the client is left in flight. -/
def State.readyToClear (s : State) (c : Nat) : Bool :=
  s.detaching c && s.attached c && !(s.steps.any fun st => decide (st.client = c)) && !(s.runs.any fun r => decide (r.client = c)) &&
  (s.ringsOf c).all (fun r => !([RingState.active, .quiet, .stopping].contains (s.ring r).state)) &&
  s.moves.all (fun (n, _) => decide ((s.page n).owner ≠ c))

/-- The page, if any, whose frame holds offset `off` of group `g`. -/
def State.pageIn (s : State) (g off : Nat) : Option (Nat × Page) :=
  s.pages.find? fun (_, p) => (decide (p.state = .backed) || decide (p.state = .system)) && decide (p.group = g) && decide (p.frame = off / 0x200000)

/-- Merge-buffer entries that hold lines of a client are flushed. -/
def State.flushClient (s : State) (c : Nat) : State :=
  forEach (natRange 0 s.variant.groups) s fun g t =>
    forEach ((t.dmc g).merge.filter fun e => match s.pageIn g (64 * e.line) with
      | some (_, p) => decide (p.owner = c)
      | none => false) t fun e u => u.flushEntry g e

/-- Pages of a client unpinned and made free (R321, R443). -/
def State.freeClientPages (s : State) (c : Nat) : State :=
  forEach (s.pages.filter fun (_, p) => decide (p.owner = c) && decide (p.state ≠ .system) && decide (p.state ≠ .free)) s fun (n, _) t =>
    t.freePage n

/-- On every die, buffers of a client freed and its granules left without a last owner. -/
def State.clearHearths (s : State) (c : Nat) : State :=
  forEach (natRange 0 s.nDies) s fun d t =>
    let mine := (t.hearth d).bufs.filter fun (_, b) => decide (b.owner = c)
    (forEach mine t fun (g, _) u => u.freeBuf d g).modHearth d fun h =>
      { h with last := h.last.filter fun (_, o) => decide (o ≠ c + 1) }

/-- CLIENT_CLEAR (R443). -/
def clientClear (client : Nat) (s : State) : State :=
  if !s.readyToClear client then s
  else
    let s1 := forEach ((natRange 0 16).filter fun k => decide (s.fld (Fld.CAM_CH_OWNER_client k) = client) &&
      s.flag (Fld.CAM_CH_CTRL_enable k)) s fun k t => t.stopChannel k
    let s2 := if s1.wakeClient = client ∧ s1.stage ≠ 0 then s1.closeRing.setStage 0 else s1
    let s3 := forEach (s2.residencies.filter fun x => decide (x.client = client)) s2 fun x t => t.endResidency x true
    let s4 := ((s3.flushClient client).freeClientPages client).clearHearths client
    let s5 := s4.modKeys fun k =>
      { k with clientKeys := mapDel k.clientKeys client, compatKeys := mapDel k.compatKeys client
               cached := k.cached.filter fun (u, _) => decide (u % 4096 ≠ client)
               compatPending := if k.compatPending = some client then none else k.compatPending }
    let s6 := s5.writeAcct client
    (s6.setFlag (Fld.SCH_CLIENT_CTRL_attached client) false).setFlag (Fld.SCH_CLIENT_CTRL_detaching client) false

def execClientClear (client : Nat) (s : State) : Host.Outcome State Fault Refusal := .next (clientClear client s)

/-! ### EVENT (R30, R403, R409) -/

/-- A Unit-class error: the unit is taken out, fails over, or its group is exposed. -/
def State.unitError (s : State) (r : FaultReport) : State :=
  let d := r.unit / 4096
  let u := r.unit % 4096
  if d = hubDie then
    if u = 0x002 then s.failOver
    else if u = 0x003 then s.standbyOut
    else if u = 0x010 then
      let s1 := s.modWake fun w => { w with tinder := if r.source = .tinder then none else w.tinder
                                            kindling := if r.source = .tinder then w.kindling else none }
      (if s1.stage ≠ 0 then s1.closeRing.setStage 0 else s1).logEvent 2 3 r.unit r.detail
    else if u = 0x070 ∨ u = 0x071 then (if s.exposed (u - 0x070) then s else s.exposeGroup (u - 0x070))
    else if 0x080 ≤ u ∧ u < 0x087 then s.linkDown r.unit
    else if u = 0x090 ∨ u = 0x091 then s.portDown (u - 0x090)
    else if (inServiceFld d u).isSome then s.takeOutEngine d u r.detail
    else s.logEvent 2 3 r.unit r.detail
  else if !s.fitted d then s
  else if u = 0x060 ∨ u = 0x061 ∨ u = 0x050 then (if (s.dieSt d).gate then s.takeOutDie d (if u = 0x061 then 2 else if u = 0x050 then 3 else 1) false else s)
  else if u = 0x070 ∨ u = 0x071 then
    let g := 2 + 2 * d + (u - 0x070)
    if s.exposed g then s else s.exposeGroup g
  else if 0x080 ≤ u ∧ u < 0x083 then s.linkDown r.unit
  else if (inServiceFld d u).isSome && s.unitIn d u then s.takeOutEngine d u r.detail
  else s.logEvent 2 3 r.unit r.detail

/-- A detection by an engine's check or store ECC that concerns no command (R203, R526): logged as class 0 with action 0, shown in the
unit's status (R250), and counted towards a take-out. An MXE and its EWE bear one unit number (R31), and so share the history. -/
def State.looseDetection (s : State) (r : FaultReport) : State :=
  let d := r.unit / 4096
  let u := r.unit % 4096
  let s1 := s.logRecorded r.unit r.detail (r.client.getD 0xFFF)
  if d = hubDie then (if u = 0x010 ∧ s.unitIn d u then s1.countDetection d u r.detail else s1)
  else if (inServiceFld d u).isSome && s.fitted d && s.unitIn d u then (s1.showDetection d u r.detail r.client).countDetection d u r.detail
  else s1

/-- A Command-class error: the command it names is replayed or its step fails; a detection that finds no command running is counted
all the same (R526); anything else is logged. -/
def State.commandError (s : State) (r : FaultReport) : State :=
  let s1 := if r.detail = 0x0D02 ∧ r.unit % 4096 = 0x050 ∧ s.fitted (r.unit / 4096) then
      s.setFlag (Fld.HRT_STATUS_ue_seen (r.unit / 4096)) true else s
  match r.index.bind (s1.runOf? r.ring r.seq) with
  | some x =>
    let n := engNumber x.die { unit := r.unit % 4096 }
    if x.tallySent then (if isDetection r.detail then s1.looseDetection r else s1)
    else if isDetection r.detail then (s1.showDetection x.die (engineUnit x.kind n) r.detail (some x.client)).checkFault x r.detail n
    else s1.failRun x r.detail n
  | none =>
    if isDetection r.detail then s1.looseDetection r
    else s1.logEvent 1 0 r.unit r.detail (r.client.getD 0xFFF) r.seq r.ring

/-- A compare mismatch of the scheduler front end or the tally unit (R409): the operation is repeated, and a second within 1 ms is a Package
error. -/
def State.compareMismatch (s : State) (r : FaultReport) : State :=
  let again := match s.saf.compareAt with
    | some t => !s.passedUs t 1000
    | none => false
  let s1 := { s with saf := { s.saf with compareAt := some s.tb } }
  if again then s1.dampAt 1 r.unit r.detail else s1.logCorrected r.unit r.detail

/-- A Corrected-class report (R409, R479): a compare mismatch, a ledger entry found bad, which is restored, a detection, which counts, and
anything else is a corrected error, logged and shown in its unit's status. -/
def State.correctedEvent (s : State) (r : FaultReport) : State :=
  if r.source = .compare then s.compareMismatch r
  else match r.entry with
  | some (k, err) => if r.unit = unitTally then s.ledgerFault k err else s.logCorrected r.unit r.detail (r.client.getD 0xFFF)
  | none =>
    if isDetection r.detail then s.looseDetection r
    else (s.storeCorrected (r.unit / 4096) (r.unit % 4096) r.client).logCorrected r.unit r.detail (r.client.getD 0xFFF)

/-- EVENT: a report reaches the supervisors, which run the reaction of its class (R403, R409). -/
def event (r : FaultReport) (s : State) : State :=
  if r.cls = 0 then s.correctedEvent r
  else if r.cls = 1 then s.commandError r
  else if r.cls = 2 then s.unitError r
  else if r.cls = 3 then s.dampAt 1 r.unit r.detail (r.client.getD 0xFFF)
  else s

def execEvent (r : FaultReport) (s : State) : Host.Outcome State Fault Refusal := .next (event r s)

end Sys2Proof.Machine
end

