-- ==== Sys2Proof/Machine/RegAccess.lean ====
section
/-! DEFINITION. The host's access to registers (R11 to R17, R43, R523) and to unified device memory through BAR4 (R319, R505). -/

namespace Sys2Proof.Machine

/-! ### Where a register lies -/

/-- The first offset of an instance of `(base, dims)`. -/
def sitsAt (base : Nat) (dims : List (Nat × Nat)) (off : Nat) : Bool :=
  decide (base ≤ off) && decide (instanceOffset dims (off - base) = some 0)

/-- Registers of which each client has a copy (R57). -/
def perClient (off : Nat) : Bool := decide (0x50108 ≤ off) && decide (off < 0x50180)

/-- The key of the register at `off`: for a per-client one, the copy of the selected client. -/
def State.keyOf (s : State) (off : Nat) : Nat := if perClient off then clientKey s.selected off else off

/-- The compute die whose window holds `off`. -/
def offDie (off : Nat) : Nat := (off - 0x1000000) / 0x800000

/-- The register at `off`, none where the die is not fitted (R52). -/
def State.regHere (s : State) (off : Nat) : Option (RegDef × Nat) :=
  if 0x1000000 ≤ off ∧ !s.fitted (offDie off) then none else regAt off

/-- The compute logic to which `off` belongs does not answer (R43). -/
def State.logicDead (s : State) (off : Nat) : Bool :=
  decide (0x1000000 ≤ off) && inLogic (offDie off) off && !s.logicServes (offDie off)

/-! ### What registers read as -/

/-- The engine whose `engine_epoch` a status register carries in [31:16], as a unit number on its die. -/
def epochUnit (rel : Nat) : Option Nat :=
  if sitsAt 0x10004 [(0x1000, 8)] rel then some ((rel - 0x10004) / 0x1000)
  else if sitsAt 0x20004 [(0x1000, 8)] rel then some ((rel - 0x20004) / 0x1000)
  else if sitsAt 0x30004 [(0x4000, 2)] rel then some (0x010 + (rel - 0x30004) / 0x4000)
  else if rel = 0x38004 then some 0x020
  else if rel = 0x3C004 then some 0x021
  else if sitsAt 0x40004 [(0x8000, 2)] rel then some (0x030 + (rel - 0x40004) / 0x8000)
  else none

/-- Rings with steps in flight. -/
def State.residentRings (s : State) : Nat := (forEach s.steps ([] : NMap Unit) fun st m => mapSet m st.ring ()).length

/-- The value of a register of compute die `d` at `rel` of its window, `v` being what is stored. -/
def State.dieRead (s : State) (d rel v : Nat) : Nat :=
  match epochUnit rel with
  | some u => setBits v 16 16 (s.epoch (unitOf d u))
  | none =>
    if rel = 0 then setBits v 8 16 (s.epoch (dieUnit d))
    else if sitsAt 0x80000 [(0x4000, 3)] rel then setBits v 16 16 (s.epoch (unitOf d (0x080 + (rel - 0x80000) / 0x4000)))
    else if rel = 0x60004 then
      setBits v 16 16 (0x8000 - (s.hearth d).heldBy fun _ => true)
    else if rel = 0x60014 then
      let c := s.fld (Fld.HRT_USE_SEL_client d)
      (s.hearth d).heldBy (fun b => decide (b.owner = c)) + 0x10000 * s.reservedGranules d c
    else if sitsAt 0x70004 [(0x8000, 2)] rel then setBits v 16 4 (2 + 2 * d + (rel - 0x70004) / 0x8000)
    else if sitsAt 0x7000C [(0x8000, 2)] rel then (s.dmc (2 + 2 * d + (rel - 0x7000C) / 0x8000)).merge.length
    else if rel = 0xA0004 then setBits v 0 1 (b2n (s.drained d))
    else v

/-- A counter of a block by the offset of its register, where `off` is one. -/
def State.counterRead (s : State) (off : Nat) : Option Nat :=
  let blk := off - off % 0x800
  if 0x80 ≤ off % 0x800 ∧ off % 0x800 < 0x100 ∧ (blk = 0xC1000 ∨ inLogic (offDie blk) blk) then
    some (mapGet (s.cnt blk).counts ((off % 0x800 - 0x80) / 8) 0)
  else none

/-- The value of a hub register, `v` being what is stored. -/
def State.hubRead (s : State) (off v : Nat) : Nat :=
  if off = Reg.CLK_TB then s.tb
  else if off = Reg.AUD_INDEX then s.audio.index
  else if off = Reg.SCH_CLIENT_USE then s.pagesBacked s.selected % 0x40000 + 0x40000 * (s.pagesReserved s.selected % 0x40000)
  else if off = Reg.SCH_CLIENT_USE_L4 then min (s.l4InUse s.selected) 0xFFFFFFFF
  else if off = Reg.SCH_LEDGER_STATUS then s.residentRings + 0x10000 * s.steps.length
  else if sitsAt 0xD8000 [(0x400, 7)] off then setBits v 16 16 (s.epoch (unitOf hubDie (0x080 + (off - 0xD8000) / 0x400)))
  else if sitsAt 0xE0004 [(0x1000, 2)] off then setBits v 16 4 ((off - 0xE0004) / 0x1000)
  else if sitsAt 0xE000C [(0x1000, 2)] off then (s.dmc ((off - 0xE000C) / 0x1000)).merge.length
  else if off = Reg.PWR_STATUS then setBits v 0 2 s.powerState
  else if off = Reg.DBG_TRACE_STATUS then setBits v 2 1 (b2n s.awake)
  else if off = Reg.PWR_AON then min (s.aonBudget (decide (s.fld Fld.PWR_CTRL_target = 2))) 0xFFFF
  else if off = Reg.SEC_COMPAT_CTRL then
    setBits v 14 1 (b2n (mapFind s.keys.compatKeys (s.fld Fld.SEC_COMPAT_CTRL_client)).isSome)
  else v

/-- The core rail of a die at a DVFS point, in mV (R466). -/
def railMv (point : Nat) : Nat := [900, 840, 780, 680].getD point 600

/-- Quantities that the package measures and no command gives, from a free value (R46, R476; log 30): the input power over the last 1 ms,
which the cap bounds (R469), and a core rail, which runs at the voltage of its die's point (R466) and is open while the logic has no
power. -/
def State.measuredReg (s : State) (off : Nat) : Option (Nat → Nat) :=
  if off = 0x10034 then some fun k => k % (1000 * s.fld Fld.PWR_CAP_cap_w + 1)
  else if sitsAt 0x1090008 [(0x800000, 7)] off then
    some fun k => if s.flag (Fld.CPC_STATUS_logic_powered (offDie off)) then railMv (s.fld (Fld.CPC_STATUS_point (offDie off))) else k % 65536
  else none

/-- The value that a read of the register with first offset `base` returns now. DESIGN CHOICE (log 133): the blocks of an island
(CDG, CPC, HXL, DMC, CFR) return what is stored while the island has no power or has failed; R46 only says that they answer
whenever it is powered. -/
def State.readReg (s : State) (base words : Nat) : State × Nat :=
  if s.logicDead base then (s, 2 ^ (32 * words) - 1)
  else
    match s.measuredReg base, s.counterRead base with
    | some f, _ => ({ s with drawn := s.drawn + 1 }, f (Config.freeWord s.drawn).toNat)
    | none, some n => (s, n)
    | none, none =>
      let v := s.reg (s.keyOf base)
      (s, if 0x1000000 ≤ base then s.dieRead (offDie base) (base % 0x800000) v else s.hubRead base v)

/-- A 64-bit register that the hardware changes has a high-word latch; counters and their shadows have rules of their own
(R481, R523). -/
def hasLatch (d : RegDef) (base : Nat) : Bool :=
  decide (d.words = 2) && (d.fields.any fun f => (decide (f.acc = .ro) || decide (f.acc = .w1c)) && decide (f.lo = 0)) &&
  !((decide (base % 0x800 < 0x180)) && decide (0x80 ≤ base % 0x800) && (decide (base - base % 0x800 = 0xC1000) ||
    (decide (0x1000000 ≤ base) && inLogic (offDie base) base)))

/-- What a read returned. -/
def State.hostAnswer (s : State) (bs : List Byte) : State := { s with hostRsp := bs, hostPoison := false }

/-- The current value of the word at `off`, zero where no register lies there (R12). -/
def State.readWordNow (s : State) (off : Nat) : State × Nat :=
  match s.regHere off with
  | none => (s, 0)
  | some (d, base) =>
    let (s1, v) := s.readReg base d.words
    (s1, v / 2 ^ (32 * ((off - base) / 4)) % 2 ^ 32)

/-- An aligned 64-bit read: both words of a 64-bit register as they stand at one instant (R11), or the words of the two offsets. -/
def State.readWide (s : State) (off : Nat) : State :=
  match s.regHere off with
  | some (d, base) =>
    if d.words = 2 ∧ off = base then
      let (s1, v) := s.readReg base 2
      s1.hostAnswer (leBytes v 8)
    else
      let (s1, lo) := s.readWordNow off
      let (s2, hi) := s1.readWordNow (off + 4)
      s2.hostAnswer (leBytes lo 4 ++ leBytes hi 4)
  | none =>
    let (s1, hi) := s.readWordNow (off + 4)
    s1.hostAnswer (leBytes 0 4 ++ leBytes hi 4)

/-- Whether an aligned access of `size` bytes meets a register. DESIGN CHOICE (log 134): an aligned 64-bit access at an offset that
holds no register meets the one that the next word holds, and reads or writes that word; R12 speaks of an access at an offset
that holds none. -/
def State.meetsReg (s : State) (off size : Nat) : Bool :=
  (s.regHere off).isSome || (decide (size = 8) && (s.regHere (off + 4)).isSome)

/-- A 32-bit read of a register's first word, which fills the high-word latch (R523). -/
def State.readLow (s : State) (off : Nat) : State :=
  match s.regHere off with
  | none => s
  | some (d, base) =>
    if off % 4 ≠ 0 ∨ off ≠ base then s
    else
      let (s1, v) := s.readReg base d.words
      let s2 := s1.hostAnswer (leBytes v 4)
      if s.logicDead base then s2
      else if (s.counterRead base).isSome then
        s2.modCnt (base - base % 0x800) fun b => { b with latch := mapSet b.latch ((base % 0x800 - 0x80) / 8) (v / 2 ^ 32) }
      else if hasLatch d base then
        { s2 with latch := mapSet s2.latch (s.keyOf base) (BitVec.ofNat 32 (v / 2 ^ 32)) }
      else s2

/-- LATCHED_LOW_READ (R523): a 32-bit read of a register's first word or, `wide`, an aligned 64-bit read (R11). -/
def latchedLowRead (off : Nat) (wide : Bool) (s : State) : State :=
  if wide then (if off % 8 = 0 ∧ s.meetsReg off 8 then s.readWide off else s) else s.readLow off

def execLatchedLowRead (off : Nat) (wide : Bool) (s : State) : Host.Outcome State Fault Refusal := .next (latchedLowRead off wide s)

/-- LATCHED_HIGH_READ (R481, R523): a 32-bit read of a register's second word; a full latch is returned and emptied, the latch of
a counter is returned and kept. -/
def latchedHighRead (off : Nat) (s : State) : State :=
  match s.regHere off with
  | none => s
  | some (d, base) =>
    if off ≠ base + 4 then s
    else if s.logicDead base then s.hostAnswer (leBytes 0xFFFFFFFF 4)
    else
      match s.counterRead base with
      | some _ => s.hostAnswer (leBytes (mapGet (s.cnt (base - base % 0x800)).latch ((base % 0x800 - 0x80) / 8) 0) 4)
      | none =>
        match mapFind s.latch (s.keyOf base) with
        | some w => { s.hostAnswer (leBytes w.toNat 4) with latch := mapDel s.latch (s.keyOf base) }
        | none =>
          let (s1, v) := s.readReg base d.words
          s1.hostAnswer (leBytes (v / 2 ^ 32) 4)

def execLatchedHighRead (off : Nat) (s : State) : Host.Outcome State Fault Refusal := .next (latchedHighRead off s)

/-! ### Accesses that reach no register (R12, R506) -/

/-- The contents of HST_ACC_LOG for an access at `off` (R506): its offset, its cause, its direction, and `acc_seen`. -/
def accLog (off cause : Nat) (write : Bool) : Nat :=
  0x20000000 + (0x10000000 * b2n write + (0x8000000 * cause + off % 0x8000000))

/-- The access is recorded (R506), logged as class 0, and answered: a read returns the same byte throughout, a write has no
effect. -/
def State.noteAccess (s : State) (off size cause : Nat) (write : Bool) (fill : Byte) : State :=
  let log := accLog off cause write
  let s1 := ((s.setReg Reg.HST_ACC_LOG log).addFld Fld.HST_ACC_COUNT_count 1).logRecorded (unitOf hubDie 0x050) 0
  if write then s1 else s1.hostAnswer (List.replicate size fill)

/-- An access that is not an aligned one of 32 or 64 bits. -/
def misaligned (off size : Nat) : Bool := !(decide (size = 4) || decide (size = 8)) || decide (off % size ≠ 0)

/-- MISALIGNED_REG_ACCESS. -/
def misalignedRegAccess (off size : Nat) (write : Bool) (s : State) : State :=
  if misaligned off size then s.noteAccess off size 0 write 0xFF else s

def execMisalignedRegAccess (off size : Nat) (write : Bool) (s : State) : Host.Outcome State Fault Refusal :=
  .next (misalignedRegAccess off size write s)

/-- EMPTY_OFFSET_ACCESS. DESIGN CHOICE (log 135): inside a compute-logic block that does not answer, too, an offset that holds no
register reads as zero (R12) and not as all ones (R43). -/
def emptyOffsetAccess (off size : Nat) (write : Bool) (s : State) : State :=
  if misaligned off size ∨ s.meetsReg off size then s else s.noteAccess off size 1 write 0

def execEmptyOffsetAccess (off size : Nat) (write : Bool) (s : State) : Host.Outcome State Fault Refusal :=
  .next (emptyOffsetAccess off size write s)

/-! ### Values that a field takes instead of those out of its range -/

/-- Fields with a range: base and instances of the register, lowest bit, width, least and greatest value stored (R97, R98, R116,
R124, R215, R326, R332, R346, R400, R428, R451, R476, R477, R496, R509, R517). -/
def ranges : List (Nat × List (Nat × Nat) × Nat × Nat × Nat × Nat) :=
  [(0x50010, [], 0, 2, 0, 2), (0x50010, [], 2, 2, 0, 1), (0x50010, [], 4, 2, 0, 1), (0x50010, [], 6, 2, 0, 1),
   (0x50014, [], 1, 12, 10, 4000), (0x5001C, [], 0, 16, 1000, 65535),
   (0x50124, [(4, 3)], 0, 16, 1, 65535), (0x50124, [(4, 3)], 16, 16, 1, 65535), (0x50130, [], 0, 16, 1, 65535),
   (0x50140, [], 0, 16, 0, 0x8000), (0x50144, [], 0, 18, 0, 0x20000)] ++
  [(0x1010000, [(0x800000, 7), (0x1000, 8)], 4, 16, 50, 65535),
   (0xE4000, [], 1, 10, 100, 1023), (0xE4000, [], 11, 8, 1, 255), (0xE4000, [], 19, 4, 1, 15)] ++
  ([(0xE0000, [(0x1000, 2)]), (0x1070000, [(0x800000, 7), (0x8000, 2)])].flatMap fun (r : Nat × List (Nat × Nat)) =>
    [(r.1, r.2, 1, 8, 1, 255), (r.1, r.2, 9, 7, 1, 127), (r.1, r.2, 16, 4, 1, 15), (r.1, r.2, 20, 8, 1, 255)]) ++
  [(0x90000, [], 25, 6, 1, 63), (0x40004, [], 2, 10, 10, 1023), (0x40060, [], 0, 16, 0, 1000),
   (0xD0100, [(0x4000, 2)], 16, 10, 10, 1000), (0x10000, [], 10, 10, 10, 1023),
   (0x20040, [(4, 7)], 0, 3, 0, 4), (0x20060, [], 0, 3, 0, 4), (0x20080, [], 0, 8, 85, 120),
   (0xD0200, [], 4, 5, 1, 16), (0xB0020, [], 8, 4, 1, 15), (0xC0118, [(0x40, 4)], 0, 27, 0, 0x4000000)]

/-- An event code that the block of a counter knows (R479). -/
def State.knownEvent (blk code : Nat) : Bool :=
  let rel := if blk = 0xC1000 then 0x10800 else blk % 0x800000
  let own := if rel < 0x20000 then 5 else if rel < 0x30000 then 2 else if rel < 0x38000 then 5 else if rel < 0x3C000 then 2 else 3
  decide (code ≤ 0x0F) || (decide (0x40 ≤ code) && decide (code < 0x40 + own))

/-- A value as the register at `off` stores it. -/
def State.storedValue (s : State) (off v : Nat) : Nat :=
  let v1 := forEach ranges v fun (base, dims, lo, w, least, most) x =>
    if sitsAt base dims off then setBits x lo w (min most (max least (bits x lo w))) else x
  if off = Reg.PWR_CAP then setBits v1 0 8 (min s.variant.capRange.2 (max s.variant.capRange.1 (bits v1 0 8)))
  else if off = 0x10008 then setBits v1 0 2 3
  else if sitsAt 0xB0400 [(0x80, 4)] off ∧ bit v1 1 then setBits v1 2 4 (max 12 (bits v1 2 4))
  else if 0x40 ≤ off % 0x800 ∧ off % 0x800 < 0x70 ∧ (off - off % 0x800 = 0xC1000 ∨ (0x1000000 ≤ off ∧ inLogic (offDie off) off)) ∧
      !State.knownEvent (off - off % 0x800) (bits v1 0 8) then setBits v1 0 8 0
  else v1

/-! ### Writes that are discarded -/

/-- Registers whose every write is a command of its own (EXCL_WRITE, RANGE_REQUEST, MUTE_WRITE, TRACE_ENABLE, DBG_SNAP,
IND_CHANNEL_ON, I3C_TRANSFER, HXR_ENABLE, COUNT_LO_WRITE and COUNT_HI_WRITE), and writes of a value that is one: an
enable set or cleared, a camera port switched on, a page-map operation. -/
def State.ownRow (s : State) (off v : Nat) : Bool :=
  decide (off = Reg.SCH_CLIENT_EXCL) || (sitsAt 0x70000 [(0x40, 4)] off && bit v 0) || decide (off = Reg.AUD_MUTE) || sitsAt 0x90010 [(4, 2)] off ||
  decide (off = Reg.DBG_TRACE_CTRL) || decide (off = Reg.DBG_SNAP) || sitsAt 0xB0000 [(4, 6)] off || sitsAt 0xB0404 [(0x80, 4)] off ||
  sitsAt 0xD0000 [(0x4000, 2)] off || (s.counterRead off).isSome ||
  (decide (off = Reg.AUD_CTRL) && bit v 0 && !s.flag Fld.AUD_CTRL_enable) ||
  (sitsAt 0x71000 [(0x100, 16)] off && (bit v 0 || bit (s.reg off) 0)) ||
  (decide (off = Reg.MEM_PAGE_CMD) && ((bit v 20 && decide (1 ≤ bits v 0 3) && decide (bits v 0 3 ≤ 6)) || s.flag Fld.MEM_PAGE_CMD_busy))

/-- Units of history entries that would be enabled were entry `e` written as `v` (R380). -/
def State.histUnits (s : State) (e v : Nat) : Nat :=
  ((natRange 0 24).map fun k =>
    let x := if k = e then v else s.reg (Reg.AUD_HIST_ENTRY k)
    if bit x 8 then (if bit x 7 then 3 else 1) else 0).foldl (· + ·) 0

/-- The wake chain's client and address registers (R402). -/
def wakeAddrs : List Nat :=
  [Reg.WAK_CLIENT, Reg.WAK_REC_BASE, Reg.WAK_CTL_ADDR, Reg.WAK_CAP_BASE, Reg.WAK_CAP_CONSUMED, Reg.WAK_ENC_BASE,
   Reg.WAK_TINDER_IMG, Reg.WAK_KND_IMG]

/-- Whether a write of `v` is discarded, with the status bit that it sets, if any (R86, R97, R126, R320, R355, R380, R400, R402, R496,
R509). -/
def State.discarded (s : State) (off v : Nat) : Option (Option Fld) :=
  if off = Reg.SCH_LEDGER_BASE then (if s.flag Fld.SCH_LEDGER_CTRL_enable then some none else none)
  else if off = Reg.MEM_MAP_BASE then (if s.flag Fld.MEM_MAP_CTRL_enable then some none else none)
  else if off = Reg.SCH_CLIENT_CLASS then
    (if s.attached s.selected ∨ s.detaching s.selected then some none else none)
  else if off = Reg.SCH_CLIENT_ACCT then (if v % 256 ≠ 0 then some none else none)
  else if 0x71000 ≤ off ∧ off < 0x72000 ∧ off % 0x100 ≠ 0x50 then
    let c := (off - 0x71000) / 0x100
    if s.flag (Fld.CAM_CH_CTRL_enable c) then some (some (Fld.CAM_CH_STATUS_write_ignored c)) else none
  else if sitsAt 0x90200 [(4, 24)] off then
    if s.flag Fld.AUD_CTRL_enable then some (some Fld.AUD_STATUS_write_ignored)
    else if bit v 8 ∧ 26 < s.histUnits ((off - 0x90200) / 4) v then some (some Fld.AUD_STATUS_hist_error)
    else none
  else if off = Reg.AUD_TDM_CTRL then
    if s.flag Fld.AUD_CTRL_enable then some (some Fld.AUD_STATUS_write_ignored) else none
  else if wakeAddrs.contains off then
    if s.flag Fld.WAK_CTRL_tinder_enable ∨ s.flag Fld.WAK_CTRL_kindling_enable then some (some Fld.WAK_STATE_write_ignored) else none
  else if 0xC0100 ≤ off ∧ off < 0xC0200 then
    let n := (off - 0xC0100) / 0x40
    if s.flag (Fld.DBG_WATCH_RING_enable n) ∧ !(off = Reg.DBG_WATCH_RING n ∧ !bit v 20) then some none else none
  else if off = 0xD0200 then
    if s.flag (Fld.HXR_CTRL_enable 0) ∨ s.flag (Fld.HXR_CTRL_enable 1) then some none else none
  else none

/-- The status bit of an engine's block that says an expert write was ignored (R17). -/
def expertFlag (d rel : Nat) : Option Fld :=
  if rel < 0x20000 then some (Fld.MXE_STATUS_expert_write_ignored d ((rel - 0x10000) / 0x1000))
  else if rel < 0x30000 then some (Fld.EWE_STATUS_expert_write_ignored d ((rel - 0x20000) / 0x1000))
  else if rel < 0x38000 then some (Fld.ATE_STATUS_expert_write_ignored d ((rel - 0x30000) / 0x4000))
  else if rel < 0x3C000 then some (Fld.CEE_STATUS_expert_write_ignored d)
  else if rel < 0x40000 then some (Fld.PPE_STATUS_expert_write_ignored d)
  else if rel < 0x50000 then some (Fld.CDC_STATUS_expert_write_ignored d ((rel - 0x40000) / 0x8000))
  else none

/-- The function whose expert fields the register at `off` carries is enabled; with the block's status bit, if it has one (R17,
R249). The registers not named here take new expert values at any time, as their descriptions say. -/
def State.expertGuard (s : State) (off : Nat) : Option (Option Fld) :=
  let d := offDie off
  let rel := off % 0x800000
  let guard := fun (on : Bool) (f : Option Fld) => if on then some f else none
  if sitsAt 0x70000 [(0x40, 4)] off then guard (bit (s.reg off) 0) (some Fld.CAM_STATUS_expert_write_ignored)
  else if 0x1000000 ≤ off then
    if sitsAt 0x10000 [(0x1000, 8)] rel ∨ sitsAt 0x30000 [(0x4000, 2)] rel ∨ rel = 0x38000 ∨ rel = 0x3C000 ∨
        sitsAt 0x40000 [(0x8000, 2)] rel then guard (bit (s.reg off) 0) (expertFlag d rel)
    else if sitsAt 0x20000 [(0x1000, 8)] rel then
      guard (s.flag (Fld.MXE_CTRL_enable d ((rel - 0x20000) / 0x1000))) (expertFlag d rel)
    else if inLogic d off ∧ rel % 0x800 = 0 ∧ rel % 0x1000 = 0x800 then guard (bit (s.reg off) 0) (expertFlag d rel)
    else none
  else if sitsAt 0x71038 [(0x100, 16)] off then
    guard (s.flag (Fld.CAM_CH_CTRL_enable ((off - 0x71038) / 0x100))) (some Fld.CAM_STATUS_expert_write_ignored)
  else if off = 0xC1000 then guard (bit (s.reg off) 0) (some Fld.DBG_TRACE_STATUS_expert_write_ignored)
  else if off = Reg.AUD_CTRL then guard (s.flag Fld.AUD_CTRL_enable) (some Fld.AUD_STATUS_expert_write_ignored)
  else if off = Reg.WAK_CTRL then guard (s.flag Fld.WAK_CTRL_tinder_enable || s.flag Fld.WAK_CTRL_kindling_enable) none
  else if off = Reg.WAK_PRES then guard (s.flag Fld.WAK_CTRL_presence_enable) none
  else if sitsAt 0xB0400 [(0x80, 4)] off then guard (bit (s.reg off) 0) (some Fld.IND_STATUS_expert_write_ignored)
  else if sitsAt 0xB0200 [(4, 24)] off then guard (bit (s.reg off) 0) (some Fld.IND_STATUS_expert_write_ignored)
  else if off = Reg.IND_STATUS then
    guard ((natRange 0 6).any fun n => s.flag (Fld.IND_CH_on n)) (some Fld.IND_STATUS_expert_write_ignored)
  else none

/-! ### The write (R13, R15) -/

/-- The fields of a register after a write: `old` what is stored, `v` the value as stored, `ones` the bits that the write sets to 1
in the words that it writes. -/
def writeFields (old v ones : Nat) : List FieldDef → Nat
  | [] => 0
  | f :: fs =>
    let w := f.hi + 1 - f.lo
    2 ^ f.lo * (match f.acc with
     | .rw => bits v f.lo w
     | .rws => bits v f.lo w
     | .w1c => bits old f.lo w - (bits old f.lo w &&& bits ones f.lo w)
     | .ro => bits old f.lo w
     | .wo => 0) + writeFields old v ones fs

/-- Whether an expert field differs between two values (R17). -/
def expertChanges (old v : Nat) (fs : List FieldDef) : Bool :=
  fs.any fun f => f.expert && decide (bits old f.lo (f.hi + 1 - f.lo) ≠ bits v f.lo (f.hi + 1 - f.lo))

/-- Bits that a write leaves because setting or clearing them is a command of its own, or is not allowed while the function runs:
an engine's `enable` cleared, `enable` of the ledger and of the map set, `mic_enable` while listening (R400), and the enables of a wake chain
whose structures fail their check (R391; log 169). -/
def State.heldBits (s : State) (off old v : Nat) : Nat :=
  let rel := off % 0x800000
  if 0x1000000 ≤ off ∧ (sitsAt 0x10000 [(0x1000, 8)] rel ∨ sitsAt 0x30000 [(0x4000, 2)] rel ∨ rel = 0x38000 ∨ rel = 0x3C000 ∨
      sitsAt 0x40000 [(0x8000, 2)] rel) then setBit v 0 (bit v 0 || bit old 0)
  else if off = Reg.SCH_LEDGER_CTRL ∨ off = Reg.MEM_MAP_CTRL then setBit v 0 (bit v 0 && bit old 0)
  else if off = Reg.AUD_CTRL ∧ s.flag Fld.AUD_CTRL_enable then setBits v 1 16 (bits old 1 16)
  else if off = Reg.WAK_CTRL ∧ bits old 0 2 = 0 ∧ !s.wakeStructsOk then setBits v 0 2 0
  else v

/-- Shares written for client `c` wait for the next placement decision: until then those of `s0` stay in effect (R97). -/
def State.holdShares (s0 s : State) (c : Nat) : State :=
  s.modClient c fun x =>
    { x with oldShares := forEach (natRange 0 7) x.oldShares fun k m =>
        if s.shareReg c k = s0.share c k then mapDel m k else mapSet m k (s0.share c k) }

/-- The engine whose control register lies at `rel` of a die's window. -/
def ctrlUnit (rel : Nat) : Option Nat :=
  if sitsAt 0x10000 [(0x1000, 8)] rel then some ((rel - 0x10000) / 0x1000)
  else if sitsAt 0x30000 [(0x4000, 2)] rel then some (0x010 + (rel - 0x30000) / 0x4000)
  else if rel = 0x38000 then some 0x020
  else if rel = 0x3C000 then some 0x021
  else if sitsAt 0x40000 [(0x8000, 2)] rel then some (0x030 + (rel - 0x40000) / 0x8000)
  else none

/-- What a write does beside the register it changes: from `s0`, to `s` with the register written. -/
def State.afterWrite (s0 s : State) (off old new value : Nat) : State :=
  if 0x1000000 ≤ off then
    match ctrlUnit (off % 0x800000) with
    | some u =>
      let name := unitOf (offDie off) u
      if bit new 0 ∧ !bit old 0 then
        let t := s.modUnit name fun x => { x with disabling := false }
        if (s.unit name).outSince.isSome ∨ s.unitIn (offDie off) u then t
        else ((t.setInService (offDie off) u true).advanceEpoch name).refreshReady
      else s
    | none => s
  else if 0x50124 ≤ off ∧ off ≤ Reg.SCH_CLIENT_SHARE_D then State.holdShares s0 s s.selected
  else if off = Reg.SCH_PREEMPT then { s with oldPreempt := some (s0.quantum, s0.safetyWait) }
  else if off = Reg.PWR_CTRL then
    s.modPower fun p => { p with targetAt := if bits new 0 3 = 0 then none else some s.tb }
  else if off = Reg.MEM_PAGE_CMD then (if bit value 20 then s.pageGo (bits value 0 3) (BitVec.ofNat 32 value) else s)
  else if off = 0x40004 then (if bit new 1 ∧ !bit old 1 then s.setFld Fld.SAF_LOG_HEAD_written 0 else s)
  else if off = Reg.WAK_CTRL then
    (if bits old 0 2 = 0 ∧ bits new 0 2 ≠ 0 then s.modWake fun w => { w with wakeNo := 0, last := {}, muteOn := false } else s)
  else if off = Reg.MEM_BELLOWS_CTRL then (if bit new 0 ∧ !bit old 0 then s.startPeriod else s)
  else if off = Reg.CLK_ALARM then s.modPower fun p => { p with alarmFired := false }
  else if off = 0x40060 then { s with saf := { s.saf with kickedAt := s.saf.kickedAt.map fun _ => s.tb } }
  else if sitsAt 0x30020 [(4, 8)] off then
    s.modKeys fun k => { k with compatWords := mapSet k.compatWords ((off - 0x30020) / 4) (BitVec.ofNat 32 value) }
  else if sitsAt 0xC0100 [(0x40, 4)] off ∧ bit new 20 ∧ !bit old 20 then
    s.setFld (Fld.DBG_WATCH_CNT_dumps ((off - 0xC0100) / 0x40)) 0
  else s

/-- A status bit set, where there is one. -/
def State.setNote (s : State) : Option Fld → State
  | some f => s.setFlag f true
  | none => s

/-- A write of `value` to the whole register at `base`, or (`part`) to that one of its words. -/
def State.writeReg (s : State) (d : RegDef) (base : Nat) (part : Option Nat) (value : Nat) : State :=
  let key := s.keyOf base
  let old := s.reg key
  let raw := match part with
    | some k => setBits old (32 * k) 32 value
    | none => value
  let ones := match part with
    | some k => 2 ^ (32 * k) * (value % 2 ^ 32)
    | none => value
  let v := s.heldBits base old (s.storedValue base raw)
  if s.logicDead base ∨ s.ownRow base raw then s
  else
    let blocked := match s.expertGuard base with
      | some f => if expertChanges old v d.fields then some f else none
      | none => none
    match s.discarded base raw with
    | some f => (s.setNote f).setNote blocked.join
    | none =>
      match blocked with
      | some f => s.setNote f
      | none =>
        let new := writeFields old v ones d.fields
        let mic := decide (base = Reg.AUD_CTRL) && s.flag Fld.AUD_CTRL_enable && decide (bits raw 1 16 ≠ bits old 1 16)
        let s1 := State.afterWrite s (s.setReg key new) base old new value
        let s2 := if s1.entryError 1 = 0 then s1 else s1.breakResleep
        if mic then s2.setFlag Fld.AUD_STATUS_write_ignored true else s2

/-- A write of one word at `off`. -/
def State.writeWord (s : State) (off value : Nat) : State :=
  match s.regHere off with
  | none => s
  | some (d, base) => s.writeReg d base (if d.words = 2 then some ((off - base) / 4) else none) value

/-- REG_WRITE (R11, R13, R15 to R17): a write of 32 or 64 bits. -/
def regWrite (off : Nat) (wide : Bool) (value : W64) (s : State) : State :=
  if misaligned off (if wide then 8 else 4) then s
  else if wide then
    match s.regHere off with
    | some (d, base) =>
      if d.words = 2 then s.writeReg d base none value.toNat
      else (s.writeWord off (value.toNat % 2 ^ 32)).writeWord (off + 4) (value.toNat / 2 ^ 32)
    | none => s.writeWord (off + 4) (value.toNat / 2 ^ 32)
  else s.writeWord off (value.toNat % 2 ^ 32)

def execRegWrite (off : Nat) (wide : Bool) (value : W64) (s : State) : Host.Outcome State Fault Refusal :=
  .next (regWrite off wide value s)

/-! ### BAR4 (R319, R343, R505) -/

/-- The byte that BAR4 gives at device address `a`: zero where no page is backed or beyond device memory, the device's own plaintext in
a system page (R505); none where its code word cannot be corrected or carries the mark. -/
def State.barByte (s : State) (a : Nat) : Option Byte :=
  if a < s.deviceEnd then
    match s.sysByte 0 a, s.systemByte a with
    | .error 0x0D02, _ => none
    | _, some b => some b
    | .ok b, none => some b
    | .error _, none => some 0
  else some 0

/-- BAR4_READ: plaintext, as the page's owner would read it (R449); what cannot be corrected comes back poisoned, its bytes free. -/
def bar4Read (off len : Nat) (s : State) : State :=
  let a := s.fld Fld.HST_BAR4_BASE_bar4_base + off
  let got := (natRange a len).map s.barByte
  let (s1, free) := s.drawBytes (got.filter (·.isNone)).length
  let bytes := (forEach got (([] : List Byte), free) fun b (acc, fr) =>
    match b with
    | some x => (acc ++ [x], fr)
    | none => (acc ++ fr.take 1, fr.drop 1)).1
  let s2 := s1.touch hubDie a len true
  { s2 with hostRsp := bytes, hostPoison := got.any (·.isNone) }

def execBar4Read (off len : Nat) (s : State) : Host.Outcome State Fault Refusal := .next (bar4Read off len s)

/-- BAR4_WRITE: stored in backed pages, discarded elsewhere. -/
def bar4Write (off : Nat) (data : List Byte) (s : State) : State :=
  let a := s.fld Fld.HST_BAR4_BASE_bar4_base + off
  let s1 := s.touch hubDie a data.length false
  forEach (cutBytes 64 (data.length + 1) a data) s1 fun (x, bs) t =>
    let p := t.page (x / 0x200000)
    if x < t.deviceEnd ∧ p.state = .backed then t.dramWrite p.group (0x200000 * p.frame + x % 0x200000) bs else t

def execBar4Write (off : Nat) (data : List Byte) (s : State) : Host.Outcome State Fault Refusal := .next (bar4Write off data s)

end Sys2Proof.Machine
end

