-- ==== Sys2Proof/Machine/Trace.lean ====
section
/-! DEFINITION. Counters, trace, the flue, trigger windows and tensor watch (R478 to R496). -/

namespace Sys2Proof.Machine

/-! ### Counter blocks (R480 to R484) -/

/-- Units of a compute die that have a counter block, with the EWEs numbered from 0x100. -/
def countedUnits : List Nat :=
  natRange 0 8 ++ natRange 0x100 8 ++ [0x010, 0x011, 0x020, 0x021, 0x030, 0x031] ++ natRange 0x040 4

/-- The counter blocks of compute die `d`. -/
def dieBlocks (d : Nat) : List Nat := countedUnits.filterMap (counterBlock d)

/-- Kindling's counter block. -/
def kindlingBlock : Nat := 0xC1000

/-- `blk` is a counter block of the package. -/
def State.isBlock (s : State) (blk : Nat) : Bool :=
  decide (blk = kindlingBlock) || (decide (0x1000000 ≤ blk) && s.fitted (offDie blk) && (dieBlocks (offDie blk)).contains blk)

/-- COUNT_LO_READ (R481): bits [47:32] go to the counter's latch in the same cycle. -/
def countLoRead (block i : Nat) (s : State) : State :=
  if !s.isBlock block ∨ 16 ≤ i then s
  else if s.logicDead block then s.hostAnswer (leBytes 0xFFFFFFFF 4)
  else
    let v := mapGet (s.cnt block).counts i 0
    (s.modCnt block fun b => { b with latch := mapSet b.latch i (v / 2 ^ 32) }).hostAnswer (leBytes v 4)

def execCountLoRead (block i : Nat) (s : State) : Host.Outcome State Fault Refusal := .next (countLoRead block i s)

/-- COUNT_HI_WRITE (R482): the upper bits are staged. -/
def countHiWrite (block i : Nat) (value : W32) (s : State) : State :=
  if !s.isBlock block ∨ 16 ≤ i ∨ s.logicDead block then s
  else s.modCnt block fun b => { b with staged := mapSet b.staged i (value.toNat % 65536) }

def execCountHiWrite (block i : Nat) (value : W32) (s : State) : Host.Outcome State Fault Refusal :=
  .next (countHiWrite block i value s)

/-- COUNT_LO_WRITE (R482): the counter takes the staged and the written bits, and the staged value is cleared. -/
def countLoWrite (block i : Nat) (value : W32) (s : State) : State :=
  if !s.isBlock block ∨ 16 ≤ i ∨ s.logicDead block then s
  else s.modCnt block fun b =>
    { b with counts := mapSet b.counts i (2 ^ 32 * mapGet b.staged i 0 + value.toNat), staged := mapDel b.staged i }

def execCountLoWrite (block i : Nat) (value : W32) (s : State) : Host.Outcome State Fault Refusal :=
  .next (countLoWrite block i value s)

/-- All 16 counters of a block into its shadows, with the timebase value recorded (R483). -/
def State.capture (s : State) (blk tb : Nat) : State :=
  (forEach (natRange 0 16) s fun i t => t.setReg (Reg.X_SHD blk i) (mapGet (t.cnt blk).counts i 0)).setReg
    (Reg.X_CNT_SNAP_TB blk) tb

/-- COUNTER_SNAP (R483): a write of 1 to `snap`. -/
def counterSnap (block : Nat) (s : State) : State :=
  if !s.isBlock block ∨ s.logicDead block then s else s.capture block s.tb

def execCounterSnap (block : Nat) (s : State) : Host.Outcome State Fault Refusal := .next (counterSnap block s)

/-- DBG_SNAP (R484): a write of the register; with `snap`, every block of the selected dies is to capture 64 ticks later. -/
def dbgSnap (value : W32) (s : State) : State :=
  let mask := bits value.toNat 0 8
  let s1 := s.setFld Fld.DBG_SNAP_die_mask mask
  if !bit value.toNat 8 then s1
  else
    let dies := (natRange 0 s.nDies).filter (bit mask)
    let blocks := dies.flatMap dieBlocks ++ (if bit mask 7 then [kindlingBlock] else [])
    forEach blocks s1 fun blk t => t.modCnt blk fun b => { b with due := some (s.tb + 64) }

def execDbgSnap (value : W32) (s : State) : Host.Outcome State Fault Refusal := .next (dbgSnap value s)

/-- DBG_SNAP_CAPTURE (R484): a block reaches the chosen time; a die whose logic is not READY captures nothing. -/
def dbgSnapCapture (block : Nat) (s : State) : State :=
  match (s.cnt block).due with
  | none => s
  | some t =>
    if s.tb < t then s
    else
      let s1 := s.modCnt block fun b => { b with due := none }
      if block ≠ kindlingBlock ∧ s.logicState (offDie block) ≠ logicReady then s1 else s1.capture block t

def execDbgSnapCapture (block : Nat) (s : State) : Host.Outcome State Fault Refusal := .next (dbgSnapCapture block s)

/-- COUNTER_SAMPLE (R486): every enabled block writes its counters at the period of `sample_10us`. -/
def counterSample (s : State) : State :=
  let period := s.fld Fld.DBG_TRACE_CTRL_sample_10us
  if period = 0 ∨ !s.flag Fld.DBG_TRACE_CTRL_enable ∨ s.tb < s.trace.sampledAt + period * 384 then s
  else
    let s1 := { s with trace := { s.trace with sampledAt := s.tb } }
    let s2 := forEach (natRange 0 s.nDies) s1 fun d t =>
      forEach countedUnits t fun u r =>
        match counterBlock d u with
        | some blk => if !r.logicDead blk && r.flag (Fld.X_CNT_CTRL_cnt_enable blk) then r.counterPackets d u 0xFFF else r
        | none => r
    if s2.flag (Fld.X_CNT_CTRL_cnt_enable kindlingBlock) then s2.counterPackets hubDie 0x010 0xFFF else s2

def execCounterSample (s : State) : Host.Outcome State Fault Refusal := .next (counterSample s)

/-! ### Trace and its buffers (R485 to R491) -/

/-- TRACE_SYNC (R486): the SYNC packet of every millisecond. -/
def traceSync (s : State) : State :=
  if s.flag Fld.DBG_TRACE_CTRL_enable ∧ s.trace.syncAt + 38400 ≤ s.tb then
    { s with trace := { s.trace with syncAt := s.tb } }.arrive s.syncPacket
  else s

def execTraceSync (s : State) : Host.Outcome State Fault Refusal := .next (traceSync s)

/-- TRACE_PACKET (R485, R489 to R492): a unit reports an event. -/
def tracePacket (p : TracePacket) (s : State) : State :=
  if s.traceOn p.ty p.unit p.client then s.arrive { p with stamp := p.stamp % 2 ^ 48 } else s

def execTracePacket (p : TracePacket) (s : State) : Host.Outcome State Fault Refusal := .next (tracePacket p s)

/-- A throttled die's engines go on once its buffer is at most half full (R491). -/
def State.unthrottle (s : State) (d : Nat) : State :=
  if packetsSize (mapGet s.trace.dieBufs d []) ≤ dieTraceBytes / 2 then
    { s with trace := { s.trace with throttled := mapDel s.trace.throttled d } }
  else s

/-- TRACE_THROTTLE_RELEASE (R491). -/
def traceThrottleRelease (die : Nat) (s : State) : State := s.unthrottle die

def execTraceThrottleRelease (die : Nat) (s : State) : Host.Outcome State Fault Refusal := .next (traceThrottleRelease die s)


/-- A NULL packet (R486). -/
def nullPacket : List Byte := [0, 2] ++ List.replicate 14 0

/-- Packets taken from the front until `room` bytes are full, and the rest. -/
def takePackets : Nat → List TracePacket → List TracePacket × List TracePacket
  | _, [] => ([], [])
  | room, p :: ps =>
    if TracePacket.size p ≤ room then
      let (a, b) := takePackets (room - TracePacket.size p) ps
      (p :: a, b)
    else ([], p :: ps)

/-- A frame of the flue (R490): 34 blocks of 8 bytes. -/
def flueBytes (frame flags : Nat) (ps : List TracePacket) : List Byte :=
  let data := ps.flatMap packetBytes
  let full := data ++ (List.replicate ((256 - data.length) / 16) nullPacket).flatten
  [0xF1] ++ leBytes frame 2 ++ leBytes flags 1 ++ leBytes 0 4 ++ full ++ [0xF2] ++ leBytes (crc32c full).toNat 4 ++ leBytes 0 3

/-- Block `k` of the stream goes on lane `k` mod 4, and each lane sends an alignment block after 4,096 blocks: the bytes of a lane for
blocks `first` and upward (R490). -/
def laneBytes (lane first : Nat) (bs : List Byte) : List Byte :=
  (natRange 0 (bs.length / 8)).flatMap fun j =>
    if (first + j) % 4 = lane then
      (bs.drop (8 * j)).take 8 ++ (if ((first + j) / 4 + 1) % 4096 = 0 then [0xF3] ++ leBytes lane 1 ++ leBytes 0 6 else [])
    else []

/-- Blocks sent on the four lanes of the flue. -/
def State.flueSend (s : State) (bs : List Byte) : State :=
  let s1 := forEach [(0, "flue lane 0"), (1, "flue lane 1"), (2, "flue lane 2"), (3, "flue lane 3")] s fun (i, name) t =>
    t.send (.port name (laneBytes i s.trace.blocks bs))
  { s1 with trace := { s1.trace with blocks := s1.trace.blocks + bs.length / 8 } }

/-- An idle block (R490). -/
def idleBlock : List Byte := [0xF0] ++ leBytes 0 7

/-- FLUE_FRAME (R489, R490, R492): a frame of the oldest packets, in streaming mode or while a window drains; the dies' buffers then
move on. While there is none to send, or trace is off, the flue sends an idle block (R510). -/
def flueFrame (s : State) : State :=
  let window := s.flag Fld.DBG_TRACE_CTRL_window
  let ps := s.trace.hub ++ (if window then s.trace.post else [])
  if !s.awake then s
  else if !s.flag Fld.DBG_TRACE_CTRL_enable ∨ ps.isEmpty ∨ (window ∧ s.fld Fld.DBG_TRACE_STATUS_wstate ≠ 3) then s.flueSend idleBlock
  else
    let (out, rest) := takePackets 256 ps
    let flags := b2n window + 2 * b2n (window && s.trace.drainFirst)
    let left := s.trace.hub.length - out.length
    let s1 := s.flueSend (flueBytes s.trace.frame flags out)
    let s2 := { s1 with trace := { s1.trace with
      hub := if window then rest.take left else rest
      post := if window then rest.drop left else s.trace.post
      frame := (s.trace.frame + 1) % 65536, drainFirst := s.trace.drainFirst && !window } }
    if window then s2
    else forEach (natRange 0 s.nDies) s2 fun d t =>
      match mapFind t.trace.dieBufs d with
      | some buf => t.forwardTrace d buf
      | none => t

def execFlueFrame (s : State) : Host.Outcome State Fault Refusal := .next (flueFrame s)

/-! ### Trigger windows (R492) and DBG_TRACE_CTRL (R496) -/

/-- The window is armed: its regions are empty. -/
def State.arm (s : State) : State :=
  { s.setFld Fld.DBG_TRACE_STATUS_wstate 1 with
    trace := { s.trace with hub := [], post := [], armLater := false, drainFirst := false } }

/-- TRACE_ENABLE (R485, R492): a write of DBG_TRACE_CTRL; `arm` and `trigger_now` have commands of their own. A change of `throttle`
while trace is enabled discards the write (R17). -/
def traceEnable (value : W32) (s : State) : State :=
  let v := value.toNat
  let on := s.flag Fld.DBG_TRACE_CTRL_enable
  if on ∧ bit v 4 ≠ s.flag Fld.DBG_TRACE_CTRL_throttle then s.setFlag Fld.DBG_TRACE_STATUS_expert_write_ignored true
  else
    let split := max 1 (bits v 5 5)
    let s1 := s.setReg Reg.DBG_TRACE_CTRL (bits v 0 2 + bits v 4 1 * 16 + split * 32 + 1024 * bits v 10 10)
    if bit v 0 ∧ !on then
      let s2 := s1.setFld Fld.DBG_TRACE_LOST_lost 0
      { s2 with trace := { frame := s.trace.frame, blocks := s.trace.blocks, copying := s.trace.copying, syncAt := s.tb, sampledAt := s.tb } }.arrive s2.syncPacket
    else if !bit v 0 ∧ on then
      let s2 := s1.setFld Fld.DBG_TRACE_STATUS_wstate 0
      { s2 with trace := { frame := s.trace.frame, blocks := s.trace.blocks, copying := s.trace.copying } }
    else s1

def execTraceEnable (value : W32) (s : State) : Host.Outcome State Fault Refusal := .next (traceEnable value s)

/-- TRACE_ARM: a write of 1 to `arm`; during a drain it waits. -/
def traceArm (s : State) : State :=
  if !s.flag Fld.DBG_TRACE_CTRL_enable ∨ !s.flag Fld.DBG_TRACE_CTRL_window then s
  else if s.fld Fld.DBG_TRACE_STATUS_wstate = 3 then { s with trace := { s.trace with armLater := true } }
  else s.arm

def execTraceArm (s : State) : Host.Outcome State Fault Refusal := .next (traceArm s)

/-- TRACE_TRIGGER_NOW: a write of 1 to `trigger_now`. -/
def traceTriggerNow (s : State) : State := s.trigger 4

def execTraceTriggerNow (s : State) : Host.Outcome State Fault Refusal := .next (traceTriggerNow s)

/-- TRACE_DRAIN_END: everything has left the flue. -/
def traceDrainEnd (s : State) : State :=
  if s.fld Fld.DBG_TRACE_STATUS_wstate = 3 ∧ s.trace.hub.isEmpty ∧ s.trace.post.isEmpty then
    let s1 := s.setFld Fld.DBG_TRACE_STATUS_wstate 0
    if s1.trace.armLater then s1.arm else s1
  else s

def execTraceDrainEnd (s : State) : Host.Outcome State Fault Refusal := .next (traceDrainEnd s)

/-! ### Tensor watch (R493, R494) -/

/-- The step whose copy for entry `n` is next: the oldest that waits for it. -/
def State.watchStep (s : State) (n : Nat) : Option Step := s.steps.find? fun st => st.watching.contains n

/-- The range in pieces of 16 bytes as the copy reads them, with how many it writes as zeros because they are uncorrectable or
marked. -/
def State.watchBytes (s : State) (lo len : Nat) : List Byte × Nat :=
  forEach (natRange 0 (len / 16)) (([] : List Byte), 0) fun k (acc, bad) =>
    match s.sysRead hostPf (lo + 16 * k) 16 with
    | .ok bs => (acc ++ bs, bad)
    | .error e => (acc ++ List.replicate 16 0, if e = 0x0D02 then bad + 1 else bad)

/-- TENSOR_WATCH_COPY (R493, R494): the header and the range to host memory; entries of one step in ascending order. -/
def tensorWatchCopy (n : Nat) (s : State) : State :=
  match s.watchStep n with
  | none => s
  | some st =>
    if 4 ≤ n ∨ (mapFind s.trace.copying n).isSome ∨ st.watching.head? ≠ some n ∨ (s.ring st.ring).committed ≤ st.seq then s
    else
      let lo := s.fld (Fld.DBG_WATCH_LO_lo n)
      let len := s.fld (Fld.DBG_WATCH_LEN_len n) / 16 * 16
      let (bytes, bad) := s.watchBytes lo len
      let head := leBytes 0x48575456 4 ++ leBytes (st.ring % 1048576 + 1048576 * st.client) 4 ++ leBytes st.seq 8 ++ leBytes lo 8 ++
        leBytes len 4 ++ leBytes (st.status.getD 0) 1 ++ leBytes 0 3 ++ leBytes s.tb 8 ++ leBytes bad 4 ++ leBytes 0 16
      let dst := s.fld (Fld.DBG_WATCH_DST_dst n) + s.fld (Fld.DBG_WATCH_CNT_dumps n) * (4096 * ((64 + len + 4095) / 4096))
      let s1 := if hostBase ≤ dst then s.sysWrite hostPf dst (head ++ leBytes (crc32c head).toNat 4 ++ bytes) else s
      { s1 with trace := { s1.trace with copying := mapSet s1.trace.copying n (st.ring, st.seq) } }

def execTensorWatchCopy (n : Nat) (s : State) : Host.Outcome State Fault Refusal := .next (tensorWatchCopy n s)

/-- TENSOR_WATCH_DONE (R493): the copy has ended; the step no longer waits for it. -/
def tensorWatchDone (n : Nat) (s : State) : State :=
  match mapFind s.trace.copying n with
  | none => s
  | some (ring, seq) =>
    let s1 := ((s.setFlag (Fld.DBG_WATCH_RING_done n) true).addFld (Fld.DBG_WATCH_CNT_dumps n) 1).modStep ring seq fun x =>
      { x with watching := x.watching.filter fun k => decide (k ≠ n) }
    { s1 with trace := { s1.trace with copying := mapDel s1.trace.copying n } }

def execTensorWatchDone (n : Nat) (s : State) : Host.Outcome State Fault Refusal := .next (tensorWatchDone n s)

end Sys2Proof.Machine
end

