-- ==== Sys2Proof/Machine/Pins.lean ====
section
/-! DEFINITION. Indicator sinks, I3C, GPIO and the TAP (R512 to R518). -/

namespace Sys2Proof.Machine

/-! ### Indicator sinks (R515 to R517) -/

/-- Indicator sinks have no unit number; their events name the hub's primary supervisor (DESIGN CHOICE, log 31). -/
def unitInd : Nat := unitOf hubDie 0x002

/-- The current that a channel counts with, in mA: channel 0 always, and with at least 10, so that a mute never exceeds the budget (R515;
log 175). -/
def State.indCurrent (s : State) (n : Nat) : Nat :=
  let ma := s.fld (Fld.IND_CH_current_ma n)
  if n = 0 then max 10 ma else if s.flag (Fld.IND_CH_on n) then ma else 0

/-- The sum that the budget of 240 mA limits. -/
def State.indSum (s : State) : Nat := ((natRange 0 nInd).map s.indCurrent).foldl (· + ·) 0

/-- IND_CHANNEL_ON (R515, R517): a write of IND_CH*n*; `retry` has a command of its own. Channel 0 stays on while mute is in force, and
what was written comes back with its end. -/
def indChannelOn (n : Nat) (value : W32) (s : State) : State :=
  if nInd ≤ n then s
  else
    let v := value.toNat
    let was := s.flag (Fld.IND_CH_on n)
    let on := bit v 6 || (decide (n = 0) && s.audMuted)
    let s1 := ((((s.setFld (Fld.IND_CH_current_ma n) (min 60 (max 2 (bits v 0 6)))).setFlag (Fld.IND_CH_on n) on).setFld
      (Fld.IND_CH_ramp_ms n) (min 20 (max 1 (bits v 7 5)))).setFlag (Fld.IND_CH_open_seen n)
      (s.flag (Fld.IND_CH_open_seen n) && !bit v 15)).noteWish n (bit v 6)
    if 240 < s1.indSum then s.setFlag Fld.IND_STATUS_budget_error true
    else if on ∧ !was then (if s1.flag (Fld.IND_CH_short_latched n) then s1 else s1.lightChannel n)
    else if !on ∧ was then s1.darken n
    else s1

def execIndChannelOn (n : Nat) (value : W32) (s : State) : Host.Outcome State Fault Refusal := .next (indChannelOn n value s)

/-- IND_RAMP_END: a ramp that is not frozen has run its time. -/
def indRampEnd (n : Nat) (s : State) : State :=
  match (s.indCh n).rampEnd with
  | some t => if t ≤ s.tb then s.modInd n fun c => { c with rampEnd := none } else s
  | none => s

def execIndRampEnd (n : Nat) (s : State) : Host.Outcome State Fault Refusal := .next (indRampEnd n s)

/-- A channel is tested: lit, with its own ramp ended (R516). -/
def IndCh.tested (c : IndCh) : Bool := c.lit && c.rampEnd.isNone && c.frozen.isNone

/-- IND_SHORT_DETECT: a tested channel's pin rises above `short_v`; it is clamped, and the other ramps freeze. -/
def indShortDetect (n : Nat) (s : State) : State :=
  if nInd ≤ n ∨ !(s.indCh n).tested ∨ s.flag (Fld.IND_CH_clamped n) then s
  else
    let s1 := (s.setFlag (Fld.IND_CH_clamped n) true).modInd n fun c => { c with clampedAt := some s.tb }
    { s1 with inds := { s1.inds with
        freezeAt := match s1.inds.freezeAt with
          | some t => some t
          | none => some s.tb
        chans := s1.inds.chans.map fun (p : Nat × IndCh) =>
          match p.2.rampEnd with
          | some t => (p.1, { p.2 with rampEnd := none, frozen := some (t - s.tb) })
          | none => p } }

def execIndShortDetect (n : Nat) (s : State) : Host.Outcome State Fault Refusal := .next (indShortDetect n s)

/-- IND_SHORT_TIMEOUT: the pin has fallen back, or is still above `short_v` 16 µs after the clamp, and the channel latches off. -/
def indShortTimeout (n : Nat) (above : Bool) (s : State) : State :=
  match (s.indCh n).clampedAt with
  | none => s
  | some t =>
    if !above then s.endClamp n
    else if !s.passedUs t 16 then s
    else
      let s1 := ((s.darken n).setFlag (Fld.IND_CH_short_latched n) true).logRecorded unitInd 0
      if n = 0 ∧ s1.audMuted then s1.setFlag Fld.IND_STATUS_mute_ind_fault true else s1

def execIndShortTimeout (n : Nat) (above : Bool) (s : State) : Host.Outcome State Fault Refusal := .next (indShortTimeout n above s)

/-- IND_FREEZE_TIMEOUT: 50 µs after a freeze began, ramps go on. -/
def indFreezeTimeout (s : State) : State :=
  match s.inds.freezeAt with
  | some t => if s.passedUs t 50 then s.unfreeze else s
  | none => s

def execIndFreezeTimeout (s : State) : Host.Outcome State Fault Refusal := .next (indFreezeTimeout s)

/-- IND_OPEN_DETECT: a tested channel's pin has stayed below 0.2 V at less than half its current for 1 ms. -/
def indOpenDetect (n : Nat) (s : State) : State :=
  if nInd ≤ n ∨ !(s.indCh n).tested then s
  else (s.setFlag (Fld.IND_CH_open_seen n) true).logRecorded unitInd 0

def execIndOpenDetect (n : Nat) (s : State) : Host.Outcome State Fault Refusal := .next (indOpenDetect n s)

/-- IND_RETRY: a write of 1 to `retry`. -/
def indRetry (n : Nat) (s : State) : State :=
  if nInd ≤ n then s
  else
    let s1 := s.setFlag (Fld.IND_CH_short_latched n) false
    if s1.flag (Fld.IND_CH_on n) then
      (s1.darken n).lightChannel n
    else s1

def execIndRetry (n : Nat) (s : State) : Host.Outcome State Fault Refusal := .next (indRetry n s)

/-! ### I3C (R512) and GPIO (R513) -/

/-- I3C_TRANSFER: a write of IND_I3C*n*_CMD; a `go` while `busy` discards the write. -/
def i3cTransfer (n : Nat) (value : W32) (s : State) : State :=
  let v := value.toNat
  if 4 ≤ n ∨ (bit v 16 ∧ s.flag (Fld.IND_I3C_CMD_busy n)) then s
  else
    let s1 := ((s.setReg (Reg.IND_I3C_CMD n) (setBits (s.reg (Reg.IND_I3C_CMD n)) 0 16 v)).setFlag (Fld.IND_I3C_CMD_nack n)
      (s.flag (Fld.IND_I3C_CMD_nack n) && !bit v 18)).setFlag (Fld.IND_I3C_CMD_ibi_seen n)
      (s.flag (Fld.IND_I3C_CMD_ibi_seen n) && !bit v 19)
    if bit v 16 ∧ s.flag (Fld.IND_I3C_CTRL_enable n) then
      let len := min 64 (bits v 8 7)
      let data := ((natRange 0 16).flatMap fun w => leBytes (s.reg (Reg.IND_I3C_DATA n w)) 4).take len
      (s1.setFlag (Fld.IND_I3C_CMD_busy n) true).send
        (.port "i3c" (leBytes n 1 ++ leBytes (bits v 0 16) 2 ++ (if bit v 0 then [] else data)))
    else s1

def execI3cTransfer (n : Nat) (value : W32) (s : State) : Host.Outcome State Fault Refusal := .next (i3cTransfer n value s)

/-- I3C_TRANSFER_DONE: the STOP; a read that was acknowledged leaves its bytes in the data registers. -/
def i3cTransferDone (n : Nat) (nack : Bool) (data : List Byte) (s : State) : State :=
  if 4 ≤ n ∨ !s.awake ∨ !s.flag (Fld.IND_I3C_CMD_busy n) then s
  else
    let s1 := s.setFlag (Fld.IND_I3C_CMD_busy n) false
    if nack then s1.setFlag (Fld.IND_I3C_CMD_nack n) true
    else if s.flag (Fld.IND_I3C_CMD_read n) then
      let got := data.take (min 64 (s.fld (Fld.IND_I3C_CMD_len n)))
      forEach (natRange 0 16) s1 fun w t =>
        let bs := (got.drop (4 * w)).take 4
        t.setReg (Reg.IND_I3C_DATA n w) (setBits (t.reg (Reg.IND_I3C_DATA n w)) 0 (8 * bs.length) (leNat bs))
    else s1

def execI3cTransferDone (n : Nat) (nack : Bool) (data : List Byte) (s : State) : Host.Outcome State Fault Refusal :=
  .next (i3cTransferDone n nack data s)

/-- I3C_IBI: an in-band interrupt of a target. -/
def i3cIbi (n addr : Nat) (s : State) : State :=
  if 4 ≤ n ∨ !s.awake ∨ !s.flag (Fld.IND_I3C_CTRL_enable n) then s
  else (s.setFlag (Fld.IND_I3C_CMD_ibi_seen n) true).setFld (Fld.IND_I3C_CMD_ibi_addr n) addr

def execI3cIbi (n addr : Nat) (s : State) : Host.Outcome State Fault Refusal := .next (i3cIbi n addr s)

/-- GPIO_EDGE: an input changes level, which acts in RUN and IDLE only (R503). -/
def gpioEdge (i : Nat) (level : Bool) (s : State) : State :=
  if 24 ≤ i ∨ !s.awake ∨ s.flag (Fld.IND_GPIO_in i) = level then s
  else (s.setFlag (Fld.IND_GPIO_in i) level).setFlag (Fld.IND_GPIO_edge_seen i) true

def execGpioEdge (i : Nat) (level : Bool) (s : State) : Host.Outcome State Fault Refusal := .next (gpioEdge i level s)

/-! ### Outputs in every power state (R464, R513) -/

/-- The output groups of R464. -/
inductive OutputPin where
  | pcieTx | ringTx | flue | pdmClk (k : Nat) | micVdd | tdmOut | serialOut | gpio (i : Nat) | indicator (n : Nat) | faultN
  deriving DecidableEq, Repr

/-- What an output does: driven by its port, running at a clock mode, at a level, unpowered, a supply or a sink on or off, released. -/
inductive OutputState where
  | driven | clock (mode : Nat) | low | high | floats | on | off | released
  deriving DecidableEq, Repr

/-- The column of R464: 0 RUN and IDLE, 1 SLEEP, 2 DEEP, 3 OFF; on the way up from SLEEP or DEEP that of the state left, and OFF in every
other start (DESIGN CHOICE, log 175). -/
def State.powerColumn (s : State) : Nat :=
  match s.power.phase with
  | .run => 0
  | .sleep => 1
  | .deep => 2
  | .unpowered => 3
  | .off => 3
  | _ => if s.power.left = 2 then 1 else if s.power.left = 3 then 2 else 3

/-- A GPIO pin as it is programmed; the wake output is driven low while R465 drives it, whatever `oe` and `out` say. -/
def State.gpioState (s : State) (i : Nat) : OutputState :=
  if s.power.wakeOut ∧ s.flag Fld.PWR_CTRL_wake_out_en ∧ s.fld Fld.PWR_CTRL_wake_out_gpio = i then .low
  else if s.flag (Fld.IND_GPIO_oe i) then (if s.flag (Fld.IND_GPIO_out i) then .high else .low)
  else .floats

/-- A PDM clock: stopped while it is off or mute is in force. -/
def State.pdmState (s : State) (mode : Nat) : OutputState := if mode = 0 ∨ s.audMuted then .low else .clock mode

/-- What an output group does now (R464). -/
def State.outputState (s : State) (p : OutputPin) : OutputState :=
  let col := s.powerColumn
  let whenRun := fun (x : OutputState) => if col = 0 then x else .floats
  match p with
  | .pcieTx | .ringTx | .flue | .tdmOut | .serialOut => whenRun .driven
  | .pdmClk k =>
    if col = 0 then s.pdmState (s.fld (if k = 0 then Fld.AUD_CTRL_mode_run0 else Fld.AUD_CTRL_mode_run1))
    else if col = 1 then s.pdmState (s.fld (if k = 0 then Fld.AUD_CTRL_mode_sleep0 else Fld.AUD_CTRL_mode_sleep1))
    else .floats
  | .micVdd => if 2 ≤ col then .floats else if s.audMuted ∨ s.micOpen then .off else .on
  | .gpio i => if col = 0 ∨ (col ≤ 2 ∧ i < 4) then s.gpioState i else .floats
  | .indicator n =>
    if col = 3 then .floats
    else if col = 0 then (if (s.indCh n).lit then .on else .off)
    else if col = 1 ∧ n = 0 ∧ s.audMuted then .on else .off
  | .faultN => if col = 3 then .floats else if col = 0 ∧ s.flag Fld.SAF_STATUS_fault_n_low then .low else .released

/-! ### JTAG (R518) -/

/-- Instruction codes. -/
def jtagIdcode : Nat := 0x01
def jtagSample : Nat := 0x02
def jtagExtest : Nat := 0x03
def jtagExtestPulse : Nat := 0x04
def jtagExtestTrain : Nat := 0x05
def jtagClamp : Nat := 0x06
def jtagHighz : Nat := 0x07
def jtagBypass : Nat := 0xFF

/-- The TAP loads an instruction. -/
def State.loadTap (s : State) (code : Nat) : State := { s with tap := { s.tap with instruction := code } }

/-- The TAP runs in RUN and IDLE only. -/
def State.tapRuns (s : State) : Bool := s.awake

/-- Levels as bytes. -/
def levels (bs : List Bool) : List Byte := bs.map fun b => if b then 1 else 0

/-- The identification register of a variant. -/
def idcodeOf (v : Variant) : Nat :=
  match v with
  | .vxp2 => 0xB7A524F3
  | .vxp4 => 0xB7A544F3
  | .vxp8 => 0xB7A584F3

/-- IDCODE. -/
def idcode (s : State) : State :=
  if s.tapRuns then (s.loadTap jtagIdcode).send (.port "TDO" (leBytes (idcodeOf s.variant) 4)) else s

def execIdcode (s : State) : Host.Outcome State Fault Refusal := .next (idcode s)

/-- SAMPLE/PRELOAD: the pins are sampled and shifted out, and the boundary register is preloaded. -/
def samplePreload (shiftIn pins : List Bool) (s : State) : State :=
  if s.tapRuns then
    { (s.loadTap jtagSample).send (.port "TDO" (levels pins)) with tap := { instruction := jtagSample, boundary := shiftIn } }
  else s

def execSamplePreload (shiftIn pins : List Bool) (s : State) : Host.Outcome State Fault Refusal :=
  .next (samplePreload shiftIn pins s)

/-- An instruction that takes the pins: accepted in SAFE and START_FAILED only, otherwise BYPASS is loaded; `drives` says whether it
drives the boundary register onto the pins. -/
def State.pinInstruction (s : State) (code : Nat) (drives : Bool) : State :=
  if !s.tapRuns then s
  else if s.fld Fld.SAF_STATUS_state = safSafe ∨ s.fld Fld.SAF_STATUS_state = safFailed then
    let s1 := s.loadTap code
    if drives then s1.send (.port "pins" (levels s.tap.boundary)) else s1
  else s.loadTap jtagBypass

/-- EXTEST. -/
def extest (s : State) : State := s.pinInstruction jtagExtest true
def execExtest (s : State) : Host.Outcome State Fault Refusal := .next (extest s)

/-- EXTEST_PULSE, of IEEE 1149.6. -/
def extestPulse (s : State) : State := s.pinInstruction jtagExtestPulse true
def execExtestPulse (s : State) : Host.Outcome State Fault Refusal := .next (extestPulse s)

/-- EXTEST_TRAIN, of IEEE 1149.6. -/
def extestTrain (s : State) : State := s.pinInstruction jtagExtestTrain true
def execExtestTrain (s : State) : Host.Outcome State Fault Refusal := .next (extestTrain s)

/-- CLAMP. -/
def clamp (s : State) : State := s.pinInstruction jtagClamp true
def execClamp (s : State) : Host.Outcome State Fault Refusal := .next (clamp s)

/-- HIGHZ. -/
def highz (s : State) : State := s.pinInstruction jtagHighz false
def execHighz (s : State) : Host.Outcome State Fault Refusal := .next (highz s)

/-- BYPASS: any code that no other instruction has. -/
def bypass (code : Nat) (s : State) : State :=
  if s.tapRuns ∧ !(decide (1 ≤ code % 256) && decide (code % 256 ≤ 7)) then s.loadTap jtagBypass else s

def execBypass (code : Nat) (s : State) : Host.Outcome State Fault Refusal := .next (bypass code s)

end Sys2Proof.Machine
end

