-- ==== Sys2Proof/Machine/Dispatch.lean ====
section
/-! DEFINITION. The dispatch: one arm per command, each one call of its meaning. -/

namespace Sys2Proof.Machine

open Sys2Proof

def exec (i : Instr) (s : State) : Host.Outcome State Fault Refusal :=
  match i with
  | .misalignedRegAccess off size write => Sys2Proof.Machine.execMisalignedRegAccess off size write s
  | .emptyOffsetAccess off size write => Sys2Proof.Machine.execEmptyOffsetAccess off size write s
  | .regWrite off wide value => Sys2Proof.Machine.execRegWrite off wide value s
  | .latchedLowRead off wide => Sys2Proof.Machine.execLatchedLowRead off wide s
  | .latchedHighRead off => Sys2Proof.Machine.execLatchedHighRead off s
  | .bar4Read off len => Sys2Proof.Machine.execBar4Read off len s
  | .bar4Write off data => Sys2Proof.Machine.execBar4Write off data s
  | .flitReceive link module flit => Sys2Proof.Machine.execFlitReceive link module flit s
  | .flitNakReplay link module ackSeq => Sys2Proof.Machine.execFlitNakReplay link module ackSeq s
  | .linkAckTimeout link module => Sys2Proof.Machine.execLinkAckTimeout link module s
  | .moduleFail link module => Sys2Proof.Machine.execModuleFail link module s
  | .linkTrained link modules lanesRepaired => Sys2Proof.Machine.execLinkTrained link modules lanesRepaired s
  | .requestReissue src tag => Sys2Proof.Machine.execRequestReissue src tag s
  | .read m errs => Sys2Proof.Machine.execRead m errs s
  | .write m errs => Sys2Proof.Machine.execWrite m errs s
  | .readData m => Sys2Proof.Machine.execReadData m s
  | .writeAck m => Sys2Proof.Machine.execWriteAck m s
  | .retry m => Sys2Proof.Machine.execRetry m s
  | .busError m => Sys2Proof.Machine.execBusError m s
  | .dispatchPlace die m => Sys2Proof.Machine.execDispatchPlace die m s
  | .dispatchKill die m => Sys2Proof.Machine.execDispatchKill die m s
  | .bounce die m => Sys2Proof.Machine.execBounce die m s
  | .tally m => Sys2Proof.Machine.execTally m s
  | .tallyDequeue => Sys2Proof.Machine.execTallyDequeue s
  | .event r => Sys2Proof.Machine.execEvent r s
  | .epochNotice unit epoch => Sys2Proof.Machine.execEpochNotice unit epoch s
  | .routeUpdate => Sys2Proof.Machine.execRouteUpdate s
  | .epochDeferredAdvance unit => Sys2Proof.Machine.execEpochDeferredAdvance unit s
  | .dieLogicReset die cause => Sys2Proof.Machine.execDieLogicReset die cause s
  | .dieSelftestDone die pass => Sys2Proof.Machine.execDieSelftestDone die pass s
  | .clientAttach function => Sys2Proof.Machine.execClientAttach function s
  | .clientDetach => Sys2Proof.Machine.execClientDetach s
  | .clientClear client => Sys2Proof.Machine.execClientClear client s
  | .nudge function client word => Sys2Proof.Machine.execNudge function client word s
  | .ringStart function client word => Sys2Proof.Machine.execRingStart function client word s
  | .ringStop function client word => Sys2Proof.Machine.execRingStop function client word s
  | .ringDrain function client word => Sys2Proof.Machine.execRingDrain function client word s
  | .activeSweep => Sys2Proof.Machine.execActiveSweep s
  | .quietSweep => Sys2Proof.Machine.execQuietSweep s
  | .ringQuietTimeout ring => Sys2Proof.Machine.execRingQuietTimeout ring s
  | .doorbellRead ring => Sys2Proof.Machine.execDoorbellRead ring s
  | .stepCheck ring => Sys2Proof.Machine.execStepCheck ring s
  | .stepAccept ring => Sys2Proof.Machine.execStepAccept ring s
  | .refusalRecheck ring seq => Sys2Proof.Machine.execRefusalRecheck ring seq s
  | .reservedPageBacked page => Sys2Proof.Machine.execReservedPageBacked page s
  | .placement => Sys2Proof.Machine.execPlacement s
  | .commandFinish die entry energyNj => Sys2Proof.Machine.execCommandFinish die entry energyNj s
  | .stepRelease ring => Sys2Proof.Machine.execStepRelease ring s
  | .budgetCheck => Sys2Proof.Machine.execBudgetCheck s
  | .ledgerEnable => Sys2Proof.Machine.execLedgerEnable s
  | .vtimeTick die entry => Sys2Proof.Machine.execVtimeTick die entry s
  | .preemptFair => Sys2Proof.Machine.execPreemptFair s
  | .preemptSafety => Sys2Proof.Machine.execPreemptSafety s
  | .selftestStart unit => Sys2Proof.Machine.execSelftestStart unit s
  | .selftestForce unit => Sys2Proof.Machine.execSelftestForce unit s
  | .selftestEnd unit pass => Sys2Proof.Machine.execSelftestEnd unit pass s
  | .exclWrite value => Sys2Proof.Machine.execExclWrite value s
  | .acctWrite => Sys2Proof.Machine.execAcctWrite s
  | .powerModelScale die modelledNj measuredNj => Sys2Proof.Machine.execPowerModelScale die modelledNj measuredNj s
  | .nop e w => Sys2Proof.Machine.execNop e w s
  | .endProgram e w => Sys2Proof.Machine.execEndProgram e w s
  | .runPastEnd e => Sys2Proof.Machine.execRunPastEnd e s
  | .sync e w => Sys2Proof.Machine.execSync e w s
  | .wait e w => Sys2Proof.Machine.execWait e w s
  | .stallTimeout e => Sys2Proof.Machine.execStallTimeout e s
  | .signal e w => Sys2Proof.Machine.execSignal e w s
  | .alloc e w => Sys2Proof.Machine.execAlloc e w s
  | .allocWaitGrant die => Sys2Proof.Machine.execAllocWaitGrant die s
  | .allocZeroDone die entry => Sys2Proof.Machine.execAllocZeroDone die entry s
  | .free e w => Sys2Proof.Machine.execFree e w s
  | .walk e w => Sys2Proof.Machine.execWalk e w s
  | .copy e w => Sys2Proof.Machine.execCopy e w s
  | .fill e w => Sys2Proof.Machine.execFill e w s
  | .gather e w => Sys2Proof.Machine.execGather e w s
  | .scatter e w => Sys2Proof.Machine.execScatter e w s
  | .transpose e w => Sys2Proof.Machine.execTranspose e w s
  | .window e w => Sys2Proof.Machine.execWindow e w s
  | .blkPack e w => Sys2Proof.Machine.execBlkPack e w s
  | .blkSend e w => Sys2Proof.Machine.execBlkSend e w s
  | .matmul e w chk => Sys2Proof.Machine.execMatmul e w chk s
  | .cbPreload e w => Sys2Proof.Machine.execCbPreload e w s
  | .codebookLoadDone e => Sys2Proof.Machine.execCodebookLoadDone e s
  | .recBind e w => Sys2Proof.Machine.execRecBind e w s
  | .recScan e w chk => Sys2Proof.Machine.execRecScan e w chk s
  | .recUnbind e w => Sys2Proof.Machine.execRecUnbind e w s
  | .parkLimit die engine => Sys2Proof.Machine.execParkLimit die engine s
  | .engineDisable unit => Sys2Proof.Machine.execEngineDisable unit s
  | .gseqSet e w => Sys2Proof.Machine.execGseqSet e w s
  | .gseqClr e w => Sys2Proof.Machine.execGseqClr e w s
  | .gateMap e w chk => Sys2Proof.Machine.execGateMap e w chk s
  | .gateRows e w chk => Sys2Proof.Machine.execGateRows e w chk s
  | .conv e w chk => Sys2Proof.Machine.execConv e w chk s
  | .convParam e w => Sys2Proof.Machine.execConvParam e w s
  | .boxDecode e w chk => Sys2Proof.Machine.execBoxDecode e w chk s
  | .scoreFilter e w chk => Sys2Proof.Machine.execScoreFilter e w chk s
  | .nms e w chk => Sys2Proof.Machine.execNms e w chk s
  | .attend e w chk => Sys2Proof.Machine.execAttend e w chk s
  | .attParam e w => Sys2Proof.Machine.execAttParam e w s
  | .merge e w chk => Sys2Proof.Machine.execMerge e w chk s
  | .attendRing e w chk => Sys2Proof.Machine.execAttendRing e w chk s
  | .kvAppend e w chk => Sys2Proof.Machine.execKvAppend e w chk s
  | .blockOffer die o => Sys2Proof.Machine.execBlockOffer die o s
  | .blockGrant die o => Sys2Proof.Machine.execBlockGrant die o s
  | .offerRepeat die o => Sys2Proof.Machine.execOfferRepeat die o s
  | .relayRetry die o notice epoch => Sys2Proof.Machine.execRelayRetry die o notice epoch s
  | .landWaitTimeout e => Sys2Proof.Machine.execLandWaitTimeout e s
  | .homeBlockRecheck e => Sys2Proof.Machine.execHomeBlockRecheck e s
  | .embDecode e w chk => Sys2Proof.Machine.execEmbDecode e w chk s
  | .embEncode e w chk => Sys2Proof.Machine.execEmbEncode e w chk s
  | .embRewrap e w chk => Sys2Proof.Machine.execEmbRewrap e w chk s
  | .mark e w => Sys2Proof.Machine.execMark e w s
  | .cntEmit e w => Sys2Proof.Machine.execCntEmit e w s
  | .mapEnable => Sys2Proof.Machine.execMapEnable s
  | .grant value => Sys2Proof.Machine.execGrant value s
  | .ungrant value => Sys2Proof.Machine.execUngrant value s
  | .back value => Sys2Proof.Machine.execBack value s
  | .pin value => Sys2Proof.Machine.execPin value s
  | .unpin value => Sys2Proof.Machine.execUnpin value s
  | .query value => Sys2Proof.Machine.execQuery value s
  | .pageCmdComplete => Sys2Proof.Machine.execPageCmdComplete s
  | .bellowsEvaluate => Sys2Proof.Machine.execBellowsEvaluate s
  | .bellowsCopyPass page => Sys2Proof.Machine.execBellowsCopyPass page s
  | .bellowsHoldEnd page => Sys2Proof.Machine.execBellowsHoldEnd page s
  | .bellowsForwardEnd page => Sys2Proof.Machine.execBellowsForwardEnd page s
  | .mergeAgeFlush group errs bad => Sys2Proof.Machine.execMergeAgeFlush group errs bad s
  | .scrubBurst group errs => Sys2Proof.Machine.execScrubBurst group errs s
  | .lapOverdue group => Sys2Proof.Machine.execLapOverdue group s
  | .dramHealthCheck group failing => Sys2Proof.Machine.execDramHealthCheck group failing s
  | .evacuationPageMove group => Sys2Proof.Machine.execEvacuationPageMove group s
  | .evacuationRetry group => Sys2Proof.Machine.execEvacuationRetry group s
  | .hostReadCompletion e status => Sys2Proof.Machine.execHostReadCompletion e status s
  | .hostCompletionTimeout e => Sys2Proof.Machine.execHostCompletionTimeout e s
  | .keyUnwrapDone unit client => Sys2Proof.Machine.execKeyUnwrapDone unit client s
  | .camPortEnable port value => Sys2Proof.Machine.execCamPortEnable port value s
  | .camChannelEnable channel value => Sys2Proof.Machine.execCamChannelEnable channel value s
  | .camChannelDisable channel value => Sys2Proof.Machine.execCamChannelDisable channel value s
  | .frameStartPacket port vc frameNo err => Sys2Proof.Machine.execFrameStartPacket port vc frameNo err s
  | .frameEndPacket port vc err => Sys2Proof.Machine.execFrameEndPacket port vc err s
  | .longPacket port vc dt payload err => Sys2Proof.Machine.execLongPacket port vc dt payload err s
  | .shortPacket port vc dt err => Sys2Proof.Machine.execShortPacket port vc dt err s
  | .routeTableRefresh port => Sys2Proof.Machine.execRouteTableRefresh port s
  | .frameTimeout channel => Sys2Proof.Machine.execFrameTimeout channel s
  | .frameRecordWrite channel => Sys2Proof.Machine.execFrameRecordWrite channel s
  | .m2mLaneStart lane => Sys2Proof.Machine.execM2mLaneStart lane s
  | .m2mLaneDone lane => Sys2Proof.Machine.execM2mLaneDone lane s
  | .audEnable value => Sys2Proof.Machine.execAudEnable value s
  | .sampleTick mics analog tdmIn => Sys2Proof.Machine.execSampleTick mics analog tdmIn s
  | .rangeRequest input value => Sys2Proof.Machine.execRangeRequest input value s
  | .mutePinFall => Sys2Proof.Machine.execMutePinFall s
  | .muteWrite value => Sys2Proof.Machine.execMuteWrite value s
  | .muteRelease => Sys2Proof.Machine.execMuteRelease s
  | .micVddLimitExpire => Sys2Proof.Machine.execMicVddLimitExpire s
  | .micVddRetry => Sys2Proof.Machine.execMicVddRetry s
  | .audLatch => Sys2Proof.Machine.execAudLatch s
  | .tdmPlaybackTick => Sys2Proof.Machine.execTdmPlaybackTick s
  | .tinderHop ended => Sys2Proof.Machine.execTinderHop ended s
  | .presenceFrame => Sys2Proof.Machine.execPresenceFrame s
  | .kindlingStart => Sys2Proof.Machine.execKindlingStart s
  | .confirmDecision => Sys2Proof.Machine.execConfirmDecision s
  | .kindlingEncoderHop => Sys2Proof.Machine.execKindlingEncoderHop s
  | .confirmTimeout => Sys2Proof.Machine.execConfirmTimeout s
  | .replyTimeout => Sys2Proof.Machine.execReplyTimeout s
  | .wakeRingNudge word => Sys2Proof.Machine.execWakeRingNudge word s
  | .controlWordPoll => Sys2Proof.Machine.execControlWordPoll s
  | .acceptReply startIndex => Sys2Proof.Machine.execAcceptReply startIndex s
  | .declineReply => Sys2Proof.Machine.execDeclineReply s
  | .closeCapture => Sys2Proof.Machine.execCloseCapture s
  | .openCapture startIndex => Sys2Proof.Machine.execOpenCapture startIndex s
  | .captureFrame => Sys2Proof.Machine.execCaptureFrame s
  | .loadTinder => Sys2Proof.Machine.execLoadTinder s
  | .loadKindling => Sys2Proof.Machine.execLoadKindling s
  | .imageLoadDone => Sys2Proof.Machine.execImageLoadDone s
  | .logMergeFlush unit detail => Sys2Proof.Machine.execLogMergeFlush unit detail s
  | .engineRetest unit pass => Sys2Proof.Machine.execEngineRetest unit pass s
  | .dieDrain die => Sys2Proof.Machine.execDieDrain die s
  | .drainTimeout die => Sys2Proof.Machine.execDrainTimeout die s
  | .dieLogicOff die => Sys2Proof.Machine.execDieLogicOff die s
  | .dieRelease die => Sys2Proof.Machine.execDieRelease die s
  | .supervisorHeartbeat core received => Sys2Proof.Machine.execSupervisorHeartbeat core received s
  | .failover => Sys2Proof.Machine.execFailover s
  | .failoverStandbyTestDone pass => Sys2Proof.Machine.execFailoverStandbyTestDone pass s
  | .damper cause => Sys2Proof.Machine.execDamper cause s
  | .enterSafe => Sys2Proof.Machine.execEnterSafe s
  | .escalatePulseEnd => Sys2Proof.Machine.execEscalatePulseEnd s
  | .watchStatus data => Sys2Proof.Machine.execWatchStatus data s
  | .watchCause data => Sys2Proof.Machine.execWatchCause data s
  | .watchKick data => Sys2Proof.Machine.execWatchKick data s
  | .watchSafe data => Sys2Proof.Machine.execWatchSafe data s
  | .watchFrameReject => Sys2Proof.Machine.execWatchFrameReject s
  | .watchTimeout => Sys2Proof.Machine.execWatchTimeout s
  | .injectionDone hub dies => Sys2Proof.Machine.execInjectionDone hub dies s
  | .thermalSample temps => Sys2Proof.Machine.execThermalSample temps s
  | .thermalOffTimeout => Sys2Proof.Machine.execThermalOffTimeout s
  | .drbgReseed => Sys2Proof.Machine.execDrbgReseed s
  | .compatKeyLoad client => Sys2Proof.Machine.execCompatKeyLoad client s
  | .compatKeyClear client => Sys2Proof.Machine.execCompatKeyClear client s
  | .keyAgreementMsg port m => Sys2Proof.Machine.execKeyAgreementMsg port m s
  | .keyAgreementRetry port => Sys2Proof.Machine.execKeyAgreementRetry port s
  | .rekeyNow port => Sys2Proof.Machine.execRekeyNow port s
  | .rekeyTimeout port => Sys2Proof.Machine.execRekeyTimeout port s
  | .ringFrame port f => Sys2Proof.Machine.execRingFrame port f s
  | .ringFrameNak port counter => Sys2Proof.Machine.execRingFrameNak port counter s
  | .hxrEnable port on => Sys2Proof.Machine.execHxrEnable port on s
  | .fwStage => Sys2Proof.Machine.execFwStage s
  | .fwStageDone digestOk signatureOk => Sys2Proof.Machine.execFwStageDone digestOk signatureOk s
  | .fwActivate => Sys2Proof.Machine.execFwActivate s
  | .fwDieUpdate die => Sys2Proof.Machine.execFwDieUpdate die s
  | .bootServingTimeout => Sys2Proof.Machine.execBootServingTimeout s
  | .powerEntryCheck => Sys2Proof.Machine.execPowerEntryCheck s
  | .entryHandshakeTimeout => Sys2Proof.Machine.execEntryHandshakeTimeout s
  | .wakePin => Sys2Proof.Machine.execWakePin s
  | .rtcAlarm => Sys2Proof.Machine.execRtcAlarm s
  | .regulatorReady => Sys2Proof.Machine.execRegulatorReady s
  | .oscillatorReady => Sys2Proof.Machine.execOscillatorReady s
  | .memoryReady => Sys2Proof.Machine.execMemoryReady s
  | .logicReady bootSel slotA slotB => Sys2Proof.Machine.execLogicReady bootSel slotA slotB s
  | .rtcEdge => Sys2Proof.Machine.execRtcEdge s
  | .timebaseHandback => Sys2Proof.Machine.execTimebaseHandback s
  | .memRebuildDone => Sys2Proof.Machine.execMemRebuildDone s
  | .autoResleep => Sys2Proof.Machine.execAutoResleep s
  | .aonBrownout => Sys2Proof.Machine.execAonBrownout s
  | .vinLoss => Sys2Proof.Machine.execVinLoss s
  | .vinPowerOn => Sys2Proof.Machine.execVinPowerOn s
  | .resetPinRise lowUs => Sys2Proof.Machine.execResetPinRise lowUs s
  | .resetPinColdTimeout => Sys2Proof.Machine.execResetPinColdTimeout s
  | .warmReset => Sys2Proof.Machine.execWarmReset s
  | .coldReset => Sys2Proof.Machine.execColdReset s
  | .hostPortReset => Sys2Proof.Machine.execHostPortReset s
  | .dieIdleGate die => Sys2Proof.Machine.execDieIdleGate die s
  | .dvfsStep die lower => Sys2Proof.Machine.execDvfsStep die lower s
  | .powerCapGrid => Sys2Proof.Machine.execPowerCapGrid s
  | .powerCapAdjust heaviest => Sys2Proof.Machine.execPowerCapAdjust heaviest s
  | .powerCapRestore => Sys2Proof.Machine.execPowerCapRestore s
  | .uncertClear => Sys2Proof.Machine.execUncertClear s
  | .countLoRead block idx => Sys2Proof.Machine.execCountLoRead block idx s
  | .countHiWrite block idx value => Sys2Proof.Machine.execCountHiWrite block idx value s
  | .countLoWrite block idx value => Sys2Proof.Machine.execCountLoWrite block idx value s
  | .counterSnap block => Sys2Proof.Machine.execCounterSnap block s
  | .dbgSnap value => Sys2Proof.Machine.execDbgSnap value s
  | .dbgSnapCapture block => Sys2Proof.Machine.execDbgSnapCapture block s
  | .counterSample => Sys2Proof.Machine.execCounterSample s
  | .traceSync => Sys2Proof.Machine.execTraceSync s
  | .tracePacket p => Sys2Proof.Machine.execTracePacket p s
  | .traceThrottleRelease die => Sys2Proof.Machine.execTraceThrottleRelease die s
  | .flueFrame => Sys2Proof.Machine.execFlueFrame s
  | .traceEnable value => Sys2Proof.Machine.execTraceEnable value s
  | .traceArm => Sys2Proof.Machine.execTraceArm s
  | .traceTriggerNow => Sys2Proof.Machine.execTraceTriggerNow s
  | .traceDrainEnd => Sys2Proof.Machine.execTraceDrainEnd s
  | .tensorWatchCopy n => Sys2Proof.Machine.execTensorWatchCopy n s
  | .tensorWatchDone n => Sys2Proof.Machine.execTensorWatchDone n s
  | .indChannelOn n value => Sys2Proof.Machine.execIndChannelOn n value s
  | .indRampEnd n => Sys2Proof.Machine.execIndRampEnd n s
  | .indShortDetect n => Sys2Proof.Machine.execIndShortDetect n s
  | .indShortTimeout n above => Sys2Proof.Machine.execIndShortTimeout n above s
  | .indFreezeTimeout => Sys2Proof.Machine.execIndFreezeTimeout s
  | .indOpenDetect n => Sys2Proof.Machine.execIndOpenDetect n s
  | .indRetry n => Sys2Proof.Machine.execIndRetry n s
  | .i3cTransfer n value => Sys2Proof.Machine.execI3cTransfer n value s
  | .i3cTransferDone n nack data => Sys2Proof.Machine.execI3cTransferDone n nack data s
  | .i3cIbi n addr => Sys2Proof.Machine.execI3cIbi n addr s
  | .gpioEdge idx level => Sys2Proof.Machine.execGpioEdge idx level s
  | .idcode => Sys2Proof.Machine.execIdcode s
  | .samplePreload shiftIn pins => Sys2Proof.Machine.execSamplePreload shiftIn pins s
  | .extest => Sys2Proof.Machine.execExtest s
  | .extestPulse => Sys2Proof.Machine.execExtestPulse s
  | .extestTrain => Sys2Proof.Machine.execExtestTrain s
  | .clamp => Sys2Proof.Machine.execClamp s
  | .highz => Sys2Proof.Machine.execHighz s
  | .bypass code => Sys2Proof.Machine.execBypass code s
  | .reservedOpcode e w => Sys2Proof.Machine.execReservedOpcode e w s
  | .islandFailure die => Sys2Proof.Machine.execIslandFailure die s
  | .hostLinkL0 speed width => Sys2Proof.Machine.execHostLinkL0 speed width s
  | .ringPortTrained port => Sys2Proof.Machine.execRingPortTrained port s
  | .watchUnknownCommand command => Sys2Proof.Machine.execWatchUnknownCommand command s
  | .standbyLockstepMismatch => Sys2Proof.Machine.execStandbyLockstepMismatch s
  | .standbyTestDone pass => Sys2Proof.Machine.execStandbyTestDone pass s

end Sys2Proof.Machine
end

