-- ==== Sys2Proof/Machine/Tick.lean ====
section
/-! DEFINITION. The passing of time on an empty queue (R471, log 6), and what happens then without any command (R42, log 132). -/

namespace Sys2Proof.Machine

/-- Whether the 38.4 MHz clock runs the timebase: it does from power-on or from the return from OFF, and not in SLEEP and DEEP, where
the RTC keeps the time (R471, R472). -/
def State.clockRuns (s : State) : Bool :=
  match s.power.phase with
  | .unpowered => false
  | .off => false
  | _ => !s.flag Fld.CLK_TB_STATUS_rtc_mode

/-- One period of the 38.4 MHz timebase passes; compute logic whose time in reset is over is released, and the map
entries of a BACK whose frames are zeroed are written (R42, R321, log 132). -/
def tick (s : State) : State :=
  if s.clockRuns then
    (forEach (natRange 0 s.nDies) { s with tb := (s.tb + 1) % 2 ^ 64 } fun d t => t.releaseLogic d).backDue
  else s

end Sys2Proof.Machine
end

