-- ==== Sys2Proof/Safety.lean ====
section
/-! DEFINITION. What a safe step is, and the terms in which claims say what a command leaves alone. -/

namespace Sys2Proof

/-- Every command in the queue leads to a next state: no step from here faults or refuses, over `n` steps. -/
def safeRun : Nat → Machine.State → Prop
  | 0, _ => True
  | n + 1, s =>
    match Machine.step s with
    | .next t => safeRun n t
    | .fault _ => False
    | .refused _ => False

namespace Machine

/-- Every register but those with the keys `ks` reads in `t` as in `s`. -/
def State.regsBut (ks : List Nat) (s t : State) : Prop := ∀ k, k ∉ ks → t.reg k = s.reg k

/-- Every byte of memory reads in `t` as in `s`. -/
def State.sameBytes (s t : State) : Prop := ∀ a, memoryGet t.mem a = memoryGet s.mem a

/-- The engine `e` belongs to the run `r`, its own state is `g`, the next instruction of its program is the word `w` with opcode `op`
(R131), which it may execute now and which its kind of engine has. -/
abbrev State.atWord (s : State) (e : Eng) (w : W128) (op : Nat) (r : Run) (g : EngRun) : Prop :=
  s.engOf e = some (r, g) ∧ s.mayRun e r g = true ∧ opIs w op = true ∧ opAllowed r.kind op = true ∧ s.fetch r g = .ok w

/-- The engine `e` executes the instruction `w` of opcode `op` now, with the context `c`, and `t` is the state in which the instruction is
counted. -/
abbrev State.instrAt (s : State) (e : Eng) (w : W128) (op : Nat) (r : Run) (g : EngRun) (c : Ctx) (t : State) : Prop :=
  s.atWord e w op r g ∧ c = ctxOf e r g w ∧ t = s.begun e w r g

end Machine

end Sys2Proof
end

