-- ==== Sys2Proof/WellFormed.lean ====
section
/-! DEFINITION. Well-formed commands: every operand lies in the range that the rule of its row gives it. A check stands once,
under a name of its own; `Instr.wellFormed` applies them row by row. -/

namespace Sys2Proof

/-- A die with commands of its own: a compute die, 0 to 6, or Kindling's slots on the hub, 8 (R22, R130). -/
def dieOk (d : Nat) : Bool := decide (d < 7) || decide (d = 8)

def diesOk (ds : List Nat) : Bool := ds.all dieOk

/-- An entry of a dispatcher's table (R22). -/
def entryOk (n : Nat) : Bool := decide (n < 2048)

/-- An engine of a run: at most eight engines take part in a command (R130). -/
def Eng.ok (e : Eng) : Bool := dieOk e.die && entryOk e.entry && decide (e.pos < 8)

/-- An engine number of a kind on a die. -/
def engineOk (n : Nat) : Bool := decide (n < 8)

/-- A fault kind of a cast-out mismatch is 1 to 3, and its place is one of the 128 rows and columns (R201, R217). -/
def EngCheck.ok : EngCheck → Bool
  | .castout _ row col kind _ _ => decide (row < 128) && decide (col < 128) && decide (1 ≤ kind) && decide (kind ≤ 3)
  | .rescale row col => decide (row < 128) && decide (col < 128)
  | .pass => true
  | .mismatch => true
  | .gateMismatch => true
  | .storeUncorrectable => true
  | .storeCorrected => true
  | .gateStoreCorrected => true
  | .gateStoreUncorrectable => true

def byteOk (n : Nat) : Bool := decide (n < 256)
def halfOk (n : Nat) : Bool := decide (n < 65536)

/-- A 64-bit quantity: a sequence number (R64), an index, an energy. -/
def seqOk (n : Nat) : Bool := decide (n < 2 ^ 64)

/-- A unit code (R31). -/
def unitOk (n : Nat) : Bool := decide (n < 65536)

/-- A ClientId (R56). -/
def clientOk (n : Nat) : Bool := decide (n < 4096)

/-- A function: the physical function 0 or one of 63 virtual functions (R56). -/
def functionOk (n : Nat) : Bool := decide (n < 64)

/-- A RingId (R60). -/
def ringOk (n : Nat) : Bool := decide (n < 2 ^ 20)

/-- A page of unified device memory, of the largest variant (R1). -/
def pageOk (n : Nat) : Bool := decide (n < 131072)

/-- A DRAM code group, of the largest variant (R25). -/
def groupOk (n : Nat) : Bool := decide (n < 16)

/-- An offset of BAR0, which is 128 MiB (R52). -/
def barOk (n : Nat) : Bool := decide (n < 0x8000000)

/-- The size of a host access, 1 to 8 bytes (R12). -/
def sizeOk (n : Nat) : Bool := decide (1 ≤ n) && decide (n ≤ 8)

/-- An offset of BAR4 (R505): below the end of device memory. -/
def bar4Ok (n : Nat) : Bool := decide (n < 2 ^ 48)

/-- A length in bytes of one host access or transfer. -/
def lenOk (n : Nat) : Bool := decide (1 ≤ n) && decide (n ≤ 4096)

def dataOk (bs : List Byte) : Bool := decide (bs.length ≤ 4096)

/-- A module of a link (R27), and a set of working modules. -/
def moduleOk (n : Nat) : Bool := decide (n < 2)
def modulesOk (n : Nat) : Bool := decide (n < 4)

/-- A flit has 256 bytes (R28), and its sequence numbers 12 bits. -/
def flitOk (bs : List Byte) : Bool := decide (bs.length = 256)
def flitSeqOk (n : Nat) : Bool := decide (n < 4096)

/-- The header fields of a message (R29) in their widths. -/
def Header.ok (h : Header) : Bool :=
  byteOk h.opcode && byteOk h.tag && halfOk h.epoch && unitOk h.dst && unitOk h.src && decide (h.addr < 2 ^ 48) && clientOk h.client &&
    [8, 16, 32, 64].contains h.len

def Msg.ok (m : Msg) : Bool := m.hdr.ok && decide (m.data.length ≤ 64)

/-- The data of a DISPATCH in its widths (R106, R107); `op` 2 is a returned TALLY (R111). -/
def Dispatch.ok (m : Dispatch) : Bool :=
  seqOk m.seq && ringOk m.ring && byteOk m.index && decide (m.op < 3) && byteOk m.kind && byteOk m.width && decide (m.cmdAddr < 2 ^ 48) &&
    seqOk m.deadline && halfOk m.tallyEpoch && halfOk m.avoid && halfOk m.headerEpoch && byteOk m.reason && halfOk m.curEpoch

/-- The data of a TALLY in its widths (R108). -/
def TallyMsg.ok (m : TallyMsg) : Bool :=
  halfOk m.headerEpoch &&
  seqOk m.seq && ringOk m.ring && byteOk m.index && byteOk m.width && halfOk m.tallyEpoch && dieOk m.die && seqOk m.engineNs &&
    seqOk m.bytesL1 && seqOk m.bytesL2 && seqOk m.bytesL3 && seqOk m.bytesL4 && seqOk m.energyNj

/-- A report: one of the fault classes, a unit, a 16-bit detail, and the command concerned (R404, R409). -/
def FaultReport.ok (r : FaultReport) : Bool :=
  decide (r.cls < 8) && unitOk r.unit && halfOk r.detail && Option.all clientOk r.client && ringOk r.ring && seqOk r.seq &&
    Option.all byteOk r.index && Option.all (fun x => decide (x.1 < 2 ^ 22) && decide (x.2.length ≤ 320)) r.entry

/-- The die of a block relay, in this package or, from 16 * (package + 1), in another (R270, R272). -/
def relayDieOk (d : Nat) : Bool := decide (d % 16 < 7) && decide (d / 16 ≤ 16)

/-- A block offer (R272): a pass has at most 112 participants (R270). -/
def Offer.ok (o : Offer) : Bool :=
  decide (o.passId < 2 ^ 32) && decide (o.origin < 112) && decide (o.hop < 112) && decide (o.descAddr < 2 ^ 48) && decide (o.srcAddr < 2 ^ 48) &&
  clientOk o.client && relayDieOk o.sender && halfOk o.epoch

/-- A trace packet has 16 or 32 bytes, of which 12 are its header (R485). -/
def TracePacket.ok (p : TracePacket) : Bool :=
  byteOk p.ty && unitOk p.unit && clientOk p.client && decide (p.stamp < 2 ^ 48) && decide (p.payload.length ≤ 20)

/-- A key-agreement message names a package of a ring (R509). -/
def KeyMsg.ok (m : KeyMsg) : Bool := decide (m.pkgId < 16) && decide (m.ringSize ≤ 16) && halfOk m.ringTag

/-- A frame counter has 40 bits (R440). -/
def counterOk (n : Nat) : Bool := decide (n < 2 ^ 40)

/-- A ring frame (R508): its payload is at most 2,048 bytes. -/
def RingFrame.ok (f : RingFrame) : Bool :=
  decide (f.phase < 2) && decide (f.kind < 8) && decide (f.srcPkg < 16) && decide (f.dstPkg < 16) && counterOk f.counter &&
    decide (f.payload.length ≤ 2048) && counterOk f.ackCounter

/-- Versions of a firmware image have 32 bits (R445). -/
def Image.ok (c : Image) : Bool := decide (c.header.length = 512)

/-- Errors of the symbols of a code word (R334, R336): a code word has ten symbols. -/
def errsOk (xs : List (Nat × List W16)) : Bool := xs.all fun x => decide (x.2.length ≤ 10)

/-- Device positions of a code group (R334). -/
def devicesOk (xs : List Nat) : Bool := xs.all fun n => decide (n < 10)

/-- A cause of CFR_CAUSE or of the damper (R409, R422). -/
def causeOk (n : Nat) : Bool := decide (n < 8)

/-- Camera ports, channels, virtual channels and data types (R349, R355). -/
def camPortOk (n : Nat) : Bool := decide (n < 4)
def channelOk (n : Nat) : Bool := decide (n < 16)
def vcOk (n : Nat) : Bool := decide (n < 32)
def dtOk (n : Nat) : Bool := decide (n < 64)
def payloadOk (bs : List Byte) : Bool := decide (bs.length < 65536)

/-- One of two: an analog input, a ring port, a lane, a supervisor core. -/
def pairOk (n : Nat) : Bool := decide (n < 2)

/-- What the decimators of 16 microphones deliver, at 48 kHz and then at 16 kHz (R376), two analog inputs, and the TDM slots, at most. -/
def micsOk (xs : List Int) : Bool := decide (xs.length ≤ 32)
def analogOk (xs : List Int) : Bool := decide (xs.length ≤ 2)
def tdmOk (xs : List Int) : Bool := decide (xs.length ≤ 64)

/-- One injection result per compute die (R412). -/
def passesOk (xs : List W32) : Bool := decide (xs.length ≤ 7)

/-- One temperature per compute die and one of the hub (R470). -/
def tempsOk (xs : List Int) : Bool := decide (xs.length ≤ 8)

/-- The boot strap pins (R519). -/
def bootSelOk (n : Nat) : Bool := decide (n < 4)

/-- A counter of a block (R478). -/
def counterNoOk (n : Nat) : Bool := decide (n < 16)

def fourOk (n : Nat) : Bool := decide (n < 4)

/-- An indicator channel (R515), a GPIO (R513), an I3C address. -/
def indOk (n : Nat) : Bool := decide (n < 6)
def gpioOk (n : Nat) : Bool := decide (n < 24)
def addr7Ok (n : Nat) : Bool := decide (n < 128)

/-- `speed` and `width` of HST_LINK (R506). -/
def speedOk (n : Nat) : Bool := decide (1 ≤ n) && decide (n ≤ 5)
def widthOk (n : Nat) : Bool := [1, 2, 4, 8].contains n

def tapOk (bs : List Bool) : Bool := decide (bs.length ≤ 4096)

/-- Whether every operand of a command lies in the range its row gives it. -/
def Instr.wellFormed : Instr → Bool
  | .misalignedRegAccess off size _ => barOk off && sizeOk size
  | .emptyOffsetAccess off size _ => barOk off && sizeOk size
  | .regWrite off _ _ => barOk off
  | .latchedLowRead off _ => barOk off
  | .latchedHighRead off => barOk off
  | .bar4Read off len => bar4Ok off && lenOk len
  | .bar4Write off data => bar4Ok off && dataOk data
  | .flitReceive link module flit => unitOk link && moduleOk module && flitOk flit
  | .flitNakReplay link module ackSeq => unitOk link && moduleOk module && flitSeqOk ackSeq
  | .linkAckTimeout link module => unitOk link && moduleOk module
  | .moduleFail link module => unitOk link && moduleOk module
  | .linkTrained link modules lanesRepaired => unitOk link && modulesOk modules && byteOk lanesRepaired
  | .requestReissue src tag => unitOk src && byteOk tag
  | .read m errs => Msg.ok m && errsOk errs
  | .write m errs => Msg.ok m && errsOk errs
  | .readData m => Msg.ok m
  | .writeAck m => Msg.ok m
  | .retry m => Msg.ok m
  | .busError m => Msg.ok m
  | .dispatchPlace die m => dieOk die && Dispatch.ok m
  | .dispatchKill die m => dieOk die && Dispatch.ok m
  | .bounce die m => dieOk die && Dispatch.ok m
  | .tally m => TallyMsg.ok m
  | .tallyDequeue => true
  | .event r => FaultReport.ok r
  | .epochNotice unit epoch => unitOk unit && halfOk epoch
  | .routeUpdate => true
  | .epochDeferredAdvance unit => unitOk unit
  | .dieLogicReset die cause => dieOk die && causeOk cause
  | .dieSelftestDone die _ => dieOk die
  | .clientAttach function => functionOk function
  | .clientDetach => true
  | .clientClear client => clientOk client
  | .nudge function client _ => functionOk function && clientOk client
  | .ringStart function client _ => functionOk function && clientOk client
  | .ringStop function client _ => functionOk function && clientOk client
  | .ringDrain function client _ => functionOk function && clientOk client
  | .activeSweep => true
  | .quietSweep => true
  | .ringQuietTimeout ring => ringOk ring
  | .doorbellRead ring => ringOk ring
  | .stepCheck ring => ringOk ring
  | .stepAccept ring => ringOk ring
  | .refusalRecheck ring seq => ringOk ring && seqOk seq
  | .reservedPageBacked page => pageOk page
  | .placement => true
  | .commandFinish die entry energyNj => dieOk die && entryOk entry && seqOk energyNj
  | .stepRelease ring => ringOk ring
  | .budgetCheck => true
  | .ledgerEnable => true
  | .vtimeTick die entry => dieOk die && entryOk entry
  | .preemptFair => true
  | .preemptSafety => true
  | .selftestStart unit => unitOk unit
  | .selftestForce unit => unitOk unit
  | .selftestEnd unit _ => unitOk unit
  | .exclWrite _ => true
  | .acctWrite => true
  | .powerModelScale die modelledNj measuredNj => dieOk die && seqOk modelledNj && seqOk measuredNj
  | .nop e _ => Eng.ok e
  | .endProgram e _ => Eng.ok e
  | .runPastEnd e => Eng.ok e
  | .sync e _ => Eng.ok e
  | .wait e _ => Eng.ok e
  | .stallTimeout e => Eng.ok e
  | .signal e _ => Eng.ok e
  | .alloc e _ => Eng.ok e
  | .allocWaitGrant die => dieOk die
  | .allocZeroDone die entry => dieOk die && entryOk entry
  | .free e _ => Eng.ok e
  | .walk e _ => Eng.ok e
  | .copy e _ => Eng.ok e
  | .fill e _ => Eng.ok e
  | .gather e _ => Eng.ok e
  | .scatter e _ => Eng.ok e
  | .transpose e _ => Eng.ok e
  | .window e _ => Eng.ok e
  | .blkPack e _ => Eng.ok e
  | .blkSend e _ => Eng.ok e
  | .matmul e _ chk => Eng.ok e && EngCheck.ok chk
  | .cbPreload e _ => Eng.ok e
  | .codebookLoadDone e => Eng.ok e
  | .recBind e _ => Eng.ok e
  | .recScan e _ chk => Eng.ok e && EngCheck.ok chk
  | .recUnbind e _ => Eng.ok e
  | .parkLimit die engine => dieOk die && engineOk engine
  | .engineDisable unit => unitOk unit
  | .gseqSet e _ => Eng.ok e
  | .gseqClr e _ => Eng.ok e
  | .gateMap e _ chk => Eng.ok e && EngCheck.ok chk
  | .gateRows e _ chk => Eng.ok e && EngCheck.ok chk
  | .conv e _ chk => Eng.ok e && EngCheck.ok chk
  | .convParam e _ => Eng.ok e
  | .boxDecode e _ chk => Eng.ok e && EngCheck.ok chk
  | .scoreFilter e _ chk => Eng.ok e && EngCheck.ok chk
  | .nms e _ chk => Eng.ok e && EngCheck.ok chk
  | .attend e _ chk => Eng.ok e && EngCheck.ok chk
  | .attParam e _ => Eng.ok e
  | .merge e _ chk => Eng.ok e && EngCheck.ok chk
  | .attendRing e _ chk => Eng.ok e && EngCheck.ok chk
  | .kvAppend e _ chk => Eng.ok e && EngCheck.ok chk
  | .blockOffer die o => dieOk die && Offer.ok o
  | .blockGrant die o => relayDieOk die && Offer.ok o
  | .offerRepeat die o => dieOk die && Offer.ok o
  | .relayRetry die o _ epoch => dieOk die && Offer.ok o && halfOk epoch
  | .landWaitTimeout e => Eng.ok e
  | .homeBlockRecheck e => Eng.ok e
  | .embDecode e _ chk => Eng.ok e && EngCheck.ok chk
  | .embEncode e _ chk => Eng.ok e && EngCheck.ok chk
  | .embRewrap e _ chk => Eng.ok e && EngCheck.ok chk
  | .mark e _ => Eng.ok e
  | .cntEmit e _ => Eng.ok e
  | .mapEnable => true
  | .grant _ => true
  | .ungrant _ => true
  | .back _ => true
  | .pin _ => true
  | .unpin _ => true
  | .query _ => true
  | .pageCmdComplete => true
  | .bellowsEvaluate => true
  | .bellowsCopyPass page => pageOk page
  | .bellowsHoldEnd page => pageOk page
  | .bellowsForwardEnd page => pageOk page
  | .mergeAgeFlush group errs _ => groupOk group && errsOk errs
  | .scrubBurst group errs => groupOk group && errsOk errs
  | .lapOverdue group => groupOk group
  | .dramHealthCheck group failing => groupOk group && devicesOk failing
  | .evacuationPageMove group => groupOk group
  | .evacuationRetry group => groupOk group
  | .hostReadCompletion e _ => Eng.ok e
  | .hostCompletionTimeout e => Eng.ok e
  | .keyUnwrapDone unit client => unitOk unit && clientOk client
  | .camPortEnable port _ => camPortOk port
  | .camChannelEnable channel _ => channelOk channel
  | .camChannelDisable channel _ => channelOk channel
  | .frameStartPacket port vc frameNo _ => camPortOk port && vcOk vc && halfOk frameNo
  | .frameEndPacket port vc _ => camPortOk port && vcOk vc
  | .longPacket port vc dt payload _ => camPortOk port && vcOk vc && dtOk dt && payloadOk payload
  | .shortPacket port vc dt _ => camPortOk port && vcOk vc && dtOk dt
  | .routeTableRefresh port => camPortOk port
  | .frameTimeout channel => channelOk channel
  | .frameRecordWrite channel => channelOk channel
  | .m2mLaneStart lane => pairOk lane
  | .m2mLaneDone lane => pairOk lane
  | .audEnable _ => true
  | .sampleTick mics analog tdmIn => micsOk mics && analogOk analog && tdmOk tdmIn
  | .rangeRequest input _ => pairOk input
  | .mutePinFall => true
  | .muteWrite _ => true
  | .muteRelease => true
  | .micVddLimitExpire => true
  | .micVddRetry => true
  | .audLatch => true
  | .tdmPlaybackTick => true
  | .tinderHop _ => true
  | .presenceFrame => true
  | .kindlingStart => true
  | .confirmDecision => true
  | .kindlingEncoderHop => true
  | .confirmTimeout => true
  | .replyTimeout => true
  | .wakeRingNudge _ => true
  | .controlWordPoll => true
  | .acceptReply startIndex => seqOk startIndex
  | .declineReply => true
  | .closeCapture => true
  | .openCapture startIndex => seqOk startIndex
  | .captureFrame => true
  | .loadTinder => true
  | .loadKindling => true
  | .imageLoadDone => true
  | .logMergeFlush unit detail => unitOk unit && halfOk detail
  | .engineRetest unit _ => unitOk unit
  | .dieDrain die => dieOk die
  | .drainTimeout die => dieOk die
  | .dieLogicOff die => dieOk die
  | .dieRelease die => dieOk die
  | .supervisorHeartbeat core _ => pairOk core
  | .failover => true
  | .failoverStandbyTestDone _ => true
  | .damper cause => causeOk cause
  | .enterSafe => true
  | .escalatePulseEnd => true
  | .watchStatus data => halfOk data
  | .watchCause data => halfOk data
  | .watchKick data => halfOk data
  | .watchSafe data => halfOk data
  | .watchFrameReject => true
  | .watchTimeout => true
  | .injectionDone _ dies => passesOk dies
  | .thermalSample temps => tempsOk temps
  | .thermalOffTimeout => true
  | .drbgReseed => true
  | .compatKeyLoad client => clientOk client
  | .compatKeyClear client => clientOk client
  | .keyAgreementMsg port m => pairOk port && KeyMsg.ok m
  | .keyAgreementRetry port => pairOk port
  | .rekeyNow port => pairOk port
  | .rekeyTimeout port => pairOk port
  | .ringFrame port f => pairOk port && RingFrame.ok f
  | .ringFrameNak port counter => pairOk port && counterOk counter
  | .hxrEnable port _ => pairOk port
  | .fwStage => true
  | .fwStageDone _ _ => true
  | .fwActivate => true
  | .fwDieUpdate die => dieOk die
  | .bootServingTimeout => true
  | .powerEntryCheck => true
  | .entryHandshakeTimeout => true
  | .wakePin => true
  | .rtcAlarm => true
  | .regulatorReady => true
  | .oscillatorReady => true
  | .memoryReady => true
  | .logicReady bootSel slotA slotB => bootSelOk bootSel && Option.all Image.ok slotA && Option.all Image.ok slotB
  | .rtcEdge => true
  | .timebaseHandback => true
  | .memRebuildDone => true
  | .autoResleep => true
  | .aonBrownout => true
  | .vinLoss => true
  | .vinPowerOn => true
  | .resetPinRise lowUs => seqOk lowUs
  | .resetPinColdTimeout => true
  | .warmReset => true
  | .coldReset => true
  | .hostPortReset => true
  | .dieIdleGate die => dieOk die
  | .dvfsStep die _ => dieOk die
  | .powerCapGrid => true
  | .powerCapAdjust heaviest => diesOk heaviest
  | .powerCapRestore => true
  | .uncertClear => true
  | .countLoRead block idx => barOk block && counterNoOk idx
  | .countHiWrite block idx _ => barOk block && counterNoOk idx
  | .countLoWrite block idx _ => barOk block && counterNoOk idx
  | .counterSnap block => barOk block
  | .dbgSnap _ => true
  | .dbgSnapCapture block => barOk block
  | .counterSample => true
  | .traceSync => true
  | .tracePacket p => TracePacket.ok p
  | .traceThrottleRelease die => dieOk die
  | .flueFrame => true
  | .traceEnable _ => true
  | .traceArm => true
  | .traceTriggerNow => true
  | .traceDrainEnd => true
  | .tensorWatchCopy n => fourOk n
  | .tensorWatchDone n => fourOk n
  | .indChannelOn n _ => indOk n
  | .indRampEnd n => indOk n
  | .indShortDetect n => indOk n
  | .indShortTimeout n _ => indOk n
  | .indFreezeTimeout => true
  | .indOpenDetect n => indOk n
  | .indRetry n => indOk n
  | .i3cTransfer n _ => fourOk n
  | .i3cTransferDone n _ data => fourOk n && dataOk data
  | .i3cIbi n addr => fourOk n && addr7Ok addr
  | .gpioEdge idx _ => gpioOk idx
  | .idcode => true
  | .samplePreload shiftIn pins => tapOk shiftIn && tapOk pins
  | .extest => true
  | .extestPulse => true
  | .extestTrain => true
  | .clamp => true
  | .highz => true
  | .bypass code => byteOk code
  | .reservedOpcode e _ => Eng.ok e
  | .islandFailure die => dieOk die
  | .hostLinkL0 speed width => speedOk speed && widthOk width
  | .ringPortTrained port => pairOk port
  | .watchUnknownCommand command => byteOk command
  | .standbyLockstepMismatch => true
  | .standbyTestDone _ => true

end Sys2Proof
end

