-- ==== Sys2Proof/Certificates/Slice0/Obligations.lean ====
section
/-! DEFINITION. The statements about the model, for the provers. Each docstring names the rules it formalises; a statement that rests
on a choice of the model says so and names the log entry. -/

open Sys2Proof Sys2Proof.Machine

/-- O1. For every command c and state s, a step of s with c at the front of its queue is exec of c on s with the queue's rest. (spec/95_what_each_step_holds.md) -/
def Obligations.StepRunsFrontCommand : Prop :=
  ∀ (c : Instr) (s : State) (rest : List Instr),
    step { s with pending := c :: rest } = exec c { s with pending := rest }

/-- O2. The model's choice (log 6). With no command waiting: (1) while the timebase does not count its own clock, a step changes nothing; (2) while it does, the step answers a next state whose timebase is one more (modulo 2^64) and whose queue is empty; (3) where no page operation is in progress, that state differs from the one before in the timebase and the status registers of the compute-logic dies alone. (spec/15_power_clocks_time.md) -/
def Obligations.IdleStepIsOneTick : Prop :=
  (∀ s : State, s.pending = [] → s.clockRuns = false → step s = .next s) ∧
  (∀ s : State, s.pending = [] → s.clockRuns = true →
    ∃ t, step s = .next t ∧ t.tb = (s.tb + 1) % 2 ^ 64 ∧ t.pending = []) ∧
  (∀ s : State, s.pending = [] → s.clockRuns = true → s.pageCmd = none →
    ∃ t, step s = .next t ∧ s.regsBut ((natRange 0 s.nDies).map Reg.CDG_STATUS) t ∧ t = { s with tb := t.tb, regs := t.regs })

/-- O3. The reset state has an empty queue, the start of the power-on sequence, no client, ring, step or run, memory in canonical form with nothing listed, and every register at its reset value; its variant and grade (VXP4, AQ) are the model's choice (log 1), and so is each register value that the spec does not give. (spec/15_power_clocks_time.md, spec/00_scope.md) -/
def Obligations.ResetState : Prop :=
  State.reset.pending = [] ∧ State.reset.mem = [] ∧ memoryWf State.reset.mem = true ∧
    State.reset.clients = [] ∧ State.reset.rings = [] ∧ State.reset.steps = [] ∧ State.reset.runs = [] ∧
    State.reset.power.phase = .regulator ∧ State.reset.variant = .vxp4 ∧ State.reset.grade = .aq ∧
    (∀ key, State.reset.reg key = (regReset .vxp4 .aq key).toNat) ∧
    State.reset.reg Reg.GLB_ID = 0x7A51B033

/-- O4. For every state whose memory is in canonical form (addresses rising strictly, no byte listed that equals what an unlisted byte reads as), each next state of a step has its memory in canonical form. That unlisted bytes read zero is the model's choice (log 2). (spec/10_memory_tiers_and_ecc.md, spec/00_scope.md) -/
def Obligations.MemoryStaysCanonical : Prop :=
  ∀ s t : State, memoryWf s.mem = true → step s = .next t → memoryWf t.mem = true

/-- O5. Every command answers a next state in every state: none faults and none is refused. That state has the queue, the variant and the grade it had before. (spec/00_scope.md) -/
def Obligations.CommandsKeepQueueAndPart : Prop :=
  ∀ (c : Instr) (s : State),
    ∃ t, exec c s = .next t ∧ t.pending = s.pending ∧ t.variant = s.variant ∧ t.grade = s.grade

/-- O6. From every state a step answers a next state, whose queue is the queue before without its first command, in the same order; the part's variant and grade never change. (spec/95_what_each_step_holds.md, spec/00_scope.md, spec/01_package_and_paths.md) -/
def Obligations.QueueIsFirstInFirstOut : Prop :=
  ∀ s : State, ∃ t, step s = .next t ∧ t.pending = s.pending.drop 1 ∧ t.variant = s.variant ∧ t.grade = s.grade

/-- O7. Each is recorded in HST_ACC_LOG with offset, cause and direction (`accLog`) and counted in HST_ACC_COUNT, which stops at its largest value; no other register changes, and nothing else changes but the host's answer and the log of corrected events. (1) A host access that is not an aligned 32-bit or 64-bit access completes: a read returns all ones, a write leaves the host's answer, and a class-0 record of it goes to the fault log (`logRecorded`). (2) An aligned access that meets no register completes: a read returns zero, a write leaves the host's answer, and a class-0 record of it goes to the fault log. (spec/00_scope.md, spec/17_pins_and_electrical.md) -/
def Obligations.RefusedHostAccesses : Prop :=
  (∀ (off size : Nat) (write : Bool) (s : State),
    misaligned off size = true →
    ∃ t : State, exec (.misalignedRegAccess off size write) s = .next (if write then t.logRecorded 0x8050 0
        else { t.logRecorded 0x8050 0 with hostRsp := List.replicate size 0xFF, hostPoison := false }) ∧
      t.reg Reg.HST_ACC_LOG = accLog off 0 write ∧
      t.fld Fld.HST_ACC_COUNT_count = min (s.fld Fld.HST_ACC_COUNT_count + 1) (2 ^ Fld.HST_ACC_COUNT_count.width - 1) ∧
      s.regsBut [Reg.HST_ACC_LOG, Reg.HST_ACC_COUNT] t ∧ t = { s with regs := t.regs }) ∧
  (∀ (off size : Nat) (write : Bool) (s : State),
    misaligned off size = false →
    s.meetsReg off size = false →
    ∃ t : State, exec (.emptyOffsetAccess off size write) s = .next (if write then t.logRecorded 0x8050 0
        else { t.logRecorded 0x8050 0 with hostRsp := List.replicate size 0, hostPoison := false }) ∧
      t.reg Reg.HST_ACC_LOG = accLog off 1 write ∧
      t.fld Fld.HST_ACC_COUNT_count = min (s.fld Fld.HST_ACC_COUNT_count + 1) (2 ^ Fld.HST_ACC_COUNT_count.width - 1) ∧
      s.regsBut [Reg.HST_ACC_LOG, Reg.HST_ACC_COUNT] t ∧ t = { s with regs := t.regs })

/-- O8. `readReg` is the register's value. (1) A 32-bit read of the low word of a register with a latch, in live logic, answers the low word and latches the high word of the same value; no register and no byte of memory changes. (2) A 64-bit read of a 64-bit register answers its eight bytes as they stand at one instant; no register, no latch and no byte of memory changes. (3) A 32-bit read of the high word, while the latch is full, answers the latch and empties it; nothing else changes. (4) With an empty latch it answers the current high word; no register, no latch and no byte of memory changes. (spec/00_scope.md) -/
def Obligations.LatchedReads : Prop :=
  (∀ (off : Nat) (d : RegDef) (s : State),
    s.regHere off = some (d, off) →
    off % 4 = 0 →
    hasLatch d off = true →
    s.logicDead off = false →
    ∃ t, exec (.latchedLowRead off false) s = .next t ∧
      t.hostRsp = leBytes (s.readReg off d.words).2 4 ∧ t.hostPoison = false ∧
      mapFind t.latch (s.keyOf off) = some (BitVec.ofNat 32 ((s.readReg off d.words).2 / 2 ^ 32)) ∧
      t = { s with latch := t.latch, hostRsp := t.hostRsp, hostPoison := t.hostPoison, drawn := t.drawn }) ∧
  (∀ (off : Nat) (d : RegDef) (s : State),
    s.regHere off = some (d, off) →
    off % 8 = 0 →
    d.words = 2 →
    ∃ t, exec (.latchedLowRead off true) s = .next t ∧ t.hostRsp = leBytes (s.readReg off 2).2 8 ∧ t.hostPoison = false ∧
      t = { s with hostRsp := t.hostRsp, hostPoison := t.hostPoison, drawn := t.drawn }) ∧
  (∀ (off : Nat) (d : RegDef) (s : State) (w : BitVec 32),
    s.regHere (off + 4) = some (d, off) →
    s.logicDead off = false →
    s.counterRead off = none →
    mapFind s.latch (s.keyOf off) = some w →
    ∃ t, exec (.latchedHighRead (off + 4)) s = .next t ∧ t.hostRsp = leBytes w.toNat 4 ∧ t.hostPoison = false ∧
      mapFind t.latch (s.keyOf off) = none ∧ t = { s with latch := t.latch, hostRsp := t.hostRsp, hostPoison := t.hostPoison }) ∧
  (∀ (off : Nat) (d : RegDef) (s : State),
    s.regHere (off + 4) = some (d, off) →
    s.logicDead off = false →
    s.counterRead off = none →
    mapFind s.latch (s.keyOf off) = none →
    ∃ t, exec (.latchedHighRead (off + 4)) s = .next t ∧ t.hostRsp = leBytes ((s.readReg off d.words).2 / 2 ^ 32) 4 ∧
      t.hostPoison = false ∧ t = { s with hostRsp := t.hostRsp, hostPoison := t.hostPoison, drawn := t.drawn })

/-- O9. Writes by REG_WRITE. (1) A misaligned write changes nothing through this command (MISALIGNED_REG_ACCESS records it). (2) A 32-bit write at an offset that holds no register changes nothing through it. (3) A 32-bit write of SCH_CLIENT_SEL stores its 12-bit client field, keeps the register below 2^12 if it was, and changes no other register and, but that a wait for auto-re-sleep ends where the conditions of SLEEP do not hold, nothing else. (4) A 32-bit write of a 32-bit register that is alive, has no row of its own, meets no discard rule, is under no enabled function and is not AUD_CTRL stores each field by its access code (`writeFields`, after the clamps of the register), and then has the effect of a write of that register (`afterWrite`); where the conditions of SLEEP do not hold after it, a wait for auto-re-sleep ends. (spec/00_scope.md, spec/02_work_and_the_ledger.md) -/
def Obligations.RegisterWrites : Prop :=
  (∀ (off : Nat) (wide : Bool) (v : W64) (s : State),
    (misaligned off (if wide then 8 else 4) = true) →
    exec (.regWrite off wide v) s = .next s) ∧
  (∀ (off : Nat) (v : W64) (s : State),
    s.regHere off = none →
    exec (.regWrite off false v) s = .next s) ∧
  (∀ (v : W64) (s : State),
    ∃ t, exec (.regWrite Reg.SCH_CLIENT_SEL false v) s = .next t ∧
      t.fld Fld.SCH_CLIENT_SEL_client = v.toNat % 4096 ∧ (s.reg Reg.SCH_CLIENT_SEL < 4096 → t.reg Reg.SCH_CLIENT_SEL < 4096) ∧
      s.regsBut [Reg.SCH_CLIENT_SEL] t ∧ t = { s with regs := t.regs, power := t.power } ∧ (s.entryError 1 = 0 → t.power = s.power)) ∧
  (∀ (off : Nat) (d : RegDef) (v : W64) (s t : State),
    off % 4 = 0 →
    s.regHere off = some (d, off) →
    d.words = 1 →
    off ≠ Reg.AUD_CTRL →
    s.logicDead off = false →
    s.ownRow off (v.toNat % 2 ^ 32) = false →
    s.discarded off (v.toNat % 2 ^ 32) = none →
    s.expertGuard off = none →
    t = State.afterWrite s
      (s.setReg (s.keyOf off) (writeFields (s.reg (s.keyOf off)) (s.heldBits off (s.reg (s.keyOf off))
        (s.storedValue off (v.toNat % 2 ^ 32))) (v.toNat % 2 ^ 32) d.fields)) off (s.reg (s.keyOf off))
      (writeFields (s.reg (s.keyOf off)) (s.heldBits off (s.reg (s.keyOf off)) (s.storedValue off (v.toNat % 2 ^ 32)))
        (v.toNat % 2 ^ 32) d.fields) (v.toNat % 2 ^ 32) →
    exec (.regWrite off false v) s = .next (if t.entryError 1 = 0 then t else t.breakResleep))

/-- O10. `barByte` is the byte of device memory at an address; it is absent where that byte cannot be read. (1) A BAR4 read of len bytes answers len bytes: each is the byte of device memory at `bar4_base` + off + k where that can be read; the answer is marked poisoned exactly where some byte cannot be read. (2) Beyond the end of device memory that byte is zero. (3) Where no word of memory and of a Hearth is in error, a BAR4 read changes nothing but the host's answer, the free values drawn and the access counts of pages. (4) A BAR4 write none of whose bytes falls in a backed page changes nothing. (5) A BAR4 write within one 64-byte line of a backed page is stored at the same offset of the page's frame, through the DRAM controller of its group. (6) There, a write of one whole 16-byte word of a line that waits in no merge buffer is stored at once: the word then reads as written without error, every other word of every group reads as before, and no byte outside it changes. (spec/10_memory_tiers_and_ecc.md, spec/17_pins_and_electrical.md) -/
def Obligations.Bar4Window : Prop :=
  (∀ (off len : Nat) (s : State),
    ∃ t, exec (.bar4Read off len) s = .next t ∧ t.hostRsp.length = len ∧
      (∀ k b, k < len → s.barByte (s.fld Fld.HST_BAR4_BASE_bar4_base + off + k) = some b → t.hostRsp.getD k 0 = b) ∧
      t.hostPoison = (natRange 0 len).any (fun k => (s.barByte (s.fld Fld.HST_BAR4_BASE_bar4_base + off + k)).isNone)) ∧
  (∀ (a : Nat) (s : State),
    s.deviceEnd ≤ a →
    s.barByte a = some 0) ∧
  (∀ (off len : Nat) (s : State),
    (∀ g, (s.dmc g).errs = []) →
    (∀ d, (s.hearth d).errs = []) →
    ∃ t, exec (.bar4Read off len) s = .next t ∧
      t = { s with hostRsp := t.hostRsp, hostPoison := t.hostPoison, drawn := t.drawn, access := t.access }) ∧
  (∀ (off : Nat) (data : List Byte) (s : State),
    (∀ k, k < data.length → s.deviceEnd ≤ s.fld Fld.HST_BAR4_BASE_bar4_base + off + k ∨
      (s.page ((s.fld Fld.HST_BAR4_BASE_bar4_base + off + k) / 0x200000)).state ≠ .backed) →
    exec (.bar4Write off data) s = .next s) ∧
  (∀ (off : Nat) (data : List Byte) (s : State) (a : Nat),
    a = s.fld Fld.HST_BAR4_BASE_bar4_base + off →
    0 < data.length →
    a % 64 + data.length ≤ 64 →
    a < s.deviceEnd →
    (s.page (a / 0x200000)).state = .backed →
    exec (.bar4Write off data) s = .next
      ((s.touch hubDie a data.length false).dramWrite (s.page (a / 0x200000)).group
        (0x200000 * (s.page (a / 0x200000)).frame + a % 0x200000) data)) ∧
  (∀ (g cw : Nat) (data : List Byte) (s : State),
    data.length = 16 →
    mergeOf (cw / 4) (s.dmc g).merge = none →
    s.dramWrite g (cw * 16) data = (s.markDirty g (cw * 16)).putWord g cw data ∧
      (s.dramWrite g (cw * 16) data).load (dramKey g (cw * 16)) 16 = data ∧
      (s.dramWrite g (cw * 16) data).wordError g cw = noError ∧
      (∀ a, a < dramKey g (cw * 16) ∨ dramKey g (cw * 16) + 16 ≤ a →
        memoryGet (s.dramWrite g (cw * 16) data).mem a = memoryGet s.mem a))

/-- O11. A link has an end `link` and an opposite end `v` (`peerEnd`). (1) Training of a link that is down and was never lost, with a working module, gives both ends 64, 64, 32 and 8 credits, empty retry buffers and new sequence numbers, shows both up with these modules and the repaired lanes (255 at most), and last sends ROUTE_UPDATE. (2) Training of a link that is up changes nothing. (3) A failed module leaves the link up at both ends on its other module: both show that module and `module_degraded`, the failed module's retry buffer is empty at both, of the registers only their two status registers change, of the rest only links and messages, and a class-0 record of it goes to the fault log (`logRecorded`). (4) The failure of the last module that works takes the link down (`linkDown`). (5) A link with both ends up that goes down loses both ends (`endLost`), the routes follow (`syncTopo`), ROUTE_UPDATE is sent, and each die that no route reaches is taken out. (6) An end that is lost shows down, no module and `down_seen`, keeps nothing waiting or unacknowledged, and has its retest timed from now. (7) ROUTE_UPDATE shows for each fitted die whether its hub link and its east and west ring links are up, in GLB_TOPO and in the die's CDG_STATUS, and changes no other register and nothing else. (spec/01_package_and_paths.md) -/
def Obligations.LinksTrainAndFail : Prop :=
  (∀ (link modules lanes v : Nat) (s : State),
    s.peerEnd link = some v →
    s.endUp link = false →
    (s.unit link).outSince = none →
    (s.unit v).outSince = none →
    modules % 4 ≠ 0 →
    ∃ t, exec (.linkTrained link modules lanes) s = .next t ∧
      t = (((s.trainEnd link (modules % 4) lanes).trainEnd v (modules % 4) lanes).syncTopo).send .routeUpdate ∧
      t.endUp link = true ∧ t.endUp v = true ∧
      t.fld (Fld.HXL_STATUS_modules_up (linkBlk link)) = modules % 4 ∧ t.fld (Fld.HXL_STATUS_modules_up (linkBlk v)) = modules % 4 ∧
      t.fld (Fld.HXL_STATUS_lanes_repaired (linkBlk link)) = min lanes 255 ∧
      t.fld (Fld.HXL_STATUS_lanes_repaired (linkBlk v)) = min lanes 255 ∧
      t.link link = { m0 := { lastAck := s.tb }, m1 := { lastAck := s.tb }, credits := [64, 64, 32, 8] } ∧
      t.link v = { m0 := { lastAck := s.tb }, m1 := { lastAck := s.tb }, credits := [64, 64, 32, 8] } ∧
      t.sent.head? = some .routeUpdate ∧ t.mem = s.mem) ∧
  (∀ (link modules lanes v : Nat) (s : State),
    s.peerEnd link = some v →
    s.endUp link = true →
    exec (.linkTrained link modules lanes) s = .next s) ∧
  (∀ (link module left v : Nat) (s : State),
    s.peerEnd link = some v →
    s.endUp link = true →
    bit (s.fld (Fld.HXL_STATUS_modules_up (linkBlk link))) (module % 2) = true →
    setBit (s.fld (Fld.HXL_STATUS_modules_up (linkBlk link))) (module % 2) false = left →
    left ≠ 0 →
    ∃ t : State, exec (.moduleFail link module) s = .next (t.logRecorded link 0) ∧
      t.fld (Fld.HXL_STATUS_modules_up (linkBlk link)) = left ∧ t.fld (Fld.HXL_STATUS_modules_up (linkBlk v)) = left ∧
      t.flag (Fld.HXL_STATUS_module_degraded (linkBlk link)) = true ∧ t.flag (Fld.HXL_STATUS_module_degraded (linkBlk v)) = true ∧
      t.endUp link = true ∧ t.endUp v = s.endUp v ∧
      ((t.link link).module (module % 2)).retry = [] ∧ ((t.link v).module (module % 2)).retry = [] ∧
      s.regsBut [Reg.HXL_STATUS (linkBlk link), Reg.HXL_STATUS (linkBlk v)] t ∧
      t = { s with regs := t.regs, links := t.links, sent := t.sent }) ∧
  (∀ (link module v : Nat) (s : State),
    s.peerEnd link = some v →
    s.endUp link = true →
    bit (s.fld (Fld.HXL_STATUS_modules_up (linkBlk link))) (module % 2) = true →
    setBit (s.fld (Fld.HXL_STATUS_modules_up (linkBlk link))) (module % 2) false = 0 →
    exec (.moduleFail link module) s = .next (s.linkDown link)) ∧
  (∀ (link v : Nat) (s : State),
    s.peerEnd link = some v →
    s.endUp link = true →
    (s.endLost link).endUp v = true →
    s.linkDown link = (((((s.endLost link).endLost v).syncTopo).send .routeUpdate).takeOutUnreached)) ∧
  (∀ (u : Nat) (s : State),
    (s.endLost u).endUp u = false ∧ (s.endLost u).fld (Fld.HXL_STATUS_modules_up (linkBlk u)) = 0 ∧
      (s.endLost u).flag (Fld.HXL_STATUS_down_seen (linkBlk u)) = true ∧
      (s.endLost u).link u = { s.link u with m0 := {}, m1 := {}, downAt := some s.tb, outbox := [], protoAt := [] } ∧
      ((s.endLost u).unit u).retestAt = s.tb) ∧
  (∀ (s : State),
    ∃ t, exec .routeUpdate s = .next t ∧
      (∀ d, d < s.nDies → bit (t.fld Fld.GLB_TOPO_hub_links_up) d = s.endUp (unitOf hubDie (0x080 + d)) ∧
        bit (t.fld Fld.GLB_TOPO_ring_links_up) d = (decide (1 < s.nDies) && s.endUp (unitOf d 0x081)) ∧
        t.flag (Fld.CDG_STATUS_hub_link_up d) = s.endUp (unitOf hubDie (0x080 + d)) ∧
        t.flag (Fld.CDG_STATUS_east_link_up d) = (decide (1 < s.nDies) && s.endUp (unitOf d 0x081)) ∧
        t.flag (Fld.CDG_STATUS_west_link_up d) =
          (decide (1 < s.nDies) && s.endUp (unitOf ((d + s.nDies - 1) % s.nDies) 0x081))) ∧
      s.regsBut (Reg.GLB_TOPO :: (natRange 0 s.nDies).map Reg.CDG_STATUS) t ∧ t = { s with regs := t.regs })

/-- O12. Each is stated of an end whose link and module are up. (1) A flit of the wrong length or with a bad CRC is counted, answered with `nak` of the last flit received in order, and delivers nothing: no other register and nothing else changes, but the corrected error goes to the fault log (`logCorrected`). (2) A flit with a good CRC that acknowledges without a `nak`, is next in order and holds only defined messages frees the flits it acknowledges, is the last flit received in order, returns its credits up to the class's number, lets waiting messages leave, delivers its messages in order (`deliver`) and is acknowledged with the slots freed. (3) One that carries no message frees the flits it acknowledges and returns its credits, whatever its flit number, and is not acknowledged. (4) The credits returned are added to those of the end, up to each class's number. (5) A `nak` frees the flits it acknowledges, counts one more replay, restarts the times of the flits that remain, adds their number to HXL_REPLAYS and lets waiting messages leave. (6) With seven replays counted already it takes the link down instead. (7) A flit that waits 2 µs since it was sent and since the last acknowledgement takes the link down. (spec/01_package_and_paths.md) -/
def Obligations.FlitsAndReplay : Prop :=
  (∀ (link module v : Nat) (flit : List Byte) (s : State),
    s.peerEnd link = some v →
    s.endUp link = true →
    bit (s.fld (Fld.HXL_STATUS_modules_up (linkBlk link))) (module % 2) = true →
    flit.length ≠ 256 ∨ (crc32c (flit.take 252)).toNat ≠ atOff flit 252 4 →
    ∃ t : State, exec (.flitReceive link module flit) s = .next (t.logCorrected link 0) ∧
      t.fld (Fld.HXL_CRC_crc_errors (linkBlk link)) = min (s.fld (Fld.HXL_CRC_crc_errors (linkBlk link)) + 1) (2 ^ 32 - 1) ∧
      t.sent = .nak link ((s.link link).module (module % 2)).rxSeq :: s.sent ∧
      s.regsBut [Reg.HXL_CRC (linkBlk link)] t ∧ t = { s with regs := t.regs, sent := t.sent }) ∧
  (∀ (link module v : Nat) (flit : List Byte) (ms : List Msg) (x : LinkModule) (s : State),
    s.peerEnd link = some v →
    s.endUp link = true →
    bit (s.fld (Fld.HXL_STATUS_modules_up (linkBlk link))) (module % 2) = true →
    flit.length = 256 →
    (crc32c (flit.take 252)).toNat = atOff flit 252 4 →
    bit (atOff flit 2 2) 12 = false →
    (s.link link).module (module % 2) = x →
    (((s.ackModule link (module % 2) (atOff flit 2 2 % 4096)).drainOutbox link).endUp link) = true →
    atOff flit 248 1 % 64 ≠ 0 →
    atOff flit 0 2 % 4096 = (x.rxSeq + 1) % 4096 →
    flitMsgs flit = some ms →
    exec (.flitReceive link module flit) s = .next
      ((forEach ms
        (((((s.ackModule link (module % 2) (atOff flit 2 2 % 4096)).drainOutbox link).takeCredits link flit).modLink link fun l =>
          l.setModule (module % 2) { l.module (module % 2) with rxSeq := (x.rxSeq + 1) % 4096 }).drainOutbox link)
        fun m t => t.deliver link m).sendAck link ((x.rxSeq + 1) % 4096))) ∧
  (∀ (link module v : Nat) (flit : List Byte) (s : State),
    s.peerEnd link = some v →
    s.endUp link = true →
    bit (s.fld (Fld.HXL_STATUS_modules_up (linkBlk link))) (module % 2) = true →
    flit.length = 256 →
    (crc32c (flit.take 252)).toNat = atOff flit 252 4 →
    bit (atOff flit 2 2) 12 = false →
    (((s.ackModule link (module % 2) (atOff flit 2 2 % 4096)).drainOutbox link).endUp link) = true →
    atOff flit 248 1 % 64 = 0 →
    exec (.flitReceive link module flit) s = .next
      ((((s.ackModule link (module % 2) (atOff flit 2 2 % 4096)).drainOutbox link).takeCredits link flit).drainOutbox link)) ∧
  (∀ (u : Nat) (flit : List Byte) (s : State),
    s.takeCredits u flit = s.modLink u fun l =>
      { l with credits := (natRange 0 4).map fun c => min (l.credits.getD c 0 + atOff flit (4 + c) 1) ([64, 64, 32, 8].getD c 0) }) ∧
  (∀ (link module ackSeq v : Nat) (x : LinkModule) (s : State),
    s.peerEnd link = some v →
    s.endUp link = true →
    bit (s.fld (Fld.HXL_STATUS_modules_up (linkBlk link))) (module % 2) = true →
    ((s.ackModule link (module % 2) (ackSeq % 4096)).link link).module (module % 2) = x →
    x.retry ≠ [] →
    x.replays < 7 →
    exec (.flitNakReplay link module ackSeq) s = .next
      ((((s.ackModule link (module % 2) (ackSeq % 4096)).modLink link fun l => l.setModule (module % 2) { x with
        replays := x.replays + 1, retry := x.retry.map fun f => { f with sentAt := s.tb } }).addFld
        (Fld.HXL_REPLAYS_replays (linkBlk link)) x.retry.length).drainOutbox link)) ∧
  (∀ (link module ackSeq v : Nat) (x : LinkModule) (s : State),
    s.peerEnd link = some v →
    s.endUp link = true →
    bit (s.fld (Fld.HXL_STATUS_modules_up (linkBlk link))) (module % 2) = true →
    ((s.ackModule link (module % 2) (ackSeq % 4096)).link link).module (module % 2) = x →
    x.retry ≠ [] →
    7 ≤ x.replays →
    exec (.flitNakReplay link module ackSeq) s = .next ((s.ackModule link (module % 2) (ackSeq % 4096)).linkDown link)) ∧
  (∀ (link module v : Nat) (f : Flit) (fs : List Flit) (s : State),
    s.peerEnd link = some v →
    bit (s.fld (Fld.HXL_STATUS_modules_up (linkBlk link))) (module % 2) = true →
    ((s.link link).module (module % 2)).retry = f :: fs →
    s.passedUs (max f.sentAt ((s.link link).module (module % 2)).lastAck) 2 = true →
    exec (.linkAckTimeout link module) s = .next (s.linkDown link))

/-- O13. `respondAs m op data mark own` sends the requester of m a response with opcode op and the epoch of unit own; `respond` takes the epoch of the unit addressed. (1) READ of host memory, with nothing refused or poisoned there, is answered with READ_DATA and the bytes stored. (2) WRITE of host memory stores the data there and is answered with WRITE_ACK. (3) READ and WRITE at a DRAM controller of a group that is up, with its epoch, add the given bit errors and are served by it (`atDmc`). (4) READ of a unit of a die that is not fitted is answered with BUS_ERROR. (5) READ of a Hearth or an engine of a fitted die whose gate is closed is answered with RETRY and the die's epoch. (6) READ_DATA that brings all that a request of a unit of this package is to read ends its wait; data for the host is the host's answer, with its mark. (7) Marked data of more than 16 B for a privileged requester is read again in pieces of 16 B, the first at the request's address (`readPiece`). (8) WRITE_ACK to a unit other than the translation unit and the ring ports ends the wait of its request. (9) RETRY from the unit that a request was sent to, which still stands, sends the request again with the new epoch. (10) BUS_ERROR ends the wait and fails the command of its requester, an engine, with 0x0D02. (11) A request whose route held a link that went down after it was sent, 5 µs ago at least, is sent again with `reissued`. (12) A host read of a running command that succeeds changes nothing; one with poisoned data fails the command with 0x0D02, one that times out or fails otherwise with 0x0D04 (`failEng`). (spec/01_package_and_paths.md, spec/10_memory_tiers_and_ecc.md) -/
def Obligations.RequestsAndResponses : Prop :=
  (∀ (m : Msg) (errs : List (Nat × List W16)) (s : State),
    m.hdr.opcode = 0x01 →
    m.hdr.dst = 0x8050 →
    hostBase ≤ m.hdr.addr →
    m.hdr.addr < addrEnd →
    s.env.refused = [] →
    s.env.poisoned = [] →
    exec (.read m errs) s = .next ((s.noteRequest m).respond m 0x41
      ((natRange 0 m.hdr.len).map fun k => memoryGet s.mem (hostKey m.hdr.client m.hdr.addr + k)) false)) ∧
  (∀ (m : Msg) (errs : List (Nat × List W16)) (s : State),
    m.hdr.opcode = 0x02 →
    m.hdr.dst = 0x8050 →
    hostBase ≤ m.hdr.addr →
    m.hdr.addr < addrEnd →
    m.hdr.clinker = false →
    s.env.refused = [] →
    exec (.write m errs) s = .next (((s.noteRequest m).store (hostKey m.hdr.client m.hdr.addr) (m.data.take m.hdr.len)).respond m 0x42 [] false)) ∧
  (∀ (m : Msg) (errs : List (Nat × List W16)) (d g : Nat) (s : State),
    m.hdr.dst = unitOf d (0x070 + g % 2) →
    (g = if d = hubDie then g % 2 else 2 + 2 * d + g % 2) →
    (d ≠ hubDie → s.fitted d = true) →
    s.groupUp g = true →
    m.hdr.epoch = s.epoch m.hdr.dst →
    s.epochPending m.hdr.dst = false →
    (m.hdr.opcode = 0x01 → exec (.read m errs) s = .next (((s.noteRequest m).addErrors g errs).atDmc true g m)) ∧
      (m.hdr.opcode = 0x02 → exec (.write m errs) s = .next (((s.noteRequest m).addErrors g errs).atDmc false g m))) ∧
  (∀ (m : Msg) (errs : List (Nat × List W16)) (d : Nat) (s : State),
    m.hdr.dst / 4096 = d →
    d ≠ hubDie →
    m.hdr.opcode = 0x01 →
    s.fitted d = false →
    exec (.read m errs) s = .next ((s.noteRequest m).respond m 0x44 [] false)) ∧
  (∀ (m : Msg) (errs : List (Nat × List W16)) (d : Nat) (s : State),
    m.hdr.dst / 4096 = d →
    d ≠ hubDie →
    m.hdr.opcode = 0x01 →
    s.fitted d = true →
    (s.dieSt d).gate = false →
    m.hdr.dst % 4096 = 0x050 ∨ dieEngines.contains (m.hdr.dst % 4096) = true →
    exec (.read m errs) s = .next ((s.noteRequest m).respondAs m 0x43 [] false (dieUnit d))) ∧
  (∀ (m : Msg) (w : Waiting) (s : State),
    s.waitingFor m = some w →
    w.left = 0 →
    m.hdr.clinker = false ∨ m.hdr.len ≤ 16 ∨ privilegedUnit m.hdr.dst = false →
    portOfUnit m.hdr.dst = none →
    ∃ t, exec (.readData m) s = .next t ∧ t.waitingFor m = none ∧
      (m.hdr.dst = 0x8050 → t.hostRsp = w.got ++ m.data.take m.hdr.len ∧ t.hostPoison = (w.marked || m.hdr.clinker)) ∧
      (m.hdr.dst ≠ 0x8050 → t.hostRsp = s.hostRsp) ∧
      t = { s with waiting := t.waiting, hostRsp := t.hostRsp, hostPoison := t.hostPoison }) ∧
  (∀ (m : Msg) (w : Waiting) (s : State),
    s.waitingFor m = some w →
    w.left = 0 →
    m.hdr.clinker = true →
    16 < m.hdr.len →
    privilegedUnit m.hdr.dst = true →
    exec (.readData m) s = .next (s.readPiece w w.msg.hdr.addr m.hdr.len [] false)) ∧
  (∀ (m : Msg) (s : State),
    m.hdr.dst ≠ 0x8030 →
    portOfUnit m.hdr.dst = none →
    ∃ t, exec (.writeAck m) s = .next t ∧ t.waitingFor m = none ∧ t = { s with waiting := t.waiting }) ∧
  (∀ (m : Msg) (w : Waiting) (s : State),
    m.hdr.dst ≠ 0x8030 →
    s.waitingFor m = some w →
    m.hdr.src = w.msg.hdr.dst →
    m.hdr.src % 4096 < 0x080 ∨ 0x086 < m.hdr.src % 4096 →
    w.msg.hdr.dst / 4096 = hubDie ∨ s.logicUp (w.msg.hdr.dst / 4096) = true →
    exec (.retry m) s = .next ((s.waitAgain w { w.msg with hdr := { w.msg.hdr with epoch := m.hdr.epoch } }).sendMsg
      { w.msg with hdr := { w.msg.hdr with epoch := m.hdr.epoch } })) ∧
  (∀ (m : Msg) (w : Waiting) (r : Run) (s : State),
    s.waitingFor m = some w →
    portOfUnit w.src = none →
    (s.answered m).runOn? (w.src / 4096) (w.src % 4096) = some r →
    exec (.busError m) s = .next ((s.answered m).failFinal r w.src 0x0D02)) ∧
  (∀ (src tag u x : Nat) (w : Waiting) (s : State),
    ((s.waiting.find? fun w => decide (w.src = src) && decide (w.tag = tag)) = some w) →
    u ∈ w.via →
    (s.link u).downAt = some x →
    w.since ≤ x →
    s.passedUs x 5 = true →
    exec (.requestReissue src tag) s = .next ((s.waitAgain w { w.msg with hdr := { w.msg.hdr with reissued := true } }).sendMsg
      { w.msg with hdr := { w.msg.hdr with reissued := true } })) ∧
  (∀ (e : Eng) (r : Run) (g : EngRun) (s : State),
    s.engOf e = some (r, g) →
    r.tallySent = false →
    exec (.hostReadCompletion e .success) s = .next s ∧ exec (.hostReadCompletion e .poisoned) s = .next (s.failEng e 0x0D02) ∧
      exec (.hostCompletionTimeout e) s = .next (s.failEng e 0x0D04))

/-- O14. Through an open doorbell of an attached client: (1) a nudge that names a RingId outside the client's range, or that has a non-zero reserved field, is discarded: the client's count of rejected doorbell writes rises by one (t), and nothing else changes but that a class-0 record goes to the fault log (`logRecorded`). (2) the same of a ring-control word, whichever of START, STOP and DRAIN it is sent as. (R61) -/
def Obligations.DoorbellRejections : Prop :=
  (∀ (function client : Nat) (word : W32) (s : State),
    s.doorbellOpen function client = true →
    s.attached client = true →
    s.ringOf client (bits word.toNat 0 20) = false ∨ bits word.toNat 20 12 ≠ 0 →
    ∃ t : State, exec (.nudge function client word) s = .next (t.logRecorded unitSched 0 client) ∧
      mapGet (t.client client).acct acDoorbell 0 = mapGet (s.client client).acct acDoorbell 0 + 1 ∧
      (∀ c, c ≠ client → t.client c = s.client c) ∧ t = { s with clients := t.clients }) ∧
  (∀ (function client : Nat) (word : W32) (s : State),
    s.doorbellOpen function client = true →
    s.attached client = true →
    s.ringOf client (bits word.toNat 0 20) = false ∨ bits word.toNat 24 8 ≠ 0 →
    ∃ t : State, exec (.ringStart function client word) s = .next (t.logRecorded unitSched 0 client) ∧
      exec (.ringStop function client word) s = .next (t.logRecorded unitSched 0 client) ∧
      exec (.ringDrain function client word) s = .next (t.logRecorded unitSched 0 client) ∧
      mapGet (t.client client).acct acDoorbell 0 = mapGet (s.client client).acct acDoorbell 0 + 1 ∧
      (∀ c, c ≠ client → t.client c = s.client c) ∧ t = { s with clients := t.clients })

/-- O15. Of a word through an open doorbell of an attached client that names a ring r of the client, with reserved bits zero: (1) while work is served, a nudge for a ring that accepts steps makes it active (`wakeRing`), and asks for its doorbell record. (2) Such a ring is then active and used now, and with no more than 2,048 active rings nothing else changes. (3) START of a ring that is DISABLED, STOPPED or in ERROR, whose context can be read and keeps the rules (`contextOk`), takes the context's addresses and settings, is ACTIVE without error, and has its head record written. (4) A context that breaks a rule puts the ring into ERROR with error 1. (5) One that cannot be read puts it into ERROR with error 3. (6) START of a ring that is ACTIVE, QUIET or STOPPING changes nothing. (7) STOP of a ring that is neither DISABLED nor STOPPED makes it STOPPING, completes CANCELLED each of its steps without a tallied command, writes the head record, and with no step left makes it STOPPED (`settleRing`). (8) STOP of a STOPPED ring changes nothing. (9) DRAIN of a ring that accepts steps makes it STOPPING with its head record written, and with no step left STOPPED. (spec/02_work_and_the_ledger.md, spec/03_scheduling_and_shares.md) -/
def Obligations.DoorbellsAreServed : Prop :=
  (∀ (function client : Nat) (word : W32) (r : Nat) (s : State),
    s.doorbellOpen function client = true →
    s.attached client = true →
    bits word.toNat 0 20 = r →
    s.ringOf client r = true →
    bits word.toNat 20 12 = 0 →
    s.serving = true →
    (s.ring r).accepts = true →
    exec (.nudge function client word) s = .next ((s.wakeRing r).modRing r fun y => { y with reading := true })) ∧
  (∀ (r : Nat) (s : State),
    (s.ring r).accepts = true →
    s.rings.length < 2048 →
    s.wakeRing r = s.modRing r fun x => { x with state := .active, lastUse := s.tb }) ∧
  (∀ (function client : Nat) (word : W32) (r : Nat) (b : List Byte) (s : State),
    s.doorbellOpen function client = true →
    s.attached client = true →
    bits word.toNat 0 20 = r →
    s.ringOf client r = true →
    bits word.toNat 20 4 = 1 →
    bits word.toNat 24 8 = 0 →
    s.isWakeRing client r = false →
    s.rebuilding = false →
    (s.ring r).accepts = false →
    (s.ring r).state ≠ .stopping →
    s.cread client (s.fld (Fld.SCH_CLIENT_RCT_rct_base client) + (r - s.firstRing client) * 64) 64 = .ok b →
    s.contextOk b = true →
    exec (.ringStart function client word) s = .next
      (((((s.modRing r fun y => { y with client := client }).fetchHub
          (s.fld (Fld.SCH_CLIENT_RCT_rct_base client) + (r - s.firstRing client) * 64) 64).modRing r fun y =>
        { y with
          stepBase := leNat (b.take 8), cplBase := leNat ((b.drop 8).take 8), dbAddr := leNat ((b.drop 16).take 8),
          headAddr := some (leNat ((b.drop 24).take 8)), log2 := leNat ((b.drop 32).take 1), irqMode := leNat ((b.drop 33).take 1),
          vector := leNat ((b.drop 34).take 2), state := .active, error := 0, lastUse := s.tb, checked := none }).limitActive).writeHead r)) ∧
  (∀ (function client : Nat) (word : W32) (r : Nat) (b : List Byte) (s : State),
    s.doorbellOpen function client = true →
    s.attached client = true →
    bits word.toNat 0 20 = r →
    s.ringOf client r = true →
    bits word.toNat 20 4 = 1 →
    bits word.toNat 24 8 = 0 →
    s.isWakeRing client r = false →
    s.rebuilding = false →
    (s.ring r).accepts = false →
    (s.ring r).state ≠ .stopping →
    s.cread client (s.fld (Fld.SCH_CLIENT_RCT_rct_base client) + (r - s.firstRing client) * 64) 64 = .ok b →
    s.contextOk b = false →
    exec (.ringStart function client word) s = .next
      ((((s.modRing r fun y => { y with client := client }).fetchHub
          (s.fld (Fld.SCH_CLIENT_RCT_rct_base client) + (r - s.firstRing client) * 64) 64).modRing r fun y =>
        { y with headAddr := s.contextHead b y.headAddr }).ringError r 1)) ∧
  (∀ (function client : Nat) (word : W32) (r d : Nat) (s : State),
    s.doorbellOpen function client = true →
    s.attached client = true →
    bits word.toNat 0 20 = r →
    s.ringOf client r = true →
    bits word.toNat 20 4 = 1 →
    bits word.toNat 24 8 = 0 →
    s.isWakeRing client r = false →
    s.rebuilding = false →
    (s.ring r).accepts = false →
    (s.ring r).state ≠ .stopping →
    s.cread client (s.fld (Fld.SCH_CLIENT_RCT_rct_base client) + (r - s.firstRing client) * 64) 64 = .error d →
    exec (.ringStart function client word) s = .next
      (((s.modRing r fun y => { y with client := client }).fetchHub
          (s.fld (Fld.SCH_CLIENT_RCT_rct_base client) + (r - s.firstRing client) * 64) 64).ringError r 3)) ∧
  (∀ (function client : Nat) (word : W32) (r : Nat) (s : State),
    s.doorbellOpen function client = true →
    s.attached client = true →
    bits word.toNat 0 20 = r →
    s.ringOf client r = true →
    bits word.toNat 20 4 = 1 →
    bits word.toNat 24 8 = 0 →
    s.rebuilding = false →
    (s.ring r).accepts = true ∨ (s.ring r).state = .stopping →
    exec (.ringStart function client word) s = .next s) ∧
  (∀ (function client : Nat) (word : W32) (r : Nat) (s : State),
    s.doorbellOpen function client = true →
    s.attached client = true →
    bits word.toNat 0 20 = r →
    s.ringOf client r = true →
    bits word.toNat 20 4 = 2 →
    bits word.toNat 24 8 = 0 →
    (s.ring r).state ≠ .disabled →
    (s.ring r).state ≠ .stopped →
    exec (.ringStop function client word) s = .next
      ((((forEach ((((s.endHeld r).modRing r fun y => { y with state := .stopping, checked := none })).stepsOf r)
        ((s.endHeld r).modRing r fun y => { y with state := .stopping, checked := none }) fun st t =>
          if st.cmds.any Cmd.isTallied then t else t.decideStep r st.seq stCancelled 0 0xFF)).writeHead r).settleRing r)) ∧
  (∀ (function client : Nat) (word : W32) (r : Nat) (s : State),
    s.doorbellOpen function client = true →
    s.attached client = true →
    bits word.toNat 0 20 = r →
    s.ringOf client r = true →
    bits word.toNat 20 4 = 2 →
    bits word.toNat 24 8 = 0 →
    (s.ring r).state = .stopped →
    exec (.ringStop function client word) s = .next s) ∧
  (∀ (function client : Nat) (word : W32) (r : Nat) (s : State),
    s.doorbellOpen function client = true →
    s.attached client = true →
    bits word.toNat 0 20 = r →
    s.ringOf client r = true →
    bits word.toNat 20 4 = 3 →
    bits word.toNat 24 8 = 0 →
    (s.ring r).accepts = true →
    exec (.ringDrain function client word) s = .next
      ((((s.endHeld r).modRing r fun y => { y with state := .stopping, checked := none }).writeHead r).settleRing r))

/-- O16. The client is the one that SCH_CLIENT_SEL selects. (1) An attach whose checks pass (`attachError` 0), outside the state FAILED, leaves the client attached to the function written (6 bits), with attach error 0, a new key, no ring of its own and no accounting; no other register, no other client and nothing else changes. (2) One whose checks fail records the function written and its error code, and changes no other register and nothing else. (3) Detaching an attached client stops its camera channels, sets `detaching`, and applies STOP (`stopRing`) to each of its rings. (4) Detaching a client that is not attached changes nothing. (spec/02_work_and_the_ledger.md, spec/13_faults_safety_recovery.md) -/
def Obligations.ClientsAttachAndDetach : Prop :=
  (∀ (function : Nat) (s : State),
    s.fld Fld.SAF_STATUS_state ≠ safFailed →
    (s.setFld (Fld.SCH_CLIENT_CTRL_function s.selected) (function % 64)).attachError s.selected (function % 64) = 0 →
    ∃ t, exec (.clientAttach function) s = .next t ∧ t.attached s.selected = true ∧
      t.ownerFn s.selected = function % 64 ∧ t.fld (Fld.SCH_CLIENT_CTRL_attach_error s.selected) = 0 ∧
      t.client s.selected = {} ∧ (∀ c, c ≠ s.selected → t.client c = s.client c) ∧
      (t.rings.any fun x => s.ringOf s.selected x.1) = false ∧ (mapFind t.keys.clientKeys s.selected).isSome = true ∧
      s.regsBut [clientKey s.selected Reg.SCH_CLIENT_CTRL] t ∧
      t = { s with regs := t.regs, keys := t.keys, clients := t.clients, rings := t.rings }) ∧
  (∀ (function : Nat) (s : State),
    s.fld Fld.SAF_STATUS_state ≠ safFailed →
    (s.setFld (Fld.SCH_CLIENT_CTRL_function s.selected) (function % 64)).attachError s.selected (function % 64) ≠ 0 →
    ∃ t, exec (.clientAttach function) s = .next t ∧ t.attached s.selected = s.attached s.selected ∧
      t.ownerFn s.selected = function % 64 ∧
      t.fld (Fld.SCH_CLIENT_CTRL_attach_error s.selected) =
        (s.setFld (Fld.SCH_CLIENT_CTRL_function s.selected) (function % 64)).attachError s.selected (function % 64) ∧
      s.regsBut [clientKey s.selected Reg.SCH_CLIENT_CTRL] t ∧ t = { s with regs := t.regs }) ∧
  (∀ (s : State),
    s.attached s.selected = true →
    s.detaching s.selected = false →
    exec .clientDetach s = .next
      (forEach (s.ringsOf s.selected)
        ((forEach ((natRange 0 16).filter fun k => decide (s.fld (Fld.CAM_CH_OWNER_client k) = s.selected) &&
          s.flag (Fld.CAM_CH_CTRL_enable k)) s fun k t => t.stopChannel k).setFlag
            (Fld.SCH_CLIENT_CTRL_detaching s.selected) true) fun r t => t.stopRing r)) ∧
  (∀ (s : State),
    s.attached s.selected = false →
    exec .clientDetach s = .next s)

/-- O17. Of rings and their doorbell records: (1) While work is served, an active sweep asks for the doorbell record of every active ring, and changes no other ring and nothing else. (2) A quiet sweep asks for the doorbell record of the first quiet ring after the last one swept. (3) After the last quiet ring it starts again with the first. (4) An active ring becomes quiet 10 ms after its last use, and its head record is written. (5) A doorbell record asked for and read, with no page operation resumed: a tail below the one held is ignored; another is held; one beyond the ring is held and puts the ring into ERROR with error 2. (6) A record that cannot be read puts the ring into ERROR with error 3. (7) A ring in ERROR (`ringError`) keeps the code, has no checked step, its head record written, and a class-0 record with its RingId in the fault log. (8) The accounting write writes the block of every attached client (`writeAcct`). (9) For a client with a block it charges the waits, writes the generation one higher, then the whole block with the generation two higher, and keeps that generation; for a client without one it changes nothing. (spec/02_work_and_the_ledger.md, spec/03_scheduling_and_shares.md) -/
def Obligations.RingSweeps : Prop :=
  (∀ (s : State),
    s.serving = true →
    ∃ t, exec .activeSweep s = .next t ∧
      t.rings = s.rings.map (fun x => if x.2.state = .active then (x.1, { x.2 with reading := true }) else x) ∧ t = { s with rings := t.rings }) ∧
  (∀ (r : Nat) (s : State),
    s.serving = true →
    (((s.rings.filter fun x => decide (x.2.state = .quiet)).map (·.1)).find? (fun q => decide (s.sweepAt < q)) = some r) →
    exec .quietSweep s = .next { s.modRing r (fun x => { x with reading := true }) with sweepAt := r }) ∧
  (∀ (r : Nat) (s : State),
    s.serving = true →
    (((s.rings.filter fun x => decide (x.2.state = .quiet)).map (·.1)).find? (fun q => decide (s.sweepAt < q)) = none) →
    (((s.rings.filter fun x => decide (x.2.state = .quiet)).map (·.1)).head? = some r) →
    exec .quietSweep s = .next { s.modRing r (fun x => { x with reading := true }) with sweepAt := r }) ∧
  (∀ (r : Nat) (s : State),
    (s.ring r).state = .active →
    s.passedUs (s.ring r).lastUse 10000 = true →
    exec (.ringQuietTimeout r) s = .next ((s.modRing r fun y => { y with state := .quiet }).writeHead r)) ∧
  (∀ (r tail : Nat) (s s1 : State),
    (s.ring r).reading = true →
    s.serving = true →
    s.pageCmdResumed = false →
    (s.ring r).accepts = true →
    (s1 = (s.modRing r fun y => { y with reading := false }).fetchHub (s.ring r).dbAddr 8) →
    s1.cread64 (s.ring r).client (s.ring r).dbAddr = .ok tail →
    (tail < (s.ring r).tail → exec (.doorbellRead r) s = .next s1) ∧
      ((s.ring r).tail ≤ tail → tail - (s.ring r).released ≤ 2 ^ (s.ring r).log2 →
        exec (.doorbellRead r) s = .next (s1.modRing r fun y => { y with tail := tail })) ∧
      ((s.ring r).tail ≤ tail → 2 ^ (s.ring r).log2 < tail - (s.ring r).released →
        exec (.doorbellRead r) s = .next ((s1.modRing r fun y => { y with tail := tail }).ringError r 2))) ∧
  (∀ (r d : Nat) (s s1 : State),
    (s.ring r).reading = true →
    s.serving = true →
    s.pageCmdResumed = false →
    (s.ring r).accepts = true →
    (s1 = (s.modRing r fun y => { y with reading := false }).fetchHub (s.ring r).dbAddr 8) →
    s1.cread64 (s.ring r).client (s.ring r).dbAddr = .error d →
    exec (.doorbellRead r) s = .next (s1.ringError r 3)) ∧
  (∀ (r code : Nat) (s : State),
    s.ringError r code = (((s.endHeld r).modRing r fun x => { x with state := .error, error := code, checked := none }).logRecorded
      unitSched 0 (s.ring r).client r).writeHead r) ∧
  (∀ (s : State),
    exec .acctWrite s = .next (forEach s.attachedClients s fun c t => t.writeAcct c)) ∧
  (∀ (c base gen : Nat) (s : State),
    base = s.fld (Fld.SCH_CLIENT_ACCT_acct_base c) →
    gen = mapGet ((s.chargeWaits c).client c).acct 8 0 →
    (base = 0 → s.writeAcct c = s) ∧
      (base ≠ 0 → s.writeAcct c =
        ((((s.chargeWaits c).sysWrite hostPf (base + 8) (leBytes (gen + 1) 8)).sysWrite hostPf base
          (((s.chargeWaits c).sysWrite hostPf (base + 8) (leBytes (gen + 1) 8)).acctBlock c (gen + 2))).acct c 8 2)))

/-- O18. While work is served: (1) the step at the head of a ring that accepts steps, with a tail beyond its head and no checked step, is fetched and checked (`checkStep`), and held as checked. (2) A descriptor that cannot be read gives a step that is rejected with FAULT_DESCRIPTOR, detail 0x0501 and no index. (3) A checked step, with fewer than 256 steps of the ring and 8,192 of the package unreleased, is accepted: it joins the ledger's steps at the present time, the head advances, nothing is held, the ring is used, its commit point and head record follow, a STEP_ACCEPT packet is made; a step not rejected already is taken in (`takeIn`). (4) This is what `acceptStep` does; a wait for auto-re-sleep ends with it. (5) With 256 steps of the ring unreleased the ring waits, with the time at which the wait began, and nothing else changes. (6) With 8,192 of the package it waits likewise, for the ledger. (7) A step neither decided nor dispatched is refused where its deadline or load says so (`lateReason`), and left where not. (8) The step that the ring releases next, once decided and watched by no dump, has its 32-byte record written to its slot of the completion ring, leaves the ledger, and is released: the accounts, the head record, a STEP_RELEASE packet and the interrupt that the ring or the step asks for follow. (9) The budget check acts on every step whose budget has expired (`overBudget`). (spec/02_work_and_the_ledger.md, spec/03_scheduling_and_shares.md) -/
def Obligations.StepsAreAcceptedAndReleased : Prop :=
  (∀ (r : Nat) (s s1 : State),
    s.serving = true →
    (s.ring r).accepts = true →
    (s.ring r).head < (s.ring r).tail →
    (s.ring r).checked = none →
    (s1 = forEach (s.stepReads r) s fun x t => t.fetchHub x.1 x.2) →
    exec (.stepCheck r) s = .next ((s1.checkStep r).1.modRing r fun y => { y with checked := some (s1.checkStep r).2 })) ∧
  (∀ (r d : Nat) (s : State),
    s.feRead (s.ring r).client ((s.ring r).stepBase + (s.ring r).head % 2 ^ (s.ring r).log2 * 64) 64 = .error d →
    (s.checkStep r).2 = rejectStep { ring := r, seq := (s.ring r).head, client := (s.ring r).client, userTag := s.drawWord.2 }
      ⟨stFaultDescriptor, 0x0501, 0xFF⟩) ∧
  (∀ (r : Nat) (st : Step) (s : State),
    (s.ring r).checked = some st →
    s.serving = true →
    (s.ring r).accepts = true →
    (s.ring r).head < (s.ring r).tail →
    (s.ring r).head - (s.ring r).released < 256 →
    s.steps.length < 8192 →
    exec (.stepAccept r) s = .next (s.acceptStep r st)) ∧
  (∀ (r : Nat) (st : Step) (s t : State),
    (t = ((((((({ s.chargeWaits st.client with steps := (s.chargeWaits st.client).steps ++ [{ st with acceptedAt := (s.chargeWaits st.client).tb }] } : State).breakResleep).modRing r fun y =>
      { y with head := y.head + 1, checked := none, heldWindow := none, heldLedger := none }).wakeRing r).noteCommit r).writeHead r).packet
        0x10 unitSched st.client (seqRing st.seq r ++ leBytes st.cmds.length 2))) →
    (st.status.isSome = true → s.acceptStep r st = t) ∧ (st.status = none → s.acceptStep r st = t.takeIn st)) ∧
  (∀ (r : Nat) (st : Step) (s : State),
    (s.ring r).checked = some st →
    s.serving = true →
    (s.ring r).accepts = true →
    (s.ring r).head < (s.ring r).tail →
    256 ≤ (s.ring r).head - (s.ring r).released →
    exec (.stepAccept r) s = .next (s.modRing r fun y => { y with heldWindow := some (y.heldWindow.getD s.tb) })) ∧
  (∀ (r : Nat) (st : Step) (s : State),
    (s.ring r).checked = some st →
    s.serving = true →
    (s.ring r).accepts = true →
    (s.ring r).head < (s.ring r).tail →
    (s.ring r).head - (s.ring r).released < 256 →
    8192 ≤ s.steps.length →
    exec (.stepAccept r) s = .next (s.modRing r fun y => { y with heldLedger := some (y.heldLedger.getD s.tb) })) ∧
  (∀ (r seq : Nat) (st : Step) (s : State),
    s.step? r seq = some st →
    st.committed = false →
    st.dispatched = false →
    s.serving = true →
    (s.lateReason st = none → exec (.refusalRecheck r seq) s = .next s) ∧
      (∀ x d, s.lateReason st = some (x, d) → exec (.refusalRecheck r seq) s = .next (s.refuse st x d))) ∧
  (∀ (r code : Nat) (st : Step) (s t u : State),
    s.releasable r = some (st, code) →
    s.serving = true →
    (t = ((({ (s.devWrite (s.ring r).client ((s.ring r).cplBase + st.seq % 2 ^ (s.ring r).log2 * 32)
          (st.record code (s.usSince st.acceptedAt))) with
        steps := (s.devWrite (s.ring r).client ((s.ring r).cplBase + st.seq % 2 ^ (s.ring r).log2 * 32)
          (st.record code (s.usSince st.acceptedAt))).steps.filter fun y => !(decide (y.ring = r) && decide (y.seq = st.seq)) } : State).modRing r
        fun y => { y with released := st.seq + 1 }).noteCommit r).acctRelease (s.ring r).client code) →
    u = (t.writeHead r).packet 0x15 unitSched (s.ring r).client (seqRing st.seq r ++ leBytes code 1 ++ leBytes st.cflags 1) →
    exec (.stepRelease r) s = .next ((((if (s.ring r).irqMode = 1 ∨ ((s.ring r).irqMode = 2 ∧ st.notify = true) then
        u.msix (u.ownerFn (s.ring r).client) (s.ring r).vector else u).settleRing r).settleHeld).refreshReady)) ∧
  (∀ (s : State),
    s.serving = true →
    exec .budgetCheck s = .next (forEach s.steps s fun st t => match t.step? st.ring st.seq with
      | some x => if t.budgetExpired x then t.overBudget x else t
      | none => t))

/-- O19. Of a command that the scheduler has placed at a die: (1) a PLACE or a KILL that the die cannot take now (its gate is closed, or the message's epoch is stale: `bounceReason`) is answered with BOUNCE and that reason, and changes nothing else but a trace packet. (2) The reason is 3 with the gate closed, else 0 with a stale epoch or an advance pending, else none. (3) A PLACE without enough free engines is answered with BOUNCE of reason 1. (4) One that finds engines but no free table entry is answered with BOUNCE of reason 2. (5) One that finds both starts a run of the command on these engines (`startRun`). (6) The run started is the last of the runs: it is of this die, entry, kind, command and client, began now and has these engines, none of them ended. (7) A KILL that the die takes ends the run that it names, unless its TALLY is sent (`takeKill`). (8) The run ends (`killRun`), and one that was pre-empted counts in its client's pre-emptions. (9) A BOUNCE of a PLACE tells the scheduler the die's epoch, counts in the client's bounces, and makes the command wait again, ready since it was placed. (10) A BOUNCE of a TALLY sends it again under the tally unit's epoch (`tallyAgain`), and one of a KILL the KILL (`killAgain`). (11) A notice sets the epoch that the scheduler knows of the unit; with no run whose TALLY was sent, it changes that alone. (12) An advance of an epoch that was deferred is made once 1 µs has passed since the last. (spec/02_work_and_the_ledger.md, spec/03_scheduling_and_shares.md, spec/04_tile_programs.md) -/
def Obligations.DispatchAndBounce : Prop :=
  (∀ (die reason : Nat) (m : Dispatch) (s : State),
    s.bounceReason die m = some reason →
    exec (.dispatchPlace die m) s = .next (s.sendBounce die m reason) ∧ exec (.dispatchKill die m) s = .next (s.sendBounce die m reason)) ∧
  (∀ (die : Nat) (m : Dispatch) (s : State),
    s.bounceReason die m = if s.logicUp die = false then some 3
      else if m.headerEpoch ≠ s.epoch (dieUnit die) ∨ s.epochPending (dieUnit die) = true then some 0 else none) ∧
  (∀ (die at_ : Nat) (m : Dispatch) (st : Step) (c : Cmd) (s : State),
    s.step? m.ring m.seq = some st →
    st.cmd? m.index = some c →
    c.state = .placed die at_ →
    s.bounceReason die m = none →
    s.takeEngines die m st.client c = none →
    exec (.dispatchPlace die m) s = .next (s.sendBounce die m 1)) ∧
  (∀ (die at_ : Nat) (m : Dispatch) (st : Step) (c : Cmd) (ns : List Nat) (s : State),
    s.step? m.ring m.seq = some st →
    st.cmd? m.index = some c →
    c.state = .placed die at_ →
    s.bounceReason die m = none →
    s.takeEngines die m st.client c = some ns →
    s.freeEntry die = none →
    exec (.dispatchPlace die m) s = .next (s.sendBounce die m 2)) ∧
  (∀ (die at_ e : Nat) (m : Dispatch) (st : Step) (c : Cmd) (ns : List Nat) (s : State),
    s.step? m.ring m.seq = some st →
    st.cmd? m.index = some c →
    c.state = .placed die at_ →
    s.bounceReason die m = none →
    s.takeEngines die m st.client c = some ns →
    s.freeEntry die = some e →
    exec (.dispatchPlace die m) s = .next ((s.startRun die m st.client e c ns).noteRoom)) ∧
  (∀ (d e cl : Nat) (m : Dispatch) (c : Cmd) (ns : List Nat) (s : State),
    s.liveResidency cl c = none →
    ∃ r : Run, (s.startRun d m cl e c ns).runs = s.runs ++ [r] ∧ r.die = d ∧ r.entry = e ∧ r.kind = m.kind ∧ r.cmd = c ∧ r.client = cl ∧
      r.ring = m.ring ∧ r.seq = m.seq ∧ r.index = m.index ∧ r.start = s.tb ∧ r.tallySent = false ∧
      r.engs = ns.map fun n => { unit := engineUnit m.kind n }) ∧
  (∀ (die : Nat) (m : Dispatch) (r : Run) (s : State),
    s.bounceReason die m = none →
    s.runOf? m.ring m.seq m.index = some r →
    r.die = die →
    r.tallySent = false →
    exec (.dispatchKill die m) s = .next ((s.takeKill r).noteRoom)) ∧
  (∀ (r : Run) (s : State),
    (r.preempted = false → s.takeKill r = (s.killRun r).refreshReady) ∧
      (r.preempted = true → s.takeKill r = ((s.killRun r).acct r.client acPreemptions 1).refreshReady)) ∧
  (∀ (die at_ : Nat) (m : Dispatch) (st : Step) (c : Cmd) (s : State),
    s.step? m.ring m.seq = some st →
    st.cmd? m.index = some c →
    c.state = .placed die at_ →
    m.op = 0 →
    st.status = none →
    exec (.bounce die m) s = .next
      (((((({ s with known := mapSet s.known (dieUnit die) (m.curEpoch % 65536) } : State).acct st.client acBounces 1).modCmd m.ring m.seq
        m.index fun k => { k with state := .waiting, readySince := some at_ }).refreshReady)).noteRoom)) ∧
  (∀ (die : Nat) (m : Dispatch) (st : Step) (c : Cmd) (r : Run) (a s : State),
    s.step? m.ring m.seq = some st →
    st.cmd? m.index = some c →
    c.state = .running die →
    a = (({ s with known := mapSet s.known (dieUnit die) (m.curEpoch % 65536) } : State).acct st.client acBounces 1) →
    a.runOf? m.ring m.seq m.index = some r →
    (m.op = 2 → exec (.bounce die m) s = .next (a.tallyAgain r)) ∧ (m.op ≠ 2 → exec (.bounce die m) s = .next (a.killAgain r))) ∧
  (∀ (unit epoch : Nat) (s : State),
    s.runs.any (·.tallySent) = false →
    ∃ t, exec (.epochNotice unit epoch) s = .next t ∧ t.knownEpoch unit = epoch % 65536 ∧
      (∀ u, u ≠ unit → t.knownEpoch u = s.knownEpoch u) ∧ t = { s with known := t.known }) ∧
  (∀ (unit : Nat) (s : State),
    0 < (s.unit unit).deferred →
    s.advancedLately unit = false →
    exec (.epochDeferredAdvance unit) s = .next ((s.modUnit unit fun x => { x with deferred := x.deferred - 1 }).stepEpoch unit))

/-- O20. Of TALLY messages: (1) A run whose engines have all ended is charged, its cycles counted and its buffers without `keep` freed; its TALLY, with the counts of the run and its 64 bytes of data, is sent and kept with the run, which is marked with the time, and a disable that waited for an engine is settled. (2) One addressed under an epoch of the tally unit that is not current is bounced: nothing else changes, but journal entries that have applied are given free. (3) One that finds 64 journal entries in use, or others waiting, waits at the end of the queue. (4) Another is handled. (5) With an entry free, the first of the queue is taken from it and handled. (6) Handling one of a step that is released acknowledges it and does nothing else. (7) Of a command tallied already it does the same; a stale one kills at most the run that sent it (`staleTally`); any other is performed (`performTally`). (8) Performing one whose publication sources cannot be read fails the command with that detail. (9) The virtual-time tick charges the run, unless its TALLY is sent, and the parked residencies of its die. (spec/02_work_and_the_ledger.md, spec/03_scheduling_and_shares.md, spec/04_tile_programs.md) -/
def Obligations.CommandsFinishAndTally : Prop :=
  (∀ (die entry energyNj : Nat) (r : Run) (s : State),
    s.run? die entry = some r →
    r.finished = true →
    exec (.commandFinish die entry energyNj) s = .next
      ((forEach r.engs
        (((((((s.chargeRun r).endCycles r).cmdEnd r 0 0).freeRunBufs die entry false).modRun die entry fun x =>
          { x with tallySent := true, endedAt := s.tb }).modRun die entry fun x => { x with tallyMsg := some (s.tallyOf r energyNj) }).send
            (.tally (s.tallyOf r energyNj) (tallyData (s.tallyOf r energyNj))))
        fun e t => t.settleDisable die e.unit).noteRoom)) ∧
  (∀ (m : TallyMsg) (s : State),
    s.saf.damped = false →
    m.headerEpoch ≠ s.epoch unitTally →
    exec (.tally m) s = .next (({ s with journal := s.journalUsed } : State).send (.tallyBounce m))) ∧
  (∀ (m : TallyMsg) (s : State),
    s.saf.damped = false →
    m.headerEpoch = s.epoch unitTally →
    s.epochPending unitTally = false →
    64 ≤ s.journalUsed.length ∨ s.tallyQueue ≠ [] →
    exec (.tally m) s = .next { s with journal := s.journalUsed, tallyQueue := s.tallyQueue ++ [m] }) ∧
  (∀ (m : TallyMsg) (s : State),
    s.saf.damped = false →
    m.headerEpoch = s.epoch unitTally →
    s.epochPending unitTally = false →
    s.journalUsed.length < 64 →
    s.tallyQueue = [] →
    exec (.tally m) s = .next ((({ s with journal := s.journalUsed } : State).dropLate m).handleTally m)) ∧
  (∀ (m : TallyMsg) (rest : List TallyMsg) (s : State),
    s.saf.damped = false →
    s.tallyQueue = m :: rest →
    s.journalUsed.length < 64 →
    exec .tallyDequeue s = .next ((({ s with journal := s.journalUsed, tallyQueue := rest } : State).dropLate m).handleTally m)) ∧
  (∀ (m : TallyMsg) (s : State),
    s.step? m.ring m.seq = none →
    s.handleTally m = s.send (.tallyAck m.seq m.ring m.index)) ∧
  (∀ (m : TallyMsg) (st : Step) (c : Cmd) (s : State),
    s.step? m.ring m.seq = some st →
    st.cmd? m.index = some c →
    (c.isTallied = true → s.handleTally m = s.send (.tallyAck m.seq m.ring m.index)) ∧
      (c.isTallied = false → m.tallyEpoch ≠ s.knownEpoch (dieUnit m.die) → s.handleTally m = s.staleTally m) ∧
      (c.isTallied = false → m.tallyEpoch = s.knownEpoch (dieUnit m.die) → s.handleTally m = s.performTally st c m)) ∧
  (∀ (m : TallyMsg) (st : Step) (c : Cmd) (d : Nat) (s : State),
    s.readPubs st c = .error d →
    s.performTally st c m = match s.runOf? m.ring m.seq m.index with
      | some r => s.failFinal r unitTally d
      | none => s.decideStep m.ring m.seq (statusOf d) d m.index) ∧
  (∀ (die entry : Nat) (r : Run) (s : State),
    s.run? die entry = some r →
    r.tallySent = false →
    exec (.vtimeTick die entry) s = .next
      (forEach ((s.chargeRun r).residencies.filter fun x => decide (x.die = die)) (s.chargeRun r) fun x t => t.chargeParked x))

/-- O21. While work is served: (1) placement adopts the shares and pre-emption times due, then refuses the step of the first ready command for which no engine can ever be had (REFUSED_LOAD, 0x0202). (2) Without such a command, it places the command and die chosen (`nextPlacement`). (3) With nothing to place it notes only which ready commands find no room. (4) A command placed is dispatched to that die, with its width, the scheduler's epoch of the die and the engines to avoid; its step counts as dispatched. (5) With pre-emption enabled, the fair check ends the parked residency that a ready command may have. (6) Without one, it pre-empts the runs of the first fair plan. (7) The safety check notes the room and pre-empts the runs of the first safety plan. (8) A run that is pre-empted is sent a KILL, and is marked with it. (9) The scaling of a fitted die's power model keeps the modelled and the measured energy and shows the measured power in CPC_POWER; no other register and nothing else changes. (spec/03_scheduling_and_shares.md) -/
def Obligations.PlacementAndPreemption : Prop :=
  (∀ (r : Ready) (a s : State),
    s.serving = true →
    a = { s.adoptShares with oldPreempt := none } →
    ((a.readyCmds.find? fun r => a.noEngine r.client r.cmd) = some r) →
    exec .placement s = .next ((a.refuseNoEngine r).noteRoom)) ∧
  (∀ (r : Ready) (d : Nat) (a s : State),
    s.serving = true →
    a = { s.adoptShares with oldPreempt := none } →
    ((a.readyCmds.find? fun r => a.noEngine r.client r.cmd) = none) →
    a.nextPlacement = some (r, d) →
    exec .placement s = .next ((a.place1 r d).noteRoom)) ∧
  (∀ (a s : State),
    s.serving = true →
    a = { s.adoptShares with oldPreempt := none } →
    ((a.readyCmds.find? fun r => a.noEngine r.client r.cmd) = none) →
    a.nextPlacement = none →
    exec .placement s = .next (a.noteRoom)) ∧
  (∀ (r : Ready) (d : Nat) (s : State),
    ∃ (m : Dispatch) (t : State), s.place1 r d = t.sendDispatch d m ∧ m.ring = r.ring ∧ m.seq = r.seq ∧ m.index = r.cmd.index ∧ m.op = 0 ∧
      m.kind = r.cmd.kind ∧ m.width = s.widthNow r.cmd ∧ m.cmdAddr = r.cmd.addr ∧ m.headerEpoch = s.knownEpoch (dieUnit d) ∧
      m.tallyEpoch = s.knownEpoch (dieUnit d) ∧ m.avoid = avoidMask d (s.avoidNow r.cmd)) ∧
  (∀ (x : Residency) (s : State),
    s.serving = true →
    s.flag Fld.SCH_PREEMPT_enable = true →
    s.readyCmds.findSome? s.parkedVictim = some x →
    exec .preemptFair s = .next (s.endResidency x true)) ∧
  (∀ (vs : List Run) (s : State),
    s.serving = true →
    s.flag Fld.SCH_PREEMPT_enable = true →
    s.readyCmds.findSome? s.parkedVictim = none →
    s.readyCmds.findSome? s.fairPlan = some vs →
    exec .preemptFair s = .next (forEach vs s fun r t => t.preempt r)) ∧
  (∀ (vs : List Run) (s : State),
    s.serving = true →
    s.noteRoom.readyCmds.findSome? s.noteRoom.safetyPlan = some vs →
    exec .preemptSafety s = .next (forEach vs s.noteRoom fun r t => t.preempt r)) ∧
  (∀ (r x : Run) (s : State),
    s.run? r.die r.entry = some x →
    x.killSent = false →
    x.tallySent = false →
    s.preempt r = (s.sendDispatch x.die (s.killMsg x)).modRun x.die x.entry fun y => { y with killSent := true, preempted := true }) ∧
  (∀ (die modelledNj measuredNj : Nat) (s : State),
    s.fitted die = true →
    ∃ t, exec (.powerModelScale die modelledNj measuredNj) s = .next t ∧ mapGet t.measured die (0, 0) = (modelledNj, measuredNj) ∧
      t.fld (Fld.CPC_POWER_die_mw die) = min (measuredNj / 1000) (2 ^ 32 - 1) ∧ s.regsBut [(Fld.CPC_POWER_die_mw die).key] t ∧
      t = { s with regs := t.regs, measured := t.measured })

/-- O22. `startTest` marks the unit as in test and tested now, and advances its epoch. (1) A self-test that may start (`mayTest`) on an engine with a parked residency that nothing calls back ends the residency and starts. (2) On a free engine without one it starts. (3) At its latest start a busy engine's run is pre-empted, and `selftest_forced` is set; the test starts once the engine is free. (4) A test that ends is counted where its counters count tests, is over, and advances the epoch; one that fails takes the engine out. (5) A write of the selected client's window register is turned away, and sets `excl_error`, where the client is not of class 0, the period is below twice the length, or the windows of all clients would leave a stretch above 200 ms covered; otherwise its 28 bits are stored and nothing else changes. (spec/03_scheduling_and_shares.md, spec/13_faults_safety_recovery.md) -/
def Obligations.SelfTestsAndExclusiveWindows : Prop :=
  (∀ (unit kind n : Nat) (x : Residency) (s : State),
    engineOf (unit / 4096) (unit % 4096) = some (kind, n) →
    s.mayTest (unit / 4096) (unit % 4096) kind n = true →
    s.parkedOn (unit / 4096) kind n = some x →
    s.calledBack x = false →
    exec (.selftestStart unit) s = .next (((s.endResidency x true).startTest unit).noteRoom)) ∧
  (∀ (unit kind n : Nat) (s : State),
    engineOf (unit / 4096) (unit % 4096) = some (kind, n) →
    s.mayTest (unit / 4096) (unit % 4096) kind n = true →
    s.parkedOn (unit / 4096) kind n = none →
    s.engineFree (unit / 4096) kind n = true →
    exec (.selftestStart unit) s = .next ((s.startTest unit).noteRoom)) ∧
  (∀ (unit kind n : Nat) (r : Run) (s : State),
    engineOf (unit / 4096) (unit % 4096) = some (kind, n) →
    s.mayTest (unit / 4096) (unit % 4096) kind n = true →
    s.latestStart unit ≤ s.tb →
    s.runOn? (unit / 4096) (unit % 4096) = some r →
    exec (.selftestForce unit) s = .next ((s.preempt r).setFlag Fld.SCH_STATUS_selftest_forced true)) ∧
  (∀ (unit : Nat) (t0 : Nat) (s : State),
    (s.unit unit).testing = some t0 →
    exec (.selftestEnd unit true) s = .next
        (((((forEach (withGate (unit / 4096) (unit % 4096)) s fun u t => t.countTest (unit / 4096) u).modUnit unit fun x =>
          { x with testing := none }).advanceEpoch unit)).noteRoom) ∧
      exec (.selftestEnd unit false) s = .next
        (((((forEach (withGate (unit / 4096) (unit % 4096)) s fun u t => t.countTest (unit / 4096) u).modUnit unit fun x =>
          { x with testing := none }).advanceEpoch unit).takeOutEngine (unit / 4096) (unit % 4096) 0).noteRoom)) ∧
  (∀ (value : W32) (s : State),
    (let t := s.setReg (Fld.SCH_CLIENT_EXCL_excl_period_ms s.selected).key (value.toNat % 2 ^ 28)
      let bad := s.fld (Fld.SCH_CLIENT_CLASS_class s.selected) ≠ 0 ∨ bits value.toNat 0 10 < 2 * bits value.toNat 10 8 ∨
        200 < longestStretch t.windows (2 * hyperPeriod t.windows) 0 0 0
      (bad → exec (.exclWrite value) s = .next (s.setFlag Fld.SCH_STATUS_excl_error true)) ∧
      (¬ bad → exec (.exclWrite value) s = .next t)))

/-- O23. On an engine at the named instruction of its program (`atWord`), with the reserved bytes zero (`begun` counts the instruction): (1) NOP only moves on. (2) END of a command that is not resident ends the engine and moves on. (3) WALK puts the permutation and the four extents into its slot and level and moves on. (4) WAIT for a counter that has reached its count takes the count from it and moves on; for another it stalls, with its limit and the time. (5) SIGNAL adds its count to the counter of every target that exists and has not ended, where none overflows (`signalled` also frees a WAIT that this satisfies), and moves on. (6) SYNC stalls the engine, and then the SYNC is released where it can be. (7) Where some engine of the command is not at the same SYNC, nothing is released; where every one is, all move on one instruction without a stall, and nothing else changes but counters and their registers. (spec/04_tile_programs.md) -/
def Obligations.TileControl : Prop :=
  (∀ (e : Eng) (w : W128) (r : Run) (g : EngRun) (s : State),
    s.atWord e w 0x00 r g →
    wzero w 1 15 = true →
    exec (.nop e w) s = .next ((s.begun e w r g).advance e)) ∧
  (∀ (e : Eng) (w : W128) (r : Run) (g : EngRun) (s : State),
    s.atWord e w 0x01 r g →
    wzero w 1 15 = true →
    r.cmd.resident = false →
    exec (.endProgram e w) s = .next (((s.begun e w r g).modEng e fun x => { x with ended := true }).advance e)) ∧
  (∀ (e : Eng) (w : W128) (slot level : Nat) (r : Run) (g : EngRun) (s : State),
    s.atWord e w 0x07 r g →
    bits (wbyte w 1) 0 3 = slot →
    bits (wbyte w 1) 4 2 = level →
    level ≠ 3 →
    bit (wbyte w 1) 3 = false →
    bits (wbyte w 1) 6 2 = 0 →
    wzero w 3 7 = true →
    exec (.walk e w) s = .next (((s.begun e w r g).modEng e fun x => { x with
      walks := mapSet x.walks (slot * 4 + level)
        { perm := wbyte w 2, ext := [wword w 8, wword w 10, wword w 12, wword w 14] } }).advance e)) ∧
  (∀ (e : Eng) (w : W128) (k n : Nat) (r : Run) (g : EngRun) (s : State),
    s.atWord e w 0x03 r g →
    bits (wbyte w 1) 0 4 = k →
    bits (wbyte w 1) 4 4 = 0 →
    wword w 4 = n →
    n ≠ 0 →
    wzero w 6 15 = true →
    (n ≤ mapGet g.counters k 0 → exec (.wait e w) s = .next (((s.begun e w r g).modEng e fun x =>
        { x with counters := mapPut x.counters k (mapGet g.counters k 0 - n) 0 }).advance e)) ∧
      (mapGet g.counters k 0 < n → exec (.wait e w) s = .next ((s.begun e w r g).modEng e fun x =>
        { x with stall := .wait k n (limitOf (wword w 2)) s.tb }))) ∧
  (∀ (e : Eng) (w : W128) (k n : Nat) (ps : List Nat) (r : Run) (g : EngRun) (s : State),
    s.atWord e w 0x04 r g →
    bits (wbyte w 1) 0 4 = k →
    bits (wbyte w 1) 6 2 = 0 →
    wzero w 2 3 = true →
    wword w 4 = n →
    n ≠ 0 →
    wzero w 6 15 = true →
    (((signalTargets (bits (wbyte w 1) 4 2) e.pos r.engs.length).filter fun p => !(r.engs.getD p {}).ended) = ps) →
    (∀ p ∈ ps, mapGet (r.engs.getD p {}).counters k 0 + n ≤ 65535) →
    exec (.signal e w) s = .next ((forEach ps (s.begun e w r g) fun p u => u.signalled r e k n p).advance e)) ∧
  (∀ (e : Eng) (w : W128) (r : Run) (g : EngRun) (s : State),
    s.atWord e w 0x02 r g →
    wzero w 1 1 = true →
    wzero w 4 15 = true →
    exec (.sync e w) s = .next (((s.begun e w r g).modEng e fun x => { x with stall := .sync (limitOf (wword w 2)) s.tb }).releaseSync e)) ∧
  (∀ (e : Eng) (r : Run) (g : EngRun) (t : State),
    t.engOf e = some (r, g) →
    ((r.engs.all fun x => x.atSync g.pc) = false → t.releaseSync e = t) ∧
      ((r.engs.all fun x => x.atSync g.pc) = true → ∃ u : State, t.releaseSync e =
        u.modRun e.die e.entry (fun y => { y with engs := y.engs.map fun x => { x with pc := x.pc + 1, stall := .none } }) ∧
        u = { t with regs := u.regs, cnts := u.cnts }))

/-- O24. Of an engine of a run: (1) at the end of its program without END its command fails with 0x0403. (2) At an instruction whose opcode is reserved, or not allowed for the command's kind, the command fails with 0x0401. (3) An instruction that cannot be read fails the command with the code of the access. (4) A WAIT or SYNC that has stalled for longer than its limit (in µs) fails it with 0x0408. (5) MARK with the fields of R488 writes its packet and moves on; with its modifier, and the trigger on MARK set, it also triggers. (6) CNT_EMIT writes the counters of its unit as packets and moves on. (spec/04_tile_programs.md, spec/16_observation_and_trace.md) -/
def Obligations.TileStops : Prop :=
  (∀ (e : Eng) (r : Run) (g : EngRun) (s : State),
    s.engOf e = some (r, g) →
    r.tallySent = false →
    g.ended = false →
    r.cmd.programLen ≤ g.pc →
    exec (.runPastEnd e) s = .next (s.failEng e 0x0403)) ∧
  (∀ (e : Eng) (w : W128) (r : Run) (g : EngRun) (s : State),
    s.engOf e = some (r, g) →
    s.mayRun e r g = true →
    opAllowed r.kind (wbyte w 0) = false →
    s.fetch r g = .ok w →
    exec (.reservedOpcode e w) s = .next (s.failEng e 0x0401)) ∧
  (∀ (e : Eng) (w : W128) (d : Nat) (r : Run) (g : EngRun) (s : State),
    s.engOf e = some (r, g) →
    s.mayRun e r g = true →
    opIs w 0x00 = true →
    s.fetch r g = .error d →
    exec (.nop e w) s = .next (s.failEng e d)) ∧
  (∀ (e : Eng) (r : Run) (g : EngRun) (s : State),
    s.engOf e = some (r, g) →
    (∀ k n limit since, g.stall = .wait k n limit since → 1000 * limit < s.nsSince since →
        exec (.stallTimeout e) s = .next (s.failEng e 0x0408)) ∧
      (∀ limit since, g.stall = .sync limit since → 1000 * limit < s.nsSince since →
        exec (.stallTimeout e) s = .next (s.failEng e 0x0408))) ∧
  (∀ (e : Eng) (w : W128) (r : Run) (g : EngRun) (s : State),
    s.atWord e w 0xA0 r g →
    allAbsent w = true →
    wbyte w 8 = 0 →
    wzero w 10 11 = true →
    (wmods w = 0 → exec (.mark e w) s = .next (State.ended e ((s.begun e w r g).packet 0x20 (unitOf e.die g.unit) r.client
        (seqRing r.seq r.ring ++ leBytes r.index 1 ++ leBytes (wbyte w 9) 1 ++ leBytes g.pc 2 ++ leBytes (wlong w 12) 4), none))) ∧
      (wmods w = 1 → ∀ t, t = (s.begun e w r g).packet 0x20 (unitOf e.die g.unit) r.client
          (seqRing r.seq r.ring ++ leBytes r.index 1 ++ leBytes (wbyte w 9) 1 ++ leBytes g.pc 2 ++ leBytes (wlong w 12) 4) →
        exec (.mark e w) s = .next (State.ended e (if t.flag Fld.DBG_TRACE_TRIG_on_mark then t.trigger 3 else t, none)))) ∧
  (∀ (e : Eng) (w : W128) (r : Run) (g : EngRun) (s : State),
    s.atWord e w 0xA1 r g →
    allAbsent w = true →
    wbyte w 8 = 0 →
    wmods w = 0 →
    wzero w 9 15 = true →
    exec (.cntEmit e w) s = .next (State.ended e ((s.begun e w r g).counterPackets e.die g.unit r.client, none)))

/-- O25. On engine 0, with the fields of R138: (1) a fixed ALLOC into an empty register takes its region where it is free; another that keeps nothing takes the first region that fits while no ALLOC waits. (2) FREE by offset frees the client's buffer there; FREE by handle frees the buffer if the handle still names it, and empties the register. (3) The oldest waiting ALLOC of a die gets its space once it fits, and its engine goes on unless the space is still being zeroed. (4) An ALLOC whose zeroing has ended gets its handle and its engine goes on. (5) What follows an instruction's own effect (`ended`) is the failure it gives, else the next instruction, else (stalled) nothing. (spec/10_memory_tiers_and_ecc.md, spec/04_tile_programs.md) -/
def Obligations.TileHearth : Prop :=
  (∀ (e : Eng) (w : W128) (size off : Nat) (r : Run) (g : EngRun) (s : State),
    s.atWord e w 0x05 r g →
    e.pos = 0 →
    r.kind ≠ 6 →
    bits (wbyte w 1) 4 4 = 0 →
    bits (wbyte w 2) 2 6 = 0 →
    wzero w 3 3 = true →
    wword w 4 = size →
    1 ≤ size →
    size ≤ 32768 →
    wword w 6 = off →
    off ≤ 32767 →
    wzero w 8 15 = true →
    mapFind r.hregs (bits (wbyte w 1) 0 4) = none →
    (bit (wbyte w 2) 0 = true → ((s.begun e w r g).hearth e.die).regionFree off size = true →
        exec (.alloc e w) s = .next (State.ended e
          ((s.begun e w r g).takeSpace e (bits (wbyte w 1) 0 4) off size r.client (bit (wbyte w 2) 1), none))) ∧
      (bit (wbyte w 2) 0 = false → bit (wbyte w 2) 1 = false → off = 0 → ((s.begun e w r g).hearth e.die).queue = [] →
        ∀ k, firstFit size ((s.begun e w r g).hearth e.die).bufs 0 = some k →
          exec (.alloc e w) s = .next (State.ended e
            ((s.begun e w r g).takeSpace e (bits (wbyte w 1) 0 4) k size r.client false, none)))) ∧
  (∀ (e : Eng) (w : W128) (r : Run) (g : EngRun) (s : State),
    s.atWord e w 0x06 r g →
    e.pos = 0 →
    r.kind ≠ 6 →
    bits (wbyte w 1) 4 4 = 0 →
    bits (wbyte w 2) 1 7 = 0 →
    wzero w 3 5 = true →
    wzero w 8 15 = true →
    (bit (wbyte w 2) 0 = true → exec (.free e w) s = .next (State.ended e
        ((s.begun e w r g).freeFor e.die r.client (wword w 6) true, none))) ∧
      (bit (wbyte w 2) 0 = false → wword w 6 = 0 → ∀ h, mapFind r.hregs (bits (wbyte w 1) 0 4) = some h →
        exec (.free e w) s = .next (State.ended e
          (((s.begun e w r g).freeFor e.die r.client (handleGranule h)
            (decide (handleDie h = e.die) && decide (handleGen h = ((s.begun e w r g).hearth e.die).gen (handleGranule h)))).modRun
              e.die e.entry fun x => { x with hregs := mapDel x.hregs (bits (wbyte w 1) 0 4) }, none)))) ∧
  (∀ (die k : Nat) (a : AllocWait) (rest : List AllocWait) (s : State),
    (s.hearth die).queue = a :: rest →
    firstFit a.size (s.hearth die).bufs 0 = some k →
    ∀ t, t = (s.modHearth die fun h => { h with queue := rest }).takeSpace ⟨die, a.entry, 0⟩ a.hreg k a.size a.client a.keep →
      exec (.allocWaitGrant die) s = .next
        (if (t.hearth die).zeroing.any fun z => decide (z.entry = a.entry) then t else t.resumeAlloc die a.entry)) ∧
  (∀ (die entry k until_ : Nat) (z : AllocWait) (s : State),
    (((s.hearth die).zeroing.find? fun z => decide (z.entry = entry)) = some z) →
    z.taken = some (k, until_) →
    until_ ≤ s.tb →
    exec (.allocZeroDone die entry) s = .next
      (((s.modHearth die fun h => { h with zeroing := h.zeroing.filter fun y => decide (y.entry ≠ entry) }).giveHandle die entry z.hreg k).resumeAlloc
        die entry)) ∧
  (∀ (e : Eng) (d : Nat) (r : Run) (g : EngRun) (t : State),
    t.engOf e = some (r, g) →
    State.ended e (t, some d) = t.failEng e d ∧ (g.stalled = false → State.ended e (t, none) = t.advance e) ∧
      (g.stalled = true → State.ended e (t, none) = t))

/-- O26. On an engine at the named instruction (`instrAt`; c its context, t the state in which it is counted), with operand checks 1 to 3 and the shapes passed and no Ember card, the rows it reads readable and the destination writable (`doWrites` ends in u), the instruction ends with: (1) COPY with mods 0: the rows of its band as the source has them. (2) COPY with mods 1: the rows of its band converted to the type of the destination. (3) FILL: the pattern of imm in every element of its band. (4) GATHER: for each index of its band the row of srcA that the index names (`gatherRun`). (5) SCATTER on the first engine: the rows of srcA in index order, each to the row of the destination its index names. (6) SCATTER on any other engine: nothing. (7) TRANSPOSE: at every index of its band the element of srcA with the two innermost coordinates exchanged. (8) WINDOW: at every index of its band the element of srcA that the window fields put there (`winIx`). (spec/04_tile_programs.md, spec/05_arithmetic.md) -/
def Obligations.MoverInstructionsComplete : Prop :=
  (∀ (e : Eng) (w : W128) (r : Run) (g : EngRun) (c : Ctx) (t u : State) (ws : Writes) (s : State),
    s.instrAt e w 0x10 r g c t →
    checks123 c.r.cmd moverShape1 w (decide (wmods w ≤ 1) && wzero w 9 15) = none →
    (((usedRefs w).any fun x => (c.card x.card).ember) = false) →
    copyOk (decide (wmods w = 1)) (c.dst w) (c.srcA w) = true →
    wmods w = 0 →
    rowWrites (t.copyRow c.cl (c.srcA w) (c.dst w) (c.rowLen (c.dst w))) (c.bandRows (c.dst w)) = .ok ws →
    ((t.moved c true ((c.srcA w).rowRanges (c.rowLen (c.dst w)) (c.bandRows (c.dst w)) ++ (c.bandRows (c.dst w)).flatMap fun i => (c.srcA w).scaleRanges i (c.rowLen (c.dst w)))).doWrites c c.g.unit ws = (u, none)) →
    exec (.copy e w) s = .next (State.ended e (u, none))) ∧
  (∀ (e : Eng) (w : W128) (r : Run) (g : EngRun) (c : Ctx) (t u : State) (ws : Writes) (s : State),
    s.instrAt e w 0x10 r g c t →
    checks123 c.r.cmd moverShape1 w (decide (wmods w ≤ 1) && wzero w 9 15) = none →
    (((usedRefs w).any fun x => (c.card x.card).ember) = false) →
    copyOk (decide (wmods w = 1)) (c.dst w) (c.srcA w) = true →
    wmods w = 1 →
    rowWrites (t.convertRow c (c.srcA w) (c.dst w) (c.rowLen (c.dst w))) (c.bandRows (c.dst w)) = .ok ws →
    ((t.moved c true ((c.srcA w).rowRanges (c.rowLen (c.dst w)) (c.bandRows (c.dst w)) ++ (c.bandRows (c.dst w)).flatMap fun i => (c.srcA w).scaleRanges i (c.rowLen (c.dst w)))).doWrites c c.g.unit ws = (u, none)) →
    exec (.copy e w) s = .next (State.ended e (u, none))) ∧
  (∀ (e : Eng) (w : W128) (r : Run) (g : EngRun) (c : Ctx) (t u : State) (s : State),
    s.instrAt e w 0x11 r g c t →
    checks123 c.r.cmd moverShape0 w (decide (wmods w = 0) && wzero w 9 11 && decide (wlong w 12 < 2 ^ (min 32 (c.dst w).bits))) = none →
    (((usedRefs w).any fun x => (c.card x.card).ember) = false) →
    (t.doWrites c c.g.unit (joinWrites ((c.bandRows (c.dst w)).map fun i => (c.dst w).storeRaw i ((natRange 0 (c.rowLen (c.dst w))).map fun _ => wlong w 12))) = (u, none)) →
    exec (.fill e w) s = .next (State.ended e (u, none))) ∧
  (∀ (e : Eng) (w : W128) (r : Run) (g : EngRun) (c : Ctx) (t u : State) (lo hi : Nat) (rs : List (List (Nat × Nat) × Writes)) (s : State),
    s.instrAt e w 0x12 r g c t →
    checks123 c.r.cmd moverShape2 w (decide (wmods w = 0) && wzero w 9 15) = none →
    (((usedRefs w).any fun x => (c.card x.card).ember) = false) →
    gatherOk (c.dst w) (c.srcA w) (c.srcB w) (c.dst w) = true →
    c.outerBand (c.dst w) = (lo, hi) →
    tryMap (t.gatherRun c.cl (c.srcA w) (c.srcB w) (c.dst w)) (gatherRuns (c.dst w) lo hi) = .ok rs →
    (t.moved c true (((c.srcB w).base + 4 * lo, 4 * (hi - lo)) :: rs.flatMap (·.1))).doWrites c c.g.unit (joinWrites (rs.map (·.2))) = (u, none) →
    exec (.gather e w) s = .next (State.ended e (u, none))) ∧
  (∀ (e : Eng) (w : W128) (r : Run) (g : EngRun) (c : Ctx) (t u : State) (s : State),
    s.instrAt e w 0x13 r g c t →
    checks123 c.r.cmd moverShape2 w (decide (wmods w = 0) && wzero w 9 15) = none →
    (((usedRefs w).any fun x => (c.card x.card).ember) = false) →
    gatherOk (c.dst w) (c.srcA w) (c.srcB w) (c.srcA w) = true →
    c.pos = 0 →
    runEach (fun j v => match v.indexAt c.cl (c.srcB w) j with | .error d => (v, some d) | .ok x => v.scatterRow c (c.srcA w) (c.dst w) x j) (natRange 0 ((c.srcB w).ext 0)) (t.moved c true [((c.srcB w).base, 4 * (c.srcB w).ext 0)]) = (u, none) →
    exec (.scatter e w) s = .next (State.ended e (u, none))) ∧
  (∀ (e : Eng) (w : W128) (r : Run) (g : EngRun) (c : Ctx) (t : State) (s : State),
    s.instrAt e w 0x13 r g c t →
    checks123 c.r.cmd moverShape2 w (decide (wmods w = 0) && wzero w 9 15) = none →
    (((usedRefs w).any fun x => (c.card x.card).ember) = false) →
    gatherOk (c.dst w) (c.srcA w) (c.srcB w) (c.srcA w) = true →
    c.pos ≠ 0 →
    exec (.scatter e w) s = .next (State.ended e (t, none))) ∧
  (∀ (e : Eng) (w : W128) (r : Run) (g : EngRun) (c : Ctx) (t u : State) (ws : Writes) (s : State),
    s.instrAt e w 0x14 r g c t →
    checks123 c.r.cmd moverShape1 w (decide (wmods w = 0) && wzero w 9 15) = none →
    (((usedRefs w).any fun x => (c.card x.card).ember) = false) →
    transposeOk (c.dst w) (c.srcA w) = true →
    rowWrites (fun i => match tryMap (fun x => t.elem c.cl (c.srcA w) none (ixSwap (ixPlus i x))) (natRange 0 (c.rowLen (c.dst w))) with | .ok ps => .ok ((c.dst w).storeRaw i ps) | .error d => .error d) (c.bandRows (c.dst w)) = .ok ws →
    (t.moved c true (transposeReads (c.dst w) (c.srcA w) (c.outerBand (c.dst w)).1 (c.outerBand (c.dst w)).2)).doWrites c c.g.unit ws = (u, none) →
    exec (.transpose e w) s = .next (State.ended e (u, none))) ∧
  (∀ (e : Eng) (w : W128) (r : Run) (g : EngRun) (c : Ctx) (t u : State) (f : WinFields) (ws : Writes) (s : State),
    s.instrAt e w 0x15 r g c t →
    checks123 c.r.cmd moverShape1 w (decide (wmods w = 0) && decide (1 ≤ (winFields w).kh) && decide ((winFields w).kh ≤ 16) && decide (1 ≤ (winFields w).kw) && decide ((winFields w).kw ≤ 16) && wzero w 15 15) = none →
    (((usedRefs w).any fun x => (c.card x.card).ember) = false) →
    windowOk f (c.dst w) (c.srcA w) = true →
    f = winFields w →
    rowWrites (fun i => match tryMap (fun v => t.elem c.cl (c.srcA w) none (winIx f ((c.srcA w).ext 0) i v)) (natRange 0 ((c.dst w).ext 0)) with | .ok ps => .ok ((c.dst w).storeRaw i ps) | .error d => .error d) (c.bandRows (c.dst w)) = .ok ws →
    (t.moved c true ((c.srcA w).planeRuns ((⟨(c.srcA w).ext 1, f.kw, f.sx, f.dx, f.pl⟩ : Win1).span 0 ((c.dst w).ext 1)) ((⟨(c.srcA w).ext 2, f.kh, f.sy, f.dy, f.pt⟩ : Win1).fetched (decide (c.r.cmd.reuse = 1)) (c.dst w).outer 1 c.width c.pos) 0)).doWrites c c.g.unit ws = (u, none) →
    exec (.window e w) s = .next (State.ended e (u, none)))

/-- O27. On an engine at the named instruction (`instrAt`), with operand checks 1 to 3 passed and no operand in the ring window: (1) MATMUL with its operands decoded and no tile of the output in its band has no other effect. (2) MATMUL (with no codebook to wait for) counts its cycles and codebook loads, its checks finding nothing, and its walk computes and writes every output tile, ending in u. (3) MATMUL whose codebook is being loaded stalls. (4) CB_PRELOAD begins to load the codebooks it names that are neither resident nor being loaded, counts their bytes and loads, names the resident ones, and sets the time at which the loads end. (5) Where there is none, it loads nothing. (6) REC_BIND of a record that agrees, whose residency is not yet on the engines, binds the engine and enters the residency (`enterResidency`). (7) Of one that is, with the same shape, it only binds the engine. (8) REC_SCAN takes its tokens in order through the Rods of the engine’s heads, keeps the new Rods in the residency and writes the outputs of the tokens that the destination has. (9) REC_UNBIND of a bound engine marks the residency to end with the command. (10) When a preload of an engine is due and its bytes read well, its codebooks are taken into the store, for which those that no pending preload names make room, the preload is done, and an engine that stalled for one goes on. (11) A parked residency whose limit is up, and whose commands are not placed in this cycle, ends and takes new epochs. (12) An enabled engine of a fitted die whose logic serves, written disabled, is disabled (`disableEngine`). (spec/06_matrix_engine.md, spec/09_ember_compression.md, spec/04_tile_programs.md) -/
def Obligations.MatrixInstructionsComplete : Prop :=
  (∀ (e : Eng) (w : W128) (chk : EngCheck) (r : Run) (g : EngRun) (c : Ctx) (t : State) (x : Mat) (s : State),
    s.instrAt e w 0x30 r g c t →
    c.ringBarred t w = false →
    s.waitsBook e w = false →
    checks123 c.r.cmd matShape w (matOwn w) = none →
    t.matDecode c w = .ok x →
    x.outTiles c = [] →
    exec (.matmul e w chk) s = .next (State.ended e (t, none))) ∧
  (∀ (e : Eng) (w : W128) (chk : EngCheck) (r : Run) (g : EngRun) (c : Ctx) (t u : State) (x : Mat) (first : Tile) (more : List Tile) (rd : Option EmRead) (b : BookUse) (ops : List W128) (v : State) (s : State),
    s.instrAt e w 0x30 r g c t →
    c.ringBarred t w = false →
    s.waitsBook e w = false →
    checks123 c.r.cmd matShape w (matOwn w) = none →
    t.matDecode c w = .ok x →
    x.outTiles c = first :: more →
    t.matEmber c x = .ok rd →
    (ops = (if bits (wbyte w 9) 0 4 = 0 then [] else gateSeq c.g (bits (wbyte w 9) 0 4))) →
    (match rd with | some r => r.useTiles (decide (x.w.dims = 3)) c.g.pendingBooks (t.loadCycles c) (x.emTileCycles r (decide (c.r.kind = 6)) c.g) (first :: more) { store := c.g.codebooks } | none => .ok (some { store := c.g.codebooks })) = .ok (some b) →
    (v = (let s1 := (((t.modEng e fun g => { g with codebooks := b.store }).count c.r.die c.g.unit 0x41 b.loads (some c.cl)).count c.r.die c.g.unit 0x42 b.wait (some c.cl)).count c.r.die c.g.unit 0x40 ((first :: more).length * x.tileCycles c.g) (some c.cl); if ops.isEmpty then s1 else s1.gateCorrected c (if chk = .storeCorrected then .pass else chk))) →
    v.mxeCheck c x.ints (!ops.isEmpty) (fun err => (errTile (first :: more) chk).bind (t.castoutOf c x rd err)) chk = none →
    runWalk c x.slot (x.operands c w) (fun _ => true) (State.matOut c x ops (decide (bits (wbyte w 9) 0 4 ≠ 0)) rd (arrayErrOf x.ints chk) (errTile (first :: more) chk)) {} (walkVisits c.g x.slot (x.range c)) v = (u, none) →
    exec (.matmul e w chk) s = .next (State.ended e (u, none))) ∧
  (∀ (e : Eng) (w : W128) (chk : EngCheck) (s : State),
    s.waitsBook e w = true →
    exec (.matmul e w chk) s = .next (s.modEng e fun g => { g with stall := .codebook s.tb })) ∧
  (∀ (e : Eng) (w : W128) (r : Run) (g : EngRun) (c : Ctx) (t u : State) (em : Ember) (asked want : List Book) (until_ : Nat) (s : State),
    s.instrAt e w 0x31 r g c t →
    c.ringBarred t w = false →
    checks123 c.r.cmd preloadShape w (preloadOwn w) = none →
    c.r.cmd.resident = false →
    (c.srcA w).emberOk = true →
    t.openEmber c.cl (c.srcA w) = .ok em →
    wbyte w 9 + wbyte w 10 ≤ em.books.length →
    t.emModeOk c.cl em true = true →
    asked = (natRange (wbyte w 9) (wbyte w 10)).map em.bookOf →
    booksFit asked = true →
    (want = asked.filter fun b => !c.g.codebooks.any b.same && !c.g.loadingBooks.any b.same) →
    want ≠ [] →
    until_ = (match c.g.preloads.getLast? with | some p => max p.until_ t.tb | none => t.tb) + ceilDiv ((want.map (t.loadCycles c)).foldl (· + ·) 0 * 384) (10 * max 1 (t.unitMhz c.r.die c.g.unit)) →
    (u = (((t.moved c true (want.map fun b => ((c.srcA w).scaleBase + b.off, b.bytes + 4))).count c.r.die c.g.unit 0x41 want.length (some c.cl)).modEng e fun g => { g with preloads := g.preloads ++ [⟨want, asked.filter fun b => c.g.codebooks.any b.same, until_⟩] })) →
    exec (.cbPreload e w) s = .next (State.ended e (u, none))) ∧
  (∀ (e : Eng) (w : W128) (r : Run) (g : EngRun) (c : Ctx) (t u : State) (em : Ember) (asked want : List Book) (s : State),
    s.instrAt e w 0x31 r g c t →
    c.ringBarred t w = false →
    checks123 c.r.cmd preloadShape w (preloadOwn w) = none →
    c.r.cmd.resident = false →
    (c.srcA w).emberOk = true →
    t.openEmber c.cl (c.srcA w) = .ok em →
    wbyte w 9 + wbyte w 10 ≤ em.books.length →
    t.emModeOk c.cl em true = true →
    asked = (natRange (wbyte w 9) (wbyte w 10)).map em.bookOf →
    booksFit asked = true →
    (want = asked.filter fun b => !c.g.codebooks.any b.same && !c.g.loadingBooks.any b.same) →
    want = [] →
    (t.moved c true []).count c.r.die c.g.unit 0x41 0 (some c.cl) = u →
    exec (.cbPreload e w) s = .next (State.ended e (u, none))) ∧
  (∀ (e : Eng) (w : W128) (r : Run) (g : EngRun) (c : Ctx) (t u : State) (shape : Nat) (rec : List Byte) (v : State) (s : State),
    s.instrAt e w 0x38 r g c t →
    c.ringBarred t w = false →
    checks123 c.r.cmd ⟨.required, .required, .unused, false⟩ w (decide (wmods w = 0) && decide (wbyte w 8 = 0) && decide (wbyte w 9 < 128) && decide (wbyte w 10 < 128) && decide (wbyte w 12 < 2) && wzero w 13 15) = none →
    c.recFault = none →
    shape = wbyte w 9 + wbyte w 10 * 128 + 16384 * wbyte w 11 + 2097152 * wbyte w 12 + 4194304 * (c.r.cmd.width - 1) →
    (wdst w).card = 0 →
    (wsrcA w).card = 1 →
    c.g.bound = false →
    (wbyte w 11 + 1) * (wbyte w 10 + 1) ≤ 128 →
    t.cread c.cl c.r.cmd.record 64 = .ok rec →
    emAt rec 24 4 = shape →
    recordReservedOk rec = true →
    (v = t.modEng e fun g => { g with bound := true }) →
    v.residencyOf c.r = none →
    ((v.moved c true [((c.card 0).base, if bit (emAt rec 0 8) 48 then 65536 * c.width else 0)]).enterResidency c rec shape = (u, none)) →
    exec (.recBind e w) s = .next (State.ended e (u, none))) ∧
  (∀ (e : Eng) (w : W128) (r : Run) (g : EngRun) (c : Ctx) (t : State) (shape : Nat) (rec : List Byte) (v : State) (x : Residency) (s : State),
    s.instrAt e w 0x38 r g c t →
    c.ringBarred t w = false →
    checks123 c.r.cmd ⟨.required, .required, .unused, false⟩ w (decide (wmods w = 0) && decide (wbyte w 8 = 0) && decide (wbyte w 9 < 128) && decide (wbyte w 10 < 128) && decide (wbyte w 12 < 2) && wzero w 13 15) = none →
    c.recFault = none →
    shape = wbyte w 9 + wbyte w 10 * 128 + 16384 * wbyte w 11 + 2097152 * wbyte w 12 + 4194304 * (c.r.cmd.width - 1) →
    (wdst w).card = 0 →
    (wsrcA w).card = 1 →
    c.g.bound = false →
    (wbyte w 11 + 1) * (wbyte w 10 + 1) ≤ 128 →
    t.cread c.cl c.r.cmd.record 64 = .ok rec →
    emAt rec 24 4 = shape →
    recordReservedOk rec = true →
    (v = t.modEng e fun g => { g with bound := true }) →
    v.residencyOf c.r = some x →
    x.shape = shape →
    exec (.recBind e w) s = .next (State.ended e (v, none))) ∧
  (∀ (e : Eng) (w : W128) (chk : EngCheck) (r : Run) (g : EngRun) (c : Ctx) (t u : State) (x : Residency) (q : RecShape) (rd : Card → List (Nat × Nat)) (v : State) (rods : NMap Nat) (ws : Writes) (s : State),
    s.instrAt e w 0x39 r g c t →
    c.ringBarred t w = false →
    checks123 c.r.cmd ⟨.required, .required, .required, false⟩ w (decide (wmods w = 0) && decide (1 ≤ wbyte w 13) && decide (wbyte w 13 ≤ 64) && wzero w 14 15) = none →
    c.recFault = none →
    c.g.bound = true →
    t.residencyOf c.r = some x →
    q = shapeOf x.shape →
    scanOk q c.width (c.dst w) (c.srcA w) (c.srcB w) = true →
    (rd = (fun k : Card => ((natRange (wlong w 9) (wbyte w 13)).filter fun n => decide (n < (c.dst w).ext 2)).flatMap fun tok => (natRange 0 q.h).map fun i => (k.rowAddr [0, Int.ofNat (c.pos * q.h + i), Int.ofNat tok, 0, 0], k.rowBytes))) →
    v = (t.moved c true (rd (c.srcA w) ++ rd (c.srcB w))).count c.r.die c.g.unit 0x43 (wbyte w 13) (some c.cl) →
    v.mxeCheck c false false (fun _ => none) chk = none →
    tryFold (fun acc k => t.scanToken c q (c.dst w) (c.srcA w) (c.srcB w) k acc) (x.state.getD c.pos [], {}) (natRange (wlong w 9) (wbyte w 13)) = .ok (rods, ws) →
    (({ v with residencies := v.residencies.map fun (y : Residency) => if y.record = x.record ∧ y.client = x.client then { y with state := (natRange 0 y.state.length).map fun i => if i = c.pos then rods else y.state.getD i [] } else y }).doWrites c c.g.unit ws = (u, none)) →
    exec (.recScan e w chk) s = .next (State.ended e (u, none))) ∧
  (∀ (e : Eng) (w : W128) (r : Run) (g : EngRun) (c : Ctx) (t : State) (s : State),
    s.instrAt e w 0x3A r g c t →
    c.ringBarred t w = false →
    (allAbsent w && decide (wmods w = 0) && wzero w 8 15) = true →
    c.recFault = none →
    c.g.bound = true →
    c.g.unbind = false →
    exec (.recUnbind e w) s = .next (State.ended e (t.modEng e fun g => { g with unbind := true }, none))) ∧
  (∀ (e : Eng) (i : Nat) (p : Preload) (r : Run) (g : EngRun) (bs : List Book) (s : State),
    s.engOf e = some (r, g) →
    g.preloadDone s.tb = some (i, p) →
    s.loadBooks r.client p.want = .ok bs →
    exec (.codebookLoadDone e) s = .next (s.modEng e fun x => { x with codebooks := (useBooks x.pendingBooks bs x.codebooks).getD x.codebooks, preloads := x.preloads.eraseIdx i, stall := (match x.stall with | .codebook _ => .none | y => y) })) ∧
  (∀ (die engine t0 : Nat) (x : Residency) (s : State),
    s.parkedWith die engine = some x →
    x.parkedSince = some t0 →
    s.passedUs t0 (max 50 (s.fld (Fld.MXE_CTRL_park_limit_us die engine))) = true →
    s.calledBack x = false →
    exec (.parkLimit die engine) s = .next (s.endResidency x true)) ∧
  (∀ (unit : Nat) (f : Fld) (s : State),
    enableFld (unit / 4096) (unit % 4096) = some f →
    s.fitted (unit / 4096) = true →
    s.logicServes (unit / 4096) = true →
    s.flag f = true →
    exec (.engineDisable unit) s = .next ((s.setFlag f false).disableEngine (unit / 4096) (unit % 4096)))

/-- O28. On an engine at the named instruction (`instrAt`), with operand checks 1 to 3 and the operand forms passed, no operand in the ring window, the rows it reads readable, its checks finding nothing and the destination writable (`doWrites` or the walk ends in u), the instruction ends with: (1) GSEQ_SET: its micro-op in its slot and index, or that entry gone where the micro-op is 0. (2) GSEQ_CLR: every entry of the slot gone. (3) GATE_MAP: the rows of its band, each the sequence of the slot applied to the row of srcA, with the evaluations and stream writes of the sequence. (4) GATE_ROWS: the same, with the statistics of each row. (5) CONV: the lines of its stripes loaded, the passes and refills counted, and every output tile of its band computed and written by the walk. (6) CONV_PARAM: itself as the parameters of the engine’s later convolutions. (7) BOX_DECODE: for each box its four decoded and clipped coordinates. (8) SCORE_FILTER: the candidates above the threshold, best first, as many as fit, and the number that did not. (9) NMS: the candidates that no better kept one of their class overlaps by more than the threshold, best first (`nmsKeep`), and the number removed. (spec/07_gate_window_and_detection_engines.md, spec/04_tile_programs.md) -/
def Obligations.GateAndWindowInstructionsComplete : Prop :=
  (∀ (e : Eng) (w : W128) (r : Run) (g : EngRun) (c : Ctx) (t : State) (s : State),
    s.instrAt e w 0x50 r g c t →
    checks123 c.r.cmd ⟨.optional, .optional, .unused, false⟩ w (gseqSetOk w) = none →
    exec (.gseqSet e w) s = .next (State.ended e (t.modEng e fun g => { g with gseq := if gMop w = 0 then mapDel g.gseq (bits (wmods w) 0 4 * 16 + bits (wmods w) 4 4) else mapSet g.gseq (bits (wmods w) 0 4 * 16 + bits (wmods w) 4 4) w }, none))) ∧
  (∀ (e : Eng) (w : W128) (r : Run) (g : EngRun) (c : Ctx) (t : State) (s : State),
    s.instrAt e w 0x51 r g c t →
    c.ringBarred t w = false →
    gseqClrOk w = true →
    exec (.gseqClr e w) s = .next (State.ended e (t.modEng e fun g => { g with gseq := g.gseq.filter fun (k, _) => decide (k / 16 ≠ wmods w) }, none))) ∧
  (∀ (e : Eng) (w : W128) (chk : EngCheck) (r : Run) (g : EngRun) (c : Ctx) (t u : State) (ops : List W128) (first n : Nat) (v : State) (rs : List (Writes × Nat)) (s : State),
    s.instrAt e w 0x52 r g c t →
    c.ringBarred t w = false →
    checks123 c.r.cmd gateShape w (gateOwn w) = none →
    ops = gateSeq c.g (bits (wbyte w 9) 0 4) →
    seqOk .map ops = true →
    c.seqCards .map ops (c.dst w) (c.srcA w).shape (2 ^ c.lanes) = true →
    gateOperandsOk .map (c.dst w) (c.srcA w) = true →
    c.gateCols ops (c.dst w) = (first, n) →
    (v = (t.moved c true (((c.bandRows (c.dst w)).flatMap fun i => (c.srcA w).runAt (ixSet0 i (Int.ofNat first)) n :: (c.srcA w).scaleRanges (ixSet0 i (Int.ofNat first)) n) ++ c.streamRanges ops (c.bandRows (c.dst w)) first n true)).gateCorrected c chk) →
    v.gateCheck c chk = none →
    tryMap (v.gateSrcRow c .map ops (c.dst w) (c.srcA w)) (c.bandRows (c.dst w)) = .ok rs →
    (v.gateEvents c (c.bandRows (c.dst w)).length ((rs.map (·.2)).foldl (· + ·) 0)).doWrites c c.gateUnit (joinWrites (rs.map (·.1))) = (u, none) →
    exec (.gateMap e w chk) s = .next (State.ended e (u, none))) ∧
  (∀ (e : Eng) (w : W128) (chk : EngCheck) (r : Run) (g : EngRun) (c : Ctx) (t u : State) (ops : List W128) (first n : Nat) (v : State) (rs : List (Writes × Nat)) (s : State),
    s.instrAt e w 0x53 r g c t →
    c.ringBarred t w = false →
    checks123 c.r.cmd gateShape w (gateOwn w) = none →
    ops = gateSeq c.g (bits (wbyte w 9) 0 4) →
    seqOk .rows ops = true →
    c.seqCards .rows ops (c.dst w) (c.srcA w).shape (2 ^ c.lanes) = true →
    gateOperandsOk .rows (c.dst w) (c.srcA w) = true →
    c.gateCols ops (c.dst w) = (first, n) →
    (v = (t.moved c true (((c.bandRows (c.dst w)).flatMap fun i => (c.srcA w).runAt (ixSet0 i (Int.ofNat first)) n :: (c.srcA w).scaleRanges (ixSet0 i (Int.ofNat first)) n) ++ c.streamRanges ops (c.bandRows (c.dst w)) first n true)).gateCorrected c chk) →
    v.gateCheck c chk = none →
    tryMap (v.gateSrcRow c .rows ops (c.dst w) (c.srcA w)) (c.bandRows (c.dst w)) = .ok rs →
    (v.gateEvents c (c.bandRows (c.dst w)).length ((rs.map (·.2)).foldl (· + ·) 0)).doWrites c c.gateUnit (joinWrites (rs.map (·.1))) = (u, none) →
    exec (.gateRows e w chk) s = .next (State.ended e (u, none))) ∧
  (∀ (e : Eng) (w : W128) (chk : EngCheck) (r : Run) (g : EngRun) (c : Ctx) (t u : State) (f : ConvFields) (os : List Operand) (rows : Nat × Nat) (vs : List (Tile × Tile)) (src : Operand) (v1 v : State) (s : State),
    s.instrAt e w 0x80 r g c t →
    c.ringBarred t w = false →
    checks123 c.r.cmd convShape w (convOwn w) = none →
    walkOk c.g (wwalk w) none = true →
    f = convFields w →
    os = convOperands c f w (wwalk w) (c.dst w) (c.srcA w) (c.srcB w) →
    t.staged5 c os = true →
    (convOk f (c.dst w) (c.srcA w) (c.srcB w) && c.convParamOk ((c.dst w).ext 0)) = true →
    convWalkOk f c.g (wwalk w) (c.srcA w) = true →
    mirrorOk f (c.dst w) (c.srcA w) = true →
    rows = band ((c.dst w).ext 2) (walkExt c.g (wwalk w) 1 0) c.width c.pos →
    vs = walkVisits c.g (wwalk w) [rows, (0, (c.dst w).ext 1), (0, (c.dst w).ext 0), (0, (c.dst w).ext 3)] →
    src = os.getD 0 { card := c.srcA w, ref := wsrcA w, split := true, dims := [] } →
    (v1 = ((forEach (lineBoxes (f.winX (c.srcA w)) (f.winY (c.srcA w)) ((c.srcA w).ext 0) none (linesOfWalk c.g (wwalk w) vs)) t fun b t => t.loadBox c src 0 (src.box (vs.headD ([], [])).1) b).count c.r.die c.g.unit 0x40 ((rows.2 - rows.1) * ceilDiv ((c.dst w).ext 1) 16 * ceilDiv ((c.dst w).ext 0) 16 * (c.dst w).ext 3) (some c.cl)).count c.r.die c.g.unit 0x41 (refills (linesOfWalk c.g (wwalk w) vs)) (some c.cl)) →
    v = v1.corrected c c.g.unit (v1.flag (Fld.CEE_CTRL_ecc_enable c.r.die) && decide (chk = .storeCorrected)) →
    unitCheck (v.flag (Fld.CEE_CTRL_check_enable c.r.die) && convInts (c.srcA w)) (v1.flag (Fld.CEE_CTRL_ecc_enable c.r.die)) 0x0801 0x0805 chk = none →
    runWalk c (wwalk w) os (fun o => !o.split) (State.convOut c f (decide (wmods w = 1)) (c.dst w) (c.srcA w) (c.srcB w)) {} vs v = (u, none) →
    exec (.conv e w chk) s = .next (State.ended e (u, none))) ∧
  (∀ (e : Eng) (w : W128) (r : Run) (g : EngRun) (c : Ctx) (t : State) (s : State),
    s.instrAt e w 0x81 r g c t →
    c.ringBarred t w = false →
    checks123 c.r.cmd ⟨.unused, .optional, .optional, false⟩ w (decide (wmods w = 0) && wzero w 8 15) = none →
    ((wsrcA w).absent || (decide ((c.card (wsrcA w).card).typ = 9) && decide ((c.card (wsrcA w).card).scaleType = 0) && decide ((c.card (wsrcA w).card).dims = 1) && decide ((c.card (wsrcA w).card).ext 0 ≤ 256))) = true →
    ((wsrcB w).absent || (decide ((c.card (wsrcB w).card).typ = 9) && decide ((c.card (wsrcB w).card).scaleType = 0) && decide ((c.card (wsrcB w).card).dims = 1) && decide ((c.card (wsrcB w).card).ext 0 ≤ 256))) = true →
    exec (.convParam e w) s = .next (State.ended e (t.modEng e fun g => { g with convParam := some w }, none))) ∧
  (∀ (e : Eng) (w : W128) (chk : EngCheck) (r : Run) (g : EngRun) (c : Ctx) (t u : State) (v : State) (ws : List Writes) (s : State),
    s.instrAt e w 0x90 r g c t →
    c.ringBarred t w = false →
    checks123 c.r.cmd ⟨.required, .required, .optional, false⟩ w (decide (wmods w < 4) && decide (bits (wmods w) 0 2 ≠ 3)) = none →
    ((boxCard (c.srcA w) ((c.dst w).ext 1) && boxCard (c.dst w) ((c.dst w).ext 1) && [7, 8, 9].contains (c.dst w).typ && decide ((c.dst w).scaleType = 0) && (if (wsrcB w).absent then decide (bits (wmods w) 0 2 = 1) else boxCard (c.srcB w) ((c.dst w).ext 1))) = true) →
    unitCheck (t.flag (Fld.PPE_CTRL_check_enable c.r.die)) (t.flag (Fld.PPE_CTRL_ecc_enable c.r.die)) 0x0901 0x0902 chk = none →
    v = t.corrected c c.g.unit (t.flag (Fld.PPE_CTRL_ecc_enable c.r.die) && decide (chk = .storeCorrected)) →
    (tryMap (fun j => match v.row4 c (c.srcA w) j, (if (wsrcB w).absent then .ok [] else v.row4 c (c.srcB w) j) with | .ok x, .ok y => .ok ((c.dst w).storeRow c.rnd c.draw [0, Int.ofNat j, 0, 0, 0] ((natRange 0 4).map fun i => clipTo ([bits (wlong w 12) 8 12, bits (wlong w 12) 20 12].getD (i % 2) 0) ((boxOf c.rho (bits (wmods w) 0 2) (if wword w 9 = 0 then numOne else bf16.decode (wword w 9)) (if wword w 11 = 0 then numOne else bf16.decode (wword w 11)) x y).getD i numZero))) | .error n, _ => .error n | _, .error n => .error n) (natRange 0 ((c.dst w).ext 1)) = .ok ws) →
    (((v.moved c true ((c.srcA w).footprint 0 ++ if (wsrcB w).absent then [] else (c.srcB w).footprint 0)).count c.r.die c.g.unit 0x40 ((c.dst w).ext 1) (some c.cl)).doWrites c c.g.unit (joinWrites ws) = (u, none)) →
    exec (.boxDecode e w chk) s = .next (State.ended e (u, none))) ∧
  (∀ (e : Eng) (w : W128) (chk : EngCheck) (r : Run) (g : EngRun) (c : Ctx) (t u : State) (v : State) (cs : List (List Cand)) (all : List Cand) (s : State),
    s.instrAt e w 0x91 r g c t →
    c.ringBarred t w = false →
    checks123 c.r.cmd ⟨.required, .required, .required, false⟩ w (decide (wmods w < 4) && wzero w 9 11) = none →
    (decide ((c.srcA w).dims = 2) && !(c.srcA w).ember && decide ((c.srcA w).ext 0 * (c.srcA w).ext 1 ≤ 16777216) && boxCard (c.srcB w) ((c.srcA w).ext 1) && decide ((c.srcB w).typ = 9) && decide ((c.srcB w).scaleType = 0) && listCard (c.dst w) 8192) = true →
    unitCheck (t.flag (Fld.PPE_CTRL_check_enable c.r.die)) (t.flag (Fld.PPE_CTRL_ecc_enable c.r.die)) 0x0901 0x0902 chk = none →
    v = t.corrected c c.g.unit (t.flag (Fld.PPE_CTRL_ecc_enable c.r.die) && decide (chk = .storeCorrected)) →
    (tryMap (fun an => match tryMap (fun cl => v.scoreAt c (c.srcA w) (bit (wmods w) 0) cl an) (natRange 0 ((c.srcA w).ext 0)), v.row4 c (c.srcB w) an with | .ok ss, .ok box => .ok (((if bit (wmods w) 1 then [((bestClass (ss.drop 1) 1 (0, ss.headD .nan)).1, (bestClass (ss.drop 1) 1 (0, ss.headD .nan)).2, an)] else (natRange 0 ((c.srcA w).ext 0)).map fun cl => (cl, ss.getD cl .nan, an * (c.srcA w).ext 0 + cl)).filter fun x => (num32 (wlong w 12)).lt x.2.1).map fun (cl, sc, ix) => ({ box := box, score := sc, cls := numOfInt (Int.ofNat cl), index := numOfInt (Int.ofNat ix) } : Cand)) | .error n, _ => .error n | _, .error n => .error n) (natRange 0 ((c.srcA w).ext 1)) = .ok cs) →
    all = cs.flatten.mergeSort candBefore →
    ((v.moved c true ((c.srcA w).footprint 0 ++ (c.srcB w).footprint 0)).count c.r.die c.g.unit 0x41 (all.length - (c.dst w).ext 1) (some c.cl)).doWrites c c.g.unit (listWrites c (c.dst w) (all.take ((c.dst w).ext 1))) = (u, none) →
    exec (.scoreFilter e w chk) s = .next (State.ended e (u, none))) ∧
  (∀ (e : Eng) (w : W128) (chk : EngCheck) (r : Run) (g : EngRun) (c : Ctx) (t u : State) (v : State) (cs kept : List Cand) (n : Nat) (s : State),
    s.instrAt e w 0x92 r g c t →
    c.ringBarred t w = false →
    checks123 c.r.cmd ⟨.required, .required, .unused, false⟩ w (decide (wmods w ≤ 1) && wzero w 13 15) = none →
    (listCard (c.srcA w) 8192 && listCard (c.dst w) 1024 && !(num32 (wlong w 9)).isNan && !(num32 (wlong w 9)).lt numZero && !numOne.lt (num32 (wlong w 9))) = true →
    unitCheck (t.flag (Fld.PPE_CTRL_check_enable c.r.die)) (t.flag (Fld.PPE_CTRL_ecc_enable c.r.die)) 0x0901 0x0902 chk = none →
    v = t.corrected c c.g.unit (t.flag (Fld.PPE_CTRL_ecc_enable c.r.die) && decide (chk = .storeCorrected)) →
    tryMap (v.candAt c.cl (c.srcA w)) (natRange 0 ((c.srcA w).ext 1)) = .ok cs →
    (nmsKeep c.rho ((c.dst w).ext 1) (decide (wmods w = 1)) (num32 (wlong w 9)) ((cs.filter fun k => !k.index.lt numZero).mergeSort candBefore) ([], 0) = (kept, n)) →
    ((v.moved c true ((c.srcA w).footprint 0)).count c.r.die c.g.unit 0x42 n (some c.cl)).doWrites c c.g.unit (listWrites c (c.dst w) kept.reverse) = (u, none) →
    exec (.nms e w chk) s = .next (State.ended e (u, none)))

/-- O29. On an engine at the named instruction (`instrAt`), with its operands decoded and passed, no compute operand in the ring window, what it reads readable, its checks finding nothing and the destination writable (`doWrites` ends in u), the instruction ends with: (1) ATTEND: for each row of its band the attention over the pages that its tile sees, with the pages read and skipped counted. (2) ATT_PARAM: itself as the parameters of the engine’s later attention. (3) MERGE: for each row the two states merged. (4) ATTEND_RING with every block at hand: for each row the attention over the blocks in their order, with pages read and skipped and the landed and home blocks counted. (5) With a block still to land, or to become ready at home, it only stalls, with its word, the block and the time. (6) KV_APPEND: the pages of its sequences with the new tokens, their table entries and the sequence words that publish them (`appendSeq`). (7) BLK_PACK on the first engine: the block’s header and after it the pages that the table names, packed. (8) On any other: nothing. (9) BLK_SEND on the first engine: its block offered by the relay of the pass to the next member, where that die’s logic is up. (10) Nothing where the relay’s logic is not up, (11) nor on any other engine. (12) EMB_DECODE: the values of the blocks of its band. (13) EMB_ENCODE: the encoded blocks of its band, and from the first engine the stream’s header. (14) EMB_REWRAP: the blocks of its band in the other form, under the nonce and key it names, and from the first engine the header; the same form copies them. (spec/08_attention_and_kv_store.md, spec/09_ember_compression.md, spec/04_tile_programs.md) -/
def Obligations.AttentionAndCodecInstructionsComplete : Prop :=
  (∀ (e : Eng) (w : W128) (chk : EngCheck) (r : Run) (g : EngRun) (c : Ctx) (t u : State) (x : Att) (table seq : Card) (ws : List SeqWords) (vs : List (Nat × List Nat × Nat)) (v : State) (rs : Writes) (s : State),
    s.instrAt e w 0x70 r g c t →
    c.ringBarred t w = false →
    checks123 c.r.cmd attShape w (decide (wmods w < 8) && wzero w 15 15) = none →
    c.attend w = .ok (x, table, seq) →
    tryMap (t.seqWords c.cl seq) (natRange 0 (x.q.ext 3)) = .ok ws →
    vs = (x.tiles (c.bandRows x.d)).map (fun (q, ts) => (q, x.tileVisits (ws.getD q ⟨0, 0, 0⟩) ts)) →
    (v = (((t.moved c true (x.reads (c.bandRows x.d) ++ seq.wholeRows ((natRange 0 (x.q.ext 3)).map fun (i : Nat) => [0, Int.ofNat i, 0, 0, 0]) ++ vs.flatMap fun (q, p) => t.visitReads c.cl x (c.srcB w) table q p.1)).count c.r.die c.g.unit 0x40 (vs.flatMap fun (_, p) => p.1).length (some c.cl)).count c.r.die c.g.unit 0x41 ((vs.map fun p => p.2.2).foldl (· + ·) 0) (some c.cl)).ateCorrected c chk) →
    v.ateCheck c chk = none →
    rowWrites (t.attRow c x (c.srcB w) table ws) (c.bandRows x.d) = .ok rs →
    v.doWrites c c.g.unit rs = (u, none) →
    exec (.attend e w chk) s = .next (State.ended e (u, none))) ∧
  (∀ (e : Eng) (w : W128) (r : Run) (g : EngRun) (c : Ctx) (t : State) (s : State),
    s.instrAt e w 0x71 r g c t →
    c.ringBarred t w = false →
    (allAbsent w && decide (wmods w = 0) && decide (wbyte w 8 = 0) && wzero w 15 15) = true →
    wbyte w 13 ≤ 16 →
    wbyte w 14 ≤ 16 →
    exec (.attParam e w) s = .next (State.ended e (t.modEng e fun g => { g with attParam := some w }, none))) ∧
  (∀ (e : Eng) (w : W128) (chk : EngCheck) (r : Run) (g : EngRun) (c : Ctx) (t u : State) (x : Att) (v : State) (rs : Writes) (s : State),
    s.instrAt e w 0x72 r g c t →
    c.ringBarred t w = false →
    checks123 c.r.cmd attShape w ((decide (wmods w = 0) || decide (wmods w = 4)) && wzero w 9 15) = none →
    mergeOk (decide (wmods w = 4)) (c.dst w) (c.srcA w) (c.srcB w) = true →
    x = { f := parseFmt 0, d := c.dst w, q := c.srcA w, up := none, init := none, causal := false, partial_ := decide (wmods w = 4), dv := (c.srcA w).ext 0 - 2 } →
    v = (t.moved c true ((c.srcA w).wholeRows (c.bandRows (c.dst w)) ++ (c.srcB w).wholeRows (c.bandRows (c.dst w)))).ateCorrected c chk →
    v.ateCheck c chk = none →
    rowWrites (fun i => match t.attInit c.cl { x with init := some (c.srcA w) } i, t.attInit c.cl { x with init := some (c.srcB w) } i with | .ok p, .ok q => .ok (x.store c i (mergeStates c.rho p q)) | .error n, _ => .error n | _, .error n => .error n) (c.bandRows (c.dst w)) = .ok rs →
    v.doWrites c c.g.unit rs = (u, none) →
    exec (.merge e w chk) s = .next (State.ended e (u, none))) ∧
  (∀ (e : Eng) (w : W128) (chk : EngCheck) (r : Run) (g : EngRun) (c : Ctx) (t u : State) (x : Att) (p : PassDesc) (hs : List HomeState) (rows : List Ix) (st : RingStep) (home : List Nat) (srcs : List (Nat × BlkHdr × Bool)) (pages : List (Nat × Nat)) (skipped : Nat) (v : State) (rs : Writes) (s : State),
    s.instrAt e w 0x73 r g c t →
    c.ringBarred t w = false →
    checks123 c.r.cmd attShape w (decide (wmods w < 8) && wzero w 15 15) = none →
    t.ringOps c w = .ok (x, p) →
    t.homeStates c.cl p = .ok hs →
    (hs.map HomeState.count).foldl (· + ·) 0 ≤ 16777216 →
    rows = c.bandRows x.d →
    (st = t.settleBlocks c.cl (c.srcB w).base p x.causal (wlong w 9 + (rows.map fun i => (ixAt i 2).toNat).foldl max 0) (!rows.isEmpty) hs (natRange 0 p.parts) c.g.homeBlocks) →
    st = .done home →
    (srcs = t.ringSources c.cl (c.srcB w).base p x.causal (wlong w 9 + (rows.map fun i => (ixAt i 2).toNat).foldl max 0) (!rows.isEmpty) hs home) →
    (x.ringVisits (wlong w 9) rows (srcs.map fun q => (q.1, q.2.1)) = (pages, skipped)) →
    (v = (((((t.moved c true (x.reads rows ++ [((c.srcB w).base, 64), (p.homeTable, 16 * p.parts)] ++ (srcs.map fun q => (q.1, 256)) ++ pages)).count c.r.die c.g.unit 0x40 pages.length (some c.cl)).count c.r.die c.g.unit 0x41 skipped (some c.cl)).count c.r.die c.g.unit 0x42 (srcs.filter fun q => q.2.2).length (some c.cl)).count c.r.die c.g.unit 0x43 (srcs.filter fun q => !q.2.2).length (some c.cl)).ateCorrected c chk) →
    v.ateCheck c chk = none →
    (rowWrites (t.ringRow c x (wlong w 9) (srcs.map fun q => (q.1, q.2.1))) rows = .ok rs) →
    v.doWrites c c.g.unit rs = (u, none) →
    exec (.attendRing e w chk) s = .next (State.ended e (u, none))) ∧
  (∀ (e : Eng) (w : W128) (chk : EngCheck) (r : Run) (g : EngRun) (c : Ctx) (t : State) (x : Att) (p : PassDesc) (hs : List HomeState) (rows : List Ix) (st : RingStep) (k : Nat) (home : List Nat) (s : State),
    s.instrAt e w 0x73 r g c t →
    c.ringBarred t w = false →
    checks123 c.r.cmd attShape w (decide (wmods w < 8) && wzero w 15 15) = none →
    t.ringOps c w = .ok (x, p) →
    t.homeStates c.cl p = .ok hs →
    (hs.map HomeState.count).foldl (· + ·) 0 ≤ 16777216 →
    rows = c.bandRows x.d →
    (st = t.settleBlocks c.cl (c.srcB w).base p x.causal (wlong w 9 + (rows.map fun i => (ixAt i 2).toNat).foldl max 0) (!rows.isEmpty) hs (natRange 0 p.parts) c.g.homeBlocks) →
    (st = .waitLand k home ∨ st = .waitHome k home) →
    exec (.attendRing e w chk) s = .next (State.ended e (t.waitRing e c w (if st = .waitLand k home then .landing k p.waitUs t.tb else .home k p.waitUs t.tb t.tb) home, none))) ∧
  (∀ (e : Eng) (w : W128) (chk : EngCheck) (r : Run) (g : EngRun) (c : Ctx) (t u : State) (x : Append) (lo hi : Nat) (seqs : List Nat) (rd : Card → List (Nat × Nat)) (v : State) (ws : List Writes) (s : State),
    s.instrAt e w 0x74 r g c t →
    c.ringBarred t w = false →
    checks123 c.r.cmd ⟨.required, .required, .optional, false⟩ w (decide (wmods w = 0) && wzero w 15 15) = none →
    t.appendOps c w = .ok x →
    band x.ws.length 1 c.width c.pos = (lo, hi) →
    seqs = natRange lo (hi - lo) →
    (rd = (fun k : Card => seqs.flatMap fun i => (natRange 0 (x.ws.getD i ⟨0, 0, 0⟩).qpos).map fun (j : Nat) => (k.rowAddr [0, Int.ofNat j, Int.ofNat i, 0, 0], k.rowBytes))) →
    (v = (t.moved c true (rd x.lat ++ (match x.pos with | some k => rd k | none => []) ++ (match c.immCard (wbyte w 10) with | .ok (some k) => k.wholeRows ((natRange 0 x.ws.length).map fun (i : Nat) => [0, Int.ofNat i, 0, 0, 0]) | _ => []) ++ [(x.free.base + 4 * below SeqWords.newPages x.ws lo, 4 * (seqs.map fun i => ((x.ws.getD i ⟨0, 0, 0⟩).newPages).length).foldl (· + ·) 0)] ++ seqs.flatMap fun i => ((x.ws.getD i ⟨0, 0, 0⟩).touched.filter fun n => decide (16 * n < (x.ws.getD i ⟨0, 0, 0⟩).len)).map fun n => (entryAddr x.table n i, 8))).ateCorrected c chk) →
    v.ateCheck c chk = none →
    tryMap (t.appendSeq c x) seqs = .ok ws →
    v.doWrites c c.g.unit (joinWrites ws) = (u, none) →
    exec (.kvAppend e w chk) s = .next (State.ended e (u, none))) ∧
  (∀ (e : Eng) (w : W128) (r : Run) (g : EngRun) (c : Ctx) (t u : State) (p : PassDesc) (table : Card) (n : Nat) (pages : List (List Byte)) (s : State),
    s.instrAt e w 0x20 r g c t →
    checks123 c.r.cmd moverShape2 w (decide (wmods w = 0) && wzero w 15 15) = none →
    c.pos = 0 →
    t.packOps c w (wword w 10) (wlong w 12 % 16777216) = .ok (p, table) →
    n = ceilDiv (wlong w 12 % 16777216) 16 →
    tryMap (t.packPage c.cl (parseFmt p.fmt) (c.srcA w) table (wword w 10) (wlong w 12 % 16777216)) (natRange 0 n) = .ok pages →
    ((t.moved c true (t.packReads c.cl (parseFmt p.fmt) (c.srcA w) table (wword w 10) n ++ [((c.srcB w).base, 64)])).doWrites c c.g.unit { items := ((c.dst w).base, blkHeader p (wlong w 12 % 16777216)) :: (natRange 0 n).map fun k => ((c.dst w).base + 256 + k * (parseFmt p.fmt).slot, pages.getD k []) } = (u, none)) →
    exec (.blkPack e w) s = .next (State.ended e (u, none))) ∧
  (∀ (e : Eng) (w : W128) (r : Run) (g : EngRun) (c : Ctx) (t : State) (s : State),
    s.instrAt e w 0x20 r g c t →
    checks123 c.r.cmd moverShape2 w (decide (wmods w = 0) && wzero w 15 15) = none →
    c.pos ≠ 0 →
    exec (.blkPack e w) s = .next (State.ended e (t, none))) ∧
  (∀ (e : Eng) (w : W128) (r : Run) (g : EngRun) (c : Ctx) (t : State) (p : PassDesc) (s : State),
    s.instrAt e w 0x21 r g c t →
    checks123 c.r.cmd ⟨.unused, .required, .required, false⟩ w (decide (wmods w = 0) && wzero w 9 15) = none →
    c.pos = 0 →
    t.passCard (c.srcB w) = true →
    byteCard (c.srcA w) 1 = true →
    (c.srcA w).cls = 5 →
    t.readPass c.cl (c.srcB w).base = .ok p →
    t.logicUp p.relayDie = true →
    exec (.blkSend e w) s = .next (State.ended e (t.sendOffer p.relayDie { passId := p.passId, origin := p.position, hop := 1, descAddr := t.windowAddr p.nextPkg p.nextAddr, srcAddr := (c.srcA w).base, client := c.cl }, none))) ∧
  (∀ (e : Eng) (w : W128) (r : Run) (g : EngRun) (c : Ctx) (t : State) (p : PassDesc) (s : State),
    s.instrAt e w 0x21 r g c t →
    checks123 c.r.cmd ⟨.unused, .required, .required, false⟩ w (decide (wmods w = 0) && wzero w 9 15) = none →
    c.pos = 0 →
    t.passCard (c.srcB w) = true →
    byteCard (c.srcA w) 1 = true →
    (c.srcA w).cls = 5 →
    t.readPass c.cl (c.srcB w).base = .ok p →
    t.logicUp p.relayDie = false →
    exec (.blkSend e w) s = .next (State.ended e (t, none))) ∧
  (∀ (e : Eng) (w : W128) (r : Run) (g : EngRun) (c : Ctx) (t : State) (s : State),
    s.instrAt e w 0x21 r g c t →
    checks123 c.r.cmd ⟨.unused, .required, .required, false⟩ w (decide (wmods w = 0) && wzero w 9 15) = none →
    c.pos ≠ 0 →
    exec (.blkSend e w) s = .next (State.ended e (t, none))) ∧
  (∀ (e : Eng) (w : W128) (chk : EngCheck) (r : Run) (g : EngRun) (c : Ctx) (t u : State) (em : Ember) (qs : List Nat) (rd : EmRead) (s : State),
    s.instrAt e w 0x98 r g c t →
    c.ringBarred t w = false →
    checks123 c.r.cmd moverShape1 w (decide (wmods w = 0) && wzero w 9 15) = none →
    ((c.srcA w).emberOk && !(c.dst w).ember && sameExt (c.dst w) (c.srcA w)) = true →
    t.openEmber c.cl (c.srcA w) = .ok em →
    (lossless (c.dst w) em || scaledForm (c.dst w)) = true →
    unitCheck (t.flag (Fld.CDC_CTRL_check_enable c.r.die c.num)) false 0x0C07 0x0C07 chk = none →
    qs = em.bandBlocks c (c.dst w) (c.bandRows (c.dst w)) →
    t.emRead c.cl em false [] qs = .ok rd →
    ((t.moved c true (em.blockRanges qs)).count c.r.die c.g.unit 0x40 qs.length (some c.cl)).doWrites c c.g.unit (joinWrites ((c.bandRows (c.dst w)).map (rd.decodeCol c (c.dst w) (c.rowLen (c.dst w))))) = (u, none) →
    exec (.embDecode e w chk) s = .next (State.ended e (u, none))) ∧
  (∀ (e : Eng) (w : W128) (chk : EngCheck) (r : Run) (g : EngRun) (c : Ctx) (t u : State) (m : Nat) (z : Int) (map : Card) (st : EmSet) (pairs : List (Nat × Nat)) (h : EmHdr) (ws : Writes) (s : State),
    s.instrAt e w 0x99 r g c t →
    c.ringBarred t w = false →
    checks123 c.r.cmd moverShape2 w (decide (wmods w = 0)) = none →
    c.immCards [wbyte w 9] = .ok [some map] →
    ((c.dst w).emberOk && !(c.srcA w).ember && sameExt (c.dst w) (c.srcA w) && [7, 8, 9].contains (c.srcA w).typ && decide ((c.srcA w).scaleType = 0) && decide ((c.srcB w).typ = 4) && decide ((c.srcB w).base = (c.dst w).scaleBase)) = true →
    (decide (map.typ = 4) && !map.ember && extIs map [2, ceilDiv ((c.dst w).ext 1) 128, (c.dst w).ext 2]) = true →
    num32 (wlong w 12) = .fin false m z →
    m ≠ 0 →
    t.openSet c.cl (c.dst w).scaleBase = .ok st →
    t.cbMap c.cl map = .ok pairs →
    encodeHdr (c.dst w) st pairs (wword w 10) = some h →
    streamRoom (c.dst w) h = true →
    unitCheck (t.flag (Fld.CDC_CTRL_check_enable c.r.die c.num)) false 0x0C07 0x0C07 chk = none →
    rowWrites (t.encodeCol c ⟨c.dst w, h, st.books⟩ (c.srcA w) map pairs (num32 (wlong w 12))) (c.bandRows (c.dst w)) = .ok ws →
    (((t.moved c true ((c.srcA w).rowRanges (c.rowLen (c.dst w)) (c.bandRows (c.dst w)))).count c.r.die c.g.unit 0x41 ws.items.length (some c.cl)).doWrites c c.g.unit ((if c.pos = 0 then { items := [((c.dst w).base, h.bytes (c.dst w))] } else ({} : Writes)).append ws) = (u, none)) →
    exec (.embEncode e w chk) s = .next (State.ended e (u, none))) ∧
  (∀ (e : Eng) (w : W128) (chk : EngCheck) (r : Run) (g : EngRun) (c : Ctx) (t u : State) (em : Ember) (same : Bool) (qs : List Nat) (raws : List (Nat × List Byte)) (nonce : Nat) (o : Ember) (s : State),
    s.instrAt e w 0x9A r g c t →
    c.ringBarred t w = false →
    checks123 c.r.cmd moverShape1 w (decide (wmods w ≤ 1) && decide (wrnd w = 0) && wzero w 9 11 && (decide (wmods w = 1) || decide (wlong w 12 = 0))) = none →
    ((c.dst w).emberOk && (c.srcA w).emberOk && sameExt (c.dst w) (c.srcA w) && decide ((c.dst w).scaleBase = (c.srcA w).scaleBase) && decide ((c.dst w).scaleType = (c.srcA w).scaleType) && decide ((c.dst w).group = (c.srcA w).group)) = true →
    t.openEmber c.cl (c.srcA w) = .ok em →
    streamRoom (c.dst w) em.h = true →
    same = (em.h.compat == decide (wmods w = 1)) →
    (qs = (c.bandRows (c.dst w)).flatMap fun i => (em.ownBlocks c (c.dst w) i).map fun kb => em.blockNo kb (ixAt i 1).toNat (ixAt i 2).toNat) →
    tryMap (fun q => match t.emRaw c.cl em q with | .ok b => .ok (q, b) | .error n => .error n) qs = .ok raws →
    em.groupsOk raws [] = true →
    (same = true ∨ (mapFind t.keys.compatKeys c.cl).isSome = true) →
    unitCheck (t.flag (Fld.CDC_CTRL_check_enable c.r.die c.num)) false 0x0C07 0x0C07 chk = none →
    (nonce = (if same then em.h.nonce else if wmods w = 1 then wlong w 12 else em.h.nonce)) →
    (o = ⟨c.dst w, { em.h with compat := decide (wmods w = 1), nonce := if wmods w = 1 then nonce else 0 }, em.books⟩) →
    ((t.moved c true (em.blockRanges qs)).doWrites c c.g.unit { items := (if c.pos = 0 then [((c.dst w).base, o.h.bytes (c.dst w))] else []) ++ raws.map fun (q, b) => (o.blockAddr q, if same then b else em.rewrap (t.compatKey c.cl) nonce q b) } = (u, none)) →
    exec (.embRewrap e w chk) s = .next (State.ended e (u, none)))

/-- O30. Of the relay of a fitted die, or of an engine that waits in ATTEND_RING: (1) an offer under an old epoch, or while the logic is not up, is answered with RETRY. (2) An offer whose pass descriptor cannot be read is declined, and the sender lets the block go. (3) So is one of another pass, or whose slot already holds the block or a later one; declines_seen is then 1. (4) One whose slot holds a block not yet forwarded is declined, and a sender in this package keeps it to repeat. (5) Any other is granted and its slot is kept for it. (6) A grant between two dies of this package copies the block, its landing state set, into the slot in pieces of 64 B, of which those that no backed page takes are dropped, counts its bytes in both relays and sends the landing notice, and an ATE waiting for it goes on. (7) A declined offer is sent again after 1 µs. (8) A RETRY of an offer or a notice sent fewer than four times before, 1 µs after the last, takes the epoch it brings and sends it again; (9) the next one skips the participant (`skipParticipant`). (10) Skipping sets skips_seen and offers the block to the next participant, or, past the last, lets it go. (11) An ATE that waited its limit for block k resumes, and reads that block from home. (12) One that waits for a home block reads its header again 10 µs after the last time: where the block is ready, it resumes; (13) where it is not ready, its command fails with 0x0A06 after the limit, and before that it waits on; (14) where its package cannot be reached, the command fails with 0x0A07. (spec/08_attention_and_kv_store.md) -/
def Obligations.RelaysPassBlocksOn : Prop :=
  (∀ (die : Nat) (o : Offer) (s : State),
    s.fitted die = true →
    s.relayStale die o.epoch = true →
    exec (.blockOffer die o) s = .next (s.toRelay o.sender (offerBack o) (.relayRetry o.sender o false (s.epoch (dieUnit die))))) ∧
  (∀ (die d : Nat) (o : Offer) (s : State),
    s.fitted die = true →
    s.relayStale die o.epoch = false →
    s.readPass o.client o.descAddr = .error d →
    exec (.blockOffer die o) s = .next ((s.declineOffer die o).letGo o.sender o)) ∧
  (∀ (die : Nat) (o : Offer) (p : PassDesc) (s : State),
    s.fitted die = true →
    s.relayStale die o.epoch = false →
    s.readPass o.client o.descAddr = .ok p →
    p.passId ≠ o.passId →
    exec (.blockOffer die o) s = .next (((s.setFlag (Fld.MOV_RELAY_STATUS_declines_seen die) true).declineOffer die o).letGo o.sender o)) ∧
  (∀ (die a : Nat) (o : Offer) (p : PassDesc) (s : State),
    s.fitted die = true →
    s.relayStale die o.epoch = false →
    s.readPass o.client o.descAddr = .ok p →
    p.passId = o.passId →
    s.slotHolds o.client o.descAddr p o.hop = false →
    a = s.slotAddr o.descAddr p o.hop →
    (s.relay die).blocks.any (fun b => decide (b.addr = a) && (b.landing || !b.forwarded)) = true →
    o.sender < 16 →
    exec (.blockOffer die o) s = .next ((s.declineOffer die o).modRelay o.sender fun r => { r with repeats := r.repeats ++ [(o, s.tb)] })) ∧
  (∀ (die a : Nat) (o : Offer) (p : PassDesc) (s : State),
    s.fitted die = true →
    s.relayStale die o.epoch = false →
    s.readPass o.client o.descAddr = .ok p →
    p.passId = o.passId →
    s.slotHolds o.client o.descAddr p o.hop = false →
    a = s.slotAddr o.descAddr p o.hop →
    (s.relay die).blocks.any (fun b => decide (b.addr = a) && (b.landing || !b.forwarded)) = false →
    exec (.blockOffer die o) s = .next ((s.modRelay die fun r => { r with blocks := { desc := o.descAddr, addr := a, passId := o.passId, origin := o.origin, hop := o.hop, landing := true, forwarded := false } :: r.blocks.filter fun x => decide (x.addr ≠ a) }).toRelay o.sender (offerBack o) (.grant o.sender o))) ∧
  (∀ (die dst n : Nat) (o : Offer) (p : PassDesc) (h : BlkHdr) (b : List Byte) (s : State),
    s.fitted die = true →
    s.logicUp die = true →
    die < 16 →
    s.readPass o.client o.descAddr = .ok p →
    s.relayOf (s.pkgOf o.descAddr) p.relayDie < 16 →
    dst = s.slotAddr o.descAddr p o.hop →
    (s.relay (s.relayOf (s.pkgOf o.descAddr) p.relayDie)).blocks.any (fun b => decide (b.addr = dst) && decide (b.hop = o.hop) && decide (b.passId = o.passId) && b.landing) = true →
    s.readBlk o.client o.srcAddr = .ok h →
    n = min p.blockBytes (blkBytes (parseFmt h.fmt) h.count) →
    s.cread o.client o.srcAddr n = .ok b →
    exec (.blockGrant die o) s = .next (((((((writePieces (fun t x => t.place o.client x) false (cutBytes 64 (n + 1) dst (landedBytes b o.hop)) (s.endTries die o)).1).relayBytes o.client die o.srcAddr n true).relayBytes o.client die dst n false).relayCount die 0x40 (2 * n)).sendNotice die p o).wakeLanding o.descAddr o.hop)) ∧
  (∀ (die t : Nat) (o o1 : Offer) (s : State),
    s.fitted die = true →
    s.logicUp die = true →
    (s.relay die).repeats.find? (fun x => sameOffer x.1 o) = some (o1, t) →
    s.passedUs t 1 = true →
    exec (.offerRepeat die o) s = .next ((s.modRelay die fun r => { r with repeats := r.repeats.filter fun x => !sameOffer x.1 o }).sendOffer die o)) ∧
  (∀ (die epoch n t : Nat) (o : Offer) (notice : Bool) (p : PassDesc) (rest : Relay → List (Offer × Bool × Nat × Nat)) (s0 s : State),
    s.fitted die = true →
    s.logicUp die = true →
    (s.relay die).tries.find? (fun x => sameOffer x.1 o && decide (x.2.1 = notice)) = some (o, notice, n, t) →
    s.passedUs t 1 = true →
    s.readPass o.client o.descAddr = .ok p →
    s0 = { s with known := mapSet s.known (dieUnit (s.relayOf (s.pkgOf o.descAddr) p.relayDie)) (epoch % 65536) } →
    (rest = (fun r : Relay => r.tries.filter fun x => !(sameOffer x.1 o && decide (x.2.1 = notice)))) →
    n < 4 →
    exec (.relayRetry die o notice epoch) s = .next (if notice then (s0.modRelay die fun r => { r with tries := (o, notice, n + 1, s.tb) :: rest r }).sendNotice die p o else (s0.modRelay die fun r => { r with tries := (o, notice, n + 1, s.tb) :: rest r }).sendOffer die o)) ∧
  (∀ (die epoch n t : Nat) (o : Offer) (notice : Bool) (p : PassDesc) (rest : Relay → List (Offer × Bool × Nat × Nat)) (s0 s : State),
    s.fitted die = true →
    s.logicUp die = true →
    (s.relay die).tries.find? (fun x => sameOffer x.1 o && decide (x.2.1 = notice)) = some (o, notice, n, t) →
    s.passedUs t 1 = true →
    s.readPass o.client o.descAddr = .ok p →
    s0 = { s with known := mapSet s.known (dieUnit (s.relayOf (s.pkgOf o.descAddr) p.relayDie)) (epoch % 65536) } →
    (rest = (fun r : Relay => r.tries.filter fun x => !(sameOffer x.1 o && decide (x.2.1 = notice)))) →
    4 ≤ n →
    exec (.relayRetry die o notice epoch) s = .next ((s0.modRelay die fun r => { r with tries := rest r }).skipParticipant die p o)) ∧
  (∀ (die : Nat) (p : PassDesc) (o : Offer) (s s1 : State),
    s1 = s.setFlag (Fld.MOV_RELAY_STATUS_skips_seen die) true →
    (o.hop + 1 < p.parts → s.skipParticipant die p o = s1.sendOffer die { o with hop := o.hop + 1, descAddr := s1.windowAddr p.nextPkg p.nextAddr }) ∧
    (p.parts ≤ o.hop + 1 → s.skipParticipant die p o = s1.letGo die o)) ∧
  (∀ (e : Eng) (k limit since : Nat) (r : Run) (g : EngRun) (s : State),
    s.engOf e = some (r, g) →
    g.stall = .landing k limit since →
    s.passedUs since limit = true →
    exec (.landWaitTimeout e) s = .next ((s.resumeRing e r g since).modEng e fun x => { x with homeBlocks := k :: x.homeBlocks })) ∧
  (∀ (e : Eng) (k limit since last a : Nat) (w : W128) (p : PassDesc) (b : BlkHdr) (r : Run) (g : EngRun) (s : State),
    s.engOf e = some (r, g) →
    g.stall = .home k limit since last →
    g.ringWord = some w →
    s.passedUs last 10 = true →
    s.readPass r.client (r.cmd.cards.getD (wsrcB w).card {}).base = .ok p →
    s.homeState r.client p k = .ok (.ready a b) →
    exec (.homeBlockRecheck e) s = .next (s.resumeRing e r g since)) ∧
  (∀ (e : Eng) (k limit since last : Nat) (w : W128) (p : PassDesc) (r : Run) (g : EngRun) (s : State),
    s.engOf e = some (r, g) →
    g.stall = .home k limit since last →
    g.ringWord = some w →
    s.passedUs last 10 = true →
    s.readPass r.client (r.cmd.cards.getD (wsrcB w).card {}).base = .ok p →
    s.homeState r.client p k = .ok .notReady →
    (s.passedUs since limit = true → exec (.homeBlockRecheck e) s = .next ((s.setFlag (Fld.ATE_STATUS_waiting e.die (engNumber e.die g)) false).failEng e 0x0A06)) ∧
    (s.passedUs since limit = false → exec (.homeBlockRecheck e) s = .next (s.modEng e fun x => { x with stall := .home k limit since s.tb }))) ∧
  (∀ (e : Eng) (k limit since last : Nat) (w : W128) (p : PassDesc) (r : Run) (g : EngRun) (s : State),
    s.engOf e = some (r, g) →
    g.stall = .home k limit since last →
    g.ringWord = some w →
    s.passedUs last 10 = true →
    s.readPass r.client (r.cmd.cards.getD (wsrcB w).card {}).base = .ok p →
    s.homeState r.client p k = .ok .unreachable →
    exec (.homeBlockRecheck e) s = .next ((s.setFlag (Fld.ATE_STATUS_waiting e.die (engNumber e.die g)) false).failEng e 0x0A07))

/-- O31. Of a fitted compute die: (1) a drain of a READY die with its gate open makes it DRAINING, cause 8, and holds it out at once where it is already empty and hold_out is 1 (`holdDrained`). (2) 10 ms into the drain its runs are pre-empted and its parked residencies end. (3) A drained die is powered down: its gate closes and its power goes (`closeGate`). (4) A release of logic that is powered down or held out clears held_out, powers it and starts its self-test; (5) of a drained die it does the same behind a closed gate. (6) A reset with a cause 1 to 7 of a die in service takes it out with that cause (`takeOutDie`); cause 7 also marks it out for its temperature. (7) A start-up self-test with enough passing engines (`startEngines` puts those in service that no test has taken out) makes logic not taken out before READY, opens its gate and sends its epoch notice; (8) with too few, it stays in RESET and the take-out is logged. (9) An island failure logs itself, island_up 0, takes the whole die out with cause 6, takes its links down and abandons the page moves of its groups. (10) In power state RUN a die with nothing running or on its way, idle for idle_us, has its engine clocks gated. (spec/13_faults_safety_recovery.md, spec/15_power_clocks_time.md, spec/01_package_and_paths.md) -/
def Obligations.DiesLeaveAndReturnToService : Prop :=
  (∀ (die : Nat) (s : State),
    s.fitted die = true →
    s.logicState die = logicReady →
    (s.dieSt die).gate = true →
    exec (.dieDrain die) s = .next ((((s.setFld (Fld.CDG_STATUS_logic_state die) logicDraining).setFld (Fld.CFR_CAUSE_last_cause die) 8).modDie die fun x => { x with drainAt := some s.tb }).holdDrained die)) ∧
  (∀ (die t0 : Nat) (s1 s : State),
    (s.dieSt die).drainAt = some t0 →
    s.logicState die = logicDraining →
    s.passedUs t0 10000 = true →
    s1 = forEach (s.liveRuns die) s (fun r t => match t.run? die r.entry with | some x => t.preempt x | none => t) →
    exec (.drainTimeout die) s = .next ((forEach (s1.residencies.filter fun x => decide (x.die = die)) s1 fun x t => t.endResidency x true).holdDrained die)) ∧
  (∀ (die : Nat) (s : State),
    s.fitted die = true →
    s.drained die = true →
    exec (.dieLogicOff die) s = .next ((((s.modDie die fun x => { x with loggedOff := true }).closeGate die true).notePresent die).refreshReady)) ∧
  (∀ (die : Nat) (s : State),
    s.fitted die = true →
    (s.dieSt die).islandFailed = false →
    s.drained die = false →
    (s.dieSt die).gate = false →
    (s.dieSt die).loggedOff = true ∨ s.flag (Fld.CFR_STATUS_held_out die) = true →
    exec (.dieRelease die) s = .next (((((s.setFlag (Fld.CFR_STATUS_held_out die) false).modDie die fun x => { x with loggedOff := false, since := s.tb }).setFlag (Fld.CPC_STATUS_logic_powered die) true).setFld (Fld.CDG_STATUS_logic_state die) logicSelftest).notePresent die)) ∧
  (∀ (die : Nat) (s1 s : State),
    s.fitted die = true →
    (s.dieSt die).islandFailed = false →
    s.drained die = true →
    s1 = s.closeGate die false →
    exec (.dieRelease die) s = .next (((((s1.setFlag (Fld.CFR_STATUS_held_out die) false).modDie die fun x => { x with loggedOff := false, since := s1.tb }).setFlag (Fld.CPC_STATUS_logic_powered die) true).setFld (Fld.CDG_STATUS_logic_state die) logicSelftest).notePresent die)) ∧
  (∀ (die cause : Nat) (s : State),
    s.fitted die = true →
    (s.dieSt die).gate = true →
    1 ≤ cause →
    cause ≤ 7 →
    (cause ≠ 7 → exec (.dieLogicReset die cause) s = .next (s.takeOutDie die cause false)) ∧
    (cause = 7 → exec (.dieLogicReset die cause) s = .next ((s.takeOutDie die 7 false).modDie die fun x => { x with thermalOut := true }))) ∧
  (∀ (die : Nat) (pass : W32) (s1 s2 s : State),
    s.fitted die = true →
    (s.dieSt die).gate = false →
    (s.dieSt die).islandFailed = false →
    (s.dieSt die).loggedOff = false →
    (s.dieSt die).thermalOut = false →
    s.flag (Fld.CFR_STATUS_held_out die) = false →
    s.saf.damped = false →
    s.logicState die = logicSelftest →
    s1 = (s.startEngines die).dieMap die pass →
    (s1.dieSt die).startFailed = false →
    s2 = (s1.setFld (Fld.CDG_STATUS_logic_state die) logicReady).setFlag (Fld.CPC_STATUS_logic_powered die) true →
    (s.dieSt die).takeoutAt = [] →
    exec (.dieSelftestDone die pass) s = .next (((s2.modDie die fun y => { y with gate := true, since := s.tb }).send (.epochNotice (dieUnit die) (s2.epoch (dieUnit die)))).refreshReady)) ∧
  (∀ (die : Nat) (pass : W32) (s1 s : State),
    s.fitted die = true →
    (s.dieSt die).gate = false →
    (s.dieSt die).islandFailed = false →
    (s.dieSt die).loggedOff = false →
    (s.dieSt die).thermalOut = false →
    s.flag (Fld.CFR_STATUS_held_out die) = false →
    s.saf.damped = false →
    s.logicState die = logicSelftest →
    s1 = (s.startEngines die).dieMap die pass →
    (s1.dieSt die).startFailed = true →
    exec (.dieSelftestDone die pass) s = .next ((s1.setFld (Fld.CDG_STATUS_logic_state die) logicReset).logEvent 2 3 (dieUnit die) 0)) ∧
  (∀ (die : Nat) (s1 s2 s : State),
    s.fitted die = true →
    (s.dieSt die).islandFailed = false →
    (s1 = ((s.modDie die fun x => { x with islandFailed := true, island := false }).logEvent 2 3 (unitOf hubDie (0x080 + die)) 0).setFlag (Fld.CDG_STATUS_island_up die) false) →
    (s1.dieSt die).gate = true →
    (s2 = forEach [0x080, 0x081, 0x082] (s1.takeOutDie die 6 true) fun e t => t.linkDown (unitOf die e)) →
    exec (.islandFailure die) s = .next (((forEach s2.moves s2 fun x t => if x.2.phase = .copying ∧ (groupDie x.2.oldGroup = die ∨ groupDie x.2.newGroup = die) then t.abandonMove x.1 else t).notePresent die).refreshReady)) ∧
  (∀ (die : Nat) (s : State),
    s.fitted die = true →
    s.power.phase = .run →
    s.inFlightOn die = false →
    s.passedUs (s.dieSt die).idleSince (s.fld Fld.PWR_CTRL_idle_us) = true →
    exec (.dieIdleGate die) s = .next (s.modPower fun p => { p with gated := mapSet p.gated die () }))

/-- O32. Of the page map and its command register: (1) a write of enable with an aligned base inside the device memory makes the page at the base a system page and sets enable; with any other base it sets enable_error; once enabled it changes nothing. (2) A write of go while busy is 1 changes nothing, for each of the six operations. (3) Otherwise each takes its fields (u) and runs as the operation k on its range (`pageRun`); while the memory is being rebuilt it is held with busy 1. (4) An operation that fails a check changes its error code alone, and no page. (5) One that passes does to page n: GRANT grants it to the client with its hint, UNGRANT (no page of the range in use) frees it, PIN and UNPIN set and clear its pinned bit, each only where n is in the range, and QUERY changes no page and reads the first into MEM_PAGE_INFO. (6) UNGRANT of a range in use, and BACK of a range with an unbacked page, change no page yet and set busy. (7) When an UNGRANT that waited finds no page of its range in use, it is applied and busy is 0; a BACK ends with busy 0 once every page it planned has its entry (`backDue` writes those whose zeroing is over). (spec/10_memory_tiers_and_ecc.md) -/
def Obligations.PageMapOperations : Prop :=
  (∀ (s : State),
    (s.flag Fld.MEM_MAP_CTRL_enable = true → exec .mapEnable s = .next s) ∧
    (s.flag Fld.MEM_MAP_CTRL_enable = false → s.fld Fld.MEM_MAP_BASE_map_base % 0x200000 = 0 → s.fld Fld.MEM_MAP_BASE_map_base < s.deviceEnd →
      exec .mapEnable s = .next ((s.systemPage (s.fld Fld.MEM_MAP_BASE_map_base / 0x200000) 0).setFlag Fld.MEM_MAP_CTRL_enable true)) ∧
    (s.flag Fld.MEM_MAP_CTRL_enable = false →
      (s.fld Fld.MEM_MAP_BASE_map_base % 0x200000 ≠ 0 ∨ s.deviceEnd ≤ s.fld Fld.MEM_MAP_BASE_map_base) →
      exec .mapEnable s = .next (s.setFlag Fld.MEM_MAP_CTRL_enable_error true))) ∧
  (∀ (v : W32) (s : State),
    s.flag Fld.MEM_PAGE_CMD_busy = true →
    exec (.grant v) s = .next s ∧ exec (.ungrant v) s = .next s ∧ exec (.back v) s = .next s ∧ exec (.pin v) s = .next s ∧
    exec (.unpin v) s = .next s ∧ exec (.query v) s = .next s) ∧
  (∀ (v : W32) (u : Nat → State) (k : Nat → PageCmd) (s : State),
    s.flag Fld.MEM_PAGE_CMD_busy = false →
    (∀ op, u op = (((s.setFld Fld.MEM_PAGE_CMD_op op).setFld Fld.MEM_PAGE_CMD_hint_group (bits v.toNat 3 4)).setFld Fld.MEM_PAGE_CMD_hint_valid (bits v.toNat 7 1)).setFld Fld.MEM_PAGE_CMD_client (bits v.toNat 8 12)) →
    (∀ op, k op = { op := op, first := (u op).fld Fld.MEM_PAGE_FIRST_first, count := (u op).fld Fld.MEM_PAGE_COUNT_count, client := bits v.toNat 8 12, hintGroup := bits v.toNat 3 4, hintValid := bit v.toNat 7, since := s.tb }) →
    (s.rebuilding = false → exec (.grant v) s = .next ((u 1).pageRun (k 1)) ∧ exec (.ungrant v) s = .next ((u 2).pageRun (k 2)) ∧
      exec (.back v) s = .next ((u 3).pageRun (k 3)) ∧ exec (.pin v) s = .next ((u 4).pageRun (k 4)) ∧
      exec (.unpin v) s = .next ((u 5).pageRun (k 5)) ∧ exec (.query v) s = .next ((u 6).pageRun (k 6))) ∧
    (s.rebuilding = true → exec (.grant v) s = .next { (u 1).setFlag Fld.MEM_PAGE_CMD_busy true with power := { (u 1).power with heldPage := some (k 1) } })) ∧
  (∀ (k : PageCmd) (s : State),
    s.pageCheck k ≠ 0 →
    s.pageRun k = s.setFld Fld.MEM_PAGE_CMD_error (s.pageCheck k) ∧ ∀ n, (s.pageRun k).page n = s.page n) ∧
  (∀ (k : PageCmd) (n : Nat) (s : State),
    s.pageCheck k = 0 →
    (k.op = 1 → (s.pageRun k).page n = if n ∈ k.pages then
        { state := .granted, owner := k.client, hintGroup := if k.hintValid then k.hintGroup else 0, hintValid := k.hintValid } else s.page n) ∧
    (k.op = 2 → (∀ m, m ∈ k.pages → s.pageBusy m = false) → (s.pageRun k).page n = if n ∈ k.pages then {} else s.page n) ∧
    (k.op = 4 → (s.pageRun k).page n = if n ∈ k.pages then { s.page n with pinned := true } else s.page n) ∧
    (k.op = 5 → (s.pageRun k).page n = if n ∈ k.pages then { s.page n with pinned := false } else s.page n) ∧
    (k.op = 6 → (s.pageRun k).page n = s.page n ∧ (s.pageRun k).reg Reg.MEM_PAGE_INFO = (s.page k.first).word % 2 ^ 64)) ∧
  (∀ (k : PageCmd) (n : Nat) (s : State),
    s.pageCheck k = 0 →
    (k.op = 2 → k.pages.any s.pageBusy = true → (s.pageRun k).page n = s.page n ∧ (s.pageRun k).flag Fld.MEM_PAGE_CMD_busy = true ∧ (s.pageRun k).pageCmd = some k) ∧
    (k.op = 3 → (k.pages.any fun m => decide ((s.page m).state = .granted)) = true → (s.pageRun k).page n = s.page n ∧ (s.pageRun k).flag Fld.MEM_PAGE_CMD_busy = true)) ∧
  (∀ (k : PageCmd) (s : State),
    s.backDue.pageCmd = some k →
    (k.op = 2 → k.pages.any s.backDue.pageBusy = false → exec .pageCmdComplete s =
        .next { (s.backDue.pageApply k).setFlag Fld.MEM_PAGE_CMD_busy false with pageCmd := none }) ∧
    (k.op ≠ 2 → k.plan = [] → exec .pageCmdComplete s = .next { s.backDue.setFlag Fld.MEM_PAGE_CMD_busy false with pageCmd := none }) ∧
    (k.op ≠ 2 → k.plan ≠ [] → exec .pageCmdComplete s = .next s.backDue))

/-- O33. Of the ledger and of a client's memory: (1) enabling the ledger with an enabled map, an aligned base inside the device memory and 32 free pages makes the first 16 system pages of group 0 and the last 16 of group 1 and sets enable; with a base or map that does not do, it sets enable_error. (2) A reserved page is backed in frame f of group g, which its hint and the hop order choose (`frameFor`), one zeroing time after the backing before it there, and is reserved no more. (3) A client that is not detaching, or that still has steps, rings at work or page moves, is not cleared. (4) One that is cleared ends with attached and detaching 0 and both of its keys gone. (spec/10_memory_tiers_and_ecc.md, spec/14_security_and_tenancy.md, spec/02_work_and_the_ledger.md) -/
def Obligations.LedgerReservesAndClearing : Prop :=
  (∀ (base n : Nat) (s : State),
    s.flag Fld.SCH_LEDGER_CTRL_enable = false →
    s.fld Fld.SCH_LEDGER_BASE_mirror_base = base →
    base / 0x200000 = n →
    (s.flag Fld.MEM_MAP_CTRL_enable = true → base % 0x4000000 = 0 → base + 0x4000000 ≤ s.deviceEnd →
      (natRange n 32).all (fun k => decide ((s.page k).state = .free)) = true →
      exec .ledgerEnable s = .next ((forEach (natRange (n + 16) 16) (forEach (natRange n 16) s fun k t => t.systemPage k 0)
        fun k t => t.systemPage k 1).setFlag Fld.SCH_LEDGER_CTRL_enable true)) ∧
    (s.flag Fld.MEM_MAP_CTRL_enable = false ∨ base % 0x4000000 ≠ 0 ∨ s.deviceEnd < base + 0x4000000 →
      exec .ledgerEnable s = .next (s.setFlag Fld.SCH_LEDGER_CTRL_enable_error true))) ∧
  (∀ (page g f : Nat) (r : Reserve) (s1 s : State),
    mapFind s.reserves page = some r →
    s.frameFor (s.page page) = some (g, f) →
    backNs ≤ s.nsSince (max r.since (s.dmc g).backedAt) →
    s1 = (s.backIn page g f .backed).modDmc g (fun d => { d with backedAt := s.tb }) →
    exec (.reservedPageBacked page) s = .next { s1 with reserves := mapDel s1.reserves page }.refreshReady) ∧
  (∀ (client : Nat) (s : State),
    s.readyToClear client = false →
    exec (.clientClear client) s = .next s) ∧
  (∀ (client : Nat) (s : State),
    s.readyToClear client = true →
    ∃ t, exec (.clientClear client) s = .next t ∧ t.attached client = false ∧ t.detaching client = false ∧
    mapFind t.keys.clientKeys client = none ∧ mapFind t.keys.compatKeys client = none)

/-- O34. Of the bellows and of a memory group: (1) when a period of the enabled bellows is over, moves_last and deferred_last are set, the wished moves start in the order of their gain, and a new period begins with the registers' values (`startPeriod`). (2) A copy pass that is over and leaves at most 256 written lines switches the page to its new frame; one that leaves more begins another pass over them, and after the fourth the move is abandoned. (3) A hold ends when no die whose logic is up owes its acknowledgement: the held requests go on at the old home, and forwarding begins. (4) Forwarding ends 100 µs later. (5) The first entry of a merge buffer that has reached its age is flushed; with bad bytes its four words become clinker. (6) A scrub burst treats the 16 words of its position and moves on by one; at the last position it ends the lap: position 0, the lap's end and number, its counts cleared. (7) A lap over its limit sets lap_overdue. (8) A due health check marks the failing ones of the ten positions (`markPosition`), and the next is due 10 ms later. (9) An evacuation moves its next page, or finds none left (`evacuateOne`), and one that stalled tries again every 10 ms. (spec/10_memory_tiers_and_ecc.md, spec/13_faults_safety_recovery.md) -/
def Obligations.MovesAndDramUpkeep : Prop :=
  (∀ (s0 s : State),
    s.flag Fld.MEM_BELLOWS_CTRL_enable = true →
    s.passedUs s.bellowsAt s.bellows.period = true →
    s0 = (s.setFld Fld.MEM_BELLOWS_STATUS_moves_last s.movesDone).setFld Fld.MEM_BELLOWS_STATUS_deferred_last 0 →
    exec .bellowsEvaluate s = .next (forEach (sortBy (fun (w : Nat × Nat × Nat) => w.2.2) s.moveWishes).reverse (s0, s.bellows.maxMoves, []) wishMove).1.startPeriod) ∧
  (∀ (page : Nat) (m : Move) (s : State),
    mapFind s.moves page = some m →
    m.phase = .copying →
    ((if m.pass = 1 then 32768 else m.todo.length) ≤ s.copiedLines m) →
    (m.dirty.length ≤ 256 → exec (.bellowsCopyPass page) s = .next (s.switchMove page m)) ∧
    (256 < m.dirty.length → 4 ≤ m.pass → exec (.bellowsCopyPass page) s = .next
      (((s.abandonMove page).setFlag Fld.MEM_BELLOWS_STATUS_aborted_seen true).logRecorded (unitOf hubDie 0x030) 0)) ∧
    (256 < m.dirty.length → m.pass < 4 → exec (.bellowsCopyPass page) s = .next { s with moves := mapSet s.moves page ({ m with pass := m.pass + 1, todo := m.dirty.map fun x => x.1, dirty := [], since := s.tb, done := 0 } : Move) })) ∧
  (∀ (page : Nat) (m : Move) (s : State),
    mapFind s.moves page = some m →
    m.phase = .hold →
    m.waiting.any s.logicUp = false →
    exec (.bellowsHoldEnd page) s = .next (forEach m.held
      { s with moves := mapSet s.moves page { m with phase := .forwarding, since := s.tb, held := [], waiting := [] }, movesDone := if m.evac then s.movesDone else s.movesDone + 1 }
      fun x t => t.atDmc x.1 m.oldGroup x.2)) ∧
  (∀ (page : Nat) (m : Move) (s : State),
    mapFind s.moves page = some m →
    m.phase = .forwarding →
    s.passedUs m.since 100 = true →
    exec (.bellowsForwardEnd page) s = .next { s with moves := mapDel s.moves page }) ∧
  (∀ (group : Nat) (errs : List (Nat × List W16)) (bad : Bool) (e : MergeEntry) (s1 s : State),
    s.groupServes group = true →
    s1 = s.addErrors group errs →
    (s1.dmc group).merge.find? (fun x => decide (x.age * 250 ≤ s1.nsSince x.since)) = some e →
    exec (.mergeAgeFlush group errs bad) s = .next (if bad then s1.flushBad group e else s1.flushEntry group e)) ∧
  (∀ (group pos : Nat) (errs : List (Nat × List W16)) (s1 s2 s : State),
    s.scrubs group = true →
    s1 = (s.addErrors group errs).modDmc group (fun d => { d with lastScrub := s.tb, lapLimit := s.fld (Fld.DMC_CTRL_lap_limit_min (dmcBase group)) }) →
    s1.fld (Fld.DMC_SCRUB_POS_position (dmcBase group)) = pos →
    (s2 = forEach (natRange (pos * 16) 16) s1 fun cw t => t.scrubWord group cw) →
    (pos + 1 ≠ 67108864 → exec (.scrubBurst group errs) s = .next ((s2.setFld (Fld.DMC_SCRUB_POS_position (dmcBase group)) (pos + 1)).setFlag (Fld.DMC_STATUS_lap_overdue (dmcBase group)) (s2.lapLong group))) ∧
    (pos + 1 = 67108864 → exec (.scrubBurst group errs) s = .next
      ((((((s2.setFld (Fld.DMC_SCRUB_POS_position (dmcBase group)) 0).setFld (Fld.DMC_SCRUB_LAP_lap_end (dmcBase group)) s2.tb).addFld
        (Fld.DMC_SCRUB_LAPS_laps (dmcBase group)) 1).setFlag (Fld.DMC_STATUS_lap_overdue (dmcBase group)) false).modDmc group
        fun d => { d with lapCounts := [], lapStart := s2.tb })))) ∧
  (∀ (group : Nat) (s : State),
    s.groupUp group = true →
    s.lapLong group = true →
    exec (.lapOverdue group) s = .next (s.setFlag (Fld.DMC_STATUS_lap_overdue (dmcBase group)) true)) ∧
  (∀ (group : Nat) (failing : List Nat) (s : State),
    s.groupServes group = true →
    (s.dmc group).healthDue = true ∨ s.passedUs (s.dmc group).healthAt 10000 = true →
    exec (.dramHealthCheck group failing) s = .next (forEach ((natRange 0 10).filter failing.contains)
      (s.modDmc group fun d => { d with healthDue := false, healthAt := s.tb }) fun j t => t.markPosition group j)) ∧
  (∀ (group : Nat) (e : Evac) (s : State),
    (s.dmc group).evac = some e →
    (e.stalled = false → exec (.evacuationPageMove group) s = .next (s.evacuateOne group)) ∧
    (e.stalled = true → exec (.evacuationPageMove group) s = .next s) ∧
    (e.stalled = false → s.passedUs e.since 1000 = true → exec (.evacuationRetry group) s = .next (s.evacuateOne group)) ∧
    (e.stalled = true → s.passedUs e.since 10000 = true → exec (.evacuationRetry group) s = .next (s.evacuateOne group)))

/-- O35. In power state RUN (`awake`), or at any time where the clause does not name it: (1) an accepted KICK (its data are the complement of the last STATUS response's data) begins an interval now, and no other KICK does. (2) An interval longer than a watch_timeout_ms that is not zero triggers the damper with cause 4. (3) Before the first KICK, with watch_timeout_ms zero, or within the limit nothing happens. (4) A write of watch_timeout_ms stores its 16 bits, 1,000 for a greater value, and restarts an interval that runs. (5) The damper with cause 4 shows that cause, takes the package to SAFE and drives FAULT_N low. (R426) -/
def Obligations.WatchIntervals : Prop :=
  (∀ (data : Nat) (s : State),
    s.awake = true →
    ∃ t, exec (.watchKick data) s = .next t ∧
    (s.saf.lastStatus = some (65535 - data % 65536) → t.saf.kickedAt = some s.tb) ∧
    (s.saf.lastStatus ≠ some (65535 - data % 65536) → t.saf.kickedAt = s.saf.kickedAt)) ∧
  (∀ (t0 : Nat) (s : State),
    s.saf.kickedAt = some t0 →
    s.fld Fld.SAF_WATCH_watch_timeout_ms ≠ 0 →
    38400 * s.fld Fld.SAF_WATCH_watch_timeout_ms < s.tb - t0 →
    exec .watchTimeout s = .next (s.damp 4)) ∧
  (∀ (s : State),
    s.saf.kickedAt = none ∨ s.fld Fld.SAF_WATCH_watch_timeout_ms = 0 ∨ (∃ t0, s.saf.kickedAt = some t0 ∧ s.tb - t0 ≤ 38400 * s.fld Fld.SAF_WATCH_watch_timeout_ms) →
    exec .watchTimeout s = .next s) ∧
  (∀ (v : W64) (s : State),
    s.logicDead Reg.SAF_WATCH = false →
    ∃ t, exec (.regWrite 0x40060 false v) s = .next t ∧ t.saf.kickedAt = s.saf.kickedAt.map (fun _ => s.tb) ∧
      t.fld Fld.SAF_WATCH_watch_timeout_ms = min 1000 (bits v.toNat 0 16)) ∧
  (∀ (s : State),
    s.saf.damped = false →
    (s.damp 4).fld Fld.SAF_STATUS_damper_cause = 4 ∧ (s.damp 4).fld Fld.SAF_STATUS_state = safSafe ∧
    (s.damp 4).flag Fld.SAF_STATUS_fault_n_low = true ∧ (s.damp 4).saf.damped = true)

/-- O36. In power state RUN: (1) STATUS, whatever data it was sent, is answered by state, FAULT_N low, standby_ok, whether an escalation came since the last STATUS, zeros, and the milliseconds counted modulo 256; that escalation is then forgotten. (2) CAUSE, whatever data it was sent, is answered by damper_cause and the escalations since start, saturating at 255. (3) A KICK sent the bitwise complement of the last STATUS response's data is answered by 0x0000. (4) SAFE sent 0xA55A is answered by 0x0000, and the damper acts with cause 5. (R425) -/
def Obligations.WatchPortCommands : Prop :=
  (∀ (data : Nat) (s : State),
    s.awake = true →
    ∃ t w, exec (.watchStatus data) s = .next t ∧ t.saf.watchNext = some (0x01, w) ∧ t.saf.escalatedSince = false ∧
    bits w 0 2 = s.fld Fld.SAF_STATUS_state ∧ bits w 2 1 = s.fld Fld.SAF_STATUS_fault_n_low ∧
    bits w 3 1 = s.fld Fld.SAF_STATUS_standby_ok ∧ bit w 4 = s.saf.escalatedSince ∧ bits w 5 3 = 0 ∧
    bits w 8 8 = s.usSince s.saf.aliveAt / 1000 % 256) ∧
  (∀ (data : Nat) (s : State),
    s.awake = true →
    ∃ t w, exec (.watchCause data) s = .next t ∧ t.saf.watchNext = some (0x02, w) ∧
    bits w 0 8 = s.fld Fld.SAF_STATUS_damper_cause ∧ bits w 8 8 = min s.saf.escalations 255) ∧
  (∀ (data : Nat) (s : State),
    s.awake = true →
    s.saf.lastStatus = some (65535 - data % 65536) →
    ∃ t, exec (.watchKick data) s = .next t ∧ t.saf.watchNext = some (0x03, 0)) ∧
  (∀ (data : Nat) (s : State),
    s.awake = true →
    data % 65536 = 0xA55A →
    exec (.watchSafe data) s = .next ((s.watchShift.watchSet 0x5A 0).damp 5) ∧
    ((s.watchShift.watchSet 0x5A 0).damp 5).saf.watchNext = some (0x5A, 0))

/-- O37. In power state RUN, every frame shifting out the response to the frame before it (`watchShift`): (1) a frame of another length or with a bad CRC counts in bad_frames, is logged and is answered by 0xE1. (2) A command that is not listed is answered by 0xE2; this row changes nothing for one that is. (3) Wrong data of KICK or SAFE are answered by 0xE3, and the damper does not act. (4) An error response has that first byte; its data are free (log 94). (5) Outside RUN no frame changes anything. (spec/13_faults_safety_recovery.md) -/
def Obligations.WatchPortFrames : Prop :=
  (∀ (s : State),
    s.awake = true →
    exec .watchFrameReject s = .next (((s.watchShift.addFld Fld.SAF_WATCH_bad_frames 1).logRecorded (unitOf hubDie 0x002) 0).watchError 0xE1)) ∧
  (∀ (command : Nat) (s : State),
    s.awake = true →
    ([0x01, 0x02, 0x03, 0x5A].contains (command % 256) = false → exec (.watchUnknownCommand command) s = .next (s.watchShift.watchError 0xE2)) ∧
    ([0x01, 0x02, 0x03, 0x5A].contains (command % 256) = true → exec (.watchUnknownCommand command) s = .next s)) ∧
  (∀ (data : Nat) (s : State),
    s.awake = true →
    (data % 65536 ≠ 0xA55A → exec (.watchSafe data) s = .next (s.watchShift.watchError 0xE3)) ∧
    (s.saf.lastStatus ≠ some (65535 - data % 65536) → exec (.watchKick data) s = .next (s.watchShift.watchError 0xE3))) ∧
  (∀ (b : Nat) (s : State),
    ∃ w, (s.watchError b).saf.watchNext = some (b, w)) ∧
  (∀ (data : Nat) (s : State),
    s.awake = false →
    exec (.watchStatus data) s = .next s ∧ exec (.watchCause data) s = .next s ∧ exec (.watchKick data) s = .next s ∧ exec (.watchSafe data) s = .next s ∧ exec .watchFrameReject s = .next s ∧ exec (.watchUnknownCommand data) s = .next s)

/-- O38. Of the supervisor cores: (1) a heartbeat of a core clears its count of missed ones. (2) Core 0 missing its third makes the damper act with cause 2 where both have missed three, the failover where core 0 is the primary, and otherwise takes it out as the standby. (3) A failover with the standby ready makes it the primary, standby_ok 0, and tests the old primary; (4) with no standby, the damper acts with cause 3. (5) The result of a core's test is standby_ok, and a core that passed has missed no heartbeat. (6) A lockstep mismatch of the standby takes a ready standby out. (7) The damper shows its cause, drives FAULT_N low, takes the package to SAFE and drops the waiting tallies; (8) it acts once, and enter_safe makes it act with cause 6. (9) At the end of an escalation's pulse FAULT_N is low only where something else holds it. (spec/13_faults_safety_recovery.md) -/
def Obligations.SupervisorsAndTheDamper : Prop :=
  (∀ (core : Nat) (s : State),
    core < 2 →
    exec (.supervisorHeartbeat core true) s = .next { s with saf := (if core = 0 then { s.saf with missedP := 0, beatP := s.tb } else { s.saf with missedS := 0, beatS := s.tb }) }) ∧
  (∀ (u s : State),
    s.saf.missedP = 2 →
    u = { s with saf := { s.saf with missedP := 3 } } →
    (3 ≤ s.saf.missedS → exec (.supervisorHeartbeat 0 false) s = .next (u.damp 2)) ∧
    (s.saf.missedS < 3 → s.primaryCore = 0 → exec (.supervisorHeartbeat 0 false) s = .next u.failOver) ∧
    (s.saf.missedS < 3 → s.primaryCore = 1 → s.flag Fld.SAF_STATUS_standby_ok = true → exec (.supervisorHeartbeat 0 false) s = .next u.standbyOut)) ∧
  (∀ (s : State),
    s.saf.damped = false →
    s.flag Fld.SAF_STATUS_standby_ok = true →
    ∃ t, exec .failover s = .next t ∧ t.fld Fld.SAF_STATUS_primary = 1 - s.primaryCore ∧
    t.flag Fld.SAF_STATUS_standby_ok = false ∧ t.saf.testing = some s.primaryCore) ∧
  (∀ (s : State),
    s.saf.damped = false →
    s.flag Fld.SAF_STATUS_standby_ok = false →
    exec .failover s = .next (s.damp 3)) ∧
  (∀ (pass : Bool) (core : Nat) (s t : State),
    s.saf.testing = some core →
    (t = { s with saf := { s.saf with testing := none, missedP := (if pass = true ∧ core = 0 then 0 else s.saf.missedP), missedS := (if pass = true ∧ core ≠ 0 then 0 else s.saf.missedS) } }) →
    exec (.failoverStandbyTestDone pass) s = .next (t.setFlag Fld.SAF_STATUS_standby_ok pass) ∧
    exec (.standbyTestDone pass) s = .next (t.setFlag Fld.SAF_STATUS_standby_ok pass)) ∧
  (∀ (s : State),
    (s.flag Fld.SAF_STATUS_standby_ok = true → exec .standbyLockstepMismatch s = .next s.standbyOut) ∧
    (s.flag Fld.SAF_STATUS_standby_ok = false → exec .standbyLockstepMismatch s = .next s)) ∧
  (∀ (cause : Nat) (s : State),
    1 ≤ cause →
    cause ≤ 6 →
    s.saf.damped = false →
    ∃ t, exec (.damper cause) s = .next t ∧ t.fld Fld.SAF_STATUS_damper_cause = cause ∧ t.fld Fld.SAF_STATUS_state = safSafe ∧
    t.flag Fld.SAF_STATUS_fault_n_low = true ∧ t.saf.damped = true ∧ t.tallyQueue = [] ∧ t.saf.pulseSince = none) ∧
  (∀ (s : State),
    exec .enterSafe s = .next (s.damp 6) ∧ (s.saf.damped = true → s.damp 6 = s)) ∧
  (∀ (t0 : Nat) (s : State),
    s.saf.pulseSince = some t0 →
    s.passedUs t0 (s.fld Fld.SAF_CTRL_escalate_pulse_us) = true →
    exec .escalatePulseEnd s = .next { s.setFlag Fld.SAF_STATUS_fault_n_low s.faultHeld with saf := { s.saf with pulseSince := none } })

/-- O39. Of faults: (1) the start-up injection counts in state STARTING alone. (2) With every hub part passing it shows the pass map, inj_done and standby_ok; with part 29 failing the package goes to FAILED with FAULT_N low. (3) An engine that is out is tested 100 ms after the last test, or 10 s after a failed round, at most three rounds: a failed test ends the round, a first pass is counted, a second returns it to service with its epoch advanced and action 4 logged. (4) A report of class 0 is taken as a corrected event, of class 1 as a command's error, of class 2 as a unit's (`correctedEvent`, `commandError`, `unitError`), and of class 3 the damper acts with cause 1. (5) A corrected event of no ledger entry, no comparison and no detection counts in its unit's own status and is merged into the log. (6) A record that merged corrected events is written 1 ms after its first, with their number. (spec/13_faults_safety_recovery.md, spec/01_package_and_paths.md) -/
def Obligations.InjectionRetestAndReports : Prop :=
  (∀ (hub : W32) (dies : List W32) (s : State),
    s.fld Fld.SAF_STATUS_state ≠ safStarting →
    exec (.injectionDone hub dies) s = .next s) ∧
  (∀ (dies : List W32) (s : State),
    s.fld Fld.SAF_STATUS_state = safStarting →
    (∃ t, exec (.injectionDone 0x7FFFFFFF#32 dies) s = .next t ∧ t.flag Fld.SAF_STATUS_inj_done = true ∧
      t.fld Fld.SAF_INJ_HUB_pass = 0x7FFFFFFF ∧ t.flag Fld.SAF_STATUS_standby_ok = true) ∧
    (∃ t, exec (.injectionDone 0x5FFFFFFF#32 dies) s = .next t ∧ t.fld Fld.SAF_STATUS_state = safFailed ∧
      t.flag Fld.SAF_STATUS_fault_n_low = true)) ∧
  (∀ (unit t0 : Nat) (pass on : Bool) (s1 s : State),
    (s.unit unit).outSince = some t0 →
    (unit / 4096 < s.nDies ∧ dieEngines.contains (unit % 4096) = true) ∨ unit = unitOf hubDie 0x010 →
    s.logicUp (unit / 4096) = true →
    (s.unit unit).rounds < 3 →
    (s.passedUs (s.unit unit).retestAt (if (s.unit unit).rounds = 0 ∨ 0 < (s.unit unit).passes then 100000 else 10000000) = true) →
    on = (match enableFld (unit / 4096) (unit % 4096) with | some f => s.flag f | none => true) →
    s1 = s.modUnit unit (fun y => { y with outSince := none, detectedAt := none, passes := 0, rounds := 0 }) →
    (pass = false → exec (.engineRetest unit pass) s = .next (s.modUnit unit fun y => { y with rounds := y.rounds + 1, passes := 0, retestAt := s.tb })) ∧
    (pass = true → (s.unit unit).passes = 0 → exec (.engineRetest unit pass) s = .next (s.modUnit unit fun y => { y with passes := 1, retestAt := s.tb })) ∧
    (pass = true → (s.unit unit).passes ≠ 0 → exec (.engineRetest unit pass) s = .next ((((s1.setInService (unit / 4096) (unit % 4096) on).advanceEpoch unit).logEvent 2 4 unit 0).refreshReady))) ∧
  (∀ (r : FaultReport) (s : State),
    (r.cls = 0 → exec (.event r) s = .next (s.correctedEvent r)) ∧
    (r.cls = 1 → exec (.event r) s = .next (s.commandError r)) ∧
    (r.cls = 2 → exec (.event r) s = .next (s.unitError r)) ∧
    (r.cls = 3 → exec (.event r) s = .next (s.dampAt 1 r.unit r.detail (r.client.getD 0xFFF)))) ∧
  (∀ (r : FaultReport) (s : State),
    r.source ≠ .compare →
    r.entry = none →
    isDetection r.detail = false →
    s.correctedEvent r = (s.storeCorrected (r.unit / 4096) (r.unit % 4096) r.client).logCorrected r.unit r.detail (r.client.getD 0xFFF)) ∧
  (∀ (unit detail : Nat) (m : LogMerge) (s : State),
    ((s.saf.merges.find? fun m => decide (m.unit = unit) && decide (m.detail = detail)) = some m) →
    s.passedUs m.tb 1000 = true →
    exec (.logMergeFlush unit detail) s = .next
      (({ s with saf := { s.saf with merges := s.saf.merges.filter (fun y => !(decide (y.unit = unit) && decide (y.detail = detail))) } } : State).writeLog
        { tb := m.tb, cls := m.cls, action := 0, unit := unit, detail := detail, client := m.client, count := m.count }))

/-- O40. Of firmware images: (1) a stage takes the 512 bytes of the header that fw_src points at and begins with fw_status 1, and changes nothing while one is under way. (2) When it ends, fw_status is the image’s status; an image that is good goes, as the staged one, into the slot that does not run. (3) Activation prefers the staged slot, with no failed boots. (4) A die update closes the gate of a drained die, starts its self-test and records the staged image’s version as the die’s; of another die it is refused with update_refused and fw_status 6. (5) A preferred image that runs and has not served after 100 ms counts one failure of that start, and the second runs the other slot. (spec/14_security_and_tenancy.md) -/
def Obligations.FirmwareAndBoot : Prop :=
  (∀ (s : State),
    (s.fld Fld.SEC_FW_CTRL_fw_status = 1 → exec .fwStage s = .next s) ∧
    (∀ bs, s.fld Fld.SEC_FW_CTRL_fw_status ≠ 1 → s.sysRead hostPf (s.fld Fld.SEC_FW_SRC_fw_src) 512 = .ok bs →
      exec .fwStage s = .next ((s.modKeys fun k => { k with staging := bs }).setFld Fld.SEC_FW_CTRL_fw_status 1))) ∧
  (∀ (digestOk signatureOk : Bool) (k : Image) (s : State),
    s.fld Fld.SEC_FW_CTRL_fw_status = 1 →
    s.keys.hostBoot = false →
    k = ⟨s.keys.staging, digestOk, signatureOk⟩ →
    (s.imageStatus k ≠ 2 → exec (.fwStageDone digestOk signatureOk) s = .next (s.setFld Fld.SEC_FW_CTRL_fw_status (s.imageStatus k))) ∧
    (s.imageStatus k = 2 → s.fld Fld.SEC_STATUS_boot_slot = 0 → exec (.fwStageDone digestOk signatureOk) s = .next
      ((s.setFld Fld.SEC_FW_CTRL_fw_status 2).modKeys fun x => { x with slotB := some k, staged := some 1 })) ∧
    (s.imageStatus k = 2 → s.fld Fld.SEC_STATUS_boot_slot = 1 → exec (.fwStageDone digestOk signatureOk) s = .next
      ((s.setFld Fld.SEC_FW_CTRL_fw_status 2).modKeys fun x => { x with slotA := some k, staged := some 0 }))) ∧
  (∀ (slot : Nat) (s : State),
    s.keys.staged = some slot →
    exec .fwActivate s = .next (s.modKeys fun k => { k with preferred := some slot, bootFails := 0 })) ∧
  (∀ (die slot : Nat) (k : Image) (s : State),
    s.fitted die = true →
    s.keys.staged = some slot →
    s.slotImage slot = some k →
    (s.drained die = true → exec (.fwDieUpdate die) s = .next
        (((s.closeGate die false).setFld (Fld.CDG_STATUS_logic_state die) logicSelftest).modKeys fun x => { x with dieFw := mapSet x.dieFw die (imageVersion k) })) ∧
    (s.drained die = false → exec (.fwDieUpdate die) s = .next
        ((s.setFlag (Fld.CFR_STATUS_update_refused die) true).setFld Fld.SEC_FW_CTRL_fw_status 6))) ∧
  (∀ (p : Nat) (s s1 : State),
    s.keys.preferred = some p →
    s.fld Fld.SAF_STATUS_state = safStarting →
    s.servedLate p = true →
    s.keys.bootFails < 2 →
    (s1 = s.modKeys fun k => { k with bootFails := k.bootFails + 1, bootLate := true }) →
    (s.keys.bootFails = 0 → exec .bootServingTimeout s = .next s1) ∧
    (s.keys.bootFails = 1 → exec .bootServingTimeout s = .next (s1.runSlot (1 - p))))

/-- O41. Of the power states (target, cause and state numbers as the registers have them): (1) in RUN, when the link has handed over, a target 1 to 3 whose conditions hold is entered (`enterState`), and one with an entry error is refused with it; with no such target, and once the damper has acted, only the handover is noted. (2) A link not ready 10 ms after the target was written refuses the entry with error 6. (3) A refused entry shows entry_refused and the error and clears the target. (4) The WAKE pin in SLEEP, DEEP or OFF starts the power-up order, with cause 1 and the state it came from; memory and time stay. (5) The alarm shows alarm_seen once; in SLEEP with wake_alarm_en it starts the power-up order with cause 4; in RUN it does not change the power state. (6) A wake that nothing followed for 10 ms, with auto_resleep and the link handed over, no camera stage, no target and the entry conditions, enters SLEEP again. (7) A brown-out of SLEEP or DEEP goes to OFF with brownout and brownout_state recorded and no client, ring or page left. (8) The loss of VIN removes power, with no client, ring, step, run or page left; (9) its return starts the regulator. (10) A link in L0 shows its speed and width, ends the handover and releases the wake output; (11) a reset of the host port clears speed and width. (spec/15_power_clocks_time.md, spec/17_pins_and_electrical.md) -/
def Obligations.PowerStatesAreEnteredAndLeft : Prop :=
  (∀ (target : Nat) (s : State),
    s.power.phase = .run →
    s.fld Fld.PWR_CTRL_target = target →
    (target = 0 ∨ 3 < target ∨ s.saf.damped = true → exec .powerEntryCheck s = .next (s.modPower fun p => { p with l2 := true })) ∧
    (1 ≤ target → target ≤ 3 → s.saf.damped = false → (s.modPower fun p => { p with l2 := true }).entryError target = 0 →
      exec .powerEntryCheck s = .next ((s.modPower fun p => { p with l2 := true }).enterState target)) ∧
    (1 ≤ target → target ≤ 3 → s.saf.damped = false → (s.modPower fun p => { p with l2 := true }).entryError target ≠ 0 →
      exec .powerEntryCheck s = .next ((s.modPower fun p => { p with l2 := true }).refuseEntry ((s.modPower fun p => { p with l2 := true }).entryError target)))) ∧
  (∀ (t0 : Nat) (s : State),
    s.power.targetAt = some t0 →
    s.power.phase = .run →
    1 ≤ s.fld Fld.PWR_CTRL_target ∧ s.fld Fld.PWR_CTRL_target ≤ 3 →
    s.power.l2 = false →
    s.passedUs t0 10000 = true →
    exec .entryHandshakeTimeout s = .next (s.refuseEntry 6)) ∧
  (∀ (e : Nat) (s : State),
    (s.refuseEntry e).flag Fld.PWR_STATUS_entry_refused = true ∧ (s.refuseEntry e).fld Fld.PWR_STATUS_entry_error = e % 8 ∧
    (s.refuseEntry e).fld Fld.PWR_CTRL_target = 0) ∧
  (∀ (s : State),
    s.power.phase = .sleep ∨ s.power.phase = .deep ∨ s.power.phase = .off →
    ∃ t, exec .wakePin s = .next t ∧ t.power.phase = .regulator ∧ t.fld Fld.PWR_WAKE_LOG_cause = 1 ∧ t.fld Fld.PWR_STATUS_state = 3 ∧
    t.power.left = (if s.power.phase = .sleep then 2 else if s.power.phase = .deep then 3 else 4) ∧ t.mem = s.mem ∧ t.tb = s.tb) ∧
  (∀ (s : State),
    s.fld Fld.CLK_ALARM_alarm ≠ 0 →
    s.fld Fld.CLK_ALARM_alarm ≤ s.tb →
    s.power.alarmFired = false →
    ∃ t, exec .rtcAlarm s = .next t ∧ t.flag Fld.CLK_TB_STATUS_alarm_seen = true ∧ t.power.alarmFired = true ∧
    (s.power.phase = .sleep → s.flag Fld.PWR_CTRL_wake_alarm_en = true →
      t.power.phase = .regulator ∧ t.fld Fld.PWR_WAKE_LOG_cause = 4) ∧
    (s.power.phase = .run → t.power.phase = .run)) ∧
  (∀ (t0 : Nat) (s : State),
    s.power.wokeAt = some t0 →
    s.power.phase = .run →
    s.saf.damped = false →
    s.power.l2 = true →
    s.flag Fld.PWR_CTRL_auto_resleep = true →
    s.stage = 0 →
    s.fld Fld.PWR_CTRL_target = 0 →
    s.passedUs t0 10000 = true →
    s.entryError 1 = 0 →
    exec .autoResleep s = .next s.enterSleep) ∧
  (∀ (s : State),
    s.power.phase = .sleep ∨ s.power.phase = .deep →
    ∃ t, exec .aonBrownout s = .next t ∧ t.power.phase = .off ∧ t.flag Fld.PWR_WAKE_LOG_brownout = true ∧
    t.fld Fld.PWR_WAKE_LOG_brownout_state = (if s.power.phase = .sleep then 2 else 3) ∧ t.clients = [] ∧ t.rings = [] ∧ t.pages = []) ∧
  (∀ (s : State),
    ∃ t, exec .vinLoss s = .next t ∧ t.power.phase = .unpowered ∧ t.clients = [] ∧ t.rings = [] ∧ t.steps = [] ∧ t.runs = [] ∧
    t.pages = [] ∧ t.pending = s.pending) ∧
  (∀ (s : State),
    s.power.phase = .unpowered →
    exec .vinPowerOn s = .next (s.modPower fun _ => { phase := .regulator })) ∧
  (∀ (speed width : Nat) (s : State),
    s.power.phase = .run →
    exec (.hostLinkL0 speed width) s = .next
      (((s.setFld Fld.HST_LINK_speed speed).setFld Fld.HST_LINK_width width).modPower fun p => { p with l2 := false, wakeOut := false, wokeAt := none })) ∧
  (∀ (s : State),
    exec .hostPortReset s = .next ((s.setFld Fld.HST_LINK_speed 0).setFld Fld.HST_LINK_width 0))

/-- O42. Of a power-up and of the resets: (1) the regulator, with every domain at its lowest point, is followed by the oscillator and that by the memory, each only from the one before it. (2) The memory brings up every island that has not failed, and leads to the logic; (3) the logic leads to RUN with target 0 and state 0. (4) When the memory of DEEP is rebuilt (no page operation being held), it has new keys and mem_ready, and the held starts begin. (5) A low of RESET_N of less than 10 µs does nothing, of less than 10 ms is a warm reset, and a longer one, also before its end, a cold reset. (6) A warm reset in RUN goes back to the memory step with no run and no waiting tally. (7) A cold reset goes back to the regulator; it keeps the image slots, the fuse version and the wake log, and no client, ring, step or page. (spec/15_power_clocks_time.md, spec/17_pins_and_electrical.md) -/
def Obligations.PowerUpOrderAndResets : Prop :=
  (∀ (s : State),
    (s.power.phase = .regulator → exec .regulatorReady s = .next (s.lowestPoints.modPower fun p => { p with phase := .oscillator })) ∧
    (s.power.phase ≠ .regulator → exec .regulatorReady s = .next s) ∧
    (s.power.phase = .oscillator → exec .oscillatorReady s = .next (s.modPower fun p => { p with phase := .memory, oscReady := true, edgeSinceOsc := false })) ∧
    (s.power.phase ≠ .oscillator → exec .oscillatorReady s = .next s)) ∧
  (∀ (s : State),
    (s.power.phase = .memory → ∃ t, exec .memoryReady s = .next t ∧ t.power.phase = .logic ∧
      ∀ d, d < s.nDies → (s.dieSt d).islandFailed = false → (t.dieSt d).island = true ∧ t.flag (Fld.CDG_STATUS_island_up d) = true) ∧
    (s.power.phase ≠ .memory → exec .memoryReady s = .next s)) ∧
  (∀ (bootSel : Nat) (a b : Option Image) (s : State),
    (s.power.phase = .logic → ∃ t, exec (.logicReady bootSel a b) s = .next t ∧ t.power.phase = .run ∧
      t.fld Fld.PWR_CTRL_target = 0 ∧ t.fld Fld.PWR_STATUS_state = 0) ∧
    (s.power.phase ≠ .logic → exec (.logicReady bootSel a b) s = .next s)) ∧
  (∀ (s : State),
    s.rebuilding = true →
    s.power.heldPage = none →
    exec .memRebuildDone s = .next (forEach s.power.heldStarts
      ((s.newKeys.setFlag Fld.PWR_STATUS_mem_ready true).modPower fun p => { p with heldStarts := [], heldPage := none }) fun x t => t.startRing x.1 x.2)) ∧
  (∀ (lowUs : Nat) (s : State),
    (lowUs < 10 → exec (.resetPinRise lowUs) s = .next s) ∧
    (10 ≤ lowUs → lowUs < 10000 → exec (.resetPinRise lowUs) s = exec .warmReset s) ∧
    (10000 ≤ lowUs → exec (.resetPinRise lowUs) s = exec .coldReset s) ∧
    exec .resetPinColdTimeout s = .next s.cold) ∧
  (∀ (s : State),
    s.power.phase = .run →
    ∃ t, exec .warmReset s = .next t ∧ t.power.phase = .memory ∧ t.power.left = (if s.deepLost then 3 else if s.keys.kek.isNone then s.power.left else 1) ∧ t.runs = [] ∧ t.tallyQueue = [] ∧ t = s.warm) ∧
  (∀ (s : State),
    s.power.phase ≠ .unpowered →
    ∃ t, exec .coldReset s = .next t ∧ t.power.phase = .regulator ∧ t.clients = [] ∧ t.rings = [] ∧ t.steps = [] ∧ t.pages = [] ∧
    t.keys.slotA = s.keys.slotA ∧ t.keys.slotB = s.keys.slotB ∧ t.reg Reg.PWR_WAKE_LOG = s.reg Reg.PWR_WAKE_LOG ∧
    t.fld Fld.SEC_STATUS_fuse_version = s.fld Fld.SEC_STATUS_fuse_version)

/-- O43. Of time, temperature and power: (1) an RTC edge adds 1,171 ticks and 7 eighths of one, and changes nothing else but the time. (2) At the handback the sleep’s length is recorded, the uncertainty grows by 20 ppm of it, rounded up, and one, and rtc_mode falls. (3) uncert_clear clears the uncertainty. (4) A sample with a die above 135 °C makes the damper act and is timed from the first such; one without ends that timing. (5) 100 ms of it turn the package off, with thermal_off recorded. (6) A DVFS step of a fitted die or the hub in RUN moves it (`moveDie`). (7) A grid step of the power cap takes the credit less the reserve, and the throttle level that fits: higher where this one does not, one lower where that does, else the same. (8) While throttled, 100 µs after the last adjustment, the heaviest fitted die that can be lowered is; (9) and 1 ms after it, with the reserve below 95 % of the cap, the last one lowered is restored. (spec/15_power_clocks_time.md) -/
def Obligations.TimebaseThermalAndPowerCap : Prop :=
  (∀ (s : State),
    s.rtcMode = true →
    s.handbackDue = false →
    ∃ t, exec .rtcEdge s = .next t ∧ t.tb = (s.tb + 1171 + (if 8 ≤ s.power.frac + 7 then 1 else 0)) % 2 ^ 64 ∧
    t.power.frac = (s.power.frac + 7) % 8 ∧ t = { s with tb := t.tb, power := t.power }) ∧
  (∀ (s : State),
    s.handbackDue = true →
    ∃ t, exec .timebaseHandback s = .next t ∧ t.fld Fld.CLK_LAST_SLEEP_last_sleep = (s.tb - s.power.rtcFrom) % 2 ^ 64 ∧
    t.flag Fld.CLK_TB_STATUS_rtc_mode = false ∧
    t.reg Reg.CLK_TB_UNCERT = ((((s.setFld Fld.CLK_LAST_SLEEP_last_sleep (s.tb - s.power.rtcFrom)).addFld Fld.CLK_TB_UNCERT_uncert
      (((s.tb - s.power.rtcFrom) * 20 + 999999) / 1000000 + 1))).reg Reg.CLK_TB_UNCERT)) ∧
  (∀ (s : State),
    exec .uncertClear s = .next (s.setFld Fld.CLK_TB_UNCERT_uncert 0)) ∧
  (∀ (temps : List Int) (s : State),
    ∃ t, exec (.thermalSample temps) s = .next t ∧
    ((s.allDies.any fun d => decide (135 < temps.getD (if d = hubDie then s.nDies else d) 0)) = true →
      t.saf.damped = true ∧ t.power.hotSince.isSome = true) ∧
    ((s.allDies.any fun d => decide (135 < temps.getD (if d = hubDie then s.nDies else d) 0)) = false → t.power.hotSince = none)) ∧
  (∀ (t0 : Nat) (s : State),
    s.power.hotSince = some t0 →
    s.saf.damped = true →
    s.passedUs t0 100000 = true →
    exec .thermalOffTimeout s = .next (s.enterOff.setFlag Fld.PWR_WAKE_LOG_thermal_off true)) ∧
  (∀ (die : Nat) (lower : Bool) (s : State),
    s.fitted die = true ∨ die = hubDie →
    s.power.phase = .run →
    exec (.dvfsStep die lower) s = .next (s.moveDie die lower)) ∧
  (∀ (n : Nat) (s s1 : State),
    s.fld Fld.PWR_STATUS_throttle_level = n →
    (s1 = s.modPower fun p => { p with credit := min s.creditMax (s.power.credit + s.creditFill - 10 * s.reserve n) }) →
    (s1.creditFits (s1.reserve n) = false → exec .powerCapGrid s = .next (s1.setThrottle (s1.raiseTo (15 - n) n))) ∧
    (s1.creditFits (s1.reserve n) = true → 0 < n → s1.creditFits (s1.reserve (n - 1)) = true → exec .powerCapGrid s = .next (s1.setThrottle (n - 1))) ∧
    (s1.creditFits (s1.reserve n) = true → n = 0 ∨ s1.creditFits (s1.reserve (n - 1)) = false → exec .powerCapGrid s = .next (s1.setThrottle n))) ∧
  (∀ (d n : Nat) (heaviest : List Nat) (s : State),
    s.fld Fld.PWR_STATUS_throttle_level = n →
    n ≠ 0 →
    s.passedUs s.power.capAt 100 = true →
    ((heaviest.find? fun d => s.fitted d && decide (s.ownPoint d < 4)) = some d) →
    exec (.powerCapAdjust heaviest) s = .next ((s.capLower d).setThrottle n)) ∧
  (∀ (d : Nat) (rest : List Nat) (s : State),
    s.power.capSteps = d :: rest →
    s.passedUs s.power.capAt 1000 = true →
    (s.reserve (s.fld Fld.PWR_STATUS_throttle_level) * 100 < 95000 * s.fld Fld.PWR_CAP_cap_w → exec .powerCapRestore s = .next
      (((s.modPower fun p => { p with capSteps := rest, capAt := s.tb }).moveDie d false).setThrottle (s.fld Fld.PWR_STATUS_throttle_level))) ∧
    (95000 * s.fld Fld.PWR_CAP_cap_w ≤ s.reserve (s.fld Fld.PWR_STATUS_throttle_level) * 100 → exec .powerCapRestore s = .next s))

/-- O44. Of the keys: (1) an unwrapped key of an attached client stands in its unit’s cache, and with nothing waiting for it nothing else changes but the keys, and the memory only where the client’s entry has to be restored. (2) A reseed sets the count of served requests to zero and notes the time, and changes nothing else. (3) A load for a client that is not attached sets load_error and forgets the key words; of another it is pending, and takes effect once the client’s codec commands have ended (`settleCompat`). (4) A clear destroys the compatibility key of its client and of no other. (spec/14_security_and_tenancy.md) -/
def Obligations.KeysAndRandomness : Prop :=
  (∀ (unit client : Nat) (s : State),
    s.attached client = true →
    s.keys.unwrapWait = [] →
    ∃ t, exec (.keyUnwrapDone unit client) s = .next t ∧ mapFind t.keys.cached (4096 * unit + client) = some true ∧
    t = { s.restoreKeyEntry client with keys := t.keys } ∧
    (s.keyEntryGood client = true → t = { s with keys := t.keys } ∧ t.keys.clientKeys = s.keys.clientKeys)) ∧
  (∀ (s : State),
    ∃ t, exec .drbgReseed s = .next t ∧ t.keys.served = 0 ∧ t.keys.reseedAt = s.tb ∧ t = { s with keys := { s.keys with served := 0, reseedAt := s.tb } }) ∧
  (∀ (client : Nat) (s : State),
    (s.attached (client % 4096) = false → exec (.compatKeyLoad client) s = .next
      (((s.setFld Fld.SEC_COMPAT_CTRL_client (client % 4096)).setFlag Fld.SEC_COMPAT_CTRL_load_error true).modKeys fun k => { k with compatWords := [] })) ∧
    (s.attached (client % 4096) = true → exec (.compatKeyLoad client) s = .next
      (((s.setFld Fld.SEC_COMPAT_CTRL_client (client % 4096)).modKeys fun k => { k with compatPending := some (client % 4096) }).settleCompat))) ∧
  (∀ (client other : Nat) (s : State),
    ∃ t, exec (.compatKeyClear client) s = .next t ∧ mapFind t.keys.compatKeys (client % 4096) = none ∧
    t.fld Fld.SEC_COMPAT_CTRL_client = client % 4096 ∧
    (other ≠ client % 4096 → mapFind t.keys.compatKeys other = mapFind s.keys.compatKeys other))

/-- O45. Of a ring port (`portPowered`: enabled, in RUN, in a ring of more than one package): (1) enabling sets enable; disabling clears it and turns the port off, with down_seen where its link was up. (2) A port that trains sends its agreement message. (3) A message that fails the checks of its chain, signature or ring tag, or that does not fit the ring, makes the agreement fail; another installs the keys, and one that starts a rekey is answered by this end's own message first. (4) An agreement that failed is tried again after 1 s. (5) A rekey starts on a secure port with none under way, (6) and past its time limit takes the port down. (7) A frame with bad FEC or tag is answered by NAK, logged and counted; the eighth in a row takes the port down. (8) A frame of another kind, or whose payload is not 16 to 2,048 bytes in multiples of 16, does nothing but acknowledge (`ackPort`). (9) The expected frame of the running key is acknowledged, starts a rekey where its count is due (`rekeyAtCount`), and its messages are taken here (`takePayload`), or sent on by the other port where its link is up, or else dropped. (10) A NAK resends the frames from the one it names; the eighth resend of one frame takes the port down. (spec/14_security_and_tenancy.md, spec/17_pins_and_electrical.md) -/
def Obligations.RingPortsAgreeSendAndReceive : Prop :=
  (∀ (port : Nat) (s : State),
    port < 2 →
    exec (.hxrEnable port true) s = .next (s.setFlag (Fld.HXR_CTRL_enable port) true) ∧
    (s.flag (Fld.HXR_STATUS_link_up port) = false → exec (.hxrEnable port false) s = .next ((s.setFlag (Fld.HXR_CTRL_enable port) false).portOff port)) ∧
    (s.flag (Fld.HXR_STATUS_link_up port) = true → exec (.hxrEnable port false) s = .next
      (((s.setFlag (Fld.HXR_CTRL_enable port) false).portOff port).setFlag (Fld.HXR_STATUS_down_seen port) true))) ∧
  (∀ (port : Nat) (s : State),
    s.portPowered port = true →
    (s.ringPort port).trained = false →
    exec (.ringPortTrained port) s = .next ((s.modRingPort port fun x => { x with trained := true }).sendAgreement port)) ∧
  (∀ (port : Nat) (m : KeyMsg) (s : State),
    s.portPowered port = true →
    (s.ringPort port).trained = true →
    ((m.chainOk && m.signatureOk && decide (m.ringTag = s.fld (Fld.HXR_SEC_CTRL_ring_tag port))) = false →
      exec (.keyAgreementMsg port m) s = .next (s.failAgreement port false)) ∧
    ((m.chainOk && m.signatureOk && decide (m.ringTag = s.fld (Fld.HXR_SEC_CTRL_ring_tag port))) = true → s.peerFits port m = false →
      exec (.keyAgreementMsg port m) s = .next (s.failAgreement port true)) ∧
    ((m.chainOk && m.signatureOk && decide (m.ringTag = s.fld (Fld.HXR_SEC_CTRL_ring_tag port))) = true → s.peerFits port m = true →
      exec (.keyAgreementMsg port m) s = .next ((if s.flag (Fld.HXR_SEC_STATUS_secure port) = true ∧ (s.ringPort port).rekeyAt = none then
        s.startRekey port else s).installKeys port))) ∧
  (∀ (port t0 : Nat) (s : State),
    (s.ringPort port).failedAt = some t0 →
    s.portPowered port = true →
    s.passedUs t0 1000000 = true →
    exec (.keyAgreementRetry port) s = .next ((s.modRingPort port fun x => { x with failedAt := some s.tb }).sendAgreement port)) ∧
  (∀ (port : Nat) (s : State),
    s.portPowered port = true →
    s.flag (Fld.HXR_SEC_STATUS_secure port) = true →
    (s.ringPort port).rekeyAt = none →
    exec (.rekeyNow port) s = .next (s.startRekey port)) ∧
  (∀ (port t0 : Nat) (s : State),
    (s.ringPort port).rekeyAt = some t0 →
    s.passedUs t0 (1000 * (s.ringPort port).rekeyMs) = true →
    exec (.rekeyTimeout port) s = .next (s.portDown port)) ∧
  (∀ (port n : Nat) (f : RingFrame) (s0 s1 s : State),
    s.portPowered port = true →
    s.flag (Fld.HXR_SEC_STATUS_secure port) = true →
    s0 = s.ackPort port f.ackCounter →
    (f.fecOk && f.tagOk) = false →
    n = s0.saf.ringBad.getD port 0 + 1 →
    s1 = ((s0.send (.nak (portUnit port) (s.ringPort port).rxNext)).logCorrected (portUnit port) 0).noteBad port n →
    exec (.ringFrame port f) s = .next (if 8 ≤ n then s1.portDown port else s1)) ∧
  (∀ (port : Nat) (f : RingFrame) (s : State),
    s.portPowered port = true →
    s.flag (Fld.HXR_SEC_STATUS_secure port) = true →
    (f.fecOk && f.tagOk) = true →
    f.kind ≠ 0 ∨ f.payload.length < 16 ∨ 2048 < f.payload.length ∨ f.payload.length % 16 ≠ 0 →
    exec (.ringFrame port f) s = .next (s.ackPort port f.ackCounter)) ∧
  (∀ (port : Nat) (f : RingFrame) (s0 s1 s2 s : State),
    s.portPowered port = true →
    s.flag (Fld.HXR_SEC_STATUS_secure port) = true →
    s0 = s.ackPort port f.ackCounter →
    (f.fecOk && f.tagOk) = true →
    f.kind = 0 →
    16 ≤ f.payload.length →
    f.payload.length ≤ 2048 →
    f.payload.length % 16 = 0 →
    (s.ringPort port).rxOld = false →
    f.counter % 2 ^ 32 = (s.ringPort port).rxNext % 2 ^ 32 →
    f.phase % 2 = (s.ringPort port).rxPhase →
    s1 = ((s0.noteBad port 0).modRingPort port (fun y => { y with rxNext := (s.ringPort port).rxNext + 1, rxPhase := f.phase % 2, rxOld := y.rxOld && true })).rekeyAtCount port ((s.ringPort port).rxNext + 1) →
    s2 = s1.send (.ack (portUnit port) (s.ringPort port).rxNext []) →
    (f.dstPkg = s.fld Fld.HXR_PKG_pkg_id → exec (.ringFrame port f) s = .next (s2.takePayload port f.srcPkg (f.payload.length / 16) f.payload)) ∧
    (f.dstPkg ≠ s.fld Fld.HXR_PKG_pkg_id → s2.flag (Fld.HXR_STATUS_link_up (1 - port)) = true → exec (.ringFrame port f) s = .next (s2.sendFrame (1 - port) ⟨f.srcPkg, f.dstPkg, f.payload⟩)) ∧
    (f.dstPkg ≠ s.fld Fld.HXR_PKG_pkg_id → s2.flag (Fld.HXR_STATUS_link_up (1 - port)) = false → exec (.ringFrame port f) s = .next s2)) ∧
  (∀ (port counter n : Nat) (left : List SentFrame) (s1 s2 s : State),
    s.portPowered port = true →
    (((s.ringPort port).retry.any fun f => decide (f.counter = counter)) = true) →
    left = framesFrom counter (s.ringPort port).retry →
    (n = (if left.length < (s.ringPort port).retry.length then 1 else (s.ringPort port).resends + 1)) →
    (s1 = (s.modRingPort port fun y => { y with retry := left, resends := n }).addFld (Fld.HXR_STATUS_resends port) left.length) →
    (s2 = forEach left s1 fun f t => t.send (f.sent port)) →
    exec (.ringFrameNak port counter) s = .next (if 8 ≤ n then s2.portDown port else s2))

/-- O46. Of the counters of a block that is there and whose logic is not dead: (1) a read of count_lo answers the counter’s low word and latches its upper bits, and changes nothing else. (2) A write of count_hi changes no counter; the write of count_lo after it sets the counter to both values and clears the staged one, and no other counter of the block and nothing else changes. (3) A snap copies each counter into its shadow register, and the timebase, and changes nothing but registers. (4) DBG_SNAP stores its mask, and with go sets the capture of the blocks of the dies that the mask names 64 ticks ahead. (5) A capture that is due is made, and one before its time changes nothing. (6) With tracing and a sample period, a sample is taken each period, and changes no counter. (spec/16_observation_and_trace.md) -/
def Obligations.CountersAreReadWrittenAndCaptured : Prop :=
  (∀ (block i : Nat) (s : State),
    s.isBlock block = true →
    i < 16 →
    s.logicDead block = false →
    ∃ t, exec (.countLoRead block i) s = .next t ∧ t.hostRsp = leBytes (mapGet (s.cnt block).counts i 0) 4 ∧
    mapGet (t.cnt block).latch i 0 = mapGet (s.cnt block).counts i 0 / 2 ^ 32 ∧ (t.cnt block).counts = (s.cnt block).counts ∧
    t = { s with cnts := t.cnts, hostRsp := t.hostRsp, hostPoison := false }) ∧
  (∀ (block i : Nat) (hi lo : W32) (s : State),
    s.isBlock block = true →
    i < 16 →
    s.logicDead block = false →
    ∃ t u, exec (.countHiWrite block i hi) s = .next t ∧ (t.cnt block).counts = (s.cnt block).counts ∧
    exec (.countLoWrite block i lo) t = .next u ∧ mapGet (u.cnt block).counts i 0 = hi.toNat % 65536 * 2 ^ 32 + lo.toNat ∧
    mapFind (u.cnt block).staged i = none ∧ (∀ j, j ≠ i → mapGet (u.cnt block).counts j 0 = mapGet (s.cnt block).counts j 0) ∧
    u = { s with cnts := u.cnts }) ∧
  (∀ (block i : Nat) (s : State),
    s.isBlock block = true →
    i < 16 →
    s.logicDead block = false →
    ∃ t, exec (.counterSnap block) s = .next t ∧ t.reg (Reg.X_SHD block i) = mapGet (s.cnt block).counts i 0 % 2 ^ 64 ∧
    t.reg (Reg.X_CNT_SNAP_TB block) = s.tb % 2 ^ 64 ∧ t = { s with regs := t.regs }) ∧
  (∀ (value : W32) (s : State),
    (bit value.toNat 8 = false → exec (.dbgSnap value) s = .next (s.setFld Fld.DBG_SNAP_die_mask (bits value.toNat 0 8))) ∧
    (bit value.toNat 8 = true → exec (.dbgSnap value) s = .next (forEach
      (((natRange 0 s.nDies).filter (bit (bits value.toNat 0 8))).flatMap dieBlocks ++ (if bit (bits value.toNat 0 8) 7 then [kindlingBlock] else []))
      (s.setFld Fld.DBG_SNAP_die_mask (bits value.toNat 0 8)) fun blk t => t.modCnt blk fun b => { b with due := some (s.tb + 64) }))) ∧
  (∀ (block t0 : Nat) (s : State),
    (s.cnt block).due = some t0 →
    (s.tb < t0 → exec (.dbgSnapCapture block) s = .next s) ∧
    (t0 ≤ s.tb → (s.modCnt block fun b => { b with due := none }).logicDead block = false → exec (.dbgSnapCapture block) s = .next
      ((s.modCnt block fun b => { b with due := none }).capture block t0))) ∧
  (∀ (s : State),
    s.fld Fld.DBG_TRACE_CTRL_sample_10us ≠ 0 →
    s.flag Fld.DBG_TRACE_CTRL_enable = true →
    (s.tb < s.trace.sampledAt + s.fld Fld.DBG_TRACE_CTRL_sample_10us * 384 → exec .counterSample s = .next s) ∧
    (s.trace.sampledAt + s.fld Fld.DBG_TRACE_CTRL_sample_10us * 384 ≤ s.tb → ∃ t, exec .counterSample s = .next t ∧ t.trace.sampledAt = s.tb ∧
      t.cnts = s.cnts))

/-- O47. Of the trace unit: (1) a packet whose group, die and client are selected arrives (`arrive`), with its stamp modulo 2^48; another changes nothing. (2) While tracing, a SYNC packet arrives every millisecond. (3) A die’s engines are released when its buffer has fallen to half. (4) In RUN, a window that drains sends a frame of at most 256 bytes of its packets with its flags and the frame’s number, which rises; the rest stays. (5) With nothing to send the flue sends an idle block. (6) While tracing, a write that would change throttle only sets expert_write_ignored; enabling clears the lost count; disabling empties the buffers and returns the window to IDLE. (7) Arming an enabled window starts it, empty, and one that drains is armed later. (8) A trigger stops an armed window: state 2, its time and a packet. (9) A drained window returns to IDLE, or is armed again. (10) A watch whose step is committed copies its bytes, and before that does nothing; (11) when the copy is done it sets done, counts a dump and lets its step be released. (spec/16_observation_and_trace.md) -/
def Obligations.TraceWindowFlueAndTensorWatch : Prop :=
  (∀ (p : TracePacket) (s : State),
    (s.traceOn p.ty p.unit p.client = true → exec (.tracePacket p) s = .next (s.arrive { p with stamp := p.stamp % 2 ^ 48 })) ∧
    (s.traceOn p.ty p.unit p.client = false → exec (.tracePacket p) s = .next s)) ∧
  (∀ (s : State),
    (s.flag Fld.DBG_TRACE_CTRL_enable = true → s.trace.syncAt + 38400 ≤ s.tb →
      exec .traceSync s = .next ({ s with trace := { s.trace with syncAt := s.tb } }.arrive s.syncPacket)) ∧
    (s.flag Fld.DBG_TRACE_CTRL_enable = false ∨ s.tb < s.trace.syncAt + 38400 → exec .traceSync s = .next s)) ∧
  (∀ (die : Nat) (s : State),
    (packetsSize (mapGet s.trace.dieBufs die []) ≤ dieTraceBytes / 2 → exec (.traceThrottleRelease die) s =
      .next { s with trace := { s.trace with throttled := mapDel s.trace.throttled die } }) ∧
    (dieTraceBytes / 2 < packetsSize (mapGet s.trace.dieBufs die []) → exec (.traceThrottleRelease die) s = .next s)) ∧
  (∀ (out rest : List TracePacket) (s : State),
    s.awake = true →
    s.flag Fld.DBG_TRACE_CTRL_enable = true →
    s.flag Fld.DBG_TRACE_CTRL_window = true →
    s.fld Fld.DBG_TRACE_STATUS_wstate = 3 →
    s.trace.hub ++ s.trace.post ≠ [] →
    takePackets 256 (s.trace.hub ++ s.trace.post) = (out, rest) →
    ∃ t, exec .flueFrame s = .next t ∧ t.sent = (s.flueSend (flueBytes s.trace.frame (1 + 2 * b2n s.trace.drainFirst) out)).sent ∧
    t.trace.frame = (s.trace.frame + 1) % 65536 ∧ t.trace.hub = rest.take (s.trace.hub.length - out.length) ∧
    t.trace.post = rest.drop (s.trace.hub.length - out.length) ∧ t.trace.drainFirst = false) ∧
  (∀ (s : State),
    s.awake = true →
    s.flag Fld.DBG_TRACE_CTRL_enable = false ∨ (s.flag Fld.DBG_TRACE_CTRL_window = true ∧ s.fld Fld.DBG_TRACE_STATUS_wstate ≠ 3) ∨ (s.trace.hub = [] ∧ s.flag Fld.DBG_TRACE_CTRL_window = false) →
    exec .flueFrame s = .next (s.flueSend idleBlock)) ∧
  (∀ (value : W32) (s : State),
    (s.flag Fld.DBG_TRACE_CTRL_enable = true → bit value.toNat 4 ≠ s.flag Fld.DBG_TRACE_CTRL_throttle →
      exec (.traceEnable value) s = .next (s.setFlag Fld.DBG_TRACE_STATUS_expert_write_ignored true)) ∧
    (s.flag Fld.DBG_TRACE_CTRL_enable = false → bit value.toNat 0 = true → s.fld Fld.DBG_TRACE_STATUS_wstate ≠ 3 → ∃ t, exec (.traceEnable value) s = .next t ∧
      t.flag Fld.DBG_TRACE_CTRL_enable = true ∧ t.fld Fld.DBG_TRACE_LOST_lost = 0 ∧ t.trace.syncAt = s.tb ∧ t.trace.sampledAt = s.tb) ∧
    (s.flag Fld.DBG_TRACE_CTRL_enable = true → bit value.toNat 4 = s.flag Fld.DBG_TRACE_CTRL_throttle → bit value.toNat 0 = false →
      ∃ t, exec (.traceEnable value) s = .next t ∧ t.flag Fld.DBG_TRACE_CTRL_enable = false ∧ t.fld Fld.DBG_TRACE_STATUS_wstate = 0 ∧
        t.trace.hub = [] ∧ t.trace.post = [] ∧ t.trace.dieBufs = [])) ∧
  (∀ (s : State),
    s.flag Fld.DBG_TRACE_CTRL_enable = true →
    s.flag Fld.DBG_TRACE_CTRL_window = true →
    (s.fld Fld.DBG_TRACE_STATUS_wstate = 3 → exec .traceArm s = .next { s with trace := { s.trace with armLater := true } }) ∧
    (s.fld Fld.DBG_TRACE_STATUS_wstate ≠ 3 → ∃ t, exec .traceArm s = .next t ∧ t.fld Fld.DBG_TRACE_STATUS_wstate = 1 ∧
      t.trace.hub = [] ∧ t.trace.post = [] ∧ t.trace.armLater = false)) ∧
  (∀ (s : State),
    (s.fld Fld.DBG_TRACE_STATUS_wstate = 1 → exec .traceTriggerNow s = .next
      (((s.setFld Fld.DBG_TRACE_STATUS_wstate 2).setReg Reg.DBG_TRACE_TRIGTB s.tb).postPacket
        ⟨0x03, unitTrace, 0xFFF, s.tb % 2 ^ 48, leBytes 4 1⟩)) ∧
    (s.fld Fld.DBG_TRACE_STATUS_wstate ≠ 1 → exec .traceTriggerNow s = .next s)) ∧
  (∀ (s : State),
    s.fld Fld.DBG_TRACE_STATUS_wstate = 3 →
    s.trace.hub = [] →
    s.trace.post = [] →
    (s.trace.armLater = false → exec .traceDrainEnd s = .next (s.setFld Fld.DBG_TRACE_STATUS_wstate 0)) ∧
    (s.trace.armLater = true → exec .traceDrainEnd s = .next (s.setFld Fld.DBG_TRACE_STATUS_wstate 0).arm)) ∧
  (∀ (n : Nat) (st : Step) (s : State),
    s.watchStep n = some st →
    n < 4 →
    mapFind s.trace.copying n = none →
    st.watching.head? = some n →
    ((s.ring st.ring).committed ≤ st.seq → exec (.tensorWatchCopy n) s = .next s) ∧
    (st.seq < (s.ring st.ring).committed → ∃ t, exec (.tensorWatchCopy n) s = .next t ∧ mapFind t.trace.copying n = some (st.ring, st.seq) ∧
      t.steps = s.steps)) ∧
  (∀ (n ring seq : Nat) (s1 s : State),
    mapFind s.trace.copying n = some (ring, seq) →
    (s1 = ((s.setFlag (Fld.DBG_WATCH_RING_done n) true).addFld (Fld.DBG_WATCH_CNT_dumps n) 1).modStep ring seq (fun x => { x with watching := x.watching.filter fun k => decide (k ≠ n) })) →
    exec (.tensorWatchDone n) s = .next { s1 with trace := { s1.trace with copying := mapDel s1.trace.copying n } })

/-- O48. Of an indicator channel: (1) A write gives the state with its current and ramp within their limits, on and open_seen, and for channel 0 what was written to on; one that lets the currents pass 240 mA only sets budget_error; another lights a dark channel that is not latched, darkens a lit one that it turns off, and else only writes the fields. (2) A ramp ends at its time and not before. (3) A short of a tested channel clamps it and notes the time, freezes the ramps of the others with the time they had left, keeps the time of a freeze that stands, and changes only registers and indicator state. (4) The pin below short_v ends the clamp; above it for 16 µs, the channel is darkened, latched and logged, channel 0 under mute setting mute_ind_fault; before that nothing changes. (5) 50 µs after a freeze began the ramps go on, each ending later by the time it stood. (6) An open pin of a tested channel sets open_seen and is logged. (7) A retry clears the latch, and a channel that is on starts its ramp anew. (8) A retry of channel 0 while it is on clears mute_ind_fault. (spec/17_pins_and_electrical.md) -/
def Obligations.IndicatorChannels : Prop :=
  (∀ (n : Nat) (value : W32) (s s1 : State),
    n < nInd →
    s1 = ((((s.setFld (Fld.IND_CH_current_ma n) (min 60 (max 2 (bits value.toNat 0 6)))).setFlag (Fld.IND_CH_on n) (bit value.toNat 6 || (decide (n = 0) && s.audMuted))).setFld (Fld.IND_CH_ramp_ms n) (min 20 (max 1 (bits value.toNat 7 5)))).setFlag (Fld.IND_CH_open_seen n) (s.flag (Fld.IND_CH_open_seen n) && !bit value.toNat 15)).noteWish n (bit value.toNat 6) →
    (240 < s1.indSum → exec (.indChannelOn n value) s = .next (s.setFlag Fld.IND_STATUS_budget_error true)) ∧
    (s1.indSum ≤ 240 → (bit value.toNat 6 || (decide (n = 0) && s.audMuted)) = true → s.flag (Fld.IND_CH_on n) = false →
      exec (.indChannelOn n value) s = .next (if s1.flag (Fld.IND_CH_short_latched n) then s1 else s1.lightChannel n)) ∧
    (s1.indSum ≤ 240 → (bit value.toNat 6 || (decide (n = 0) && s.audMuted)) = false → s.flag (Fld.IND_CH_on n) = true →
      exec (.indChannelOn n value) s = .next (s1.darken n)) ∧
    (s1.indSum ≤ 240 → (bit value.toNat 6 || (decide (n = 0) && s.audMuted)) = s.flag (Fld.IND_CH_on n) →
      exec (.indChannelOn n value) s = .next s1)) ∧
  (∀ (n t0 : Nat) (s : State),
    (s.indCh n).rampEnd = some t0 →
    (t0 ≤ s.tb → exec (.indRampEnd n) s = .next (s.modInd n fun k => { k with rampEnd := none })) ∧
    (s.tb < t0 → exec (.indRampEnd n) s = .next s)) ∧
  (∀ (n : Nat) (s : State),
    n < nInd →
    (s.indCh n).tested = true →
    s.flag (Fld.IND_CH_clamped n) = false →
    ∃ t, exec (.indShortDetect n) s = .next t ∧ t.flag (Fld.IND_CH_clamped n) = true ∧ (t.indCh n).clampedAt = some s.tb ∧
    t.inds.freezeAt = some (s.inds.freezeAt.getD s.tb) ∧
    (∀ k t0, k ≠ n → (s.indCh k).rampEnd = some t0 → (t.indCh k).rampEnd = none ∧ (t.indCh k).frozen = some (t0 - s.tb)) ∧
    t = { s with regs := t.regs, inds := t.inds }) ∧
  (∀ (n t0 : Nat) (above : Bool) (s s1 : State),
    (s.indCh n).clampedAt = some t0 →
    s1 = ((s.darken n).setFlag (Fld.IND_CH_short_latched n) true).logRecorded unitInd 0 →
    (above = false → exec (.indShortTimeout n above) s = .next (s.endClamp n)) ∧
    (above = true → s.passedUs t0 16 = false → exec (.indShortTimeout n above) s = .next s) ∧
    (above = true → s.passedUs t0 16 = true → exec (.indShortTimeout n above) s = .next
      (if n = 0 ∧ s1.audMuted then s1.setFlag Fld.IND_STATUS_mute_ind_fault true else s1))) ∧
  (∀ (t0 : Nat) (s : State),
    s.inds.freezeAt = some t0 →
    s.passedUs t0 50 = true →
    exec .indFreezeTimeout s = .next s.unfreeze) ∧
  (∀ (n : Nat) (s : State),
    n < nInd →
    (s.indCh n).tested = true →
    exec (.indOpenDetect n) s = .next ((s.setFlag (Fld.IND_CH_open_seen n) true).logRecorded unitInd 0)) ∧
  (∀ (n : Nat) (s s1 : State),
    n < nInd →
    s1 = s.setFlag (Fld.IND_CH_short_latched n) false →
    exec (.indRetry n) s = .next (if s1.flag (Fld.IND_CH_on n) then (s1.darken n).lightChannel n else s1)) ∧
  (∀ (s : State),
    ∃ t, exec (.indRetry 0) s = .next t ∧ ((s.setFlag (Fld.IND_CH_short_latched 0) false).flag (Fld.IND_CH_on 0) = true → t.flag Fld.IND_STATUS_mute_ind_fault = false))

/-- O49. Of the low-speed pins and the TAP: (1) A go while busy changes nothing; on an enabled controller that is not busy it stores the command, sets busy and sends bus number, command half and, of a write, up to 64 bytes of data, and changes only registers and what was sent. (2) The end of a transfer clears busy; not acknowledged it sets nack; an acknowledged write changes nothing else, and an acknowledged read only registers. (3) An in-band interrupt on an enabled controller sets ibi_seen and its address. (4) In RUN and IDLE a change of a GPIO input sets its level and edge_seen; outside them inputs do nothing. (5) GPIO4 to GPIO23 float outside RUN and IDLE while GPIO0 to GPIO3 are driven as programmed in SLEEP and DEEP too. (6) IDCODE and SAMPLE/PRELOAD are loaded where the TAP runs, and shift out the identification register and the sampled pins. (7) In SAFE or START_FAILED the instructions that take the pins are loaded, and all but HIGHZ drive the boundary register; in any other state BYPASS is loaded for each. (8) Any code but 1 to 7 loads BYPASS. (spec/17_pins_and_electrical.md) -/
def Obligations.SerialPinsAndBoundaryScan : Prop :=
  (∀ (n : Nat) (value : W32) (s : State),
    n < 4 →
    bit value.toNat 16 = true →
    (s.flag (Fld.IND_I3C_CMD_busy n) = true → exec (.i3cTransfer n value) s = .next s) ∧
    (s.flag (Fld.IND_I3C_CMD_busy n) = false → s.flag (Fld.IND_I3C_CTRL_enable n) = true →
      ∃ t, exec (.i3cTransfer n value) s = .next t ∧ t.flag (Fld.IND_I3C_CMD_busy n) = true ∧
        t.sent = .port "i3c" (leBytes n 1 ++ leBytes (bits value.toNat 0 16) 2 ++ (if bit value.toNat 0 then [] else
          ((natRange 0 16).flatMap fun w => leBytes (s.reg (Reg.IND_I3C_DATA n w)) 4).take (min 64 (bits value.toNat 8 7)))) :: s.sent ∧
        t = { s with regs := t.regs, sent := t.sent })) ∧
  (∀ (n : Nat) (nack : Bool) (data : List Byte) (s : State),
    n < 4 →
    s.awake = true →
    s.flag (Fld.IND_I3C_CMD_busy n) = true →
    (nack = true → exec (.i3cTransferDone n nack data) s = .next
      ((s.setFlag (Fld.IND_I3C_CMD_busy n) false).setFlag (Fld.IND_I3C_CMD_nack n) true)) ∧
    (nack = false → (s.setFlag (Fld.IND_I3C_CMD_busy n) false).flag (Fld.IND_I3C_CMD_read n) = false → exec (.i3cTransferDone n nack data) s = .next (s.setFlag (Fld.IND_I3C_CMD_busy n) false)) ∧
    (nack = false → ∃ t, exec (.i3cTransferDone n nack data) s = .next t ∧ t.flag (Fld.IND_I3C_CMD_busy n) = false ∧ t = { s with regs := t.regs })) ∧
  (∀ (n addr : Nat) (s : State),
    n < 4 →
    s.awake = true →
    s.flag (Fld.IND_I3C_CTRL_enable n) = true →
    exec (.i3cIbi n addr) s = .next ((s.setFlag (Fld.IND_I3C_CMD_ibi_seen n) true).setFld (Fld.IND_I3C_CMD_ibi_addr n) addr)) ∧
  (∀ (i : Nat) (level : Bool) (s : State),
    i < 24 →
    (s.awake = true → s.flag (Fld.IND_GPIO_in i) ≠ level → exec (.gpioEdge i level) s = .next
      ((s.setFlag (Fld.IND_GPIO_in i) level).setFlag (Fld.IND_GPIO_edge_seen i) true)) ∧
    (s.awake = false ∨ s.flag (Fld.IND_GPIO_in i) = level → exec (.gpioEdge i level) s = .next s)) ∧
  (∀ (i : Nat) (s : State),
    i < 24 →
    (4 ≤ i → s.powerColumn ≠ 0 → s.outputState (.gpio i) = .floats) ∧ (i < 4 → s.powerColumn ≤ 2 → s.outputState (.gpio i) = s.gpioState i) ∧
    (s.powerColumn = 0 → s.outputState (.gpio i) = s.gpioState i)) ∧
  (∀ (shiftIn pins : List Bool) (s : State),
    s.tapRuns = true →
    exec .idcode s = .next ((s.loadTap jtagIdcode).send (.port "TDO" (leBytes (idcodeOf s.variant) 4))) ∧
    exec (.samplePreload shiftIn pins) s = .next
      { (s.loadTap jtagSample).send (.port "TDO" (levels pins)) with tap := { instruction := jtagSample, boundary := shiftIn } }) ∧
  (∀ (s : State),
    s.tapRuns = true →
    (s.fld Fld.SAF_STATUS_state = safSafe ∨ s.fld Fld.SAF_STATUS_state = safFailed →
      exec .extest s = .next ((s.loadTap jtagExtest).send (.port "pins" (levels s.tap.boundary))) ∧
      exec .extestPulse s = .next ((s.loadTap jtagExtestPulse).send (.port "pins" (levels s.tap.boundary))) ∧
      exec .extestTrain s = .next ((s.loadTap jtagExtestTrain).send (.port "pins" (levels s.tap.boundary))) ∧
      exec .clamp s = .next ((s.loadTap jtagClamp).send (.port "pins" (levels s.tap.boundary))) ∧ exec .highz s = .next (s.loadTap jtagHighz)) ∧
    (s.fld Fld.SAF_STATUS_state ≠ safSafe → s.fld Fld.SAF_STATUS_state ≠ safFailed →
      exec .extest s = .next (s.loadTap jtagBypass) ∧ exec .extestPulse s = .next (s.loadTap jtagBypass) ∧
      exec .extestTrain s = .next (s.loadTap jtagBypass) ∧ exec .clamp s = .next (s.loadTap jtagBypass) ∧
      exec .highz s = .next (s.loadTap jtagBypass))) ∧
  (∀ (code : Nat) (s : State),
    s.tapRuns = true →
    (code % 256 = 0 ∨ 7 < code % 256 → exec (.bypass code) s = .next (s.loadTap jtagBypass)) ∧
    (1 ≤ code % 256 → code % 256 ≤ 7 → exec (.bypass code) s = .next s))

/-- O50. Of camera ports, where a port is on while it is enabled in RUN, not damped: (1) A write to an enabled port that would change settle only sets expert_write_ignored; any other is stored, and where it turns the port on the port takes its copy of the routing table. (2) A frame start refreshes the port's table and starts the frame on each channel and layer that the table gives the virtual channel; one with a corrected header also flags the stream; one that is lost is discarded, flagged on the port and on the open frames of its stream, and logged. (3) A frame end ends the frame there; one with a corrected header flags the stream first. (4) A long packet whose header, start or sync is lost is discarded, flagged on the port and on the open frames of its stream, and logged; one of unknown type is discarded, flagged and logged; a good one is routed; one with a CRC error, a corrected header or an overflow is flagged, logged and routed with what was wrong. (5) Of short packets, line starts and ends change nothing but the time of the last packet, generic ones are counted as discarded, and others are discarded, flagged unknown and logged; a lost one is discarded, flagged and logged. (6) 100 µs without a packet refresh the table of a port that is on. (7) A port that is off and is not the presence port ignores every packet, and its table stands. (spec/11_cameras_and_image_pipeline.md) -/
def Obligations.CameraPortsAndPackets : Prop :=
  (∀ (port : Nat) (value : W32) (s : State),
    port < 4 →
    (s.flag (Fld.CAM_PORT_CTRL_enable port) = true → bits value.toNat 4 8 ≠ s.fld (Fld.CAM_PORT_CTRL_settle port) →
      exec (.camPortEnable port value) s = .next (s.setFlag Fld.CAM_STATUS_expert_write_ignored true)) ∧
    (s.flag (Fld.CAM_PORT_CTRL_enable port) = false ∨ bits value.toNat 4 8 = s.fld (Fld.CAM_PORT_CTRL_settle port) →
      exec (.camPortEnable port value) s = .next (if bit value.toNat 0 = true ∧ s.flag (Fld.CAM_PORT_CTRL_enable port) = false then (s.setReg (Reg.CAM_PORT_CTRL port) (value.toNat % 4096)).refreshTable port
        else s.setReg (Reg.CAM_PORT_CTRL port) (value.toNat % 4096)))) ∧
  (∀ (port vc frameNo : Nat) (s s0 s1 s2 : State),
    (s0 = (s.watchFrame port (vc % 16)).modPort port fun x => { x with packetAt := (s.watchFrame port (vc % 16)).tb }) →
    s1 = s0.refreshTable port →
    s2 = ((s0.eccPacket port).refreshTable port) →
    s.portOn port = true →
    (s.watchFrame port (vc % 16)).portOn port = true →
    exec (.frameStartPacket port vc frameNo .none) s = .next
      (forEach ((s1.camPort port).layersOf port (vc % 16)) s1 fun x t => t.frameStart x.1 x.2 frameNo) ∧
    exec (.frameStartPacket port vc frameNo .eccCorrected) s = .next
      ((forEach ((s2.camPort port).layersOf port (vc % 16)) s2 fun x t => t.frameStart x.1 x.2 frameNo).flagStream port (vc % 16) flEcc) ∧
    exec (.frameStartPacket port vc frameNo .headerLost) s = .next
      ((s.modPort port fun x => { x with packetAt := s.tb }).losePacket port (vc % 16) (Fld.CAM_PORT_STATUS_header_lost port))) ∧
  (∀ (port vc : Nat) (s s1 s2 : State),
    s.portOn port = true →
    (s1 = s.modPort port fun x => { x with packetAt := s.tb }) →
    s2 = (s1.eccPacket port).flagStream port (vc % 16) flEcc →
    exec (.frameEndPacket port vc .none) s = .next (forEach ((s1.camPort port).layersOf port (vc % 16)) s1 fun x t => t.frameEnd x.1 x.2) ∧
    exec (.frameEndPacket port vc .eccCorrected) s = .next (forEach ((s2.camPort port).layersOf port (vc % 16)) s2 fun x t => t.frameEnd x.1 x.2)) ∧
  (∀ (port vc dt : Nat) (payload : List Byte) (s s0 s1 : State),
    s.portOn port = true →
    (s.watchLine port (vc % 16) dt payload).portOn port = true →
    (s0 = s.modPort port fun x => { x with packetAt := s.tb }) →
    (s1 = (s.watchLine port (vc % 16) dt payload).modPort port fun x => { x with packetAt := (s.watchLine port (vc % 16) dt payload).tb }) →
    (exec (.longPacket port vc dt payload .headerLost) s = .next (s0.losePacket port (vc % 16) (Fld.CAM_PORT_STATUS_header_lost port))) ∧
    (exec (.longPacket port vc dt payload .sot) s = .next (s0.losePacket port (vc % 16) (Fld.CAM_PORT_STATUS_sot_error port))) ∧
    (exec (.longPacket port vc dt payload .sync) s = .next (s0.losePacket port (vc % 16) (Fld.CAM_PORT_STATUS_sync_error port))) ∧
    (knownDt dt = false → exec (.longPacket port vc dt payload .none) s = .next
      (((s1.discardPacket port).setFlag (Fld.CAM_PORT_STATUS_unknown_dt port) true).logRecorded unitImage 0)) ∧
    (knownDt dt = true → exec (.longPacket port vc dt payload .none) s = .next (s1.routePacket port (vc % 16) dt payload .none)) ∧
    (knownDt dt = true → exec (.longPacket port vc dt payload .crc) s = .next
      ((((s1.setFlag (Fld.CAM_PORT_STATUS_crc_error port) true).addFld (Fld.CAM_PORT_CNT_crc_errors port) 1).logRecorded unitImage 0).routePacket
        port (vc % 16) dt payload .crc)) ∧
    (knownDt dt = true → exec (.longPacket port vc dt payload .eccCorrected) s = .next
      ((s1.eccPacket port).routePacket port (vc % 16) dt payload .eccCorrected)) ∧
    (knownDt dt = true → exec (.longPacket port vc dt payload .overflow) s = .next
      (((s1.setFlag (Fld.CAM_PORT_STATUS_overflow port) true).logRecorded unitImage 0).routePacket port (vc % 16) dt payload .overflow))) ∧
  (∀ (port vc dt : Nat) (s s1 : State),
    s.portOn port = true →
    vc < 16 →
    2 ≤ dt →
    (s1 = s.modPort port fun x => { x with packetAt := s.tb }) →
    (dt ≤ 3 → exec (.shortPacket port vc dt .none) s = .next s1) ∧
    (8 ≤ dt → dt ≤ 15 → exec (.shortPacket port vc dt .none) s = .next (s1.discardPacket port)) ∧
    (4 ≤ dt → dt ≤ 7 → exec (.shortPacket port vc dt .none) s = .next
      (((s1.discardPacket port).setFlag (Fld.CAM_PORT_STATUS_unknown_dt port) true).logRecorded unitImage 0)) ∧
    exec (.shortPacket port vc dt .headerLost) s = .next (s1.losePacket port vc (Fld.CAM_PORT_STATUS_header_lost port))) ∧
  (∀ (port : Nat) (s : State),
    s.portOn port = true →
    s.passedUs (s.camPort port).packetAt 100 = true →
    exec (.routeTableRefresh port) s = .next (s.refreshTable port)) ∧
  (∀ (port vc dt frameNo : Nat) (payload : List Byte) (err : PacketError) (s : State),
    s.portOn port = false →
    s.watched port (vc % 16) = false →
    exec (.frameStartPacket port vc frameNo err) s = .next s ∧ exec (.frameEndPacket port vc err) s = .next s ∧
    exec (.longPacket port vc dt payload err) s = .next s ∧ exec (.shortPacket port vc dt err) s = .next s ∧ exec (.routeTableRefresh port) s = .next s)

/-- O51. Of capture channels: (1) A write of enable 1 stores the fields; a configuration that fails a check records its number and stays off; one that passes is enabled with no drops and its frame state cleared, and the number of the last refused one stands. (2) A write that would change an enabled channel only sets write_ignored. (3) A write of enable 0 turns an enabled channel off, with its frames gone, from the lanes too, its other fields as they were and write_ignored where they would have changed; of a channel that is off it stores the fields. (4) A channel that is turned off has no frame, open, queued, ready or in a lane, and nothing but its registers and camera state changes. (5) A frame that is open for fe_timeout_us is closed. (6) The oldest finished frame's 32-byte record is written into its slot, the channel forgets the frame and its drops, flags show, and the message of irq_mode is sent. (7) A free lane takes the queued frame that closed first into the next buffer and reads its raw frame back, or drops it where none is free. (8) A lane that is done is free, writes the frame's outputs and makes it ready. (spec/11_cameras_and_image_pipeline.md) -/
def Obligations.CaptureChannelsAndLanes : Prop :=
  (∀ (channel : Nat) (value : W32) (s s1 : State),
    channel < 16 →
    bit value.toNat 0 = true →
    s.flag (Fld.CAM_CH_CTRL_enable channel) = false →
    s1 = s.setReg (Reg.CAM_CH_CTRL channel) (value.toNat % 0x400000 - 1) →
    (s1.camCheck channel ≠ 0 → exec (.camChannelEnable channel value) s = .next
      (s1.setFld (Fld.CAM_CH_STATUS_cfg_error channel) (s1.camCheck channel))) ∧
    (s1.camCheck channel = 0 → exec (.camChannelEnable channel value) s = .next
      (((s1.setFlag (Fld.CAM_CH_CTRL_enable channel) true).setFld (Fld.CAM_CH_DROPS_drops channel) 0).modChan channel fun _ => {}).breakResleep)) ∧
  (∀ (channel : Nat) (value : W32) (s : State),
    channel < 16 →
    bit value.toNat 0 = true →
    s.flag (Fld.CAM_CH_CTRL_enable channel) = true →
    value.toNat % 0x400000 ≠ s.reg (Reg.CAM_CH_CTRL channel) →
    exec (.camChannelEnable channel value) s = .next (s.setFlag (Fld.CAM_CH_STATUS_write_ignored channel) true)) ∧
  (∀ (channel : Nat) (value : W32) (s : State),
    channel < 16 →
    bit value.toNat 0 = false →
    (s.flag (Fld.CAM_CH_CTRL_enable channel) = true → value.toNat % 0x400000 + 1 = s.reg (Reg.CAM_CH_CTRL channel) →
      exec (.camChannelDisable channel value) s = .next (s.stopChannel channel)) ∧
    (s.flag (Fld.CAM_CH_CTRL_enable channel) = true → value.toNat % 0x400000 + 1 ≠ s.reg (Reg.CAM_CH_CTRL channel) →
      exec (.camChannelDisable channel value) s = .next ((s.setFlag (Fld.CAM_CH_STATUS_write_ignored channel) true).stopChannel channel)) ∧
    (s.flag (Fld.CAM_CH_CTRL_enable channel) = false →
      exec (.camChannelDisable channel value) s = .next (s.setReg (Reg.CAM_CH_CTRL channel) (value.toNat % 0x400000)))) ∧
  (∀ (channel : Nat) (s : State),
    ∃ t, t = s.stopChannel channel ∧ t.flag (Fld.CAM_CH_CTRL_enable channel) = false ∧ t.chan channel = {} ∧
    (∀ x ∈ t.cams.lanes, x.2.1 ≠ channel) ∧ t = { s with regs := t.regs, cams := t.cams }) ∧
  (∀ (channel : Nat) (f : CamFrame) (s : State),
    (s.chan channel).open_ = some f →
    s.camOn channel = true →
    s.passedUs f.tStart (s.fld (Fld.CAM_CH_TIMING_fe_timeout_us channel)) = true →
    exec (.frameTimeout channel) s = .next (s.closeFrame channel)) ∧
  (∀ (channel : Nat) (f : CamFrame) (rest : List CamFrame) (s s1 s2 : State),
    (s.chan channel).ready = f :: rest →
    s.camOn channel = true →
    (s.chan channel).memError = false →
    s1 = s.devWrite (s.camClient channel) (s.fld (Fld.CAM_CH_REC_BASE_rec_base channel) +
        32 * (f.no % max 1 (s.fld (Fld.CAM_CH_BUF_CFG_buf_count channel))))
        (leBytes f.no 8 ++ leBytes f.tStart 8 ++ leBytes f.tClose 8 ++ leBytes f.csi 2 ++ leBytes (f.layersByte (s.camLayers channel)) 1 ++
          leBytes (s.chan channel).dropped 1 ++ leBytes f.flags 4) →
    (s2 = if f.flags = 0 then s1.modChan channel (fun y => { y with ready := rest, dropped := 0, memError := false })
    else (s1.modChan channel (fun y => { y with ready := rest, dropped := 0, memError := false })).setFlag (Fld.CAM_CH_STATUS_frame_flagged channel) true) →
    (s.fld (Fld.CAM_CH_CTRL_irq_mode channel) = 1 ∨ s.fld (Fld.CAM_CH_CTRL_irq_mode channel) = 2 ∧ f.flags ≠ 0 → exec (.frameRecordWrite channel) s = .next
      (s2.msix (s2.ownerFn (s.camClient channel)) (s2.fld (Fld.CAM_CH_OWNER_msix_vector channel)))) ∧
    (s.fld (Fld.CAM_CH_CTRL_irq_mode channel) = 0 → exec (.frameRecordWrite channel) s = .next s2)) ∧
  (∀ (lane k : Nat) (f : CamFrame) (s : State),
    lane < 2 →
    mapFind s.cams.lanes lane = none →
    s.saf.damped = false →
    (leastBy (fun (x : Nat × CamFrame) => x.2.tClose) ((natRange 0 16).flatMap fun i => if s.camOn i then (s.chan i).queue.map (fun g => (i, g)) else []) = some (k, f)) →
    ∃ s1 s2 no, s1 = s.modChan k (fun x => { x with queue := x.queue.drop 1 }) ∧ (s2, no) = s1.takeBuffer k ∧
    (no = none → exec (.m2mLaneStart lane) s = .next s2) ∧
    (∀ b, no = some b → exec (.m2mLaneStart lane) s = .next { (s2.rawReads k f) with cams := { (s2.rawReads k f).cams with
      lanes := mapSet (s2.rawReads k f).cams.lanes lane (k, { f with no := b, back := s2.rawLines k f }) } })) ∧
  (∀ (lane k : Nat) (f : CamFrame) (s s1 : State),
    mapFind s.cams.lanes lane = some (k, f) →
    s.saf.damped = false →
    s1 = { s with cams := { s.cams with lanes := mapDel s.cams.lanes lane } } →
    exec (.m2mLaneDone lane) s = .next ((s1.writeFrame k f).1.modChan k fun x => { x with ready := x.ready ++ [(s1.writeFrame k f).2] }))

/-- O52. Of the acoustic front end: (1) A write of AUD_CTRL that enables it starts listening at index 0 with an empty history; while enabled, one that would change settle_ms only sets expert_write_ignored, and another keeps mic_enable and sets the other fields; with enable 0 the fields are stored. A settle time of 0 is stored as 1. (2) A sample tick that does not listen changes nothing; one that does keeps the microphones, saturated and zero under mute, puts each enabled 48 kHz microphone entry's word into its history, and advances the index, and changes only registers, the front end and the count of free values. (3) A range write that would change the hold time of an enabled input only sets expert_write_ignored. (4) Another stores the range, 3 as 2, and requests it of its input from the index on. (5) A latch captures the index and the timebase. (6) The fall of the pin sets pin_muted, and where mute is not in force brings it in: at stage 0, without a latched short, muted reads 1, indicator 0 is lit and the clocks stop. (7) A write of AUD_MUTE clears the supply fault where its bit is 1, stores mute, and with mute 1 brings mute into force. (8) The release of the pin clears pin_muted and, with mute 0, ends mute, gives indicator channel 0 back to what the host wrote, and ends a wait for auto-re-sleep where the budget no longer allows SLEEP; after a MUTE_ON record a record is written. (9) A limit of MIC_VDD while it is on, listening or not, opens it, sets the fault and is logged; a retry closes it. (10) A playback tick in RUN sends the next frame where the produced word exceeds its number, and the frame number advances. (11) Where it does not, or outside RUN or damped, 1 ms of zeros is sent and counted and the number stands. (spec/12_listening_and_wake_chain.md) -/
def Obligations.ListeningMutingAndPlaying : Prop :=
  (∀ (value : W32) (v : Nat) (s : State),
    (v = if bits (value.toNat % 2 ^ 31) 25 6 = 0 then setBits (value.toNat % 2 ^ 31) 25 6 1 else value.toNat % 2 ^ 31) →
    (s.flag Fld.AUD_CTRL_enable = false → bit v 0 = true → ∃ t, exec (.audEnable value) s = .next t ∧ t.reg Reg.AUD_CTRL = v ∧
      t.audio.index = 0 ∧ t.audio.hist = [] ∧ t = { s with regs := t.regs, audio := t.audio }) ∧
    (s.flag Fld.AUD_CTRL_enable = false → bit v 0 = false → exec (.audEnable value) s = .next (s.setReg Reg.AUD_CTRL v)) ∧
    (s.flag Fld.AUD_CTRL_enable = true → bits v 25 6 ≠ bits (s.reg Reg.AUD_CTRL) 25 6 →
      exec (.audEnable value) s = .next (s.setFlag Fld.AUD_STATUS_expert_write_ignored true)) ∧
    (s.flag Fld.AUD_CTRL_enable = true → bits v 25 6 = bits (s.reg Reg.AUD_CTRL) 25 6 → bits v 1 16 = bits (s.reg Reg.AUD_CTRL) 1 16 →
      exec (.audEnable value) s = .next (s.setReg Reg.AUD_CTRL (setBits v 1 16 (bits (s.reg Reg.AUD_CTRL) 1 16))))) ∧
  (∀ (mics analog tdmIn : List Int) (s : State),
    (s.listening = false → exec (.sampleTick mics analog tdmIn) s = .next s) ∧
    (s.listening = true → ∃ t, exec (.sampleTick mics analog tdmIn) s = .next t ∧ t.audio.index = s.audio.index + 1 ∧
      t.audio.past.head? = some (mics.map fun v => if s.audMuted then 0 else (saturate fullScale v).1) ∧
      (∀ e, e < 24 → s.flag (Fld.AUD_HIST_ENTRY_hist_enable e) = true → s.flag (Fld.AUD_HIST_ENTRY_rate48 e) = true →
        s.fld (Fld.AUD_HIST_ENTRY_source e) < 16 → t.histWord e s.audio.index =
          some (s.applyModes.applyBeams.micSample mics (s.fld (Fld.AUD_HIST_ENTRY_source e)) true).word) ∧
      t = { s with regs := t.regs, audio := t.audio, drawn := t.drawn })) ∧
  (∀ (input : Nat) (value : W32) (s : State),
    input < 2 →
    s.flag (Fld.AUD_ADC_CTRL_adc_enable input) = true →
    bits value.toNat 4 10 ≠ s.fld (Fld.AUD_ADC_CTRL_down_hold_ms input) →
    exec (.rangeRequest input value) s = .next (s.setFlag Fld.AUD_STATUS_expert_write_ignored true)) ∧
  (∀ (input : Nat) (value : W32) (s : State),
    input < 2 →
    s.flag (Fld.AUD_ADC_CTRL_adc_enable input) = false ∨ bits value.toNat 4 10 = s.fld (Fld.AUD_ADC_CTRL_down_hold_ms input) →
    ∃ t, exec (.rangeRequest input value) s = .next t ∧ t.fld (Fld.AUD_ADC_CTRL_range input) = min 2 (bits value.toNat 1 2) ∧
    t.audio = { s.audio with adcs := s.audio.adcs.set input ((s.audio.adcs.getD input {}).request (min 2 (bits value.toNat 1 2)) s.audio.index) } ∧
    t = { s with regs := t.regs, audio := t.audio }) ∧
  (∀ (s : State),
    exec .audLatch s = .next ((s.setReg Reg.AUD_LATCH_INDEX s.audio.index).setReg Reg.AUD_LATCH_TB s.tb)) ∧
  (∀ (s : State),
    ((s.setFlag Fld.AUD_MUTE_pin_muted true).audMuted = true → exec .mutePinFall s = .next (s.setFlag Fld.AUD_MUTE_pin_muted true)) ∧
    (s.audMuted = false → s.stage = 0 → s.flag (Fld.IND_CH_short_latched 0) = false → ∃ t, exec .mutePinFall s = .next t ∧
      t.flag Fld.AUD_MUTE_pin_muted = true ∧ t.audMuted = true ∧ t.flag (Fld.IND_CH_on 0) = true ∧ t.audio.modes = [0, 0])) ∧
  (∀ (value : W32) (s s1 : State),
    (s1 = (if bit value.toNat 3 then s.setFlag Fld.AUD_MUTE_mic_vdd_fault false else s).setFlag Fld.AUD_MUTE_mute (bit value.toNat 0)) →
    exec (.muteWrite value) s = .next (if bit value.toNat 0 then s1.forceMute else s1)) ∧
  (∀ (s s1 : State),
    s1 = s.setFlag Fld.AUD_MUTE_pin_muted false →
    (s1.flag Fld.AUD_MUTE_mute = true ∨ s1.audMuted = false → exec .muteRelease s = .next s1) ∧
    (s1.flag Fld.AUD_MUTE_mute = false → s1.audMuted = true → s.wake.muteOn = false →
      exec .muteRelease s = .next (if 40000 < (s1.setFlag Fld.AUD_MUTE_muted false).endMuteLight.aonBudget false then (s1.setFlag Fld.AUD_MUTE_muted false).endMuteLight.breakResleep
        else (s1.setFlag Fld.AUD_MUTE_muted false).endMuteLight)) ∧
    (s1.flag Fld.AUD_MUTE_mute = false → s1.audMuted = true → s.wake.muteOn = true →
      exec .muteRelease s = .next (((if 40000 < (s1.setFlag Fld.AUD_MUTE_muted false).endMuteLight.aonBudget false then (s1.setFlag Fld.AUD_MUTE_muted false).endMuteLight.breakResleep
        else (s1.setFlag Fld.AUD_MUTE_muted false).endMuteLight).wakeRecord 3).modWake fun w => { w with muteOn := false }))) ∧
  (∀ (s : State),
    s.audMuted = false →
    s.micOpen = false →
    s.micSupplied = true →
    exec .micVddLimitExpire s = .next ((({ s with micOpen := true } : State).setFlag Fld.AUD_MUTE_mic_vdd_fault true).logRecorded unitImage 0) ∧
    exec .micVddRetry s = .next { s with micOpen := false }) ∧
  (∀ (p : Nat) (bs : List Byte) (s : State),
    s.tdmOn = true →
    s.saf.damped = false →
    s.power.phase = .run →
    s.cread64 (s.fld Fld.WAK_CLIENT_client) (s.fld Fld.AUD_PLAY_PRODUCED_produced_addr) = .ok p →
    s.audio.playFrame < p →
    s.cread (s.fld Fld.WAK_CLIENT_client) (s.fld Fld.AUD_PLAY_BASE_play_base + s.audio.playFrame % max 1 (s.fld Fld.AUD_TDM_CTRL_play_count) * (4 * (s.tdmTimes * s.tdmSlots))) (4 * (s.tdmTimes * s.tdmSlots)) = .ok bs →
    ∃ t, exec .tdmPlaybackTick s = .next t ∧ t.audio.playFrame = s.audio.playFrame + 1 ∧ t.audio.played = s.audio.playing ∧
    t.audio.playing = ((natRange 0 (s.tdmTimes * s.tdmSlots)).map (fun k => s.slotWord (atOff bs (4 * k) 4)), false)) ∧
  (∀ (s : State),
    s.tdmOn = true →
    (s.saf.damped = true ∨ s.power.phase ≠ .run ∨ (∀ p, s.cread64 (s.fld Fld.WAK_CLIENT_client) (s.fld Fld.AUD_PLAY_PRODUCED_produced_addr) = .ok p → p ≤ s.audio.playFrame)) →
    ∃ t, exec .tdmPlaybackTick s = .next t ∧ t.audio = { s.audio with played := s.audio.playing, playing := (List.replicate (s.tdmTimes * s.tdmSlots) 0, true) })

/-- O53. Of the stages before Blaze: (1) At a hop with an image loaded, the hop's features enter the window, and a program that has not ended counts an overrun and clears the holds; one that has ended has run the image's DETECT on the window: where it failed the holds are cleared, and else its nine values are the hop's logits. (2) A hop's logits count for each enabled keyword the hops above its threshold, and a keyword is detected, with its number and the hop's last index, only where its count has reached its hold and the voice gate lets it. (3) A presence frame keeps the means of its zones, which is all that the first does, and begins the next frame's lines. (4) A later one counts as changed where the means of at least pres_zones zones moved by more than pres_delta, and the third changed one in a row is a detection of presence. (5) Kindling starts, pre-empting a client's run on its engine, at the detection less the image's lead, or at the start of the history. (6) When the samples of the confirmation are there, Kindling runs the image's CONFIRM on them: a failure, or a logit below the image's threshold, goes back to stage 0 and is counted. (7) A logit at the threshold runs SPEAKER on the same samples, takes the enrolled speaker nearest to the embedding, 0xFF below its threshold, goes to stage 2, is counted and writes a wake record. (8) An encoder hop whose samples are there runs ENCODER on them and writes its first index and enc_bytes of the output to the next slot of the encoder ring. (9) confirm_ms without a decision goes back to stage 0, counted but after a decline. (10) reply_ms without a reply goes back to stage 1, is counted and writes a record. (spec/12_listening_and_wake_chain.md) -/
def Obligations.DetectionAndConfirmation : Prop :=
  (∀ (img : List Byte) (s s0 : State),
    s.listening = true →
    s.flag Fld.WAK_CTRL_tinder_enable = true →
    s.wake.tinder = some img →
    s.saf.damped = false →
    s.audio.index % 480 = 0 →
    s.audio.index ≠ 0 →
    s.wake.lastHop ≠ s.audio.index →
    ((s0 = s.modWake fun w => { w with lastHop := s.audio.index, feats := (s.hopFeatures s.audio.index :: w.feats).take 100 })) →
    (exec (.tinderHop false) s = .next ((s0.addFld Fld.WAK_CNT4_overrun 1).modWake fun w => { w with held := [] })) ∧
    (∀ t code, s0.runWake img 0 (featureInput s0.wake.feats) = (t, some code) → exec (.tinderHop true) s = .next
      (((s0.afterImage t false).modWake fun w => { w with tinder := some (imageAfter t img) }).modWake fun w => { w with held := [] })) ∧
    (∀ t, s0.runWake img 0 (featureInput s0.wake.feats) = (t, none) → exec (.tinderHop true) s = .next
      (((s0.afterImage t false).modWake fun w => { w with tinder := some (imageAfter t img) }).keywords (imageValues t img 0 9)))) ∧
  (∀ (logits : List W32) (s t : State),
    (t = s.modWake fun w => { w with held := (natRange 0 8).map fun k => if s.flag (Fld.WAK_KW_kw_enable k) = true ∧ atLeast (logits.getD (k + 1) 0) (thresh (s.fld (Fld.WAK_KW_kw_thresh k))) = true then s.wake.held.getD k 0 + 1 else 0 }) →
    s.keywords logits = t ∨ ∃ k, k < 8 ∧ s.keywords logits = t.detected k (s.audio.index - 1) ∧
      max 1 (s.fld (Fld.WAK_KW_kw_hold k)) ≤ t.wake.held.getD k 0 ∧
      (s.flag Fld.WAK_CTRL_vad_gate = true → atLeast (logits.getD 0 0) (thresh (s.fld Fld.WAK_VAD_vad_thresh)) = true)) ∧
  (∀ (s : State),
    s.listening = true →
    s.flag Fld.WAK_CTRL_presence_enable = true →
    s.flag Fld.WAK_CTRL_tinder_enable = true →
    s.saf.damped = false →
    s.wake.zones = none →
    exec .presenceFrame s = .next (s.modWake fun w => { w with zones := some (zoneMeans s.wake.presLines), presLines := [] })) ∧
  (∀ (zones old : List Rat) (moved n : Nat) (s : State),
    s.listening = true →
    s.flag Fld.WAK_CTRL_presence_enable = true →
    s.flag Fld.WAK_CTRL_tinder_enable = true →
    s.saf.damped = false →
    s.wake.zones = some old →
    zones = zoneMeans s.wake.presLines →
    (moved = ((natRange 0 48).filter fun z => decide (old.getD z 0 + (s.fld Fld.WAK_PRES_pres_delta : Rat) < zones.getD z 0) || decide (zones.getD z 0 + (s.fld Fld.WAK_PRES_pres_delta : Rat) < old.getD z 0)).length) →
    (n = if max 1 (s.fld Fld.WAK_PRES_pres_zones) ≤ moved then s.wake.changed + 1 else 0) →
    (n < 3 → exec .presenceFrame s = .next ((s.modWake fun w => { w with zones := some zones, presLines := [] }).modWake fun w => { w with changed := n })) ∧
    (3 ≤ n → exec .presenceFrame s = .next (((s.modWake fun w => { w with zones := some zones, presLines := [] }).modWake fun w => { w with changed := n }).detected 8
      ((s.modWake fun w => { w with zones := some zones, presLines := [] }).modWake fun w => { w with changed := n }).liveIndex))) ∧
  (∀ (s s1 : State),
    s.stage = 1 →
    s.wake.running = false →
    s.wake.resting = false →
    s.running = true →
    s.wake.kindling.isSome = true →
    (s1 = match s.runOn? hubDie 0x010 with | some r => s.preempt r | none => s) →
    exec .kindlingStart s = .next (({ s1 with kindlingHeld := true } : State).modWake fun w => { w with
      running := true, encSlots := 0
      now := { w.now with start := max (s.wake.now.detect - imageField s.wake.kindling 12 4) s.historyLow
                          encStart := (max (s.wake.now.detect - imageField s.wake.kindling 12 4) s.historyLow + 479) / 480 * 480 } })) ∧
  (∀ (img : List Byte) (s s1 t1 : State) (ok : Bool) (logit : W32),
    s.wake.kindling = some img →
    s.stage = 1 →
    s.wake.running = true →
    s.saf.damped = false →
    imageLast img 0 s.kindlingFrom < s.audio.index →
    s.runKindling img 0 s.kindlingFrom = (s1, t1, ok) →
    logit = (imageValues t1 img 0 1).getD 0 0 →
    ok = false ∨ atLeast logit (num32 (imageField (some img) 64 4)) = false →
    exec .confirmDecision s = .next ((s1.setStage 0).addFld Fld.WAK_CNT2_false_kindling 1)) ∧
  (∀ (img img1 : List Byte) (s s1 t1 s2 t2 s3 : State) (ok2 : Bool) (logit similarity : W32) (nearest : Nat),
    s.wake.kindling = some img →
    s.stage = 1 →
    s.wake.running = true →
    s.saf.damped = false →
    imageLast img 0 s.kindlingFrom < s.audio.index →
    s.runKindling img 0 s.kindlingFrom = (s1, t1, true) →
    logit = (imageValues t1 img 0 1).getD 0 0 →
    atLeast logit (num32 (imageField (some img) 64 4)) = true →
    img1 = imageAfter t1 img →
    s1.runKindling img1 1 s.kindlingFrom = (s2, t2, ok2) →
    nearestSpeaker (some img1) (imageValues t2 img1 1 256) = (nearest, similarity) →
    ((s3 = s2.modWake fun w => { w with
      now := { w.now with confirm := logit, sim := similarity, speaker := if atLeast similarity (num32 (imageField (some img1) 68 4)) && decide (nearest < imageField (some img1) 72 1) then nearest else 0xFF },
      last := { w.now with confirm := logit, sim := similarity, speaker := if atLeast similarity (num32 (imageField (some img1) 68 4)) && decide (nearest < imageField (some img1) 72 1) then nearest else 0xFF },
      running := false })) →
    exec .confirmDecision s = .next (((s3.setStage 2).addFld Fld.WAK_CNT1_esc_kindling 1).wakeRecord 1)) ∧
  (∀ (img : List Byte) (first : Nat) (s s1 t : State) (ok : Bool),
    s.wake.kindling = some img →
    s.stage = 1 →
    s.wake.running = true ∨ s.wake.resting = true →
    s.saf.damped = false →
    first = s.wake.now.encStart + 480 * s.wake.encSlots →
    first + 480 ≤ s.audio.index →
    s.runKindling img 2 first = (s1, t, ok) →
    exec .kindlingEncoderHop s = .next ((s1.devWrite s.wakeClient
      (s.fld Fld.WAK_ENC_BASE_enc_base + s.wake.encSlots % max 1 (s.fld Fld.WAK_CAP_CFG_enc_count) * s.encPitch)
      (leBytes first 8 ++ imageOutput t img 2 (imageField s.wake.kindling 74 2))).modWake fun w => { w with encSlots := s.wake.encSlots + 1 })) ∧
  (∀ (s : State),
    s.stage = 1 →
    s.passedUs s.wake.since (1000 * s.fld Fld.WAK_CTRL_confirm_ms) = true →
    (s.wake.resting = true → exec .confirmTimeout s = .next (s.setStage 0)) ∧
    (s.wake.resting = false → exec .confirmTimeout s = .next ((s.setStage 0).addFld Fld.WAK_CNT2_false_kindling 1))) ∧
  (∀ (s : State),
    s.stage = 2 →
    s.passedUs s.wake.since (1000 * s.fld Fld.WAK_CTRL_reply_ms) = true →
    exec .replyTimeout s = .next
      ((((s.modWake fun w => { w with resting := true }).setStage 1).addFld Fld.WAK_CNT4_timeout_blaze 1).wakeRecord 4))

/-- O54. Of Blaze, the capture ring and wake images: (1) A nudge that names the wake ring while the chain is on reads the control word; another changes nothing. (2) A poll reads it in stages 2 and 3. (3) ACCEPT acts in stage 2 alone, going to stage 3 and opening the capture ring at its index; OPEN does so in any stage while the hub runs. (4) DECLINE and CLOSE act in stages 2 and 3, closing the ring: DECLINE counts and rests at stage 1, CLOSE goes to stage 0. (5) Of an open ring, a frame whose samples are not all there waits; a due one is written to its slot where the host has freed one, with what was lost counted and shown as a gap, and the next frame and index follow. (6) A load while its stage is enabled ends with error 6 and the image gone; otherwise it clears the error and is under way, a load while another is under way changing nothing. (7) The end of a load clears busy and shows the error that the image's checks give, 6 where its stage has been enabled, the image then gone; an image that passes is in place. (spec/12_listening_and_wake_chain.md) -/
def Obligations.RepliesCapturesAndImages : Prop :=
  (∀ (word : W32) (s : State),
    ((s.chainOn && decide (bits word.toNat 0 20 = s.fld Fld.WAK_CLIENT_wake_ring) && decide (bits word.toNat 20 12 = 0)) = true →
      exec (.wakeRingNudge word) s = .next s.readControl) ∧
    ((s.chainOn && decide (bits word.toNat 0 20 = s.fld Fld.WAK_CLIENT_wake_ring) && decide (bits word.toNat 20 12 = 0)) = false →
      exec (.wakeRingNudge word) s = .next s)) ∧
  (∀ (s : State),
    (s.chainOn = true → 2 ≤ s.stage → exec .controlWordPoll s = .next s.readControl) ∧
    (s.chainOn = false ∨ s.stage < 2 → exec .controlWordPoll s = .next s)) ∧
  (∀ (start : Nat) (s : State),
    (s.stage = 2 → exec (.acceptReply start) s = .next ((s.setStage 3).openRing start)) ∧
    (s.stage ≠ 2 → exec (.acceptReply start) s = .next s) ∧
    (s.running = true → exec (.openCapture start) s = .next ((s.setStage 3).openRing start)) ∧
    (s.running = false → exec (.openCapture start) s = .next s)) ∧
  (∀ (s : State),
    (s.stage = 2 ∨ s.stage = 3 → exec .declineReply s = .next
      ((((s.closeRing.addFld Fld.WAK_CNT3_false_blaze 1).modWake fun w => { w with resting := true, running := false }).setStage 1))) ∧
    (s.stage = 2 ∨ s.stage = 3 → exec .closeCapture s = .next (s.closeRing.setStage 0)) ∧
    (s.stage < 2 → exec .declineReply s = .next s ∧ exec .closeCapture s = .next s)) ∧
  (∀ (s s0 : State),
    s.flag Fld.WAK_STATE_capture_open = true →
    s.saf.damped = false →
    (s0 = s.modWake fun w => { w with capIndex := s.captureStart, capLost := s.wake.capLost + (s.captureStart - s.wake.capIndex), capGap := s.wake.capGap || decide (s.captureStart ≠ s.wake.capIndex) }) →
    (s.liveIndex < s.captureStart + 47 → exec .captureFrame s = .next s0) ∧
    (s.captureStart + 47 ≤ s.liveIndex → s.captureFree = false → exec .captureFrame s = .next (s0.fetchHub (s.fld Fld.WAK_CAP_CONSUMED_consumed_addr) 8)) ∧
    (s.captureStart + 47 ≤ s.liveIndex → s.captureFree = true → exec .captureFrame s = .next
      (((s0.fetchHub (s.fld Fld.WAK_CAP_CONSUMED_consumed_addr) 8).devWrite s.wakeClient
        (s.fld Fld.WAK_CAP_BASE_cap_base + s.wake.capFrame % max 1 (s.fld Fld.WAK_CAP_CFG_cap_count) * (s.fld Fld.WAK_CAP_CFG_cap_stride * 256))
        (s.captureBytes s.captureStart s0.wake.capLost s0.wake.capGap)).modWake fun w =>
          { w with capIndex := s.captureStart + 48, capFrame := s.wake.capFrame + 1, capLost := 0, capGap := false }))) ∧
  (∀ (s : State),
    s.flag Fld.WAK_LOAD_load_busy = false →
    (s.flag Fld.WAK_CTRL_tinder_enable = true → exec .loadTinder s = .next ((s.setFld Fld.WAK_LOAD_load_error 6).modWake fun w => { w with tinder := none })) ∧
    (s.flag Fld.WAK_CTRL_tinder_enable = false → ∃ t, exec .loadTinder s = .next t ∧
      t = (((s.setFld Fld.WAK_LOAD_load_error 0).setFlag Fld.WAK_LOAD_load_busy true).modWake fun w => { w with loading := some 1 }) ∧
      exec .loadTinder t = .next t) ∧
    (s.flag Fld.WAK_CTRL_kindling_enable = true → exec .loadKindling s = .next ((s.setFld Fld.WAK_LOAD_load_error 6).modWake fun w => { w with kindling := none })) ∧
    (s.flag Fld.WAK_CTRL_kindling_enable = false → exec .loadKindling s = .next
      (((s.setFld Fld.WAK_LOAD_load_error 0).setFlag Fld.WAK_LOAD_load_busy true).modWake fun w => { w with loading := some 2 }))) ∧
  (∀ (target a e : Nat) (s : State),
    s.wake.loading = some target →
    target = 1 ∨ target = 2 →
    (a = if target = 1 then s.fld Fld.WAK_TINDER_IMG_tinder_img else s.fld Fld.WAK_KND_IMG_kindling_img) →
    ∃ t, exec .imageLoadDone s = .next t ∧ t.wake.loading = none ∧ t.flag Fld.WAK_LOAD_load_busy = false ∧
    (s.imageStageOn target = true → t.fld Fld.WAK_LOAD_load_error = 6 ∧ (if target = 1 then t.wake.tinder else t.wake.kindling) = none) ∧
    (s.imageStageOn target = false → s.imageAt target a = .error e → e < 8 → t.fld Fld.WAK_LOAD_load_error = e ∧ (if target = 1 then t.wake.tinder else t.wake.kindling) = none) ∧
    (∀ img, s.imageStageOn target = false → s.imageAt target a = .ok img → (if target = 1 then t.wake.tinder else t.wake.kindling) = some img))

/-- O55. In every state each of these commands completes, and the next state differs from the one before at most in the parts named for it; every other part, all bytes of memory among them, is as it was. (1) the watch port’s KICK, STATUS and CAUSE: the supervisor’s state, what was sent and the count of free values. (2) UNCERT_CLEAR, TIMEBASE_HANDBACK, I3C_TRANSFER_DONE, I3C_IBI, GPIO_EDGE, COUNTER_SNAP and HOST_PORT_RESET: registers; FW_STAGE registers and the keys and images. (3) COMPAT_KEY_CLEAR: registers and keys, and DRBG_RESEED keys. (4) MEMORY_READY: registers, dies and the power state; WAKE_PIN and RTC_ALARM registers and the power state; RTC_EDGE the timebase and the power state. (5) IND_SHORT_DETECT: registers and indicators; TRACE_ARM and TRACE_ENABLE registers and trace state; RANGE_REQUEST and AUD_ENABLE registers and the front end. (6) COUNT_LO_READ: counters and the host’s answer, and COUNT_HI_WRITE and COUNT_LO_WRITE counters. (7) CAM_PORT_ENABLE: registers and camera state; CAM_CHANNEL_ENABLE these and the power state; LOAD_TINDER and LOAD_KINDLING registers and the wake chain. (8) IMAGE_LOAD_DONE, where no word of memory holds an error: registers, the wake chain and the counts of page accesses. (spec/00_scope.md, spec/12_listening_and_wake_chain.md, spec/13_faults_safety_recovery.md, spec/15_power_clocks_time.md, spec/16_observation_and_trace.md, spec/17_pins_and_electrical.md) -/
def Obligations.CommandsTouchOnlyTheirParts : Prop :=
  (∀ (data : Nat) (s : State),
    (∃ t, exec (.watchKick data) s = .next t ∧ t = { s with saf := t.saf, sent := t.sent, drawn := t.drawn }) ∧
    (∃ t, exec (.watchStatus data) s = .next t ∧ t = { s with saf := t.saf, sent := t.sent, drawn := t.drawn }) ∧
    (∃ t, exec (.watchCause data) s = .next t ∧ t = { s with saf := t.saf, sent := t.sent, drawn := t.drawn })) ∧
  (∀ (n : Nat) (nack : Bool) (data : List Byte) (addr : Nat) (i : Nat) (level : Bool) (block : Nat) (s : State),
    (∃ t, exec .uncertClear s = .next t ∧ t = { s with regs := t.regs }) ∧
    (∃ t, exec .timebaseHandback s = .next t ∧ t = { s with regs := t.regs }) ∧
    (∃ t, exec (.i3cTransferDone n nack data) s = .next t ∧ t = { s with regs := t.regs }) ∧
    (∃ t, exec (.i3cIbi n addr) s = .next t ∧ t = { s with regs := t.regs }) ∧
    (∃ t, exec (.gpioEdge i level) s = .next t ∧ t = { s with regs := t.regs }) ∧
    (∃ t, exec (.counterSnap block) s = .next t ∧ t = { s with regs := t.regs }) ∧
    (∃ t, exec .fwStage s = .next t ∧ t = { s with regs := t.regs, keys := t.keys }) ∧
    (∃ t, exec .hostPortReset s = .next t ∧ t = { s with regs := t.regs })) ∧
  (∀ (client : Nat) (s : State),
    (∃ t, exec (.compatKeyClear client) s = .next t ∧ t = { s with regs := t.regs, keys := t.keys }) ∧
    (∃ t, exec .drbgReseed s = .next t ∧ t = { s with keys := t.keys })) ∧
  (∀ (s : State),
    (∃ t, exec .memoryReady s = .next t ∧ t = { s with regs := t.regs, dies := t.dies, power := t.power }) ∧
    (∃ t, exec .wakePin s = .next t ∧ t = { s with regs := t.regs, power := t.power }) ∧
    (∃ t, exec .rtcAlarm s = .next t ∧ t = { s with regs := t.regs, power := t.power }) ∧
    (∃ t, exec .rtcEdge s = .next t ∧ t = { s with tb := t.tb, power := t.power })) ∧
  (∀ (n : Nat) (value : W32) (s : State),
    (∃ t, exec (.indShortDetect n) s = .next t ∧ t = { s with regs := t.regs, inds := t.inds }) ∧
    (∃ t, exec .traceArm s = .next t ∧ t = { s with regs := t.regs, trace := t.trace }) ∧
    (∃ t, exec (.traceEnable value) s = .next t ∧ t = { s with regs := t.regs, trace := t.trace }) ∧
    (∃ t, exec (.rangeRequest n value) s = .next t ∧ t = { s with regs := t.regs, audio := t.audio }) ∧
    (∃ t, exec (.audEnable value) s = .next t ∧ t = { s with regs := t.regs, audio := t.audio })) ∧
  (∀ (block : Nat) (i : Nat) (value : W32) (s : State),
    (∃ t, exec (.countLoRead block i) s = .next t ∧ t = { s with cnts := t.cnts, hostRsp := t.hostRsp, hostPoison := t.hostPoison }) ∧
    (∃ t, exec (.countHiWrite block i value) s = .next t ∧ t = { s with cnts := t.cnts }) ∧
    (∃ t, exec (.countLoWrite block i value) s = .next t ∧ t = { s with cnts := t.cnts })) ∧
  (∀ (n : Nat) (value : W32) (s : State),
    (∃ t, exec (.camPortEnable n value) s = .next t ∧ t = { s with regs := t.regs, cams := t.cams }) ∧
    (∃ t, exec (.camChannelEnable n value) s = .next t ∧ t = { s with regs := t.regs, cams := t.cams, power := t.power }) ∧
    (∃ t, exec .loadTinder s = .next t ∧ t = { s with regs := t.regs, wake := t.wake }) ∧
    (∃ t, exec .loadKindling s = .next t ∧ t = { s with regs := t.regs, wake := t.wake })) ∧
  (∀ (s : State),
    (∀ g, (s.dmc g).errs = []) →
    (∀ d, (s.hearth d).errs = []) →
    ∃ t, exec .imageLoadDone s = .next t ∧ t = { s with regs := t.regs, wake := t.wake, access := t.access })

/-- O56. Of the bytes of memory (that each PASID’s host memory stands apart is the model’s choice, log 3): (1) A store at a place of the Hearth, of the host’s memory or of another package writes exactly its bytes there, and every byte outside them reads as before; a host range that the host refuses keeps its bytes. (2) A store within one 64-byte line of an address that the client may access goes to its place and succeeds; in a page that is granted and not backed it fails with 0x0D03, and where the client may not access the address with the code of the access, and nothing is stored. (3) An instruction whose effect lies in its own engine’s part of the run leaves all of memory, the DRAM and the Hearth as they were. (spec/01_package_and_paths.md, spec/06_matrix_engine.md, spec/10_memory_tiers_and_ecc.md) -/
def Obligations.StoresReachTheirBytes : Prop :=
  (∀ (d off k x i : Nat) (bs : List Byte) (s : State),
    (x < hearthKey d off ∨ hearthKey d off + bs.length ≤ x → memoryGet (s.putAt (.hearth d off) bs).mem x = memoryGet s.mem x) ∧
    (i < bs.length → memoryGet (s.putAt (.hearth d off) bs).mem (hearthKey d off + i) = bs.getD i 0) ∧
    (x < k ∨ k + bs.length ≤ x → memoryGet (s.putAt (.remote k) bs).mem x = memoryGet s.mem x ∧
      memoryGet (s.putAt (.host k) bs).mem x = memoryGet s.mem x) ∧
    (i < bs.length → memoryGet (s.putAt (.remote k) bs).mem (k + i) = bs.getD i 0) ∧
    (i < bs.length → inRanges k s.env.refused = false → memoryGet (s.putAt (.host k) bs).mem (k + i) = bs.getD i 0) ∧
    (inRanges k s.env.refused = true → s.putAt (.host k) bs = s)) ∧
  (∀ (cl a d : Nat) (bs : List Byte) (p : Place) (s : State),
    bs ≠ [] →
    a % 64 + bs.length ≤ 64 →
    (s.place cl a = .ok p → p ≠ .unbacked → s.cwrite cl a bs = (s.putAt p bs, none)) ∧
    (s.place cl a = .ok .unbacked → s.cwrite cl a bs = (s, some 0x0D03)) ∧
    (s.place cl a = .error d → s.cwrite cl a bs = (s, some d))) ∧
  (∀ (e : Eng) (w : W128) (r : Run) (g : EngRun) (f : EngRun → EngRun) (s t : State),
    t = ((s.begun e w r g).modEng e f).advance e →
    t.mem = s.mem ∧ t.dmcs = s.dmcs ∧ t.hearths = s.hearths ∧ t = { s with runs := t.runs, cnts := t.cnts, regs := t.regs })
end

