-- ==== Sys2Proof/Laws/Instr.lean ====
section
/-! SUPPORT. What executing one instruction of a tile program comes to: its own effect, then the next instruction, or the failure that
the effect gives. -/

namespace Sys2Proof.Machine

open Sys2Proof

variable {s t : State} {e : Eng} {w : W128} {op d : Nat} {r : Run} {g : EngRun} {f : Ctx → State → State × Option Nat}

/-- Only a compute instruction's operands are held to the ring window. -/
theorem Ctx.ringBarred_of_op (c : Ctx) (h : wbyte w 0 < 0x30 ∨ 0xA0 ≤ wbyte w 0 ∨ wbyte w 0 = 0x50) : c.ringBarred s w = false := by
  unfold Ctx.ringBarred
  rcases h with h | h | h <;> simp [h] <;> omega

theorem Ctx.heldToWindow_done (c : Ctx) (h : c.ringBarred s w = false) : c.heldToWindow w s (t, none) = (t, none) := by
  simp [Ctx.heldToWindow, h]

/-- An instruction whose own effect succeeds has that effect and ends. -/
theorem State.instr_done (h : s.atWord e w op r g) (hb : (ctxOf e r g w).ringBarred (s.begun e w r g) w = false)
    (hf : f (ctxOf e r g w) (s.begun e w r g) = (t, none)) : s.instr e w op f = State.ended e (t, none) := by
  obtain ⟨h1, h2, h3, h4, h5⟩ := h
  unfold State.instr
  simp only [h1, h2, h3, h4, h5, Bool.and_self, Bool.not_true, Bool.false_eq_true, if_false, ne_eq, not_true]
  rw [hf, Ctx.heldToWindow_done _ hb]
  rfl

/-- One whose own effect fails with a code other than uncorrectable data fails the command with that code. -/
theorem State.instr_fails (h : s.atWord e w op r g) (hd : d ≠ 0x0D02)
    (hf : f (ctxOf e r g w) (s.begun e w r g) = (t, some d)) : s.instr e w op f = t.failEng e d := by
  obtain ⟨h1, h2, h3, h4, h5⟩ := h
  unfold State.instr
  simp only [h1, h2, h3, h4, h5, Bool.and_self, Bool.not_true, Bool.false_eq_true, if_false, ne_eq, not_true]
  rw [hf]
  simp only [Ctx.heldToWindow]
  unfold Ctx.noteUe
  split
  · rename_i h6; injection h6 with _ h6; injection h6 with h6; exact absurd h6 hd
  · rfl

/-- An instruction that the engine does not execute now changes nothing. -/
theorem State.instr_idle (h : s.engOf e = some (r, g)) (hm : (s.mayRun e r g && opIs w op) = false) : s.instr e w op f = s := by
  unfold State.instr
  simp [h, hm]

/-- An instruction word that cannot be read fails the command with the code of the access. -/
theorem State.instr_unread (h : s.engOf e = some (r, g)) (hm : s.mayRun e r g = true) (ho : opIs w op = true)
    (hx : s.fetch r g = .error d) : s.instr e w op f = s.failEng e d := by
  unfold State.instr
  simp [h, hm, ho, hx]

end Sys2Proof.Machine
end

