-- ==== Sys2Proof/Laws/Map.lean ====
section
/-! SUPPORT. Laws of finite maps and of the byte memory: what is found after an insertion or a deletion, and the canonical form. -/

namespace Sys2Proof.Machine

variable {α : Type}

/-! ### Finding -/

@[simp] theorem mapFind_mapSet_same (m : NMap α) (k : Nat) (v : α) : mapFind (mapSet m k v) k = some v := by
  induction m with
  | nil => simp [mapSet, mapFind]
  | cons p m ih =>
    obtain ⟨j, u⟩ := p
    by_cases h1 : k < j
    · simp [mapSet, mapFind, h1]
    · by_cases h2 : j = k
      · simp [mapSet, mapFind, h2]
      · simp [mapSet, mapFind, h1, h2, ih]

theorem mapFind_mapSet_other (m : NMap α) {k k' : Nat} (v : α) (h : k' ≠ k) :
    mapFind (mapSet m k v) k' = mapFind m k' := by
  induction m with
  | nil => simp [mapSet, mapFind, Ne.symm h]
  | cons p m ih =>
    obtain ⟨j, u⟩ := p
    by_cases h1 : k < j
    · simp [mapSet, mapFind, h1, Ne.symm h]
    · by_cases h2 : j = k
      · subst h2; simp [mapSet, mapFind, Ne.symm h]
      · simp only [mapSet, h1, h2, if_false, mapFind, ih]

@[simp] theorem mapFind_mapDel_same (m : NMap α) (k : Nat) : mapFind (mapDel m k) k = none := by
  induction m with
  | nil => simp [mapDel, mapFind]
  | cons p m ih =>
    obtain ⟨j, u⟩ := p
    by_cases h2 : j = k
    · simp [mapDel, h2, ih]
    · simp [mapDel, mapFind, h2, ih]

theorem mapFind_mapDel_other (m : NMap α) {k k' : Nat} (h : k' ≠ k) : mapFind (mapDel m k) k' = mapFind m k' := by
  induction m with
  | nil => simp [mapDel, mapFind]
  | cons p m ih =>
    obtain ⟨j, u⟩ := p
    by_cases h2 : j = k
    · subst h2; simp [mapDel, mapFind, ih, Ne.symm h]
    · simp only [mapDel, h2, if_false, mapFind, ih]

@[simp] theorem mapGet_mapSet_same (m : NMap α) (k : Nat) (v d : α) : mapGet (mapSet m k v) k d = v := by
  simp [mapGet]

theorem mapGet_mapSet_other (m : NMap α) {k k' : Nat} (v d : α) (h : k' ≠ k) :
    mapGet (mapSet m k v) k' d = mapGet m k' d := by
  simp [mapGet, mapFind_mapSet_other m v h]

@[simp] theorem mapGet_mapPut_same [DecidableEq α] (m : NMap α) (k : Nat) (v d : α) :
    mapGet (mapPut m k v d) k d = v := by
  by_cases h : v = d <;> simp [mapPut, mapGet, h]

theorem mapGet_mapPut_other [DecidableEq α] (m : NMap α) {k k' : Nat} (v d d' : α) (h : k' ≠ k) :
    mapGet (mapPut m k v d) k' d' = mapGet m k' d' := by
  by_cases h1 : v = d
  · simp [mapPut, mapGet, h1, mapFind_mapDel_other m h]
  · simp [mapPut, mapGet, h1, mapFind_mapSet_other m v h]

/-! ### The canonical form -/

theorem mapAbove_mono {m : NMap α} {a b : Nat} (h : a ≤ b) (hm : mapAbove b m = true) : mapAbove a m = true := by
  cases m with
  | nil => rfl
  | cons p m =>
    simp only [mapAbove, Bool.and_eq_true, decide_eq_true_eq] at *
    exact ⟨by omega, hm.2⟩

theorem mapAbove_mapSet {m : NMap α} {lo k : Nat} (v : α) (hk : lo < k) (hm : mapAbove lo m = true) :
    mapAbove lo (mapSet m k v) = true := by
  induction m generalizing lo with
  | nil => simp [mapSet, mapAbove, hk]
  | cons p m ih =>
    obtain ⟨j, u⟩ := p
    simp only [mapAbove, Bool.and_eq_true, decide_eq_true_eq] at hm
    by_cases h1 : k < j
    · simp [mapSet, mapAbove, h1, hk, hm.2]
    · by_cases h2 : j = k
      · subst h2; simp [mapSet, mapAbove, hk, hm.2]
      · have : j < k := by omega
        simp [mapSet, mapAbove, h1, h2, hm.1, ih this hm.2]

theorem mapAbove_mapDel {m : NMap α} {lo : Nat} (k : Nat) (hm : mapAbove lo m = true) :
    mapAbove lo (mapDel m k) = true := by
  induction m generalizing lo with
  | nil => simpa [mapDel] using hm
  | cons p m ih =>
    obtain ⟨j, u⟩ := p
    simp only [mapAbove, Bool.and_eq_true, decide_eq_true_eq] at hm
    by_cases h2 : j = k
    · simp only [mapDel, h2, if_true]
      exact ih (mapAbove_mono (by omega) hm.2)
    · simp [mapDel, h2, mapAbove, hm.1, ih hm.2]

theorem mapAbove_filter {m : NMap α} {lo : Nat} (p : Nat × α → Bool) (hm : mapAbove lo m = true) :
    mapAbove lo (m.filter p) = true := by
  induction m generalizing lo with
  | nil => simpa using hm
  | cons q m ih =>
    obtain ⟨j, u⟩ := q
    simp only [mapAbove, Bool.and_eq_true, decide_eq_true_eq] at hm
    by_cases h : p (j, u) = true
    · simp [h, mapAbove, hm.1, ih hm.2]
    · simp only [List.filter_cons, h]
      exact ih (mapAbove_mono (by omega) hm.2)

theorem mapSorted_of_above {m : NMap α} {lo : Nat} (h : mapAbove lo m = true) : mapSorted m = true := by
  cases m with
  | nil => rfl
  | cons p m => simp only [mapAbove, Bool.and_eq_true] at h; simpa [mapSorted] using h.2

theorem mapSorted_mapSet {m : NMap α} (k : Nat) (v : α) (h : mapSorted m = true) : mapSorted (mapSet m k v) = true := by
  cases m with
  | nil => simp [mapSet, mapSorted, mapAbove]
  | cons p m =>
    obtain ⟨j, u⟩ := p
    simp only [mapSorted] at h
    by_cases h1 : k < j
    · simp [mapSet, h1, mapSorted, mapAbove, h]
    · by_cases h2 : j = k
      · subst h2; simpa [mapSet, mapSorted] using h
      · simp only [mapSet, h1, h2, if_false, mapSorted]
        exact mapAbove_mapSet v (by omega) h

theorem mapSorted_mapDel {m : NMap α} (k : Nat) (h : mapSorted m = true) : mapSorted (mapDel m k) = true := by
  cases m with
  | nil => rfl
  | cons p m =>
    obtain ⟨j, u⟩ := p
    simp only [mapSorted] at h
    by_cases h2 : j = k
    · simp only [mapDel, h2, if_true]; exact mapSorted_of_above (mapAbove_mapDel k h)
    · simp only [mapDel, h2, if_false, mapSorted]; exact mapAbove_mapDel k h

theorem mapSorted_filter {m : NMap α} (p : Nat × α → Bool) (h : mapSorted m = true) : mapSorted (m.filter p) = true := by
  cases m with
  | nil => rfl
  | cons q m =>
    obtain ⟨j, u⟩ := q
    simp only [mapSorted] at h
    by_cases hp : p (j, u) = true
    · simp only [List.filter_cons, hp, if_true, mapSorted]; exact mapAbove_filter p h
    · simp only [List.filter_cons, hp]; exact mapSorted_of_above (mapAbove_filter p h)

theorem mem_mapSet {m : NMap α} {k : Nat} {v : α} {q : Nat × α} (h : q ∈ mapSet m k v) : q = (k, v) ∨ q ∈ m := by
  induction m with
  | nil => simpa [mapSet] using h
  | cons p m ih =>
    obtain ⟨j, u⟩ := p
    by_cases h1 : k < j
    · simp only [mapSet, h1, if_true, List.mem_cons] at h
      rcases h with h | h | h <;> simp [h]
    · by_cases h2 : j = k
      · subst h2
        simp only [mapSet, h1, if_true, if_false, List.mem_cons] at h
        rcases h with h | h <;> simp [h]
      · simp only [mapSet, h1, h2, if_false, List.mem_cons] at h
        rcases h with h | h
        · simp [h]
        · rcases ih h with h | h <;> simp [h]

theorem mem_mapDel {m : NMap α} {k : Nat} {q : Nat × α} (h : q ∈ mapDel m k) : q ∈ m := by
  induction m with
  | nil => simp [mapDel] at h
  | cons p m ih =>
    obtain ⟨j, u⟩ := p
    by_cases h2 : j = k
    · simp only [mapDel, h2, if_true] at h; exact List.mem_cons_of_mem _ (ih h)
    · simp only [mapDel, h2, if_false, List.mem_cons] at h
      rcases h with h | h
      · simp [h]
      · exact List.mem_cons_of_mem _ (ih h)

/-! ### The byte memory -/

theorem memoryWf_put {m : List Host.Cell} (a : Nat) (b : Byte) (h : memoryWf m = true) :
    memoryWf (memoryPut m a b) = true := by
  simp only [memoryWf, Bool.and_eq_true, List.all_eq_true, decide_eq_true_eq] at h ⊢
  by_cases hb : b = emptyByte
  · refine ⟨by simpa [memoryPut, mapPut, hb] using mapSorted_mapDel a h.1, fun c hc => ?_⟩
    simp only [memoryPut, mapPut, hb, if_true] at hc
    exact h.2 c (mem_mapDel hc)
  · refine ⟨by simpa [memoryPut, mapPut, hb] using mapSorted_mapSet a b h.1, fun c hc => ?_⟩
    simp only [memoryPut, mapPut, hb, if_false] at hc
    rcases mem_mapSet hc with rfl | hc
    · exact hb
    · exact h.2 c hc

theorem memoryWf_write {m : List Host.Cell} (a : Nat) (bs : List Byte) (h : memoryWf m = true) :
    memoryWf (memoryWrite m a bs) = true := by
  induction bs generalizing m a with
  | nil => exact h
  | cons b bs ih => exact ih (a + 1) (memoryWf_put a b h)

theorem memoryWf_filter {m : List Host.Cell} (p : Host.Cell → Bool) (h : memoryWf m = true) :
    memoryWf (m.filter p) = true := by
  simp only [memoryWf, Bool.and_eq_true, List.all_eq_true, decide_eq_true_eq] at h ⊢
  exact ⟨mapSorted_filter p h.1, fun c hc => h.2 c (List.mem_filter.mp hc).1⟩

theorem memoryWf_clear {m : List Host.Cell} (a n : Nat) (h : memoryWf m = true) : memoryWf (memoryClear m a n) = true :=
  memoryWf_filter _ h

@[simp] theorem memoryGet_put_same (m : List Host.Cell) (a : Nat) (b : Byte) : memoryGet (memoryPut m a b) a = b := by
  simp [memoryGet, memoryPut]

theorem memoryGet_put_other (m : List Host.Cell) {a x : Nat} (b : Byte) (h : x ≠ a) :
    memoryGet (memoryPut m a b) x = memoryGet m x := by
  simp [memoryGet, memoryPut, mapGet_mapPut_other m b emptyByte emptyByte h]

theorem memoryGet_write_outside (m : List Host.Cell) {a x : Nat} (bs : List Byte) (h : x < a ∨ a + bs.length ≤ x) :
    memoryGet (memoryWrite m a bs) x = memoryGet m x := by
  induction bs generalizing m a with
  | nil => rfl
  | cons b bs ih =>
    simp only [List.length_cons] at h
    rw [memoryWrite, ih _ (by omega), memoryGet_put_other _ _ (by omega)]

theorem memoryGet_write_inside (m : List Host.Cell) (a k : Nat) (bs : List Byte) (h : k < bs.length) :
    memoryGet (memoryWrite m a bs) (a + k) = bs[k] := by
  induction bs generalizing m a k with
  | nil => simp at h
  | cons b bs ih =>
    cases k with
    | zero => rw [memoryWrite, Nat.add_zero, memoryGet_write_outside _ _ (by omega)]; simp
    | succ k =>
      simp only [List.length_cons] at h
      have := ih (memoryPut m a b) (a + 1) k (by omega)
      rw [memoryWrite, show a + (k + 1) = a + 1 + k by omega, this]; rfl

/-! ### Loops -/

/-! ### Bit fields -/

theorem setBits_div (n lo w v : Nat) : setBits n lo w v / 2 ^ lo = v % 2 ^ w + 2 ^ w * (n / 2 ^ (lo + w)) := by
  have h : setBits n lo w v = n % 2 ^ lo + 2 ^ lo * (v % 2 ^ w + 2 ^ w * (n / 2 ^ (lo + w))) := by
    simp only [setBits, Nat.shiftRight_eq_div_pow, Nat.pow_add, Nat.mul_add, Nat.mul_assoc]
    omega
  rw [h, Nat.add_mul_div_left _ _ (Nat.two_pow_pos lo), Nat.div_eq_of_lt (Nat.mod_lt _ (Nat.two_pow_pos lo)), Nat.zero_add]

theorem setBits_mod (n lo w v : Nat) : setBits n lo w v % 2 ^ lo = n % 2 ^ lo := by
  have h : setBits n lo w v = n % 2 ^ lo + 2 ^ lo * (v % 2 ^ w + 2 ^ w * (n / 2 ^ (lo + w))) := by
    simp only [setBits, Nat.shiftRight_eq_div_pow, Nat.pow_add, Nat.mul_add, Nat.mul_assoc]
    omega
  rw [h, Nat.add_mul_mod_self_left, Nat.mod_mod]

/-- A field cut to 64 bits, where the field lies below bit 64. -/
theorem bits_mod (n : Nat) {lo w k : Nat} (h : lo + w ≤ k) : bits (n % 2 ^ k) lo w = bits n lo w := by
  obtain ⟨r, rfl⟩ := Nat.exists_eq_add_of_le h
  simp only [bits, Nat.shiftRight_eq_div_pow, Nat.pow_add, Nat.mul_assoc]
  rw [Nat.mod_mul_right_div_self, Nat.mod_mul_right_mod]

theorem bits_setBits_same (n v : Nat) (lo w : Nat) : bits (setBits n lo w v) lo w = v % 2 ^ w := by
  simp only [bits, Nat.shiftRight_eq_div_pow, setBits_div, Nat.add_mul_mod_self_left, Nat.mod_mod]

theorem bits_setBits_mod (n v : Nat) {lo w : Nat} (h : lo + w ≤ 64) : bits (setBits n lo w v % 2 ^ 64) lo w = v % 2 ^ w := by
  rw [bits_mod _ h, bits_setBits_same]

theorem bits_setBits_apart (n v : Nat) {lo w lo' w' : Nat} (_hf : lo + w ≤ 64) (hg : lo' + w' ≤ 64)
    (h : lo' + w' ≤ lo ∨ lo + w ≤ lo') : bits (setBits n lo w v % 2 ^ 64) lo' w' = bits n lo' w' := by
  rw [bits_mod _ hg]
  rcases h with h | h
  · rw [← bits_mod _ h, setBits_mod, bits_mod _ h]
  · obtain ⟨r, rfl⟩ := Nat.exists_eq_add_of_le h
    simp only [bits, Nat.shiftRight_eq_div_pow, Nat.pow_add, ← Nat.div_div_eq_div_mul]
    rw [setBits_div, Nat.add_mul_div_left _ _ (Nat.two_pow_pos w), Nat.div_eq_of_lt (Nat.mod_lt _ (Nat.two_pow_pos w)), Nat.zero_add,
      Nat.pow_add, ← Nat.div_div_eq_div_mul]

/-- A loop keeps what each of its turns keeps. -/
theorem forEach_keeps {β σ : Type} (P : σ → Prop) (xs : List β) {s : σ} {f : β → σ → σ}
    (h : ∀ x t, P t → P (f x t)) (hs : P s) : P (forEach xs s f) := by
  induction xs generalizing s with
  | nil => exact hs
  | cons x xs ih => exact ih (h x s hs)

/-- A loop leaves a projection alone when each of its turns does. -/
theorem forEach_proj {β σ τ : Type} (g : σ → τ) (xs : List β) (s : σ) (f : β → σ → σ)
    (h : ∀ x t, g (f x t) = g t) : g (forEach xs s f) = g s := by
  induction xs generalizing s with
  | nil => rfl
  | cons x xs ih => simp only [forEach, ih, h]

end Sys2Proof.Machine
end

