-- ==== Sys2Proof/Laws/Kept.lean ====
section
/-! SUPPORT. What every command leaves as it was (the queue, the variant, the grade) beside the canonical form of the memory,
as one predicate that each operation is shown to keep. -/

namespace Sys2Proof.Machine

open Sys2Proof

/-- What no command changes of a state: whether its memory is canonical (once it is), its queue, its variant and its grade. -/
structure Fixed where
  canonical : Prop
  pending : List Instr
  variant : Variant
  grade : Grade

def State.fixed (s : State) : Fixed := ⟨memoryWf s.mem = true, s.pending, s.variant, s.grade⟩

/-- The memory is in its canonical form if that of `fx` was, and the queue, the variant and the grade are those of `fx`. -/
def KeptOf (fx : Fixed) (m : List Host.Cell) (p : List Instr) (v : Variant) (g : Grade) : Prop :=
  (fx.canonical → memoryWf m = true) ∧ p = fx.pending ∧ v = fx.variant ∧ g = fx.grade

abbrev Kept (fx : Fixed) (s : State) : Prop := KeptOf fx s.mem s.pending s.variant s.grade

variable {fx : Fixed} {m : List Host.Cell} {p : List Instr} {v : Variant} {g : Grade}

theorem kept_fixed (s : State) : Kept s.fixed s := ⟨id, rfl, rfl, rfl⟩

theorem KeptOf.put (a : Nat) (b : Byte) (h : KeptOf fx m p v g) : KeptOf fx (memoryPut m a b) p v g :=
  ⟨fun w => memoryWf_put a b (h.1 w), h.2⟩

theorem KeptOf.write (a : Nat) (bs : List Byte) (h : KeptOf fx m p v g) : KeptOf fx (memoryWrite m a bs) p v g :=
  ⟨fun w => memoryWf_write a bs (h.1 w), h.2⟩

theorem KeptOf.filter (q : Host.Cell → Bool) (h : KeptOf fx m p v g) : KeptOf fx (m.filter q) p v g :=
  ⟨fun w => memoryWf_filter q (h.1 w), h.2⟩

theorem KeptOf.clear (a n : Nat) (h : KeptOf fx m p v g) : KeptOf fx (memoryClear m a n) p v g :=
  ⟨fun w => memoryWf_clear a n (h.1 w), h.2⟩

/-- A loop over states keeps what each turn keeps. -/
theorem forEach_kept {β : Type} (xs : List β) (s : State) (f : β → State → State) (hs : Kept fx s)
    (h : ∀ x t, Kept fx t → Kept fx (f x t)) : Kept fx (forEach xs s f) :=
  forEach_keeps (fun t : State => Kept fx t) xs h hs

/-- A loop that may stop early keeps what each turn keeps. -/
theorem foldl_kept {β γ : Type} (xs : List β) (a : State × γ) (f : State × γ → β → State × γ) (hs : Kept fx a.1)
    (h : ∀ a k, Kept fx a.1 → Kept fx (f a k).1) : Kept fx (xs.foldl f a).1 := by
  induction xs generalizing a with
  | nil => exact hs
  | cons x xs ih => exact ih _ (h a x hs)

end Sys2Proof.Machine
end

