-- ==== Sys2Proof/Laws/KeepOps.lean ====
section
/-! SUPPORT. Every operation of Machine/Ops.lean keeps the canonical form of the memory, the queue, the variant and the grade. -/

namespace Sys2Proof.Machine

open Sys2Proof

variable {fx : Fixed}

theorem State.setReg_kept (s : State) (key v : Nat) (h : Kept fx s) :
    Kept fx (State.setReg s key v) := by
  grind [State.setReg]

theorem State.setFld_kept (s : State) (f : Fld) (v : Nat) (h : Kept fx s) :
    Kept fx (State.setFld s f v) := by
  grind [State.setFld, State.setReg_kept]

theorem State.setFlag_kept (s : State) (f : Fld) (b : Bool) (h : Kept fx s) :
    Kept fx (State.setFlag s f b) := by
  grind [State.setFlag, State.setFld_kept]

theorem State.breakResleep_kept (s : State) (h : Kept fx s) :
    Kept fx (State.breakResleep s) := by
  grind [State.breakResleep]

theorem State.addFld_kept (s : State) (f : Fld) (n : Nat) (h : Kept fx s) :
    Kept fx (State.addFld s f n) := by
  grind [State.addFld, State.setFld_kept]

theorem State.resetRegs_kept (s : State) (inBlock : Nat → Bool) (keep : Acc → Bool) (h : Kept fx s) :
    Kept fx (State.resetRegs s inBlock keep) := by
  grind [State.resetRegs, State.setReg_kept, forEach_kept]

theorem State.store_kept (s : State) (a : Nat) (bs : List Byte) (h : Kept fx s) :
    Kept fx (State.store s a bs) := by
  grind [State.store, KeptOf.write, KeptOf.clear, KeptOf.filter]

theorem State.drawBytes_kept (s : State) (n : Nat) (h : Kept fx s) :
    Kept fx (State.drawBytes s n).1 := by
  grind [State.drawBytes]

theorem State.send_kept (s : State) (m : Sent) (h : Kept fx s) :
    Kept fx (State.send s m) := by
  grind [State.send]

theorem State.modUnit_kept (s : State) (u : Nat) (f : UnitSt → UnitSt) (h : Kept fx s) :
    Kept fx (State.modUnit s u f) := by
  grind [State.modUnit]

theorem State.modDie_kept (s : State) (d : Nat) (f : Die → Die) (h : Kept fx s) :
    Kept fx (State.modDie s d f) := by
  grind [State.modDie]

theorem State.modClient_kept (s : State) (c : Nat) (f : Client → Client) (h : Kept fx s) :
    Kept fx (State.modClient s c f) := by
  grind [State.modClient]

theorem State.modRing_kept (s : State) (r : Nat) (f : Ring → Ring) (h : Kept fx s) :
    Kept fx (State.modRing s r f) := by
  grind [State.modRing]

theorem State.modHearth_kept (s : State) (d : Nat) (f : Hearth → Hearth) (h : Kept fx s) :
    Kept fx (State.modHearth s d f) := by
  grind [State.modHearth]

theorem State.modDmc_kept (s : State) (g : Nat) (f : Dmc → Dmc) (h : Kept fx s) :
    Kept fx (State.modDmc s g f) := by
  grind [State.modDmc]

theorem State.modPage_kept (s : State) (n : Nat) (f : Page → Page) (h : Kept fx s) :
    Kept fx (State.modPage s n f) := by
  grind [State.modPage]

theorem State.modLink_kept (s : State) (u : Nat) (f : Link → Link) (h : Kept fx s) :
    Kept fx (State.modLink s u f) := by
  grind [State.modLink]

theorem State.modCnt_kept (s : State) (blk : Nat) (f : CntBlock → CntBlock) (h : Kept fx s) :
    Kept fx (State.modCnt s blk f) := by
  grind [State.modCnt]

theorem State.bump_kept (s : State) (blk i n : Nat) (h : Kept fx s) :
    Kept fx (State.bump s blk i n) := by
  grind [State.bump, State.modCnt_kept, State.setFld_kept]

theorem State.count_kept (s : State) (d u code n : Nat) (cl : Option Nat) (h : Kept fx s) :
    Kept fx (State.count s d u code n cl) := by
  grind [State.count, State.bump_kept, forEach_kept]

theorem State.countFixed_kept (s : State) (d u i n : Nat) (h : Kept fx s) :
    Kept fx (State.countFixed s d u i n) := by
  grind [State.countFixed, State.bump_kept]

theorem State.dropPacket_kept (s : State) (p : TracePacket) (note : Bool) (h : Kept fx s) :
    Kept fx (State.dropPacket s p note) := by
  grind [State.dropPacket, State.addFld_kept, State.count_kept, State.setFlag_kept]

theorem State.postPacket_kept (s : State) (p : TracePacket) (h : Kept fx s) :
    Kept fx (State.postPacket s p) := by
  grind [State.postPacket, State.setFld_kept]

theorem State.hubPacket_kept (s : State) (p : TracePacket) (h : Kept fx s) :
    Kept fx (State.hubPacket s p).1 := by
  grind [State.hubPacket, State.dropPacket_kept, State.postPacket_kept]

theorem State.hubTake_kept (ps : List TracePacket) (s : State) (h : Kept fx s) :
    Kept fx (State.hubTake ps s).1 := by
  induction ps generalizing s with
  | nil => exact h
  | cons p ps ih =>
    have := State.hubPacket_kept s p h
    grind [State.hubTake]

theorem State.forwardTrace_kept (s : State) (d : Nat) (buf : List TracePacket) (h : Kept fx s) :
    Kept fx (State.forwardTrace s d buf) := by
  grind [State.forwardTrace, State.hubTake_kept, State.send_kept, forEach_kept]

theorem State.trigger_kept (s : State) (cause : Nat) (h : Kept fx s) :
    Kept fx (State.trigger s cause) := by
  grind [State.trigger, State.postPacket_kept, State.setFld_kept, State.setReg_kept]

theorem State.arrive_kept (s : State) (p : TracePacket) (h : Kept fx s) :
    Kept fx (State.arrive s p) := by
  grind [State.arrive, State.dropPacket_kept, State.forwardTrace_kept, State.hubPacket_kept, State.trigger_kept]

theorem State.packet_kept (s : State) (ty unit client : Nat) (payload : List Byte) (h : Kept fx s) :
    Kept fx (State.packet s ty unit client payload) := by
  grind [State.packet, State.arrive_kept]

theorem State.stepEpoch_kept (s : State) (u : Nat) (h : Kept fx s) :
    Kept fx (State.stepEpoch s u) := by
  grind [State.stepEpoch, State.count_kept, State.modUnit_kept, State.send_kept, forEach_kept]

theorem State.advanceEpoch_kept (s : State) (u : Nat) (h : Kept fx s) :
    Kept fx (State.advanceEpoch s u) := by
  grind [State.advanceEpoch, State.modUnit_kept, State.stepEpoch_kept]

theorem State.msix_kept (s : State) (fn vec : Nat) (h : Kept fx s) :
    Kept fx (State.msix s fn vec) := by
  grind [State.msix, State.send_kept]

theorem State.noteWakeOut_kept (s : State) (h : Kept fx s) :
    Kept fx (State.noteWakeOut s) := by
  grind [State.noteWakeOut]

theorem State.writeLog_kept (s0 : State) (r : LogRec) (h : Kept fx s0) :
    Kept fx (State.writeLog s0 r) := by
  grind [State.writeLog, State.count_kept, State.msix_kept, State.noteWakeOut_kept, State.packet_kept, State.setFld_kept, State.store_kept]

theorem State.logEvent_kept (s : State) (cls action unit detail : Nat) (client : Nat := 0xFFF) (seq : Nat := 0) (ring : Nat := 0) (h : Kept fx s) :
    Kept fx (State.logEvent s cls action unit detail client seq ring) := by
  grind [State.logEvent, State.writeLog_kept]

theorem State.writeMerge_kept (s : State) (m : LogMerge) (h : Kept fx s) :
    Kept fx (State.writeMerge s m) := by
  grind [State.writeMerge, State.count_kept, State.writeLog_kept]

theorem State.logCorrected_kept (s : State) (unit detail : Nat) (client : Nat := 0xFFF) (h : Kept fx s) :
    Kept fx (State.logCorrected s unit detail client) := by
  grind [State.logCorrected, State.writeMerge_kept]

theorem State.logRecorded_kept (s : State) (unit detail : Nat) (client : Nat := 0xFFF) (ring : Nat := 0) (h : Kept fx s) :
    Kept fx (State.logRecorded s unit detail client ring) := by
  grind [State.logRecorded, State.logEvent_kept]

theorem State.modRingPort_kept (s : State) (p : Nat) (f : RingPort → RingPort) (h : Kept fx s) :
    Kept fx (State.modRingPort s p f) := by
  grind [State.modRingPort]

theorem State.newKey_kept (s : State) (h : Kept fx s) :
    Kept fx (State.newKey s).1 := by
  grind [State.newKey]

theorem State.sendAgreement_kept (s : State) (p : Nat) (h : Kept fx s) :
    Kept fx (State.sendAgreement s p) := by
  grind [State.sendAgreement, State.newKey_kept, State.send_kept]

theorem State.startRekey_kept (s : State) (p : Nat) (h : Kept fx s) :
    Kept fx (State.startRekey s p) := by
  grind [State.startRekey, State.modRingPort_kept, State.sendAgreement_kept, State.send_kept, State.setFlag_kept]

theorem State.rekeyAtCount_kept (s : State) (p count : Nat) (h : Kept fx s) :
    Kept fx (State.rekeyAtCount s p count) := by
  grind [State.rekeyAtCount, State.startRekey_kept]

theorem State.putFrame_kept (s : State) (p : Nat) (l : PortLoad) (h : Kept fx s) :
    Kept fx (State.putFrame s p l) := by
  grind [State.putFrame, State.modRingPort_kept, State.rekeyAtCount_kept, State.send_kept, State.setFld_kept, State.startRekey_kept]

theorem State.nonceSpent_kept (s : State) (p : Nat) (h : Kept fx s) :
    Kept fx (State.nonceSpent s p) := by
  grind [State.nonceSpent, State.logRecorded_kept, State.setFlag_kept]

theorem State.sendFrame_kept (s : State) (p : Nat) (l : PortLoad) (h : Kept fx s) :
    Kept fx (State.sendFrame s p l) := by
  grind [State.sendFrame, State.modRingPort_kept, State.nonceSpent_kept, State.putFrame_kept, State.setFlag_kept]

theorem State.sendToPackage_kept (s : State) (port pkg : Nat) (messages : List Byte) (h : Kept fx s) :
    Kept fx (State.sendToPackage s port pkg messages) := by
  grind [State.sendToPackage, State.sendFrame_kept]

theorem State.sendWaiting_kept (p n : Nat) (s : State) (h : Kept fx s) :
    Kept fx (State.sendWaiting p n s) := by
  induction n generalizing s with
  | zero => exact h
  | succ n ih => grind [State.sendWaiting, State.putFrame_kept, State.modRingPort_kept, State.nonceSpent_kept]

theorem State.modInd_kept (s : State) (n : Nat) (f : IndCh → IndCh) (h : Kept fx s) :
    Kept fx (State.modInd s n f) := by
  grind [State.modInd]

theorem State.lightChannel_kept (s : State) (n : Nat) (h : Kept fx s) :
    Kept fx (State.lightChannel s n) := by
  grind [State.lightChannel, State.modInd_kept, State.setFlag_kept]

theorem State.unfreeze_kept (s : State) (h : Kept fx s) :
    Kept fx (State.unfreeze s) := by
  grind [State.unfreeze]

theorem State.endClamp_kept (s : State) (n : Nat) (h : Kept fx s) :
    Kept fx (State.endClamp s n) := by
  grind [State.endClamp, State.modInd_kept, State.setFlag_kept, State.unfreeze_kept]

theorem State.darken_kept (s : State) (n : Nat) (h : Kept fx s) :
    Kept fx (State.darken s n) := by
  grind [State.darken, State.endClamp_kept, State.modInd_kept]

theorem State.noteWish_kept (s : State) (n : Nat) (on : Bool) (h : Kept fx s) : Kept fx (s.noteWish n on) := by
  grind [State.noteWish]

theorem State.endMuteLight_kept (s : State) (h : Kept fx s) : Kept fx s.endMuteLight := by
  grind [State.endMuteLight, State.darken_kept, State.setFlag_kept]

end Sys2Proof.Machine
end

