-- ==== Sys2Proof/Laws/KeepMemory.lean ====
section
/-! SUPPORT. Every operation of Machine/Memory.lean keeps the canonical form of the memory, the queue, the variant and the grade. -/

namespace Sys2Proof.Machine

open Sys2Proof

variable {fx : Fixed}

theorem State.noteUe_kept (s : State) (g cw : Nat) (h : Kept fx s) :
    Kept fx (State.noteUe s g cw) := by
  grind [State.noteUe, State.modDmc_kept, State.setFlag_kept, State.setFld_kept]

theorem State.putWord_kept (s : State) (g cw : Nat) (bs : List Byte) (h : Kept fx s) :
    Kept fx (State.putWord s g cw bs) := by
  grind [State.putWord, State.modDmc_kept, State.store_kept]

theorem State.putClinker_kept (s : State) (g cw : Nat) (bs : List Byte) (h : Kept fx s) :
    Kept fx (State.putClinker s g cw bs) := by
  grind [State.putClinker, State.modDmc_kept, State.store_kept]

theorem State.exposeGroupBy_kept (tell : State → Nat → Nat → List Nat → State) (s : State) (g : Nat) (hf : ∀ t a b l, Kept fx t → Kept fx (tell t a b l)) (h : Kept fx s) :
    Kept fx (State.exposeGroupBy tell s g) := by
  grind [State.exposeGroupBy, State.logEvent_kept, State.modDmc_kept, State.setFlag_kept]

theorem State.markPositionBy_kept (tell : State → Nat → Nat → List Nat → State) (s : State) (g j : Nat) (hf : ∀ t a b l, Kept fx t → Kept fx (tell t a b l)) (h : Kept fx s) :
    Kept fx (State.markPositionBy tell s g j) := by
  grind [State.markPositionBy, State.exposeGroupBy_kept, State.logEvent_kept, State.setFld_kept]

theorem State.noteCorrectionBy_kept (tell : State → Nat → Nat → List Nat → State) (s : State) (g j : Nat) (hf : ∀ t a b l, Kept fx t → Kept fx (tell t a b l)) (h : Kept fx s) :
    Kept fx (State.noteCorrectionBy tell s g j) := by
  grind [State.noteCorrectionBy, State.addFld_kept, State.logCorrected_kept, State.markPositionBy_kept, State.modDmc_kept, State.setFlag_kept]

theorem State.noteCorrected_kept (note : State → Nat → Nat → State) (s : State) (g cw : Nat) (hf : ∀ t a b, Kept fx t → Kept fx (note t a b)) (h : Kept fx s) :
    Kept fx (State.noteCorrected note s g cw) := by
  grind [State.noteCorrected]

theorem State.flushWordBy_kept (note : State → Nat → Nat → State) (s : State) (g : Nat) (e : MergeEntry) (k : Nat) (hf : ∀ t a b, Kept fx t → Kept fx (note t a b)) (h : Kept fx s) :
    Kept fx (State.flushWordBy note s g e k) := by
  grind [State.flushWordBy, State.noteCorrected_kept, State.noteUe_kept, State.putClinker_kept, State.putWord_kept]

theorem State.flushBad_kept (s : State) (g : Nat) (e : MergeEntry) (h : Kept fx s) :
    Kept fx (State.flushBad s g e) := by
  grind [State.flushBad, State.modDmc_kept, State.noteUe_kept, State.putClinker_kept, forEach_kept]

theorem State.flushEntryBy_kept (note : State → Nat → Nat → State) (s : State) (g : Nat) (e : MergeEntry) (hf : ∀ t a b, Kept fx t → Kept fx (note t a b)) (h : Kept fx s) :
    Kept fx (State.flushEntryBy note s g e) := by
  grind [State.flushEntryBy, State.flushBad_kept, State.flushWordBy_kept, State.modDmc_kept, forEach_kept]

theorem State.writeLineBy_kept (note : State → Nat → Nat → State) (s : State) (g off : Nat) (bs : List Byte) (hf : ∀ t a b, Kept fx t → Kept fx (note t a b)) (h : Kept fx s) :
    Kept fx (State.writeLineBy note s g off bs) := by
  grind [State.writeLineBy, State.flushEntryBy_kept, State.modDmc_kept, State.putWord_kept, forEach_kept]

theorem State.markDirty_kept (s : State) (g off : Nat) (h : Kept fx s) :
    Kept fx (State.markDirty s g off) := by
  grind [State.markDirty]

theorem State.dramWriteBy_kept (note : State → Nat → Nat → State) (s : State) (g off : Nat) (bs : List Byte) (hf : ∀ t a b, Kept fx t → Kept fx (note t a b)) (h : Kept fx s) :
    Kept fx (State.dramWriteBy note s g off bs) := by
  grind [State.dramWriteBy, State.markDirty_kept, State.writeLineBy_kept, forEach_kept]

theorem State.cleanHearth_kept (s : State) (d off n : Nat) (h : Kept fx s) :
    Kept fx (State.cleanHearth s d off n) := by
  grind [State.cleanHearth, State.modHearth_kept, forEach_kept]

theorem State.noteHearthRead_kept (s : State) (d off n : Nat) (h : Kept fx s) :
    Kept fx (State.noteHearthRead s d off n) := by
  grind [State.noteHearthRead, State.logCorrected_kept, State.setFlag_kept]

theorem State.putAtBy_kept (note : State → Nat → Nat → State) (s : State) (p : Place) (bs : List Byte)
    (hf : ∀ t a b, Kept fx t → Kept fx (note t a b)) (h : Kept fx s) :
    Kept fx (State.putAtBy note s p bs) := by
  cases p with
  | hearth d off => exact State.modHearth_kept _ _ _ (State.store_kept _ _ _ (State.cleanHearth_kept _ _ _ _ h))
  | _ => grind [State.putAtBy, State.dramWriteBy_kept, State.store_kept]

theorem writePiecesBy_kept (note : State → Nat → Nat → State) (find : State → Nat → Except Nat Place) (strict : Bool)
    (xs : List (Nat × List Byte)) (s : State)
    (hf : ∀ t a b, Kept fx t → Kept fx (note t a b))
    (h : Kept fx s) : Kept fx (writePiecesBy note find strict xs s).1 := by
  induction xs generalizing s with
  | nil => exact h
  | cons x xs ih => grind [writePiecesBy, State.putAtBy_kept]

theorem State.countLines_kept (s : State) (die a n : Nat) (h : Kept fx s) :
    Kept fx (State.countLines s die a n) := by
  grind [State.countLines, forEach_kept]

theorem State.clientEvent_kept (s : State) (c ev unit arg : Nat) (h : Kept fx s) :
    Kept fx (State.clientEvent s c ev unit arg) := by
  grind [State.clientEvent, State.countLines_kept, State.modClient_kept, State.msix_kept, State.noteCorrectionBy_kept, writePiecesBy_kept]

theorem State.groupEvent_kept (s : State) (g ev : Nat) (owners : List Nat) (h : Kept fx s) :
    Kept fx (State.groupEvent s g ev owners) := by
  grind [State.groupEvent, State.clientEvent_kept, forEach_kept]

theorem State.exposeGroup_kept (s : State) (g : Nat) (h : Kept fx s) :
    Kept fx (State.exposeGroup s g) := by
  grind [State.exposeGroup, State.exposeGroupBy_kept, State.groupEvent_kept]

theorem State.markPosition_kept (s : State) (g j : Nat) (h : Kept fx s) :
    Kept fx (State.markPosition s g j) := by
  grind [State.markPosition, State.groupEvent_kept, State.markPositionBy_kept]

theorem State.noteCorrection_kept (s : State) (g j : Nat) (h : Kept fx s) :
    Kept fx (State.noteCorrection s g j) := by
  grind [State.noteCorrection, State.groupEvent_kept, State.noteCorrectionBy_kept]

theorem State.noteWordRead_kept (s : State) (g cw : Nat) (h : Kept fx s) :
    Kept fx (State.noteWordRead s g cw) := by
  grind [State.noteWordRead, State.noteCorrection_kept, State.noteUe_kept]

theorem State.noteRead_kept (s : State) (g off n : Nat) (h : Kept fx s) :
    Kept fx (State.noteRead s g off n) := by
  grind [State.noteRead, State.noteWordRead_kept, forEach_kept]

theorem State.noteReads_kept (s : State) (a n : Nat) (h : Kept fx s) :
    Kept fx (State.noteReads s a n) := by
  grind [State.noteReads, State.noteHearthRead_kept, State.noteRead_kept, forEach_kept]

theorem State.touch_kept (s : State) (die a n : Nat) (isRead : Bool) (h : Kept fx s) :
    Kept fx (State.touch s die a n isRead) := by
  grind [State.touch, State.countLines_kept, State.noteReads_kept]

theorem State.fetchHub_kept (s : State) (a n : Nat) (h : Kept fx s) :
    Kept fx (State.fetchHub s a n) := by
  grind [State.fetchHub, State.touch_kept]

theorem State.flushWord_kept (s : State) (g : Nat) (e : MergeEntry) (k : Nat) (h : Kept fx s) :
    Kept fx (State.flushWord s g e k) := by
  grind [State.flushWord, State.flushWordBy_kept, State.noteCorrection_kept]

theorem State.flushEntry_kept (s : State) (g : Nat) (e : MergeEntry) (h : Kept fx s) :
    Kept fx (State.flushEntry s g e) := by
  grind [State.flushEntry, State.flushEntryBy_kept, State.noteCorrection_kept]

theorem State.writeLine_kept (s : State) (g off : Nat) (bs : List Byte) (h : Kept fx s) :
    Kept fx (State.writeLine s g off bs) := by
  grind [State.writeLine, State.noteCorrection_kept, State.writeLineBy_kept]

theorem State.dramWrite_kept (s : State) (g off : Nat) (bs : List Byte) (h : Kept fx s) :
    Kept fx (State.dramWrite s g off bs) := by
  grind [State.dramWrite, State.dramWriteBy_kept, State.noteCorrection_kept]

theorem State.putAt_kept (s : State) (p : Place) (bs : List Byte) (h : Kept fx s) :
    Kept fx (State.putAt s p bs) := by
  grind [State.putAt, State.noteCorrection_kept, State.putAtBy_kept]

theorem writePieces_kept (find : State → Nat → Except Nat Place) (strict : Bool) (ps : List (Nat × List Byte)) (s : State) (h : Kept fx s) :
    Kept fx (writePieces find strict ps s).1 := by
  grind [writePieces, State.noteCorrection_kept, writePiecesBy_kept]

theorem State.flushGroup_kept (s : State) (g : Nat) (h : Kept fx s) :
    Kept fx (State.flushGroup s g) := by
  grind [State.flushGroup, State.flushEntry_kept, forEach_kept]

theorem State.cwrite_kept (s : State) (c a : Nat) (bs : List Byte) (h : Kept fx s) :
    Kept fx (State.cwrite s c a bs).1 := by
  grind [State.cwrite, writePieces_kept]

theorem State.devWrite_kept (s : State) (c a : Nat) (bs : List Byte) (h : Kept fx s) :
    Kept fx (State.devWrite s c a bs) := by
  grind [State.devWrite, State.countLines_kept, writePieces_kept]

theorem State.sysWrite_kept (s : State) (c a : Nat) (bs : List Byte) (h : Kept fx s) :
    Kept fx (State.sysWrite s c a bs) := by
  grind [State.sysWrite, State.countLines_kept, writePieces_kept]

end Sys2Proof.Machine
end

