-- ==== Sys2Proof/Laws/KeepOperands.lean ====
section
/-! SUPPORT. Every operation of Machine/Operands.lean keeps the canonical form of the memory, the queue, the variant and the grade. -/

namespace Sys2Proof.Machine

open Sys2Proof

variable {fx : Fixed}

theorem mapSt_kept {α β : Type} (f : State → α → State × β) (x0 : List α) (s : State) (hf : ∀ t a, Kept fx t → Kept fx (f t a).1) (h : Kept fx s) :
    Kept fx (mapSt f x0 s).1 := by
  induction x0 generalizing s with
  | nil => exact h
  | cons x xs ih => exact ih _ (hf s x h)

theorem Writes.freed_kept (ws : Writes) (s : State) (h : Kept fx s) :
    Kept fx (Writes.freed ws s).1 := by
  unfold Writes.freed
  exact mapSt_kept _ _ _ (fun t _ h => State.drawBytes_kept t 1 h) (mapSt_kept _ _ _ (fun t x h => State.drawBytes_kept t _ h) h)

theorem State.applyWrites_kept (cl : Nat) (xs : List (Nat × List Byte)) (s : State)
    (h : Kept fx s) : Kept fx (State.applyWrites cl xs s).1 := by
  induction xs generalizing s with
  | nil => exact h
  | cons x xs ih => have := State.cwrite_kept s cl x.1 x.2 h; grind [State.applyWrites]

theorem runEach_kept {α : Type} (f : α → State → State × Option Nat) (xs : List α) (s : State)
    (hf : ∀ x t, Kept fx t → Kept fx (f x t).1)
    (h : Kept fx s) : Kept fx (runEach f xs s).1 := by
  induction xs generalizing s with
  | nil => exact h
  | cons x xs ih => grind [runEach]

theorem State.applyHalf_kept (cl : Nat) (x : Half) (s : State) (h : Kept fx s) :
    Kept fx (State.applyHalf cl x s).1 := by
  grind [State.applyHalf, State.cwrite_kept]

end Sys2Proof.Machine
end

