-- ==== Sys2Proof/Laws/KeepHearth.lean ====
section
/-! SUPPORT. Every operation of Machine/Hearth.lean keeps the canonical form of the memory, the queue, the variant and the grade. -/

namespace Sys2Proof.Machine

open Sys2Proof

variable {fx : Fixed}

theorem State.takeBuf_kept (s : State) (d g size client : Nat) (keep : Bool) (entry : Nat) (h : Kept fx s) :
    Kept fx (State.takeBuf s d g size client keep entry) := by
  grind [State.takeBuf, State.modHearth_kept, forEach_kept, KeptOf.write, KeptOf.clear, KeptOf.filter]

theorem State.freeBuf_kept (s : State) (d g : Nat) (h : Kept fx s) :
    Kept fx (State.freeBuf s d g) := by
  grind [State.freeBuf, State.modHearth_kept, forEach_kept]

theorem State.freeFault_kept (s : State) (d client granule reason : Nat) (h : Kept fx s) :
    Kept fx (State.freeFault s d client granule reason) := by
  grind [State.freeFault, State.clientEvent_kept, State.logCorrected_kept, State.logRecorded_kept, State.setFlag_kept, State.setFld_kept]

theorem State.freeFor_kept (s : State) (d c g : Nat) (live : Bool) (h : Kept fx s) :
    Kept fx (State.freeFor s d c g live) := by
  grind [State.freeFor, State.freeBuf_kept, State.freeFault_kept]

theorem State.freeRunBufs_kept (s : State) (d entry : Nat) (all : Bool) (h : Kept fx s) :
    Kept fx (State.freeRunBufs s d entry all) := by
  grind [State.freeRunBufs, State.freeBuf_kept, forEach_kept]

theorem State.keepRunBufs_kept (s : State) (d entry : Nat) (h : Kept fx s) :
    Kept fx (State.keepRunBufs s d entry) := by
  grind [State.keepRunBufs, State.modHearth_kept]

theorem State.dropAllocs_kept (s : State) (d entry : Nat) (h : Kept fx s) :
    Kept fx (State.dropAllocs s d entry) := by
  grind [State.dropAllocs, State.modHearth_kept]

theorem State.loseHearth_kept (s : State) (d : Nat) (h : Kept fx s) :
    Kept fx (State.loseHearth s d) := by
  grind [State.loseHearth, State.modHearth_kept]

end Sys2Proof.Machine
end

