-- ==== Sys2Proof/Laws/KeepFlags.lean ====
section
/-! SUPPORT. Every operation of Machine/Flags.lean keeps the canonical form of the memory, the queue, the variant and the grade. -/

namespace Sys2Proof.Machine

open Sys2Proof

variable {fx : Fixed}

theorem State.acct_kept (s : State) (c off n : Nat) (h : Kept fx s) :
    Kept fx (State.acct s c off n) := by
  grind [State.acct, State.modClient_kept]

theorem State.acctRelease_kept (s : State) (c status : Nat) (h : Kept fx s) :
    Kept fx (State.acctRelease s c status) := by
  grind [State.acctRelease, State.acct_kept]

end Sys2Proof.Machine
end

