-- ==== Sys2Proof/Laws/KeepSched.lean ====
section
/-! SUPPORT. Every operation of Machine/Sched.lean keeps the canonical form of the memory, the queue, the variant and the grade. -/

namespace Sys2Proof.Machine

open Sys2Proof

variable {fx : Fixed}

theorem State.modStep_kept (s : State) (ring seq : Nat) (f : Step → Step) (h : Kept fx s) :
    Kept fx (State.modStep s ring seq f) := by
  grind [State.modStep]

theorem State.modCmd_kept (s : State) (ring seq i : Nat) (f : Cmd → Cmd) (h : Kept fx s) :
    Kept fx (State.modCmd s ring seq i f) := by
  grind [State.modCmd, State.modStep_kept]

theorem State.modRun_kept (s : State) (die entry : Nat) (f : Run → Run) (h : Kept fx s) :
    Kept fx (State.modRun s die entry f) := by
  grind [State.modRun]

theorem State.setPresent_kept (s : State) (d : Nat) (b : Bool) (h : Kept fx s) :
    Kept fx (State.setPresent s d b) := by
  grind [State.setPresent, State.setFld_kept]

theorem State.notePresent_kept (s : State) (d : Nat) (h : Kept fx s) :
    Kept fx (State.notePresent s d) := by
  grind [State.notePresent, State.setPresent_kept]

theorem State.holdDrained_kept (s : State) (d : Nat) (h : Kept fx s) :
    Kept fx (State.holdDrained s d) := by
  grind [State.holdDrained, State.notePresent_kept, State.setFlag_kept]

theorem State.dropRun_kept (s : State) (die entry : Nat) (h : Kept fx s) :
    Kept fx (State.dropRun s die entry) := by
  grind [State.dropRun, State.holdDrained_kept, State.modDie_kept]

theorem State.setVt_kept (s : State) (c kind v : Nat) (h : Kept fx s) :
    Kept fx (State.setVt s c kind v) := by
  grind [State.setVt, State.modClient_kept]

theorem State.chargeRun_kept (s : State) (r : Run) (h : Kept fx s) :
    Kept fx (State.chargeRun s r) := by
  grind [State.chargeRun, State.modRun_kept, State.setVt_kept]

theorem State.chargeParked_kept (s : State) (x : Residency) (h : Kept fx s) :
    Kept fx (State.chargeParked s x) := by
  grind [State.chargeParked, State.setVt_kept]

theorem State.adoptShare_kept (s : State) (c kind : Nat) (h : Kept fx s) :
    Kept fx (State.adoptShare s c kind) := by
  grind [State.adoptShare, State.chargeParked_kept, State.chargeRun_kept, State.modClient_kept, forEach_kept]

theorem State.adoptShares_kept (s : State) (h : Kept fx s) :
    Kept fx (State.adoptShares s) := by
  grind [State.adoptShares, State.adoptShare_kept, State.modClient_kept, forEach_kept]

theorem State.raiseVt_kept (s : State) (c kind : Nat) (h : Kept fx s) :
    Kept fx (State.raiseVt s c kind) := by
  grind [State.raiseVt, State.setVt_kept]

theorem State.wrapCompat_kept (s : State) (c : Nat) (h : Kept fx s) :
    Kept fx (State.wrapCompat s c) := by
  grind [State.wrapCompat]

theorem State.settleCompat_kept (s : State) (h : Kept fx s) :
    Kept fx (State.settleCompat s) := by
  grind [State.settleCompat, State.wrapCompat_kept]

theorem State.refreshReady_kept (s0 : State) (h : Kept fx s0) :
    Kept fx (State.refreshReady s0) := by
  grind [State.refreshReady, State.modCmd_kept, State.raiseVt_kept, State.settleCompat_kept, forEach_kept]

theorem State.noteCommit_kept (s : State) (ring : Nat) (h : Kept fx s) :
    Kept fx (State.noteCommit s ring) := by
  grind [State.noteCommit, State.modRing_kept, State.modStep_kept, forEach_kept]

theorem State.escalate_kept (s : State) (h : Kept fx s) :
    Kept fx (State.escalate s) := by
  grind [State.escalate, State.setFlag_kept]

theorem State.noteBudget_kept (s : State) (st : Step) (h : Kept fx s) :
    Kept fx (State.noteBudget s st) := by
  grind [State.noteBudget, State.acct_kept, State.escalate_kept, State.logEvent_kept, State.modStep_kept]

theorem State.commitIfDone_kept (s : State) (ring seq : Nat) (h : Kept fx s) :
    Kept fx (State.commitIfDone s ring seq) := by
  grind [State.commitIfDone, State.modStep_kept, State.noteBudget_kept, State.noteCommit_kept]

theorem State.setInService_kept (s : State) (d u : Nat) (b : Bool) (h : Kept fx s) :
    Kept fx (State.setInService s d u b) := by
  grind [State.setInService, State.setFlag_kept]

theorem State.settleDisable_kept (s : State) (d u : Nat) (h : Kept fx s) :
    Kept fx (State.settleDisable s d u) := by
  grind [State.settleDisable, State.advanceEpoch_kept, State.modUnit_kept, State.setInService_kept]

theorem State.countParked_kept (s : State) (x : Residency) (h : Kept fx s) :
    Kept fx (State.countParked s x) := by
  grind [State.countParked, State.count_kept, forEach_kept]

theorem State.endResidency_kept (s : State) (x : Residency) (bump : Bool) (h : Kept fx s) :
    Kept fx (State.endResidency s x bump) := by
  grind [State.endResidency, State.advanceEpoch_kept, State.chargeParked_kept, State.countParked_kept, State.setFld_kept, State.setReg_kept, forEach_kept]

theorem State.drawWord_kept (s : State) (h : Kept fx s) :
    Kept fx (State.drawWord s).1 := by
  grind [State.drawWord]

theorem State.countStall_kept (s : State) (r : Run) (g : EngRun) (code since : Nat) (h : Kept fx s) :
    Kept fx (State.countStall s r g code since) := by
  grind [State.countStall, State.count_kept, forEach_kept]

theorem State.countStalled_kept (s : State) (r : Run) (g : EngRun) (h : Kept fx s) :
    Kept fx (State.countStalled s r g) := by
  grind [State.countStalled, State.countStall_kept]

theorem State.endCycles_kept (s : State) (r : Run) (h : Kept fx s) :
    Kept fx (State.endCycles s r) := by
  grind [State.endCycles, State.countFixed_kept, State.count_kept, State.drawWord_kept, forEach_kept]

theorem State.cmdEnd_kept (s : State) (r : Run) (outcome detail : Nat) (h : Kept fx s) :
    Kept fx (State.cmdEnd s r outcome detail) := by
  grind [State.cmdEnd, State.packet_kept]

theorem State.sendDispatch_kept (s : State) (d : Nat) (m : Dispatch) (h : Kept fx s) :
    Kept fx (State.sendDispatch s d m) := by
  grind [State.sendDispatch, State.send_kept]

theorem State.settleCycles_kept (s : State) (d : Nat) (h : Kept fx s) :
    Kept fx (State.settleCycles s d) := by
  grind [State.settleCycles, State.countParked_kept, State.countStalled_kept, State.endCycles_kept, forEach_kept]

theorem State.endRunResidency_kept (s : State) (r : Run) (bump : Bool) (h : Kept fx s) :
    Kept fx (State.endRunResidency s r bump) := by
  grind [State.endRunResidency, State.endResidency_kept]

theorem State.stopEngines_kept (s : State) (r : Run) (h : Kept fx s) :
    Kept fx (State.stopEngines s r) := by
  grind (gen := 30) (splits := 30) (ematch := 30) [State.stopEngines, State.advanceEpoch_kept, State.chargeRun_kept, State.cmdEnd_kept, State.countFixed_kept, State.countStalled_kept, State.count_kept, State.endCycles_kept, State.endResidency_kept, State.endRunResidency_kept, State.setFlag_kept, State.settleDisable_kept, forEach_kept]

theorem State.killRun_kept (s : State) (r : Run) (h : Kept fx s) :
    Kept fx (State.killRun s r) := by
  grind (gen := 30) (splits := 30) (ematch := 30) [State.killRun, State.acct_kept, State.drawWord_kept, State.dropAllocs_kept, State.dropRun_kept, State.endRunResidency_kept, State.freeRunBufs_kept, State.modCmd_kept, State.stopEngines_kept]

theorem State.schedKill_kept (s : State) (r : Run) (preempted : Bool) (h : Kept fx s) :
    Kept fx (State.schedKill s r preempted) := by
  grind [State.schedKill, State.killRun_kept, State.modRun_kept, State.sendDispatch_kept]

theorem State.preempt_kept (s : State) (r : Run) (h : Kept fx s) :
    Kept fx (State.preempt s r) := by
  grind [State.preempt, State.acct_kept, State.refreshReady_kept, State.schedKill_kept]

theorem State.bounceRun_kept (s : State) (r : Run) (h : Kept fx s) :
    Kept fx (State.bounceRun s r) := by
  grind [State.bounceRun, State.acct_kept, State.refreshReady_kept, State.schedKill_kept]

theorem State.takeKill_kept (s : State) (r : Run) (h : Kept fx s) :
    Kept fx (State.takeKill s r) := by
  grind [State.takeKill, State.acct_kept, State.killRun_kept, State.refreshReady_kept]

theorem State.killPlaced_kept (s : State) (st : Step) (c : Cmd) (h : Kept fx s) :
    Kept fx (State.killPlaced s st c) := by
  grind [State.killPlaced, State.sendDispatch_kept]

theorem State.decideStep_kept (s : State) (ring seq status detail failIndex : Nat) (h : Kept fx s) :
    Kept fx (State.decideStep s ring seq status detail failIndex) := by
  grind (gen := 30) (splits := 30) (ematch := 30) [State.decideStep, State.killPlaced_kept, State.modStep_kept, State.noteCommit_kept, State.refreshReady_kept, State.schedKill_kept, forEach_kept]

theorem State.failFinal_kept (s : State) (r : Run) (unit detail : Nat) (h : Kept fx s) :
    Kept fx (State.failFinal s r unit detail) := by
  grind (gen := 30) (splits := 30) (ematch := 30) [State.failFinal, State.cmdEnd_kept, State.decideStep_kept, State.killRun_kept, State.logEvent_kept, State.schedKill_kept]

theorem State.faultKill_kept (s : State) (r : Run) (unit detail finalDetail : Nat) (avoid : Option Nat) (h : Kept fx s) :
    Kept fx (State.faultKill s r unit detail finalDetail avoid) := by
  grind (gen := 30) (splits := 30) (ematch := 30) [State.faultKill, State.acct_kept, State.failFinal_kept, State.killRun_kept, State.logEvent_kept, State.modCmd_kept, State.modStep_kept, State.refreshReady_kept]

theorem State.replayLost_kept (s : State) (r : Run) (h : Kept fx s) :
    Kept fx (State.replayLost s r) := by
  grind [State.replayLost, State.dropRun_kept, State.endRunResidency_kept, State.faultKill_kept, State.freeRunBufs_kept, State.modCmd_kept]

theorem State.failRun_kept (s : State) (r : Run) (detail : Nat) (n : Nat) (h : Kept fx s) :
    Kept fx (State.failRun s r detail n) := by
  grind [State.failRun, State.failFinal_kept, State.faultKill_kept, State.schedKill_kept]

theorem State.takeOutEngine_kept (s : State) (d u detail : Nat) (h : Kept fx s) :
    Kept fx (State.takeOutEngine s d u detail) := by
  grind (gen := 30) (splits := 30) (ematch := 30) [State.takeOutEngine, State.advanceEpoch_kept, State.clientEvent_kept, State.endResidency_kept, State.faultKill_kept, State.logEvent_kept, State.modUnit_kept, State.schedKill_kept, State.setInService_kept]

theorem State.storeCorrected_kept (s : State) (d u : Nat) (cl : Option Nat) (h : Kept fx s) :
    Kept fx (State.storeCorrected s d u cl) := by
  grind [State.storeCorrected, State.count_kept, State.setFlag_kept]

theorem State.countDetection_kept (s : State) (d u detail : Nat) (h : Kept fx s) :
    Kept fx (State.countDetection s d u detail) := by
  grind [State.countDetection, State.modUnit_kept, State.takeOutEngine_kept]

theorem State.showDetection_kept (s : State) (d u detail : Nat) (cl : Option Nat) (h : Kept fx s) :
    Kept fx (State.showDetection s d u detail cl) := by
  grind [State.showDetection, State.addFld_kept, State.count_kept, State.setFlag_kept]

theorem State.checkFault_kept (s : State) (r : Run) (detail n : Nat) (h : Kept fx s) :
    Kept fx (State.checkFault s r detail n) := by
  grind [State.checkFault, State.clientEvent_kept, State.countDetection_kept, State.failRun_kept]

theorem State.failHearthSteps_kept (s : State) (d : Nat) (h : Kept fx s) :
    Kept fx (State.failHearthSteps s d) := by
  grind [State.failHearthSteps, State.decideStep_kept, State.logEvent_kept, forEach_kept]

end Sys2Proof.Machine
end

