-- ==== Sys2Proof/Laws/KeepPages.lean ====
section
/-! SUPPORT. Every operation of Machine/Pages.lean keeps the canonical form of the memory, the queue, the variant and the grade. -/

namespace Sys2Proof.Machine

open Sys2Proof

variable {fx : Fixed}

theorem State.zeroFrame_kept (s : State) (g f : Nat) (h : Kept fx s) :
    Kept fx (State.zeroFrame s g f) := by
  grind [State.zeroFrame, State.modDmc_kept, KeptOf.write, KeptOf.clear, KeptOf.filter]

theorem State.resleepBacked_kept (s : State) (g : Nat) (h : Kept fx s) :
    Kept fx (State.resleepBacked s g) := by
  grind [State.resleepBacked, State.breakResleep_kept]

theorem State.backIn_kept (s : State) (n g f : Nat) (st : PageState) (h : Kept fx s) :
    Kept fx (State.backIn s n g f st) := by
  grind [State.backIn, State.modPage_kept, State.resleepBacked_kept, State.zeroFrame_kept]

theorem State.backPage_kept (s : State) (n : Nat) (h : Kept fx s) :
    Kept fx (State.backPage s n) := by
  grind [State.backPage, State.backIn_kept]

theorem State.systemPage_kept (s : State) (n g : Nat) (h : Kept fx s) :
    Kept fx (State.systemPage s n g) := by
  grind [State.systemPage, State.backIn_kept, State.modPage_kept]

theorem mapEnable_kept (s : State) (h : Kept fx s) :
    Kept fx (mapEnable s) := by
  grind [mapEnable, State.setFlag_kept, State.systemPage_kept]

theorem ledgerEnable_kept (s : State) (h : Kept fx s) :
    Kept fx (ledgerEnable s) := by
  grind [ledgerEnable, State.setFlag_kept, State.systemPage_kept, forEach_kept]

theorem State.freePage_kept (s : State) (n : Nat) (h : Kept fx s) :
    Kept fx (State.freePage s n) := by
  grind [State.freePage]

theorem State.planPage_kept (s : State) (n : Nat) (h : Kept fx s) :
    Kept fx (State.planPage s n) := by
  grind [State.planPage]

theorem State.backDue_kept (s : State) (h : Kept fx s) :
    Kept fx (State.backDue s) := by
  grind [State.backDue, State.backIn_kept, State.refreshReady_kept, forEach_kept]

theorem State.pageApply_kept (s : State) (c : PageCmd) (h : Kept fx s) :
    Kept fx (State.pageApply s c) := by
  grind [State.pageApply, State.freePage_kept, State.modPage_kept, State.planPage_kept, State.setReg_kept, forEach_kept]

theorem State.pageRun_kept (s1 : State) (c : PageCmd) (h : Kept fx s1) :
    Kept fx (State.pageRun s1 c) := by
  grind [State.pageRun, State.pageApply_kept, State.setFlag_kept, State.setFld_kept]

theorem State.pageGo_kept (s : State) (op : Nat) (value : W32) (h : Kept fx s) :
    Kept fx (State.pageGo s op value) := by
  grind [State.pageGo, State.pageRun_kept, State.setFlag_kept, State.setFld_kept]

theorem grant_kept (value : W32) (s : State) (h : Kept fx s) :
    Kept fx (grant value s) := by
  grind [grant, State.pageGo_kept]

theorem ungrant_kept (value : W32) (s : State) (h : Kept fx s) :
    Kept fx (ungrant value s) := by
  grind [ungrant, State.pageGo_kept]

theorem back_kept (value : W32) (s : State) (h : Kept fx s) :
    Kept fx (back value s) := by
  grind [back, State.pageGo_kept]

theorem pin_kept (value : W32) (s : State) (h : Kept fx s) :
    Kept fx (pin value s) := by
  grind [pin, State.pageGo_kept]

theorem unpin_kept (value : W32) (s : State) (h : Kept fx s) :
    Kept fx (unpin value s) := by
  grind [unpin, State.pageGo_kept]

theorem query_kept (value : W32) (s : State) (h : Kept fx s) :
    Kept fx (query value s) := by
  grind [query, State.pageGo_kept]

theorem pageCmdComplete_kept (s0 : State) (h : Kept fx s0) :
    Kept fx (pageCmdComplete s0) := by
  grind [pageCmdComplete, State.backDue_kept, State.pageApply_kept, State.setFlag_kept]

theorem reservedPageBacked_kept (page : Nat) (s : State) (h : Kept fx s) :
    Kept fx (reservedPageBacked page s) := by
  grind [reservedPageBacked, State.backIn_kept, State.modDmc_kept, State.refreshReady_kept]

theorem State.migrate_kept (s : State) (n : Nat) (m : Move) (action : Nat) (h : Kept fx s) :
    Kept fx (State.migrate s n m action) := by
  grind [State.migrate, State.packet_kept]

theorem State.startMove_kept (s : State) (n g f : Nat) (evac : Bool) (h : Kept fx s) :
    Kept fx (State.startMove s n g f evac) := by
  grind [State.startMove, State.migrate_kept, State.modPage_kept]

theorem wishMove_kept (w : Nat × Nat × Nat) (x : State × Nat × List Nat) (h : Kept fx x.1) :
    Kept fx (wishMove w x).1 := by
  obtain ⟨s, l, d⟩ := x
  grind [wishMove, State.addFld_kept, State.startMove_kept]

theorem State.startPeriod_kept (s : State) (h : Kept fx s) :
    Kept fx (State.startPeriod s) := by
  grind [State.startPeriod]

theorem bellowsEvaluate_kept (s : State) (h : Kept fx s) : Kept fx (bellowsEvaluate s) := by
  unfold bellowsEvaluate
  split
  · with_reducible exact h
  · exact forEach_keeps (fun (x : State × Nat × List Nat) => Kept fx x.1) _ (fun w x hx => wishMove_kept w x hx)
      (State.setFld_kept _ _ _ (State.setFld_kept _ _ _ h))

theorem State.copyFrame_kept (s : State) (g f g2 f2 : Nat) (h : Kept fx s) :
    Kept fx (State.copyFrame s g f g2 f2) := by
  unfold State.copyFrame
  refine forEach_kept _ _ _ ?_ fun x t ht => ?_
  · exact forEach_keeps (fun m => KeptOf fx m _ _ _) _ (fun c m hm => KeptOf.put _ _ hm)
      (State.zeroFrame_kept _ _ _ (forEach_kept _ _ _ h fun x t ht => State.flushEntry_kept _ _ _ ht))
  · obtain ⟨cw, v⟩ := x
    dsimp only
    split
    · with_reducible exact State.putWord_kept _ _ _ _ (State.noteWordRead_kept _ _ _ ht)
    · with_reducible exact State.putClinker_kept _ _ _ _ (State.noteWordRead_kept _ _ _ ht)

theorem State.switchMove_kept (s : State) (n : Nat) (m : Move) (h : Kept fx s) :
    Kept fx (State.switchMove s n m) := by
  grind [State.switchMove, State.copyFrame_kept, State.migrate_kept, State.modPage_kept, State.send_kept, forEach_kept]

theorem State.abandonMove_kept (s : State) (n : Nat) (h : Kept fx s) :
    Kept fx (State.abandonMove s n) := by
  grind [State.abandonMove, State.migrate_kept, State.modPage_kept]

theorem bellowsCopyPass_kept (page : Nat) (s : State) (h : Kept fx s) :
    Kept fx (bellowsCopyPass page s) := by
  grind [bellowsCopyPass, State.abandonMove_kept, State.logCorrected_kept, State.logRecorded_kept, State.setFlag_kept, State.switchMove_kept]

theorem bellowsForwardEnd_kept (page : Nat) (s : State) (h : Kept fx s) :
    Kept fx (bellowsForwardEnd page s) := by
  grind [bellowsForwardEnd]

theorem State.addErrors_kept (s : State) (g : Nat) (errs : List (Nat × List W16)) (h : Kept fx s) :
    Kept fx (State.addErrors s g errs) := by
  grind [State.addErrors, State.modDmc_kept, forEach_kept]

theorem State.spoilEntry_kept (s : State) (g : Nat) (h : Kept fx s) :
    Kept fx (State.spoilEntry s g) := by
  grind [State.spoilEntry, State.modDmc_kept]

theorem mergeAgeFlush_kept (group : Nat) (errs : List (Nat × List W16)) (bad : Bool) (s : State) (h : Kept fx s) :
    Kept fx (mergeAgeFlush group errs bad s) := by
  grind [mergeAgeFlush, State.addErrors_kept, State.flushBad_kept, State.flushEntry_kept, State.spoilEntry_kept]

theorem State.scrubWord_kept (s : State) (g cw : Nat) (h : Kept fx s) :
    Kept fx (State.scrubWord s g cw) := by
  grind [State.scrubWord, State.noteCorrection_kept, State.noteUe_kept, State.putClinker_kept, State.putWord_kept]

theorem scrubBurst_kept (group : Nat) (errs : List (Nat × List W16)) (s : State) (h : Kept fx s) :
    Kept fx (scrubBurst group errs s) := by
  grind (gen := 30) (splits := 30) (ematch := 30) [scrubBurst, State.addErrors_kept, State.addFld_kept, State.modDmc_kept, State.scrubWord_kept, State.setFlag_kept, State.setFld_kept, forEach_kept]

theorem lapOverdue_kept (group : Nat) (s : State) (h : Kept fx s) :
    Kept fx (lapOverdue group s) := by
  grind [lapOverdue, State.setFlag_kept]

theorem dramHealthCheck_kept (group : Nat) (failing : List Nat) (s : State) (h : Kept fx s) :
    Kept fx (dramHealthCheck group failing s) := by
  grind [dramHealthCheck, State.markPosition_kept, State.modDmc_kept, forEach_kept]

theorem State.retireGroup_kept (s : State) (g : Nat) (e : Evac) (h : Kept fx s) :
    Kept fx (State.retireGroup s g e) := by
  grind [State.retireGroup, State.groupEvent_kept, State.logEvent_kept, State.modDmc_kept]

theorem State.evacuateOne_kept (s : State) (g : Nat) (h : Kept fx s) :
    Kept fx (State.evacuateOne s g) := by
  grind (gen := 30) (splits := 30) (ematch := 30) [State.evacuateOne, State.logEvent_kept, State.modDmc_kept, State.retireGroup_kept, State.startMove_kept]

theorem evacuationPageMove_kept (group : Nat) (s : State) (h : Kept fx s) :
    Kept fx (evacuationPageMove group s) := by
  grind [evacuationPageMove, State.evacuateOne_kept]

theorem evacuationRetry_kept (group : Nat) (s : State) (h : Kept fx s) :
    Kept fx (evacuationRetry group s) := by
  grind [evacuationRetry, State.evacuateOne_kept]

end Sys2Proof.Machine
end

