-- ==== Sys2Proof/Laws/KeepClients.lean ====
section
/-! SUPPORT. Every operation of Machine/Clients.lean keeps the canonical form of the memory, the queue, the variant and the grade. -/

namespace Sys2Proof.Machine

open Sys2Proof

variable {fx : Fixed}

theorem State.newMemoryKey_kept (s : State) (h : Kept fx s) :
    Kept fx (State.newMemoryKey s).1 := by
  grind [State.newMemoryKey, State.newKey_kept]

theorem State.writeHead_kept (s : State) (r : Nat) (h : Kept fx s) :
    Kept fx (State.writeHead s r) := by
  grind [State.writeHead, State.devWrite_kept]

theorem State.endHeld_kept (s : State) (r : Nat) (h : Kept fx s) :
    Kept fx (State.endHeld s r) := by
  grind [State.endHeld, State.acct_kept, State.modRing_kept]

theorem State.ringError_kept (s : State) (r code : Nat) (h : Kept fx s) :
    Kept fx (State.ringError s r code) := by
  grind [State.ringError, State.endHeld_kept, State.logCorrected_kept, State.logRecorded_kept, State.modRing_kept, State.writeHead_kept]

theorem State.settleRing_kept (s : State) (r : Nat) (h : Kept fx s) :
    Kept fx (State.settleRing s r) := by
  grind [State.settleRing, State.modRing_kept, State.writeHead_kept]

theorem State.limitActive_kept (s : State) (h : Kept fx s) :
    Kept fx (State.limitActive s) := by
  grind [State.limitActive, State.modRing_kept, State.writeHead_kept]

theorem State.wakeRing_kept (s : State) (r : Nat) (h : Kept fx s) :
    Kept fx (State.wakeRing s r) := by
  grind [State.wakeRing, State.limitActive_kept, State.modRing_kept]

theorem State.stopRing_kept (s : State) (r : Nat) (h : Kept fx s) :
    Kept fx (State.stopRing s r) := by
  grind [State.stopRing, State.decideStep_kept, State.endHeld_kept, State.modRing_kept, State.settleRing_kept, State.writeHead_kept, forEach_kept]

theorem clientAttach_kept (function : Nat) (s : State) (h : Kept fx s) :
    Kept fx (clientAttach function s) := by
  unfold clientAttach
  dsimp only
  repeat' split
  all_goals repeat' first
    | with_reducible assumption
    | with_reducible apply State.newMemoryKey_kept
    | with_reducible apply State.setFlag_kept
    | with_reducible apply State.setFld_kept

theorem State.modChan_kept (s : State) (c : Nat) (f : CamChan → CamChan) (h : Kept fx s) :
    Kept fx (State.modChan s c f) := by
  grind [State.modChan]

theorem State.stopChannel_kept (s : State) (c : Nat) (h : Kept fx s) :
    Kept fx (State.stopChannel s c) := by
  grind [State.stopChannel, State.modChan_kept, State.setFlag_kept]

theorem clientDetach_kept (s : State) (h : Kept fx s) :
    Kept fx (clientDetach s) := by
  grind [clientDetach, State.setFlag_kept, State.stopChannel_kept, State.stopRing_kept, forEach_kept]

theorem State.chargeWaits_kept (s : State) (c : Nat) (h : Kept fx s) :
    Kept fx (State.chargeWaits s c) := by
  grind [State.chargeWaits, State.acct_kept, State.modRing_kept, forEach_kept]

theorem State.writeAcct_kept (s : State) (c : Nat) (h : Kept fx s) :
    Kept fx (State.writeAcct s c) := by
  grind [State.writeAcct, State.acct_kept, State.chargeWaits_kept, State.sysWrite_kept]

theorem acctWrite_kept (s : State) (h : Kept fx s) :
    Kept fx (acctWrite s) := by
  grind [acctWrite, State.writeAcct_kept, forEach_kept]

theorem State.rejectDoorbell_kept (s : State) (c : Nat) (h : Kept fx s) :
    Kept fx (State.rejectDoorbell s c) := by
  grind [State.rejectDoorbell, State.acct_kept, State.logCorrected_kept, State.logRecorded_kept]

theorem State.doorbell_kept (s : State) (fn c : Nat) (word : W32) (rsv : Bool) (act : Nat → State → State) (hf : ∀ r t, Kept fx t → Kept fx (act r t)) (h : Kept fx s) :
    Kept fx (State.doorbell s fn c word rsv act) := by
  grind [State.doorbell, State.rejectDoorbell_kept]

theorem nudge_kept (function client : Nat) (word : W32) (s : State) (h : Kept fx s) :
    Kept fx (nudge function client word s) := by
  grind [nudge, State.doorbell_kept, State.modRing_kept, State.wakeRing_kept]

theorem State.startRing_kept (s : State) (c r : Nat) (h : Kept fx s) :
    Kept fx (State.startRing s c r) := by
  grind [State.startRing, State.fetchHub_kept, State.limitActive_kept, State.modRing_kept, State.ringError_kept, State.writeHead_kept]

theorem State.ringControl_kept (s : State) (fn c : Nat) (word : W32) (op : Nat) (act : Nat → State → State) (hf : ∀ r t, Kept fx t → Kept fx (act r t)) (h : Kept fx s) :
    Kept fx (State.ringControl s fn c word op act) := by
  grind [State.ringControl, State.doorbell_kept]

theorem ringStart_kept (function client : Nat) (word : W32) (s : State) (h : Kept fx s) :
    Kept fx (ringStart function client word s) := by
  grind [ringStart, State.ringControl_kept, State.startRing_kept]

theorem ringStop_kept (function client : Nat) (word : W32) (s : State) (h : Kept fx s) :
    Kept fx (ringStop function client word s) := by
  grind [ringStop, State.ringControl_kept, State.stopRing_kept]

theorem ringDrain_kept (function client : Nat) (word : W32) (s : State) (h : Kept fx s) :
    Kept fx (ringDrain function client word s) := by
  grind [ringDrain, State.endHeld_kept, State.modRing_kept, State.ringControl_kept, State.settleRing_kept, State.writeHead_kept]

theorem activeSweep_kept (s : State) (h : Kept fx s) :
    Kept fx (activeSweep s) := by
  grind [activeSweep]

theorem quietSweep_kept (s : State) (h : Kept fx s) :
    Kept fx (quietSweep s) := by
  grind [quietSweep, State.modRing_kept]

theorem ringQuietTimeout_kept (ring : Nat) (s : State) (h : Kept fx s) :
    Kept fx (ringQuietTimeout ring s) := by
  grind [ringQuietTimeout, State.modRing_kept, State.writeHead_kept]

theorem doorbellRead_kept (ring : Nat) (s : State) (h : Kept fx s) :
    Kept fx (doorbellRead ring s) := by
  grind [doorbellRead, State.fetchHub_kept, State.modRing_kept, State.ringError_kept]

end Sys2Proof.Machine
end

