-- ==== Sys2Proof/Laws/KeepSteps.lean ====
section
/-! SUPPORT. Every operation of Machine/Steps.lean keeps the canonical form of the memory, the queue, the variant and the grade. -/

namespace Sys2Proof.Machine

open Sys2Proof

variable {fx : Fixed}

theorem State.checkStep_kept (s : State) (r : Nat) (h : Kept fx s) :
    Kept fx (State.checkStep s r).1 := by
  grind [State.checkStep, State.drawWord_kept]

theorem stepCheck_kept (ring : Nat) (s : State) (h : Kept fx s) :
    Kept fx (stepCheck ring s) := by
  grind [stepCheck, State.checkStep_kept, State.fetchHub_kept, State.modRing_kept, forEach_kept]

theorem State.refuse_kept (s : State) (st : Step) (status detail : Nat) (h : Kept fx s) :
    Kept fx (State.refuse s st status detail) := by
  grind [State.refuse, State.decideStep_kept]

theorem State.refuseLate_kept (s : State) (st : Step) (h : Kept fx s) :
    Kept fx (State.refuseLate s st) := by
  grind [State.refuseLate, State.refuse_kept]

theorem State.takeIn_kept (s : State) (st : Step) (h : Kept fx s) :
    Kept fx (State.takeIn s st) := by
  grind [State.takeIn, State.refreshReady_kept, State.refuse_kept, forEach_kept]

theorem State.acceptStep_kept (s : State) (ring : Nat) (st : Step) (h : Kept fx s) :
    Kept fx (State.acceptStep s ring st) := by
  grind (gen := 30) (splits := 30) (ematch := 30) [State.acceptStep, State.breakResleep_kept, State.chargeWaits_kept, State.modRing_kept, State.noteCommit_kept, State.packet_kept, State.takeIn_kept, State.wakeRing_kept, State.writeHead_kept]

theorem stepAccept_kept (ring : Nat) (s : State) (h : Kept fx s) :
    Kept fx (stepAccept ring s) := by
  grind [stepAccept, State.acceptStep_kept, State.modRing_kept]

theorem refusalRecheck_kept (ring seq : Nat) (s : State) (h : Kept fx s) :
    Kept fx (refusalRecheck ring seq s) := by
  grind [refusalRecheck, State.refuseLate_kept]

theorem State.settleHeld_kept (s : State) (h : Kept fx s) :
    Kept fx (State.settleHeld s) := by
  grind [State.settleHeld, State.endHeld_kept, forEach_kept]

theorem State.releaseStep_kept (s : State) (ring : Nat) (st : Step) (code : Nat) (h : Kept fx s) :
    Kept fx (State.releaseStep s ring st code) := by
  grind (gen := 30) (splits := 30) (ematch := 30) [State.releaseStep, State.acctRelease_kept, State.devWrite_kept, State.modRing_kept, State.msix_kept, State.noteCommit_kept, State.packet_kept, State.refreshReady_kept, State.settleHeld_kept, State.settleRing_kept, State.writeHead_kept]

theorem stepRelease_kept (ring : Nat) (s : State) (h : Kept fx s) :
    Kept fx (stepRelease ring s) := by
  grind [stepRelease, State.releaseStep_kept]

theorem State.overBudget_kept (s : State) (st : Step) (h : Kept fx s) :
    Kept fx (State.overBudget s st) := by
  grind [State.overBudget, State.acct_kept, State.decideStep_kept, State.escalate_kept, State.logEvent_kept, State.modStep_kept, State.refreshReady_kept]

theorem State.checkBudgets_kept (s : State) (h : Kept fx s) :
    Kept fx (State.checkBudgets s) := by
  grind [State.checkBudgets, State.overBudget_kept, forEach_kept]

theorem budgetCheck_kept (s : State) (h : Kept fx s) :
    Kept fx (budgetCheck s) := by
  grind [budgetCheck, State.checkBudgets_kept]

end Sys2Proof.Machine
end

