-- ==== Sys2Proof/Laws/KeepPlace.lean ====
section
/-! SUPPORT. Every operation of Machine/Place.lean keeps the canonical form of the memory, the queue, the variant and the grade. -/

namespace Sys2Proof.Machine

open Sys2Proof

variable {fx : Fixed}

theorem State.noteRoom_kept (s : State) (h : Kept fx s) :
    Kept fx (State.noteRoom s) := by
  grind [State.noteRoom]

theorem State.place1_kept (s : State) (r : Ready) (d : Nat) (h : Kept fx s) :
    Kept fx (State.place1 s r d) := by
  grind [State.place1, State.acct_kept, State.chargeParked_kept, State.modClient_kept, State.modCmd_kept, State.modStep_kept, State.sendDispatch_kept]

theorem State.refuseNoEngine_kept (s : State) (r : Ready) (h : Kept fx s) :
    Kept fx (State.refuseNoEngine s r) := by
  grind [State.refuseNoEngine, State.decideStep_kept]

theorem State.placeNext_kept (s : State) (h : Kept fx s) :
    Kept fx (State.placeNext s) := by
  grind [State.placeNext, State.place1_kept, State.refuseNoEngine_kept]

theorem placement_kept (s : State) (h : Kept fx s) :
    Kept fx (placement s) := by
  grind [placement, State.adoptShares_kept, State.noteRoom_kept, State.placeNext_kept]

theorem State.sendBounce_kept (s : State) (d : Nat) (m : Dispatch) (reason : Nat) (h : Kept fx s) :
    Kept fx (State.sendBounce s d m reason) := by
  grind [State.sendBounce, State.count_kept, State.packet_kept, State.send_kept]

theorem State.resumeResidency_kept (s : State) (x : Residency) (h : Kept fx s) :
    Kept fx (State.resumeResidency s x) := by
  grind [State.resumeResidency, State.chargeParked_kept, State.countParked_kept, State.setFld_kept, forEach_kept]

theorem State.ungate_kept (s : State) (d : Nat) (h : Kept fx s) :
    Kept fx (State.ungate s d) := by
  grind [State.ungate]

theorem State.startRun_kept (s : State) (d : Nat) (m : Dispatch) (cl entry : Nat) (c : Cmd) (ns : List Nat) (h : Kept fx s) :
    Kept fx (State.startRun s d m cl entry c ns) := by
  grind [State.startRun, State.modCmd_kept, State.packet_kept, State.resumeResidency_kept, State.setVt_kept, State.ungate_kept]

theorem dispatchPlace_kept (die : Nat) (m : Dispatch) (s : State) (h : Kept fx s) :
    Kept fx (dispatchPlace die m s) := by
  grind (gen := 30) (splits := 30) (ematch := 30) [dispatchPlace, State.noteRoom_kept, State.sendBounce_kept, State.startRun_kept]

theorem State.killParked_kept (s : State) (die : Nat) (m : Dispatch) (h : Kept fx s) :
    Kept fx (State.killParked s die m) := by
  grind [State.killParked, State.endResidency_kept]

theorem dispatchKill_kept (die : Nat) (m : Dispatch) (s : State) (h : Kept fx s) :
    Kept fx (dispatchKill die m s) := by
  grind [dispatchKill, State.killParked_kept, State.killRun_kept, State.noteRoom_kept, State.refreshReady_kept, State.sendBounce_kept, State.takeKill_kept]

theorem State.killAgain_kept (s : State) (r : Run) (h : Kept fx s) :
    Kept fx (State.killAgain s r) := by
  grind [State.killAgain, State.modRun_kept, State.schedKill_kept]

theorem State.tallyAgain_kept (s : State) (r : Run) (h : Kept fx s) :
    Kept fx (State.tallyAgain s r) := by
  grind [State.tallyAgain, State.send_kept]

theorem bounce_kept (die : Nat) (m : Dispatch) (s : State) (h : Kept fx s) :
    Kept fx (bounce die m s) := by
  grind (gen := 30) (splits := 30) (ematch := 30) [bounce, State.acct_kept, State.killAgain_kept, State.modCmd_kept, State.noteRoom_kept, State.refreshReady_kept, State.schedKill_kept, State.tallyAgain_kept]

theorem commandFinish_kept (die entry energyNj : Nat) (s : State) (h : Kept fx s) :
    Kept fx (commandFinish die entry energyNj s) := by
  grind (gen := 30) (splits := 30) (ematch := 30) [commandFinish, State.chargeRun_kept, State.cmdEnd_kept, State.endCycles_kept, State.freeRunBufs_kept, State.modRun_kept, State.noteRoom_kept, State.send_kept, State.settleDisable_kept, forEach_kept]

theorem State.applyPub_kept (s : State) (cl : Nat) (p : Nat × Nat) (h : Kept fx s) :
    Kept fx (State.applyPub s cl p) := by
  grind [State.applyPub, State.devWrite_kept]

theorem State.applyGroup_kept (s : State) (j : Journal) (cl : Nat) (h : Kept fx s) :
    Kept fx (State.applyGroup s j cl) := by
  grind [State.applyGroup, State.applyPub_kept, State.devWrite_kept, State.modCmd_kept, forEach_kept]

theorem State.chargeTally_kept (s : State) (cl : Nat) (c : Cmd) (m : TallyMsg) (h : Kept fx s) :
    Kept fx (State.chargeTally s cl c m) := by
  grind [State.chargeTally, State.acct_kept, State.modClient_kept]

theorem State.settleResidency_kept (s : State) (r : Run) (h : Kept fx s) :
    Kept fx (State.settleResidency s r) := by
  grind [State.settleResidency, State.endResidency_kept, State.setFld_kept, forEach_kept]

theorem State.leaveRun_kept (s : State) (r : Run) (h : Kept fx s) :
    Kept fx (State.leaveRun s r) := by
  grind [State.leaveRun, State.chargeRun_kept, State.dropRun_kept, State.keepRunBufs_kept, State.settleResidency_kept]

theorem State.settleRun_kept (s : State) (r : Run) (h : Kept fx s) :
    Kept fx (State.settleRun s r) := by
  grind [State.settleRun, State.chargeRun_kept, State.countFixed_kept, State.dropRun_kept, State.keepRunBufs_kept, State.leaveRun_kept, State.modStep_kept, State.settleResidency_kept, forEach_kept]

theorem State.performTally_kept (s : State) (st : Step) (c : Cmd) (m : TallyMsg) (h : Kept fx s) :
    Kept fx (State.performTally s st c m) := by
  grind (gen := 30) (splits := 30) (ematch := 30) [State.performTally, State.applyGroup_kept, State.chargeTally_kept, State.commitIfDone_kept, State.decideStep_kept, State.failFinal_kept, State.fetchHub_kept, State.packet_kept, State.refreshReady_kept, State.send_kept, State.settleRun_kept]

theorem State.staleTally_kept (s : State) (m : TallyMsg) (h : Kept fx s) :
    Kept fx (State.staleTally s m) := by
  grind [State.staleTally, State.replayLost_kept]

theorem State.handleTally_kept (s : State) (m : TallyMsg) (h : Kept fx s) :
    Kept fx (State.handleTally s m) := by
  grind [State.handleTally, State.performTally_kept, State.send_kept, State.staleTally_kept]

theorem State.redoJournal_kept (s : State) (h : Kept fx s) :
    Kept fx (State.redoJournal s) := by
  grind [State.redoJournal, State.applyGroup_kept, forEach_kept]

theorem State.dropLate_kept (s : State) (m : TallyMsg) (h : Kept fx s) :
    Kept fx (State.dropLate s m) := by
  grind [State.dropLate, State.leaveRun_kept, State.settleRun_kept]

theorem tally_kept (m : TallyMsg) (s : State) (h : Kept fx s) :
    Kept fx (tally m s) := by
  grind [tally, State.dropLate_kept, State.handleTally_kept, State.send_kept]

theorem tallyDequeue_kept (s : State) (h : Kept fx s) :
    Kept fx (tallyDequeue s) := by
  grind [tallyDequeue, State.dropLate_kept, State.handleTally_kept]

theorem vtimeTick_kept (die entry : Nat) (s : State) (h : Kept fx s) :
    Kept fx (vtimeTick die entry s) := by
  grind [vtimeTick, State.chargeParked_kept, State.chargeRun_kept, forEach_kept]

theorem preemptFair_kept (s : State) (h : Kept fx s) :
    Kept fx (preemptFair s) := by
  grind [preemptFair, State.endResidency_kept, State.preempt_kept, forEach_kept]

theorem preemptSafety_kept (s0 : State) (h : Kept fx s0) :
    Kept fx (preemptSafety s0) := by
  grind [preemptSafety, State.noteRoom_kept, State.preempt_kept, forEach_kept]

theorem State.startTest_kept (s : State) (name : Nat) (h : Kept fx s) :
    Kept fx (State.startTest s name) := by
  grind [State.startTest, State.advanceEpoch_kept, State.modUnit_kept]

theorem selftestStart_kept (unit : Nat) (s : State) (h : Kept fx s) :
    Kept fx (selftestStart unit s) := by
  grind [selftestStart, State.endResidency_kept, State.noteRoom_kept, State.startTest_kept]

theorem selftestForce_kept (unit : Nat) (s : State) (h : Kept fx s) :
    Kept fx (selftestForce unit s) := by
  grind [selftestForce, State.preempt_kept, State.setFlag_kept, State.startTest_kept]

theorem State.countTest_kept (s : State) (d u : Nat) (h : Kept fx s) :
    Kept fx (State.countTest s d u) := by
  grind [State.countTest, State.bump_kept, State.drawWord_kept, forEach_kept]

theorem selftestEnd_kept (unit : Nat) (pass : Bool) (s : State) (h : Kept fx s) :
    Kept fx (selftestEnd unit pass s) := by
  grind (gen := 30) (splits := 30) (ematch := 30) [selftestEnd, State.advanceEpoch_kept, State.countTest_kept, State.modUnit_kept, State.noteRoom_kept, State.takeOutEngine_kept, forEach_kept]

theorem exclWrite_kept (value : W32) (s : State) (h : Kept fx s) :
    Kept fx (exclWrite value s) := by
  grind [exclWrite, State.setFlag_kept, State.setReg_kept]

theorem powerModelScale_kept (die modelledNj measuredNj : Nat) (s : State) (h : Kept fx s) :
    Kept fx (powerModelScale die modelledNj measuredNj s) := by
  grind [powerModelScale, State.setFld_kept]

theorem State.replayStale_kept (s : State) (unit : Nat) (h : Kept fx s) :
    Kept fx (State.replayStale s unit) := by
  grind [State.replayStale, State.replayLost_kept, forEach_kept]

theorem epochNotice_kept (unit epoch : Nat) (s : State) (h : Kept fx s) :
    Kept fx (epochNotice unit epoch s) := by
  grind [epochNotice, State.replayStale_kept]

theorem epochDeferredAdvance_kept (unit : Nat) (s : State) (h : Kept fx s) :
    Kept fx (epochDeferredAdvance unit s) := by
  grind [epochDeferredAdvance, State.modUnit_kept, State.stepEpoch_kept]

end Sys2Proof.Machine
end

