-- ==== Sys2Proof/Laws/KeepControl.lean ====
section
/-! SUPPORT. Every operation of Machine/Control.lean keeps the canonical form of the memory, the queue, the variant and the grade. -/

namespace Sys2Proof.Machine

open Sys2Proof

variable {fx : Fixed}

theorem State.modEng_kept (s : State) (e : Eng) (f : EngRun → EngRun) (h : Kept fx s) :
    Kept fx (State.modEng s e f) := by
  grind [State.modEng, State.modRun_kept]

theorem State.advance_kept (s : State) (e : Eng) (h : Kept fx s) :
    Kept fx (State.advance s e) := by
  grind [State.advance, State.modEng_kept]

theorem State.failEng_kept (s : State) (e : Eng) (detail : Nat) (h : Kept fx s) :
    Kept fx (State.failEng s e detail) := by
  grind [State.failEng, State.checkFault_kept, State.failRun_kept]

theorem State.begun_kept (s : State) (e : Eng) (w : W128) (r : Run) (g : EngRun) (h : Kept fx s) :
    Kept fx (State.begun s e w r g) := by
  grind [State.begun, State.count_kept, State.modRun_kept]

theorem State.ended_kept (e : Eng) (p : State × Option Nat) (h : Kept fx p.1) :
    Kept fx (State.ended e p) := by
  obtain ⟨t, d⟩ := p
  cases d <;> grind [State.ended, State.failEng_kept, State.advance_kept]

theorem Ctx.heldToWindow_kept (c : Ctx) (w : W128) (s : State) (x : State × Option Nat) (h : Kept fx s)
    (hx : Kept fx x.1) : Kept fx (Ctx.heldToWindow c w s x).1 := by
  unfold Ctx.heldToWindow
  split
  · split
    · exact h
    · exact hx
  · exact hx

theorem Ctx.noteUe_kept (c : Ctx) (w : W128) (x : State × Option Nat) (h : Kept fx x.1) :
    Kept fx (Ctx.noteUe c w x).1 := by
  obtain ⟨s, d⟩ := x
  have h1 : Kept fx s := h
  unfold Ctx.noteUe
  split
  · rename_i heq
    cases heq
    exact forEach_kept _ _ _ h1 fun _ _ ht => by
      dsimp only
      split
      · exact State.noteReads_kept _ _ _ ht
      · exact ht
  · rename_i heq
    exact h

theorem State.instr_kept (s : State) (e : Eng) (w : W128) (op : Nat) (f : Ctx → State → State × Option Nat)
    (hf : ∀ c t, Kept fx t → Kept fx (f c t).1) (h : Kept fx s) :
    Kept fx (State.instr s e w op f) := by
  unfold State.instr
  repeat' split
  all_goals first
    | with_reducible exact h
    | with_reducible exact State.failEng_kept _ _ _ h
    | skip
  have hb := fun r g => State.begun_kept s e w r g h
  exact State.ended_kept _ _ (Ctx.noteUe_kept _ _ _ (Ctx.heldToWindow_kept _ _ _ _ (hb _ _) (hf _ _ (hb _ _))))

theorem State.moved1_kept (s : State) (c : Ctx) (isRead : Bool) (a n : Nat) (h : Kept fx s) :
    Kept fx (State.moved1 s c isRead a n) := by
  grind [State.moved1, State.count_kept, State.modRun_kept, State.touch_kept]

theorem State.moved_kept (s : State) (c : Ctx) (isRead : Bool) (rs : List (Nat × Nat)) (h : Kept fx s) :
    Kept fx (State.moved s c isRead rs) := by
  grind [State.moved, State.moved1_kept, forEach_kept]

theorem State.doWrites_kept (s : State) (c : Ctx) (u : Nat) (ws : Writes) (h : Kept fx s) :
    Kept fx (State.doWrites s c u ws).1 := by
  grind [State.doWrites, State.applyHalf_kept, State.applyWrites_kept, State.countFixed_kept, State.moved_kept, runEach_kept]

theorem State.writeOut_kept (s : State) (clash : Bool) (c : Ctx) (u : Nat) (ws : Writes) (h : Kept fx s) :
    Kept fx (State.writeOut s clash c u ws).1 := by
  unfold State.writeOut
  split
  · exact State.doWrites_kept _ _ _ _ (Writes.freed_kept _ _ h)
  · exact State.doWrites_kept _ _ _ _ h

theorem State.finish_kept (s : State) (c : Ctx) (u : Nat) (x : Except Nat Writes) (h : Kept fx s) :
    Kept fx (State.finish s c u x).1 := by
  unfold State.finish
  repeat' split
  all_goals grind (gen := 30) (splits := 30) (ematch := 30) [State.doWrites_kept]

theorem nopFx_kept (w : W128) (_c : Ctx) (t : State) (h : Kept fx t) :
    Kept fx (nopFx w _c t).1 := by
  grind [nopFx]

theorem nop_kept (e : Eng) (w : W128) (s : State) (h : Kept fx s) :
    Kept fx (nop e w s) := by
  grind [nop, State.instr_kept, nopFx_kept]

theorem State.snapshot_kept (s : State) (c : Ctx) (h : Kept fx s) :
    Kept fx (State.snapshot s c).1 := by
  grind [State.snapshot, State.doWrites_kept]

theorem endProgramFx_kept (e : Eng) (w : W128) (c : Ctx) (t : State) (h : Kept fx t) :
    Kept fx (endProgramFx e w c t).1 := by
  grind [endProgramFx, State.modEng_kept, State.snapshot_kept]

theorem endProgram_kept (e : Eng) (w : W128) (s : State) (h : Kept fx s) :
    Kept fx (endProgram e w s) := by
  grind [endProgram, State.instr_kept, endProgramFx_kept]

theorem runPastEnd_kept (e : Eng) (s : State) (h : Kept fx s) :
    Kept fx (runPastEnd e s) := by
  grind [runPastEnd, State.ended_kept, State.failEng_kept]

theorem reservedOpcode_kept (e : Eng) (w : W128) (s : State) (h : Kept fx s) :
    Kept fx (reservedOpcode e w s) := by
  grind [reservedOpcode, State.failEng_kept]

theorem State.releaseSync_kept (s : State) (e : Eng) (h : Kept fx s) :
    Kept fx (State.releaseSync s e) := by
  grind [State.releaseSync, State.countStall_kept, State.modRun_kept, forEach_kept]

theorem syncFx_kept (e : Eng) (w : W128) (_c : Ctx) (t : State) (h : Kept fx t) :
    Kept fx (syncFx e w _c t).1 := by
  grind [syncFx, State.modEng_kept]

theorem sync_kept (e : Eng) (w : W128) (s : State) (h : Kept fx s) :
    Kept fx (sync e w s) := by
  grind [sync, State.instr_kept, State.releaseSync_kept, syncFx_kept]

theorem waitFx_kept (e : Eng) (w : W128) (c : Ctx) (t : State) (h : Kept fx t) :
    Kept fx (waitFx e w c t).1 := by
  grind [waitFx, State.modEng_kept]

theorem wait_kept (e : Eng) (w : W128) (s : State) (h : Kept fx s) :
    Kept fx (wait e w s) := by
  grind [wait, State.instr_kept, waitFx_kept]

theorem stallTimeout_kept (e : Eng) (s : State) (h : Kept fx s) :
    Kept fx (stallTimeout e s) := by
  grind [stallTimeout, State.failEng_kept]

theorem State.signalled_kept (s : State) (r : Run) (e : Eng) (k n p : Nat) (h : Kept fx s) :
    Kept fx (State.signalled s r e k n p) := by
  grind [State.signalled, State.countStall_kept, State.modEng_kept]

theorem signalFx_kept (e : Eng) (w : W128) (c : Ctx) (t : State) (h : Kept fx t) :
    Kept fx (signalFx e w c t).1 := by
  grind [signalFx, State.ended_kept, State.signalled_kept, forEach_kept]

theorem signal_kept (e : Eng) (w : W128) (s : State) (h : Kept fx s) :
    Kept fx (signal e w s) := by
  grind [signal, State.instr_kept, signalFx_kept]

theorem State.once_kept (s : State) (e : Eng) (w : W128) (op : Nat) (perform : Ctx → State → State × Option Nat) (hf : ∀ c t, Kept fx t → Kept fx (perform c t).1) (h : Kept fx s) :
    Kept fx (State.once s e w op perform) := by
  grind [State.once, State.ended_kept, State.instr_kept]

theorem State.giveHandle_kept (s : State) (d entry hreg g : Nat) (h : Kept fx s) :
    Kept fx (State.giveHandle s d entry hreg g) := by
  grind [State.giveHandle, State.modRun_kept]

theorem State.takeSpace_kept (s : State) (e : Eng) (hreg g size client : Nat) (keep : Bool) (h : Kept fx s) :
    Kept fx (State.takeSpace s e hreg g size client keep) := by
  grind [State.takeSpace, State.giveHandle_kept, State.modEng_kept, State.modHearth_kept, State.takeBuf_kept]

theorem allocFx_kept (e : Eng) (w : W128) (c : Ctx) (t : State) (h : Kept fx t) :
    Kept fx (allocFx e w c t).1 := by
  grind [allocFx, State.modEng_kept, State.modHearth_kept, State.takeSpace_kept]

theorem alloc_kept (e : Eng) (w : W128) (s : State) (h : Kept fx s) :
    Kept fx (alloc e w s) := by
  grind [alloc, State.once_kept, allocFx_kept]

theorem State.resumeAlloc_kept (s : State) (d entry : Nat) (h : Kept fx s) :
    Kept fx (State.resumeAlloc s d entry) := by
  grind [State.resumeAlloc, State.advance_kept, State.countStall_kept]

theorem allocWaitGrant_kept (die : Nat) (s : State) (h : Kept fx s) :
    Kept fx (allocWaitGrant die s) := by
  grind [allocWaitGrant, State.modHearth_kept, State.resumeAlloc_kept, State.takeSpace_kept]

theorem allocZeroDone_kept (die entry : Nat) (s : State) (h : Kept fx s) :
    Kept fx (allocZeroDone die entry s) := by
  grind [allocZeroDone, State.giveHandle_kept, State.modHearth_kept, State.resumeAlloc_kept]

theorem freeFx_kept (e : Eng) (w : W128) (c : Ctx) (t : State) (h : Kept fx t) :
    Kept fx (freeFx e w c t).1 := by
  grind [freeFx, State.freeFor_kept, State.modRun_kept]

theorem free_kept (e : Eng) (w : W128) (s : State) (h : Kept fx s) :
    Kept fx (free e w s) := by
  grind [free, State.once_kept, freeFx_kept]

theorem walkFx_kept (e : Eng) (w : W128) (_c : Ctx) (t : State) (h : Kept fx t) :
    Kept fx (walkFx e w _c t).1 := by
  grind [walkFx, State.modEng_kept]

theorem walk_kept (e : Eng) (w : W128) (s : State) (h : Kept fx s) :
    Kept fx (walk e w s) := by
  grind [walk, State.instr_kept, walkFx_kept]

theorem markFx_kept (e : Eng) (w : W128) (c : Ctx) (t : State) (h : Kept fx t) :
    Kept fx (markFx e w c t).1 := by
  grind [markFx, State.packet_kept, State.trigger_kept]

theorem mark_kept (e : Eng) (w : W128) (s : State) (h : Kept fx s) :
    Kept fx (mark e w s) := by
  grind [mark, State.instr_kept, markFx_kept]

theorem State.counterPackets_kept (s : State) (d u client : Nat) (h : Kept fx s) :
    Kept fx (State.counterPackets s d u client) := by
  grind [State.counterPackets, State.packet_kept, forEach_kept]

theorem cntEmitFx_kept (e : Eng) (w : W128) (c : Ctx) (t : State) (h : Kept fx t) :
    Kept fx (cntEmitFx e w c t).1 := by
  grind [cntEmitFx, State.counterPackets_kept]

theorem cntEmit_kept (e : Eng) (w : W128) (s : State) (h : Kept fx s) :
    Kept fx (cntEmit e w s) := by
  grind [cntEmit, State.instr_kept, cntEmitFx_kept]

end Sys2Proof.Machine
end

