-- ==== Sys2Proof/Laws/KeepMovers.lean ====
section
/-! SUPPORT. Every operation of Machine/Movers.lean keeps the canonical form of the memory, the queue, the variant and the grade. -/

namespace Sys2Proof.Machine

open Sys2Proof

variable {fx : Fixed}

theorem moverFx_kept (w : W128) (sh : OpShape) (own : Ctx → Bool) (ok : Ctx → Bool) (f : Ctx → State → State × Option Nat) (c : Ctx) (t : State) (hf : ∀ c t, Kept fx t → Kept fx (f c t).1) (h : Kept fx t) :
    Kept fx (moverFx w sh own ok f c t).1 := by
  grind [moverFx]

theorem State.mover_kept (s : State) (e : Eng) (w : W128) (op : Nat) (sh : OpShape) (own : Ctx → Bool) (ok : Ctx → Bool) (f : Ctx → State → State × Option Nat) (hf : ∀ c t, Kept fx t → Kept fx (f c t).1) (h : Kept fx s) :
    Kept fx (State.mover s e w op sh own ok f) := by
  grind [State.mover, State.instr_kept, moverFx_kept]

theorem copyFx_kept (w : W128) (c : Ctx) (t : State) (h : Kept fx t) :
    Kept fx (copyFx w c t).1 := by
  grind [copyFx, State.finish_kept, State.moved_kept]

theorem copy_kept (e : Eng) (w : W128) (s : State) (h : Kept fx s) :
    Kept fx (copy e w s) := by
  grind [copy, State.mover_kept, copyFx_kept]

theorem fillFx_kept (w : W128) (c : Ctx) (t : State) (h : Kept fx t) :
    Kept fx (fillFx w c t).1 := by
  grind [fillFx, State.doWrites_kept]

theorem fill_kept (e : Eng) (w : W128) (s : State) (h : Kept fx s) :
    Kept fx (fill e w s) := by
  grind [fill, State.mover_kept, fillFx_kept]

theorem gatherFx_kept (w : W128) (c : Ctx) (t : State) (h : Kept fx t) :
    Kept fx (gatherFx w c t).1 := by
  grind [gatherFx, State.doWrites_kept, State.moved_kept]

theorem gather_kept (e : Eng) (w : W128) (s : State) (h : Kept fx s) :
    Kept fx (gather e w s) := by
  grind [gather, State.mover_kept, gatherFx_kept]

theorem State.scatterRow_kept (s : State) (c : Ctx) (src dst : Card) (x : Int) (j : Nat) (h : Kept fx s) :
    Kept fx (State.scatterRow s c src dst x j).1 := by
  grind [State.scatterRow, State.finish_kept, State.moved_kept]

theorem scatterFx_kept (w : W128) (c : Ctx) (t : State) (h : Kept fx t) :
    Kept fx (scatterFx w c t).1 := by
  grind [scatterFx, State.moved_kept, State.scatterRow_kept, runEach_kept]

theorem scatter_kept (e : Eng) (w : W128) (s : State) (h : Kept fx s) :
    Kept fx (scatter e w s) := by
  grind [scatter, State.mover_kept, scatterFx_kept]

theorem transposeFx_kept (w : W128) (c : Ctx) (t : State) (h : Kept fx t) :
    Kept fx (transposeFx w c t).1 := by
  grind [transposeFx, State.finish_kept, State.moved_kept]

theorem transpose_kept (e : Eng) (w : W128) (s : State) (h : Kept fx s) :
    Kept fx (transpose e w s) := by
  grind [transpose, State.mover_kept, transposeFx_kept]

theorem windowFx_kept (w : W128) (c : Ctx) (t : State) (h : Kept fx t) :
    Kept fx (windowFx w c t).1 := by
  grind [windowFx, State.finish_kept, State.moved_kept]

theorem window_kept (e : Eng) (w : W128) (s : State) (h : Kept fx s) :
    Kept fx (window e w s) := by
  grind [window, State.mover_kept, windowFx_kept]

end Sys2Proof.Machine
end

