-- ==== Sys2Proof/Laws/KeepGate.lean ====
section
/-! SUPPORT. Every operation of Machine/Gate.lean keeps the canonical form of the memory, the queue, the variant and the grade. -/

namespace Sys2Proof.Machine

open Sys2Proof

variable {fx : Fixed}

theorem State.gateEvents_kept (s : State) (c : Ctx) (rows evals : Nat) (h : Kept fx s) :
    Kept fx (State.gateEvents s c rows evals) := by
  grind [State.gateEvents, State.count_kept]

theorem State.noteCheck_kept (s : State) (seen cnt : Fld) (h : Kept fx s) :
    Kept fx (State.noteCheck s seen cnt) := by
  grind [State.noteCheck, State.addFld_kept, State.setFlag_kept]

theorem State.gateFault_kept (s : State) (c : Ctx) (detail : Nat) (h : Kept fx s) :
    Kept fx (State.gateFault s c detail).1 := by
  grind [State.gateFault, State.addFld_kept, State.count_kept, State.noteCheck_kept]

theorem State.corrected_kept (s : State) (c : Ctx) (u : Nat) (on : Bool) (h : Kept fx s) :
    Kept fx (State.corrected s c u on) := by
  grind [State.corrected, State.logCorrected_kept, State.storeCorrected_kept]

theorem State.gateCorrected_kept (s : State) (c : Ctx) (chk : EngCheck) (h : Kept fx s) :
    Kept fx (State.gateCorrected s c chk) := by
  grind [State.gateCorrected, State.corrected_kept]

theorem gseqSetFx_kept (e : Eng) (w : W128) (c : Ctx) (t : State) (h : Kept fx t) :
    Kept fx (gseqSetFx e w c t).1 := by
  grind [gseqSetFx, State.modEng_kept]

theorem gseqSet_kept (e : Eng) (w : W128) (s : State) (h : Kept fx s) :
    Kept fx (gseqSet e w s) := by
  grind [gseqSet, State.instr_kept, gseqSetFx_kept]

theorem gseqClrFx_kept (e : Eng) (w : W128) (_c : Ctx) (t : State) (h : Kept fx t) :
    Kept fx (gseqClrFx e w _c t).1 := by
  grind [gseqClrFx, State.modEng_kept]

theorem gseqClr_kept (e : Eng) (w : W128) (s : State) (h : Kept fx s) :
    Kept fx (gseqClr e w s) := by
  grind [gseqClr, State.instr_kept, gseqClrFx_kept]

theorem gateFx_kept (w : W128) (k : GCtx) (chk : EngCheck) (c : Ctx) (t : State) (h : Kept fx t) :
    Kept fx (gateFx w k chk c t).1 := by
  grind (gen := 30) (splits := 30) (ematch := 30) [gateFx, State.count_kept, State.doWrites_kept, State.gateCorrected_kept, State.gateEvents_kept, State.gateFault_kept, State.moved_kept]

theorem State.gateAll_kept (s : State) (e : Eng) (w : W128) (op : Nat) (k : GCtx) (chk : EngCheck) (h : Kept fx s) :
    Kept fx (State.gateAll s e w op k chk) := by
  grind [State.gateAll, State.instr_kept, gateFx_kept]

theorem gateMap_kept (e : Eng) (w : W128) (chk : EngCheck) (s : State) (h : Kept fx s) :
    Kept fx (gateMap e w chk s) := by
  grind [gateMap, State.gateAll_kept]

theorem gateRows_kept (e : Eng) (w : W128) (chk : EngCheck) (s : State) (h : Kept fx s) :
    Kept fx (gateRows e w chk s) := by
  grind [gateRows, State.gateAll_kept]

end Sys2Proof.Machine
end

