-- ==== Sys2Proof/Laws/KeepWalks.lean ====
section
/-! SUPPORT. Every operation of Machine/Walks.lean keeps the canonical form of the memory, the queue, the variant and the grade. -/

namespace Sys2Proof.Machine

open Sys2Proof

variable {fx : Fixed}

theorem State.stageTile_kept (s : State) (c : Ctx) (o : Operand) (no : Nat) (b : Box) (h : Kept fx s) :
    Kept fx (State.stageTile s c o no b).1 := by
  grind [State.stageTile, State.doWrites_kept, State.moved_kept]

theorem State.loadBox_kept (s : State) (c : Ctx) (o : Operand) (no : Nat) (outer b : Box) (h : Kept fx s) :
    Kept fx (State.loadBox s c o no outer b) := by
  grind [State.loadBox, State.moved_kept]

theorem runWalk_kept (c : Ctx) (slot : Nat) (os : List Operand) (loads : Operand → Bool)
    (out : Tile → State → State × Option Nat) (p : WalkAt) (ts : List (Tile × Tile)) (s : State)
    (hf : ∀ x t, Kept fx t → Kept fx (out x t).1)
    (h : Kept fx s) : Kept fx (runWalk c slot os loads out p ts s).1 := by
  induction ts generalizing s p with
  | nil => exact h
  | cons x ts ih =>
    obtain ⟨t2, t1⟩ := x
    unfold runWalk
    dsimp only
    generalize hq : (fun (i : Nat) (u : State) => _ : Nat → State → State × Option Nat) = step
    have hs : ∀ i t, Kept fx t → Kept fx (step i t).1 := by
      intro i t ht
      subst hq
      grind [State.stageTile_kept, State.loadBox_kept]
    have h1 := runEach_kept step (natRange 0 os.length) s hs h
    grind [runEach_kept]

end Sys2Proof.Machine
end

