-- ==== Sys2Proof/Laws/KeepMatrix.lean ====
section
/-! SUPPORT. Every operation of Machine/Matrix.lean keeps the canonical form of the memory, the queue, the variant and the grade. -/

namespace Sys2Proof.Machine

open Sys2Proof

variable {fx : Fixed}

theorem State.mxeFault_kept (s : State) (c : Ctx) (f : Nat × Nat × Nat × Nat) (h : Kept fx s) :
    Kept fx (State.mxeFault s c f).1 := by
  grind [State.mxeFault, State.count_kept, State.gateFault_kept, State.noteCheck_kept, State.setFld_kept]

theorem State.matOut_kept (c : Ctx) (x : Mat) (ops : List W128) (gated : Bool) (rd : Option EmRead) (err : Option ArrayErr) (bad : Option Tile) (t : Tile) (s : State) (h : Kept fx s) :
    Kept fx (State.matOut c x ops gated rd err bad t s).1 := by
  grind [State.matOut, State.count_kept, State.doWrites_kept, State.gateEvents_kept, State.moved_kept, State.writeOut_kept]

theorem State.matRun_kept (s : State) (e : Eng) (c : Ctx) (x : Mat) (w : W128) (chk : EngCheck) (h : Kept fx s) :
    Kept fx (State.matRun s e c x w chk).1 := by
  grind (gen := 30) (splits := 30) (ematch := 30) [State.matRun, State.count_kept, State.gateCorrected_kept, State.matOut_kept, State.modEng_kept, State.mxeFault_kept, State.storeCorrected_kept, State.store_kept, runWalk_kept]

theorem matmulFx_kept (e : Eng) (w : W128) (chk : EngCheck) (c : Ctx) (t : State) (h : Kept fx t) :
    Kept fx (matmulFx e w chk c t).1 := by
  grind [matmulFx, State.matRun_kept]

theorem matmul_kept (e : Eng) (w : W128) (chk : EngCheck) (s : State) (h : Kept fx s) :
    Kept fx (matmul e w chk s) := by
  grind [matmul, State.instr_kept, State.modEng_kept, matmulFx_kept]

theorem cbPreloadFx_kept (e : Eng) (w : W128) (c : Ctx) (t : State) (h : Kept fx t) :
    Kept fx (cbPreloadFx e w c t).1 := by
  grind [cbPreloadFx, State.count_kept, State.modEng_kept, State.moved_kept]

theorem cbPreload_kept (e : Eng) (w : W128) (s : State) (h : Kept fx s) :
    Kept fx (cbPreload e w s) := by
  grind [cbPreload, State.instr_kept, cbPreloadFx_kept]

theorem codebookLoadDone_kept (e : Eng) (s : State) (h : Kept fx s) :
    Kept fx (codebookLoadDone e s) := by
  grind [codebookLoadDone, State.failEng_kept, State.modEng_kept]

theorem State.enterResidency_kept (s : State) (c : Ctx) (rec : List Byte) (shape : Nat) (h : Kept fx s) :
    Kept fx (State.enterResidency s c rec shape).1 := by
  grind [State.enterResidency, State.advanceEpoch_kept, State.setFld_kept, forEach_kept]

theorem recBindFx_kept (e : Eng) (w : W128) (c : Ctx) (t : State) (h : Kept fx t) :
    Kept fx (recBindFx e w c t).1 := by
  grind (gen := 30) (splits := 30) (ematch := 30) [recBindFx, State.enterResidency_kept, State.modEng_kept, State.moved_kept]

theorem recBind_kept (e : Eng) (w : W128) (s : State) (h : Kept fx s) :
    Kept fx (recBind e w s) := by
  grind [recBind, State.instr_kept, recBindFx_kept]

theorem recScanFx_kept (w : W128) (chk : EngCheck) (c : Ctx) (t : State) (h : Kept fx t) :
    Kept fx (recScanFx w chk c t).1 := by
  grind (gen := 30) (splits := 30) (ematch := 30) [recScanFx, State.count_kept, State.doWrites_kept, State.moved_kept, State.mxeFault_kept]

theorem recScan_kept (e : Eng) (w : W128) (chk : EngCheck) (s : State) (h : Kept fx s) :
    Kept fx (recScan e w chk s) := by
  grind [recScan, State.instr_kept, recScanFx_kept]

theorem recUnbindFx_kept (e : Eng) (w : W128) (c : Ctx) (t : State) (h : Kept fx t) :
    Kept fx (recUnbindFx e w c t).1 := by
  grind [recUnbindFx, State.modEng_kept]

theorem recUnbind_kept (e : Eng) (w : W128) (s : State) (h : Kept fx s) :
    Kept fx (recUnbind e w s) := by
  grind [recUnbind, State.instr_kept, recUnbindFx_kept]

theorem parkLimit_kept (die engine : Nat) (s : State) (h : Kept fx s) :
    Kept fx (parkLimit die engine s) := by
  grind [parkLimit, State.endResidency_kept]

theorem State.disableEngine_kept (s : State) (d u : Nat) (h : Kept fx s) :
    Kept fx (State.disableEngine s d u) := by
  grind [State.disableEngine, State.advanceEpoch_kept, State.endResidency_kept, State.modUnit_kept, State.setInService_kept]

theorem engineDisable_kept (unit : Nat) (s : State) (h : Kept fx s) :
    Kept fx (engineDisable unit s) := by
  grind [engineDisable, State.disableEngine_kept, State.setFlag_kept]

end Sys2Proof.Machine
end

