-- ==== Sys2Proof/Laws/KeepWindow.lean ====
section
/-! SUPPORT. Every operation of Machine/Window.lean keeps the canonical form of the memory, the queue, the variant and the grade. -/

namespace Sys2Proof.Machine

open Sys2Proof

variable {fx : Fixed}

theorem State.unitFault_kept (s : State) (c : Ctx) (seen cnt : Fld) (isMismatch : Bool) (detail : Nat) (h : Kept fx s) :
    Kept fx (State.unitFault s c seen cnt isMismatch detail).1 := by
  grind [State.unitFault, State.addFld_kept, State.count_kept, State.setFlag_kept]

theorem convParamFx_kept (e : Eng) (w : W128) (c : Ctx) (t : State) (h : Kept fx t) :
    Kept fx (convParamFx e w c t).1 := by
  grind [convParamFx, State.modEng_kept]

theorem convParam_kept (e : Eng) (w : W128) (s : State) (h : Kept fx s) :
    Kept fx (convParam e w s) := by
  grind [convParam, State.instr_kept, convParamFx_kept]

theorem State.convOut_kept (c : Ctx) (f : ConvFields) (relu : Bool) (d a k : Card) (t : Tile) (s : State) (h : Kept fx s) :
    Kept fx (State.convOut c f relu d a k t s).1 := by
  grind [State.convOut, State.finish_kept, State.writeOut_kept]

theorem State.convRun_kept (s : State) (c : Ctx) (f : ConvFields) (w : W128) (d a k : Card) (chk : EngCheck) (h : Kept fx s) :
    Kept fx (State.convRun s c f w d a k chk).1 := by
  grind (gen := 30) (splits := 30) (ematch := 30) [State.convRun, State.convOut_kept, State.corrected_kept, State.count_kept, State.loadBox_kept, State.unitFault_kept, runWalk_kept, forEach_kept]

theorem convFx_kept (w : W128) (chk : EngCheck) (c : Ctx) (t : State) (h : Kept fx t) :
    Kept fx (convFx w chk c t).1 := by
  grind [convFx, State.convRun_kept]

theorem conv_kept (e : Eng) (w : W128) (chk : EngCheck) (s : State) (h : Kept fx s) :
    Kept fx (conv e w chk s) := by
  grind [conv, State.instr_kept, convFx_kept]

theorem State.ppe_kept (s : State) (c : Ctx) (chk : EngCheck) (f : State → State × Option Nat) (hf : ∀ t, Kept fx t → Kept fx (f t).1) (h : Kept fx s) :
    Kept fx (State.ppe s c chk f).1 := by
  grind [State.ppe, State.corrected_kept, State.unitFault_kept]

theorem boxDecodeFx_kept (w : W128) (chk : EngCheck) (c : Ctx) (t : State) (h : Kept fx t) :
    Kept fx (boxDecodeFx w chk c t).1 := by
  grind [boxDecodeFx, State.count_kept, State.doWrites_kept, State.moved_kept, State.ppe_kept]

theorem boxDecode_kept (e : Eng) (w : W128) (chk : EngCheck) (s : State) (h : Kept fx s) :
    Kept fx (boxDecode e w chk s) := by
  grind [boxDecode, State.instr_kept, boxDecodeFx_kept]

theorem scoreFilterFx_kept (w : W128) (chk : EngCheck) (c : Ctx) (t : State) (h : Kept fx t) :
    Kept fx (scoreFilterFx w chk c t).1 := by
  grind [scoreFilterFx, State.count_kept, State.doWrites_kept, State.moved_kept, State.ppe_kept]

theorem scoreFilter_kept (e : Eng) (w : W128) (chk : EngCheck) (s : State) (h : Kept fx s) :
    Kept fx (scoreFilter e w chk s) := by
  grind [scoreFilter, State.instr_kept, scoreFilterFx_kept]

theorem nmsFx_kept (w : W128) (chk : EngCheck) (c : Ctx) (t : State) (h : Kept fx t) :
    Kept fx (nmsFx w chk c t).1 := by
  grind [nmsFx, State.count_kept, State.doWrites_kept, State.moved_kept, State.ppe_kept]

theorem nms_kept (e : Eng) (w : W128) (chk : EngCheck) (s : State) (h : Kept fx s) :
    Kept fx (nms e w chk s) := by
  grind [nms, State.instr_kept, nmsFx_kept]

end Sys2Proof.Machine
end

