-- ==== Sys2Proof/Laws/KeepAttention.lean ====
section
/-! SUPPORT. Every operation of Machine/Attention.lean keeps the canonical form of the memory, the queue, the variant and the grade. -/

namespace Sys2Proof.Machine

open Sys2Proof

variable {fx : Fixed}

theorem State.ateCorrected_kept (s : State) (c : Ctx) (chk : EngCheck) (h : Kept fx s) :
    Kept fx (State.ateCorrected s c chk) := by
  grind [State.ateCorrected, State.corrected_kept]

theorem State.ateFault_kept (s : State) (c : Ctx) (n : Nat) (h : Kept fx s) :
    Kept fx (State.ateFault s c n).1 := by
  grind [State.ateFault, State.unitFault_kept]

theorem attendFx_kept (w : W128) (chk : EngCheck) (c : Ctx) (t : State) (h : Kept fx t) :
    Kept fx (attendFx w chk c t).1 := by
  grind (gen := 30) (splits := 30) (ematch := 30) [attendFx, State.ateCorrected_kept, State.ateFault_kept, State.count_kept, State.finish_kept, State.moved_kept]

theorem attend_kept (e : Eng) (w : W128) (chk : EngCheck) (s : State) (h : Kept fx s) :
    Kept fx (attend e w chk s) := by
  grind [attend, State.instr_kept, attendFx_kept]

theorem attParamFx_kept (e : Eng) (w : W128) (_c : Ctx) (t : State) (h : Kept fx t) :
    Kept fx (attParamFx e w _c t).1 := by
  grind [attParamFx, State.modEng_kept]

theorem attParam_kept (e : Eng) (w : W128) (s : State) (h : Kept fx s) :
    Kept fx (attParam e w s) := by
  grind [attParam, State.instr_kept, attParamFx_kept]

theorem mergeFx_kept (w : W128) (chk : EngCheck) (c : Ctx) (t : State) (h : Kept fx t) :
    Kept fx (mergeFx w chk c t).1 := by
  grind [mergeFx, State.ateCorrected_kept, State.ateFault_kept, State.finish_kept, State.moved_kept, State.store_kept]

theorem merge_kept (e : Eng) (w : W128) (chk : EngCheck) (s : State) (h : Kept fx s) :
    Kept fx (merge e w chk s) := by
  grind [merge, State.instr_kept, mergeFx_kept]

theorem kvAppendFx_kept (w : W128) (chk : EngCheck) (c : Ctx) (t : State) (h : Kept fx t) :
    Kept fx (kvAppendFx w chk c t).1 := by
  grind (gen := 30) (splits := 30) (ematch := 30) [kvAppendFx, State.ateCorrected_kept, State.ateFault_kept, State.doWrites_kept, State.moved_kept, free_kept]

theorem kvAppend_kept (e : Eng) (w : W128) (chk : EngCheck) (s : State) (h : Kept fx s) :
    Kept fx (kvAppend e w chk s) := by
  grind [kvAppend, State.instr_kept, kvAppendFx_kept]

end Sys2Proof.Machine
end

