-- ==== Sys2Proof/Laws/KeepRelay.lean ====
section
/-! SUPPORT. Every operation of Machine/Relay.lean keeps the canonical form of the memory, the queue, the variant and the grade. -/

namespace Sys2Proof.Machine

open Sys2Proof

variable {fx : Fixed}

theorem blkPackFx_kept (w : W128) (c : Ctx) (t : State) (h : Kept fx t) :
    Kept fx (blkPackFx w c t).1 := by
  grind [blkPackFx, State.doWrites_kept, State.moved_kept]

theorem blkPack_kept (e : Eng) (w : W128) (s : State) (h : Kept fx s) :
    Kept fx (blkPack e w s) := by
  grind [blkPack, State.instr_kept, blkPackFx_kept]

theorem State.modRelay_kept (s : State) (d : Nat) (f : Relay → Relay) (h : Kept fx s) :
    Kept fx (State.modRelay s d f) := by
  grind [State.modRelay, State.setFld_kept]

theorem State.relayCount_kept (s : State) (d code n : Nat) (h : Kept fx s) :
    Kept fx (State.relayCount s d code n) := by
  grind [State.relayCount, State.count_kept]

theorem State.relayBytes_kept (s : State) (cl d addr n : Nat) (isRead : Bool) (h : Kept fx s) :
    Kept fx (State.relayBytes s cl d addr n isRead) := by
  grind [State.relayBytes, State.acct_kept, State.touch_kept]

theorem State.toRelay_kept (s : State) (d port : Nat) (m : Sent) (h : Kept fx s) :
    Kept fx (State.toRelay s d port m) := by
  grind [State.toRelay, State.sendToPackage_kept, State.send_kept]

theorem State.sendBlock_kept (s : State) (from_ dest port client addr : Nat) (b : List Byte) (k : Nat) (h : Kept fx s) :
    Kept fx (State.sendBlock s from_ dest port client addr b k) := by
  grind [State.sendBlock, State.sendToPackage_kept, forEach_kept]

theorem State.letGo_kept (s : State) (d : Nat) (o : Offer) (h : Kept fx s) :
    Kept fx (State.letGo s d o) := by
  grind [State.letGo, State.modRelay_kept]

theorem State.sendOffer_kept (s : State) (d : Nat) (o : Offer) (h : Kept fx s) :
    Kept fx (State.sendOffer s d o) := by
  grind [State.sendOffer, State.letGo_kept, State.logRecorded_kept, State.setFlag_kept, State.toRelay_kept]

theorem blkSendFx_kept (w : W128) (c : Ctx) (t : State) (h : Kept fx t) :
    Kept fx (blkSendFx w c t).1 := by
  grind [blkSendFx, State.sendOffer_kept]

theorem blkSend_kept (e : Eng) (w : W128) (s : State) (h : Kept fx s) :
    Kept fx (blkSend e w s) := by
  grind [blkSend, State.instr_kept, blkSendFx_kept]

theorem State.declineOffer_kept (s : State) (d : Nat) (o : Offer) (h : Kept fx s) :
    Kept fx (State.declineOffer s d o) := by
  grind [State.declineOffer, State.relayCount_kept, State.toRelay_kept]

theorem blockOffer_kept (die : Nat) (o : Offer) (s : State) (h : Kept fx s) :
    Kept fx (blockOffer die o s) := by
  grind [blockOffer, State.declineOffer_kept, State.letGo_kept, State.modRelay_kept, State.setFlag_kept, State.toRelay_kept]

theorem State.resumeRing_kept (s : State) (e : Eng) (r : Run) (g : EngRun) (since : Nat) (h : Kept fx s) :
    Kept fx (State.resumeRing s e r g since) := by
  grind [State.resumeRing, State.countStall_kept, State.modEng_kept, State.setFlag_kept]

theorem State.wakeLanding_kept (s : State) (desc k : Nat) (h : Kept fx s) :
    Kept fx (State.wakeLanding s desc k) := by
  grind [State.wakeLanding, State.resumeRing_kept, forEach_kept]

theorem State.passOn_kept (s : State) (d : Nat) (p : PassDesc) (o : Offer) (h : Kept fx s) :
    Kept fx (State.passOn s d p o) := by
  grind [State.passOn, State.modRelay_kept, State.relayCount_kept, State.sendOffer_kept]

theorem State.endTries_kept (s : State) (d : Nat) (o : Offer) (h : Kept fx s) :
    Kept fx (State.endTries s d o) := by
  grind [State.endTries, State.modRelay_kept]

theorem State.sendNotice_kept (s : State) (die : Nat) (p : PassDesc) (o : Offer) (h : Kept fx s) :
    Kept fx (State.sendNotice s die p o) := by
  grind [State.sendNotice, State.endTries_kept, State.letGo_kept, State.passOn_kept, State.toRelay_kept]

theorem blockGrant_kept (die : Nat) (o : Offer) (s : State) (h : Kept fx s) :
    Kept fx (blockGrant die o s) := by
  have hw := fun (n dst : Nat) (bs : List Byte) => writePieces_kept (fun t x => State.place t o.client x) false
    (cutBytes 64 (n + 1) dst bs) (State.endTries s die o) (State.endTries_kept s die o h)
  unfold blockGrant
  dsimp only
  repeat' split
  all_goals first
    | exact h
    | grind [State.relayBytes_kept, State.relayCount_kept, State.sendBlock_kept, State.sendNotice_kept, State.wakeLanding_kept]

theorem offerRepeat_kept (die : Nat) (o : Offer) (s : State) (h : Kept fx s) :
    Kept fx (offerRepeat die o s) := by
  grind [offerRepeat, State.modRelay_kept, State.sendOffer_kept]

theorem State.skipParticipant_kept (s : State) (die : Nat) (p : PassDesc) (o : Offer) (h : Kept fx s) :
    Kept fx (State.skipParticipant s die p o) := by
  grind [State.skipParticipant, State.letGo_kept, State.sendOffer_kept, State.setFlag_kept]

theorem relayRetry_kept (die : Nat) (o : Offer) (notice : Bool) (epoch : Nat) (s : State) (h : Kept fx s) :
    Kept fx (relayRetry die o notice epoch s) := by
  grind [relayRetry, State.modRelay_kept, State.sendNotice_kept, State.sendOffer_kept, State.skipParticipant_kept]

theorem State.waitRing_kept (s : State) (e : Eng) (c : Ctx) (w : W128) (st : Stall) (home : List Nat) (h : Kept fx s) :
    Kept fx (State.waitRing s e c w st home) := by
  grind [State.waitRing, State.modEng_kept, State.setFlag_kept]

theorem attendRingFx_kept (e : Eng) (w : W128) (chk : EngCheck) (c : Ctx) (t : State) (h : Kept fx t) :
    Kept fx (attendRingFx e w chk c t).1 := by
  grind (gen := 30) (splits := 30) (ematch := 30) [attendRingFx, State.ateCorrected_kept, State.ateFault_kept, State.count_kept, State.finish_kept, State.moved_kept, State.waitRing_kept]

theorem attendRing_kept (e : Eng) (w : W128) (chk : EngCheck) (s : State) (h : Kept fx s) :
    Kept fx (attendRing e w chk s) := by
  grind [attendRing, State.instr_kept, attendRingFx_kept]

theorem landWaitTimeout_kept (e : Eng) (s : State) (h : Kept fx s) :
    Kept fx (landWaitTimeout e s) := by
  grind [landWaitTimeout, State.modEng_kept, State.resumeRing_kept]

theorem homeBlockRecheck_kept (e : Eng) (s : State) (h : Kept fx s) :
    Kept fx (homeBlockRecheck e s) := by
  grind (gen := 30) (splits := 30) (ematch := 30) [homeBlockRecheck, State.failEng_kept, State.modEng_kept, State.resumeRing_kept, State.setFlag_kept]

end Sys2Proof.Machine
end

