-- ==== Sys2Proof/Laws/KeepCodec.lean ====
section
/-! SUPPORT. Every operation of Machine/Codec.lean keeps the canonical form of the memory, the queue, the variant and the grade. -/

namespace Sys2Proof.Machine

open Sys2Proof

variable {fx : Fixed}

theorem State.codecFail_kept (s : State) (c : Ctx) (d : Nat) (h : Kept fx s) :
    Kept fx (State.codecFail s c d).1 := by
  grind [State.codecFail, State.count_kept, State.setFlag_kept]

theorem State.codecRun_kept (s : State) (c : Ctx) (chk : EngCheck) (f : State → State × Option Nat) (hf : ∀ t, Kept fx t → Kept fx (f t).1) (h : Kept fx s) :
    Kept fx (State.codecRun s c chk f).1 := by
  grind [State.codecRun, State.unitFault_kept]

theorem embDecodeFx_kept (w : W128) (chk : EngCheck) (c : Ctx) (t : State) (h : Kept fx t) :
    Kept fx (embDecodeFx w chk c t).1 := by
  grind (gen := 30) (splits := 30) (ematch := 30) [embDecodeFx, State.codecFail_kept, State.codecRun_kept, State.count_kept, State.doWrites_kept, State.moved_kept]

theorem embDecode_kept (e : Eng) (w : W128) (chk : EngCheck) (s : State) (h : Kept fx s) :
    Kept fx (embDecode e w chk s) := by
  grind [embDecode, State.instr_kept, embDecodeFx_kept]

theorem embEncodeFx_kept (w : W128) (chk : EngCheck) (c : Ctx) (t : State) (h : Kept fx t) :
    Kept fx (embEncodeFx w chk c t).1 := by
  grind (gen := 30) (splits := 30) (ematch := 30) [embEncodeFx, State.codecFail_kept, State.codecRun_kept, State.count_kept, State.doWrites_kept, State.moved_kept]

theorem embEncode_kept (e : Eng) (w : W128) (chk : EngCheck) (s : State) (h : Kept fx s) :
    Kept fx (embEncode e w chk s) := by
  grind [embEncode, State.instr_kept, embEncodeFx_kept]

theorem embRewrapFx_kept (w : W128) (chk : EngCheck) (c : Ctx) (t : State) (h : Kept fx t) :
    Kept fx (embRewrapFx w chk c t).1 := by
  grind (gen := 30) (splits := 30) (ematch := 30) [embRewrapFx, State.codecFail_kept, State.codecRun_kept, State.doWrites_kept, State.moved_kept]

theorem embRewrap_kept (e : Eng) (w : W128) (chk : EngCheck) (s : State) (h : Kept fx s) :
    Kept fx (embRewrap e w chk s) := by
  grind [embRewrap, State.instr_kept, embRewrapFx_kept]

end Sys2Proof.Machine
end

