-- ==== Sys2Proof/Laws/KeepDies.lean ====
section
/-! SUPPORT. Every operation of Machine/Dies.lean keeps the canonical form of the memory, the queue, the variant and the grade. -/

namespace Sys2Proof.Machine

open Sys2Proof

variable {fx : Fixed}

theorem State.releaseAll_kept (r n : Nat) (s : State) (h : Kept fx s) :
    Kept fx (State.releaseAll r n s) := by
  induction n generalizing s with
  | zero => exact h
  | succ n ih => grind [State.releaseAll, State.releaseStep_kept]

theorem State.dampAt_kept (s : State) (cause unit detail : Nat) (client : Nat := 0xFFF) (h : Kept fx s) :
    Kept fx (State.dampAt s cause unit detail client) := by
  grind (gen := 30) (splits := 30) (ematch := 30) [State.dampAt, State.logEvent_kept, State.redoJournal_kept, State.releaseAll_kept, State.setFlag_kept, State.setFld_kept, forEach_kept]

theorem State.damp_kept (s : State) (cause : Nat) (h : Kept fx s) :
    Kept fx (State.damp s cause) := by
  grind (gen := 30) (splits := 30) (ematch := 30) [State.damp, State.dampAt_kept, State.logEvent_kept, State.redoJournal_kept, State.releaseAll_kept, State.setFlag_kept, State.setFld_kept, forEach_kept]

theorem damper_kept (cause : Nat) (s : State) (h : Kept fx s) :
    Kept fx (damper cause s) := by
  grind [damper, State.damp_kept]

theorem enterSafe_kept (s : State) (h : Kept fx s) :
    Kept fx (enterSafe s) := by
  grind [enterSafe, State.damp_kept]

theorem State.resetLogic_kept (s : State) (d : Nat) (h : Kept fx s) :
    Kept fx (State.resetLogic s d) := by
  grind [State.resetLogic, State.modUnit_kept, State.resetRegs_kept, forEach_kept]

theorem State.cutMove_kept (s : State) (n : Nat) (m : Move) (h : Kept fx s) :
    Kept fx (State.cutMove s n m) := by
  grind [State.cutMove, State.abandonMove_kept, State.refreshReady_kept, State.schedKill_kept, forEach_kept]

theorem State.cutMovesOf_kept (s : State) (d : Nat) (h : Kept fx s) :
    Kept fx (State.cutMovesOf s d) := by
  grind [State.cutMovesOf, State.cutMove_kept, forEach_kept]

theorem State.closeGate_kept (s0 : State) (d : Nat) (off : Bool) (h : Kept fx s0) :
    Kept fx (State.closeGate s0 d off) := by
  grind (gen := 30) (splits := 30) (ematch := 30) [State.closeGate, State.advanceEpoch_kept, State.cutMovesOf_kept, State.endResidency_kept, State.failHearthSteps_kept, State.loseHearth_kept, State.modDie_kept, State.modHearth_kept, State.resetLogic_kept, State.setFlag_kept, State.setFld_kept, forEach_kept]

theorem State.killForTakeOut_kept (s : State) (d : Nat) (clients : List Nat) (h : Kept fx s) :
    Kept fx (State.killForTakeOut s d clients) := by
  grind [State.killForTakeOut, State.clientEvent_kept, State.faultKill_kept, forEach_kept]

theorem State.takeOutDie_kept (s : State) (d cause : Nat) (off : Bool) (h : Kept fx s) :
    Kept fx (State.takeOutDie s d cause off) := by
  grind (gen := 30) (splits := 30) (ematch := 30) [State.takeOutDie, State.addFld_kept, State.closeGate_kept, State.failHearthSteps_kept, State.killForTakeOut_kept, State.logEvent_kept, State.modDie_kept, State.notePresent_kept, State.refreshReady_kept, State.setFlag_kept, State.setFld_kept]

theorem dieLogicReset_kept (die cause : Nat) (s : State) (h : Kept fx s) :
    Kept fx (dieLogicReset die cause s) := by
  grind [dieLogicReset, State.modDie_kept, State.takeOutDie_kept]

theorem dieDrain_kept (die : Nat) (s : State) (h : Kept fx s) :
    Kept fx (dieDrain die s) := by
  grind [dieDrain, State.holdDrained_kept, State.modDie_kept, State.setFld_kept]

theorem drainTimeout_kept (die : Nat) (s : State) (h : Kept fx s) :
    Kept fx (drainTimeout die s) := by
  grind (gen := 30) (splits := 30) (ematch := 30) [drainTimeout, State.endResidency_kept, State.holdDrained_kept, State.preempt_kept, forEach_kept]

theorem State.releaseLogic_kept (s : State) (d : Nat) (h : Kept fx s) :
    Kept fx (State.releaseLogic s d) := by
  grind [State.releaseLogic, State.setFld_kept]

theorem dieLogicOff_kept (die : Nat) (s : State) (h : Kept fx s) :
    Kept fx (dieLogicOff die s) := by
  grind [dieLogicOff, State.closeGate_kept, State.modDie_kept, State.notePresent_kept, State.refreshReady_kept]

theorem dieRelease_kept (die : Nat) (s : State) (h : Kept fx s) :
    Kept fx (dieRelease die s) := by
  grind (gen := 30) (splits := 30) (ematch := 30) [dieRelease, State.closeGate_kept, State.modDie_kept, State.notePresent_kept, State.setFlag_kept, State.setFld_kept, back_kept]

end Sys2Proof.Machine
end

