-- ==== Sys2Proof/Laws/KeepLinks.lean ====
section
/-! SUPPORT. Every operation of Machine/Links.lean keeps the canonical form of the memory, the queue, the variant and the grade. -/

namespace Sys2Proof.Machine

open Sys2Proof

variable {fx : Fixed}

theorem State.syncTopo_kept (s : State) (h : Kept fx s) :
    Kept fx (State.syncTopo s) := by
  grind [State.syncTopo, State.setFlag_kept, State.setFld_kept, forEach_kept]

theorem State.noteRequest_kept (s : State) (m : Msg) (h : Kept fx s) :
    Kept fx (State.noteRequest s m) := by
  grind [State.noteRequest]

theorem State.freeSlot_kept (s : State) (u c : Nat) (h : Kept fx s) :
    Kept fx (State.freeSlot s u c) := by
  grind [State.freeSlot, State.modLink_kept]

theorem State.linkSend_kept (s : State) (u : Nat) (o : OutMsg) (h : Kept fx s) :
    Kept fx (State.linkSend s u o) := by
  grind [State.linkSend, State.freeSlot_kept, State.modLink_kept, State.send_kept]

theorem State.sendMsg_kept (s : State) (m : Msg) (h : Kept fx s) :
    Kept fx (State.sendMsg s m) := by
  grind [State.sendMsg, State.linkSend_kept, State.noteRequest_kept, State.send_kept]

theorem State.drainOutbox_kept (s : State) (u : Nat) (h : Kept fx s) :
    Kept fx (State.drainOutbox s u) := by
  grind [State.drainOutbox, State.linkSend_kept, State.modLink_kept, forEach_kept]

theorem State.deliver_kept (s : State) (u : Nat) (m : Msg) (h : Kept fx s) :
    Kept fx (State.deliver s u m) := by
  grind [State.deliver, State.freeSlot_kept, State.linkSend_kept, State.noteRequest_kept, State.send_kept]

theorem State.endLost_kept (s : State) (u : Nat) (h : Kept fx s) :
    Kept fx (State.endLost s u) := by
  grind (gen := 30) (splits := 30) (ematch := 30) [State.endLost, State.advanceEpoch_kept, State.logEvent_kept, State.modLink_kept, State.modUnit_kept, State.send_kept, State.setFlag_kept, State.setFld_kept, forEach_kept]

theorem State.takeOutUnreached_kept (s : State) (h : Kept fx s) :
    Kept fx (State.takeOutUnreached s) := by
  grind [State.takeOutUnreached, State.takeOutDie_kept, forEach_kept]

theorem State.linkDown_kept (s : State) (u : Nat) (h : Kept fx s) :
    Kept fx (State.linkDown s u) := by
  grind [State.linkDown, State.endLost_kept, State.send_kept, State.syncTopo_kept, State.takeOutUnreached_kept]

theorem State.trainEnd_kept (s : State) (u modules lanes : Nat) (h : Kept fx s) :
    Kept fx (State.trainEnd s u modules lanes) := by
  grind (gen := 30) (splits := 30) (ematch := 30) [State.trainEnd, State.advanceEpoch_kept, State.logEvent_kept, State.modLink_kept, State.modUnit_kept, State.setFlag_kept, State.setFld_kept, back_kept]

theorem State.trainTest_kept (s : State) (u modules : Nat) (h : Kept fx s) :
    Kept fx (State.trainTest s u modules).1 := by
  grind [State.trainTest, State.modUnit_kept, wait_kept]

theorem linkTrained_kept (link modules lanesRepaired : Nat) (s : State) (h : Kept fx s) :
    Kept fx (linkTrained link modules lanesRepaired s) := by
  grind (gen := 30) (splits := 30) (ematch := 30) [linkTrained, State.send_kept, State.syncTopo_kept, State.trainEnd_kept, State.trainTest_kept]

theorem State.dropModule_kept (s : State) (u k left : Nat) (h : Kept fx s) :
    Kept fx (State.dropModule s u k left) := by
  grind [State.dropModule, State.drainOutbox_kept, State.modLink_kept, State.setFlag_kept, State.setFld_kept]

theorem moduleFail_kept (link module : Nat) (s : State) (h : Kept fx s) :
    Kept fx (moduleFail link module s) := by
  grind [moduleFail, State.dropModule_kept, State.linkDown_kept, State.logCorrected_kept, State.logRecorded_kept]

theorem State.ackModule_kept (s : State) (u k ackSeq : Nat) (h : Kept fx s) :
    Kept fx (State.ackModule s u k ackSeq) := by
  grind [State.ackModule, State.modLink_kept]

theorem State.replay_kept (s : State) (u k ackSeq : Nat) (h : Kept fx s) :
    Kept fx (State.replay s u k ackSeq) := by
  grind [State.replay, State.ackModule_kept, State.addFld_kept, State.drainOutbox_kept, State.linkDown_kept, State.modLink_kept]

theorem flitNakReplay_kept (link module ackSeq : Nat) (s : State) (h : Kept fx s) :
    Kept fx (flitNakReplay link module ackSeq s) := by
  grind [flitNakReplay, State.replay_kept]

theorem linkAckTimeout_kept (link module : Nat) (s : State) (h : Kept fx s) :
    Kept fx (linkAckTimeout link module s) := by
  grind [linkAckTimeout, State.linkDown_kept]

theorem State.protocolError_kept (s : State) (u : Nat) (h : Kept fx s) :
    Kept fx (State.protocolError s u) := by
  grind [State.protocolError, State.linkDown_kept, State.logCorrected_kept, State.logRecorded_kept, State.modLink_kept, State.setFlag_kept]

theorem State.sendAck_kept (s : State) (u seq : Nat) (h : Kept fx s) :
    Kept fx (State.sendAck s u seq) := by
  grind [State.sendAck, State.modLink_kept, State.send_kept]

theorem State.takeCredits_kept (s : State) (u : Nat) (flit : List Byte) (h : Kept fx s) :
    Kept fx (State.takeCredits s u flit) := by
  grind [State.takeCredits, State.modLink_kept]

theorem flitReceive_kept (link module : Nat) (flit : List Byte) (s : State) (h : Kept fx s) :
    Kept fx (flitReceive link module flit s) := by
  grind (gen := 30) (splits := 30) (ematch := 30) [flitReceive, State.ackModule_kept, State.addFld_kept, State.deliver_kept, State.drainOutbox_kept, State.logCorrected_kept, State.modLink_kept, State.protocolError_kept, State.replay_kept, State.sendAck_kept, State.send_kept, State.takeCredits_kept, back_kept, forEach_kept]

theorem routeUpdate_kept (s : State) (h : Kept fx s) :
    Kept fx (routeUpdate s) := by
  grind [routeUpdate, State.syncTopo_kept]

theorem State.respondAs_kept (s : State) (m : Msg) (op : Nat) (data : List Byte) (mark : Bool) (own : Nat) (h : Kept fx s) :
    Kept fx (State.respondAs s m op data mark own) := by
  grind [State.respondAs, State.sendMsg_kept, mark_kept]

theorem State.respond_kept (s : State) (m : Msg) (op : Nat) (data : List Byte) (mark : Bool) (h : Kept fx s) :
    Kept fx (State.respond s m op data mark) := by
  grind [State.respond, State.respondAs_kept, mark_kept]

theorem State.refuseAccess_kept (s : State) (m : Msg) (detail : Nat) (h : Kept fx s) :
    Kept fx (State.refuseAccess s m detail) := by
  grind [State.refuseAccess, State.failFinal_kept, State.respond_kept]

theorem State.answerRead_kept (s : State) (m : Msg) (places : List Place) (h : Kept fx s) :
    Kept fx (State.answerRead s m places) := by
  grind [State.answerRead, State.drawBytes_kept, State.refuseAccess_kept, State.respond_kept]

theorem State.putMarked_kept (s : State) (g off : Nat) (bs : List Byte) (h : Kept fx s) :
    Kept fx (State.putMarked s g off bs) := by
  grind [State.putMarked, State.modDmc_kept, State.putClinker_kept, forEach_kept]

theorem State.answerWrite_kept (s : State) (m : Msg) (p : Place) (h : Kept fx s) :
    Kept fx (State.answerWrite s m p) := by
  unfold State.answerWrite
  repeat' split
  all_goals grind (gen := 30) (splits := 30) (ematch := 30) [State.markDirty_kept, State.putMarked_kept, State.flushGroup_kept, State.modHearth_kept, State.putAt_kept, State.putClinker_kept, State.respond_kept, forEach_kept, KeptOf.write, KeptOf.clear, KeptOf.filter]

theorem State.answer_kept (s : State) (isRead : Bool) (m : Msg) (p : Place) (h : Kept fx s) :
    Kept fx (State.answer s isRead m p) := by
  unfold State.answer
  repeat' split
  all_goals grind (gen := 30) (splits := 30) (ematch := 30) [State.answerRead_kept, State.answerWrite_kept, State.noteHearthRead_kept, State.noteRead_kept]

theorem State.serveDmc_kept (s : State) (isRead : Bool) (m : Msg) (p : Place) (h : Kept fx s) :
    Kept fx (State.serveDmc s isRead m p) := by
  grind [State.serveDmc, State.answer_kept, State.countLines_kept]

theorem State.atDmc_kept (s : State) (isRead : Bool) (g : Nat) (m : Msg) (h : Kept fx s) :
    Kept fx (State.atDmc s isRead g m) := by
  grind [State.atDmc, State.refuseAccess_kept, State.respond_kept, State.serveDmc_kept]

theorem State.addHearthErrors_kept (s : State) (d : Nat) (errs : List (Nat × List W16)) (h : Kept fx s) :
    Kept fx (State.addHearthErrors s d errs) := by
  grind [State.addHearthErrors, State.modHearth_kept, forEach_kept]

theorem State.cacheEntry_kept (s : State) (d : Nat) (m : Msg) (h : Kept fx s) :
    Kept fx (State.cacheEntry s d m) := by
  grind [State.cacheEntry]

theorem State.atPort_kept (s : State) (isRead : Bool) (m : Msg) (h : Kept fx s) :
    Kept fx (State.atPort s isRead m) := by
  grind [State.atPort, State.respond_kept, State.sendToPackage_kept]

theorem State.takeMessage_kept (s : State) (port pkg : Nat) (m : Msg) (h : Kept fx s) :
    Kept fx (State.takeMessage s port pkg m) := by
  grind [State.takeMessage, State.modRingPort_kept, State.sendMsg_kept]

theorem State.takePayload_kept (s : State) (port pkg : Nat) (x0 : Nat) (x1 : List Byte) (h : Kept fx s) :
    Kept fx (State.takePayload s port pkg x0 x1) := by
  induction x0 generalizing s x1 with
  | zero => exact h
  | succ n ih => grind [State.takePayload, State.send_kept, State.takeMessage_kept]

theorem State.answerPackage_kept (s : State) (port : Nat) (m : Msg) (h : Kept fx s) :
    Kept fx (State.answerPackage s port m) := by
  grind [State.answerPackage, State.modRingPort_kept, State.sendToPackage_kept]

theorem State.atResponder_kept (s : State) (isRead : Bool) (m : Msg) (errs : List (Nat × List W16)) (h : Kept fx s) :
    Kept fx (State.atResponder s isRead m errs) := by
  grind [State.atResponder, State.addErrors_kept, State.addHearthErrors_kept, State.answer_kept, State.atDmc_kept, State.atPort_kept, State.cacheEntry_kept, State.noteRequest_kept, State.refuseAccess_kept, State.respondAs_kept, State.respond_kept]

theorem read_kept (m : Msg) (errs : List (Nat × List W16)) (s : State) (h : Kept fx s) :
    Kept fx (read m errs s) := by
  grind [read, State.atResponder_kept]

theorem write_kept (m : Msg) (errs : List (Nat × List W16)) (s : State) (h : Kept fx s) :
    Kept fx (write m errs s) := by
  grind [write, State.atResponder_kept]

theorem State.restoreKeyEntry_kept (s : State) (c : Nat) (h : Kept fx s) : Kept fx (s.restoreKeyEntry c) := by
  unfold State.restoreKeyEntry
  split
  · exact h
  · exact forEach_kept _ _ _ h fun _ _ ht => State.dramWrite_kept _ _ _ _ ht

theorem keyUnwrapDone_kept (unit client : Nat) (s : State) (h : Kept fx s) :
    Kept fx (keyUnwrapDone unit client s) := by
  have h0 := State.restoreKeyEntry_kept s client h
  unfold keyUnwrapDone
  generalize s.restoreKeyEntry client = s0 at h0 ⊢
  grind [State.atDmc_kept, State.atPort_kept, forEach_kept]

theorem bellowsHoldEnd_kept (page : Nat) (s : State) (h : Kept fx s) :
    Kept fx (bellowsHoldEnd page s) := by
  grind [bellowsHoldEnd, State.atDmc_kept, forEach_kept]

theorem State.answered_kept (s : State) (m : Msg) (h : Kept fx s) :
    Kept fx (State.answered s m) := by
  grind [State.answered]

theorem State.waitAgain_kept (s : State) (w : Waiting) (m : Msg) (h : Kept fx s) :
    Kept fx (State.waitAgain s w m) := by
  grind [State.waitAgain]

theorem State.readPiece_kept (s : State) (w : Waiting) (a left : Nat) (got : List Byte) (marked : Bool) (h : Kept fx s) :
    Kept fx (State.readPiece s w a left got marked) := by
  grind [State.readPiece, State.sendMsg_kept, State.waitAgain_kept]

theorem readData_kept (m : Msg) (s : State) (h : Kept fx s) :
    Kept fx (readData m s) := by
  grind [readData, State.answerPackage_kept, State.answered_kept, State.readPiece_kept]

theorem State.translationsDone_kept (s : State) (d : Nat) (h : Kept fx s) :
    Kept fx (State.translationsDone s d) := by
  grind [State.translationsDone]

theorem writeAck_kept (m : Msg) (s : State) (h : Kept fx s) :
    Kept fx (writeAck m s) := by
  grind [writeAck, State.answerPackage_kept, State.answered_kept, State.translationsDone_kept]

theorem retry_kept (m : Msg) (s : State) (h : Kept fx s) :
    Kept fx (retry m s) := by
  grind [retry, State.answered_kept, State.bounceRun_kept, State.sendMsg_kept, State.translationsDone_kept, State.waitAgain_kept]

theorem busError_kept (m : Msg) (s : State) (h : Kept fx s) :
    Kept fx (busError m s) := by
  grind [busError, State.answerPackage_kept, State.answered_kept, State.failFinal_kept]

theorem requestReissue_kept (src tag : Nat) (s : State) (h : Kept fx s) :
    Kept fx (requestReissue src tag s) := by
  grind [requestReissue, State.sendMsg_kept, State.waitAgain_kept]

theorem hostReadCompletion_kept (e : Eng) (status : HostStatus) (s : State) (h : Kept fx s) :
    Kept fx (hostReadCompletion e status s) := by
  unfold hostReadCompletion
  repeat' split
  all_goals grind (gen := 30) (splits := 30) (ematch := 30) [State.failEng_kept]

theorem hostCompletionTimeout_kept (e : Eng) (s : State) (h : Kept fx s) :
    Kept fx (hostCompletionTimeout e s) := by
  grind [hostCompletionTimeout, State.failEng_kept]

end Sys2Proof.Machine
end

