-- ==== Sys2Proof/Laws/KeepFaults.lean ====
section
/-! SUPPORT. Every operation of Machine/Faults.lean keeps the canonical form of the memory, the queue, the variant and the grade. -/

namespace Sys2Proof.Machine

open Sys2Proof

variable {fx : Fixed}

theorem State.startOut_kept (s : State) (u : Nat) (h : Kept fx s) :
    Kept fx (State.startOut s u) := by
  grind [State.startOut, State.logEvent_kept, State.modUnit_kept, State.setInService_kept]

theorem State.barGroup_kept (s : State) (g : Nat) (h : Kept fx s) :
    Kept fx (State.barGroup s g) := by
  grind [State.barGroup, State.modDmc_kept]

theorem State.startLinkOut_kept (s : State) (u : Nat) (h : Kept fx s) :
    Kept fx (State.startLinkOut s u) := by
  grind [State.startLinkOut, State.linkDown_kept, State.logEvent_kept, State.modUnit_kept]

theorem State.startEngines_kept (s : State) (d : Nat) (h : Kept fx s) :
    Kept fx (State.startEngines s d) := by
  grind [State.startEngines, State.setInService_kept, forEach_kept]

theorem State.dieMap_kept (s : State) (d : Nat) (pass : W32) (h : Kept fx s) :
    Kept fx (State.dieMap s d pass) := by
  grind [State.dieMap, State.barGroup_kept, State.modDie_kept, State.notePresent_kept, State.setFld_kept, State.startLinkOut_kept, State.startOut_kept, forEach_kept]

theorem dieSelftestDone_kept (die : Nat) (pass : W32) (s : State) (h : Kept fx s) :
    Kept fx (dieSelftestDone die pass s) := by
  grind (gen := 30) (splits := 30) (ematch := 30) [dieSelftestDone, State.dieMap_kept, State.logEvent_kept, State.modDie_kept, State.refreshReady_kept, State.send_kept, State.setFlag_kept, State.setFld_kept, State.setInService_kept, State.startEngines_kept, forEach_kept]

theorem State.noteServing_kept (s : State) (h : Kept fx s) :
    Kept fx (State.noteServing s) := by
  grind [State.noteServing]

theorem State.serveImage_kept (s : State) (h : Kept fx s) :
    Kept fx (State.serveImage s) := by
  grind [State.serveImage, State.noteServing_kept, State.setFld_kept]

theorem State.dieInjected_kept (s : State) (d : Nat) (pass : W32) (h : Kept fx s) :
    Kept fx (State.dieInjected s d pass) := by
  grind [State.dieInjected, State.closeGate_kept, State.dieMap_kept, State.killForTakeOut_kept, State.logEvent_kept]

theorem injectionDone_kept (hub : W32) (dies : List W32) (s : State) (h : Kept fx s) :
    Kept fx (injectionDone hub dies s) := by
  grind (gen := 30) (splits := 30) (ematch := 30) [injectionDone, State.barGroup_kept, State.dieInjected_kept, State.dieMap_kept, State.serveImage_kept, State.setFlag_kept, State.setFld_kept, State.startLinkOut_kept, State.startOut_kept, forEach_kept]

theorem islandFailure_kept (die : Nat) (s : State) (h : Kept fx s) :
    Kept fx (islandFailure die s) := by
  grind (gen := 30) (splits := 30) (ematch := 30) [islandFailure, State.abandonMove_kept, State.linkDown_kept, State.logEvent_kept, State.modDie_kept, State.notePresent_kept, State.refreshReady_kept, State.setFlag_kept, State.setFld_kept, State.takeOutDie_kept, forEach_kept]

theorem engineRetest_kept (unit : Nat) (pass : Bool) (s : State) (h : Kept fx s) :
    Kept fx (engineRetest unit pass s) := by
  grind [engineRetest, State.advanceEpoch_kept, State.logEvent_kept, State.modUnit_kept, State.refreshReady_kept, State.setInService_kept, wait_kept]

theorem logMergeFlush_kept (unit detail : Nat) (s : State) (h : Kept fx s) :
    Kept fx (logMergeFlush unit detail s) := by
  grind [logMergeFlush, State.count_kept, State.writeLog_kept, State.writeMerge_kept]

theorem escalatePulseEnd_kept (s : State) (h : Kept fx s) :
    Kept fx (escalatePulseEnd s) := by
  grind [escalatePulseEnd, State.setFlag_kept]

theorem State.failOver_kept (s : State) (h : Kept fx s) :
    Kept fx (State.failOver s) := by
  grind [State.failOver, State.advanceEpoch_kept, State.checkBudgets_kept, State.damp_kept, State.logEvent_kept, State.setFlag_kept, State.setFld_kept]

theorem failover_kept (s : State) (h : Kept fx s) :
    Kept fx (failover s) := by
  grind [failover, State.failOver_kept]

theorem State.standbyOut_kept (s : State) (h : Kept fx s) :
    Kept fx (State.standbyOut s) := by
  grind [State.standbyOut, State.logEvent_kept, State.setFlag_kept]

theorem State.coreTested_kept (s : State) (pass : Bool) (h : Kept fx s) :
    Kept fx (State.coreTested s pass) := by
  grind [State.coreTested, State.setFlag_kept]

theorem failoverStandbyTestDone_kept (pass : Bool) (s : State) (h : Kept fx s) :
    Kept fx (failoverStandbyTestDone pass s) := by
  grind [failoverStandbyTestDone, State.coreTested_kept]

theorem standbyLockstepMismatch_kept (s : State) (h : Kept fx s) :
    Kept fx (standbyLockstepMismatch s) := by
  grind [standbyLockstepMismatch, State.standbyOut_kept]

theorem standbyTestDone_kept (pass : Bool) (s : State) (h : Kept fx s) :
    Kept fx (standbyTestDone pass s) := by
  grind [standbyTestDone, State.coreTested_kept]

theorem supervisorHeartbeat_kept (core : Nat) (received : Bool) (s : State) (h : Kept fx s) :
    Kept fx (supervisorHeartbeat core received s) := by
  grind [supervisorHeartbeat, State.damp_kept, State.failOver_kept, State.standbyOut_kept]

theorem State.watchShift_kept (s : State) (h : Kept fx s) :
    Kept fx (State.watchShift s) := by
  grind [State.watchShift, State.send_kept]

theorem State.watchSet_kept (s : State) (b0 data : Nat) (h : Kept fx s) :
    Kept fx (State.watchSet s b0 data) := by
  grind [State.watchSet]

theorem State.watchError_kept (s : State) (b0 : Nat) (h : Kept fx s) :
    Kept fx (State.watchError s b0) := by
  grind [State.watchError, State.drawWord_kept, State.watchSet_kept]

theorem watchStatus_kept (_data : Nat) (s : State) (h : Kept fx s) :
    Kept fx (watchStatus _data s) := by
  grind [watchStatus, State.watchSet_kept, State.watchShift_kept]

theorem watchCause_kept (_data : Nat) (s : State) (h : Kept fx s) :
    Kept fx (watchCause _data s) := by
  grind [watchCause, State.watchSet_kept, State.watchShift_kept]

theorem watchKick_kept (data : Nat) (s : State) (h : Kept fx s) :
    Kept fx (watchKick data s) := by
  grind [watchKick, State.watchError_kept, State.watchSet_kept, State.watchShift_kept]

theorem watchSafe_kept (data : Nat) (s : State) (h : Kept fx s) :
    Kept fx (watchSafe data s) := by
  grind [watchSafe, State.damp_kept, State.watchError_kept, State.watchSet_kept, State.watchShift_kept]

theorem watchFrameReject_kept (s : State) (h : Kept fx s) :
    Kept fx (watchFrameReject s) := by
  grind [watchFrameReject, State.addFld_kept, State.logCorrected_kept, State.logRecorded_kept, State.watchError_kept, State.watchShift_kept]

theorem watchUnknownCommand_kept (command : Nat) (s : State) (h : Kept fx s) :
    Kept fx (watchUnknownCommand command s) := by
  grind [watchUnknownCommand, State.watchError_kept, State.watchShift_kept]

theorem watchTimeout_kept (s : State) (h : Kept fx s) :
    Kept fx (watchTimeout s) := by
  grind [watchTimeout, State.damp_kept]

end Sys2Proof.Machine
end

