-- ==== Sys2Proof/Laws/KeepCameras.lean ====
section
/-! SUPPORT. Every operation of Machine/Cameras.lean keeps the canonical form of the memory, the queue, the variant and the grade. -/

namespace Sys2Proof.Machine

open Sys2Proof

variable {fx : Fixed}

theorem State.modPort_kept (s : State) (p : Nat) (f : CamPort → CamPort) (h : Kept fx s) :
    Kept fx (State.modPort s p f) := by
  grind [State.modPort]

theorem State.refreshTable_kept (s : State) (p : Nat) (h : Kept fx s) :
    Kept fx (State.refreshTable s p) := by
  grind [State.refreshTable, State.modPort_kept]

theorem camPortEnable_kept (port : Nat) (value : W32) (s : State) (h : Kept fx s) :
    Kept fx (camPortEnable port value s) := by
  grind [camPortEnable, State.refreshTable_kept, State.setFlag_kept, State.setReg_kept]

theorem camChannelEnable_kept (channel : Nat) (value : W32) (s : State) (h : Kept fx s) :
    Kept fx (camChannelEnable channel value s) := by
  grind [camChannelEnable, State.breakResleep_kept, State.modChan_kept, State.setFlag_kept, State.setFld_kept, State.setReg_kept]

theorem camChannelDisable_kept (channel : Nat) (value : W32) (s : State) (h : Kept fx s) :
    Kept fx (camChannelDisable channel value s) := by
  grind [camChannelDisable, State.setFlag_kept, State.setReg_kept, State.stopChannel_kept]

theorem State.dropFrame_kept (s : State) (c : Nat) (h : Kept fx s) :
    Kept fx (State.dropFrame s c) := by
  grind [State.dropFrame, State.addFld_kept, State.modChan_kept, State.setFlag_kept]

theorem State.takeBuffer_kept (s : State) (c : Nat) (h : Kept fx s) :
    Kept fx (State.takeBuffer s c).1 := by
  grind [State.takeBuffer, State.dropFrame_kept, State.fetchHub_kept, State.modChan_kept]

theorem State.tuneReads_kept (s : State) (c : Nat) (h : Kept fx s) :
    Kept fx (State.tuneReads s c) := by
  grind [State.tuneReads, State.fetchHub_kept]

theorem State.writeFrame_kept (s : State) (c : Nat) (f : CamFrame) (h : Kept fx s) :
    Kept fx (State.writeFrame s c f).1 := by
  grind [State.writeFrame, State.devWrite_kept, State.modChan_kept]

theorem State.closeFrame_kept (s : State) (c : Nat) (h : Kept fx s) :
    Kept fx (State.closeFrame s c) := by
  grind [State.closeFrame, State.devWrite_kept, State.modChan_kept, State.writeFrame_kept]

theorem State.closeIfDone_kept (s : State) (c : Nat) (h : Kept fx s) :
    Kept fx (State.closeIfDone s c) := by
  grind [State.closeIfDone, State.closeFrame_kept]

theorem State.rawRoom_kept (s : State) (c : Nat) (h : Kept fx s) :
    Kept fx (State.rawRoom s c) := by
  grind [State.rawRoom, State.dropFrame_kept, State.modChan_kept]

theorem State.openFrame_kept (s : State) (c l frameNo : Nat) (h : Kept fx s) :
    Kept fx (State.openFrame s c l frameNo) := by
  grind [State.openFrame, State.modChan_kept, State.rawRoom_kept, State.takeBuffer_kept, State.tuneReads_kept]

theorem State.frameStart_kept (s : State) (c l frameNo : Nat) (h : Kept fx s) :
    Kept fx (State.frameStart s c l frameNo) := by
  grind [State.frameStart, State.closeFrame_kept, State.modChan_kept, State.openFrame_kept]

theorem State.watchLine_kept (s : State) (p vc dt : Nat) (payload : List Byte) (h : Kept fx s) :
    Kept fx (State.watchLine s p vc dt payload) := by
  grind [State.watchLine]

theorem State.watchFrame_kept (s : State) (p vc : Nat) (h : Kept fx s) :
    Kept fx (State.watchFrame s p vc) := by
  grind [State.watchFrame]

theorem State.discardPacket_kept (s : State) (p : Nat) (h : Kept fx s) :
    Kept fx (State.discardPacket s p) := by
  grind [State.discardPacket, State.addFld_kept]

theorem State.flagStream_kept (s : State) (p vc i : Nat) (h : Kept fx s) :
    Kept fx (State.flagStream s p vc i) := by
  grind [State.flagStream, State.modChan_kept, forEach_kept]

theorem State.losePacket_kept (s : State) (p vc : Nat) (f : Fld) (h : Kept fx s) :
    Kept fx (State.losePacket s p vc f) := by
  grind [State.losePacket, State.discardPacket_kept, State.flagStream_kept, State.logRecorded_kept, State.setFlag_kept]

theorem State.eccPacket_kept (s : State) (p : Nat) (h : Kept fx s) :
    Kept fx (State.eccPacket s p) := by
  grind [State.eccPacket, State.logCorrected_kept, State.setFlag_kept]

theorem State.shortHeader_kept (s : State) (p vc : Nat) (err : PacketError) (use : State → State) (hf : ∀ t, Kept fx t → Kept fx (use t)) (h : Kept fx s) :
    Kept fx (State.shortHeader s p vc err use) := by
  cases err <;> grind [State.shortHeader, State.eccPacket_kept, State.losePacket_kept]

theorem frameStartPacket_kept (port vc frameNo : Nat) (err : PacketError) (s0 : State) (h : Kept fx s0) :
    Kept fx (frameStartPacket port vc frameNo err s0) := by
  grind [frameStartPacket, State.flagStream_kept, State.frameStart_kept, State.modPort_kept, State.refreshTable_kept, State.shortHeader_kept, State.watchFrame_kept, forEach_kept]

theorem State.frameEnd_kept (s : State) (c l : Nat) (h : Kept fx s) :
    Kept fx (State.frameEnd s c l) := by
  grind [State.frameEnd, State.closeIfDone_kept, State.modChan_kept]

theorem frameEndPacket_kept (port vc : Nat) (err : PacketError) (s : State) (h : Kept fx s) :
    Kept fx (frameEndPacket port vc err s) := by
  grind [frameEndPacket, State.flagStream_kept, State.frameEnd_kept, State.modPort_kept, State.shortHeader_kept, forEach_kept]

theorem State.addLine_kept (s : State) (p c l dt : Nat) (payload : List Byte) (bad : Bool) (f : CamFrame) (h : Kept fx s) :
    Kept fx (State.addLine s p c l dt payload bad f) := by
  grind [State.addLine, State.closeIfDone_kept, State.discardPacket_kept, State.modChan_kept]

theorem State.addEmbedded_kept (s : State) (c : Nat) (payload : List Byte) (f : CamFrame) (h : Kept fx s) :
    Kept fx (State.addEmbedded s c payload f) := by
  grind [State.addEmbedded, State.modChan_kept]

theorem State.routePacket_kept (s : State) (p vc dt : Nat) (payload : List Byte) (err : PacketError) (h : Kept fx s) :
    Kept fx (State.routePacket s p vc dt payload err) := by
  grind (gen := 30) (splits := 30) (ematch := 30) [State.routePacket, State.addEmbedded_kept, State.addLine_kept, State.discardPacket_kept, State.logRecorded_kept, State.setFlag_kept]

theorem longPacket_kept (port vc dt : Nat) (payload : List Byte) (err : PacketError) (s00 : State) (h : Kept fx s00) :
    Kept fx (longPacket port vc dt payload err s00) := by
  grind (gen := 30) (splits := 30) (ematch := 30) [longPacket, State.addFld_kept, State.discardPacket_kept, State.eccPacket_kept, State.flagStream_kept, State.logCorrected_kept, State.logRecorded_kept, State.losePacket_kept, State.modPort_kept, State.routePacket_kept, State.setFlag_kept, State.watchLine_kept]

theorem shortPacket_kept (port vc dt : Nat) (err : PacketError) (s : State) (h : Kept fx s) :
    Kept fx (shortPacket port vc dt err s) := by
  grind [shortPacket, State.discardPacket_kept, State.flagStream_kept, State.logCorrected_kept, State.logRecorded_kept, State.modPort_kept, State.setFlag_kept, State.shortHeader_kept]

theorem routeTableRefresh_kept (port : Nat) (s : State) (h : Kept fx s) :
    Kept fx (routeTableRefresh port s) := by
  grind [routeTableRefresh, State.refreshTable_kept]

theorem frameTimeout_kept (channel : Nat) (s : State) (h : Kept fx s) :
    Kept fx (frameTimeout channel s) := by
  grind [frameTimeout, State.closeFrame_kept]

theorem frameRecordWrite_kept (channel : Nat) (s : State) (h : Kept fx s) :
    Kept fx (frameRecordWrite channel s) := by
  grind [frameRecordWrite, State.devWrite_kept, State.modChan_kept, State.msix_kept, State.setFlag_kept]

theorem State.rawReads_kept (s : State) (c : Nat) (f : CamFrame) (h : Kept fx s) :
    Kept fx (State.rawReads s c f) := by
  grind [State.rawReads, State.fetchHub_kept]

theorem m2mLaneStart_kept (lane : Nat) (s : State) (h : Kept fx s) :
    Kept fx (m2mLaneStart lane s) := by
  grind [m2mLaneStart, State.modChan_kept, State.rawReads_kept, State.takeBuffer_kept]

theorem m2mLaneDone_kept (lane : Nat) (s : State) (h : Kept fx s) :
    Kept fx (m2mLaneDone lane s) := by
  grind [m2mLaneDone, State.modChan_kept, State.rawReads_kept, State.writeFrame_kept]

end Sys2Proof.Machine
end

