-- ==== Sys2Proof/Laws/KeepAudio.lean ====
section
/-! SUPPORT. Every operation of Machine/Audio.lean keeps the canonical form of the memory, the queue, the variant and the grade. -/

namespace Sys2Proof.Machine

open Sys2Proof

variable {fx : Fixed}

theorem State.applyModes_kept (s : State) (h : Kept fx s) :
    Kept fx (State.applyModes s) := by
  grind [State.applyModes]

theorem State.beamSample_kept (s : State) (mics : List Int) (b : Nat) (rate48 : Bool) (h : Kept fx s) :
    Kept fx (State.beamSample s mics b rate48).1 := by
  grind [State.beamSample, State.drawWord_kept]

theorem State.applyBeams_kept (s : State) (h : Kept fx s) :
    Kept fx (State.applyBeams s) := by
  grind [State.applyBeams]

theorem State.adcSample_kept (s : State) (i : Nat) (raw : Int) (h : Kept fx s) :
    Kept fx (State.adcSample s i raw).1 := by
  grind [State.adcSample, State.drawWord_kept, State.finish_kept]

theorem rangeRequest_kept (input : Nat) (value : W32) (s : State) (h : Kept fx s) :
    Kept fx (rangeRequest input value s) := by
  grind [rangeRequest, State.setFlag_kept, State.setReg_kept]

theorem tdmPlaybackTick_kept (s : State) (h : Kept fx s) :
    Kept fx (tdmPlaybackTick s) := by
  grind [tdmPlaybackTick, State.addFld_kept, State.fetchHub_kept, State.send_kept]

theorem State.sourceSample_kept (s : State) (mics tdmIn : List Int) (adcs : List Sample) (source : Nat) (rate48 : Bool) (h : Kept fx s) :
    Kept fx (State.sourceSample s mics tdmIn adcs source rate48).1 := by
  grind [State.sourceSample, State.beamSample_kept]

theorem State.recordEntry_kept (s : State) (mics tdmIn : List Int) (adcs : List Sample) (e : Nat) (h : Kept fx s) :
    Kept fx (State.recordEntry s mics tdmIn adcs e) := by
  grind [State.recordEntry, State.setFlag_kept, State.sourceSample_kept]

theorem sampleTick_kept (mics analog tdmIn : List Int) (s : State) (h : Kept fx s) :
    Kept fx (sampleTick mics analog tdmIn s) := by
  grind [sampleTick, State.adcSample_kept, State.applyBeams_kept, State.applyModes_kept, State.recordEntry_kept, forEach_kept]

theorem audEnable_kept (value : W32) (s : State) (h : Kept fx s) :
    Kept fx (audEnable value s) := by
  grind [audEnable, State.setFlag_kept, State.setReg_kept]

theorem audLatch_kept (s : State) (h : Kept fx s) :
    Kept fx (audLatch s) := by
  grind [audLatch, State.setReg_kept]

theorem State.wakeUp_kept (s : State) (cause : Nat) (h : Kept fx s) :
    Kept fx (State.wakeUp s cause) := by
  grind [State.wakeUp, State.setFld_kept]

end Sys2Proof.Machine
end

