-- ==== Sys2Proof/Laws/KeepWakeRun.lean ====
section
/-! SUPPORT. A run of a wake image's program keeps the canonical form of the memory, the queue, the variant and the grade. -/

namespace Sys2Proof.Machine

open Sys2Proof

variable {fx : Fixed}

theorem State.afterImage_kept (s t : State) (kindling : Bool) (h : Kept fx s) : Kept fx (State.afterImage s t kindling) := by
  grind [State.afterImage]

end Sys2Proof.Machine
end

