-- ==== Sys2Proof/Laws/KeepWake.lean ====
section
/-! SUPPORT. Every operation of Machine/Wake.lean keeps the canonical form of the memory, the queue, the variant and the grade. -/

namespace Sys2Proof.Machine

open Sys2Proof

variable {fx : Fixed}

theorem State.modWake_kept (s : State) (f : Wake → Wake) (h : Kept fx s) :
    Kept fx (State.modWake s f) := by
  grind [State.modWake]

theorem State.setStage_kept (s : State) (n : Nat) (h : Kept fx s) :
    Kept fx (State.setStage s n) := by
  grind [State.setStage, State.breakResleep_kept, State.modWake_kept, State.packet_kept, State.setFld_kept]

theorem State.wakeRecord_kept (s : State) (event : Nat) (h : Kept fx s) :
    Kept fx (State.wakeRecord s event) := by
  grind [State.wakeRecord, State.devWrite_kept, State.modWake_kept, State.msix_kept, State.noteWakeOut_kept]

theorem State.openRing_kept (s : State) (start : Nat) (h : Kept fx s) :
    Kept fx (State.openRing s start) := by
  grind [State.openRing, State.modWake_kept, State.setFlag_kept]

theorem State.closeRing_kept (s : State) (h : Kept fx s) :
    Kept fx (State.closeRing s) := by
  grind [State.closeRing, State.setFlag_kept]

theorem captureFrame_kept (s : State) (h : Kept fx s) :
    Kept fx (captureFrame s) := by
  grind [captureFrame, State.devWrite_kept, State.fetchHub_kept, State.modWake_kept]

theorem State.accept_kept (s : State) (start : Nat) (h : Kept fx s) :
    Kept fx (State.accept s start) := by
  grind [State.accept, State.openRing_kept, State.setStage_kept]

theorem State.decline_kept (s : State) (h : Kept fx s) :
    Kept fx (State.decline s) := by
  grind [State.decline, State.addFld_kept, State.closeRing_kept, State.modWake_kept, State.setStage_kept]

theorem State.closeBlaze_kept (s : State) (h : Kept fx s) :
    Kept fx (State.closeBlaze s) := by
  grind [State.closeBlaze, State.closeRing_kept, State.setStage_kept]

theorem State.openBlaze_kept (s : State) (start : Nat) (h : Kept fx s) :
    Kept fx (State.openBlaze s start) := by
  grind [State.openBlaze, State.openRing_kept, State.setStage_kept]

theorem acceptReply_kept (startIndex : Nat) (s : State) (h : Kept fx s) :
    Kept fx (acceptReply startIndex s) := by
  grind [acceptReply, State.accept_kept]

theorem declineReply_kept (s : State) (h : Kept fx s) :
    Kept fx (declineReply s) := by
  grind [declineReply, State.decline_kept]

theorem closeCapture_kept (s : State) (h : Kept fx s) :
    Kept fx (closeCapture s) := by
  grind [closeCapture, State.closeBlaze_kept]

theorem openCapture_kept (startIndex : Nat) (s : State) (h : Kept fx s) :
    Kept fx (openCapture startIndex s) := by
  grind [openCapture, State.openBlaze_kept]

theorem State.readControl_kept (s : State) (h : Kept fx s) :
    Kept fx (State.readControl s) := by
  grind [State.readControl, State.accept_kept, State.closeBlaze_kept, State.decline_kept, State.fetchHub_kept, State.modWake_kept, State.openBlaze_kept]

theorem wakeRingNudge_kept (word : W32) (s : State) (h : Kept fx s) :
    Kept fx (wakeRingNudge word s) := by
  grind [wakeRingNudge, State.readControl_kept]

theorem controlWordPoll_kept (s : State) (h : Kept fx s) :
    Kept fx (controlWordPoll s) := by
  grind [controlWordPoll, State.readControl_kept]

theorem State.forceMute_kept (s : State) (h : Kept fx s) :
    Kept fx (State.forceMute s) := by
  grind [State.forceMute, State.closeRing_kept, State.lightChannel_kept, State.modWake_kept, State.setFlag_kept, State.setStage_kept, State.wakeRecord_kept]

theorem mutePinFall_kept (s : State) (h : Kept fx s) :
    Kept fx (mutePinFall s) := by
  grind [mutePinFall, State.forceMute_kept, State.setFlag_kept]

theorem muteWrite_kept (value : W32) (s : State) (h : Kept fx s) :
    Kept fx (muteWrite value s) := by
  grind [muteWrite, State.forceMute_kept, State.setFlag_kept]

theorem muteRelease_kept (s : State) (h : Kept fx s) :
    Kept fx (muteRelease s) := by
  have h1 := State.setFlag_kept s Fld.AUD_MUTE_pin_muted false h
  have h2 := State.endMuteLight_kept _ (State.setFlag_kept _ Fld.AUD_MUTE_muted false h1)
  unfold muteRelease
  generalize s.setFlag Fld.AUD_MUTE_pin_muted false = s1 at h1 h2 ⊢
  grind [State.breakResleep_kept, State.modWake_kept, State.setFlag_kept, State.wakeRecord_kept]

theorem micVddLimitExpire_kept (s : State) (h : Kept fx s) :
    Kept fx (micVddLimitExpire s) := by
  grind [micVddLimitExpire, State.logCorrected_kept, State.logRecorded_kept, State.setFlag_kept]

theorem micVddRetry_kept (s : State) (h : Kept fx s) :
    Kept fx (micVddRetry s) := by
  grind [micVddRetry]

theorem State.detected_kept (s : State) (kind index : Nat) (h : Kept fx s) :
    Kept fx (State.detected s kind index) := by
  grind [State.detected, State.addFld_kept, State.modWake_kept, State.setStage_kept, State.wakeUp_kept]

theorem State.keywords_kept (s : State) (logits : List W32) (h : Kept fx s) :
    Kept fx (State.keywords s logits) := by
  grind [State.keywords, State.detected_kept, State.modWake_kept]

theorem tinderHop_kept (ended : Bool) (s : State) (h : Kept fx s) :
    Kept fx (tinderHop ended s) := by
  grind (gen := 30) (splits := 30) (ematch := 30) [tinderHop, State.addFld_kept, State.afterImage_kept, State.detected_kept, State.keywords_kept, State.modWake_kept]

theorem presenceFrame_kept (s : State) (h : Kept fx s) :
    Kept fx (presenceFrame s) := by
  grind [presenceFrame, State.detected_kept, State.modWake_kept]

theorem kindlingStart_kept (s : State) (h : Kept fx s) :
    Kept fx (kindlingStart s) := by
  grind [kindlingStart, State.modWake_kept, State.preempt_kept]

theorem State.runKindling_kept (s : State) (img : List Byte) (k from_ : Nat) (h : Kept fx s) :
    Kept fx (State.runKindling s img k from_).1 := by
  grind [State.runKindling, State.afterImage_kept, State.modWake_kept]

theorem confirmDecision_kept (s : State) (h : Kept fx s) :
    Kept fx (confirmDecision s) := by
  grind (gen := 30) (splits := 30) (ematch := 30) [confirmDecision, State.addFld_kept, State.modWake_kept, State.runKindling_kept, State.setStage_kept, State.wakeRecord_kept]

theorem kindlingEncoderHop_kept (s : State) (h : Kept fx s) :
    Kept fx (kindlingEncoderHop s) := by
  grind [kindlingEncoderHop, State.devWrite_kept, State.modWake_kept, State.runKindling_kept]

theorem confirmTimeout_kept (s : State) (h : Kept fx s) :
    Kept fx (confirmTimeout s) := by
  grind [confirmTimeout, State.addFld_kept, State.setStage_kept]

theorem replyTimeout_kept (s : State) (h : Kept fx s) :
    Kept fx (replyTimeout s) := by
  grind [replyTimeout, State.addFld_kept, State.modWake_kept, State.setStage_kept, State.wakeRecord_kept]

theorem State.loadImage_kept (s : State) (target : Nat) (h : Kept fx s) :
    Kept fx (State.loadImage s target) := by
  grind [State.loadImage, State.modWake_kept, State.setFlag_kept, State.setFld_kept]

theorem loadTinder_kept (s : State) (h : Kept fx s) :
    Kept fx (loadTinder s) := by
  grind [loadTinder, State.loadImage_kept]

theorem loadKindling_kept (s : State) (h : Kept fx s) :
    Kept fx (loadKindling s) := by
  grind [loadKindling, State.loadImage_kept]

theorem imageLoadDone_kept (s : State) (h : Kept fx s) :
    Kept fx (imageLoadDone s) := by
  grind (gen := 30) (splits := 30) (ematch := 30) [imageLoadDone, State.fetchHub_kept, State.modWake_kept, State.setFlag_kept, State.setFld_kept]

end Sys2Proof.Machine
end

