-- ==== Sys2Proof/Laws/KeepBoot.lean ====
section
/-! SUPPORT. Every operation of Machine/Boot.lean keeps the canonical form of the memory, the queue, the variant and the grade. -/

namespace Sys2Proof.Machine

open Sys2Proof

variable {fx : Fixed}

theorem State.modKeys_kept (s : State) (f : Keys → Keys) (h : Kept fx s) :
    Kept fx (State.modKeys s f) := by
  grind [State.modKeys]

theorem State.runImage_kept (s : State) (c : Image) (h : Kept fx s) :
    Kept fx (State.runImage s c) := by
  grind [State.runImage, State.modKeys_kept]

theorem State.runSlot_kept (s : State) (slot : Nat) (h : Kept fx s) :
    Kept fx (State.runSlot s slot) := by
  grind [State.runSlot, State.runImage_kept, State.setFlag_kept, State.setFld_kept]

theorem State.waitHost_kept (s : State) (h : Kept fx s) :
    Kept fx (State.waitHost s) := by
  grind [State.waitHost, State.modKeys_kept]

theorem State.boot_kept (s : State) (bootSel : Nat) (slotA slotB : Option Image) (h : Kept fx s) :
    Kept fx (State.boot s bootSel slotA slotB) := by
  grind [State.boot, State.modKeys_kept, State.runSlot_kept, State.setFlag_kept, State.setFld_kept, State.waitHost_kept]

theorem bootServingTimeout_kept (s : State) (h : Kept fx s) :
    Kept fx (bootServingTimeout s) := by
  grind [bootServingTimeout, State.modKeys_kept, State.runSlot_kept]

theorem fwStage_kept (s : State) (h : Kept fx s) :
    Kept fx (fwStage s) := by
  grind [fwStage, State.modKeys_kept, State.setFld_kept]

theorem fwStageDone_kept (digestOk signatureOk : Bool) (s : State) (h : Kept fx s) :
    Kept fx (fwStageDone digestOk signatureOk s) := by
  grind [fwStageDone, State.modKeys_kept, State.runImage_kept, State.serveImage_kept, State.setFld_kept]

theorem fwActivate_kept (s : State) (h : Kept fx s) :
    Kept fx (fwActivate s) := by
  grind [fwActivate, State.modKeys_kept]

theorem fwDieUpdate_kept (die : Nat) (s : State) (h : Kept fx s) :
    Kept fx (fwDieUpdate die s) := by
  grind [fwDieUpdate, State.closeGate_kept, State.modKeys_kept, State.setFlag_kept, State.setFld_kept]

end Sys2Proof.Machine
end

