-- ==== Sys2Proof/Laws/KeepLedger.lean ====
section
/-! SUPPORT. Every operation of Machine/Ledger.lean keeps the canonical form of the memory, the queue, the variant and the grade. -/

namespace Sys2Proof.Machine

open Sys2Proof

variable {fx : Fixed}

theorem State.checkEntry_kept (s : State) (k : Nat) (h : Kept fx s) :
    Kept fx (State.checkEntry s k) := by
  grind [State.checkEntry, State.dampAt_kept, State.logCorrected_kept, State.setFlag_kept]

theorem State.checkLedger_kept (s : State) (h : Kept fx s) :
    Kept fx (State.checkLedger s) := by
  grind [State.checkLedger, State.checkEntry_kept, forEach_kept]

theorem State.ledgerFault_kept (s : State) (k : Nat) (err : List Byte) (h : Kept fx s) :
    Kept fx (State.ledgerFault s k err) := by
  grind [State.ledgerFault, State.checkEntry_kept]

end Sys2Proof.Machine
end

