-- ==== Sys2Proof/Laws/KeepPower.lean ====
section
/-! SUPPORT. Every operation of Machine/Power.lean keeps the canonical form of the memory, the queue, the variant and the grade. -/

namespace Sys2Proof.Machine

open Sys2Proof

variable {fx : Fixed}

theorem State.modPower_kept (s : State) (f : Power → Power) (h : Kept fx s) :
    Kept fx (State.modPower s f) := by
  grind [State.modPower]

theorem State.resetHub_kept (s : State) (deep : Bool) (h : Kept fx s) :
    Kept fx (State.resetHub s deep) := by
  grind [State.resetHub, State.resetRegs_kept, State.setFld_kept, forEach_kept]

theorem State.dropLinks_kept (s : State) (h : Kept fx s) :
    Kept fx (State.dropLinks s) := by
  grind (gen := 30) (splits := 30) (ematch := 30) [State.dropLinks, State.advanceEpoch_kept, State.modUnit_kept, State.setFlag_kept, State.setFld_kept, State.syncTopo_kept, forEach_kept]

theorem State.dropPorts_kept (s : State) (h : Kept fx s) :
    Kept fx (State.dropPorts s) := by
  grind [State.dropPorts, State.setFlag_kept, State.setReg_kept, forEach_kept]

theorem State.endMoves_kept (s : State) (h : Kept fx s) :
    Kept fx (State.endMoves s) := by
  grind [State.endMoves, State.cutMove_kept, forEach_kept]

theorem State.restDie_kept (s : State) (d : Nat) (h : Kept fx s) :
    Kept fx (State.restDie s d) := by
  grind [State.restDie, State.modDie_kept]

theorem State.dropPages_kept (s : State) (h : Kept fx s) :
    Kept fx (State.dropPages s) := by
  grind [State.dropPages, State.modPage_kept, State.setFld_kept, forEach_kept]

theorem State.loseGroup_kept (s : State) (g : Nat) (h : Kept fx s) : Kept fx (State.loseGroup s g) :=
  KeptOf.filter _ h

theorem State.sleepIsland_kept (s : State) (d : Nat) (h : Kept fx s) :
    Kept fx (State.sleepIsland s d) := by
  grind [State.sleepIsland, State.resetRegs_kept, State.setFld_kept, forEach_kept]

theorem State.sleepDie_kept (s : State) (d : Nat) (deep : Bool) (h : Kept fx s) :
    Kept fx (State.sleepDie s d deep) := by
  grind (gen := 30) (splits := 30) (ematch := 30) [State.sleepDie, State.closeGate_kept, State.modHearth_kept, State.restDie_kept, State.setFlag_kept, State.setReg_kept, State.sleepIsland_kept, forEach_kept, KeptOf.write, KeptOf.clear, KeptOf.filter]

theorem State.goDown_kept (s : State) (deep : Bool) (h : Kept fx s) :
    Kept fx (State.goDown s deep) := by
  grind (gen := 30) (splits := 30) (ematch := 30) [State.goDown, State.dropLinks_kept, State.dropPorts_kept, State.endMoves_kept, State.modPower_kept, State.setFlag_kept, State.setFld_kept, State.sleepDie_kept, forEach_kept]

theorem State.enterSleep_kept (s : State) (h : Kept fx s) :
    Kept fx (State.enterSleep s) := by
  grind [State.enterSleep, State.dropPages_kept, State.endMoves_kept, State.flushGroup_kept, State.goDown_kept, State.loseGroup_kept, forEach_kept]

theorem State.enterDeep_kept (s : State) (h : Kept fx s) :
    Kept fx (State.enterDeep s) := by
  grind [State.enterDeep, State.goDown_kept, State.loseGroup_kept, State.setFlag_kept, State.writeAcct_kept, forEach_kept]

theorem State.fresh_kept (s : State) (vin : Bool) (phase : PowerPhase) (h : Kept fx s) :
    Kept fx (State.fresh s vin phase) := by
  grind [State.fresh, KeptOf.clear, KeptOf.filter, KeptOf.write, State.setFlag_kept, State.setFld_kept, State.setReg_kept, forEach_kept]

theorem State.enterOff_kept (s : State) (h : Kept fx s) :
    Kept fx (State.enterOff s) := by
  grind [State.enterOff, State.fresh_kept]

theorem State.enterState_kept (s : State) (target : Nat) (h : Kept fx s) :
    Kept fx (State.enterState s target) := by
  grind [State.enterState, State.enterDeep_kept, State.enterOff_kept, State.enterSleep_kept]

theorem State.refuseEntry_kept (s : State) (e : Nat) (h : Kept fx s) :
    Kept fx (State.refuseEntry s e) := by
  grind [State.refuseEntry, State.modPower_kept, State.setFlag_kept, State.setFld_kept]

theorem powerEntryCheck_kept (s : State) (h : Kept fx s) :
    Kept fx (powerEntryCheck s) := by
  grind [powerEntryCheck, State.enterState_kept, State.modPower_kept, State.refuseEntry_kept]

theorem entryHandshakeTimeout_kept (s : State) (h : Kept fx s) :
    Kept fx (entryHandshakeTimeout s) := by
  grind [entryHandshakeTimeout, State.refuseEntry_kept]

theorem wakePin_kept (s : State) (h : Kept fx s) :
    Kept fx (wakePin s) := by
  grind [wakePin, State.wakeUp_kept]

theorem rtcAlarm_kept (s : State) (h : Kept fx s) :
    Kept fx (rtcAlarm s) := by
  grind [rtcAlarm, State.modPower_kept, State.noteWakeOut_kept, State.setFlag_kept, State.wakeUp_kept]

theorem State.lowestPoints_kept (s : State) (h : Kept fx s) :
    Kept fx (State.lowestPoints s) := by
  grind [State.lowestPoints, State.setFld_kept, forEach_kept]

theorem regulatorReady_kept (s : State) (h : Kept fx s) :
    Kept fx (regulatorReady s) := by
  grind [regulatorReady, State.lowestPoints_kept, State.modPower_kept]

theorem oscillatorReady_kept (s : State) (h : Kept fx s) :
    Kept fx (oscillatorReady s) := by
  grind [oscillatorReady, State.modPower_kept, KeptOf.write, KeptOf.clear, KeptOf.filter]

theorem memoryReady_kept (s : State) (h : Kept fx s) :
    Kept fx (memoryReady s) := by
  grind [memoryReady, State.modDie_kept, State.modPower_kept, State.setFlag_kept, forEach_kept, KeptOf.write, KeptOf.clear, KeptOf.filter]

theorem State.newKeys_kept (s : State) (h : Kept fx s) :
    Kept fx (State.newKeys s) := by
  grind (gen := 30) (splits := 30) (ematch := 30) [State.newKeys, State.modKeys_kept, State.newKey_kept, State.newMemoryKey_kept, State.setFlag_kept, forEach_kept]

theorem State.raiseDie_kept (s : State) (d : Nat) (h : Kept fx s) :
    Kept fx (State.raiseDie s d) := by
  grind [State.raiseDie, State.modDie_kept, State.notePresent_kept, State.setFlag_kept, State.setFld_kept]

theorem State.startLaps_kept (s : State) (h : Kept fx s) :
    Kept fx (State.startLaps s) := by
  grind [State.startLaps]

theorem State.zeroClients_kept (s : State) (h : Kept fx s) :
    Kept fx (State.zeroClients s) := by
  grind [State.zeroClients]

theorem State.relightMute_kept (s : State) (h : Kept fx s) :
    Kept fx (State.relightMute s) := by
  grind [State.relightMute, State.lightChannel_kept, State.setFlag_kept]

theorem State.relight_kept (s : State) (h : Kept fx s) :
    Kept fx (State.relight s) := by
  grind [State.relight, State.lightChannel_kept, forEach_kept]

theorem hubLogicReady_kept (bootSel : Nat) (slotA slotB : Option Image) (s : State) (h : Kept fx s) :
    Kept fx (hubLogicReady bootSel slotA slotB s) := by
  grind (gen := 30) (splits := 30) (ematch := 30) [hubLogicReady, State.boot_kept, State.modPower_kept, State.newKeys_kept, State.raiseDie_kept, State.refreshReady_kept, State.relightMute_kept, State.relight_kept, State.resetHub_kept, State.setFlag_kept, State.setFld_kept, State.startLaps_kept, State.startPeriod_kept, State.zeroClients_kept, forEach_kept]

theorem memRebuildDone_kept (s : State) (h : Kept fx s) :
    Kept fx (memRebuildDone s) := by
  grind (gen := 30) (splits := 30) (ematch := 30) [memRebuildDone, State.modPower_kept, State.newKeys_kept, State.pageRun_kept, State.setFlag_kept, State.startRing_kept, forEach_kept]

theorem autoResleep_kept (s : State) (h : Kept fx s) :
    Kept fx (autoResleep s) := by
  grind [autoResleep, State.enterSleep_kept]

theorem aonBrownout_kept (s : State) (h : Kept fx s) :
    Kept fx (aonBrownout s) := by
  grind [aonBrownout, State.enterOff_kept, State.setFlag_kept, State.setFld_kept]

theorem vinLoss_kept (s : State) (h : Kept fx s) :
    Kept fx (vinLoss s) := by
  grind [vinLoss, State.fresh_kept]

theorem vinPowerOn_kept (s : State) (h : Kept fx s) :
    Kept fx (vinPowerOn s) := by
  grind [vinPowerOn, State.modPower_kept]

theorem State.cold_kept (s : State) (h : Kept fx s) :
    Kept fx (State.cold s) := by
  grind [State.cold, State.fresh_kept]

theorem State.resetKill_kept (s : State) (r : Run) (h : Kept fx s) :
    Kept fx (State.resetKill s r) := by
  grind [State.resetKill, State.killRun_kept, State.modStep_kept]

theorem State.chargeReady_kept (s : State) (h : Kept fx s) :
    Kept fx (State.chargeReady s) := by
  grind [State.chargeReady, State.acct_kept, forEach_kept]

theorem State.warm_kept (s : State) (h : Kept fx s) :
    Kept fx (State.warm s) := by
  grind (gen := 30) (splits := 30) (ematch := 30) [State.warm, KeptOf.clear, KeptOf.filter, KeptOf.write, State.chargeReady_kept, State.chargeWaits_kept, State.checkLedger_kept, State.closeGate_kept, State.dampAt_kept, State.dropLinks_kept, State.endMoves_kept, State.endResidency_kept, State.failHearthSteps_kept, State.flushGroup_kept, State.redoJournal_kept, State.resetHub_kept, State.resetKill_kept, State.restDie_kept, State.setFlag_kept, State.setFld_kept, forEach_kept]

theorem State.reset1_kept (s : State) (h : Kept fx s) :
    Kept fx (State.reset1 s) := by
  grind [State.reset1, State.cold_kept, State.warm_kept]

theorem warmReset_kept (s : State) (h : Kept fx s) :
    Kept fx (warmReset s) := by
  grind [warmReset, State.reset1_kept]

theorem coldReset_kept (s : State) (h : Kept fx s) :
    Kept fx (coldReset s) := by
  grind [coldReset, State.cold_kept]

theorem resetPinRise_kept (lowUs : Nat) (s : State) (h : Kept fx s) :
    Kept fx (resetPinRise lowUs s) := by
  grind [resetPinRise, State.cold_kept, State.reset1_kept]

theorem resetPinColdTimeout_kept (s : State) (h : Kept fx s) :
    Kept fx (resetPinColdTimeout s) := by
  grind [resetPinColdTimeout, State.cold_kept]

theorem hostPortReset_kept (s : State) (h : Kept fx s) :
    Kept fx (hostPortReset s) := by
  grind [hostPortReset, State.setFld_kept]

theorem hostLinkL0_kept (speed width : Nat) (s : State) (h : Kept fx s) :
    Kept fx (hostLinkL0 speed width s) := by
  grind [hostLinkL0, State.modPower_kept, State.setFld_kept]

theorem rtcEdge_kept (s : State) (h : Kept fx s) :
    Kept fx (rtcEdge s) := by
  grind [rtcEdge]

theorem timebaseHandback_kept (s : State) (h : Kept fx s) :
    Kept fx (timebaseHandback s) := by
  grind [timebaseHandback, State.addFld_kept, State.setFlag_kept, State.setFld_kept]

theorem uncertClear_kept (s : State) (h : Kept fx s) :
    Kept fx (uncertClear s) := by
  grind [uncertClear, State.setFld_kept]

end Sys2Proof.Machine
end

