-- ==== Sys2Proof/Laws/KeepThermal.lean ====
section
/-! SUPPORT. Every operation of Machine/Thermal.lean keeps the canonical form of the memory, the queue, the variant and the grade. -/

namespace Sys2Proof.Machine

open Sys2Proof

variable {fx : Fixed}

theorem dieIdleGate_kept (die : Nat) (s : State) (h : Kept fx s) :
    Kept fx (dieIdleGate die s) := by
  grind [dieIdleGate, State.modPower_kept]

theorem State.setPoint_kept (s : State) (d p : Nat) (h : Kept fx s) :
    Kept fx (State.setPoint s d p) := by
  grind [State.setPoint, State.packet_kept, State.setFld_kept, State.settleCycles_kept]

theorem State.moveDie_kept (s : State) (d : Nat) (lower : Bool) (h : Kept fx s) :
    Kept fx (State.moveDie s d lower) := by
  grind [State.moveDie, State.setPoint_kept]

theorem dvfsStep_kept (die : Nat) (lower : Bool) (s : State) (h : Kept fx s) :
    Kept fx (dvfsStep die lower s) := by
  grind [dvfsStep, State.moveDie_kept]

theorem State.setThrottle_kept (s : State) (n : Nat) (h : Kept fx s) :
    Kept fx (State.setThrottle s n) := by
  grind [State.setThrottle, State.setFlag_kept, State.setFld_kept]

theorem powerCapGrid_kept (s : State) (h : Kept fx s) :
    Kept fx (powerCapGrid s) := by
  grind [powerCapGrid, State.modPower_kept, State.setThrottle_kept]

theorem State.capLower_kept (s : State) (d : Nat) (h : Kept fx s) :
    Kept fx (State.capLower s d) := by
  grind [State.capLower, State.modPower_kept, State.moveDie_kept]

theorem powerCapAdjust_kept (heaviest : List Nat) (s : State) (h : Kept fx s) :
    Kept fx (powerCapAdjust heaviest s) := by
  grind [powerCapAdjust, State.capLower_kept, State.setThrottle_kept]

theorem powerCapRestore_kept (s : State) (h : Kept fx s) :
    Kept fx (powerCapRestore s) := by
  grind [powerCapRestore, State.modPower_kept, State.moveDie_kept, State.setThrottle_kept]

theorem State.thermDie_kept (s : State) (temp : Nat → Int) (d : Nat) (h : Kept fx s) :
    Kept fx (State.thermDie s temp d) := by
  grind [State.thermDie, State.modPower_kept, State.moveDie_kept]

theorem State.setTemp_kept (s : State) (d : Nat) (t : Int) (h : Kept fx s) :
    Kept fx (State.setTemp s d t) := by
  grind [State.setTemp, State.setFld_kept]

theorem State.thermalOffDie_kept (s : State) (d : Nat) (h : Kept fx s) :
    Kept fx (State.thermalOffDie s d) := by
  grind [State.thermalOffDie, State.closeGate_kept, State.failHearthSteps_kept, State.killForTakeOut_kept, State.setFlag_kept, State.setFld_kept]

theorem thermalSample_kept (temps : List Int) (s : State) (h : Kept fx s) :
    Kept fx (thermalSample temps s) := by
  grind (gen := 30) (splits := 30) (ematch := 30) [thermalSample, State.damp_kept, State.logCorrected_kept, State.logRecorded_kept, State.modDie_kept, State.modPower_kept, State.setFlag_kept, State.setFld_kept, State.setTemp_kept, State.takeOutDie_kept, State.thermDie_kept, State.thermalOffDie_kept, forEach_kept]

theorem thermalOffTimeout_kept (s : State) (h : Kept fx s) :
    Kept fx (thermalOffTimeout s) := by
  grind [thermalOffTimeout, State.enterOff_kept, State.setFlag_kept]

end Sys2Proof.Machine
end

