-- ==== Sys2Proof/Laws/KeepSecurity.lean ====
section
/-! SUPPORT. Every operation of Machine/Security.lean keeps the canonical form of the memory, the queue, the variant and the grade. -/

namespace Sys2Proof.Machine

open Sys2Proof

variable {fx : Fixed}

theorem drbgReseed_kept (s : State) (h : Kept fx s) :
    Kept fx (drbgReseed s) := by
  grind [drbgReseed, State.modKeys_kept]

theorem compatKeyLoad_kept (client : Nat) (s : State) (h : Kept fx s) :
    Kept fx (compatKeyLoad client s) := by
  grind [compatKeyLoad, State.modKeys_kept, State.setFlag_kept, State.setFld_kept, State.settleCompat_kept]

theorem compatKeyClear_kept (client : Nat) (s : State) (h : Kept fx s) :
    Kept fx (compatKeyClear client s) := by
  grind [compatKeyClear, State.modKeys_kept, State.setFld_kept]

theorem State.portOff_kept (s : State) (p : Nat) (h : Kept fx s) :
    Kept fx (State.portOff s p) := by
  grind (gen := 30) (splits := 30) (ematch := 30) [State.portOff, State.modRingPort_kept, State.setFlag_kept, State.setFld_kept]

theorem State.portDown_kept (s : State) (p : Nat) (h : Kept fx s) :
    Kept fx (State.portDown s p) := by
  grind [State.portDown, State.logEvent_kept, State.portOff_kept, State.setFlag_kept]

theorem hxrEnable_kept (port : Nat) (on : Bool) (s : State) (h : Kept fx s) :
    Kept fx (hxrEnable port on s) := by
  grind [hxrEnable, State.portOff_kept, State.setFlag_kept]

theorem ringPortTrained_kept (port : Nat) (s : State) (h : Kept fx s) :
    Kept fx (ringPortTrained port s) := by
  grind [ringPortTrained, State.modRingPort_kept, State.sendAgreement_kept]

theorem State.failAgreement_kept (s : State) (p : Nat) (topo : Bool) (h : Kept fx s) :
    Kept fx (State.failAgreement s p topo) := by
  grind [State.failAgreement, State.logCorrected_kept, State.logRecorded_kept, State.modRingPort_kept, State.portOff_kept, State.setFlag_kept]

theorem State.newSalt_kept (s : State) (h : Kept fx s) :
    Kept fx (State.newSalt s).1 := by
  grind [State.newSalt, State.drawWord_kept]

theorem State.installKeys_kept (s : State) (p : Nat) (h : Kept fx s) :
    Kept fx (State.installKeys s p) := by
  grind (gen := 30) (splits := 30) (ematch := 30) [State.installKeys, State.modRingPort_kept, State.newKey_kept, State.newSalt_kept, State.sendWaiting_kept, State.setFlag_kept, State.setFld_kept]

theorem keyAgreementMsg_kept (port : Nat) (m : KeyMsg) (s : State) (h : Kept fx s) :
    Kept fx (keyAgreementMsg port m s) := by
  grind [keyAgreementMsg, State.failAgreement_kept, State.installKeys_kept, State.startRekey_kept]

theorem keyAgreementRetry_kept (port : Nat) (s : State) (h : Kept fx s) :
    Kept fx (keyAgreementRetry port s) := by
  grind [keyAgreementRetry, State.modRingPort_kept, State.sendAgreement_kept]

theorem rekeyNow_kept (port : Nat) (s : State) (h : Kept fx s) :
    Kept fx (rekeyNow port s) := by
  grind [rekeyNow, State.startRekey_kept]

theorem rekeyTimeout_kept (port : Nat) (s : State) (h : Kept fx s) :
    Kept fx (rekeyTimeout port s) := by
  grind [rekeyTimeout, State.portDown_kept]

theorem State.ackPort_kept (s : State) (p counter : Nat) (h : Kept fx s) :
    Kept fx (State.ackPort s p counter) := by
  grind [State.ackPort, State.modRingPort_kept, State.sendWaiting_kept, retry_kept]

theorem State.noteBad_kept (s : State) (port n : Nat) (h : Kept fx s) :
    Kept fx (State.noteBad s port n) := by
  grind [State.noteBad]

theorem ringFrame_kept (port : Nat) (f : RingFrame) (s : State) (h : Kept fx s) :
    Kept fx (ringFrame port f s) := by
  grind [ringFrame, State.ackPort_kept, State.logCorrected_kept, State.modRingPort_kept, State.noteBad_kept, State.portDown_kept, State.rekeyAtCount_kept, State.sendFrame_kept, State.send_kept, State.takePayload_kept]

theorem ringFrameNak_kept (port counter : Nat) (s : State) (h : Kept fx s) :
    Kept fx (ringFrameNak port counter s) := by
  grind [ringFrameNak, State.addFld_kept, State.modRingPort_kept, State.portDown_kept, State.send_kept, retry_kept, forEach_kept]

theorem State.flushClient_kept (s : State) (c : Nat) (h : Kept fx s) :
    Kept fx (State.flushClient s c) := by
  grind [State.flushClient, State.flushEntry_kept, forEach_kept]

theorem State.freeClientPages_kept (s : State) (c : Nat) (h : Kept fx s) :
    Kept fx (State.freeClientPages s c) := by
  grind [State.freeClientPages, State.freePage_kept, forEach_kept]

theorem State.clearHearths_kept (s : State) (c : Nat) (h : Kept fx s) :
    Kept fx (State.clearHearths s c) := by
  grind [State.clearHearths, State.freeBuf_kept, State.modHearth_kept, forEach_kept]

theorem clientClear_kept (client : Nat) (s : State) (h : Kept fx s) :
    Kept fx (clientClear client s) := by
  grind (gen := 30) (splits := 30) (ematch := 30) [clientClear, State.clearHearths_kept, State.closeRing_kept, State.endResidency_kept, State.flushClient_kept, State.freeClientPages_kept, State.modKeys_kept, State.setFlag_kept, State.setStage_kept, State.stopChannel_kept, State.writeAcct_kept, forEach_kept]

theorem State.unitError_kept (s : State) (r : FaultReport) (h : Kept fx s) :
    Kept fx (State.unitError s r) := by
  grind [State.unitError, State.closeRing_kept, State.exposeGroup_kept, State.failOver_kept, State.linkDown_kept, State.logEvent_kept, State.modWake_kept, State.portDown_kept, State.setStage_kept, State.standbyOut_kept, State.takeOutDie_kept, State.takeOutEngine_kept]

theorem State.looseDetection_kept (s : State) (r : FaultReport) (h : Kept fx s) :
    Kept fx (State.looseDetection s r) := by
  grind [State.looseDetection, State.countDetection_kept, State.logCorrected_kept, State.logRecorded_kept, State.showDetection_kept]

theorem State.commandError_kept (s : State) (r : FaultReport) (h : Kept fx s) :
    Kept fx (State.commandError s r) := by
  grind [State.commandError, State.checkFault_kept, State.failRun_kept, State.logEvent_kept, State.looseDetection_kept, State.setFlag_kept, State.showDetection_kept]

theorem State.compareMismatch_kept (s : State) (r : FaultReport) (h : Kept fx s) :
    Kept fx (State.compareMismatch s r) := by
  grind [State.compareMismatch, State.dampAt_kept, State.damp_kept, State.logCorrected_kept]

theorem State.correctedEvent_kept (s : State) (r : FaultReport) (h : Kept fx s) :
    Kept fx (State.correctedEvent s r) := by
  grind [State.correctedEvent, State.compareMismatch_kept, State.ledgerFault_kept, State.logCorrected_kept, State.looseDetection_kept, State.storeCorrected_kept]

theorem event_kept (r : FaultReport) (s : State) (h : Kept fx s) :
    Kept fx (event r s) := by
  grind [event, State.commandError_kept, State.correctedEvent_kept, State.dampAt_kept, State.damp_kept, State.unitError_kept]

end Sys2Proof.Machine
end

