-- ==== Sys2Proof/Laws/KeepRegAccess.lean ====
section
/-! SUPPORT. Every operation of Machine/RegAccess.lean keeps the canonical form of the memory, the queue, the variant and the grade. -/

namespace Sys2Proof.Machine

open Sys2Proof

variable {fx : Fixed}

theorem State.readReg_kept (s : State) (base words : Nat) (h : Kept fx s) :
    Kept fx (State.readReg s base words).1 := by
  grind [State.readReg]

theorem State.hostAnswer_kept (s : State) (bs : List Byte) (h : Kept fx s) :
    Kept fx (State.hostAnswer s bs) := by
  grind [State.hostAnswer]

theorem State.readWordNow_kept (s : State) (off : Nat) (h : Kept fx s) :
    Kept fx (State.readWordNow s off).1 := by
  grind [State.readWordNow, State.readReg_kept]

theorem State.readWide_kept (s : State) (off : Nat) (h : Kept fx s) :
    Kept fx (State.readWide s off) := by
  grind [State.readWide, State.hostAnswer_kept, State.readReg_kept, State.readWordNow_kept]

theorem State.readLow_kept (s : State) (off : Nat) (h : Kept fx s) :
    Kept fx (State.readLow s off) := by
  grind [State.readLow, State.hostAnswer_kept, State.modCnt_kept, State.readReg_kept]

theorem latchedLowRead_kept (off : Nat) (wide : Bool) (s : State) (h : Kept fx s) :
    Kept fx (latchedLowRead off wide s) := by
  grind [latchedLowRead, State.readLow_kept, State.readWide_kept]

theorem latchedHighRead_kept (off : Nat) (s : State) (h : Kept fx s) :
    Kept fx (latchedHighRead off s) := by
  grind [latchedHighRead, State.hostAnswer_kept, State.readReg_kept]

theorem State.noteAccess_kept (s : State) (off size cause : Nat) (write : Bool) (fill : Byte) (h : Kept fx s) :
    Kept fx (State.noteAccess s off size cause write fill) := by
  grind [State.noteAccess, State.addFld_kept, State.hostAnswer_kept, State.logCorrected_kept, State.logRecorded_kept, State.setReg_kept, fill_kept, write_kept]

theorem misalignedRegAccess_kept (off size : Nat) (write : Bool) (s : State) (h : Kept fx s) :
    Kept fx (misalignedRegAccess off size write s) := by
  grind [misalignedRegAccess, State.noteAccess_kept, write_kept]

theorem emptyOffsetAccess_kept (off size : Nat) (write : Bool) (s : State) (h : Kept fx s) :
    Kept fx (emptyOffsetAccess off size write s) := by
  grind [emptyOffsetAccess, State.noteAccess_kept, write_kept]

theorem State.holdShares_kept (s0 s : State) (c : Nat) (h : Kept fx s) :
    Kept fx (State.holdShares s0 s c) := by
  grind [State.holdShares, State.modClient_kept, forEach_kept]

theorem State.afterWrite_kept (s0 s : State) (off old new value : Nat) (h : Kept fx s) :
    Kept fx (State.afterWrite s0 s off old new value) := by
  grind (gen := 30) (splits := 30) (ematch := 30) [State.afterWrite, State.advanceEpoch_kept, State.holdShares_kept, State.modKeys_kept, State.modPower_kept, State.modUnit_kept, State.modWake_kept, State.pageGo_kept, State.refreshReady_kept, State.setFld_kept, State.setInService_kept, State.startPeriod_kept]

theorem State.setNote_kept (s : State) (f : Option Fld) (h : Kept fx s) : Kept fx (State.setNote s f) := by
  cases f <;> grind [State.setNote, State.setFlag_kept]

theorem State.writeReg_kept (s : State) (d : RegDef) (base : Nat) (part : Option Nat) (value : Nat) (h : Kept fx s) :
    Kept fx (State.writeReg s d base part value) := by
  have hs : ∀ t : State, Kept fx t → Kept fx (if t.entryError 1 = 0 then t else t.breakResleep) := fun t ht => by
    split
    · exact ht
    · exact State.breakResleep_kept t ht
  unfold State.writeReg
  dsimp only
  repeat' with_reducible first
    | assumption
    | apply State.setNote_kept
    | apply State.setFlag_kept
    | apply hs
    | apply State.afterWrite_kept
    | apply State.setReg_kept
    | split

theorem State.writeWord_kept (s : State) (off value : Nat) (h : Kept fx s) :
    Kept fx (State.writeWord s off value) := by
  grind [State.writeWord, State.writeReg_kept]

theorem regWrite_kept (off : Nat) (wide : Bool) (value : W64) (s : State) (h : Kept fx s) :
    Kept fx (regWrite off wide value s) := by
  grind [regWrite, State.writeReg_kept, State.writeWord_kept]

theorem bar4Read_kept (off len : Nat) (s : State) (h : Kept fx s) :
    Kept fx (bar4Read off len s) := by
  grind [bar4Read, State.drawBytes_kept, State.touch_kept, free_kept, forEach_kept]

theorem bar4Write_kept (off : Nat) (data : List Byte) (s : State) (h : Kept fx s) :
    Kept fx (bar4Write off data s) := by
  grind [bar4Write, State.dramWrite_kept, State.touch_kept, forEach_kept]

end Sys2Proof.Machine
end

