-- ==== Sys2Proof/Laws/KeepTrace.lean ====
section
/-! SUPPORT. Every operation of Machine/Trace.lean keeps the canonical form of the memory, the queue, the variant and the grade. -/

namespace Sys2Proof.Machine

open Sys2Proof

variable {fx : Fixed}

theorem countLoRead_kept (block i : Nat) (s : State) (h : Kept fx s) :
    Kept fx (countLoRead block i s) := by
  grind [countLoRead, State.hostAnswer_kept, State.modCnt_kept]

theorem countHiWrite_kept (block i : Nat) (value : W32) (s : State) (h : Kept fx s) :
    Kept fx (countHiWrite block i value s) := by
  grind [countHiWrite, State.modCnt_kept]

theorem countLoWrite_kept (block i : Nat) (value : W32) (s : State) (h : Kept fx s) :
    Kept fx (countLoWrite block i value s) := by
  grind [countLoWrite, State.modCnt_kept]

theorem State.capture_kept (s : State) (blk tb : Nat) (h : Kept fx s) :
    Kept fx (State.capture s blk tb) := by
  grind [State.capture, State.setReg_kept, forEach_kept]

theorem counterSnap_kept (block : Nat) (s : State) (h : Kept fx s) :
    Kept fx (counterSnap block s) := by
  grind [counterSnap, State.capture_kept]

theorem dbgSnap_kept (value : W32) (s : State) (h : Kept fx s) :
    Kept fx (dbgSnap value s) := by
  grind [dbgSnap, State.modCnt_kept, State.setFld_kept, forEach_kept]

theorem dbgSnapCapture_kept (block : Nat) (s : State) (h : Kept fx s) :
    Kept fx (dbgSnapCapture block s) := by
  grind [dbgSnapCapture, State.capture_kept, State.modCnt_kept]

theorem counterSample_kept (s : State) (h : Kept fx s) :
    Kept fx (counterSample s) := by
  grind [counterSample, State.counterPackets_kept, forEach_kept]

theorem traceSync_kept (s : State) (h : Kept fx s) :
    Kept fx (traceSync s) := by
  grind [traceSync, State.arrive_kept]

theorem tracePacket_kept (p : TracePacket) (s : State) (h : Kept fx s) :
    Kept fx (tracePacket p s) := by
  grind [tracePacket, State.arrive_kept]

theorem State.unthrottle_kept (s : State) (d : Nat) (h : Kept fx s) :
    Kept fx (State.unthrottle s d) := by
  grind [State.unthrottle]

theorem traceThrottleRelease_kept (die : Nat) (s : State) (h : Kept fx s) :
    Kept fx (traceThrottleRelease die s) := by
  grind [traceThrottleRelease, State.unthrottle_kept]

theorem State.flueSend_kept (s : State) (bs : List Byte) (h : Kept fx s) :
    Kept fx (State.flueSend s bs) := by
  grind [State.flueSend, State.send_kept, forEach_kept]

theorem flueFrame_kept (s : State) (h : Kept fx s) :
    Kept fx (flueFrame s) := by
  grind [flueFrame, State.flueSend_kept, State.forwardTrace_kept, window_kept, forEach_kept]

theorem State.arm_kept (s : State) (h : Kept fx s) :
    Kept fx (State.arm s) := by
  grind [State.arm, State.setFld_kept]

theorem traceEnable_kept (value : W32) (s : State) (h : Kept fx s) :
    Kept fx (traceEnable value s) := by
  grind [traceEnable, State.arrive_kept, State.setFlag_kept, State.setFld_kept, State.setReg_kept]

theorem traceArm_kept (s : State) (h : Kept fx s) :
    Kept fx (traceArm s) := by
  grind [traceArm, State.arm_kept]

theorem traceTriggerNow_kept (s : State) (h : Kept fx s) :
    Kept fx (traceTriggerNow s) := by
  grind [traceTriggerNow, State.trigger_kept]

theorem traceDrainEnd_kept (s : State) (h : Kept fx s) :
    Kept fx (traceDrainEnd s) := by
  grind [traceDrainEnd, State.arm_kept, State.setFld_kept]

theorem tensorWatchCopy_kept (n : Nat) (s : State) (h : Kept fx s) :
    Kept fx (tensorWatchCopy n s) := by
  unfold tensorWatchCopy
  dsimp only
  repeat' split
  all_goals repeat' first
    | with_reducible assumption
    | with_reducible apply State.sysWrite_kept

theorem tensorWatchDone_kept (n : Nat) (s : State) (h : Kept fx s) :
    Kept fx (tensorWatchDone n s) := by
  grind [tensorWatchDone, State.addFld_kept, State.modStep_kept, State.setFlag_kept]

end Sys2Proof.Machine
end

