-- ==== Sys2Proof/Laws/KeepPins.lean ====
section
/-! SUPPORT. Every operation of Machine/Pins.lean keeps the canonical form of the memory, the queue, the variant and the grade. -/

namespace Sys2Proof.Machine

open Sys2Proof

variable {fx : Fixed}

theorem indChannelOn_kept (n : Nat) (value : W32) (s : State) (h : Kept fx s) :
    Kept fx (indChannelOn n value s) := by
  grind [indChannelOn, State.noteWish_kept, State.darken_kept, State.lightChannel_kept, State.setFlag_kept, State.setFld_kept]

theorem indRampEnd_kept (n : Nat) (s : State) (h : Kept fx s) :
    Kept fx (indRampEnd n s) := by
  grind [indRampEnd, State.modInd_kept]

theorem indShortDetect_kept (n : Nat) (s : State) (h : Kept fx s) :
    Kept fx (indShortDetect n s) := by
  grind [indShortDetect, State.modInd_kept, State.setFlag_kept]

theorem indShortTimeout_kept (n : Nat) (above : Bool) (s : State) (h : Kept fx s) :
    Kept fx (indShortTimeout n above s) := by
  grind [indShortTimeout, State.darken_kept, State.endClamp_kept, State.logCorrected_kept, State.logRecorded_kept, State.setFlag_kept]

theorem indFreezeTimeout_kept (s : State) (h : Kept fx s) :
    Kept fx (indFreezeTimeout s) := by
  grind [indFreezeTimeout, State.unfreeze_kept]

theorem indOpenDetect_kept (n : Nat) (s : State) (h : Kept fx s) :
    Kept fx (indOpenDetect n s) := by
  grind [indOpenDetect, State.logCorrected_kept, State.logRecorded_kept, State.setFlag_kept]

theorem indRetry_kept (n : Nat) (s : State) (h : Kept fx s) :
    Kept fx (indRetry n s) := by
  grind [indRetry, State.darken_kept, State.lightChannel_kept, State.setFlag_kept]

theorem i3cTransfer_kept (n : Nat) (value : W32) (s : State) (h : Kept fx s) :
    Kept fx (i3cTransfer n value s) := by
  grind [i3cTransfer, State.send_kept, State.setFlag_kept, State.setReg_kept]

theorem i3cTransferDone_kept (n : Nat) (nack : Bool) (data : List Byte) (s : State) (h : Kept fx s) :
    Kept fx (i3cTransferDone n nack data s) := by
  grind [i3cTransferDone, State.setFlag_kept, State.setReg_kept, forEach_kept]

theorem i3cIbi_kept (n addr : Nat) (s : State) (h : Kept fx s) :
    Kept fx (i3cIbi n addr s) := by
  grind [i3cIbi, State.setFlag_kept, State.setFld_kept]

theorem gpioEdge_kept (i : Nat) (level : Bool) (s : State) (h : Kept fx s) :
    Kept fx (gpioEdge i level s) := by
  grind [gpioEdge, State.setFlag_kept]

theorem State.loadTap_kept (s : State) (code : Nat) (h : Kept fx s) :
    Kept fx (State.loadTap s code) := by
  grind [State.loadTap]

theorem idcode_kept (s : State) (h : Kept fx s) :
    Kept fx (idcode s) := by
  grind [idcode, State.loadTap_kept, State.send_kept]

theorem samplePreload_kept (shiftIn pins : List Bool) (s : State) (h : Kept fx s) :
    Kept fx (samplePreload shiftIn pins s) := by
  grind [samplePreload, State.loadTap_kept, State.send_kept]

theorem State.pinInstruction_kept (s : State) (code : Nat) (drives : Bool) (h : Kept fx s) :
    Kept fx (State.pinInstruction s code drives) := by
  grind [State.pinInstruction, State.loadTap_kept, State.send_kept]

theorem extest_kept (s : State) (h : Kept fx s) :
    Kept fx (extest s) := by
  grind [extest, State.pinInstruction_kept]

theorem extestPulse_kept (s : State) (h : Kept fx s) :
    Kept fx (extestPulse s) := by
  grind [extestPulse, State.pinInstruction_kept]

theorem extestTrain_kept (s : State) (h : Kept fx s) :
    Kept fx (extestTrain s) := by
  grind [extestTrain, State.pinInstruction_kept]

theorem clamp_kept (s : State) (h : Kept fx s) :
    Kept fx (clamp s) := by
  grind [clamp, State.pinInstruction_kept]

theorem highz_kept (s : State) (h : Kept fx s) :
    Kept fx (highz s) := by
  grind [highz, State.pinInstruction_kept]

theorem bypass_kept (code : Nat) (s : State) (h : Kept fx s) :
    Kept fx (bypass code s) := by
  grind [bypass, State.loadTap_kept]

end Sys2Proof.Machine
end

