-- ==== Sys2Proof/Laws/KeepTick.lean ====
section
/-! SUPPORT. Every operation of Machine/Tick.lean keeps the canonical form of the memory, the queue, the variant and the grade. -/

namespace Sys2Proof.Machine

open Sys2Proof

variable {fx : Fixed}

theorem tick_kept (s : State) (h : Kept fx s) :
    Kept fx (tick s) := by
  grind [tick, State.backDue_kept, State.releaseLogic_kept, forEach_kept]

end Sys2Proof.Machine
end

