-- ==== Sys2Proof/Laws/State.lean ====
section
/-! SUPPORT. What each base update of a state leaves alone, field by field, and what a table or a register holds after it. -/

namespace Sys2Proof.Machine

open Sys2Proof

section Fields

variable (s : State)

/-! `State.setReg` -/

@[simp] theorem State.setReg_pending (key v : Nat) : (s.setReg key v).pending = s.pending := rfl
@[simp] theorem State.setReg_variant (key v : Nat) : (s.setReg key v).variant = s.variant := rfl
@[simp] theorem State.setReg_grade (key v : Nat) : (s.setReg key v).grade = s.grade := rfl
@[simp] theorem State.setReg_latch (key v : Nat) : (s.setReg key v).latch = s.latch := rfl
@[simp] theorem State.setReg_hostRsp (key v : Nat) : (s.setReg key v).hostRsp = s.hostRsp := rfl
@[simp] theorem State.setReg_hostPoison (key v : Nat) : (s.setReg key v).hostPoison = s.hostPoison := rfl
@[simp] theorem State.setReg_mem (key v : Nat) : (s.setReg key v).mem = s.mem := rfl
@[simp] theorem State.setReg_env (key v : Nat) : (s.setReg key v).env = s.env := rfl
@[simp] theorem State.setReg_drawn (key v : Nat) : (s.setReg key v).drawn = s.drawn := rfl
@[simp] theorem State.setReg_sent (key v : Nat) : (s.setReg key v).sent = s.sent := rfl
@[simp] theorem State.setReg_tb (key v : Nat) : (s.setReg key v).tb = s.tb := rfl
@[simp] theorem State.setReg_clients (key v : Nat) : (s.setReg key v).clients = s.clients := rfl
@[simp] theorem State.setReg_rings (key v : Nat) : (s.setReg key v).rings = s.rings := rfl
@[simp] theorem State.setReg_steps (key v : Nat) : (s.setReg key v).steps = s.steps := rfl
@[simp] theorem State.setReg_journal (key v : Nat) : (s.setReg key v).journal = s.journal := rfl
@[simp] theorem State.setReg_ledgerErr (key v : Nat) : (s.setReg key v).ledgerErr = s.ledgerErr := rfl
@[simp] theorem State.setReg_tallyQueue (key v : Nat) : (s.setReg key v).tallyQueue = s.tallyQueue := rfl
@[simp] theorem State.setReg_sweepAt (key v : Nat) : (s.setReg key v).sweepAt = s.sweepAt := rfl
@[simp] theorem State.setReg_runs (key v : Nat) : (s.setReg key v).runs = s.runs := rfl
@[simp] theorem State.setReg_oldPreempt (key v : Nat) : (s.setReg key v).oldPreempt = s.oldPreempt := rfl
@[simp] theorem State.setReg_kindlingHeld (key v : Nat) : (s.setReg key v).kindlingHeld = s.kindlingHeld := rfl
@[simp] theorem State.setReg_residencies (key v : Nat) : (s.setReg key v).residencies = s.residencies := rfl
@[simp] theorem State.setReg_units (key v : Nat) : (s.setReg key v).units = s.units := rfl
@[simp] theorem State.setReg_known (key v : Nat) : (s.setReg key v).known = s.known := rfl
@[simp] theorem State.setReg_dies (key v : Nat) : (s.setReg key v).dies = s.dies := rfl
@[simp] theorem State.setReg_hearths (key v : Nat) : (s.setReg key v).hearths = s.hearths := rfl
@[simp] theorem State.setReg_pages (key v : Nat) : (s.setReg key v).pages = s.pages := rfl
@[simp] theorem State.setReg_pageCmd (key v : Nat) : (s.setReg key v).pageCmd = s.pageCmd := rfl
@[simp] theorem State.setReg_reserves (key v : Nat) : (s.setReg key v).reserves = s.reserves := rfl
@[simp] theorem State.setReg_access (key v : Nat) : (s.setReg key v).access = s.access := rfl
@[simp] theorem State.setReg_bellowsAt (key v : Nat) : (s.setReg key v).bellowsAt = s.bellowsAt := rfl
@[simp] theorem State.setReg_bellows (key v : Nat) : (s.setReg key v).bellows = s.bellows := rfl
@[simp] theorem State.setReg_translations (key v : Nat) : (s.setReg key v).translations = s.translations := rfl
@[simp] theorem State.setReg_movesDone (key v : Nat) : (s.setReg key v).movesDone = s.movesDone := rfl
@[simp] theorem State.setReg_moves (key v : Nat) : (s.setReg key v).moves = s.moves := rfl
@[simp] theorem State.setReg_dmcs (key v : Nat) : (s.setReg key v).dmcs = s.dmcs := rfl
@[simp] theorem State.setReg_links (key v : Nat) : (s.setReg key v).links = s.links := rfl
@[simp] theorem State.setReg_waiting (key v : Nat) : (s.setReg key v).waiting = s.waiting := rfl
@[simp] theorem State.setReg_saf (key v : Nat) : (s.setReg key v).saf = s.saf := rfl
@[simp] theorem State.setReg_keys (key v : Nat) : (s.setReg key v).keys = s.keys := rfl
@[simp] theorem State.setReg_measured (key v : Nat) : (s.setReg key v).measured = s.measured := rfl
@[simp] theorem State.setReg_cnts (key v : Nat) : (s.setReg key v).cnts = s.cnts := rfl
@[simp] theorem State.setReg_trace (key v : Nat) : (s.setReg key v).trace = s.trace := rfl
@[simp] theorem State.setReg_relays (key v : Nat) : (s.setReg key v).relays = s.relays := rfl
@[simp] theorem State.setReg_cams (key v : Nat) : (s.setReg key v).cams = s.cams := rfl
@[simp] theorem State.setReg_audio (key v : Nat) : (s.setReg key v).audio = s.audio := rfl
@[simp] theorem State.setReg_wake (key v : Nat) : (s.setReg key v).wake = s.wake := rfl
@[simp] theorem State.setReg_power (key v : Nat) : (s.setReg key v).power = s.power := rfl
@[simp] theorem State.setReg_micOpen (key v : Nat) : (s.setReg key v).micOpen = s.micOpen := rfl
@[simp] theorem State.setReg_ports (key v : Nat) : (s.setReg key v).ports = s.ports := rfl
@[simp] theorem State.setReg_inds (key v : Nat) : (s.setReg key v).inds = s.inds := rfl
@[simp] theorem State.setReg_tap (key v : Nat) : (s.setReg key v).tap = s.tap := rfl

/-! `State.setFld` -/

@[simp] theorem State.setFld_pending (f : Fld) (v : Nat) : (s.setFld f v).pending = s.pending := rfl
@[simp] theorem State.setFld_variant (f : Fld) (v : Nat) : (s.setFld f v).variant = s.variant := rfl
@[simp] theorem State.setFld_grade (f : Fld) (v : Nat) : (s.setFld f v).grade = s.grade := rfl
@[simp] theorem State.setFld_latch (f : Fld) (v : Nat) : (s.setFld f v).latch = s.latch := rfl
@[simp] theorem State.setFld_hostRsp (f : Fld) (v : Nat) : (s.setFld f v).hostRsp = s.hostRsp := rfl
@[simp] theorem State.setFld_hostPoison (f : Fld) (v : Nat) : (s.setFld f v).hostPoison = s.hostPoison := rfl
@[simp] theorem State.setFld_mem (f : Fld) (v : Nat) : (s.setFld f v).mem = s.mem := rfl
@[simp] theorem State.setFld_env (f : Fld) (v : Nat) : (s.setFld f v).env = s.env := rfl
@[simp] theorem State.setFld_drawn (f : Fld) (v : Nat) : (s.setFld f v).drawn = s.drawn := rfl
@[simp] theorem State.setFld_sent (f : Fld) (v : Nat) : (s.setFld f v).sent = s.sent := rfl
@[simp] theorem State.setFld_tb (f : Fld) (v : Nat) : (s.setFld f v).tb = s.tb := rfl
@[simp] theorem State.setFld_clients (f : Fld) (v : Nat) : (s.setFld f v).clients = s.clients := rfl
@[simp] theorem State.setFld_rings (f : Fld) (v : Nat) : (s.setFld f v).rings = s.rings := rfl
@[simp] theorem State.setFld_steps (f : Fld) (v : Nat) : (s.setFld f v).steps = s.steps := rfl
@[simp] theorem State.setFld_journal (f : Fld) (v : Nat) : (s.setFld f v).journal = s.journal := rfl
@[simp] theorem State.setFld_ledgerErr (f : Fld) (v : Nat) : (s.setFld f v).ledgerErr = s.ledgerErr := rfl
@[simp] theorem State.setFld_tallyQueue (f : Fld) (v : Nat) : (s.setFld f v).tallyQueue = s.tallyQueue := rfl
@[simp] theorem State.setFld_sweepAt (f : Fld) (v : Nat) : (s.setFld f v).sweepAt = s.sweepAt := rfl
@[simp] theorem State.setFld_runs (f : Fld) (v : Nat) : (s.setFld f v).runs = s.runs := rfl
@[simp] theorem State.setFld_oldPreempt (f : Fld) (v : Nat) : (s.setFld f v).oldPreempt = s.oldPreempt := rfl
@[simp] theorem State.setFld_kindlingHeld (f : Fld) (v : Nat) : (s.setFld f v).kindlingHeld = s.kindlingHeld := rfl
@[simp] theorem State.setFld_residencies (f : Fld) (v : Nat) : (s.setFld f v).residencies = s.residencies := rfl
@[simp] theorem State.setFld_units (f : Fld) (v : Nat) : (s.setFld f v).units = s.units := rfl
@[simp] theorem State.setFld_known (f : Fld) (v : Nat) : (s.setFld f v).known = s.known := rfl
@[simp] theorem State.setFld_dies (f : Fld) (v : Nat) : (s.setFld f v).dies = s.dies := rfl
@[simp] theorem State.setFld_hearths (f : Fld) (v : Nat) : (s.setFld f v).hearths = s.hearths := rfl
@[simp] theorem State.setFld_pages (f : Fld) (v : Nat) : (s.setFld f v).pages = s.pages := rfl
@[simp] theorem State.setFld_pageCmd (f : Fld) (v : Nat) : (s.setFld f v).pageCmd = s.pageCmd := rfl
@[simp] theorem State.setFld_reserves (f : Fld) (v : Nat) : (s.setFld f v).reserves = s.reserves := rfl
@[simp] theorem State.setFld_access (f : Fld) (v : Nat) : (s.setFld f v).access = s.access := rfl
@[simp] theorem State.setFld_bellowsAt (f : Fld) (v : Nat) : (s.setFld f v).bellowsAt = s.bellowsAt := rfl
@[simp] theorem State.setFld_bellows (f : Fld) (v : Nat) : (s.setFld f v).bellows = s.bellows := rfl
@[simp] theorem State.setFld_translations (f : Fld) (v : Nat) : (s.setFld f v).translations = s.translations := rfl
@[simp] theorem State.setFld_movesDone (f : Fld) (v : Nat) : (s.setFld f v).movesDone = s.movesDone := rfl
@[simp] theorem State.setFld_moves (f : Fld) (v : Nat) : (s.setFld f v).moves = s.moves := rfl
@[simp] theorem State.setFld_dmcs (f : Fld) (v : Nat) : (s.setFld f v).dmcs = s.dmcs := rfl
@[simp] theorem State.setFld_links (f : Fld) (v : Nat) : (s.setFld f v).links = s.links := rfl
@[simp] theorem State.setFld_waiting (f : Fld) (v : Nat) : (s.setFld f v).waiting = s.waiting := rfl
@[simp] theorem State.setFld_saf (f : Fld) (v : Nat) : (s.setFld f v).saf = s.saf := rfl
@[simp] theorem State.setFld_keys (f : Fld) (v : Nat) : (s.setFld f v).keys = s.keys := rfl
@[simp] theorem State.setFld_measured (f : Fld) (v : Nat) : (s.setFld f v).measured = s.measured := rfl
@[simp] theorem State.setFld_cnts (f : Fld) (v : Nat) : (s.setFld f v).cnts = s.cnts := rfl
@[simp] theorem State.setFld_trace (f : Fld) (v : Nat) : (s.setFld f v).trace = s.trace := rfl
@[simp] theorem State.setFld_relays (f : Fld) (v : Nat) : (s.setFld f v).relays = s.relays := rfl
@[simp] theorem State.setFld_cams (f : Fld) (v : Nat) : (s.setFld f v).cams = s.cams := rfl
@[simp] theorem State.setFld_audio (f : Fld) (v : Nat) : (s.setFld f v).audio = s.audio := rfl
@[simp] theorem State.setFld_wake (f : Fld) (v : Nat) : (s.setFld f v).wake = s.wake := rfl
@[simp] theorem State.setFld_power (f : Fld) (v : Nat) : (s.setFld f v).power = s.power := rfl
@[simp] theorem State.setFld_micOpen (f : Fld) (v : Nat) : (s.setFld f v).micOpen = s.micOpen := rfl
@[simp] theorem State.setFld_ports (f : Fld) (v : Nat) : (s.setFld f v).ports = s.ports := rfl
@[simp] theorem State.setFld_inds (f : Fld) (v : Nat) : (s.setFld f v).inds = s.inds := rfl
@[simp] theorem State.setFld_tap (f : Fld) (v : Nat) : (s.setFld f v).tap = s.tap := rfl

/-! `State.setFlag` -/

@[simp] theorem State.setFlag_pending (f : Fld) (b : Bool) : (s.setFlag f b).pending = s.pending := rfl
@[simp] theorem State.setFlag_variant (f : Fld) (b : Bool) : (s.setFlag f b).variant = s.variant := rfl
@[simp] theorem State.setFlag_grade (f : Fld) (b : Bool) : (s.setFlag f b).grade = s.grade := rfl
@[simp] theorem State.setFlag_latch (f : Fld) (b : Bool) : (s.setFlag f b).latch = s.latch := rfl
@[simp] theorem State.setFlag_hostRsp (f : Fld) (b : Bool) : (s.setFlag f b).hostRsp = s.hostRsp := rfl
@[simp] theorem State.setFlag_hostPoison (f : Fld) (b : Bool) : (s.setFlag f b).hostPoison = s.hostPoison := rfl
@[simp] theorem State.setFlag_mem (f : Fld) (b : Bool) : (s.setFlag f b).mem = s.mem := rfl
@[simp] theorem State.setFlag_env (f : Fld) (b : Bool) : (s.setFlag f b).env = s.env := rfl
@[simp] theorem State.setFlag_drawn (f : Fld) (b : Bool) : (s.setFlag f b).drawn = s.drawn := rfl
@[simp] theorem State.setFlag_sent (f : Fld) (b : Bool) : (s.setFlag f b).sent = s.sent := rfl
@[simp] theorem State.setFlag_tb (f : Fld) (b : Bool) : (s.setFlag f b).tb = s.tb := rfl
@[simp] theorem State.setFlag_clients (f : Fld) (b : Bool) : (s.setFlag f b).clients = s.clients := rfl
@[simp] theorem State.setFlag_rings (f : Fld) (b : Bool) : (s.setFlag f b).rings = s.rings := rfl
@[simp] theorem State.setFlag_steps (f : Fld) (b : Bool) : (s.setFlag f b).steps = s.steps := rfl
@[simp] theorem State.setFlag_journal (f : Fld) (b : Bool) : (s.setFlag f b).journal = s.journal := rfl
@[simp] theorem State.setFlag_ledgerErr (f : Fld) (b : Bool) : (s.setFlag f b).ledgerErr = s.ledgerErr := rfl
@[simp] theorem State.setFlag_tallyQueue (f : Fld) (b : Bool) : (s.setFlag f b).tallyQueue = s.tallyQueue := rfl
@[simp] theorem State.setFlag_sweepAt (f : Fld) (b : Bool) : (s.setFlag f b).sweepAt = s.sweepAt := rfl
@[simp] theorem State.setFlag_runs (f : Fld) (b : Bool) : (s.setFlag f b).runs = s.runs := rfl
@[simp] theorem State.setFlag_oldPreempt (f : Fld) (b : Bool) : (s.setFlag f b).oldPreempt = s.oldPreempt := rfl
@[simp] theorem State.setFlag_kindlingHeld (f : Fld) (b : Bool) : (s.setFlag f b).kindlingHeld = s.kindlingHeld := rfl
@[simp] theorem State.setFlag_residencies (f : Fld) (b : Bool) : (s.setFlag f b).residencies = s.residencies := rfl
@[simp] theorem State.setFlag_units (f : Fld) (b : Bool) : (s.setFlag f b).units = s.units := rfl
@[simp] theorem State.setFlag_known (f : Fld) (b : Bool) : (s.setFlag f b).known = s.known := rfl
@[simp] theorem State.setFlag_dies (f : Fld) (b : Bool) : (s.setFlag f b).dies = s.dies := rfl
@[simp] theorem State.setFlag_hearths (f : Fld) (b : Bool) : (s.setFlag f b).hearths = s.hearths := rfl
@[simp] theorem State.setFlag_pages (f : Fld) (b : Bool) : (s.setFlag f b).pages = s.pages := rfl
@[simp] theorem State.setFlag_pageCmd (f : Fld) (b : Bool) : (s.setFlag f b).pageCmd = s.pageCmd := rfl
@[simp] theorem State.setFlag_reserves (f : Fld) (b : Bool) : (s.setFlag f b).reserves = s.reserves := rfl
@[simp] theorem State.setFlag_access (f : Fld) (b : Bool) : (s.setFlag f b).access = s.access := rfl
@[simp] theorem State.setFlag_bellowsAt (f : Fld) (b : Bool) : (s.setFlag f b).bellowsAt = s.bellowsAt := rfl
@[simp] theorem State.setFlag_bellows (f : Fld) (b : Bool) : (s.setFlag f b).bellows = s.bellows := rfl
@[simp] theorem State.setFlag_translations (f : Fld) (b : Bool) : (s.setFlag f b).translations = s.translations := rfl
@[simp] theorem State.setFlag_movesDone (f : Fld) (b : Bool) : (s.setFlag f b).movesDone = s.movesDone := rfl
@[simp] theorem State.setFlag_moves (f : Fld) (b : Bool) : (s.setFlag f b).moves = s.moves := rfl
@[simp] theorem State.setFlag_dmcs (f : Fld) (b : Bool) : (s.setFlag f b).dmcs = s.dmcs := rfl
@[simp] theorem State.setFlag_links (f : Fld) (b : Bool) : (s.setFlag f b).links = s.links := rfl
@[simp] theorem State.setFlag_waiting (f : Fld) (b : Bool) : (s.setFlag f b).waiting = s.waiting := rfl
@[simp] theorem State.setFlag_saf (f : Fld) (b : Bool) : (s.setFlag f b).saf = s.saf := rfl
@[simp] theorem State.setFlag_keys (f : Fld) (b : Bool) : (s.setFlag f b).keys = s.keys := rfl
@[simp] theorem State.setFlag_measured (f : Fld) (b : Bool) : (s.setFlag f b).measured = s.measured := rfl
@[simp] theorem State.setFlag_cnts (f : Fld) (b : Bool) : (s.setFlag f b).cnts = s.cnts := rfl
@[simp] theorem State.setFlag_trace (f : Fld) (b : Bool) : (s.setFlag f b).trace = s.trace := rfl
@[simp] theorem State.setFlag_relays (f : Fld) (b : Bool) : (s.setFlag f b).relays = s.relays := rfl
@[simp] theorem State.setFlag_cams (f : Fld) (b : Bool) : (s.setFlag f b).cams = s.cams := rfl
@[simp] theorem State.setFlag_audio (f : Fld) (b : Bool) : (s.setFlag f b).audio = s.audio := rfl
@[simp] theorem State.setFlag_wake (f : Fld) (b : Bool) : (s.setFlag f b).wake = s.wake := rfl
@[simp] theorem State.setFlag_power (f : Fld) (b : Bool) : (s.setFlag f b).power = s.power := rfl
@[simp] theorem State.setFlag_micOpen (f : Fld) (b : Bool) : (s.setFlag f b).micOpen = s.micOpen := rfl
@[simp] theorem State.setFlag_ports (f : Fld) (b : Bool) : (s.setFlag f b).ports = s.ports := rfl
@[simp] theorem State.setFlag_inds (f : Fld) (b : Bool) : (s.setFlag f b).inds = s.inds := rfl
@[simp] theorem State.setFlag_tap (f : Fld) (b : Bool) : (s.setFlag f b).tap = s.tap := rfl

/-! `State.addFld` -/

@[simp] theorem State.addFld_pending (f : Fld) (n : Nat) : (s.addFld f n).pending = s.pending := rfl
@[simp] theorem State.addFld_variant (f : Fld) (n : Nat) : (s.addFld f n).variant = s.variant := rfl
@[simp] theorem State.addFld_grade (f : Fld) (n : Nat) : (s.addFld f n).grade = s.grade := rfl
@[simp] theorem State.addFld_latch (f : Fld) (n : Nat) : (s.addFld f n).latch = s.latch := rfl
@[simp] theorem State.addFld_hostRsp (f : Fld) (n : Nat) : (s.addFld f n).hostRsp = s.hostRsp := rfl
@[simp] theorem State.addFld_hostPoison (f : Fld) (n : Nat) : (s.addFld f n).hostPoison = s.hostPoison := rfl
@[simp] theorem State.addFld_mem (f : Fld) (n : Nat) : (s.addFld f n).mem = s.mem := rfl
@[simp] theorem State.addFld_env (f : Fld) (n : Nat) : (s.addFld f n).env = s.env := rfl
@[simp] theorem State.addFld_drawn (f : Fld) (n : Nat) : (s.addFld f n).drawn = s.drawn := rfl
@[simp] theorem State.addFld_sent (f : Fld) (n : Nat) : (s.addFld f n).sent = s.sent := rfl
@[simp] theorem State.addFld_tb (f : Fld) (n : Nat) : (s.addFld f n).tb = s.tb := rfl
@[simp] theorem State.addFld_clients (f : Fld) (n : Nat) : (s.addFld f n).clients = s.clients := rfl
@[simp] theorem State.addFld_rings (f : Fld) (n : Nat) : (s.addFld f n).rings = s.rings := rfl
@[simp] theorem State.addFld_steps (f : Fld) (n : Nat) : (s.addFld f n).steps = s.steps := rfl
@[simp] theorem State.addFld_journal (f : Fld) (n : Nat) : (s.addFld f n).journal = s.journal := rfl
@[simp] theorem State.addFld_ledgerErr (f : Fld) (n : Nat) : (s.addFld f n).ledgerErr = s.ledgerErr := rfl
@[simp] theorem State.addFld_tallyQueue (f : Fld) (n : Nat) : (s.addFld f n).tallyQueue = s.tallyQueue := rfl
@[simp] theorem State.addFld_sweepAt (f : Fld) (n : Nat) : (s.addFld f n).sweepAt = s.sweepAt := rfl
@[simp] theorem State.addFld_runs (f : Fld) (n : Nat) : (s.addFld f n).runs = s.runs := rfl
@[simp] theorem State.addFld_oldPreempt (f : Fld) (n : Nat) : (s.addFld f n).oldPreempt = s.oldPreempt := rfl
@[simp] theorem State.addFld_kindlingHeld (f : Fld) (n : Nat) : (s.addFld f n).kindlingHeld = s.kindlingHeld := rfl
@[simp] theorem State.addFld_residencies (f : Fld) (n : Nat) : (s.addFld f n).residencies = s.residencies := rfl
@[simp] theorem State.addFld_units (f : Fld) (n : Nat) : (s.addFld f n).units = s.units := rfl
@[simp] theorem State.addFld_known (f : Fld) (n : Nat) : (s.addFld f n).known = s.known := rfl
@[simp] theorem State.addFld_dies (f : Fld) (n : Nat) : (s.addFld f n).dies = s.dies := rfl
@[simp] theorem State.addFld_hearths (f : Fld) (n : Nat) : (s.addFld f n).hearths = s.hearths := rfl
@[simp] theorem State.addFld_pages (f : Fld) (n : Nat) : (s.addFld f n).pages = s.pages := rfl
@[simp] theorem State.addFld_pageCmd (f : Fld) (n : Nat) : (s.addFld f n).pageCmd = s.pageCmd := rfl
@[simp] theorem State.addFld_reserves (f : Fld) (n : Nat) : (s.addFld f n).reserves = s.reserves := rfl
@[simp] theorem State.addFld_access (f : Fld) (n : Nat) : (s.addFld f n).access = s.access := rfl
@[simp] theorem State.addFld_bellowsAt (f : Fld) (n : Nat) : (s.addFld f n).bellowsAt = s.bellowsAt := rfl
@[simp] theorem State.addFld_bellows (f : Fld) (n : Nat) : (s.addFld f n).bellows = s.bellows := rfl
@[simp] theorem State.addFld_translations (f : Fld) (n : Nat) : (s.addFld f n).translations = s.translations := rfl
@[simp] theorem State.addFld_movesDone (f : Fld) (n : Nat) : (s.addFld f n).movesDone = s.movesDone := rfl
@[simp] theorem State.addFld_moves (f : Fld) (n : Nat) : (s.addFld f n).moves = s.moves := rfl
@[simp] theorem State.addFld_dmcs (f : Fld) (n : Nat) : (s.addFld f n).dmcs = s.dmcs := rfl
@[simp] theorem State.addFld_links (f : Fld) (n : Nat) : (s.addFld f n).links = s.links := rfl
@[simp] theorem State.addFld_waiting (f : Fld) (n : Nat) : (s.addFld f n).waiting = s.waiting := rfl
@[simp] theorem State.addFld_saf (f : Fld) (n : Nat) : (s.addFld f n).saf = s.saf := rfl
@[simp] theorem State.addFld_keys (f : Fld) (n : Nat) : (s.addFld f n).keys = s.keys := rfl
@[simp] theorem State.addFld_measured (f : Fld) (n : Nat) : (s.addFld f n).measured = s.measured := rfl
@[simp] theorem State.addFld_cnts (f : Fld) (n : Nat) : (s.addFld f n).cnts = s.cnts := rfl
@[simp] theorem State.addFld_trace (f : Fld) (n : Nat) : (s.addFld f n).trace = s.trace := rfl
@[simp] theorem State.addFld_relays (f : Fld) (n : Nat) : (s.addFld f n).relays = s.relays := rfl
@[simp] theorem State.addFld_cams (f : Fld) (n : Nat) : (s.addFld f n).cams = s.cams := rfl
@[simp] theorem State.addFld_audio (f : Fld) (n : Nat) : (s.addFld f n).audio = s.audio := rfl
@[simp] theorem State.addFld_wake (f : Fld) (n : Nat) : (s.addFld f n).wake = s.wake := rfl
@[simp] theorem State.addFld_power (f : Fld) (n : Nat) : (s.addFld f n).power = s.power := rfl
@[simp] theorem State.addFld_micOpen (f : Fld) (n : Nat) : (s.addFld f n).micOpen = s.micOpen := rfl
@[simp] theorem State.addFld_ports (f : Fld) (n : Nat) : (s.addFld f n).ports = s.ports := rfl
@[simp] theorem State.addFld_inds (f : Fld) (n : Nat) : (s.addFld f n).inds = s.inds := rfl
@[simp] theorem State.addFld_tap (f : Fld) (n : Nat) : (s.addFld f n).tap = s.tap := rfl

/-! `State.store` -/

@[simp] theorem State.store_pending (a : Nat) (bs : List Byte) : (s.store a bs).pending = s.pending := rfl
@[simp] theorem State.store_variant (a : Nat) (bs : List Byte) : (s.store a bs).variant = s.variant := rfl
@[simp] theorem State.store_grade (a : Nat) (bs : List Byte) : (s.store a bs).grade = s.grade := rfl
@[simp] theorem State.store_regs (a : Nat) (bs : List Byte) : (s.store a bs).regs = s.regs := rfl
@[simp] theorem State.store_latch (a : Nat) (bs : List Byte) : (s.store a bs).latch = s.latch := rfl
@[simp] theorem State.store_hostRsp (a : Nat) (bs : List Byte) : (s.store a bs).hostRsp = s.hostRsp := rfl
@[simp] theorem State.store_hostPoison (a : Nat) (bs : List Byte) : (s.store a bs).hostPoison = s.hostPoison := rfl
@[simp] theorem State.store_env (a : Nat) (bs : List Byte) : (s.store a bs).env = s.env := rfl
@[simp] theorem State.store_drawn (a : Nat) (bs : List Byte) : (s.store a bs).drawn = s.drawn := rfl
@[simp] theorem State.store_sent (a : Nat) (bs : List Byte) : (s.store a bs).sent = s.sent := rfl
@[simp] theorem State.store_tb (a : Nat) (bs : List Byte) : (s.store a bs).tb = s.tb := rfl
@[simp] theorem State.store_clients (a : Nat) (bs : List Byte) : (s.store a bs).clients = s.clients := rfl
@[simp] theorem State.store_rings (a : Nat) (bs : List Byte) : (s.store a bs).rings = s.rings := rfl
@[simp] theorem State.store_steps (a : Nat) (bs : List Byte) : (s.store a bs).steps = s.steps := rfl
@[simp] theorem State.store_journal (a : Nat) (bs : List Byte) : (s.store a bs).journal = s.journal := rfl
@[simp] theorem State.store_ledgerErr (a : Nat) (bs : List Byte) : (s.store a bs).ledgerErr = s.ledgerErr := rfl
@[simp] theorem State.store_tallyQueue (a : Nat) (bs : List Byte) : (s.store a bs).tallyQueue = s.tallyQueue := rfl
@[simp] theorem State.store_sweepAt (a : Nat) (bs : List Byte) : (s.store a bs).sweepAt = s.sweepAt := rfl
@[simp] theorem State.store_runs (a : Nat) (bs : List Byte) : (s.store a bs).runs = s.runs := rfl
@[simp] theorem State.store_oldPreempt (a : Nat) (bs : List Byte) : (s.store a bs).oldPreempt = s.oldPreempt := rfl
@[simp] theorem State.store_kindlingHeld (a : Nat) (bs : List Byte) : (s.store a bs).kindlingHeld = s.kindlingHeld := rfl
@[simp] theorem State.store_residencies (a : Nat) (bs : List Byte) : (s.store a bs).residencies = s.residencies := rfl
@[simp] theorem State.store_units (a : Nat) (bs : List Byte) : (s.store a bs).units = s.units := rfl
@[simp] theorem State.store_known (a : Nat) (bs : List Byte) : (s.store a bs).known = s.known := rfl
@[simp] theorem State.store_dies (a : Nat) (bs : List Byte) : (s.store a bs).dies = s.dies := rfl
@[simp] theorem State.store_hearths (a : Nat) (bs : List Byte) : (s.store a bs).hearths = s.hearths := rfl
@[simp] theorem State.store_pages (a : Nat) (bs : List Byte) : (s.store a bs).pages = s.pages := rfl
@[simp] theorem State.store_pageCmd (a : Nat) (bs : List Byte) : (s.store a bs).pageCmd = s.pageCmd := rfl
@[simp] theorem State.store_reserves (a : Nat) (bs : List Byte) : (s.store a bs).reserves = s.reserves := rfl
@[simp] theorem State.store_access (a : Nat) (bs : List Byte) : (s.store a bs).access = s.access := rfl
@[simp] theorem State.store_bellowsAt (a : Nat) (bs : List Byte) : (s.store a bs).bellowsAt = s.bellowsAt := rfl
@[simp] theorem State.store_bellows (a : Nat) (bs : List Byte) : (s.store a bs).bellows = s.bellows := rfl
@[simp] theorem State.store_translations (a : Nat) (bs : List Byte) : (s.store a bs).translations = s.translations := rfl
@[simp] theorem State.store_movesDone (a : Nat) (bs : List Byte) : (s.store a bs).movesDone = s.movesDone := rfl
@[simp] theorem State.store_moves (a : Nat) (bs : List Byte) : (s.store a bs).moves = s.moves := rfl
@[simp] theorem State.store_dmcs (a : Nat) (bs : List Byte) : (s.store a bs).dmcs = s.dmcs := rfl
@[simp] theorem State.store_links (a : Nat) (bs : List Byte) : (s.store a bs).links = s.links := rfl
@[simp] theorem State.store_waiting (a : Nat) (bs : List Byte) : (s.store a bs).waiting = s.waiting := rfl
@[simp] theorem State.store_saf (a : Nat) (bs : List Byte) : (s.store a bs).saf = s.saf := rfl
@[simp] theorem State.store_keys (a : Nat) (bs : List Byte) : (s.store a bs).keys = s.keys := rfl
@[simp] theorem State.store_measured (a : Nat) (bs : List Byte) : (s.store a bs).measured = s.measured := rfl
@[simp] theorem State.store_cnts (a : Nat) (bs : List Byte) : (s.store a bs).cnts = s.cnts := rfl
@[simp] theorem State.store_trace (a : Nat) (bs : List Byte) : (s.store a bs).trace = s.trace := rfl
@[simp] theorem State.store_relays (a : Nat) (bs : List Byte) : (s.store a bs).relays = s.relays := rfl
@[simp] theorem State.store_cams (a : Nat) (bs : List Byte) : (s.store a bs).cams = s.cams := rfl
@[simp] theorem State.store_audio (a : Nat) (bs : List Byte) : (s.store a bs).audio = s.audio := rfl
@[simp] theorem State.store_wake (a : Nat) (bs : List Byte) : (s.store a bs).wake = s.wake := rfl
@[simp] theorem State.store_power (a : Nat) (bs : List Byte) : (s.store a bs).power = s.power := rfl
@[simp] theorem State.store_micOpen (a : Nat) (bs : List Byte) : (s.store a bs).micOpen = s.micOpen := rfl
@[simp] theorem State.store_ports (a : Nat) (bs : List Byte) : (s.store a bs).ports = s.ports := rfl
@[simp] theorem State.store_inds (a : Nat) (bs : List Byte) : (s.store a bs).inds = s.inds := rfl
@[simp] theorem State.store_tap (a : Nat) (bs : List Byte) : (s.store a bs).tap = s.tap := rfl

/-! `State.send` -/

@[simp] theorem State.send_pending (m : Sent) : (s.send m).pending = s.pending := rfl
@[simp] theorem State.send_variant (m : Sent) : (s.send m).variant = s.variant := rfl
@[simp] theorem State.send_grade (m : Sent) : (s.send m).grade = s.grade := rfl
@[simp] theorem State.send_regs (m : Sent) : (s.send m).regs = s.regs := rfl
@[simp] theorem State.send_latch (m : Sent) : (s.send m).latch = s.latch := rfl
@[simp] theorem State.send_hostRsp (m : Sent) : (s.send m).hostRsp = s.hostRsp := rfl
@[simp] theorem State.send_hostPoison (m : Sent) : (s.send m).hostPoison = s.hostPoison := rfl
@[simp] theorem State.send_mem (m : Sent) : (s.send m).mem = s.mem := rfl
@[simp] theorem State.send_env (m : Sent) : (s.send m).env = s.env := rfl
@[simp] theorem State.send_drawn (m : Sent) : (s.send m).drawn = s.drawn := rfl
@[simp] theorem State.send_tb (m : Sent) : (s.send m).tb = s.tb := rfl
@[simp] theorem State.send_clients (m : Sent) : (s.send m).clients = s.clients := rfl
@[simp] theorem State.send_rings (m : Sent) : (s.send m).rings = s.rings := rfl
@[simp] theorem State.send_steps (m : Sent) : (s.send m).steps = s.steps := rfl
@[simp] theorem State.send_journal (m : Sent) : (s.send m).journal = s.journal := rfl
@[simp] theorem State.send_ledgerErr (m : Sent) : (s.send m).ledgerErr = s.ledgerErr := rfl
@[simp] theorem State.send_tallyQueue (m : Sent) : (s.send m).tallyQueue = s.tallyQueue := rfl
@[simp] theorem State.send_sweepAt (m : Sent) : (s.send m).sweepAt = s.sweepAt := rfl
@[simp] theorem State.send_runs (m : Sent) : (s.send m).runs = s.runs := rfl
@[simp] theorem State.send_oldPreempt (m : Sent) : (s.send m).oldPreempt = s.oldPreempt := rfl
@[simp] theorem State.send_kindlingHeld (m : Sent) : (s.send m).kindlingHeld = s.kindlingHeld := rfl
@[simp] theorem State.send_residencies (m : Sent) : (s.send m).residencies = s.residencies := rfl
@[simp] theorem State.send_units (m : Sent) : (s.send m).units = s.units := rfl
@[simp] theorem State.send_known (m : Sent) : (s.send m).known = s.known := rfl
@[simp] theorem State.send_dies (m : Sent) : (s.send m).dies = s.dies := rfl
@[simp] theorem State.send_hearths (m : Sent) : (s.send m).hearths = s.hearths := rfl
@[simp] theorem State.send_pages (m : Sent) : (s.send m).pages = s.pages := rfl
@[simp] theorem State.send_pageCmd (m : Sent) : (s.send m).pageCmd = s.pageCmd := rfl
@[simp] theorem State.send_reserves (m : Sent) : (s.send m).reserves = s.reserves := rfl
@[simp] theorem State.send_access (m : Sent) : (s.send m).access = s.access := rfl
@[simp] theorem State.send_bellowsAt (m : Sent) : (s.send m).bellowsAt = s.bellowsAt := rfl
@[simp] theorem State.send_bellows (m : Sent) : (s.send m).bellows = s.bellows := rfl
@[simp] theorem State.send_translations (m : Sent) : (s.send m).translations = s.translations := rfl
@[simp] theorem State.send_movesDone (m : Sent) : (s.send m).movesDone = s.movesDone := rfl
@[simp] theorem State.send_moves (m : Sent) : (s.send m).moves = s.moves := rfl
@[simp] theorem State.send_dmcs (m : Sent) : (s.send m).dmcs = s.dmcs := rfl
@[simp] theorem State.send_links (m : Sent) : (s.send m).links = s.links := rfl
@[simp] theorem State.send_waiting (m : Sent) : (s.send m).waiting = s.waiting := rfl
@[simp] theorem State.send_saf (m : Sent) : (s.send m).saf = s.saf := rfl
@[simp] theorem State.send_keys (m : Sent) : (s.send m).keys = s.keys := rfl
@[simp] theorem State.send_measured (m : Sent) : (s.send m).measured = s.measured := rfl
@[simp] theorem State.send_cnts (m : Sent) : (s.send m).cnts = s.cnts := rfl
@[simp] theorem State.send_trace (m : Sent) : (s.send m).trace = s.trace := rfl
@[simp] theorem State.send_relays (m : Sent) : (s.send m).relays = s.relays := rfl
@[simp] theorem State.send_cams (m : Sent) : (s.send m).cams = s.cams := rfl
@[simp] theorem State.send_audio (m : Sent) : (s.send m).audio = s.audio := rfl
@[simp] theorem State.send_wake (m : Sent) : (s.send m).wake = s.wake := rfl
@[simp] theorem State.send_power (m : Sent) : (s.send m).power = s.power := rfl
@[simp] theorem State.send_micOpen (m : Sent) : (s.send m).micOpen = s.micOpen := rfl
@[simp] theorem State.send_ports (m : Sent) : (s.send m).ports = s.ports := rfl
@[simp] theorem State.send_inds (m : Sent) : (s.send m).inds = s.inds := rfl
@[simp] theorem State.send_tap (m : Sent) : (s.send m).tap = s.tap := rfl

/-! `State.msix` -/

@[simp] theorem State.msix_pending (fn vec : Nat) : (s.msix fn vec).pending = s.pending := rfl
@[simp] theorem State.msix_variant (fn vec : Nat) : (s.msix fn vec).variant = s.variant := rfl
@[simp] theorem State.msix_grade (fn vec : Nat) : (s.msix fn vec).grade = s.grade := rfl
@[simp] theorem State.msix_regs (fn vec : Nat) : (s.msix fn vec).regs = s.regs := rfl
@[simp] theorem State.msix_latch (fn vec : Nat) : (s.msix fn vec).latch = s.latch := rfl
@[simp] theorem State.msix_hostRsp (fn vec : Nat) : (s.msix fn vec).hostRsp = s.hostRsp := rfl
@[simp] theorem State.msix_hostPoison (fn vec : Nat) : (s.msix fn vec).hostPoison = s.hostPoison := rfl
@[simp] theorem State.msix_mem (fn vec : Nat) : (s.msix fn vec).mem = s.mem := rfl
@[simp] theorem State.msix_env (fn vec : Nat) : (s.msix fn vec).env = s.env := rfl
@[simp] theorem State.msix_drawn (fn vec : Nat) : (s.msix fn vec).drawn = s.drawn := rfl
@[simp] theorem State.msix_tb (fn vec : Nat) : (s.msix fn vec).tb = s.tb := rfl
@[simp] theorem State.msix_clients (fn vec : Nat) : (s.msix fn vec).clients = s.clients := rfl
@[simp] theorem State.msix_rings (fn vec : Nat) : (s.msix fn vec).rings = s.rings := rfl
@[simp] theorem State.msix_steps (fn vec : Nat) : (s.msix fn vec).steps = s.steps := rfl
@[simp] theorem State.msix_journal (fn vec : Nat) : (s.msix fn vec).journal = s.journal := rfl
@[simp] theorem State.msix_ledgerErr (fn vec : Nat) : (s.msix fn vec).ledgerErr = s.ledgerErr := rfl
@[simp] theorem State.msix_tallyQueue (fn vec : Nat) : (s.msix fn vec).tallyQueue = s.tallyQueue := rfl
@[simp] theorem State.msix_sweepAt (fn vec : Nat) : (s.msix fn vec).sweepAt = s.sweepAt := rfl
@[simp] theorem State.msix_runs (fn vec : Nat) : (s.msix fn vec).runs = s.runs := rfl
@[simp] theorem State.msix_oldPreempt (fn vec : Nat) : (s.msix fn vec).oldPreempt = s.oldPreempt := rfl
@[simp] theorem State.msix_kindlingHeld (fn vec : Nat) : (s.msix fn vec).kindlingHeld = s.kindlingHeld := rfl
@[simp] theorem State.msix_residencies (fn vec : Nat) : (s.msix fn vec).residencies = s.residencies := rfl
@[simp] theorem State.msix_units (fn vec : Nat) : (s.msix fn vec).units = s.units := rfl
@[simp] theorem State.msix_known (fn vec : Nat) : (s.msix fn vec).known = s.known := rfl
@[simp] theorem State.msix_dies (fn vec : Nat) : (s.msix fn vec).dies = s.dies := rfl
@[simp] theorem State.msix_hearths (fn vec : Nat) : (s.msix fn vec).hearths = s.hearths := rfl
@[simp] theorem State.msix_pages (fn vec : Nat) : (s.msix fn vec).pages = s.pages := rfl
@[simp] theorem State.msix_pageCmd (fn vec : Nat) : (s.msix fn vec).pageCmd = s.pageCmd := rfl
@[simp] theorem State.msix_reserves (fn vec : Nat) : (s.msix fn vec).reserves = s.reserves := rfl
@[simp] theorem State.msix_access (fn vec : Nat) : (s.msix fn vec).access = s.access := rfl
@[simp] theorem State.msix_bellowsAt (fn vec : Nat) : (s.msix fn vec).bellowsAt = s.bellowsAt := rfl
@[simp] theorem State.msix_bellows (fn vec : Nat) : (s.msix fn vec).bellows = s.bellows := rfl
@[simp] theorem State.msix_translations (fn vec : Nat) : (s.msix fn vec).translations = s.translations := rfl
@[simp] theorem State.msix_movesDone (fn vec : Nat) : (s.msix fn vec).movesDone = s.movesDone := rfl
@[simp] theorem State.msix_moves (fn vec : Nat) : (s.msix fn vec).moves = s.moves := rfl
@[simp] theorem State.msix_dmcs (fn vec : Nat) : (s.msix fn vec).dmcs = s.dmcs := rfl
@[simp] theorem State.msix_links (fn vec : Nat) : (s.msix fn vec).links = s.links := rfl
@[simp] theorem State.msix_waiting (fn vec : Nat) : (s.msix fn vec).waiting = s.waiting := rfl
@[simp] theorem State.msix_saf (fn vec : Nat) : (s.msix fn vec).saf = s.saf := rfl
@[simp] theorem State.msix_keys (fn vec : Nat) : (s.msix fn vec).keys = s.keys := rfl
@[simp] theorem State.msix_measured (fn vec : Nat) : (s.msix fn vec).measured = s.measured := rfl
@[simp] theorem State.msix_cnts (fn vec : Nat) : (s.msix fn vec).cnts = s.cnts := rfl
@[simp] theorem State.msix_trace (fn vec : Nat) : (s.msix fn vec).trace = s.trace := rfl
@[simp] theorem State.msix_relays (fn vec : Nat) : (s.msix fn vec).relays = s.relays := rfl
@[simp] theorem State.msix_cams (fn vec : Nat) : (s.msix fn vec).cams = s.cams := rfl
@[simp] theorem State.msix_audio (fn vec : Nat) : (s.msix fn vec).audio = s.audio := rfl
@[simp] theorem State.msix_wake (fn vec : Nat) : (s.msix fn vec).wake = s.wake := rfl
@[simp] theorem State.msix_power (fn vec : Nat) : (s.msix fn vec).power = s.power := rfl
@[simp] theorem State.msix_micOpen (fn vec : Nat) : (s.msix fn vec).micOpen = s.micOpen := rfl
@[simp] theorem State.msix_ports (fn vec : Nat) : (s.msix fn vec).ports = s.ports := rfl
@[simp] theorem State.msix_inds (fn vec : Nat) : (s.msix fn vec).inds = s.inds := rfl
@[simp] theorem State.msix_tap (fn vec : Nat) : (s.msix fn vec).tap = s.tap := rfl

/-! `State.hostAnswer` -/

@[simp] theorem State.hostAnswer_pending (bs : List Byte) : (s.hostAnswer bs).pending = s.pending := rfl
@[simp] theorem State.hostAnswer_variant (bs : List Byte) : (s.hostAnswer bs).variant = s.variant := rfl
@[simp] theorem State.hostAnswer_grade (bs : List Byte) : (s.hostAnswer bs).grade = s.grade := rfl
@[simp] theorem State.hostAnswer_regs (bs : List Byte) : (s.hostAnswer bs).regs = s.regs := rfl
@[simp] theorem State.hostAnswer_latch (bs : List Byte) : (s.hostAnswer bs).latch = s.latch := rfl
@[simp] theorem State.hostAnswer_mem (bs : List Byte) : (s.hostAnswer bs).mem = s.mem := rfl
@[simp] theorem State.hostAnswer_env (bs : List Byte) : (s.hostAnswer bs).env = s.env := rfl
@[simp] theorem State.hostAnswer_drawn (bs : List Byte) : (s.hostAnswer bs).drawn = s.drawn := rfl
@[simp] theorem State.hostAnswer_sent (bs : List Byte) : (s.hostAnswer bs).sent = s.sent := rfl
@[simp] theorem State.hostAnswer_tb (bs : List Byte) : (s.hostAnswer bs).tb = s.tb := rfl
@[simp] theorem State.hostAnswer_clients (bs : List Byte) : (s.hostAnswer bs).clients = s.clients := rfl
@[simp] theorem State.hostAnswer_rings (bs : List Byte) : (s.hostAnswer bs).rings = s.rings := rfl
@[simp] theorem State.hostAnswer_steps (bs : List Byte) : (s.hostAnswer bs).steps = s.steps := rfl
@[simp] theorem State.hostAnswer_journal (bs : List Byte) : (s.hostAnswer bs).journal = s.journal := rfl
@[simp] theorem State.hostAnswer_ledgerErr (bs : List Byte) : (s.hostAnswer bs).ledgerErr = s.ledgerErr := rfl
@[simp] theorem State.hostAnswer_tallyQueue (bs : List Byte) : (s.hostAnswer bs).tallyQueue = s.tallyQueue := rfl
@[simp] theorem State.hostAnswer_sweepAt (bs : List Byte) : (s.hostAnswer bs).sweepAt = s.sweepAt := rfl
@[simp] theorem State.hostAnswer_runs (bs : List Byte) : (s.hostAnswer bs).runs = s.runs := rfl
@[simp] theorem State.hostAnswer_oldPreempt (bs : List Byte) : (s.hostAnswer bs).oldPreempt = s.oldPreempt := rfl
@[simp] theorem State.hostAnswer_kindlingHeld (bs : List Byte) : (s.hostAnswer bs).kindlingHeld = s.kindlingHeld := rfl
@[simp] theorem State.hostAnswer_residencies (bs : List Byte) : (s.hostAnswer bs).residencies = s.residencies := rfl
@[simp] theorem State.hostAnswer_units (bs : List Byte) : (s.hostAnswer bs).units = s.units := rfl
@[simp] theorem State.hostAnswer_known (bs : List Byte) : (s.hostAnswer bs).known = s.known := rfl
@[simp] theorem State.hostAnswer_dies (bs : List Byte) : (s.hostAnswer bs).dies = s.dies := rfl
@[simp] theorem State.hostAnswer_hearths (bs : List Byte) : (s.hostAnswer bs).hearths = s.hearths := rfl
@[simp] theorem State.hostAnswer_pages (bs : List Byte) : (s.hostAnswer bs).pages = s.pages := rfl
@[simp] theorem State.hostAnswer_pageCmd (bs : List Byte) : (s.hostAnswer bs).pageCmd = s.pageCmd := rfl
@[simp] theorem State.hostAnswer_reserves (bs : List Byte) : (s.hostAnswer bs).reserves = s.reserves := rfl
@[simp] theorem State.hostAnswer_access (bs : List Byte) : (s.hostAnswer bs).access = s.access := rfl
@[simp] theorem State.hostAnswer_bellowsAt (bs : List Byte) : (s.hostAnswer bs).bellowsAt = s.bellowsAt := rfl
@[simp] theorem State.hostAnswer_bellows (bs : List Byte) : (s.hostAnswer bs).bellows = s.bellows := rfl
@[simp] theorem State.hostAnswer_translations (bs : List Byte) : (s.hostAnswer bs).translations = s.translations := rfl
@[simp] theorem State.hostAnswer_movesDone (bs : List Byte) : (s.hostAnswer bs).movesDone = s.movesDone := rfl
@[simp] theorem State.hostAnswer_moves (bs : List Byte) : (s.hostAnswer bs).moves = s.moves := rfl
@[simp] theorem State.hostAnswer_dmcs (bs : List Byte) : (s.hostAnswer bs).dmcs = s.dmcs := rfl
@[simp] theorem State.hostAnswer_links (bs : List Byte) : (s.hostAnswer bs).links = s.links := rfl
@[simp] theorem State.hostAnswer_waiting (bs : List Byte) : (s.hostAnswer bs).waiting = s.waiting := rfl
@[simp] theorem State.hostAnswer_saf (bs : List Byte) : (s.hostAnswer bs).saf = s.saf := rfl
@[simp] theorem State.hostAnswer_keys (bs : List Byte) : (s.hostAnswer bs).keys = s.keys := rfl
@[simp] theorem State.hostAnswer_measured (bs : List Byte) : (s.hostAnswer bs).measured = s.measured := rfl
@[simp] theorem State.hostAnswer_cnts (bs : List Byte) : (s.hostAnswer bs).cnts = s.cnts := rfl
@[simp] theorem State.hostAnswer_trace (bs : List Byte) : (s.hostAnswer bs).trace = s.trace := rfl
@[simp] theorem State.hostAnswer_relays (bs : List Byte) : (s.hostAnswer bs).relays = s.relays := rfl
@[simp] theorem State.hostAnswer_cams (bs : List Byte) : (s.hostAnswer bs).cams = s.cams := rfl
@[simp] theorem State.hostAnswer_audio (bs : List Byte) : (s.hostAnswer bs).audio = s.audio := rfl
@[simp] theorem State.hostAnswer_wake (bs : List Byte) : (s.hostAnswer bs).wake = s.wake := rfl
@[simp] theorem State.hostAnswer_power (bs : List Byte) : (s.hostAnswer bs).power = s.power := rfl
@[simp] theorem State.hostAnswer_micOpen (bs : List Byte) : (s.hostAnswer bs).micOpen = s.micOpen := rfl
@[simp] theorem State.hostAnswer_ports (bs : List Byte) : (s.hostAnswer bs).ports = s.ports := rfl
@[simp] theorem State.hostAnswer_inds (bs : List Byte) : (s.hostAnswer bs).inds = s.inds := rfl
@[simp] theorem State.hostAnswer_tap (bs : List Byte) : (s.hostAnswer bs).tap = s.tap := rfl

/-! `State.modUnit` -/

@[simp] theorem State.modUnit_pending (x : Nat) (f : UnitSt → UnitSt) : (s.modUnit x f).pending = s.pending := rfl
@[simp] theorem State.modUnit_variant (x : Nat) (f : UnitSt → UnitSt) : (s.modUnit x f).variant = s.variant := rfl
@[simp] theorem State.modUnit_grade (x : Nat) (f : UnitSt → UnitSt) : (s.modUnit x f).grade = s.grade := rfl
@[simp] theorem State.modUnit_regs (x : Nat) (f : UnitSt → UnitSt) : (s.modUnit x f).regs = s.regs := rfl
@[simp] theorem State.modUnit_latch (x : Nat) (f : UnitSt → UnitSt) : (s.modUnit x f).latch = s.latch := rfl
@[simp] theorem State.modUnit_hostRsp (x : Nat) (f : UnitSt → UnitSt) : (s.modUnit x f).hostRsp = s.hostRsp := rfl
@[simp] theorem State.modUnit_hostPoison (x : Nat) (f : UnitSt → UnitSt) : (s.modUnit x f).hostPoison = s.hostPoison := rfl
@[simp] theorem State.modUnit_mem (x : Nat) (f : UnitSt → UnitSt) : (s.modUnit x f).mem = s.mem := rfl
@[simp] theorem State.modUnit_env (x : Nat) (f : UnitSt → UnitSt) : (s.modUnit x f).env = s.env := rfl
@[simp] theorem State.modUnit_drawn (x : Nat) (f : UnitSt → UnitSt) : (s.modUnit x f).drawn = s.drawn := rfl
@[simp] theorem State.modUnit_sent (x : Nat) (f : UnitSt → UnitSt) : (s.modUnit x f).sent = s.sent := rfl
@[simp] theorem State.modUnit_tb (x : Nat) (f : UnitSt → UnitSt) : (s.modUnit x f).tb = s.tb := rfl
@[simp] theorem State.modUnit_clients (x : Nat) (f : UnitSt → UnitSt) : (s.modUnit x f).clients = s.clients := rfl
@[simp] theorem State.modUnit_rings (x : Nat) (f : UnitSt → UnitSt) : (s.modUnit x f).rings = s.rings := rfl
@[simp] theorem State.modUnit_steps (x : Nat) (f : UnitSt → UnitSt) : (s.modUnit x f).steps = s.steps := rfl
@[simp] theorem State.modUnit_journal (x : Nat) (f : UnitSt → UnitSt) : (s.modUnit x f).journal = s.journal := rfl
@[simp] theorem State.modUnit_ledgerErr (x : Nat) (f : UnitSt → UnitSt) : (s.modUnit x f).ledgerErr = s.ledgerErr := rfl
@[simp] theorem State.modUnit_tallyQueue (x : Nat) (f : UnitSt → UnitSt) : (s.modUnit x f).tallyQueue = s.tallyQueue := rfl
@[simp] theorem State.modUnit_sweepAt (x : Nat) (f : UnitSt → UnitSt) : (s.modUnit x f).sweepAt = s.sweepAt := rfl
@[simp] theorem State.modUnit_runs (x : Nat) (f : UnitSt → UnitSt) : (s.modUnit x f).runs = s.runs := rfl
@[simp] theorem State.modUnit_oldPreempt (x : Nat) (f : UnitSt → UnitSt) : (s.modUnit x f).oldPreempt = s.oldPreempt := rfl
@[simp] theorem State.modUnit_kindlingHeld (x : Nat) (f : UnitSt → UnitSt) : (s.modUnit x f).kindlingHeld = s.kindlingHeld := rfl
@[simp] theorem State.modUnit_residencies (x : Nat) (f : UnitSt → UnitSt) : (s.modUnit x f).residencies = s.residencies := rfl
@[simp] theorem State.modUnit_known (x : Nat) (f : UnitSt → UnitSt) : (s.modUnit x f).known = s.known := rfl
@[simp] theorem State.modUnit_dies (x : Nat) (f : UnitSt → UnitSt) : (s.modUnit x f).dies = s.dies := rfl
@[simp] theorem State.modUnit_hearths (x : Nat) (f : UnitSt → UnitSt) : (s.modUnit x f).hearths = s.hearths := rfl
@[simp] theorem State.modUnit_pages (x : Nat) (f : UnitSt → UnitSt) : (s.modUnit x f).pages = s.pages := rfl
@[simp] theorem State.modUnit_pageCmd (x : Nat) (f : UnitSt → UnitSt) : (s.modUnit x f).pageCmd = s.pageCmd := rfl
@[simp] theorem State.modUnit_reserves (x : Nat) (f : UnitSt → UnitSt) : (s.modUnit x f).reserves = s.reserves := rfl
@[simp] theorem State.modUnit_access (x : Nat) (f : UnitSt → UnitSt) : (s.modUnit x f).access = s.access := rfl
@[simp] theorem State.modUnit_bellowsAt (x : Nat) (f : UnitSt → UnitSt) : (s.modUnit x f).bellowsAt = s.bellowsAt := rfl
@[simp] theorem State.modUnit_bellows (x : Nat) (f : UnitSt → UnitSt) : (s.modUnit x f).bellows = s.bellows := rfl
@[simp] theorem State.modUnit_translations (x : Nat) (f : UnitSt → UnitSt) : (s.modUnit x f).translations = s.translations := rfl
@[simp] theorem State.modUnit_movesDone (x : Nat) (f : UnitSt → UnitSt) : (s.modUnit x f).movesDone = s.movesDone := rfl
@[simp] theorem State.modUnit_moves (x : Nat) (f : UnitSt → UnitSt) : (s.modUnit x f).moves = s.moves := rfl
@[simp] theorem State.modUnit_dmcs (x : Nat) (f : UnitSt → UnitSt) : (s.modUnit x f).dmcs = s.dmcs := rfl
@[simp] theorem State.modUnit_links (x : Nat) (f : UnitSt → UnitSt) : (s.modUnit x f).links = s.links := rfl
@[simp] theorem State.modUnit_waiting (x : Nat) (f : UnitSt → UnitSt) : (s.modUnit x f).waiting = s.waiting := rfl
@[simp] theorem State.modUnit_saf (x : Nat) (f : UnitSt → UnitSt) : (s.modUnit x f).saf = s.saf := rfl
@[simp] theorem State.modUnit_keys (x : Nat) (f : UnitSt → UnitSt) : (s.modUnit x f).keys = s.keys := rfl
@[simp] theorem State.modUnit_measured (x : Nat) (f : UnitSt → UnitSt) : (s.modUnit x f).measured = s.measured := rfl
@[simp] theorem State.modUnit_cnts (x : Nat) (f : UnitSt → UnitSt) : (s.modUnit x f).cnts = s.cnts := rfl
@[simp] theorem State.modUnit_trace (x : Nat) (f : UnitSt → UnitSt) : (s.modUnit x f).trace = s.trace := rfl
@[simp] theorem State.modUnit_relays (x : Nat) (f : UnitSt → UnitSt) : (s.modUnit x f).relays = s.relays := rfl
@[simp] theorem State.modUnit_cams (x : Nat) (f : UnitSt → UnitSt) : (s.modUnit x f).cams = s.cams := rfl
@[simp] theorem State.modUnit_audio (x : Nat) (f : UnitSt → UnitSt) : (s.modUnit x f).audio = s.audio := rfl
@[simp] theorem State.modUnit_wake (x : Nat) (f : UnitSt → UnitSt) : (s.modUnit x f).wake = s.wake := rfl
@[simp] theorem State.modUnit_power (x : Nat) (f : UnitSt → UnitSt) : (s.modUnit x f).power = s.power := rfl
@[simp] theorem State.modUnit_micOpen (x : Nat) (f : UnitSt → UnitSt) : (s.modUnit x f).micOpen = s.micOpen := rfl
@[simp] theorem State.modUnit_ports (x : Nat) (f : UnitSt → UnitSt) : (s.modUnit x f).ports = s.ports := rfl
@[simp] theorem State.modUnit_inds (x : Nat) (f : UnitSt → UnitSt) : (s.modUnit x f).inds = s.inds := rfl
@[simp] theorem State.modUnit_tap (x : Nat) (f : UnitSt → UnitSt) : (s.modUnit x f).tap = s.tap := rfl

/-! `State.modDie` -/

@[simp] theorem State.modDie_pending (x : Nat) (f : Die → Die) : (s.modDie x f).pending = s.pending := rfl
@[simp] theorem State.modDie_variant (x : Nat) (f : Die → Die) : (s.modDie x f).variant = s.variant := rfl
@[simp] theorem State.modDie_grade (x : Nat) (f : Die → Die) : (s.modDie x f).grade = s.grade := rfl
@[simp] theorem State.modDie_regs (x : Nat) (f : Die → Die) : (s.modDie x f).regs = s.regs := rfl
@[simp] theorem State.modDie_latch (x : Nat) (f : Die → Die) : (s.modDie x f).latch = s.latch := rfl
@[simp] theorem State.modDie_hostRsp (x : Nat) (f : Die → Die) : (s.modDie x f).hostRsp = s.hostRsp := rfl
@[simp] theorem State.modDie_hostPoison (x : Nat) (f : Die → Die) : (s.modDie x f).hostPoison = s.hostPoison := rfl
@[simp] theorem State.modDie_mem (x : Nat) (f : Die → Die) : (s.modDie x f).mem = s.mem := rfl
@[simp] theorem State.modDie_env (x : Nat) (f : Die → Die) : (s.modDie x f).env = s.env := rfl
@[simp] theorem State.modDie_drawn (x : Nat) (f : Die → Die) : (s.modDie x f).drawn = s.drawn := rfl
@[simp] theorem State.modDie_sent (x : Nat) (f : Die → Die) : (s.modDie x f).sent = s.sent := rfl
@[simp] theorem State.modDie_tb (x : Nat) (f : Die → Die) : (s.modDie x f).tb = s.tb := rfl
@[simp] theorem State.modDie_clients (x : Nat) (f : Die → Die) : (s.modDie x f).clients = s.clients := rfl
@[simp] theorem State.modDie_rings (x : Nat) (f : Die → Die) : (s.modDie x f).rings = s.rings := rfl
@[simp] theorem State.modDie_steps (x : Nat) (f : Die → Die) : (s.modDie x f).steps = s.steps := rfl
@[simp] theorem State.modDie_journal (x : Nat) (f : Die → Die) : (s.modDie x f).journal = s.journal := rfl
@[simp] theorem State.modDie_ledgerErr (x : Nat) (f : Die → Die) : (s.modDie x f).ledgerErr = s.ledgerErr := rfl
@[simp] theorem State.modDie_tallyQueue (x : Nat) (f : Die → Die) : (s.modDie x f).tallyQueue = s.tallyQueue := rfl
@[simp] theorem State.modDie_sweepAt (x : Nat) (f : Die → Die) : (s.modDie x f).sweepAt = s.sweepAt := rfl
@[simp] theorem State.modDie_runs (x : Nat) (f : Die → Die) : (s.modDie x f).runs = s.runs := rfl
@[simp] theorem State.modDie_oldPreempt (x : Nat) (f : Die → Die) : (s.modDie x f).oldPreempt = s.oldPreempt := rfl
@[simp] theorem State.modDie_kindlingHeld (x : Nat) (f : Die → Die) : (s.modDie x f).kindlingHeld = s.kindlingHeld := rfl
@[simp] theorem State.modDie_residencies (x : Nat) (f : Die → Die) : (s.modDie x f).residencies = s.residencies := rfl
@[simp] theorem State.modDie_units (x : Nat) (f : Die → Die) : (s.modDie x f).units = s.units := rfl
@[simp] theorem State.modDie_known (x : Nat) (f : Die → Die) : (s.modDie x f).known = s.known := rfl
@[simp] theorem State.modDie_hearths (x : Nat) (f : Die → Die) : (s.modDie x f).hearths = s.hearths := rfl
@[simp] theorem State.modDie_pages (x : Nat) (f : Die → Die) : (s.modDie x f).pages = s.pages := rfl
@[simp] theorem State.modDie_pageCmd (x : Nat) (f : Die → Die) : (s.modDie x f).pageCmd = s.pageCmd := rfl
@[simp] theorem State.modDie_reserves (x : Nat) (f : Die → Die) : (s.modDie x f).reserves = s.reserves := rfl
@[simp] theorem State.modDie_access (x : Nat) (f : Die → Die) : (s.modDie x f).access = s.access := rfl
@[simp] theorem State.modDie_bellowsAt (x : Nat) (f : Die → Die) : (s.modDie x f).bellowsAt = s.bellowsAt := rfl
@[simp] theorem State.modDie_bellows (x : Nat) (f : Die → Die) : (s.modDie x f).bellows = s.bellows := rfl
@[simp] theorem State.modDie_translations (x : Nat) (f : Die → Die) : (s.modDie x f).translations = s.translations := rfl
@[simp] theorem State.modDie_movesDone (x : Nat) (f : Die → Die) : (s.modDie x f).movesDone = s.movesDone := rfl
@[simp] theorem State.modDie_moves (x : Nat) (f : Die → Die) : (s.modDie x f).moves = s.moves := rfl
@[simp] theorem State.modDie_dmcs (x : Nat) (f : Die → Die) : (s.modDie x f).dmcs = s.dmcs := rfl
@[simp] theorem State.modDie_links (x : Nat) (f : Die → Die) : (s.modDie x f).links = s.links := rfl
@[simp] theorem State.modDie_waiting (x : Nat) (f : Die → Die) : (s.modDie x f).waiting = s.waiting := rfl
@[simp] theorem State.modDie_saf (x : Nat) (f : Die → Die) : (s.modDie x f).saf = s.saf := rfl
@[simp] theorem State.modDie_keys (x : Nat) (f : Die → Die) : (s.modDie x f).keys = s.keys := rfl
@[simp] theorem State.modDie_measured (x : Nat) (f : Die → Die) : (s.modDie x f).measured = s.measured := rfl
@[simp] theorem State.modDie_cnts (x : Nat) (f : Die → Die) : (s.modDie x f).cnts = s.cnts := rfl
@[simp] theorem State.modDie_trace (x : Nat) (f : Die → Die) : (s.modDie x f).trace = s.trace := rfl
@[simp] theorem State.modDie_relays (x : Nat) (f : Die → Die) : (s.modDie x f).relays = s.relays := rfl
@[simp] theorem State.modDie_cams (x : Nat) (f : Die → Die) : (s.modDie x f).cams = s.cams := rfl
@[simp] theorem State.modDie_audio (x : Nat) (f : Die → Die) : (s.modDie x f).audio = s.audio := rfl
@[simp] theorem State.modDie_wake (x : Nat) (f : Die → Die) : (s.modDie x f).wake = s.wake := rfl
@[simp] theorem State.modDie_power (x : Nat) (f : Die → Die) : (s.modDie x f).power = s.power := rfl
@[simp] theorem State.modDie_micOpen (x : Nat) (f : Die → Die) : (s.modDie x f).micOpen = s.micOpen := rfl
@[simp] theorem State.modDie_ports (x : Nat) (f : Die → Die) : (s.modDie x f).ports = s.ports := rfl
@[simp] theorem State.modDie_inds (x : Nat) (f : Die → Die) : (s.modDie x f).inds = s.inds := rfl
@[simp] theorem State.modDie_tap (x : Nat) (f : Die → Die) : (s.modDie x f).tap = s.tap := rfl

/-! `State.modClient` -/

@[simp] theorem State.modClient_pending (x : Nat) (f : Client → Client) : (s.modClient x f).pending = s.pending := rfl
@[simp] theorem State.modClient_variant (x : Nat) (f : Client → Client) : (s.modClient x f).variant = s.variant := rfl
@[simp] theorem State.modClient_grade (x : Nat) (f : Client → Client) : (s.modClient x f).grade = s.grade := rfl
@[simp] theorem State.modClient_regs (x : Nat) (f : Client → Client) : (s.modClient x f).regs = s.regs := rfl
@[simp] theorem State.modClient_latch (x : Nat) (f : Client → Client) : (s.modClient x f).latch = s.latch := rfl
@[simp] theorem State.modClient_hostRsp (x : Nat) (f : Client → Client) : (s.modClient x f).hostRsp = s.hostRsp := rfl
@[simp] theorem State.modClient_hostPoison (x : Nat) (f : Client → Client) : (s.modClient x f).hostPoison = s.hostPoison := rfl
@[simp] theorem State.modClient_mem (x : Nat) (f : Client → Client) : (s.modClient x f).mem = s.mem := rfl
@[simp] theorem State.modClient_env (x : Nat) (f : Client → Client) : (s.modClient x f).env = s.env := rfl
@[simp] theorem State.modClient_drawn (x : Nat) (f : Client → Client) : (s.modClient x f).drawn = s.drawn := rfl
@[simp] theorem State.modClient_sent (x : Nat) (f : Client → Client) : (s.modClient x f).sent = s.sent := rfl
@[simp] theorem State.modClient_tb (x : Nat) (f : Client → Client) : (s.modClient x f).tb = s.tb := rfl
@[simp] theorem State.modClient_rings (x : Nat) (f : Client → Client) : (s.modClient x f).rings = s.rings := rfl
@[simp] theorem State.modClient_steps (x : Nat) (f : Client → Client) : (s.modClient x f).steps = s.steps := rfl
@[simp] theorem State.modClient_journal (x : Nat) (f : Client → Client) : (s.modClient x f).journal = s.journal := rfl
@[simp] theorem State.modClient_ledgerErr (x : Nat) (f : Client → Client) : (s.modClient x f).ledgerErr = s.ledgerErr := rfl
@[simp] theorem State.modClient_tallyQueue (x : Nat) (f : Client → Client) : (s.modClient x f).tallyQueue = s.tallyQueue := rfl
@[simp] theorem State.modClient_sweepAt (x : Nat) (f : Client → Client) : (s.modClient x f).sweepAt = s.sweepAt := rfl
@[simp] theorem State.modClient_runs (x : Nat) (f : Client → Client) : (s.modClient x f).runs = s.runs := rfl
@[simp] theorem State.modClient_oldPreempt (x : Nat) (f : Client → Client) : (s.modClient x f).oldPreempt = s.oldPreempt := rfl
@[simp] theorem State.modClient_kindlingHeld (x : Nat) (f : Client → Client) : (s.modClient x f).kindlingHeld = s.kindlingHeld := rfl
@[simp] theorem State.modClient_residencies (x : Nat) (f : Client → Client) : (s.modClient x f).residencies = s.residencies := rfl
@[simp] theorem State.modClient_units (x : Nat) (f : Client → Client) : (s.modClient x f).units = s.units := rfl
@[simp] theorem State.modClient_known (x : Nat) (f : Client → Client) : (s.modClient x f).known = s.known := rfl
@[simp] theorem State.modClient_dies (x : Nat) (f : Client → Client) : (s.modClient x f).dies = s.dies := rfl
@[simp] theorem State.modClient_hearths (x : Nat) (f : Client → Client) : (s.modClient x f).hearths = s.hearths := rfl
@[simp] theorem State.modClient_pages (x : Nat) (f : Client → Client) : (s.modClient x f).pages = s.pages := rfl
@[simp] theorem State.modClient_pageCmd (x : Nat) (f : Client → Client) : (s.modClient x f).pageCmd = s.pageCmd := rfl
@[simp] theorem State.modClient_reserves (x : Nat) (f : Client → Client) : (s.modClient x f).reserves = s.reserves := rfl
@[simp] theorem State.modClient_access (x : Nat) (f : Client → Client) : (s.modClient x f).access = s.access := rfl
@[simp] theorem State.modClient_bellowsAt (x : Nat) (f : Client → Client) : (s.modClient x f).bellowsAt = s.bellowsAt := rfl
@[simp] theorem State.modClient_bellows (x : Nat) (f : Client → Client) : (s.modClient x f).bellows = s.bellows := rfl
@[simp] theorem State.modClient_translations (x : Nat) (f : Client → Client) : (s.modClient x f).translations = s.translations := rfl
@[simp] theorem State.modClient_movesDone (x : Nat) (f : Client → Client) : (s.modClient x f).movesDone = s.movesDone := rfl
@[simp] theorem State.modClient_moves (x : Nat) (f : Client → Client) : (s.modClient x f).moves = s.moves := rfl
@[simp] theorem State.modClient_dmcs (x : Nat) (f : Client → Client) : (s.modClient x f).dmcs = s.dmcs := rfl
@[simp] theorem State.modClient_links (x : Nat) (f : Client → Client) : (s.modClient x f).links = s.links := rfl
@[simp] theorem State.modClient_waiting (x : Nat) (f : Client → Client) : (s.modClient x f).waiting = s.waiting := rfl
@[simp] theorem State.modClient_saf (x : Nat) (f : Client → Client) : (s.modClient x f).saf = s.saf := rfl
@[simp] theorem State.modClient_keys (x : Nat) (f : Client → Client) : (s.modClient x f).keys = s.keys := rfl
@[simp] theorem State.modClient_measured (x : Nat) (f : Client → Client) : (s.modClient x f).measured = s.measured := rfl
@[simp] theorem State.modClient_cnts (x : Nat) (f : Client → Client) : (s.modClient x f).cnts = s.cnts := rfl
@[simp] theorem State.modClient_trace (x : Nat) (f : Client → Client) : (s.modClient x f).trace = s.trace := rfl
@[simp] theorem State.modClient_relays (x : Nat) (f : Client → Client) : (s.modClient x f).relays = s.relays := rfl
@[simp] theorem State.modClient_cams (x : Nat) (f : Client → Client) : (s.modClient x f).cams = s.cams := rfl
@[simp] theorem State.modClient_audio (x : Nat) (f : Client → Client) : (s.modClient x f).audio = s.audio := rfl
@[simp] theorem State.modClient_wake (x : Nat) (f : Client → Client) : (s.modClient x f).wake = s.wake := rfl
@[simp] theorem State.modClient_power (x : Nat) (f : Client → Client) : (s.modClient x f).power = s.power := rfl
@[simp] theorem State.modClient_micOpen (x : Nat) (f : Client → Client) : (s.modClient x f).micOpen = s.micOpen := rfl
@[simp] theorem State.modClient_ports (x : Nat) (f : Client → Client) : (s.modClient x f).ports = s.ports := rfl
@[simp] theorem State.modClient_inds (x : Nat) (f : Client → Client) : (s.modClient x f).inds = s.inds := rfl
@[simp] theorem State.modClient_tap (x : Nat) (f : Client → Client) : (s.modClient x f).tap = s.tap := rfl

/-! `State.modRing` -/

@[simp] theorem State.modRing_pending (x : Nat) (f : Ring → Ring) : (s.modRing x f).pending = s.pending := rfl
@[simp] theorem State.modRing_variant (x : Nat) (f : Ring → Ring) : (s.modRing x f).variant = s.variant := rfl
@[simp] theorem State.modRing_grade (x : Nat) (f : Ring → Ring) : (s.modRing x f).grade = s.grade := rfl
@[simp] theorem State.modRing_regs (x : Nat) (f : Ring → Ring) : (s.modRing x f).regs = s.regs := rfl
@[simp] theorem State.modRing_latch (x : Nat) (f : Ring → Ring) : (s.modRing x f).latch = s.latch := rfl
@[simp] theorem State.modRing_hostRsp (x : Nat) (f : Ring → Ring) : (s.modRing x f).hostRsp = s.hostRsp := rfl
@[simp] theorem State.modRing_hostPoison (x : Nat) (f : Ring → Ring) : (s.modRing x f).hostPoison = s.hostPoison := rfl
@[simp] theorem State.modRing_mem (x : Nat) (f : Ring → Ring) : (s.modRing x f).mem = s.mem := rfl
@[simp] theorem State.modRing_env (x : Nat) (f : Ring → Ring) : (s.modRing x f).env = s.env := rfl
@[simp] theorem State.modRing_drawn (x : Nat) (f : Ring → Ring) : (s.modRing x f).drawn = s.drawn := rfl
@[simp] theorem State.modRing_sent (x : Nat) (f : Ring → Ring) : (s.modRing x f).sent = s.sent := rfl
@[simp] theorem State.modRing_tb (x : Nat) (f : Ring → Ring) : (s.modRing x f).tb = s.tb := rfl
@[simp] theorem State.modRing_clients (x : Nat) (f : Ring → Ring) : (s.modRing x f).clients = s.clients := rfl
@[simp] theorem State.modRing_steps (x : Nat) (f : Ring → Ring) : (s.modRing x f).steps = s.steps := rfl
@[simp] theorem State.modRing_journal (x : Nat) (f : Ring → Ring) : (s.modRing x f).journal = s.journal := rfl
@[simp] theorem State.modRing_ledgerErr (x : Nat) (f : Ring → Ring) : (s.modRing x f).ledgerErr = s.ledgerErr := rfl
@[simp] theorem State.modRing_tallyQueue (x : Nat) (f : Ring → Ring) : (s.modRing x f).tallyQueue = s.tallyQueue := rfl
@[simp] theorem State.modRing_sweepAt (x : Nat) (f : Ring → Ring) : (s.modRing x f).sweepAt = s.sweepAt := rfl
@[simp] theorem State.modRing_runs (x : Nat) (f : Ring → Ring) : (s.modRing x f).runs = s.runs := rfl
@[simp] theorem State.modRing_oldPreempt (x : Nat) (f : Ring → Ring) : (s.modRing x f).oldPreempt = s.oldPreempt := rfl
@[simp] theorem State.modRing_kindlingHeld (x : Nat) (f : Ring → Ring) : (s.modRing x f).kindlingHeld = s.kindlingHeld := rfl
@[simp] theorem State.modRing_residencies (x : Nat) (f : Ring → Ring) : (s.modRing x f).residencies = s.residencies := rfl
@[simp] theorem State.modRing_units (x : Nat) (f : Ring → Ring) : (s.modRing x f).units = s.units := rfl
@[simp] theorem State.modRing_known (x : Nat) (f : Ring → Ring) : (s.modRing x f).known = s.known := rfl
@[simp] theorem State.modRing_dies (x : Nat) (f : Ring → Ring) : (s.modRing x f).dies = s.dies := rfl
@[simp] theorem State.modRing_hearths (x : Nat) (f : Ring → Ring) : (s.modRing x f).hearths = s.hearths := rfl
@[simp] theorem State.modRing_pages (x : Nat) (f : Ring → Ring) : (s.modRing x f).pages = s.pages := rfl
@[simp] theorem State.modRing_pageCmd (x : Nat) (f : Ring → Ring) : (s.modRing x f).pageCmd = s.pageCmd := rfl
@[simp] theorem State.modRing_reserves (x : Nat) (f : Ring → Ring) : (s.modRing x f).reserves = s.reserves := rfl
@[simp] theorem State.modRing_access (x : Nat) (f : Ring → Ring) : (s.modRing x f).access = s.access := rfl
@[simp] theorem State.modRing_bellowsAt (x : Nat) (f : Ring → Ring) : (s.modRing x f).bellowsAt = s.bellowsAt := rfl
@[simp] theorem State.modRing_bellows (x : Nat) (f : Ring → Ring) : (s.modRing x f).bellows = s.bellows := rfl
@[simp] theorem State.modRing_translations (x : Nat) (f : Ring → Ring) : (s.modRing x f).translations = s.translations := rfl
@[simp] theorem State.modRing_movesDone (x : Nat) (f : Ring → Ring) : (s.modRing x f).movesDone = s.movesDone := rfl
@[simp] theorem State.modRing_moves (x : Nat) (f : Ring → Ring) : (s.modRing x f).moves = s.moves := rfl
@[simp] theorem State.modRing_dmcs (x : Nat) (f : Ring → Ring) : (s.modRing x f).dmcs = s.dmcs := rfl
@[simp] theorem State.modRing_links (x : Nat) (f : Ring → Ring) : (s.modRing x f).links = s.links := rfl
@[simp] theorem State.modRing_waiting (x : Nat) (f : Ring → Ring) : (s.modRing x f).waiting = s.waiting := rfl
@[simp] theorem State.modRing_saf (x : Nat) (f : Ring → Ring) : (s.modRing x f).saf = s.saf := rfl
@[simp] theorem State.modRing_keys (x : Nat) (f : Ring → Ring) : (s.modRing x f).keys = s.keys := rfl
@[simp] theorem State.modRing_measured (x : Nat) (f : Ring → Ring) : (s.modRing x f).measured = s.measured := rfl
@[simp] theorem State.modRing_cnts (x : Nat) (f : Ring → Ring) : (s.modRing x f).cnts = s.cnts := rfl
@[simp] theorem State.modRing_trace (x : Nat) (f : Ring → Ring) : (s.modRing x f).trace = s.trace := rfl
@[simp] theorem State.modRing_relays (x : Nat) (f : Ring → Ring) : (s.modRing x f).relays = s.relays := rfl
@[simp] theorem State.modRing_cams (x : Nat) (f : Ring → Ring) : (s.modRing x f).cams = s.cams := rfl
@[simp] theorem State.modRing_audio (x : Nat) (f : Ring → Ring) : (s.modRing x f).audio = s.audio := rfl
@[simp] theorem State.modRing_wake (x : Nat) (f : Ring → Ring) : (s.modRing x f).wake = s.wake := rfl
@[simp] theorem State.modRing_power (x : Nat) (f : Ring → Ring) : (s.modRing x f).power = s.power := rfl
@[simp] theorem State.modRing_micOpen (x : Nat) (f : Ring → Ring) : (s.modRing x f).micOpen = s.micOpen := rfl
@[simp] theorem State.modRing_ports (x : Nat) (f : Ring → Ring) : (s.modRing x f).ports = s.ports := rfl
@[simp] theorem State.modRing_inds (x : Nat) (f : Ring → Ring) : (s.modRing x f).inds = s.inds := rfl
@[simp] theorem State.modRing_tap (x : Nat) (f : Ring → Ring) : (s.modRing x f).tap = s.tap := rfl

/-! `State.modHearth` -/

@[simp] theorem State.modHearth_pending (x : Nat) (f : Hearth → Hearth) : (s.modHearth x f).pending = s.pending := rfl
@[simp] theorem State.modHearth_variant (x : Nat) (f : Hearth → Hearth) : (s.modHearth x f).variant = s.variant := rfl
@[simp] theorem State.modHearth_grade (x : Nat) (f : Hearth → Hearth) : (s.modHearth x f).grade = s.grade := rfl
@[simp] theorem State.modHearth_regs (x : Nat) (f : Hearth → Hearth) : (s.modHearth x f).regs = s.regs := rfl
@[simp] theorem State.modHearth_latch (x : Nat) (f : Hearth → Hearth) : (s.modHearth x f).latch = s.latch := rfl
@[simp] theorem State.modHearth_hostRsp (x : Nat) (f : Hearth → Hearth) : (s.modHearth x f).hostRsp = s.hostRsp := rfl
@[simp] theorem State.modHearth_hostPoison (x : Nat) (f : Hearth → Hearth) : (s.modHearth x f).hostPoison = s.hostPoison := rfl
@[simp] theorem State.modHearth_mem (x : Nat) (f : Hearth → Hearth) : (s.modHearth x f).mem = s.mem := rfl
@[simp] theorem State.modHearth_env (x : Nat) (f : Hearth → Hearth) : (s.modHearth x f).env = s.env := rfl
@[simp] theorem State.modHearth_drawn (x : Nat) (f : Hearth → Hearth) : (s.modHearth x f).drawn = s.drawn := rfl
@[simp] theorem State.modHearth_sent (x : Nat) (f : Hearth → Hearth) : (s.modHearth x f).sent = s.sent := rfl
@[simp] theorem State.modHearth_tb (x : Nat) (f : Hearth → Hearth) : (s.modHearth x f).tb = s.tb := rfl
@[simp] theorem State.modHearth_clients (x : Nat) (f : Hearth → Hearth) : (s.modHearth x f).clients = s.clients := rfl
@[simp] theorem State.modHearth_rings (x : Nat) (f : Hearth → Hearth) : (s.modHearth x f).rings = s.rings := rfl
@[simp] theorem State.modHearth_steps (x : Nat) (f : Hearth → Hearth) : (s.modHearth x f).steps = s.steps := rfl
@[simp] theorem State.modHearth_journal (x : Nat) (f : Hearth → Hearth) : (s.modHearth x f).journal = s.journal := rfl
@[simp] theorem State.modHearth_ledgerErr (x : Nat) (f : Hearth → Hearth) : (s.modHearth x f).ledgerErr = s.ledgerErr := rfl
@[simp] theorem State.modHearth_tallyQueue (x : Nat) (f : Hearth → Hearth) : (s.modHearth x f).tallyQueue = s.tallyQueue := rfl
@[simp] theorem State.modHearth_sweepAt (x : Nat) (f : Hearth → Hearth) : (s.modHearth x f).sweepAt = s.sweepAt := rfl
@[simp] theorem State.modHearth_runs (x : Nat) (f : Hearth → Hearth) : (s.modHearth x f).runs = s.runs := rfl
@[simp] theorem State.modHearth_oldPreempt (x : Nat) (f : Hearth → Hearth) : (s.modHearth x f).oldPreempt = s.oldPreempt := rfl
@[simp] theorem State.modHearth_kindlingHeld (x : Nat) (f : Hearth → Hearth) : (s.modHearth x f).kindlingHeld = s.kindlingHeld := rfl
@[simp] theorem State.modHearth_residencies (x : Nat) (f : Hearth → Hearth) : (s.modHearth x f).residencies = s.residencies := rfl
@[simp] theorem State.modHearth_units (x : Nat) (f : Hearth → Hearth) : (s.modHearth x f).units = s.units := rfl
@[simp] theorem State.modHearth_known (x : Nat) (f : Hearth → Hearth) : (s.modHearth x f).known = s.known := rfl
@[simp] theorem State.modHearth_dies (x : Nat) (f : Hearth → Hearth) : (s.modHearth x f).dies = s.dies := rfl
@[simp] theorem State.modHearth_pages (x : Nat) (f : Hearth → Hearth) : (s.modHearth x f).pages = s.pages := rfl
@[simp] theorem State.modHearth_pageCmd (x : Nat) (f : Hearth → Hearth) : (s.modHearth x f).pageCmd = s.pageCmd := rfl
@[simp] theorem State.modHearth_reserves (x : Nat) (f : Hearth → Hearth) : (s.modHearth x f).reserves = s.reserves := rfl
@[simp] theorem State.modHearth_access (x : Nat) (f : Hearth → Hearth) : (s.modHearth x f).access = s.access := rfl
@[simp] theorem State.modHearth_bellowsAt (x : Nat) (f : Hearth → Hearth) : (s.modHearth x f).bellowsAt = s.bellowsAt := rfl
@[simp] theorem State.modHearth_bellows (x : Nat) (f : Hearth → Hearth) : (s.modHearth x f).bellows = s.bellows := rfl
@[simp] theorem State.modHearth_translations (x : Nat) (f : Hearth → Hearth) : (s.modHearth x f).translations = s.translations := rfl
@[simp] theorem State.modHearth_movesDone (x : Nat) (f : Hearth → Hearth) : (s.modHearth x f).movesDone = s.movesDone := rfl
@[simp] theorem State.modHearth_moves (x : Nat) (f : Hearth → Hearth) : (s.modHearth x f).moves = s.moves := rfl
@[simp] theorem State.modHearth_dmcs (x : Nat) (f : Hearth → Hearth) : (s.modHearth x f).dmcs = s.dmcs := rfl
@[simp] theorem State.modHearth_links (x : Nat) (f : Hearth → Hearth) : (s.modHearth x f).links = s.links := rfl
@[simp] theorem State.modHearth_waiting (x : Nat) (f : Hearth → Hearth) : (s.modHearth x f).waiting = s.waiting := rfl
@[simp] theorem State.modHearth_saf (x : Nat) (f : Hearth → Hearth) : (s.modHearth x f).saf = s.saf := rfl
@[simp] theorem State.modHearth_keys (x : Nat) (f : Hearth → Hearth) : (s.modHearth x f).keys = s.keys := rfl
@[simp] theorem State.modHearth_measured (x : Nat) (f : Hearth → Hearth) : (s.modHearth x f).measured = s.measured := rfl
@[simp] theorem State.modHearth_cnts (x : Nat) (f : Hearth → Hearth) : (s.modHearth x f).cnts = s.cnts := rfl
@[simp] theorem State.modHearth_trace (x : Nat) (f : Hearth → Hearth) : (s.modHearth x f).trace = s.trace := rfl
@[simp] theorem State.modHearth_relays (x : Nat) (f : Hearth → Hearth) : (s.modHearth x f).relays = s.relays := rfl
@[simp] theorem State.modHearth_cams (x : Nat) (f : Hearth → Hearth) : (s.modHearth x f).cams = s.cams := rfl
@[simp] theorem State.modHearth_audio (x : Nat) (f : Hearth → Hearth) : (s.modHearth x f).audio = s.audio := rfl
@[simp] theorem State.modHearth_wake (x : Nat) (f : Hearth → Hearth) : (s.modHearth x f).wake = s.wake := rfl
@[simp] theorem State.modHearth_power (x : Nat) (f : Hearth → Hearth) : (s.modHearth x f).power = s.power := rfl
@[simp] theorem State.modHearth_micOpen (x : Nat) (f : Hearth → Hearth) : (s.modHearth x f).micOpen = s.micOpen := rfl
@[simp] theorem State.modHearth_ports (x : Nat) (f : Hearth → Hearth) : (s.modHearth x f).ports = s.ports := rfl
@[simp] theorem State.modHearth_inds (x : Nat) (f : Hearth → Hearth) : (s.modHearth x f).inds = s.inds := rfl
@[simp] theorem State.modHearth_tap (x : Nat) (f : Hearth → Hearth) : (s.modHearth x f).tap = s.tap := rfl

/-! `State.modDmc` -/

@[simp] theorem State.modDmc_pending (x : Nat) (f : Dmc → Dmc) : (s.modDmc x f).pending = s.pending := rfl
@[simp] theorem State.modDmc_variant (x : Nat) (f : Dmc → Dmc) : (s.modDmc x f).variant = s.variant := rfl
@[simp] theorem State.modDmc_grade (x : Nat) (f : Dmc → Dmc) : (s.modDmc x f).grade = s.grade := rfl
@[simp] theorem State.modDmc_regs (x : Nat) (f : Dmc → Dmc) : (s.modDmc x f).regs = s.regs := rfl
@[simp] theorem State.modDmc_latch (x : Nat) (f : Dmc → Dmc) : (s.modDmc x f).latch = s.latch := rfl
@[simp] theorem State.modDmc_hostRsp (x : Nat) (f : Dmc → Dmc) : (s.modDmc x f).hostRsp = s.hostRsp := rfl
@[simp] theorem State.modDmc_hostPoison (x : Nat) (f : Dmc → Dmc) : (s.modDmc x f).hostPoison = s.hostPoison := rfl
@[simp] theorem State.modDmc_mem (x : Nat) (f : Dmc → Dmc) : (s.modDmc x f).mem = s.mem := rfl
@[simp] theorem State.modDmc_env (x : Nat) (f : Dmc → Dmc) : (s.modDmc x f).env = s.env := rfl
@[simp] theorem State.modDmc_drawn (x : Nat) (f : Dmc → Dmc) : (s.modDmc x f).drawn = s.drawn := rfl
@[simp] theorem State.modDmc_sent (x : Nat) (f : Dmc → Dmc) : (s.modDmc x f).sent = s.sent := rfl
@[simp] theorem State.modDmc_tb (x : Nat) (f : Dmc → Dmc) : (s.modDmc x f).tb = s.tb := rfl
@[simp] theorem State.modDmc_clients (x : Nat) (f : Dmc → Dmc) : (s.modDmc x f).clients = s.clients := rfl
@[simp] theorem State.modDmc_rings (x : Nat) (f : Dmc → Dmc) : (s.modDmc x f).rings = s.rings := rfl
@[simp] theorem State.modDmc_steps (x : Nat) (f : Dmc → Dmc) : (s.modDmc x f).steps = s.steps := rfl
@[simp] theorem State.modDmc_journal (x : Nat) (f : Dmc → Dmc) : (s.modDmc x f).journal = s.journal := rfl
@[simp] theorem State.modDmc_ledgerErr (x : Nat) (f : Dmc → Dmc) : (s.modDmc x f).ledgerErr = s.ledgerErr := rfl
@[simp] theorem State.modDmc_tallyQueue (x : Nat) (f : Dmc → Dmc) : (s.modDmc x f).tallyQueue = s.tallyQueue := rfl
@[simp] theorem State.modDmc_sweepAt (x : Nat) (f : Dmc → Dmc) : (s.modDmc x f).sweepAt = s.sweepAt := rfl
@[simp] theorem State.modDmc_runs (x : Nat) (f : Dmc → Dmc) : (s.modDmc x f).runs = s.runs := rfl
@[simp] theorem State.modDmc_oldPreempt (x : Nat) (f : Dmc → Dmc) : (s.modDmc x f).oldPreempt = s.oldPreempt := rfl
@[simp] theorem State.modDmc_kindlingHeld (x : Nat) (f : Dmc → Dmc) : (s.modDmc x f).kindlingHeld = s.kindlingHeld := rfl
@[simp] theorem State.modDmc_residencies (x : Nat) (f : Dmc → Dmc) : (s.modDmc x f).residencies = s.residencies := rfl
@[simp] theorem State.modDmc_units (x : Nat) (f : Dmc → Dmc) : (s.modDmc x f).units = s.units := rfl
@[simp] theorem State.modDmc_known (x : Nat) (f : Dmc → Dmc) : (s.modDmc x f).known = s.known := rfl
@[simp] theorem State.modDmc_dies (x : Nat) (f : Dmc → Dmc) : (s.modDmc x f).dies = s.dies := rfl
@[simp] theorem State.modDmc_hearths (x : Nat) (f : Dmc → Dmc) : (s.modDmc x f).hearths = s.hearths := rfl
@[simp] theorem State.modDmc_pages (x : Nat) (f : Dmc → Dmc) : (s.modDmc x f).pages = s.pages := rfl
@[simp] theorem State.modDmc_pageCmd (x : Nat) (f : Dmc → Dmc) : (s.modDmc x f).pageCmd = s.pageCmd := rfl
@[simp] theorem State.modDmc_reserves (x : Nat) (f : Dmc → Dmc) : (s.modDmc x f).reserves = s.reserves := rfl
@[simp] theorem State.modDmc_access (x : Nat) (f : Dmc → Dmc) : (s.modDmc x f).access = s.access := rfl
@[simp] theorem State.modDmc_bellowsAt (x : Nat) (f : Dmc → Dmc) : (s.modDmc x f).bellowsAt = s.bellowsAt := rfl
@[simp] theorem State.modDmc_bellows (x : Nat) (f : Dmc → Dmc) : (s.modDmc x f).bellows = s.bellows := rfl
@[simp] theorem State.modDmc_translations (x : Nat) (f : Dmc → Dmc) : (s.modDmc x f).translations = s.translations := rfl
@[simp] theorem State.modDmc_movesDone (x : Nat) (f : Dmc → Dmc) : (s.modDmc x f).movesDone = s.movesDone := rfl
@[simp] theorem State.modDmc_moves (x : Nat) (f : Dmc → Dmc) : (s.modDmc x f).moves = s.moves := rfl
@[simp] theorem State.modDmc_links (x : Nat) (f : Dmc → Dmc) : (s.modDmc x f).links = s.links := rfl
@[simp] theorem State.modDmc_waiting (x : Nat) (f : Dmc → Dmc) : (s.modDmc x f).waiting = s.waiting := rfl
@[simp] theorem State.modDmc_saf (x : Nat) (f : Dmc → Dmc) : (s.modDmc x f).saf = s.saf := rfl
@[simp] theorem State.modDmc_keys (x : Nat) (f : Dmc → Dmc) : (s.modDmc x f).keys = s.keys := rfl
@[simp] theorem State.modDmc_measured (x : Nat) (f : Dmc → Dmc) : (s.modDmc x f).measured = s.measured := rfl
@[simp] theorem State.modDmc_cnts (x : Nat) (f : Dmc → Dmc) : (s.modDmc x f).cnts = s.cnts := rfl
@[simp] theorem State.modDmc_trace (x : Nat) (f : Dmc → Dmc) : (s.modDmc x f).trace = s.trace := rfl
@[simp] theorem State.modDmc_relays (x : Nat) (f : Dmc → Dmc) : (s.modDmc x f).relays = s.relays := rfl
@[simp] theorem State.modDmc_cams (x : Nat) (f : Dmc → Dmc) : (s.modDmc x f).cams = s.cams := rfl
@[simp] theorem State.modDmc_audio (x : Nat) (f : Dmc → Dmc) : (s.modDmc x f).audio = s.audio := rfl
@[simp] theorem State.modDmc_wake (x : Nat) (f : Dmc → Dmc) : (s.modDmc x f).wake = s.wake := rfl
@[simp] theorem State.modDmc_power (x : Nat) (f : Dmc → Dmc) : (s.modDmc x f).power = s.power := rfl
@[simp] theorem State.modDmc_micOpen (x : Nat) (f : Dmc → Dmc) : (s.modDmc x f).micOpen = s.micOpen := rfl
@[simp] theorem State.modDmc_ports (x : Nat) (f : Dmc → Dmc) : (s.modDmc x f).ports = s.ports := rfl
@[simp] theorem State.modDmc_inds (x : Nat) (f : Dmc → Dmc) : (s.modDmc x f).inds = s.inds := rfl
@[simp] theorem State.modDmc_tap (x : Nat) (f : Dmc → Dmc) : (s.modDmc x f).tap = s.tap := rfl

/-! `State.modPage` -/

@[simp] theorem State.modPage_pending (x : Nat) (f : Page → Page) : (s.modPage x f).pending = s.pending := rfl
@[simp] theorem State.modPage_variant (x : Nat) (f : Page → Page) : (s.modPage x f).variant = s.variant := rfl
@[simp] theorem State.modPage_grade (x : Nat) (f : Page → Page) : (s.modPage x f).grade = s.grade := rfl
@[simp] theorem State.modPage_regs (x : Nat) (f : Page → Page) : (s.modPage x f).regs = s.regs := rfl
@[simp] theorem State.modPage_latch (x : Nat) (f : Page → Page) : (s.modPage x f).latch = s.latch := rfl
@[simp] theorem State.modPage_hostRsp (x : Nat) (f : Page → Page) : (s.modPage x f).hostRsp = s.hostRsp := rfl
@[simp] theorem State.modPage_hostPoison (x : Nat) (f : Page → Page) : (s.modPage x f).hostPoison = s.hostPoison := rfl
@[simp] theorem State.modPage_mem (x : Nat) (f : Page → Page) : (s.modPage x f).mem = s.mem := rfl
@[simp] theorem State.modPage_env (x : Nat) (f : Page → Page) : (s.modPage x f).env = s.env := rfl
@[simp] theorem State.modPage_drawn (x : Nat) (f : Page → Page) : (s.modPage x f).drawn = s.drawn := rfl
@[simp] theorem State.modPage_sent (x : Nat) (f : Page → Page) : (s.modPage x f).sent = s.sent := rfl
@[simp] theorem State.modPage_tb (x : Nat) (f : Page → Page) : (s.modPage x f).tb = s.tb := rfl
@[simp] theorem State.modPage_clients (x : Nat) (f : Page → Page) : (s.modPage x f).clients = s.clients := rfl
@[simp] theorem State.modPage_rings (x : Nat) (f : Page → Page) : (s.modPage x f).rings = s.rings := rfl
@[simp] theorem State.modPage_steps (x : Nat) (f : Page → Page) : (s.modPage x f).steps = s.steps := rfl
@[simp] theorem State.modPage_journal (x : Nat) (f : Page → Page) : (s.modPage x f).journal = s.journal := rfl
@[simp] theorem State.modPage_ledgerErr (x : Nat) (f : Page → Page) : (s.modPage x f).ledgerErr = s.ledgerErr := rfl
@[simp] theorem State.modPage_tallyQueue (x : Nat) (f : Page → Page) : (s.modPage x f).tallyQueue = s.tallyQueue := rfl
@[simp] theorem State.modPage_sweepAt (x : Nat) (f : Page → Page) : (s.modPage x f).sweepAt = s.sweepAt := rfl
@[simp] theorem State.modPage_runs (x : Nat) (f : Page → Page) : (s.modPage x f).runs = s.runs := rfl
@[simp] theorem State.modPage_oldPreempt (x : Nat) (f : Page → Page) : (s.modPage x f).oldPreempt = s.oldPreempt := rfl
@[simp] theorem State.modPage_kindlingHeld (x : Nat) (f : Page → Page) : (s.modPage x f).kindlingHeld = s.kindlingHeld := rfl
@[simp] theorem State.modPage_residencies (x : Nat) (f : Page → Page) : (s.modPage x f).residencies = s.residencies := rfl
@[simp] theorem State.modPage_units (x : Nat) (f : Page → Page) : (s.modPage x f).units = s.units := rfl
@[simp] theorem State.modPage_known (x : Nat) (f : Page → Page) : (s.modPage x f).known = s.known := rfl
@[simp] theorem State.modPage_dies (x : Nat) (f : Page → Page) : (s.modPage x f).dies = s.dies := rfl
@[simp] theorem State.modPage_hearths (x : Nat) (f : Page → Page) : (s.modPage x f).hearths = s.hearths := rfl
@[simp] theorem State.modPage_pageCmd (x : Nat) (f : Page → Page) : (s.modPage x f).pageCmd = s.pageCmd := rfl
@[simp] theorem State.modPage_reserves (x : Nat) (f : Page → Page) : (s.modPage x f).reserves = s.reserves := rfl
@[simp] theorem State.modPage_access (x : Nat) (f : Page → Page) : (s.modPage x f).access = s.access := rfl
@[simp] theorem State.modPage_bellowsAt (x : Nat) (f : Page → Page) : (s.modPage x f).bellowsAt = s.bellowsAt := rfl
@[simp] theorem State.modPage_bellows (x : Nat) (f : Page → Page) : (s.modPage x f).bellows = s.bellows := rfl
@[simp] theorem State.modPage_translations (x : Nat) (f : Page → Page) : (s.modPage x f).translations = s.translations := rfl
@[simp] theorem State.modPage_movesDone (x : Nat) (f : Page → Page) : (s.modPage x f).movesDone = s.movesDone := rfl
@[simp] theorem State.modPage_moves (x : Nat) (f : Page → Page) : (s.modPage x f).moves = s.moves := rfl
@[simp] theorem State.modPage_dmcs (x : Nat) (f : Page → Page) : (s.modPage x f).dmcs = s.dmcs := rfl
@[simp] theorem State.modPage_links (x : Nat) (f : Page → Page) : (s.modPage x f).links = s.links := rfl
@[simp] theorem State.modPage_waiting (x : Nat) (f : Page → Page) : (s.modPage x f).waiting = s.waiting := rfl
@[simp] theorem State.modPage_saf (x : Nat) (f : Page → Page) : (s.modPage x f).saf = s.saf := rfl
@[simp] theorem State.modPage_keys (x : Nat) (f : Page → Page) : (s.modPage x f).keys = s.keys := rfl
@[simp] theorem State.modPage_measured (x : Nat) (f : Page → Page) : (s.modPage x f).measured = s.measured := rfl
@[simp] theorem State.modPage_cnts (x : Nat) (f : Page → Page) : (s.modPage x f).cnts = s.cnts := rfl
@[simp] theorem State.modPage_trace (x : Nat) (f : Page → Page) : (s.modPage x f).trace = s.trace := rfl
@[simp] theorem State.modPage_relays (x : Nat) (f : Page → Page) : (s.modPage x f).relays = s.relays := rfl
@[simp] theorem State.modPage_cams (x : Nat) (f : Page → Page) : (s.modPage x f).cams = s.cams := rfl
@[simp] theorem State.modPage_audio (x : Nat) (f : Page → Page) : (s.modPage x f).audio = s.audio := rfl
@[simp] theorem State.modPage_wake (x : Nat) (f : Page → Page) : (s.modPage x f).wake = s.wake := rfl
@[simp] theorem State.modPage_power (x : Nat) (f : Page → Page) : (s.modPage x f).power = s.power := rfl
@[simp] theorem State.modPage_micOpen (x : Nat) (f : Page → Page) : (s.modPage x f).micOpen = s.micOpen := rfl
@[simp] theorem State.modPage_ports (x : Nat) (f : Page → Page) : (s.modPage x f).ports = s.ports := rfl
@[simp] theorem State.modPage_inds (x : Nat) (f : Page → Page) : (s.modPage x f).inds = s.inds := rfl
@[simp] theorem State.modPage_tap (x : Nat) (f : Page → Page) : (s.modPage x f).tap = s.tap := rfl

/-! `State.modLink` -/

@[simp] theorem State.modLink_pending (x : Nat) (f : Link → Link) : (s.modLink x f).pending = s.pending := rfl
@[simp] theorem State.modLink_variant (x : Nat) (f : Link → Link) : (s.modLink x f).variant = s.variant := rfl
@[simp] theorem State.modLink_grade (x : Nat) (f : Link → Link) : (s.modLink x f).grade = s.grade := rfl
@[simp] theorem State.modLink_regs (x : Nat) (f : Link → Link) : (s.modLink x f).regs = s.regs := rfl
@[simp] theorem State.modLink_latch (x : Nat) (f : Link → Link) : (s.modLink x f).latch = s.latch := rfl
@[simp] theorem State.modLink_hostRsp (x : Nat) (f : Link → Link) : (s.modLink x f).hostRsp = s.hostRsp := rfl
@[simp] theorem State.modLink_hostPoison (x : Nat) (f : Link → Link) : (s.modLink x f).hostPoison = s.hostPoison := rfl
@[simp] theorem State.modLink_mem (x : Nat) (f : Link → Link) : (s.modLink x f).mem = s.mem := rfl
@[simp] theorem State.modLink_env (x : Nat) (f : Link → Link) : (s.modLink x f).env = s.env := rfl
@[simp] theorem State.modLink_drawn (x : Nat) (f : Link → Link) : (s.modLink x f).drawn = s.drawn := rfl
@[simp] theorem State.modLink_sent (x : Nat) (f : Link → Link) : (s.modLink x f).sent = s.sent := rfl
@[simp] theorem State.modLink_tb (x : Nat) (f : Link → Link) : (s.modLink x f).tb = s.tb := rfl
@[simp] theorem State.modLink_clients (x : Nat) (f : Link → Link) : (s.modLink x f).clients = s.clients := rfl
@[simp] theorem State.modLink_rings (x : Nat) (f : Link → Link) : (s.modLink x f).rings = s.rings := rfl
@[simp] theorem State.modLink_steps (x : Nat) (f : Link → Link) : (s.modLink x f).steps = s.steps := rfl
@[simp] theorem State.modLink_journal (x : Nat) (f : Link → Link) : (s.modLink x f).journal = s.journal := rfl
@[simp] theorem State.modLink_ledgerErr (x : Nat) (f : Link → Link) : (s.modLink x f).ledgerErr = s.ledgerErr := rfl
@[simp] theorem State.modLink_tallyQueue (x : Nat) (f : Link → Link) : (s.modLink x f).tallyQueue = s.tallyQueue := rfl
@[simp] theorem State.modLink_sweepAt (x : Nat) (f : Link → Link) : (s.modLink x f).sweepAt = s.sweepAt := rfl
@[simp] theorem State.modLink_runs (x : Nat) (f : Link → Link) : (s.modLink x f).runs = s.runs := rfl
@[simp] theorem State.modLink_oldPreempt (x : Nat) (f : Link → Link) : (s.modLink x f).oldPreempt = s.oldPreempt := rfl
@[simp] theorem State.modLink_kindlingHeld (x : Nat) (f : Link → Link) : (s.modLink x f).kindlingHeld = s.kindlingHeld := rfl
@[simp] theorem State.modLink_residencies (x : Nat) (f : Link → Link) : (s.modLink x f).residencies = s.residencies := rfl
@[simp] theorem State.modLink_units (x : Nat) (f : Link → Link) : (s.modLink x f).units = s.units := rfl
@[simp] theorem State.modLink_known (x : Nat) (f : Link → Link) : (s.modLink x f).known = s.known := rfl
@[simp] theorem State.modLink_dies (x : Nat) (f : Link → Link) : (s.modLink x f).dies = s.dies := rfl
@[simp] theorem State.modLink_hearths (x : Nat) (f : Link → Link) : (s.modLink x f).hearths = s.hearths := rfl
@[simp] theorem State.modLink_pages (x : Nat) (f : Link → Link) : (s.modLink x f).pages = s.pages := rfl
@[simp] theorem State.modLink_pageCmd (x : Nat) (f : Link → Link) : (s.modLink x f).pageCmd = s.pageCmd := rfl
@[simp] theorem State.modLink_reserves (x : Nat) (f : Link → Link) : (s.modLink x f).reserves = s.reserves := rfl
@[simp] theorem State.modLink_access (x : Nat) (f : Link → Link) : (s.modLink x f).access = s.access := rfl
@[simp] theorem State.modLink_bellowsAt (x : Nat) (f : Link → Link) : (s.modLink x f).bellowsAt = s.bellowsAt := rfl
@[simp] theorem State.modLink_bellows (x : Nat) (f : Link → Link) : (s.modLink x f).bellows = s.bellows := rfl
@[simp] theorem State.modLink_translations (x : Nat) (f : Link → Link) : (s.modLink x f).translations = s.translations := rfl
@[simp] theorem State.modLink_movesDone (x : Nat) (f : Link → Link) : (s.modLink x f).movesDone = s.movesDone := rfl
@[simp] theorem State.modLink_moves (x : Nat) (f : Link → Link) : (s.modLink x f).moves = s.moves := rfl
@[simp] theorem State.modLink_dmcs (x : Nat) (f : Link → Link) : (s.modLink x f).dmcs = s.dmcs := rfl
@[simp] theorem State.modLink_waiting (x : Nat) (f : Link → Link) : (s.modLink x f).waiting = s.waiting := rfl
@[simp] theorem State.modLink_saf (x : Nat) (f : Link → Link) : (s.modLink x f).saf = s.saf := rfl
@[simp] theorem State.modLink_keys (x : Nat) (f : Link → Link) : (s.modLink x f).keys = s.keys := rfl
@[simp] theorem State.modLink_measured (x : Nat) (f : Link → Link) : (s.modLink x f).measured = s.measured := rfl
@[simp] theorem State.modLink_cnts (x : Nat) (f : Link → Link) : (s.modLink x f).cnts = s.cnts := rfl
@[simp] theorem State.modLink_trace (x : Nat) (f : Link → Link) : (s.modLink x f).trace = s.trace := rfl
@[simp] theorem State.modLink_relays (x : Nat) (f : Link → Link) : (s.modLink x f).relays = s.relays := rfl
@[simp] theorem State.modLink_cams (x : Nat) (f : Link → Link) : (s.modLink x f).cams = s.cams := rfl
@[simp] theorem State.modLink_audio (x : Nat) (f : Link → Link) : (s.modLink x f).audio = s.audio := rfl
@[simp] theorem State.modLink_wake (x : Nat) (f : Link → Link) : (s.modLink x f).wake = s.wake := rfl
@[simp] theorem State.modLink_power (x : Nat) (f : Link → Link) : (s.modLink x f).power = s.power := rfl
@[simp] theorem State.modLink_micOpen (x : Nat) (f : Link → Link) : (s.modLink x f).micOpen = s.micOpen := rfl
@[simp] theorem State.modLink_ports (x : Nat) (f : Link → Link) : (s.modLink x f).ports = s.ports := rfl
@[simp] theorem State.modLink_inds (x : Nat) (f : Link → Link) : (s.modLink x f).inds = s.inds := rfl
@[simp] theorem State.modLink_tap (x : Nat) (f : Link → Link) : (s.modLink x f).tap = s.tap := rfl

/-! `State.modCnt` -/

@[simp] theorem State.modCnt_pending (x : Nat) (f : CntBlock → CntBlock) : (s.modCnt x f).pending = s.pending := rfl
@[simp] theorem State.modCnt_variant (x : Nat) (f : CntBlock → CntBlock) : (s.modCnt x f).variant = s.variant := rfl
@[simp] theorem State.modCnt_grade (x : Nat) (f : CntBlock → CntBlock) : (s.modCnt x f).grade = s.grade := rfl
@[simp] theorem State.modCnt_regs (x : Nat) (f : CntBlock → CntBlock) : (s.modCnt x f).regs = s.regs := rfl
@[simp] theorem State.modCnt_latch (x : Nat) (f : CntBlock → CntBlock) : (s.modCnt x f).latch = s.latch := rfl
@[simp] theorem State.modCnt_hostRsp (x : Nat) (f : CntBlock → CntBlock) : (s.modCnt x f).hostRsp = s.hostRsp := rfl
@[simp] theorem State.modCnt_hostPoison (x : Nat) (f : CntBlock → CntBlock) : (s.modCnt x f).hostPoison = s.hostPoison := rfl
@[simp] theorem State.modCnt_mem (x : Nat) (f : CntBlock → CntBlock) : (s.modCnt x f).mem = s.mem := rfl
@[simp] theorem State.modCnt_env (x : Nat) (f : CntBlock → CntBlock) : (s.modCnt x f).env = s.env := rfl
@[simp] theorem State.modCnt_drawn (x : Nat) (f : CntBlock → CntBlock) : (s.modCnt x f).drawn = s.drawn := rfl
@[simp] theorem State.modCnt_sent (x : Nat) (f : CntBlock → CntBlock) : (s.modCnt x f).sent = s.sent := rfl
@[simp] theorem State.modCnt_tb (x : Nat) (f : CntBlock → CntBlock) : (s.modCnt x f).tb = s.tb := rfl
@[simp] theorem State.modCnt_clients (x : Nat) (f : CntBlock → CntBlock) : (s.modCnt x f).clients = s.clients := rfl
@[simp] theorem State.modCnt_rings (x : Nat) (f : CntBlock → CntBlock) : (s.modCnt x f).rings = s.rings := rfl
@[simp] theorem State.modCnt_steps (x : Nat) (f : CntBlock → CntBlock) : (s.modCnt x f).steps = s.steps := rfl
@[simp] theorem State.modCnt_journal (x : Nat) (f : CntBlock → CntBlock) : (s.modCnt x f).journal = s.journal := rfl
@[simp] theorem State.modCnt_ledgerErr (x : Nat) (f : CntBlock → CntBlock) : (s.modCnt x f).ledgerErr = s.ledgerErr := rfl
@[simp] theorem State.modCnt_tallyQueue (x : Nat) (f : CntBlock → CntBlock) : (s.modCnt x f).tallyQueue = s.tallyQueue := rfl
@[simp] theorem State.modCnt_sweepAt (x : Nat) (f : CntBlock → CntBlock) : (s.modCnt x f).sweepAt = s.sweepAt := rfl
@[simp] theorem State.modCnt_runs (x : Nat) (f : CntBlock → CntBlock) : (s.modCnt x f).runs = s.runs := rfl
@[simp] theorem State.modCnt_oldPreempt (x : Nat) (f : CntBlock → CntBlock) : (s.modCnt x f).oldPreempt = s.oldPreempt := rfl
@[simp] theorem State.modCnt_kindlingHeld (x : Nat) (f : CntBlock → CntBlock) : (s.modCnt x f).kindlingHeld = s.kindlingHeld := rfl
@[simp] theorem State.modCnt_residencies (x : Nat) (f : CntBlock → CntBlock) : (s.modCnt x f).residencies = s.residencies := rfl
@[simp] theorem State.modCnt_units (x : Nat) (f : CntBlock → CntBlock) : (s.modCnt x f).units = s.units := rfl
@[simp] theorem State.modCnt_known (x : Nat) (f : CntBlock → CntBlock) : (s.modCnt x f).known = s.known := rfl
@[simp] theorem State.modCnt_dies (x : Nat) (f : CntBlock → CntBlock) : (s.modCnt x f).dies = s.dies := rfl
@[simp] theorem State.modCnt_hearths (x : Nat) (f : CntBlock → CntBlock) : (s.modCnt x f).hearths = s.hearths := rfl
@[simp] theorem State.modCnt_pages (x : Nat) (f : CntBlock → CntBlock) : (s.modCnt x f).pages = s.pages := rfl
@[simp] theorem State.modCnt_pageCmd (x : Nat) (f : CntBlock → CntBlock) : (s.modCnt x f).pageCmd = s.pageCmd := rfl
@[simp] theorem State.modCnt_reserves (x : Nat) (f : CntBlock → CntBlock) : (s.modCnt x f).reserves = s.reserves := rfl
@[simp] theorem State.modCnt_access (x : Nat) (f : CntBlock → CntBlock) : (s.modCnt x f).access = s.access := rfl
@[simp] theorem State.modCnt_bellowsAt (x : Nat) (f : CntBlock → CntBlock) : (s.modCnt x f).bellowsAt = s.bellowsAt := rfl
@[simp] theorem State.modCnt_bellows (x : Nat) (f : CntBlock → CntBlock) : (s.modCnt x f).bellows = s.bellows := rfl
@[simp] theorem State.modCnt_translations (x : Nat) (f : CntBlock → CntBlock) : (s.modCnt x f).translations = s.translations := rfl
@[simp] theorem State.modCnt_movesDone (x : Nat) (f : CntBlock → CntBlock) : (s.modCnt x f).movesDone = s.movesDone := rfl
@[simp] theorem State.modCnt_moves (x : Nat) (f : CntBlock → CntBlock) : (s.modCnt x f).moves = s.moves := rfl
@[simp] theorem State.modCnt_dmcs (x : Nat) (f : CntBlock → CntBlock) : (s.modCnt x f).dmcs = s.dmcs := rfl
@[simp] theorem State.modCnt_links (x : Nat) (f : CntBlock → CntBlock) : (s.modCnt x f).links = s.links := rfl
@[simp] theorem State.modCnt_waiting (x : Nat) (f : CntBlock → CntBlock) : (s.modCnt x f).waiting = s.waiting := rfl
@[simp] theorem State.modCnt_saf (x : Nat) (f : CntBlock → CntBlock) : (s.modCnt x f).saf = s.saf := rfl
@[simp] theorem State.modCnt_keys (x : Nat) (f : CntBlock → CntBlock) : (s.modCnt x f).keys = s.keys := rfl
@[simp] theorem State.modCnt_measured (x : Nat) (f : CntBlock → CntBlock) : (s.modCnt x f).measured = s.measured := rfl
@[simp] theorem State.modCnt_trace (x : Nat) (f : CntBlock → CntBlock) : (s.modCnt x f).trace = s.trace := rfl
@[simp] theorem State.modCnt_relays (x : Nat) (f : CntBlock → CntBlock) : (s.modCnt x f).relays = s.relays := rfl
@[simp] theorem State.modCnt_cams (x : Nat) (f : CntBlock → CntBlock) : (s.modCnt x f).cams = s.cams := rfl
@[simp] theorem State.modCnt_audio (x : Nat) (f : CntBlock → CntBlock) : (s.modCnt x f).audio = s.audio := rfl
@[simp] theorem State.modCnt_wake (x : Nat) (f : CntBlock → CntBlock) : (s.modCnt x f).wake = s.wake := rfl
@[simp] theorem State.modCnt_power (x : Nat) (f : CntBlock → CntBlock) : (s.modCnt x f).power = s.power := rfl
@[simp] theorem State.modCnt_micOpen (x : Nat) (f : CntBlock → CntBlock) : (s.modCnt x f).micOpen = s.micOpen := rfl
@[simp] theorem State.modCnt_ports (x : Nat) (f : CntBlock → CntBlock) : (s.modCnt x f).ports = s.ports := rfl
@[simp] theorem State.modCnt_inds (x : Nat) (f : CntBlock → CntBlock) : (s.modCnt x f).inds = s.inds := rfl
@[simp] theorem State.modCnt_tap (x : Nat) (f : CntBlock → CntBlock) : (s.modCnt x f).tap = s.tap := rfl

/-! `State.modRingPort` -/

@[simp] theorem State.modRingPort_pending (x : Nat) (f : RingPort → RingPort) : (s.modRingPort x f).pending = s.pending := rfl
@[simp] theorem State.modRingPort_variant (x : Nat) (f : RingPort → RingPort) : (s.modRingPort x f).variant = s.variant := rfl
@[simp] theorem State.modRingPort_grade (x : Nat) (f : RingPort → RingPort) : (s.modRingPort x f).grade = s.grade := rfl
@[simp] theorem State.modRingPort_regs (x : Nat) (f : RingPort → RingPort) : (s.modRingPort x f).regs = s.regs := rfl
@[simp] theorem State.modRingPort_latch (x : Nat) (f : RingPort → RingPort) : (s.modRingPort x f).latch = s.latch := rfl
@[simp] theorem State.modRingPort_hostRsp (x : Nat) (f : RingPort → RingPort) : (s.modRingPort x f).hostRsp = s.hostRsp := rfl
@[simp] theorem State.modRingPort_hostPoison (x : Nat) (f : RingPort → RingPort) : (s.modRingPort x f).hostPoison = s.hostPoison := rfl
@[simp] theorem State.modRingPort_mem (x : Nat) (f : RingPort → RingPort) : (s.modRingPort x f).mem = s.mem := rfl
@[simp] theorem State.modRingPort_env (x : Nat) (f : RingPort → RingPort) : (s.modRingPort x f).env = s.env := rfl
@[simp] theorem State.modRingPort_drawn (x : Nat) (f : RingPort → RingPort) : (s.modRingPort x f).drawn = s.drawn := rfl
@[simp] theorem State.modRingPort_sent (x : Nat) (f : RingPort → RingPort) : (s.modRingPort x f).sent = s.sent := rfl
@[simp] theorem State.modRingPort_tb (x : Nat) (f : RingPort → RingPort) : (s.modRingPort x f).tb = s.tb := rfl
@[simp] theorem State.modRingPort_clients (x : Nat) (f : RingPort → RingPort) : (s.modRingPort x f).clients = s.clients := rfl
@[simp] theorem State.modRingPort_rings (x : Nat) (f : RingPort → RingPort) : (s.modRingPort x f).rings = s.rings := rfl
@[simp] theorem State.modRingPort_steps (x : Nat) (f : RingPort → RingPort) : (s.modRingPort x f).steps = s.steps := rfl
@[simp] theorem State.modRingPort_journal (x : Nat) (f : RingPort → RingPort) : (s.modRingPort x f).journal = s.journal := rfl
@[simp] theorem State.modRingPort_ledgerErr (x : Nat) (f : RingPort → RingPort) : (s.modRingPort x f).ledgerErr = s.ledgerErr := rfl
@[simp] theorem State.modRingPort_tallyQueue (x : Nat) (f : RingPort → RingPort) : (s.modRingPort x f).tallyQueue = s.tallyQueue := rfl
@[simp] theorem State.modRingPort_sweepAt (x : Nat) (f : RingPort → RingPort) : (s.modRingPort x f).sweepAt = s.sweepAt := rfl
@[simp] theorem State.modRingPort_runs (x : Nat) (f : RingPort → RingPort) : (s.modRingPort x f).runs = s.runs := rfl
@[simp] theorem State.modRingPort_oldPreempt (x : Nat) (f : RingPort → RingPort) : (s.modRingPort x f).oldPreempt = s.oldPreempt := rfl
@[simp] theorem State.modRingPort_kindlingHeld (x : Nat) (f : RingPort → RingPort) : (s.modRingPort x f).kindlingHeld = s.kindlingHeld := rfl
@[simp] theorem State.modRingPort_residencies (x : Nat) (f : RingPort → RingPort) : (s.modRingPort x f).residencies = s.residencies := rfl
@[simp] theorem State.modRingPort_units (x : Nat) (f : RingPort → RingPort) : (s.modRingPort x f).units = s.units := rfl
@[simp] theorem State.modRingPort_known (x : Nat) (f : RingPort → RingPort) : (s.modRingPort x f).known = s.known := rfl
@[simp] theorem State.modRingPort_dies (x : Nat) (f : RingPort → RingPort) : (s.modRingPort x f).dies = s.dies := rfl
@[simp] theorem State.modRingPort_hearths (x : Nat) (f : RingPort → RingPort) : (s.modRingPort x f).hearths = s.hearths := rfl
@[simp] theorem State.modRingPort_pages (x : Nat) (f : RingPort → RingPort) : (s.modRingPort x f).pages = s.pages := rfl
@[simp] theorem State.modRingPort_pageCmd (x : Nat) (f : RingPort → RingPort) : (s.modRingPort x f).pageCmd = s.pageCmd := rfl
@[simp] theorem State.modRingPort_reserves (x : Nat) (f : RingPort → RingPort) : (s.modRingPort x f).reserves = s.reserves := rfl
@[simp] theorem State.modRingPort_access (x : Nat) (f : RingPort → RingPort) : (s.modRingPort x f).access = s.access := rfl
@[simp] theorem State.modRingPort_bellowsAt (x : Nat) (f : RingPort → RingPort) : (s.modRingPort x f).bellowsAt = s.bellowsAt := rfl
@[simp] theorem State.modRingPort_bellows (x : Nat) (f : RingPort → RingPort) : (s.modRingPort x f).bellows = s.bellows := rfl
@[simp] theorem State.modRingPort_translations (x : Nat) (f : RingPort → RingPort) : (s.modRingPort x f).translations = s.translations := rfl
@[simp] theorem State.modRingPort_movesDone (x : Nat) (f : RingPort → RingPort) : (s.modRingPort x f).movesDone = s.movesDone := rfl
@[simp] theorem State.modRingPort_moves (x : Nat) (f : RingPort → RingPort) : (s.modRingPort x f).moves = s.moves := rfl
@[simp] theorem State.modRingPort_dmcs (x : Nat) (f : RingPort → RingPort) : (s.modRingPort x f).dmcs = s.dmcs := rfl
@[simp] theorem State.modRingPort_links (x : Nat) (f : RingPort → RingPort) : (s.modRingPort x f).links = s.links := rfl
@[simp] theorem State.modRingPort_waiting (x : Nat) (f : RingPort → RingPort) : (s.modRingPort x f).waiting = s.waiting := rfl
@[simp] theorem State.modRingPort_saf (x : Nat) (f : RingPort → RingPort) : (s.modRingPort x f).saf = s.saf := rfl
@[simp] theorem State.modRingPort_keys (x : Nat) (f : RingPort → RingPort) : (s.modRingPort x f).keys = s.keys := rfl
@[simp] theorem State.modRingPort_measured (x : Nat) (f : RingPort → RingPort) : (s.modRingPort x f).measured = s.measured := rfl
@[simp] theorem State.modRingPort_cnts (x : Nat) (f : RingPort → RingPort) : (s.modRingPort x f).cnts = s.cnts := rfl
@[simp] theorem State.modRingPort_trace (x : Nat) (f : RingPort → RingPort) : (s.modRingPort x f).trace = s.trace := rfl
@[simp] theorem State.modRingPort_relays (x : Nat) (f : RingPort → RingPort) : (s.modRingPort x f).relays = s.relays := rfl
@[simp] theorem State.modRingPort_cams (x : Nat) (f : RingPort → RingPort) : (s.modRingPort x f).cams = s.cams := rfl
@[simp] theorem State.modRingPort_audio (x : Nat) (f : RingPort → RingPort) : (s.modRingPort x f).audio = s.audio := rfl
@[simp] theorem State.modRingPort_wake (x : Nat) (f : RingPort → RingPort) : (s.modRingPort x f).wake = s.wake := rfl
@[simp] theorem State.modRingPort_power (x : Nat) (f : RingPort → RingPort) : (s.modRingPort x f).power = s.power := rfl
@[simp] theorem State.modRingPort_micOpen (x : Nat) (f : RingPort → RingPort) : (s.modRingPort x f).micOpen = s.micOpen := rfl
@[simp] theorem State.modRingPort_inds (x : Nat) (f : RingPort → RingPort) : (s.modRingPort x f).inds = s.inds := rfl
@[simp] theorem State.modRingPort_tap (x : Nat) (f : RingPort → RingPort) : (s.modRingPort x f).tap = s.tap := rfl

/-! `State.modInd` -/

@[simp] theorem State.modInd_pending (x : Nat) (f : IndCh → IndCh) : (s.modInd x f).pending = s.pending := rfl
@[simp] theorem State.modInd_variant (x : Nat) (f : IndCh → IndCh) : (s.modInd x f).variant = s.variant := rfl
@[simp] theorem State.modInd_grade (x : Nat) (f : IndCh → IndCh) : (s.modInd x f).grade = s.grade := rfl
@[simp] theorem State.modInd_regs (x : Nat) (f : IndCh → IndCh) : (s.modInd x f).regs = s.regs := rfl
@[simp] theorem State.modInd_latch (x : Nat) (f : IndCh → IndCh) : (s.modInd x f).latch = s.latch := rfl
@[simp] theorem State.modInd_hostRsp (x : Nat) (f : IndCh → IndCh) : (s.modInd x f).hostRsp = s.hostRsp := rfl
@[simp] theorem State.modInd_hostPoison (x : Nat) (f : IndCh → IndCh) : (s.modInd x f).hostPoison = s.hostPoison := rfl
@[simp] theorem State.modInd_mem (x : Nat) (f : IndCh → IndCh) : (s.modInd x f).mem = s.mem := rfl
@[simp] theorem State.modInd_env (x : Nat) (f : IndCh → IndCh) : (s.modInd x f).env = s.env := rfl
@[simp] theorem State.modInd_drawn (x : Nat) (f : IndCh → IndCh) : (s.modInd x f).drawn = s.drawn := rfl
@[simp] theorem State.modInd_sent (x : Nat) (f : IndCh → IndCh) : (s.modInd x f).sent = s.sent := rfl
@[simp] theorem State.modInd_tb (x : Nat) (f : IndCh → IndCh) : (s.modInd x f).tb = s.tb := rfl
@[simp] theorem State.modInd_clients (x : Nat) (f : IndCh → IndCh) : (s.modInd x f).clients = s.clients := rfl
@[simp] theorem State.modInd_rings (x : Nat) (f : IndCh → IndCh) : (s.modInd x f).rings = s.rings := rfl
@[simp] theorem State.modInd_steps (x : Nat) (f : IndCh → IndCh) : (s.modInd x f).steps = s.steps := rfl
@[simp] theorem State.modInd_journal (x : Nat) (f : IndCh → IndCh) : (s.modInd x f).journal = s.journal := rfl
@[simp] theorem State.modInd_ledgerErr (x : Nat) (f : IndCh → IndCh) : (s.modInd x f).ledgerErr = s.ledgerErr := rfl
@[simp] theorem State.modInd_tallyQueue (x : Nat) (f : IndCh → IndCh) : (s.modInd x f).tallyQueue = s.tallyQueue := rfl
@[simp] theorem State.modInd_sweepAt (x : Nat) (f : IndCh → IndCh) : (s.modInd x f).sweepAt = s.sweepAt := rfl
@[simp] theorem State.modInd_runs (x : Nat) (f : IndCh → IndCh) : (s.modInd x f).runs = s.runs := rfl
@[simp] theorem State.modInd_oldPreempt (x : Nat) (f : IndCh → IndCh) : (s.modInd x f).oldPreempt = s.oldPreempt := rfl
@[simp] theorem State.modInd_kindlingHeld (x : Nat) (f : IndCh → IndCh) : (s.modInd x f).kindlingHeld = s.kindlingHeld := rfl
@[simp] theorem State.modInd_residencies (x : Nat) (f : IndCh → IndCh) : (s.modInd x f).residencies = s.residencies := rfl
@[simp] theorem State.modInd_units (x : Nat) (f : IndCh → IndCh) : (s.modInd x f).units = s.units := rfl
@[simp] theorem State.modInd_known (x : Nat) (f : IndCh → IndCh) : (s.modInd x f).known = s.known := rfl
@[simp] theorem State.modInd_dies (x : Nat) (f : IndCh → IndCh) : (s.modInd x f).dies = s.dies := rfl
@[simp] theorem State.modInd_hearths (x : Nat) (f : IndCh → IndCh) : (s.modInd x f).hearths = s.hearths := rfl
@[simp] theorem State.modInd_pages (x : Nat) (f : IndCh → IndCh) : (s.modInd x f).pages = s.pages := rfl
@[simp] theorem State.modInd_pageCmd (x : Nat) (f : IndCh → IndCh) : (s.modInd x f).pageCmd = s.pageCmd := rfl
@[simp] theorem State.modInd_reserves (x : Nat) (f : IndCh → IndCh) : (s.modInd x f).reserves = s.reserves := rfl
@[simp] theorem State.modInd_access (x : Nat) (f : IndCh → IndCh) : (s.modInd x f).access = s.access := rfl
@[simp] theorem State.modInd_bellowsAt (x : Nat) (f : IndCh → IndCh) : (s.modInd x f).bellowsAt = s.bellowsAt := rfl
@[simp] theorem State.modInd_bellows (x : Nat) (f : IndCh → IndCh) : (s.modInd x f).bellows = s.bellows := rfl
@[simp] theorem State.modInd_translations (x : Nat) (f : IndCh → IndCh) : (s.modInd x f).translations = s.translations := rfl
@[simp] theorem State.modInd_movesDone (x : Nat) (f : IndCh → IndCh) : (s.modInd x f).movesDone = s.movesDone := rfl
@[simp] theorem State.modInd_moves (x : Nat) (f : IndCh → IndCh) : (s.modInd x f).moves = s.moves := rfl
@[simp] theorem State.modInd_dmcs (x : Nat) (f : IndCh → IndCh) : (s.modInd x f).dmcs = s.dmcs := rfl
@[simp] theorem State.modInd_links (x : Nat) (f : IndCh → IndCh) : (s.modInd x f).links = s.links := rfl
@[simp] theorem State.modInd_waiting (x : Nat) (f : IndCh → IndCh) : (s.modInd x f).waiting = s.waiting := rfl
@[simp] theorem State.modInd_saf (x : Nat) (f : IndCh → IndCh) : (s.modInd x f).saf = s.saf := rfl
@[simp] theorem State.modInd_keys (x : Nat) (f : IndCh → IndCh) : (s.modInd x f).keys = s.keys := rfl
@[simp] theorem State.modInd_measured (x : Nat) (f : IndCh → IndCh) : (s.modInd x f).measured = s.measured := rfl
@[simp] theorem State.modInd_cnts (x : Nat) (f : IndCh → IndCh) : (s.modInd x f).cnts = s.cnts := rfl
@[simp] theorem State.modInd_trace (x : Nat) (f : IndCh → IndCh) : (s.modInd x f).trace = s.trace := rfl
@[simp] theorem State.modInd_relays (x : Nat) (f : IndCh → IndCh) : (s.modInd x f).relays = s.relays := rfl
@[simp] theorem State.modInd_cams (x : Nat) (f : IndCh → IndCh) : (s.modInd x f).cams = s.cams := rfl
@[simp] theorem State.modInd_audio (x : Nat) (f : IndCh → IndCh) : (s.modInd x f).audio = s.audio := rfl
@[simp] theorem State.modInd_wake (x : Nat) (f : IndCh → IndCh) : (s.modInd x f).wake = s.wake := rfl
@[simp] theorem State.modInd_power (x : Nat) (f : IndCh → IndCh) : (s.modInd x f).power = s.power := rfl
@[simp] theorem State.modInd_micOpen (x : Nat) (f : IndCh → IndCh) : (s.modInd x f).micOpen = s.micOpen := rfl
@[simp] theorem State.modInd_ports (x : Nat) (f : IndCh → IndCh) : (s.modInd x f).ports = s.ports := rfl
@[simp] theorem State.modInd_tap (x : Nat) (f : IndCh → IndCh) : (s.modInd x f).tap = s.tap := rfl

/-! `State.modPort` -/

@[simp] theorem State.modPort_pending (x : Nat) (f : CamPort → CamPort) : (s.modPort x f).pending = s.pending := rfl
@[simp] theorem State.modPort_variant (x : Nat) (f : CamPort → CamPort) : (s.modPort x f).variant = s.variant := rfl
@[simp] theorem State.modPort_grade (x : Nat) (f : CamPort → CamPort) : (s.modPort x f).grade = s.grade := rfl
@[simp] theorem State.modPort_regs (x : Nat) (f : CamPort → CamPort) : (s.modPort x f).regs = s.regs := rfl
@[simp] theorem State.modPort_latch (x : Nat) (f : CamPort → CamPort) : (s.modPort x f).latch = s.latch := rfl
@[simp] theorem State.modPort_hostRsp (x : Nat) (f : CamPort → CamPort) : (s.modPort x f).hostRsp = s.hostRsp := rfl
@[simp] theorem State.modPort_hostPoison (x : Nat) (f : CamPort → CamPort) : (s.modPort x f).hostPoison = s.hostPoison := rfl
@[simp] theorem State.modPort_mem (x : Nat) (f : CamPort → CamPort) : (s.modPort x f).mem = s.mem := rfl
@[simp] theorem State.modPort_env (x : Nat) (f : CamPort → CamPort) : (s.modPort x f).env = s.env := rfl
@[simp] theorem State.modPort_drawn (x : Nat) (f : CamPort → CamPort) : (s.modPort x f).drawn = s.drawn := rfl
@[simp] theorem State.modPort_sent (x : Nat) (f : CamPort → CamPort) : (s.modPort x f).sent = s.sent := rfl
@[simp] theorem State.modPort_tb (x : Nat) (f : CamPort → CamPort) : (s.modPort x f).tb = s.tb := rfl
@[simp] theorem State.modPort_clients (x : Nat) (f : CamPort → CamPort) : (s.modPort x f).clients = s.clients := rfl
@[simp] theorem State.modPort_rings (x : Nat) (f : CamPort → CamPort) : (s.modPort x f).rings = s.rings := rfl
@[simp] theorem State.modPort_steps (x : Nat) (f : CamPort → CamPort) : (s.modPort x f).steps = s.steps := rfl
@[simp] theorem State.modPort_journal (x : Nat) (f : CamPort → CamPort) : (s.modPort x f).journal = s.journal := rfl
@[simp] theorem State.modPort_ledgerErr (x : Nat) (f : CamPort → CamPort) : (s.modPort x f).ledgerErr = s.ledgerErr := rfl
@[simp] theorem State.modPort_tallyQueue (x : Nat) (f : CamPort → CamPort) : (s.modPort x f).tallyQueue = s.tallyQueue := rfl
@[simp] theorem State.modPort_sweepAt (x : Nat) (f : CamPort → CamPort) : (s.modPort x f).sweepAt = s.sweepAt := rfl
@[simp] theorem State.modPort_runs (x : Nat) (f : CamPort → CamPort) : (s.modPort x f).runs = s.runs := rfl
@[simp] theorem State.modPort_oldPreempt (x : Nat) (f : CamPort → CamPort) : (s.modPort x f).oldPreempt = s.oldPreempt := rfl
@[simp] theorem State.modPort_kindlingHeld (x : Nat) (f : CamPort → CamPort) : (s.modPort x f).kindlingHeld = s.kindlingHeld := rfl
@[simp] theorem State.modPort_residencies (x : Nat) (f : CamPort → CamPort) : (s.modPort x f).residencies = s.residencies := rfl
@[simp] theorem State.modPort_units (x : Nat) (f : CamPort → CamPort) : (s.modPort x f).units = s.units := rfl
@[simp] theorem State.modPort_known (x : Nat) (f : CamPort → CamPort) : (s.modPort x f).known = s.known := rfl
@[simp] theorem State.modPort_dies (x : Nat) (f : CamPort → CamPort) : (s.modPort x f).dies = s.dies := rfl
@[simp] theorem State.modPort_hearths (x : Nat) (f : CamPort → CamPort) : (s.modPort x f).hearths = s.hearths := rfl
@[simp] theorem State.modPort_pages (x : Nat) (f : CamPort → CamPort) : (s.modPort x f).pages = s.pages := rfl
@[simp] theorem State.modPort_pageCmd (x : Nat) (f : CamPort → CamPort) : (s.modPort x f).pageCmd = s.pageCmd := rfl
@[simp] theorem State.modPort_reserves (x : Nat) (f : CamPort → CamPort) : (s.modPort x f).reserves = s.reserves := rfl
@[simp] theorem State.modPort_access (x : Nat) (f : CamPort → CamPort) : (s.modPort x f).access = s.access := rfl
@[simp] theorem State.modPort_bellowsAt (x : Nat) (f : CamPort → CamPort) : (s.modPort x f).bellowsAt = s.bellowsAt := rfl
@[simp] theorem State.modPort_bellows (x : Nat) (f : CamPort → CamPort) : (s.modPort x f).bellows = s.bellows := rfl
@[simp] theorem State.modPort_translations (x : Nat) (f : CamPort → CamPort) : (s.modPort x f).translations = s.translations := rfl
@[simp] theorem State.modPort_movesDone (x : Nat) (f : CamPort → CamPort) : (s.modPort x f).movesDone = s.movesDone := rfl
@[simp] theorem State.modPort_moves (x : Nat) (f : CamPort → CamPort) : (s.modPort x f).moves = s.moves := rfl
@[simp] theorem State.modPort_dmcs (x : Nat) (f : CamPort → CamPort) : (s.modPort x f).dmcs = s.dmcs := rfl
@[simp] theorem State.modPort_links (x : Nat) (f : CamPort → CamPort) : (s.modPort x f).links = s.links := rfl
@[simp] theorem State.modPort_waiting (x : Nat) (f : CamPort → CamPort) : (s.modPort x f).waiting = s.waiting := rfl
@[simp] theorem State.modPort_saf (x : Nat) (f : CamPort → CamPort) : (s.modPort x f).saf = s.saf := rfl
@[simp] theorem State.modPort_keys (x : Nat) (f : CamPort → CamPort) : (s.modPort x f).keys = s.keys := rfl
@[simp] theorem State.modPort_measured (x : Nat) (f : CamPort → CamPort) : (s.modPort x f).measured = s.measured := rfl
@[simp] theorem State.modPort_cnts (x : Nat) (f : CamPort → CamPort) : (s.modPort x f).cnts = s.cnts := rfl
@[simp] theorem State.modPort_trace (x : Nat) (f : CamPort → CamPort) : (s.modPort x f).trace = s.trace := rfl
@[simp] theorem State.modPort_relays (x : Nat) (f : CamPort → CamPort) : (s.modPort x f).relays = s.relays := rfl
@[simp] theorem State.modPort_audio (x : Nat) (f : CamPort → CamPort) : (s.modPort x f).audio = s.audio := rfl
@[simp] theorem State.modPort_wake (x : Nat) (f : CamPort → CamPort) : (s.modPort x f).wake = s.wake := rfl
@[simp] theorem State.modPort_power (x : Nat) (f : CamPort → CamPort) : (s.modPort x f).power = s.power := rfl
@[simp] theorem State.modPort_micOpen (x : Nat) (f : CamPort → CamPort) : (s.modPort x f).micOpen = s.micOpen := rfl
@[simp] theorem State.modPort_ports (x : Nat) (f : CamPort → CamPort) : (s.modPort x f).ports = s.ports := rfl
@[simp] theorem State.modPort_inds (x : Nat) (f : CamPort → CamPort) : (s.modPort x f).inds = s.inds := rfl
@[simp] theorem State.modPort_tap (x : Nat) (f : CamPort → CamPort) : (s.modPort x f).tap = s.tap := rfl

/-! `State.modChan` -/

@[simp] theorem State.modChan_pending (x : Nat) (f : CamChan → CamChan) : (s.modChan x f).pending = s.pending := rfl
@[simp] theorem State.modChan_variant (x : Nat) (f : CamChan → CamChan) : (s.modChan x f).variant = s.variant := rfl
@[simp] theorem State.modChan_grade (x : Nat) (f : CamChan → CamChan) : (s.modChan x f).grade = s.grade := rfl
@[simp] theorem State.modChan_regs (x : Nat) (f : CamChan → CamChan) : (s.modChan x f).regs = s.regs := rfl
@[simp] theorem State.modChan_latch (x : Nat) (f : CamChan → CamChan) : (s.modChan x f).latch = s.latch := rfl
@[simp] theorem State.modChan_hostRsp (x : Nat) (f : CamChan → CamChan) : (s.modChan x f).hostRsp = s.hostRsp := rfl
@[simp] theorem State.modChan_hostPoison (x : Nat) (f : CamChan → CamChan) : (s.modChan x f).hostPoison = s.hostPoison := rfl
@[simp] theorem State.modChan_mem (x : Nat) (f : CamChan → CamChan) : (s.modChan x f).mem = s.mem := rfl
@[simp] theorem State.modChan_env (x : Nat) (f : CamChan → CamChan) : (s.modChan x f).env = s.env := rfl
@[simp] theorem State.modChan_drawn (x : Nat) (f : CamChan → CamChan) : (s.modChan x f).drawn = s.drawn := rfl
@[simp] theorem State.modChan_sent (x : Nat) (f : CamChan → CamChan) : (s.modChan x f).sent = s.sent := rfl
@[simp] theorem State.modChan_tb (x : Nat) (f : CamChan → CamChan) : (s.modChan x f).tb = s.tb := rfl
@[simp] theorem State.modChan_clients (x : Nat) (f : CamChan → CamChan) : (s.modChan x f).clients = s.clients := rfl
@[simp] theorem State.modChan_rings (x : Nat) (f : CamChan → CamChan) : (s.modChan x f).rings = s.rings := rfl
@[simp] theorem State.modChan_steps (x : Nat) (f : CamChan → CamChan) : (s.modChan x f).steps = s.steps := rfl
@[simp] theorem State.modChan_journal (x : Nat) (f : CamChan → CamChan) : (s.modChan x f).journal = s.journal := rfl
@[simp] theorem State.modChan_ledgerErr (x : Nat) (f : CamChan → CamChan) : (s.modChan x f).ledgerErr = s.ledgerErr := rfl
@[simp] theorem State.modChan_tallyQueue (x : Nat) (f : CamChan → CamChan) : (s.modChan x f).tallyQueue = s.tallyQueue := rfl
@[simp] theorem State.modChan_sweepAt (x : Nat) (f : CamChan → CamChan) : (s.modChan x f).sweepAt = s.sweepAt := rfl
@[simp] theorem State.modChan_runs (x : Nat) (f : CamChan → CamChan) : (s.modChan x f).runs = s.runs := rfl
@[simp] theorem State.modChan_oldPreempt (x : Nat) (f : CamChan → CamChan) : (s.modChan x f).oldPreempt = s.oldPreempt := rfl
@[simp] theorem State.modChan_kindlingHeld (x : Nat) (f : CamChan → CamChan) : (s.modChan x f).kindlingHeld = s.kindlingHeld := rfl
@[simp] theorem State.modChan_residencies (x : Nat) (f : CamChan → CamChan) : (s.modChan x f).residencies = s.residencies := rfl
@[simp] theorem State.modChan_units (x : Nat) (f : CamChan → CamChan) : (s.modChan x f).units = s.units := rfl
@[simp] theorem State.modChan_known (x : Nat) (f : CamChan → CamChan) : (s.modChan x f).known = s.known := rfl
@[simp] theorem State.modChan_dies (x : Nat) (f : CamChan → CamChan) : (s.modChan x f).dies = s.dies := rfl
@[simp] theorem State.modChan_hearths (x : Nat) (f : CamChan → CamChan) : (s.modChan x f).hearths = s.hearths := rfl
@[simp] theorem State.modChan_pages (x : Nat) (f : CamChan → CamChan) : (s.modChan x f).pages = s.pages := rfl
@[simp] theorem State.modChan_pageCmd (x : Nat) (f : CamChan → CamChan) : (s.modChan x f).pageCmd = s.pageCmd := rfl
@[simp] theorem State.modChan_reserves (x : Nat) (f : CamChan → CamChan) : (s.modChan x f).reserves = s.reserves := rfl
@[simp] theorem State.modChan_access (x : Nat) (f : CamChan → CamChan) : (s.modChan x f).access = s.access := rfl
@[simp] theorem State.modChan_bellowsAt (x : Nat) (f : CamChan → CamChan) : (s.modChan x f).bellowsAt = s.bellowsAt := rfl
@[simp] theorem State.modChan_bellows (x : Nat) (f : CamChan → CamChan) : (s.modChan x f).bellows = s.bellows := rfl
@[simp] theorem State.modChan_translations (x : Nat) (f : CamChan → CamChan) : (s.modChan x f).translations = s.translations := rfl
@[simp] theorem State.modChan_movesDone (x : Nat) (f : CamChan → CamChan) : (s.modChan x f).movesDone = s.movesDone := rfl
@[simp] theorem State.modChan_moves (x : Nat) (f : CamChan → CamChan) : (s.modChan x f).moves = s.moves := rfl
@[simp] theorem State.modChan_dmcs (x : Nat) (f : CamChan → CamChan) : (s.modChan x f).dmcs = s.dmcs := rfl
@[simp] theorem State.modChan_links (x : Nat) (f : CamChan → CamChan) : (s.modChan x f).links = s.links := rfl
@[simp] theorem State.modChan_waiting (x : Nat) (f : CamChan → CamChan) : (s.modChan x f).waiting = s.waiting := rfl
@[simp] theorem State.modChan_saf (x : Nat) (f : CamChan → CamChan) : (s.modChan x f).saf = s.saf := rfl
@[simp] theorem State.modChan_keys (x : Nat) (f : CamChan → CamChan) : (s.modChan x f).keys = s.keys := rfl
@[simp] theorem State.modChan_measured (x : Nat) (f : CamChan → CamChan) : (s.modChan x f).measured = s.measured := rfl
@[simp] theorem State.modChan_cnts (x : Nat) (f : CamChan → CamChan) : (s.modChan x f).cnts = s.cnts := rfl
@[simp] theorem State.modChan_trace (x : Nat) (f : CamChan → CamChan) : (s.modChan x f).trace = s.trace := rfl
@[simp] theorem State.modChan_relays (x : Nat) (f : CamChan → CamChan) : (s.modChan x f).relays = s.relays := rfl
@[simp] theorem State.modChan_audio (x : Nat) (f : CamChan → CamChan) : (s.modChan x f).audio = s.audio := rfl
@[simp] theorem State.modChan_wake (x : Nat) (f : CamChan → CamChan) : (s.modChan x f).wake = s.wake := rfl
@[simp] theorem State.modChan_power (x : Nat) (f : CamChan → CamChan) : (s.modChan x f).power = s.power := rfl
@[simp] theorem State.modChan_micOpen (x : Nat) (f : CamChan → CamChan) : (s.modChan x f).micOpen = s.micOpen := rfl
@[simp] theorem State.modChan_ports (x : Nat) (f : CamChan → CamChan) : (s.modChan x f).ports = s.ports := rfl
@[simp] theorem State.modChan_inds (x : Nat) (f : CamChan → CamChan) : (s.modChan x f).inds = s.inds := rfl
@[simp] theorem State.modChan_tap (x : Nat) (f : CamChan → CamChan) : (s.modChan x f).tap = s.tap := rfl

/-! `State.modKeys` -/

@[simp] theorem State.modKeys_pending (f : Keys → Keys) : (s.modKeys f).pending = s.pending := rfl
@[simp] theorem State.modKeys_variant (f : Keys → Keys) : (s.modKeys f).variant = s.variant := rfl
@[simp] theorem State.modKeys_grade (f : Keys → Keys) : (s.modKeys f).grade = s.grade := rfl
@[simp] theorem State.modKeys_regs (f : Keys → Keys) : (s.modKeys f).regs = s.regs := rfl
@[simp] theorem State.modKeys_latch (f : Keys → Keys) : (s.modKeys f).latch = s.latch := rfl
@[simp] theorem State.modKeys_hostRsp (f : Keys → Keys) : (s.modKeys f).hostRsp = s.hostRsp := rfl
@[simp] theorem State.modKeys_hostPoison (f : Keys → Keys) : (s.modKeys f).hostPoison = s.hostPoison := rfl
@[simp] theorem State.modKeys_mem (f : Keys → Keys) : (s.modKeys f).mem = s.mem := rfl
@[simp] theorem State.modKeys_env (f : Keys → Keys) : (s.modKeys f).env = s.env := rfl
@[simp] theorem State.modKeys_drawn (f : Keys → Keys) : (s.modKeys f).drawn = s.drawn := rfl
@[simp] theorem State.modKeys_sent (f : Keys → Keys) : (s.modKeys f).sent = s.sent := rfl
@[simp] theorem State.modKeys_tb (f : Keys → Keys) : (s.modKeys f).tb = s.tb := rfl
@[simp] theorem State.modKeys_clients (f : Keys → Keys) : (s.modKeys f).clients = s.clients := rfl
@[simp] theorem State.modKeys_rings (f : Keys → Keys) : (s.modKeys f).rings = s.rings := rfl
@[simp] theorem State.modKeys_steps (f : Keys → Keys) : (s.modKeys f).steps = s.steps := rfl
@[simp] theorem State.modKeys_journal (f : Keys → Keys) : (s.modKeys f).journal = s.journal := rfl
@[simp] theorem State.modKeys_ledgerErr (f : Keys → Keys) : (s.modKeys f).ledgerErr = s.ledgerErr := rfl
@[simp] theorem State.modKeys_tallyQueue (f : Keys → Keys) : (s.modKeys f).tallyQueue = s.tallyQueue := rfl
@[simp] theorem State.modKeys_sweepAt (f : Keys → Keys) : (s.modKeys f).sweepAt = s.sweepAt := rfl
@[simp] theorem State.modKeys_runs (f : Keys → Keys) : (s.modKeys f).runs = s.runs := rfl
@[simp] theorem State.modKeys_oldPreempt (f : Keys → Keys) : (s.modKeys f).oldPreempt = s.oldPreempt := rfl
@[simp] theorem State.modKeys_kindlingHeld (f : Keys → Keys) : (s.modKeys f).kindlingHeld = s.kindlingHeld := rfl
@[simp] theorem State.modKeys_residencies (f : Keys → Keys) : (s.modKeys f).residencies = s.residencies := rfl
@[simp] theorem State.modKeys_units (f : Keys → Keys) : (s.modKeys f).units = s.units := rfl
@[simp] theorem State.modKeys_known (f : Keys → Keys) : (s.modKeys f).known = s.known := rfl
@[simp] theorem State.modKeys_dies (f : Keys → Keys) : (s.modKeys f).dies = s.dies := rfl
@[simp] theorem State.modKeys_hearths (f : Keys → Keys) : (s.modKeys f).hearths = s.hearths := rfl
@[simp] theorem State.modKeys_pages (f : Keys → Keys) : (s.modKeys f).pages = s.pages := rfl
@[simp] theorem State.modKeys_pageCmd (f : Keys → Keys) : (s.modKeys f).pageCmd = s.pageCmd := rfl
@[simp] theorem State.modKeys_reserves (f : Keys → Keys) : (s.modKeys f).reserves = s.reserves := rfl
@[simp] theorem State.modKeys_access (f : Keys → Keys) : (s.modKeys f).access = s.access := rfl
@[simp] theorem State.modKeys_bellowsAt (f : Keys → Keys) : (s.modKeys f).bellowsAt = s.bellowsAt := rfl
@[simp] theorem State.modKeys_bellows (f : Keys → Keys) : (s.modKeys f).bellows = s.bellows := rfl
@[simp] theorem State.modKeys_translations (f : Keys → Keys) : (s.modKeys f).translations = s.translations := rfl
@[simp] theorem State.modKeys_movesDone (f : Keys → Keys) : (s.modKeys f).movesDone = s.movesDone := rfl
@[simp] theorem State.modKeys_moves (f : Keys → Keys) : (s.modKeys f).moves = s.moves := rfl
@[simp] theorem State.modKeys_dmcs (f : Keys → Keys) : (s.modKeys f).dmcs = s.dmcs := rfl
@[simp] theorem State.modKeys_links (f : Keys → Keys) : (s.modKeys f).links = s.links := rfl
@[simp] theorem State.modKeys_waiting (f : Keys → Keys) : (s.modKeys f).waiting = s.waiting := rfl
@[simp] theorem State.modKeys_saf (f : Keys → Keys) : (s.modKeys f).saf = s.saf := rfl
@[simp] theorem State.modKeys_measured (f : Keys → Keys) : (s.modKeys f).measured = s.measured := rfl
@[simp] theorem State.modKeys_cnts (f : Keys → Keys) : (s.modKeys f).cnts = s.cnts := rfl
@[simp] theorem State.modKeys_trace (f : Keys → Keys) : (s.modKeys f).trace = s.trace := rfl
@[simp] theorem State.modKeys_relays (f : Keys → Keys) : (s.modKeys f).relays = s.relays := rfl
@[simp] theorem State.modKeys_cams (f : Keys → Keys) : (s.modKeys f).cams = s.cams := rfl
@[simp] theorem State.modKeys_audio (f : Keys → Keys) : (s.modKeys f).audio = s.audio := rfl
@[simp] theorem State.modKeys_wake (f : Keys → Keys) : (s.modKeys f).wake = s.wake := rfl
@[simp] theorem State.modKeys_power (f : Keys → Keys) : (s.modKeys f).power = s.power := rfl
@[simp] theorem State.modKeys_micOpen (f : Keys → Keys) : (s.modKeys f).micOpen = s.micOpen := rfl
@[simp] theorem State.modKeys_ports (f : Keys → Keys) : (s.modKeys f).ports = s.ports := rfl
@[simp] theorem State.modKeys_inds (f : Keys → Keys) : (s.modKeys f).inds = s.inds := rfl
@[simp] theorem State.modKeys_tap (f : Keys → Keys) : (s.modKeys f).tap = s.tap := rfl

/-! `State.modPower` -/

@[simp] theorem State.modPower_pending (f : Power → Power) : (s.modPower f).pending = s.pending := rfl
@[simp] theorem State.modPower_variant (f : Power → Power) : (s.modPower f).variant = s.variant := rfl
@[simp] theorem State.modPower_grade (f : Power → Power) : (s.modPower f).grade = s.grade := rfl
@[simp] theorem State.modPower_regs (f : Power → Power) : (s.modPower f).regs = s.regs := rfl
@[simp] theorem State.modPower_latch (f : Power → Power) : (s.modPower f).latch = s.latch := rfl
@[simp] theorem State.modPower_hostRsp (f : Power → Power) : (s.modPower f).hostRsp = s.hostRsp := rfl
@[simp] theorem State.modPower_hostPoison (f : Power → Power) : (s.modPower f).hostPoison = s.hostPoison := rfl
@[simp] theorem State.modPower_mem (f : Power → Power) : (s.modPower f).mem = s.mem := rfl
@[simp] theorem State.modPower_env (f : Power → Power) : (s.modPower f).env = s.env := rfl
@[simp] theorem State.modPower_drawn (f : Power → Power) : (s.modPower f).drawn = s.drawn := rfl
@[simp] theorem State.modPower_sent (f : Power → Power) : (s.modPower f).sent = s.sent := rfl
@[simp] theorem State.modPower_tb (f : Power → Power) : (s.modPower f).tb = s.tb := rfl
@[simp] theorem State.modPower_clients (f : Power → Power) : (s.modPower f).clients = s.clients := rfl
@[simp] theorem State.modPower_rings (f : Power → Power) : (s.modPower f).rings = s.rings := rfl
@[simp] theorem State.modPower_steps (f : Power → Power) : (s.modPower f).steps = s.steps := rfl
@[simp] theorem State.modPower_journal (f : Power → Power) : (s.modPower f).journal = s.journal := rfl
@[simp] theorem State.modPower_ledgerErr (f : Power → Power) : (s.modPower f).ledgerErr = s.ledgerErr := rfl
@[simp] theorem State.modPower_tallyQueue (f : Power → Power) : (s.modPower f).tallyQueue = s.tallyQueue := rfl
@[simp] theorem State.modPower_sweepAt (f : Power → Power) : (s.modPower f).sweepAt = s.sweepAt := rfl
@[simp] theorem State.modPower_runs (f : Power → Power) : (s.modPower f).runs = s.runs := rfl
@[simp] theorem State.modPower_oldPreempt (f : Power → Power) : (s.modPower f).oldPreempt = s.oldPreempt := rfl
@[simp] theorem State.modPower_kindlingHeld (f : Power → Power) : (s.modPower f).kindlingHeld = s.kindlingHeld := rfl
@[simp] theorem State.modPower_residencies (f : Power → Power) : (s.modPower f).residencies = s.residencies := rfl
@[simp] theorem State.modPower_units (f : Power → Power) : (s.modPower f).units = s.units := rfl
@[simp] theorem State.modPower_known (f : Power → Power) : (s.modPower f).known = s.known := rfl
@[simp] theorem State.modPower_dies (f : Power → Power) : (s.modPower f).dies = s.dies := rfl
@[simp] theorem State.modPower_hearths (f : Power → Power) : (s.modPower f).hearths = s.hearths := rfl
@[simp] theorem State.modPower_pages (f : Power → Power) : (s.modPower f).pages = s.pages := rfl
@[simp] theorem State.modPower_pageCmd (f : Power → Power) : (s.modPower f).pageCmd = s.pageCmd := rfl
@[simp] theorem State.modPower_reserves (f : Power → Power) : (s.modPower f).reserves = s.reserves := rfl
@[simp] theorem State.modPower_access (f : Power → Power) : (s.modPower f).access = s.access := rfl
@[simp] theorem State.modPower_bellowsAt (f : Power → Power) : (s.modPower f).bellowsAt = s.bellowsAt := rfl
@[simp] theorem State.modPower_bellows (f : Power → Power) : (s.modPower f).bellows = s.bellows := rfl
@[simp] theorem State.modPower_translations (f : Power → Power) : (s.modPower f).translations = s.translations := rfl
@[simp] theorem State.modPower_movesDone (f : Power → Power) : (s.modPower f).movesDone = s.movesDone := rfl
@[simp] theorem State.modPower_moves (f : Power → Power) : (s.modPower f).moves = s.moves := rfl
@[simp] theorem State.modPower_dmcs (f : Power → Power) : (s.modPower f).dmcs = s.dmcs := rfl
@[simp] theorem State.modPower_links (f : Power → Power) : (s.modPower f).links = s.links := rfl
@[simp] theorem State.modPower_waiting (f : Power → Power) : (s.modPower f).waiting = s.waiting := rfl
@[simp] theorem State.modPower_saf (f : Power → Power) : (s.modPower f).saf = s.saf := rfl
@[simp] theorem State.modPower_keys (f : Power → Power) : (s.modPower f).keys = s.keys := rfl
@[simp] theorem State.modPower_measured (f : Power → Power) : (s.modPower f).measured = s.measured := rfl
@[simp] theorem State.modPower_cnts (f : Power → Power) : (s.modPower f).cnts = s.cnts := rfl
@[simp] theorem State.modPower_trace (f : Power → Power) : (s.modPower f).trace = s.trace := rfl
@[simp] theorem State.modPower_relays (f : Power → Power) : (s.modPower f).relays = s.relays := rfl
@[simp] theorem State.modPower_cams (f : Power → Power) : (s.modPower f).cams = s.cams := rfl
@[simp] theorem State.modPower_audio (f : Power → Power) : (s.modPower f).audio = s.audio := rfl
@[simp] theorem State.modPower_wake (f : Power → Power) : (s.modPower f).wake = s.wake := rfl
@[simp] theorem State.modPower_micOpen (f : Power → Power) : (s.modPower f).micOpen = s.micOpen := rfl
@[simp] theorem State.modPower_ports (f : Power → Power) : (s.modPower f).ports = s.ports := rfl
@[simp] theorem State.modPower_inds (f : Power → Power) : (s.modPower f).inds = s.inds := rfl
@[simp] theorem State.modPower_tap (f : Power → Power) : (s.modPower f).tap = s.tap := rfl

/-! `State.modWake` -/

@[simp] theorem State.modWake_pending (f : Wake → Wake) : (s.modWake f).pending = s.pending := rfl
@[simp] theorem State.modWake_variant (f : Wake → Wake) : (s.modWake f).variant = s.variant := rfl
@[simp] theorem State.modWake_grade (f : Wake → Wake) : (s.modWake f).grade = s.grade := rfl
@[simp] theorem State.modWake_regs (f : Wake → Wake) : (s.modWake f).regs = s.regs := rfl
@[simp] theorem State.modWake_latch (f : Wake → Wake) : (s.modWake f).latch = s.latch := rfl
@[simp] theorem State.modWake_hostRsp (f : Wake → Wake) : (s.modWake f).hostRsp = s.hostRsp := rfl
@[simp] theorem State.modWake_hostPoison (f : Wake → Wake) : (s.modWake f).hostPoison = s.hostPoison := rfl
@[simp] theorem State.modWake_mem (f : Wake → Wake) : (s.modWake f).mem = s.mem := rfl
@[simp] theorem State.modWake_env (f : Wake → Wake) : (s.modWake f).env = s.env := rfl
@[simp] theorem State.modWake_drawn (f : Wake → Wake) : (s.modWake f).drawn = s.drawn := rfl
@[simp] theorem State.modWake_sent (f : Wake → Wake) : (s.modWake f).sent = s.sent := rfl
@[simp] theorem State.modWake_tb (f : Wake → Wake) : (s.modWake f).tb = s.tb := rfl
@[simp] theorem State.modWake_clients (f : Wake → Wake) : (s.modWake f).clients = s.clients := rfl
@[simp] theorem State.modWake_rings (f : Wake → Wake) : (s.modWake f).rings = s.rings := rfl
@[simp] theorem State.modWake_steps (f : Wake → Wake) : (s.modWake f).steps = s.steps := rfl
@[simp] theorem State.modWake_journal (f : Wake → Wake) : (s.modWake f).journal = s.journal := rfl
@[simp] theorem State.modWake_ledgerErr (f : Wake → Wake) : (s.modWake f).ledgerErr = s.ledgerErr := rfl
@[simp] theorem State.modWake_tallyQueue (f : Wake → Wake) : (s.modWake f).tallyQueue = s.tallyQueue := rfl
@[simp] theorem State.modWake_sweepAt (f : Wake → Wake) : (s.modWake f).sweepAt = s.sweepAt := rfl
@[simp] theorem State.modWake_runs (f : Wake → Wake) : (s.modWake f).runs = s.runs := rfl
@[simp] theorem State.modWake_oldPreempt (f : Wake → Wake) : (s.modWake f).oldPreempt = s.oldPreempt := rfl
@[simp] theorem State.modWake_kindlingHeld (f : Wake → Wake) : (s.modWake f).kindlingHeld = s.kindlingHeld := rfl
@[simp] theorem State.modWake_residencies (f : Wake → Wake) : (s.modWake f).residencies = s.residencies := rfl
@[simp] theorem State.modWake_units (f : Wake → Wake) : (s.modWake f).units = s.units := rfl
@[simp] theorem State.modWake_known (f : Wake → Wake) : (s.modWake f).known = s.known := rfl
@[simp] theorem State.modWake_dies (f : Wake → Wake) : (s.modWake f).dies = s.dies := rfl
@[simp] theorem State.modWake_hearths (f : Wake → Wake) : (s.modWake f).hearths = s.hearths := rfl
@[simp] theorem State.modWake_pages (f : Wake → Wake) : (s.modWake f).pages = s.pages := rfl
@[simp] theorem State.modWake_pageCmd (f : Wake → Wake) : (s.modWake f).pageCmd = s.pageCmd := rfl
@[simp] theorem State.modWake_reserves (f : Wake → Wake) : (s.modWake f).reserves = s.reserves := rfl
@[simp] theorem State.modWake_access (f : Wake → Wake) : (s.modWake f).access = s.access := rfl
@[simp] theorem State.modWake_bellowsAt (f : Wake → Wake) : (s.modWake f).bellowsAt = s.bellowsAt := rfl
@[simp] theorem State.modWake_bellows (f : Wake → Wake) : (s.modWake f).bellows = s.bellows := rfl
@[simp] theorem State.modWake_translations (f : Wake → Wake) : (s.modWake f).translations = s.translations := rfl
@[simp] theorem State.modWake_movesDone (f : Wake → Wake) : (s.modWake f).movesDone = s.movesDone := rfl
@[simp] theorem State.modWake_moves (f : Wake → Wake) : (s.modWake f).moves = s.moves := rfl
@[simp] theorem State.modWake_dmcs (f : Wake → Wake) : (s.modWake f).dmcs = s.dmcs := rfl
@[simp] theorem State.modWake_links (f : Wake → Wake) : (s.modWake f).links = s.links := rfl
@[simp] theorem State.modWake_waiting (f : Wake → Wake) : (s.modWake f).waiting = s.waiting := rfl
@[simp] theorem State.modWake_saf (f : Wake → Wake) : (s.modWake f).saf = s.saf := rfl
@[simp] theorem State.modWake_keys (f : Wake → Wake) : (s.modWake f).keys = s.keys := rfl
@[simp] theorem State.modWake_measured (f : Wake → Wake) : (s.modWake f).measured = s.measured := rfl
@[simp] theorem State.modWake_cnts (f : Wake → Wake) : (s.modWake f).cnts = s.cnts := rfl
@[simp] theorem State.modWake_trace (f : Wake → Wake) : (s.modWake f).trace = s.trace := rfl
@[simp] theorem State.modWake_relays (f : Wake → Wake) : (s.modWake f).relays = s.relays := rfl
@[simp] theorem State.modWake_cams (f : Wake → Wake) : (s.modWake f).cams = s.cams := rfl
@[simp] theorem State.modWake_audio (f : Wake → Wake) : (s.modWake f).audio = s.audio := rfl
@[simp] theorem State.modWake_power (f : Wake → Wake) : (s.modWake f).power = s.power := rfl
@[simp] theorem State.modWake_micOpen (f : Wake → Wake) : (s.modWake f).micOpen = s.micOpen := rfl
@[simp] theorem State.modWake_ports (f : Wake → Wake) : (s.modWake f).ports = s.ports := rfl
@[simp] theorem State.modWake_inds (f : Wake → Wake) : (s.modWake f).inds = s.inds := rfl
@[simp] theorem State.modWake_tap (f : Wake → Wake) : (s.modWake f).tap = s.tap := rfl

/-! `State.modStep` -/

@[simp] theorem State.modStep_pending (r q : Nat) (f : Step → Step) : (s.modStep r q f).pending = s.pending := rfl
@[simp] theorem State.modStep_variant (r q : Nat) (f : Step → Step) : (s.modStep r q f).variant = s.variant := rfl
@[simp] theorem State.modStep_grade (r q : Nat) (f : Step → Step) : (s.modStep r q f).grade = s.grade := rfl
@[simp] theorem State.modStep_regs (r q : Nat) (f : Step → Step) : (s.modStep r q f).regs = s.regs := rfl
@[simp] theorem State.modStep_latch (r q : Nat) (f : Step → Step) : (s.modStep r q f).latch = s.latch := rfl
@[simp] theorem State.modStep_hostRsp (r q : Nat) (f : Step → Step) : (s.modStep r q f).hostRsp = s.hostRsp := rfl
@[simp] theorem State.modStep_hostPoison (r q : Nat) (f : Step → Step) : (s.modStep r q f).hostPoison = s.hostPoison := rfl
@[simp] theorem State.modStep_mem (r q : Nat) (f : Step → Step) : (s.modStep r q f).mem = s.mem := rfl
@[simp] theorem State.modStep_env (r q : Nat) (f : Step → Step) : (s.modStep r q f).env = s.env := rfl
@[simp] theorem State.modStep_drawn (r q : Nat) (f : Step → Step) : (s.modStep r q f).drawn = s.drawn := rfl
@[simp] theorem State.modStep_sent (r q : Nat) (f : Step → Step) : (s.modStep r q f).sent = s.sent := rfl
@[simp] theorem State.modStep_tb (r q : Nat) (f : Step → Step) : (s.modStep r q f).tb = s.tb := rfl
@[simp] theorem State.modStep_clients (r q : Nat) (f : Step → Step) : (s.modStep r q f).clients = s.clients := rfl
@[simp] theorem State.modStep_rings (r q : Nat) (f : Step → Step) : (s.modStep r q f).rings = s.rings := rfl
@[simp] theorem State.modStep_journal (r q : Nat) (f : Step → Step) : (s.modStep r q f).journal = s.journal := rfl
@[simp] theorem State.modStep_ledgerErr (r q : Nat) (f : Step → Step) : (s.modStep r q f).ledgerErr = s.ledgerErr := rfl
@[simp] theorem State.modStep_tallyQueue (r q : Nat) (f : Step → Step) : (s.modStep r q f).tallyQueue = s.tallyQueue := rfl
@[simp] theorem State.modStep_sweepAt (r q : Nat) (f : Step → Step) : (s.modStep r q f).sweepAt = s.sweepAt := rfl
@[simp] theorem State.modStep_runs (r q : Nat) (f : Step → Step) : (s.modStep r q f).runs = s.runs := rfl
@[simp] theorem State.modStep_oldPreempt (r q : Nat) (f : Step → Step) : (s.modStep r q f).oldPreempt = s.oldPreempt := rfl
@[simp] theorem State.modStep_kindlingHeld (r q : Nat) (f : Step → Step) : (s.modStep r q f).kindlingHeld = s.kindlingHeld := rfl
@[simp] theorem State.modStep_residencies (r q : Nat) (f : Step → Step) : (s.modStep r q f).residencies = s.residencies := rfl
@[simp] theorem State.modStep_units (r q : Nat) (f : Step → Step) : (s.modStep r q f).units = s.units := rfl
@[simp] theorem State.modStep_known (r q : Nat) (f : Step → Step) : (s.modStep r q f).known = s.known := rfl
@[simp] theorem State.modStep_dies (r q : Nat) (f : Step → Step) : (s.modStep r q f).dies = s.dies := rfl
@[simp] theorem State.modStep_hearths (r q : Nat) (f : Step → Step) : (s.modStep r q f).hearths = s.hearths := rfl
@[simp] theorem State.modStep_pages (r q : Nat) (f : Step → Step) : (s.modStep r q f).pages = s.pages := rfl
@[simp] theorem State.modStep_pageCmd (r q : Nat) (f : Step → Step) : (s.modStep r q f).pageCmd = s.pageCmd := rfl
@[simp] theorem State.modStep_reserves (r q : Nat) (f : Step → Step) : (s.modStep r q f).reserves = s.reserves := rfl
@[simp] theorem State.modStep_access (r q : Nat) (f : Step → Step) : (s.modStep r q f).access = s.access := rfl
@[simp] theorem State.modStep_bellowsAt (r q : Nat) (f : Step → Step) : (s.modStep r q f).bellowsAt = s.bellowsAt := rfl
@[simp] theorem State.modStep_bellows (r q : Nat) (f : Step → Step) : (s.modStep r q f).bellows = s.bellows := rfl
@[simp] theorem State.modStep_translations (r q : Nat) (f : Step → Step) : (s.modStep r q f).translations = s.translations := rfl
@[simp] theorem State.modStep_movesDone (r q : Nat) (f : Step → Step) : (s.modStep r q f).movesDone = s.movesDone := rfl
@[simp] theorem State.modStep_moves (r q : Nat) (f : Step → Step) : (s.modStep r q f).moves = s.moves := rfl
@[simp] theorem State.modStep_dmcs (r q : Nat) (f : Step → Step) : (s.modStep r q f).dmcs = s.dmcs := rfl
@[simp] theorem State.modStep_links (r q : Nat) (f : Step → Step) : (s.modStep r q f).links = s.links := rfl
@[simp] theorem State.modStep_waiting (r q : Nat) (f : Step → Step) : (s.modStep r q f).waiting = s.waiting := rfl
@[simp] theorem State.modStep_saf (r q : Nat) (f : Step → Step) : (s.modStep r q f).saf = s.saf := rfl
@[simp] theorem State.modStep_keys (r q : Nat) (f : Step → Step) : (s.modStep r q f).keys = s.keys := rfl
@[simp] theorem State.modStep_measured (r q : Nat) (f : Step → Step) : (s.modStep r q f).measured = s.measured := rfl
@[simp] theorem State.modStep_cnts (r q : Nat) (f : Step → Step) : (s.modStep r q f).cnts = s.cnts := rfl
@[simp] theorem State.modStep_trace (r q : Nat) (f : Step → Step) : (s.modStep r q f).trace = s.trace := rfl
@[simp] theorem State.modStep_relays (r q : Nat) (f : Step → Step) : (s.modStep r q f).relays = s.relays := rfl
@[simp] theorem State.modStep_cams (r q : Nat) (f : Step → Step) : (s.modStep r q f).cams = s.cams := rfl
@[simp] theorem State.modStep_audio (r q : Nat) (f : Step → Step) : (s.modStep r q f).audio = s.audio := rfl
@[simp] theorem State.modStep_wake (r q : Nat) (f : Step → Step) : (s.modStep r q f).wake = s.wake := rfl
@[simp] theorem State.modStep_power (r q : Nat) (f : Step → Step) : (s.modStep r q f).power = s.power := rfl
@[simp] theorem State.modStep_micOpen (r q : Nat) (f : Step → Step) : (s.modStep r q f).micOpen = s.micOpen := rfl
@[simp] theorem State.modStep_ports (r q : Nat) (f : Step → Step) : (s.modStep r q f).ports = s.ports := rfl
@[simp] theorem State.modStep_inds (r q : Nat) (f : Step → Step) : (s.modStep r q f).inds = s.inds := rfl
@[simp] theorem State.modStep_tap (r q : Nat) (f : Step → Step) : (s.modStep r q f).tap = s.tap := rfl

/-! `State.modCmd` -/

@[simp] theorem State.modCmd_pending (r q i : Nat) (f : Cmd → Cmd) : (s.modCmd r q i f).pending = s.pending := rfl
@[simp] theorem State.modCmd_variant (r q i : Nat) (f : Cmd → Cmd) : (s.modCmd r q i f).variant = s.variant := rfl
@[simp] theorem State.modCmd_grade (r q i : Nat) (f : Cmd → Cmd) : (s.modCmd r q i f).grade = s.grade := rfl
@[simp] theorem State.modCmd_regs (r q i : Nat) (f : Cmd → Cmd) : (s.modCmd r q i f).regs = s.regs := rfl
@[simp] theorem State.modCmd_latch (r q i : Nat) (f : Cmd → Cmd) : (s.modCmd r q i f).latch = s.latch := rfl
@[simp] theorem State.modCmd_hostRsp (r q i : Nat) (f : Cmd → Cmd) : (s.modCmd r q i f).hostRsp = s.hostRsp := rfl
@[simp] theorem State.modCmd_hostPoison (r q i : Nat) (f : Cmd → Cmd) : (s.modCmd r q i f).hostPoison = s.hostPoison := rfl
@[simp] theorem State.modCmd_mem (r q i : Nat) (f : Cmd → Cmd) : (s.modCmd r q i f).mem = s.mem := rfl
@[simp] theorem State.modCmd_env (r q i : Nat) (f : Cmd → Cmd) : (s.modCmd r q i f).env = s.env := rfl
@[simp] theorem State.modCmd_drawn (r q i : Nat) (f : Cmd → Cmd) : (s.modCmd r q i f).drawn = s.drawn := rfl
@[simp] theorem State.modCmd_sent (r q i : Nat) (f : Cmd → Cmd) : (s.modCmd r q i f).sent = s.sent := rfl
@[simp] theorem State.modCmd_tb (r q i : Nat) (f : Cmd → Cmd) : (s.modCmd r q i f).tb = s.tb := rfl
@[simp] theorem State.modCmd_clients (r q i : Nat) (f : Cmd → Cmd) : (s.modCmd r q i f).clients = s.clients := rfl
@[simp] theorem State.modCmd_rings (r q i : Nat) (f : Cmd → Cmd) : (s.modCmd r q i f).rings = s.rings := rfl
@[simp] theorem State.modCmd_journal (r q i : Nat) (f : Cmd → Cmd) : (s.modCmd r q i f).journal = s.journal := rfl
@[simp] theorem State.modCmd_ledgerErr (r q i : Nat) (f : Cmd → Cmd) : (s.modCmd r q i f).ledgerErr = s.ledgerErr := rfl
@[simp] theorem State.modCmd_tallyQueue (r q i : Nat) (f : Cmd → Cmd) : (s.modCmd r q i f).tallyQueue = s.tallyQueue := rfl
@[simp] theorem State.modCmd_sweepAt (r q i : Nat) (f : Cmd → Cmd) : (s.modCmd r q i f).sweepAt = s.sweepAt := rfl
@[simp] theorem State.modCmd_runs (r q i : Nat) (f : Cmd → Cmd) : (s.modCmd r q i f).runs = s.runs := rfl
@[simp] theorem State.modCmd_oldPreempt (r q i : Nat) (f : Cmd → Cmd) : (s.modCmd r q i f).oldPreempt = s.oldPreempt := rfl
@[simp] theorem State.modCmd_kindlingHeld (r q i : Nat) (f : Cmd → Cmd) : (s.modCmd r q i f).kindlingHeld = s.kindlingHeld := rfl
@[simp] theorem State.modCmd_residencies (r q i : Nat) (f : Cmd → Cmd) : (s.modCmd r q i f).residencies = s.residencies := rfl
@[simp] theorem State.modCmd_units (r q i : Nat) (f : Cmd → Cmd) : (s.modCmd r q i f).units = s.units := rfl
@[simp] theorem State.modCmd_known (r q i : Nat) (f : Cmd → Cmd) : (s.modCmd r q i f).known = s.known := rfl
@[simp] theorem State.modCmd_dies (r q i : Nat) (f : Cmd → Cmd) : (s.modCmd r q i f).dies = s.dies := rfl
@[simp] theorem State.modCmd_hearths (r q i : Nat) (f : Cmd → Cmd) : (s.modCmd r q i f).hearths = s.hearths := rfl
@[simp] theorem State.modCmd_pages (r q i : Nat) (f : Cmd → Cmd) : (s.modCmd r q i f).pages = s.pages := rfl
@[simp] theorem State.modCmd_pageCmd (r q i : Nat) (f : Cmd → Cmd) : (s.modCmd r q i f).pageCmd = s.pageCmd := rfl
@[simp] theorem State.modCmd_reserves (r q i : Nat) (f : Cmd → Cmd) : (s.modCmd r q i f).reserves = s.reserves := rfl
@[simp] theorem State.modCmd_access (r q i : Nat) (f : Cmd → Cmd) : (s.modCmd r q i f).access = s.access := rfl
@[simp] theorem State.modCmd_bellowsAt (r q i : Nat) (f : Cmd → Cmd) : (s.modCmd r q i f).bellowsAt = s.bellowsAt := rfl
@[simp] theorem State.modCmd_bellows (r q i : Nat) (f : Cmd → Cmd) : (s.modCmd r q i f).bellows = s.bellows := rfl
@[simp] theorem State.modCmd_translations (r q i : Nat) (f : Cmd → Cmd) : (s.modCmd r q i f).translations = s.translations := rfl
@[simp] theorem State.modCmd_movesDone (r q i : Nat) (f : Cmd → Cmd) : (s.modCmd r q i f).movesDone = s.movesDone := rfl
@[simp] theorem State.modCmd_moves (r q i : Nat) (f : Cmd → Cmd) : (s.modCmd r q i f).moves = s.moves := rfl
@[simp] theorem State.modCmd_dmcs (r q i : Nat) (f : Cmd → Cmd) : (s.modCmd r q i f).dmcs = s.dmcs := rfl
@[simp] theorem State.modCmd_links (r q i : Nat) (f : Cmd → Cmd) : (s.modCmd r q i f).links = s.links := rfl
@[simp] theorem State.modCmd_waiting (r q i : Nat) (f : Cmd → Cmd) : (s.modCmd r q i f).waiting = s.waiting := rfl
@[simp] theorem State.modCmd_saf (r q i : Nat) (f : Cmd → Cmd) : (s.modCmd r q i f).saf = s.saf := rfl
@[simp] theorem State.modCmd_keys (r q i : Nat) (f : Cmd → Cmd) : (s.modCmd r q i f).keys = s.keys := rfl
@[simp] theorem State.modCmd_measured (r q i : Nat) (f : Cmd → Cmd) : (s.modCmd r q i f).measured = s.measured := rfl
@[simp] theorem State.modCmd_cnts (r q i : Nat) (f : Cmd → Cmd) : (s.modCmd r q i f).cnts = s.cnts := rfl
@[simp] theorem State.modCmd_trace (r q i : Nat) (f : Cmd → Cmd) : (s.modCmd r q i f).trace = s.trace := rfl
@[simp] theorem State.modCmd_relays (r q i : Nat) (f : Cmd → Cmd) : (s.modCmd r q i f).relays = s.relays := rfl
@[simp] theorem State.modCmd_cams (r q i : Nat) (f : Cmd → Cmd) : (s.modCmd r q i f).cams = s.cams := rfl
@[simp] theorem State.modCmd_audio (r q i : Nat) (f : Cmd → Cmd) : (s.modCmd r q i f).audio = s.audio := rfl
@[simp] theorem State.modCmd_wake (r q i : Nat) (f : Cmd → Cmd) : (s.modCmd r q i f).wake = s.wake := rfl
@[simp] theorem State.modCmd_power (r q i : Nat) (f : Cmd → Cmd) : (s.modCmd r q i f).power = s.power := rfl
@[simp] theorem State.modCmd_micOpen (r q i : Nat) (f : Cmd → Cmd) : (s.modCmd r q i f).micOpen = s.micOpen := rfl
@[simp] theorem State.modCmd_ports (r q i : Nat) (f : Cmd → Cmd) : (s.modCmd r q i f).ports = s.ports := rfl
@[simp] theorem State.modCmd_inds (r q i : Nat) (f : Cmd → Cmd) : (s.modCmd r q i f).inds = s.inds := rfl
@[simp] theorem State.modCmd_tap (r q i : Nat) (f : Cmd → Cmd) : (s.modCmd r q i f).tap = s.tap := rfl

/-! `State.modRun` -/

@[simp] theorem State.modRun_pending (d e : Nat) (f : Run → Run) : (s.modRun d e f).pending = s.pending := rfl
@[simp] theorem State.modRun_variant (d e : Nat) (f : Run → Run) : (s.modRun d e f).variant = s.variant := rfl
@[simp] theorem State.modRun_grade (d e : Nat) (f : Run → Run) : (s.modRun d e f).grade = s.grade := rfl
@[simp] theorem State.modRun_regs (d e : Nat) (f : Run → Run) : (s.modRun d e f).regs = s.regs := rfl
@[simp] theorem State.modRun_latch (d e : Nat) (f : Run → Run) : (s.modRun d e f).latch = s.latch := rfl
@[simp] theorem State.modRun_hostRsp (d e : Nat) (f : Run → Run) : (s.modRun d e f).hostRsp = s.hostRsp := rfl
@[simp] theorem State.modRun_hostPoison (d e : Nat) (f : Run → Run) : (s.modRun d e f).hostPoison = s.hostPoison := rfl
@[simp] theorem State.modRun_mem (d e : Nat) (f : Run → Run) : (s.modRun d e f).mem = s.mem := rfl
@[simp] theorem State.modRun_env (d e : Nat) (f : Run → Run) : (s.modRun d e f).env = s.env := rfl
@[simp] theorem State.modRun_drawn (d e : Nat) (f : Run → Run) : (s.modRun d e f).drawn = s.drawn := rfl
@[simp] theorem State.modRun_sent (d e : Nat) (f : Run → Run) : (s.modRun d e f).sent = s.sent := rfl
@[simp] theorem State.modRun_tb (d e : Nat) (f : Run → Run) : (s.modRun d e f).tb = s.tb := rfl
@[simp] theorem State.modRun_clients (d e : Nat) (f : Run → Run) : (s.modRun d e f).clients = s.clients := rfl
@[simp] theorem State.modRun_rings (d e : Nat) (f : Run → Run) : (s.modRun d e f).rings = s.rings := rfl
@[simp] theorem State.modRun_steps (d e : Nat) (f : Run → Run) : (s.modRun d e f).steps = s.steps := rfl
@[simp] theorem State.modRun_journal (d e : Nat) (f : Run → Run) : (s.modRun d e f).journal = s.journal := rfl
@[simp] theorem State.modRun_ledgerErr (d e : Nat) (f : Run → Run) : (s.modRun d e f).ledgerErr = s.ledgerErr := rfl
@[simp] theorem State.modRun_tallyQueue (d e : Nat) (f : Run → Run) : (s.modRun d e f).tallyQueue = s.tallyQueue := rfl
@[simp] theorem State.modRun_sweepAt (d e : Nat) (f : Run → Run) : (s.modRun d e f).sweepAt = s.sweepAt := rfl
@[simp] theorem State.modRun_oldPreempt (d e : Nat) (f : Run → Run) : (s.modRun d e f).oldPreempt = s.oldPreempt := rfl
@[simp] theorem State.modRun_kindlingHeld (d e : Nat) (f : Run → Run) : (s.modRun d e f).kindlingHeld = s.kindlingHeld := rfl
@[simp] theorem State.modRun_residencies (d e : Nat) (f : Run → Run) : (s.modRun d e f).residencies = s.residencies := rfl
@[simp] theorem State.modRun_units (d e : Nat) (f : Run → Run) : (s.modRun d e f).units = s.units := rfl
@[simp] theorem State.modRun_known (d e : Nat) (f : Run → Run) : (s.modRun d e f).known = s.known := rfl
@[simp] theorem State.modRun_dies (d e : Nat) (f : Run → Run) : (s.modRun d e f).dies = s.dies := rfl
@[simp] theorem State.modRun_hearths (d e : Nat) (f : Run → Run) : (s.modRun d e f).hearths = s.hearths := rfl
@[simp] theorem State.modRun_pages (d e : Nat) (f : Run → Run) : (s.modRun d e f).pages = s.pages := rfl
@[simp] theorem State.modRun_pageCmd (d e : Nat) (f : Run → Run) : (s.modRun d e f).pageCmd = s.pageCmd := rfl
@[simp] theorem State.modRun_reserves (d e : Nat) (f : Run → Run) : (s.modRun d e f).reserves = s.reserves := rfl
@[simp] theorem State.modRun_access (d e : Nat) (f : Run → Run) : (s.modRun d e f).access = s.access := rfl
@[simp] theorem State.modRun_bellowsAt (d e : Nat) (f : Run → Run) : (s.modRun d e f).bellowsAt = s.bellowsAt := rfl
@[simp] theorem State.modRun_bellows (d e : Nat) (f : Run → Run) : (s.modRun d e f).bellows = s.bellows := rfl
@[simp] theorem State.modRun_translations (d e : Nat) (f : Run → Run) : (s.modRun d e f).translations = s.translations := rfl
@[simp] theorem State.modRun_movesDone (d e : Nat) (f : Run → Run) : (s.modRun d e f).movesDone = s.movesDone := rfl
@[simp] theorem State.modRun_moves (d e : Nat) (f : Run → Run) : (s.modRun d e f).moves = s.moves := rfl
@[simp] theorem State.modRun_dmcs (d e : Nat) (f : Run → Run) : (s.modRun d e f).dmcs = s.dmcs := rfl
@[simp] theorem State.modRun_links (d e : Nat) (f : Run → Run) : (s.modRun d e f).links = s.links := rfl
@[simp] theorem State.modRun_waiting (d e : Nat) (f : Run → Run) : (s.modRun d e f).waiting = s.waiting := rfl
@[simp] theorem State.modRun_saf (d e : Nat) (f : Run → Run) : (s.modRun d e f).saf = s.saf := rfl
@[simp] theorem State.modRun_keys (d e : Nat) (f : Run → Run) : (s.modRun d e f).keys = s.keys := rfl
@[simp] theorem State.modRun_measured (d e : Nat) (f : Run → Run) : (s.modRun d e f).measured = s.measured := rfl
@[simp] theorem State.modRun_cnts (d e : Nat) (f : Run → Run) : (s.modRun d e f).cnts = s.cnts := rfl
@[simp] theorem State.modRun_trace (d e : Nat) (f : Run → Run) : (s.modRun d e f).trace = s.trace := rfl
@[simp] theorem State.modRun_relays (d e : Nat) (f : Run → Run) : (s.modRun d e f).relays = s.relays := rfl
@[simp] theorem State.modRun_cams (d e : Nat) (f : Run → Run) : (s.modRun d e f).cams = s.cams := rfl
@[simp] theorem State.modRun_audio (d e : Nat) (f : Run → Run) : (s.modRun d e f).audio = s.audio := rfl
@[simp] theorem State.modRun_wake (d e : Nat) (f : Run → Run) : (s.modRun d e f).wake = s.wake := rfl
@[simp] theorem State.modRun_power (d e : Nat) (f : Run → Run) : (s.modRun d e f).power = s.power := rfl
@[simp] theorem State.modRun_micOpen (d e : Nat) (f : Run → Run) : (s.modRun d e f).micOpen = s.micOpen := rfl
@[simp] theorem State.modRun_ports (d e : Nat) (f : Run → Run) : (s.modRun d e f).ports = s.ports := rfl
@[simp] theorem State.modRun_inds (d e : Nat) (f : Run → Run) : (s.modRun d e f).inds = s.inds := rfl
@[simp] theorem State.modRun_tap (d e : Nat) (f : Run → Run) : (s.modRun d e f).tap = s.tap := rfl

/-! `State.modEng` -/

@[simp] theorem State.modEng_pending (e : Eng) (f : EngRun → EngRun) : (s.modEng e f).pending = s.pending := rfl
@[simp] theorem State.modEng_variant (e : Eng) (f : EngRun → EngRun) : (s.modEng e f).variant = s.variant := rfl
@[simp] theorem State.modEng_grade (e : Eng) (f : EngRun → EngRun) : (s.modEng e f).grade = s.grade := rfl
@[simp] theorem State.modEng_regs (e : Eng) (f : EngRun → EngRun) : (s.modEng e f).regs = s.regs := rfl
@[simp] theorem State.modEng_latch (e : Eng) (f : EngRun → EngRun) : (s.modEng e f).latch = s.latch := rfl
@[simp] theorem State.modEng_hostRsp (e : Eng) (f : EngRun → EngRun) : (s.modEng e f).hostRsp = s.hostRsp := rfl
@[simp] theorem State.modEng_hostPoison (e : Eng) (f : EngRun → EngRun) : (s.modEng e f).hostPoison = s.hostPoison := rfl
@[simp] theorem State.modEng_mem (e : Eng) (f : EngRun → EngRun) : (s.modEng e f).mem = s.mem := rfl
@[simp] theorem State.modEng_env (e : Eng) (f : EngRun → EngRun) : (s.modEng e f).env = s.env := rfl
@[simp] theorem State.modEng_drawn (e : Eng) (f : EngRun → EngRun) : (s.modEng e f).drawn = s.drawn := rfl
@[simp] theorem State.modEng_sent (e : Eng) (f : EngRun → EngRun) : (s.modEng e f).sent = s.sent := rfl
@[simp] theorem State.modEng_tb (e : Eng) (f : EngRun → EngRun) : (s.modEng e f).tb = s.tb := rfl
@[simp] theorem State.modEng_clients (e : Eng) (f : EngRun → EngRun) : (s.modEng e f).clients = s.clients := rfl
@[simp] theorem State.modEng_rings (e : Eng) (f : EngRun → EngRun) : (s.modEng e f).rings = s.rings := rfl
@[simp] theorem State.modEng_steps (e : Eng) (f : EngRun → EngRun) : (s.modEng e f).steps = s.steps := rfl
@[simp] theorem State.modEng_journal (e : Eng) (f : EngRun → EngRun) : (s.modEng e f).journal = s.journal := rfl
@[simp] theorem State.modEng_ledgerErr (e : Eng) (f : EngRun → EngRun) : (s.modEng e f).ledgerErr = s.ledgerErr := rfl
@[simp] theorem State.modEng_tallyQueue (e : Eng) (f : EngRun → EngRun) : (s.modEng e f).tallyQueue = s.tallyQueue := rfl
@[simp] theorem State.modEng_sweepAt (e : Eng) (f : EngRun → EngRun) : (s.modEng e f).sweepAt = s.sweepAt := rfl
@[simp] theorem State.modEng_oldPreempt (e : Eng) (f : EngRun → EngRun) : (s.modEng e f).oldPreempt = s.oldPreempt := rfl
@[simp] theorem State.modEng_kindlingHeld (e : Eng) (f : EngRun → EngRun) : (s.modEng e f).kindlingHeld = s.kindlingHeld := rfl
@[simp] theorem State.modEng_residencies (e : Eng) (f : EngRun → EngRun) : (s.modEng e f).residencies = s.residencies := rfl
@[simp] theorem State.modEng_units (e : Eng) (f : EngRun → EngRun) : (s.modEng e f).units = s.units := rfl
@[simp] theorem State.modEng_known (e : Eng) (f : EngRun → EngRun) : (s.modEng e f).known = s.known := rfl
@[simp] theorem State.modEng_dies (e : Eng) (f : EngRun → EngRun) : (s.modEng e f).dies = s.dies := rfl
@[simp] theorem State.modEng_hearths (e : Eng) (f : EngRun → EngRun) : (s.modEng e f).hearths = s.hearths := rfl
@[simp] theorem State.modEng_pages (e : Eng) (f : EngRun → EngRun) : (s.modEng e f).pages = s.pages := rfl
@[simp] theorem State.modEng_pageCmd (e : Eng) (f : EngRun → EngRun) : (s.modEng e f).pageCmd = s.pageCmd := rfl
@[simp] theorem State.modEng_reserves (e : Eng) (f : EngRun → EngRun) : (s.modEng e f).reserves = s.reserves := rfl
@[simp] theorem State.modEng_access (e : Eng) (f : EngRun → EngRun) : (s.modEng e f).access = s.access := rfl
@[simp] theorem State.modEng_bellowsAt (e : Eng) (f : EngRun → EngRun) : (s.modEng e f).bellowsAt = s.bellowsAt := rfl
@[simp] theorem State.modEng_bellows (e : Eng) (f : EngRun → EngRun) : (s.modEng e f).bellows = s.bellows := rfl
@[simp] theorem State.modEng_translations (e : Eng) (f : EngRun → EngRun) : (s.modEng e f).translations = s.translations := rfl
@[simp] theorem State.modEng_movesDone (e : Eng) (f : EngRun → EngRun) : (s.modEng e f).movesDone = s.movesDone := rfl
@[simp] theorem State.modEng_moves (e : Eng) (f : EngRun → EngRun) : (s.modEng e f).moves = s.moves := rfl
@[simp] theorem State.modEng_dmcs (e : Eng) (f : EngRun → EngRun) : (s.modEng e f).dmcs = s.dmcs := rfl
@[simp] theorem State.modEng_links (e : Eng) (f : EngRun → EngRun) : (s.modEng e f).links = s.links := rfl
@[simp] theorem State.modEng_waiting (e : Eng) (f : EngRun → EngRun) : (s.modEng e f).waiting = s.waiting := rfl
@[simp] theorem State.modEng_saf (e : Eng) (f : EngRun → EngRun) : (s.modEng e f).saf = s.saf := rfl
@[simp] theorem State.modEng_keys (e : Eng) (f : EngRun → EngRun) : (s.modEng e f).keys = s.keys := rfl
@[simp] theorem State.modEng_measured (e : Eng) (f : EngRun → EngRun) : (s.modEng e f).measured = s.measured := rfl
@[simp] theorem State.modEng_cnts (e : Eng) (f : EngRun → EngRun) : (s.modEng e f).cnts = s.cnts := rfl
@[simp] theorem State.modEng_trace (e : Eng) (f : EngRun → EngRun) : (s.modEng e f).trace = s.trace := rfl
@[simp] theorem State.modEng_relays (e : Eng) (f : EngRun → EngRun) : (s.modEng e f).relays = s.relays := rfl
@[simp] theorem State.modEng_cams (e : Eng) (f : EngRun → EngRun) : (s.modEng e f).cams = s.cams := rfl
@[simp] theorem State.modEng_audio (e : Eng) (f : EngRun → EngRun) : (s.modEng e f).audio = s.audio := rfl
@[simp] theorem State.modEng_wake (e : Eng) (f : EngRun → EngRun) : (s.modEng e f).wake = s.wake := rfl
@[simp] theorem State.modEng_power (e : Eng) (f : EngRun → EngRun) : (s.modEng e f).power = s.power := rfl
@[simp] theorem State.modEng_micOpen (e : Eng) (f : EngRun → EngRun) : (s.modEng e f).micOpen = s.micOpen := rfl
@[simp] theorem State.modEng_ports (e : Eng) (f : EngRun → EngRun) : (s.modEng e f).ports = s.ports := rfl
@[simp] theorem State.modEng_inds (e : Eng) (f : EngRun → EngRun) : (s.modEng e f).inds = s.inds := rfl
@[simp] theorem State.modEng_tap (e : Eng) (f : EngRun → EngRun) : (s.modEng e f).tap = s.tap := rfl

/-! `State.modRelay` -/

@[simp] theorem State.modRelay_pending (x : Nat) (f : Relay → Relay) : (s.modRelay x f).pending = s.pending := by
  unfold State.modRelay; exact State.setFld_pending _ _ _
@[simp] theorem State.modRelay_variant (x : Nat) (f : Relay → Relay) : (s.modRelay x f).variant = s.variant := by
  unfold State.modRelay; exact State.setFld_variant _ _ _
@[simp] theorem State.modRelay_grade (x : Nat) (f : Relay → Relay) : (s.modRelay x f).grade = s.grade := by
  unfold State.modRelay; exact State.setFld_grade _ _ _
@[simp] theorem State.modRelay_latch (x : Nat) (f : Relay → Relay) : (s.modRelay x f).latch = s.latch := by
  unfold State.modRelay; exact State.setFld_latch _ _ _
@[simp] theorem State.modRelay_hostRsp (x : Nat) (f : Relay → Relay) : (s.modRelay x f).hostRsp = s.hostRsp := by
  unfold State.modRelay; exact State.setFld_hostRsp _ _ _
@[simp] theorem State.modRelay_hostPoison (x : Nat) (f : Relay → Relay) : (s.modRelay x f).hostPoison = s.hostPoison := by
  unfold State.modRelay; exact State.setFld_hostPoison _ _ _
@[simp] theorem State.modRelay_mem (x : Nat) (f : Relay → Relay) : (s.modRelay x f).mem = s.mem := by
  unfold State.modRelay; exact State.setFld_mem _ _ _
@[simp] theorem State.modRelay_env (x : Nat) (f : Relay → Relay) : (s.modRelay x f).env = s.env := by
  unfold State.modRelay; exact State.setFld_env _ _ _
@[simp] theorem State.modRelay_drawn (x : Nat) (f : Relay → Relay) : (s.modRelay x f).drawn = s.drawn := by
  unfold State.modRelay; exact State.setFld_drawn _ _ _
@[simp] theorem State.modRelay_sent (x : Nat) (f : Relay → Relay) : (s.modRelay x f).sent = s.sent := by
  unfold State.modRelay; exact State.setFld_sent _ _ _
@[simp] theorem State.modRelay_tb (x : Nat) (f : Relay → Relay) : (s.modRelay x f).tb = s.tb := by
  unfold State.modRelay; exact State.setFld_tb _ _ _
@[simp] theorem State.modRelay_clients (x : Nat) (f : Relay → Relay) : (s.modRelay x f).clients = s.clients := by
  unfold State.modRelay; exact State.setFld_clients _ _ _
@[simp] theorem State.modRelay_rings (x : Nat) (f : Relay → Relay) : (s.modRelay x f).rings = s.rings := by
  unfold State.modRelay; exact State.setFld_rings _ _ _
@[simp] theorem State.modRelay_steps (x : Nat) (f : Relay → Relay) : (s.modRelay x f).steps = s.steps := by
  unfold State.modRelay; exact State.setFld_steps _ _ _
@[simp] theorem State.modRelay_journal (x : Nat) (f : Relay → Relay) : (s.modRelay x f).journal = s.journal := by
  unfold State.modRelay; exact State.setFld_journal _ _ _
@[simp] theorem State.modRelay_ledgerErr (x : Nat) (f : Relay → Relay) : (s.modRelay x f).ledgerErr = s.ledgerErr := by
  unfold State.modRelay; exact State.setFld_ledgerErr _ _ _
@[simp] theorem State.modRelay_tallyQueue (x : Nat) (f : Relay → Relay) : (s.modRelay x f).tallyQueue = s.tallyQueue := by
  unfold State.modRelay; exact State.setFld_tallyQueue _ _ _
@[simp] theorem State.modRelay_sweepAt (x : Nat) (f : Relay → Relay) : (s.modRelay x f).sweepAt = s.sweepAt := by
  unfold State.modRelay; exact State.setFld_sweepAt _ _ _
@[simp] theorem State.modRelay_runs (x : Nat) (f : Relay → Relay) : (s.modRelay x f).runs = s.runs := by
  unfold State.modRelay; exact State.setFld_runs _ _ _
@[simp] theorem State.modRelay_oldPreempt (x : Nat) (f : Relay → Relay) : (s.modRelay x f).oldPreempt = s.oldPreempt := by
  unfold State.modRelay; exact State.setFld_oldPreempt _ _ _
@[simp] theorem State.modRelay_kindlingHeld (x : Nat) (f : Relay → Relay) : (s.modRelay x f).kindlingHeld = s.kindlingHeld := by
  unfold State.modRelay; exact State.setFld_kindlingHeld _ _ _
@[simp] theorem State.modRelay_residencies (x : Nat) (f : Relay → Relay) : (s.modRelay x f).residencies = s.residencies := by
  unfold State.modRelay; exact State.setFld_residencies _ _ _
@[simp] theorem State.modRelay_units (x : Nat) (f : Relay → Relay) : (s.modRelay x f).units = s.units := by
  unfold State.modRelay; exact State.setFld_units _ _ _
@[simp] theorem State.modRelay_known (x : Nat) (f : Relay → Relay) : (s.modRelay x f).known = s.known := by
  unfold State.modRelay; exact State.setFld_known _ _ _
@[simp] theorem State.modRelay_dies (x : Nat) (f : Relay → Relay) : (s.modRelay x f).dies = s.dies := by
  unfold State.modRelay; exact State.setFld_dies _ _ _
@[simp] theorem State.modRelay_hearths (x : Nat) (f : Relay → Relay) : (s.modRelay x f).hearths = s.hearths := by
  unfold State.modRelay; exact State.setFld_hearths _ _ _
@[simp] theorem State.modRelay_pages (x : Nat) (f : Relay → Relay) : (s.modRelay x f).pages = s.pages := by
  unfold State.modRelay; exact State.setFld_pages _ _ _
@[simp] theorem State.modRelay_pageCmd (x : Nat) (f : Relay → Relay) : (s.modRelay x f).pageCmd = s.pageCmd := by
  unfold State.modRelay; exact State.setFld_pageCmd _ _ _
@[simp] theorem State.modRelay_reserves (x : Nat) (f : Relay → Relay) : (s.modRelay x f).reserves = s.reserves := by
  unfold State.modRelay; exact State.setFld_reserves _ _ _
@[simp] theorem State.modRelay_access (x : Nat) (f : Relay → Relay) : (s.modRelay x f).access = s.access := by
  unfold State.modRelay; exact State.setFld_access _ _ _
@[simp] theorem State.modRelay_bellowsAt (x : Nat) (f : Relay → Relay) : (s.modRelay x f).bellowsAt = s.bellowsAt := by
  unfold State.modRelay; exact State.setFld_bellowsAt _ _ _
@[simp] theorem State.modRelay_bellows (x : Nat) (f : Relay → Relay) : (s.modRelay x f).bellows = s.bellows := by
  unfold State.modRelay; exact State.setFld_bellows _ _ _
@[simp] theorem State.modRelay_translations (x : Nat) (f : Relay → Relay) : (s.modRelay x f).translations = s.translations := by
  unfold State.modRelay; exact State.setFld_translations _ _ _
@[simp] theorem State.modRelay_movesDone (x : Nat) (f : Relay → Relay) : (s.modRelay x f).movesDone = s.movesDone := by
  unfold State.modRelay; exact State.setFld_movesDone _ _ _
@[simp] theorem State.modRelay_moves (x : Nat) (f : Relay → Relay) : (s.modRelay x f).moves = s.moves := by
  unfold State.modRelay; exact State.setFld_moves _ _ _
@[simp] theorem State.modRelay_dmcs (x : Nat) (f : Relay → Relay) : (s.modRelay x f).dmcs = s.dmcs := by
  unfold State.modRelay; exact State.setFld_dmcs _ _ _
@[simp] theorem State.modRelay_links (x : Nat) (f : Relay → Relay) : (s.modRelay x f).links = s.links := by
  unfold State.modRelay; exact State.setFld_links _ _ _
@[simp] theorem State.modRelay_waiting (x : Nat) (f : Relay → Relay) : (s.modRelay x f).waiting = s.waiting := by
  unfold State.modRelay; exact State.setFld_waiting _ _ _
@[simp] theorem State.modRelay_saf (x : Nat) (f : Relay → Relay) : (s.modRelay x f).saf = s.saf := by
  unfold State.modRelay; exact State.setFld_saf _ _ _
@[simp] theorem State.modRelay_keys (x : Nat) (f : Relay → Relay) : (s.modRelay x f).keys = s.keys := by
  unfold State.modRelay; exact State.setFld_keys _ _ _
@[simp] theorem State.modRelay_measured (x : Nat) (f : Relay → Relay) : (s.modRelay x f).measured = s.measured := by
  unfold State.modRelay; exact State.setFld_measured _ _ _
@[simp] theorem State.modRelay_cnts (x : Nat) (f : Relay → Relay) : (s.modRelay x f).cnts = s.cnts := by
  unfold State.modRelay; exact State.setFld_cnts _ _ _
@[simp] theorem State.modRelay_trace (x : Nat) (f : Relay → Relay) : (s.modRelay x f).trace = s.trace := by
  unfold State.modRelay; exact State.setFld_trace _ _ _
@[simp] theorem State.modRelay_cams (x : Nat) (f : Relay → Relay) : (s.modRelay x f).cams = s.cams := by
  unfold State.modRelay; exact State.setFld_cams _ _ _
@[simp] theorem State.modRelay_audio (x : Nat) (f : Relay → Relay) : (s.modRelay x f).audio = s.audio := by
  unfold State.modRelay; exact State.setFld_audio _ _ _
@[simp] theorem State.modRelay_wake (x : Nat) (f : Relay → Relay) : (s.modRelay x f).wake = s.wake := by
  unfold State.modRelay; exact State.setFld_wake _ _ _
@[simp] theorem State.modRelay_power (x : Nat) (f : Relay → Relay) : (s.modRelay x f).power = s.power := by
  unfold State.modRelay; exact State.setFld_power _ _ _
@[simp] theorem State.modRelay_micOpen (x : Nat) (f : Relay → Relay) : (s.modRelay x f).micOpen = s.micOpen := by
  unfold State.modRelay; exact State.setFld_micOpen _ _ _
@[simp] theorem State.modRelay_ports (x : Nat) (f : Relay → Relay) : (s.modRelay x f).ports = s.ports := by
  unfold State.modRelay; exact State.setFld_ports _ _ _
@[simp] theorem State.modRelay_inds (x : Nat) (f : Relay → Relay) : (s.modRelay x f).inds = s.inds := by
  unfold State.modRelay; exact State.setFld_inds _ _ _
@[simp] theorem State.modRelay_tap (x : Nat) (f : Relay → Relay) : (s.modRelay x f).tap = s.tap := by
  unfold State.modRelay; exact State.setFld_tap _ _ _

/-! Reads of registers after updates of other parts -/

@[simp] theorem State.reg_store (a : Nat) (bs : List Byte) (key : Nat) : (s.store a bs).reg key = s.reg key := rfl
@[simp] theorem State.fld_store (a : Nat) (bs : List Byte) (g : Fld) : (s.store a bs).fld g = s.fld g := rfl
@[simp] theorem State.flag_store (a : Nat) (bs : List Byte) (g : Fld) : (s.store a bs).flag g = s.flag g := rfl
@[simp] theorem State.reg_send (m : Sent) (key : Nat) : (s.send m).reg key = s.reg key := rfl
@[simp] theorem State.fld_send (m : Sent) (g : Fld) : (s.send m).fld g = s.fld g := rfl
@[simp] theorem State.flag_send (m : Sent) (g : Fld) : (s.send m).flag g = s.flag g := rfl
@[simp] theorem State.reg_msix (fn vec : Nat) (key : Nat) : (s.msix fn vec).reg key = s.reg key := rfl
@[simp] theorem State.fld_msix (fn vec : Nat) (g : Fld) : (s.msix fn vec).fld g = s.fld g := rfl
@[simp] theorem State.flag_msix (fn vec : Nat) (g : Fld) : (s.msix fn vec).flag g = s.flag g := rfl
@[simp] theorem State.reg_hostAnswer (bs : List Byte) (key : Nat) : (s.hostAnswer bs).reg key = s.reg key := rfl
@[simp] theorem State.fld_hostAnswer (bs : List Byte) (g : Fld) : (s.hostAnswer bs).fld g = s.fld g := rfl
@[simp] theorem State.flag_hostAnswer (bs : List Byte) (g : Fld) : (s.hostAnswer bs).flag g = s.flag g := rfl
@[simp] theorem State.reg_modUnit (x : Nat) (f : UnitSt → UnitSt) (key : Nat) : (s.modUnit x f).reg key = s.reg key := rfl
@[simp] theorem State.fld_modUnit (x : Nat) (f : UnitSt → UnitSt) (g : Fld) : (s.modUnit x f).fld g = s.fld g := rfl
@[simp] theorem State.flag_modUnit (x : Nat) (f : UnitSt → UnitSt) (g : Fld) : (s.modUnit x f).flag g = s.flag g := rfl
@[simp] theorem State.reg_modDie (x : Nat) (f : Die → Die) (key : Nat) : (s.modDie x f).reg key = s.reg key := rfl
@[simp] theorem State.fld_modDie (x : Nat) (f : Die → Die) (g : Fld) : (s.modDie x f).fld g = s.fld g := rfl
@[simp] theorem State.flag_modDie (x : Nat) (f : Die → Die) (g : Fld) : (s.modDie x f).flag g = s.flag g := rfl
@[simp] theorem State.reg_modClient (x : Nat) (f : Client → Client) (key : Nat) : (s.modClient x f).reg key = s.reg key := rfl
@[simp] theorem State.fld_modClient (x : Nat) (f : Client → Client) (g : Fld) : (s.modClient x f).fld g = s.fld g := rfl
@[simp] theorem State.flag_modClient (x : Nat) (f : Client → Client) (g : Fld) : (s.modClient x f).flag g = s.flag g := rfl
@[simp] theorem State.reg_modRing (x : Nat) (f : Ring → Ring) (key : Nat) : (s.modRing x f).reg key = s.reg key := rfl
@[simp] theorem State.fld_modRing (x : Nat) (f : Ring → Ring) (g : Fld) : (s.modRing x f).fld g = s.fld g := rfl
@[simp] theorem State.flag_modRing (x : Nat) (f : Ring → Ring) (g : Fld) : (s.modRing x f).flag g = s.flag g := rfl
@[simp] theorem State.reg_modHearth (x : Nat) (f : Hearth → Hearth) (key : Nat) : (s.modHearth x f).reg key = s.reg key := rfl
@[simp] theorem State.fld_modHearth (x : Nat) (f : Hearth → Hearth) (g : Fld) : (s.modHearth x f).fld g = s.fld g := rfl
@[simp] theorem State.flag_modHearth (x : Nat) (f : Hearth → Hearth) (g : Fld) : (s.modHearth x f).flag g = s.flag g := rfl
@[simp] theorem State.reg_modDmc (x : Nat) (f : Dmc → Dmc) (key : Nat) : (s.modDmc x f).reg key = s.reg key := rfl
@[simp] theorem State.fld_modDmc (x : Nat) (f : Dmc → Dmc) (g : Fld) : (s.modDmc x f).fld g = s.fld g := rfl
@[simp] theorem State.flag_modDmc (x : Nat) (f : Dmc → Dmc) (g : Fld) : (s.modDmc x f).flag g = s.flag g := rfl
@[simp] theorem State.reg_modPage (x : Nat) (f : Page → Page) (key : Nat) : (s.modPage x f).reg key = s.reg key := rfl
@[simp] theorem State.fld_modPage (x : Nat) (f : Page → Page) (g : Fld) : (s.modPage x f).fld g = s.fld g := rfl
@[simp] theorem State.flag_modPage (x : Nat) (f : Page → Page) (g : Fld) : (s.modPage x f).flag g = s.flag g := rfl
@[simp] theorem State.reg_modLink (x : Nat) (f : Link → Link) (key : Nat) : (s.modLink x f).reg key = s.reg key := rfl
@[simp] theorem State.fld_modLink (x : Nat) (f : Link → Link) (g : Fld) : (s.modLink x f).fld g = s.fld g := rfl
@[simp] theorem State.flag_modLink (x : Nat) (f : Link → Link) (g : Fld) : (s.modLink x f).flag g = s.flag g := rfl
@[simp] theorem State.reg_modCnt (x : Nat) (f : CntBlock → CntBlock) (key : Nat) : (s.modCnt x f).reg key = s.reg key := rfl
@[simp] theorem State.fld_modCnt (x : Nat) (f : CntBlock → CntBlock) (g : Fld) : (s.modCnt x f).fld g = s.fld g := rfl
@[simp] theorem State.flag_modCnt (x : Nat) (f : CntBlock → CntBlock) (g : Fld) : (s.modCnt x f).flag g = s.flag g := rfl
@[simp] theorem State.reg_modRingPort (x : Nat) (f : RingPort → RingPort) (key : Nat) : (s.modRingPort x f).reg key = s.reg key := rfl
@[simp] theorem State.fld_modRingPort (x : Nat) (f : RingPort → RingPort) (g : Fld) : (s.modRingPort x f).fld g = s.fld g := rfl
@[simp] theorem State.flag_modRingPort (x : Nat) (f : RingPort → RingPort) (g : Fld) : (s.modRingPort x f).flag g = s.flag g := rfl
@[simp] theorem State.reg_modInd (x : Nat) (f : IndCh → IndCh) (key : Nat) : (s.modInd x f).reg key = s.reg key := rfl
@[simp] theorem State.fld_modInd (x : Nat) (f : IndCh → IndCh) (g : Fld) : (s.modInd x f).fld g = s.fld g := rfl
@[simp] theorem State.flag_modInd (x : Nat) (f : IndCh → IndCh) (g : Fld) : (s.modInd x f).flag g = s.flag g := rfl
@[simp] theorem State.reg_modPort (x : Nat) (f : CamPort → CamPort) (key : Nat) : (s.modPort x f).reg key = s.reg key := rfl
@[simp] theorem State.fld_modPort (x : Nat) (f : CamPort → CamPort) (g : Fld) : (s.modPort x f).fld g = s.fld g := rfl
@[simp] theorem State.flag_modPort (x : Nat) (f : CamPort → CamPort) (g : Fld) : (s.modPort x f).flag g = s.flag g := rfl
@[simp] theorem State.reg_modChan (x : Nat) (f : CamChan → CamChan) (key : Nat) : (s.modChan x f).reg key = s.reg key := rfl
@[simp] theorem State.fld_modChan (x : Nat) (f : CamChan → CamChan) (g : Fld) : (s.modChan x f).fld g = s.fld g := rfl
@[simp] theorem State.flag_modChan (x : Nat) (f : CamChan → CamChan) (g : Fld) : (s.modChan x f).flag g = s.flag g := rfl
@[simp] theorem State.reg_modKeys (f : Keys → Keys) (key : Nat) : (s.modKeys f).reg key = s.reg key := rfl
@[simp] theorem State.fld_modKeys (f : Keys → Keys) (g : Fld) : (s.modKeys f).fld g = s.fld g := rfl
@[simp] theorem State.flag_modKeys (f : Keys → Keys) (g : Fld) : (s.modKeys f).flag g = s.flag g := rfl
@[simp] theorem State.reg_modPower (f : Power → Power) (key : Nat) : (s.modPower f).reg key = s.reg key := rfl
@[simp] theorem State.fld_modPower (f : Power → Power) (g : Fld) : (s.modPower f).fld g = s.fld g := rfl
@[simp] theorem State.flag_modPower (f : Power → Power) (g : Fld) : (s.modPower f).flag g = s.flag g := rfl
@[simp] theorem State.reg_modWake (f : Wake → Wake) (key : Nat) : (s.modWake f).reg key = s.reg key := rfl
@[simp] theorem State.fld_modWake (f : Wake → Wake) (g : Fld) : (s.modWake f).fld g = s.fld g := rfl
@[simp] theorem State.flag_modWake (f : Wake → Wake) (g : Fld) : (s.modWake f).flag g = s.flag g := rfl
@[simp] theorem State.reg_modStep (r q : Nat) (f : Step → Step) (key : Nat) : (s.modStep r q f).reg key = s.reg key := rfl
@[simp] theorem State.fld_modStep (r q : Nat) (f : Step → Step) (g : Fld) : (s.modStep r q f).fld g = s.fld g := rfl
@[simp] theorem State.flag_modStep (r q : Nat) (f : Step → Step) (g : Fld) : (s.modStep r q f).flag g = s.flag g := rfl
@[simp] theorem State.reg_modCmd (r q i : Nat) (f : Cmd → Cmd) (key : Nat) : (s.modCmd r q i f).reg key = s.reg key := rfl
@[simp] theorem State.fld_modCmd (r q i : Nat) (f : Cmd → Cmd) (g : Fld) : (s.modCmd r q i f).fld g = s.fld g := rfl
@[simp] theorem State.flag_modCmd (r q i : Nat) (f : Cmd → Cmd) (g : Fld) : (s.modCmd r q i f).flag g = s.flag g := rfl
@[simp] theorem State.reg_modRun (d e : Nat) (f : Run → Run) (key : Nat) : (s.modRun d e f).reg key = s.reg key := rfl
@[simp] theorem State.fld_modRun (d e : Nat) (f : Run → Run) (g : Fld) : (s.modRun d e f).fld g = s.fld g := rfl
@[simp] theorem State.flag_modRun (d e : Nat) (f : Run → Run) (g : Fld) : (s.modRun d e f).flag g = s.flag g := rfl
@[simp] theorem State.reg_modEng (e : Eng) (f : EngRun → EngRun) (key : Nat) : (s.modEng e f).reg key = s.reg key := rfl
@[simp] theorem State.fld_modEng (e : Eng) (f : EngRun → EngRun) (g : Fld) : (s.modEng e f).fld g = s.fld g := rfl
@[simp] theorem State.flag_modEng (e : Eng) (f : EngRun → EngRun) (g : Fld) : (s.modEng e f).flag g = s.flag g := rfl

end Fields

/-! ### Tables: the entry changed, and the others -/

@[simp] theorem State.unit_modUnit_same (s : State) (x : Nat) (f : UnitSt → UnitSt) : (s.modUnit x f).unit x = f (s.unit x) :=
  mapGet_mapSet_same _ _ _ _

theorem State.unit_modUnit_other (s : State) {x y : Nat} (f : UnitSt → UnitSt) (h : y ≠ x) : (s.modUnit x f).unit y = s.unit y :=
  mapGet_mapSet_other _ _ _ h

@[simp] theorem State.dieSt_modDie_same (s : State) (x : Nat) (f : Die → Die) : (s.modDie x f).dieSt x = f (s.dieSt x) :=
  mapGet_mapSet_same _ _ _ _

theorem State.dieSt_modDie_other (s : State) {x y : Nat} (f : Die → Die) (h : y ≠ x) : (s.modDie x f).dieSt y = s.dieSt y :=
  mapGet_mapSet_other _ _ _ h

@[simp] theorem State.client_modClient_same (s : State) (x : Nat) (f : Client → Client) : (s.modClient x f).client x = f (s.client x) :=
  mapGet_mapSet_same _ _ _ _

theorem State.client_modClient_other (s : State) {x y : Nat} (f : Client → Client) (h : y ≠ x) : (s.modClient x f).client y = s.client y :=
  mapGet_mapSet_other _ _ _ h

@[simp] theorem State.ring_modRing_same (s : State) (x : Nat) (f : Ring → Ring) : (s.modRing x f).ring x = f (s.ring x) :=
  mapGet_mapSet_same _ _ _ _

theorem State.ring_modRing_other (s : State) {x y : Nat} (f : Ring → Ring) (h : y ≠ x) : (s.modRing x f).ring y = s.ring y :=
  mapGet_mapSet_other _ _ _ h

@[simp] theorem State.hearth_modHearth_same (s : State) (x : Nat) (f : Hearth → Hearth) : (s.modHearth x f).hearth x = f (s.hearth x) :=
  mapGet_mapSet_same _ _ _ _

theorem State.hearth_modHearth_other (s : State) {x y : Nat} (f : Hearth → Hearth) (h : y ≠ x) : (s.modHearth x f).hearth y = s.hearth y :=
  mapGet_mapSet_other _ _ _ h

@[simp] theorem State.dmc_modDmc_same (s : State) (x : Nat) (f : Dmc → Dmc) : (s.modDmc x f).dmc x = f (s.dmc x) :=
  mapGet_mapSet_same _ _ _ _

theorem State.dmc_modDmc_other (s : State) {x y : Nat} (f : Dmc → Dmc) (h : y ≠ x) : (s.modDmc x f).dmc y = s.dmc y :=
  mapGet_mapSet_other _ _ _ h

@[simp] theorem State.page_modPage_same (s : State) (x : Nat) (f : Page → Page) : (s.modPage x f).page x = f (s.page x) :=
  mapGet_mapPut_same _ _ _ _

theorem State.page_modPage_other (s : State) {x y : Nat} (f : Page → Page) (h : y ≠ x) : (s.modPage x f).page y = s.page y :=
  mapGet_mapPut_other _ _ _ _ h

@[simp] theorem State.link_modLink_same (s : State) (x : Nat) (f : Link → Link) : (s.modLink x f).link x = f (s.link x) :=
  mapGet_mapSet_same _ _ _ _

theorem State.link_modLink_other (s : State) {x y : Nat} (f : Link → Link) (h : y ≠ x) : (s.modLink x f).link y = s.link y :=
  mapGet_mapSet_other _ _ _ h

@[simp] theorem State.cnt_modCnt_same (s : State) (x : Nat) (f : CntBlock → CntBlock) : (s.modCnt x f).cnt x = f (s.cnt x) :=
  mapGet_mapSet_same _ _ _ _

theorem State.cnt_modCnt_other (s : State) {x y : Nat} (f : CntBlock → CntBlock) (h : y ≠ x) : (s.modCnt x f).cnt y = s.cnt y :=
  mapGet_mapSet_other _ _ _ h

@[simp] theorem State.ringPort_modRingPort_same (s : State) (x : Nat) (f : RingPort → RingPort) : (s.modRingPort x f).ringPort x = f (s.ringPort x) :=
  mapGet_mapPut_same _ _ _ _

theorem State.ringPort_modRingPort_other (s : State) {x y : Nat} (f : RingPort → RingPort) (h : y ≠ x) : (s.modRingPort x f).ringPort y = s.ringPort y :=
  mapGet_mapPut_other _ _ _ _ h

@[simp] theorem State.indCh_modInd_same (s : State) (x : Nat) (f : IndCh → IndCh) : (s.modInd x f).indCh x = f (s.indCh x) :=
  mapGet_mapPut_same _ _ _ _

theorem State.indCh_modInd_other (s : State) {x y : Nat} (f : IndCh → IndCh) (h : y ≠ x) : (s.modInd x f).indCh y = s.indCh y :=
  mapGet_mapPut_other _ _ _ _ h

@[simp] theorem State.camPort_modPort_same (s : State) (x : Nat) (f : CamPort → CamPort) : (s.modPort x f).camPort x = f (s.camPort x) :=
  mapGet_mapPut_same _ _ _ _

theorem State.camPort_modPort_other (s : State) {x y : Nat} (f : CamPort → CamPort) (h : y ≠ x) : (s.modPort x f).camPort y = s.camPort y :=
  mapGet_mapPut_other _ _ _ _ h

@[simp] theorem State.chan_modChan_same (s : State) (x : Nat) (f : CamChan → CamChan) : (s.modChan x f).chan x = f (s.chan x) :=
  mapGet_mapPut_same _ _ _ _

theorem State.chan_modChan_other (s : State) {x y : Nat} (f : CamChan → CamChan) (h : y ≠ x) : (s.modChan x f).chan y = s.chan y :=
  mapGet_mapPut_other _ _ _ _ h

@[simp] theorem State.relay_modRelay_same (s : State) (x : Nat) (f : Relay → Relay) : (s.modRelay x f).relay x = f (s.relay x) :=
  mapGet_mapSet_same _ _ _ _

theorem State.relay_modRelay_other (s : State) {x y : Nat} (f : Relay → Relay) (h : y ≠ x) : (s.modRelay x f).relay y = s.relay y :=
  mapGet_mapSet_other _ _ _ h

/-! ### Registers and fields -/

theorem State.reg_setReg_same (s : State) (key v : Nat) : (s.setReg key v).reg key = v % 2 ^ 64 := by
  simp [State.reg, State.setReg]

theorem State.reg_setReg_other (s : State) {key k : Nat} (v : Nat) (h : k ≠ key) : (s.setReg key v).reg k = s.reg k := by
  simp [State.reg, State.setReg, mapGet_mapPut_other _ _ _ _ h]

theorem State.reg_lt (s : State) (key : Nat) : s.reg key < 2 ^ 64 := (mapGet s.regs key _).isLt

theorem State.reg_setFld_other (s : State) {f : Fld} {k : Nat} (v : Nat) (h : k ≠ f.key) : (s.setFld f v).reg k = s.reg k :=
  State.reg_setReg_other s _ h

theorem State.reg_setFlag_other (s : State) {f : Fld} {k : Nat} (b : Bool) (h : k ≠ f.key) : (s.setFlag f b).reg k = s.reg k :=
  State.reg_setReg_other s _ h

theorem State.reg_addFld_other (s : State) {f : Fld} {k : Nat} (n : Nat) (h : k ≠ f.key) : (s.addFld f n).reg k = s.reg k :=
  State.reg_setReg_other s _ h

/-- A field of another register is left alone. -/
theorem State.fld_setFld_other (s : State) {f g : Fld} (v : Nat) (h : g.key ≠ f.key) : (s.setFld f v).fld g = s.fld g := by
  simp [State.fld, State.setFld, State.reg_setReg_other _ _ h]

theorem State.flag_setFld_other (s : State) {f g : Fld} (v : Nat) (h : g.key ≠ f.key) : (s.setFld f v).flag g = s.flag g := by
  simp [State.flag, State.fld_setFld_other s v h]

/-- A field reads as what was written to it. -/
theorem State.fld_setFld_same (s : State) {f : Fld} (v : Nat) (h : f.lo + f.width ≤ 64) : (s.setFld f v).fld f = v % 2 ^ f.width := by
  have hp : (2 : Nat) ^ 64 = 2 ^ f.lo * 2 ^ f.width * 2 ^ (64 - f.lo - f.width) := by
    rw [← Nat.pow_add, ← Nat.pow_add]; congr 1; omega
  simp only [State.fld, State.setFld, State.reg_setReg_same]
  exact bits_setBits_mod _ v h

/-- A field of the same register that shares no bit is left alone. -/
theorem State.fld_setFld_apart (s : State) {f g : Fld} (v : Nat) (hk : g.key = f.key) (hf : f.lo + f.width ≤ 64) (hg : g.lo + g.width ≤ 64)
    (h : g.lo + g.width ≤ f.lo ∨ f.lo + f.width ≤ g.lo) : (s.setFld f v).fld g = s.fld g := by
  simp only [State.fld, State.setFld, hk, State.reg_setReg_same]
  exact bits_setBits_apart _ v hf hg h

/-- A one-bit field reads as what was written to it. -/
theorem State.flag_setFlag_same (s : State) {f : Fld} (b : Bool) (h : f.lo + f.width ≤ 64) (hw : f.width = 1) :
    (s.setFlag f b).flag f = b := by
  cases b <;> simp [State.flag, State.setFlag, State.fld_setFld_same s _ h, hw, b2n]

theorem State.flag_setFlag_other (s : State) {f g : Fld} (b : Bool) (h : g.key ≠ f.key) : (s.setFlag f b).flag g = s.flag g :=
  State.flag_setFld_other s _ h

theorem State.fld_setFlag_other (s : State) {f g : Fld} (b : Bool) (h : g.key ≠ f.key) : (s.setFlag f b).fld g = s.fld g :=
  State.fld_setFld_other s _ h

/-- A one-bit field of the same register that is another bit is left alone. -/
theorem State.flag_setFld_apart (s : State) {f g : Fld} (v : Nat) (hk : g.key = f.key) (hf : f.lo + f.width ≤ 64) (hg : g.lo + g.width ≤ 64)
    (h : g.lo + g.width ≤ f.lo ∨ f.lo + f.width ≤ g.lo) : (s.setFld f v).flag g = s.flag g := by
  simp [State.flag, State.fld_setFld_apart s v hk hf hg h]

/-- A counter field rises by what was added to it, up to its largest value. -/
theorem State.fld_addFld_same (s : State) {f : Fld} (n : Nat) (h : f.lo + f.width ≤ 64) :
    (s.addFld f n).fld f = min (s.fld f + n) (2 ^ f.width - 1) := by
  have hp := Nat.two_pow_pos f.width
  rw [State.addFld, State.fld_setFld_same s _ h, Nat.mod_eq_of_lt]
  omega

end Sys2Proof.Machine
end

