-- ==== Sys2Proof/Tests/Slice0.lean ====
section
/-! SUPPORT. The model's own tests: for every obligation with hypotheses a concrete state and operands that meet them, a refused
term for each check of WellFormed, and the values that the spec's text works out. -/

namespace Sys2Proof.Tests

open Sys2Proof Sys2Proof.Machine

set_option maxRecDepth 100000
set_option Elab.async false
set_option linter.unusedVariables false
set_option linter.unusedSimpArgs false

/-! ### Small states and operands -/

theorem okOf {α : Type} {x : Except Nat α} {a : α} (h : x.toOption = some a) : x = .ok a := by
  cases x with
  | error d => cases h
  | ok b => cases h; rfl
def errorIs {α : Type} (x : Except Nat α) (d : Nat) : Bool :=
  match x with
  | .error e => decide (e = d)
  | .ok _ => false
theorem errorOf {α : Type} {x : Except Nat α} {d : Nat} (h : errorIs x d = true) : x = .error d := by
  cases x with
  | error e => exact congrArg _ (of_decide_eq_true h)
  | ok b => cases h
theorem okVal {α : Type} {x : Except Nat α} (h : x.toOption.isSome = true) : x = .ok (x.toOption.get h) := by
  cases x with
  | error d => cases h
  | ok b => rfl
theorem okVal2 {α β : Type} {x : Except Nat (α × β)} (h : x.toOption.isSome = true) :
    x = .ok ((x.toOption.get h).1, (x.toOption.get h).2) := okVal h
theorem okVal3 {α β γ : Type} {x : Except Nat (α × β × γ)} (h : x.toOption.isSome = true) :
    x = .ok ((x.toOption.get h).1, (x.toOption.get h).2.1, (x.toOption.get h).2.2) := okVal h
/-- Neighbouring parts of a conjunction that are decided together. -/
theorem all2 {a b z : Prop} (x : a ∧ b) (y : z) : a ∧ b ∧ z :=
  ⟨x.1, x.2, y⟩
theorem all3 {a b c z : Prop} (x : a ∧ b ∧ c) (y : z) : a ∧ b ∧ c ∧ z :=
  ⟨x.1, x.2.1, x.2.2, y⟩
theorem all4 {a b c d z : Prop} (x : a ∧ b ∧ c ∧ d) (y : z) : a ∧ b ∧ c ∧ d ∧ z :=
  ⟨x.1, x.2.1, x.2.2.1, x.2.2.2, y⟩
theorem tripleIs {α β : Type} {x : α × β × Bool} {b : Bool} (h : x.2.2 = b) : x = (x.1, x.2.1, b) := by
  obtain ⟨_, _, _⟩ := x
  cases h
  rfl
theorem someVal {α : Type} {x : Option α} (h : x.isSome = true) : x = some (x.get h) := by
  cases x with
  | none => cases h
  | some b => rfl
theorem consVal {α : Type} {l : List α} (h : l ≠ []) : l = l.head h :: l.tail := (List.cons_head_tail h).symm
theorem pairOf {x : State × Option Nat} (h : x.2 = none) : x = (x.1, none) := Prod.ext rfl h
/-- A die's hub link, trained on both modules, in the reset state. -/
def wsLink : State := linkTrained 0x080 3 0 State.reset
/-- A run of one engine with a program of four instructions. -/
def wrun (kind die entry : Nat) : Run :=
  { die := die, entry := entry, kind := kind, engs := [{ unit := engineUnit kind 0 }]
    cmd := { kind := kind, program := 0xC0000000F000, programLen := 4, state := .running die } }
/-- The reset state with die `die` running that run. -/
def wsRun (kind die entry : Nat) : State :=
  { (State.reset.modDie die fun x => { x with gate := true }) with runs := [wrun kind die entry] }
def weng : Eng := ⟨0, 0, 0⟩
/-- The word `w` as the instruction that the runs of client 0 are at. -/
def wcode (w : W128) (s : State) : State := s.store (hostKey 0 0xC0000000F000) (leBytes w.toNat 16)
/-- The reset state with the power-up over and work served. -/
def wsPower : State :=
  { State.reset.setFld Fld.SAF_STATUS_state safServing with power := { State.reset.power with phase := .run } }
/-- Client 5 attached to function 1, with rings 16 to 31. -/
def wsClient : State :=
  (((wsPower.setFlag (Fld.SCH_CLIENT_CTRL_attached 5) true).setFld (Fld.SCH_CLIENT_CTRL_function 5) 1).setFld
    (Fld.SCH_CLIENT_RINGS_first_ring 5) 16).setFld (Fld.SCH_CLIENT_RING_COUNT_ring_count 5) 16
/-- A ring context, and client 5 with it in its ring context table. -/
def wctx : List Byte :=
  leBytes 0xC00000002000 8 ++ leBytes 0xC00000003000 8 ++ leBytes 0xC00000004000 8 ++ leBytes 0xC00000005000 8 ++ leBytes 4 1 ++
  leBytes 1 1 ++ leBytes 7 2 ++ leBytes 0 28
def wsCtx : State :=
  (wsClient.setFld (Fld.SCH_CLIENT_RCT_rct_base 5) 0xC00000001000).store (hostKey 5 0xC00000001000) wctx
/-- A step of ring 16 with one command of kind MOV. -/
def wstep (c : CmdState) : Step :=
  { ring := 16, client := 5, cmds := [{ index := 0, kind := 5, programLen := 1, state := c, readySince := some 0 }] }
/-- That step accepted on its active ring. -/
def wsStep (c : CmdState) : State :=
  { wsClient with steps := [wstep c], rings := [(16, { client := 5, state := .active, tail := 2, head := 1 })] }
/-- A DISPATCH of its command. -/
def wdisp (op : Nat) : Dispatch := ⟨0, 16, 0, op, 5, 1, 0, 0, 0, 0, 0, 0, 0⟩
/-- Its command as a run on die 0, all engines ended. -/
def wrunMov (ended : Bool) : Run :=
  { die := 0, entry := 0, kind := 5, engs := [{ unit := 0x040, ended := ended }], ring := 16, client := 5
    cmd := { index := 0, kind := 5, programLen := 4, state := .running 0 } }
def wsMov (ended : Bool) : State :=
  { ((wsStep (.running 0)).modDie 0 fun x => { x with gate := true }) with runs := [wrunMov ended] }
def wtally : TallyMsg := ⟨0, 16, 0, 1, 0, 0, 0, 0, 0, 0, 0, 0, 0⟩
/-- A state in which MOV 0 of die 0 may be tested. -/
def wsTest : State :=
  { (((State.reset.setFlag Fld.SCH_SELFTEST_enable true).setFld (Fld.CDG_STATUS_logic_state 0) 3).modDie 0 fun x =>
      { x with gate := true }) with tb := 2 ^ 45 }
/-- Die 0 READY with its gate open. -/
def wup (s : State) : State := (s.setFld (Fld.CDG_STATUS_logic_state 0) logicReady).modDie 0 fun x => { x with gate := true }
/-- The step of ring 16 with its command placed on die 0, which is READY. -/
def wsPlaced : State := wup (wsStep (.placed 0 7))
/-- Its command ready while die 0 is READY. -/
def wsReadyMov : State := wup (wsStep .waiting)
/-- A parked residency of client 7 on MXE 0 of die 0. -/
def wparked : Residency :=
  { client := 7, record := 0xC00000020000, shape := 0, engines := [0], state := [[]], parkedSince := some 0 }
def wmxe : Step := { ring := 16, client := 5, cmds := [{ index := 0, kind := 0, programLen := 1, readySince := some 0 }] }
def wsParked : State :=
  { (({ wsClient with residencies := [wparked] }.setVt 7 0 1000000000000).setFlag Fld.SCH_PREEMPT_enable true) with
    steps := [wmxe], rings := [(16, { client := 5, state := .active, tail := 2, head := 1 })], tb := 2 ^ 40 }
/-- A run of client 7 on the MOV of die 0, and a ready MOV command of client 5 that has waited. -/
def wrunOld : Run := { wrunMov false with client := 7, ring := 32, seq := 9, engs := (natRange 0 4).map fun n => { unit := 0x040 + n } }
def wsFair : State :=
  { ((wsReadyMov.setVt 7 5 (2 ^ 60)).setFlag Fld.SCH_PREEMPT_enable true).setFld (Fld.SCH_CLIENT_CLASS_class 7) 2 with
    runs := [wrunOld], tb := 2 ^ 40 }
/-- The same with the waiting client of class 0. -/
def wsSafety : State :=
  (((wsFair.setFld (Fld.SCH_CLIENT_CLASS_class 5) 0).modStep 16 0 fun st => { st with cmds := st.cmds.map fun c => { c with blockedSince := some 0 } }))
def wsTestParked : State := { wsTest with residencies := [wparked] }
/-- An instruction word from its bytes, byte 0 first. -/
def wword16 (bs : List Nat) : W128 := BitVec.ofNat 128 (bs.reverse.foldl (fun a b => 256 * a + b) 0)
/-- A card in host memory, row after row without gaps. -/
def wcard (off typ cls tier : Nat) (ext : List Nat) (row : Nat) : Card :=
  { base := 0xC00000000000 + off, typ := typ, cls := cls, tier := tier, dims := ext.length, extent := ext
    stride := [0, row, row * ext.getD 1 1, row * ext.getD 1 1 * ext.getD 2 1, row * ext.getD 1 1 * ext.getD 2 1 * ext.getD 3 1] }
/-- Walk slot 0 with extents `e` at every level and the permutation `perm`. -/
def wwalks (perm : Nat) (e : List Nat) : NMap WalkLevel := [(0, ⟨perm, e⟩), (1, ⟨perm, e⟩), (2, ⟨perm, e⟩)]
/-- A run of one engine on die 0 with cards, the first of them written. -/
def wrunT (kind : Nat) (cards : List Card) (g : EngRun) : Run :=
  { kind := kind, engs := [{ g with unit := engineUnit kind 0 }]
    cmd := { kind := kind, program := 0xC0000000F000, programLen := 4, cards := cards, writeMask := 1, state := .running 0 } }
def wsT (kind : Nat) (cards : List Card) (g : EngRun) : State :=
  { (State.reset.modDie 0 fun x => { x with gate := true }) with runs := [wrunT kind cards g] }
/-- A run of two engines, of SCATTER. -/
def wrun2 : Run := { wrunT 5 [wcard 0 9 0 0 [4] 16, wcard 192 9 0 0 [2] 8, wcard 128 10 0 0 [2] 8] {} with
  engs := [{ unit := 0x040 }, { unit := 0x041 }] }
/-- Bytes put at offsets of the host memory of client 0. -/
def wput (s : State) (l : List (Nat × List Byte)) : State := l.foldl (fun t p => t.store (hostKey 0 (0xC00000000000 + p.1)) p.2) s
def wv4 : Card := wcard 0 9 0 0 [4] 16
def wv4b : Card := wcard 64 9 0 0 [4] 16
def wix2 : Card := wcard 128 10 0 0 [2] 8
def wv2 : Card := wcard 192 9 0 0 [2] 8
def wmats : List Card := [wcard 0 9 0 0 [1, 1] 4, wcard 64 7 0 0 [1, 1] 2, wcard 128 7 0 0 [1, 1] 2]
def wmatG : EngRun := { walks := wwalks 210 [1, 1, 128, 1] }
def wconvs : List Card := [wcard 0 9 0 0 [1, 1, 1] 4, wcard 64 7 0 0 [1, 1, 1] 2, wcard 128 7 0 0 [1, 1, 1, 1] 2]
def wconvG : EngRun := { walks := wwalks 0xE4 [1, 16, 16, 1] }
/-- A matrix run of two engines, of which the second has no output. -/
def wrunM : Run := { wrunT 0 wmats wmatG with engs := [{ (wmatG : EngRun) with unit := 0 }, { (wmatG : EngRun) with unit := 1 }] }
/-- The cards of a resident command: snapshots, record, and three operands of REC_SCAN. -/
def wrecs : List Card :=
  [wcard 0 4 0 0 [65536] 65536, wcard 0x20000 4 0 0 [64] 64, wcard 0x30000 9 0 0 [3, 1, 1] 12, wcard 0x30040 9 0 0 [1, 1, 1] 4,
   wcard 0x30080 9 0 0 [1, 1, 1] 4]
def wrunR (g : EngRun) : Run :=
  { wrunT 0 wrecs g with cmd := { (wrunT 0 wrecs g).cmd with resident := true, writeMask := 17 } }
def wres : Residency := { client := 0, record := 0xC00000020000, shape := 0, engines := [0], state := [[]] }
def wsRec (g : EngRun) (xs : List Residency) : State := { wsT 0 [] {} with runs := [wrunR g], residencies := xs }
def warena : Card := wcard 0x1000 4 5 2 [768] 768
def wtable : Card := wcard 0x2000 4 0 2 [8, 1] 8
def wseqc : Card := wcard 0x3000 10 0 0 [4, 1] 16
def wd32 : Card := wcard 0 9 0 0 [32, 1, 1, 1] 128
def wq32 : Card := wcard 64 7 0 0 [32, 1, 1, 1] 64
def wpassc : Card := { wcard 0 4 4 2 [64] 64 with base := 0x200000 }
def wblkc : Card := wcard 0x5000 4 5 2 [1024] 1024
/-- A pass descriptor of two participants, and two empty home blocks. -/
def wpass : List Byte :=
  leBytes 1 4 ++ leBytes 2 1 ++ leBytes 0 1 ++ leBytes 2 1 ++ leBytes 0 1 ++ leBytes 1024 4 ++ leBytes 0x1400 2 ++ leBytes 0 2 ++
  leBytes 0x210000 6 ++ leBytes 0 2 ++ leBytes 0xC00000030000 6 ++ leBytes 0 34
def whome (origin : Nat) : List Byte :=
  let b := leBytes 1 4 ++ leBytes origin 1 ++ leBytes 0 1 ++ leBytes 0x1400 2 ++ leBytes 0 244
  b ++ leBytes (hdrCrc b) 4
def wpmem : List (Nat × List Byte) :=
  [(0x2000, leBytes 0x1000000000 8), (0x30000, leBytes 0xC00000040000 16 ++ leBytes 0xC00000040100 16),
   (0x40000, whome 0), (0x40100, whome 1)]
/-- Runs of two engines, of BLK_PACK and of BLK_SEND. -/
def wrunP : Run := { wrunT 5 [wblkc, warena, wpassc, wtable] {} with engs := [{ unit := 0x040 }, { unit := 0x041 }] }
def wrunP2 : Run := { wrunT 5 [wv4, wblkc, wpassc] {} with engs := [{ unit := 0x040 }, { unit := 0x041 }] }
/-- Device page 1 of client 0, with the pass descriptor at its start. -/
def wdev (s : State) : State :=
  (s.modPage 1 fun _ => { state := .backed, owner := 0, group := 0, frame := 1 }).store (dramKey 0 0x200000) wpass
/-- The same home blocks, the second not yet ready. -/
def wpmem2 : List (Nat × List Byte) := wpmem.take 3
/-- The second home block in a package that no link reaches. -/
def wpmem3 : List (Nat × List Byte) :=
  [(0x30000, leBytes 0xC00000040000 16 ++ leBytes (remoteBase + 0x20000000000) 16), (0x40000, whome 0)]
/-- A codebook set with one codebook of 16 vectors of four INT8, and the stream card of four values. -/
def wset : List Byte := withCrc (leBytes 0x31434D45 4 ++ leBytes 7 4 ++ [1, 3, 2, 0] ++ leBytes 196 4 ++ leBytes 0 44)
def wbook : List Byte := withCrc ((natRange 0 64).map fun i => BitVec.ofNat 8 i)
def wemem : List (Nat × List Byte) := [(0x1000, wset), (0x1040, leBytes (128 + 4 * 0x100000000) 8), (0x1080, wbook)]
def wemc : Card := { wcard 0 3 0 0 [4, 1] 4 with ember := true, scaleBase := 0xC00000001000, streamLen := 192 }
def wemMap : Card := wcard 0x3000 4 0 0 [2, 1] 2
def wemcs : List Card := [wemc, wcard 0x2000 7 0 0 [4, 1] 8, wcard 0x1000 4 0 0 [196] 196, wcard 0x3000 4 0 0 [2, 1] 2]
def wencW : W128 := wword16 [0x99, 0, 0, 0, 1, 0, 2, 0, 0, 3, 1, 0, 0, 0, 0x80, 0x3F]
/-- The stream that EMB_ENCODE makes of four zeros. -/
def wstream : List Byte :=
  [69, 77, 82, 49, 1, 0, 3, 2, 4, 0, 1, 0, 1, 0, 0, 0, 4, 0, 0, 0, 1, 0, 0, 0, 1, 0, 0, 0, 1, 0, 0, 0] ++ leBytes 7 28 ++ [221, 195, 3, 253] ++
  leBytes 0x1000000000000 60 ++ [152, 179, 230, 80]
/-- The stream as it is read, and its one block. -/
def wblk0 : List Byte := wstream.drop 64

def wemR : Ember :=
  { card := wemc, books := [⟨128, 4, 0⟩]
    h := { compat := false, two := false, etype := 3, v := 4, b0 := 4, b1 := 0, vpb := 1, units := 1, bpc := 1, setId := 7, nonce := 0 } }
/-- The one codebook of the stream, and a MATMUL that needs it while it is being loaded. -/
def wbookR : Book := { set := 0xC00000001000, idx := 0, stage := 0, bytes := 64, off := 128, data := [] }
def wmmW : W128 := wword16 [0x30, 0, 0, 0, 1, 0, 1, 0, 0, 0]
def wsWaits : State := wcode wmmW (wput (wsT 0 [wv4, wemc] { preloads := [⟨[wbookR], [], 100⟩] }) ((0, wstream) :: wemem))
def wsServes : State := (wup (wsRun 4 0 0)).setFlag (Fld.CDC_CTRL_enable 0 0) true
/-- An offer of the block of participant 1 at its first hop, and a state that holds its pass and its blocks. -/
def woffer : Offer := { passId := 1, origin := 0, hop := 1, descAddr := 0x200000, srcAddr := 0xC00000040000, client := 0 }
def wsRing : State := wdev (wput (wsT 1 [wd32, wq32, wpassc] {}) wpmem)
/-- Die 0 READY with its gate open: running one command, and drained. -/
def wsUp : State := (wsRun 5 0 0).setFld (Fld.CDG_STATUS_logic_state 0) logicReady
def wsDrained : State := dieDrain 0 { wsUp with runs := [] }
/-- Die 0 before its start-up self-test and after it. -/
def wsTested : State := (State.reset.startEngines 0).dieMap 0 0xFFFFFFFF#32
def wsReady : State := (wsTested.setFld (Fld.CDG_STATUS_logic_state 0) logicReady).setFlag (Fld.CPC_STATUS_logic_powered 0) true
def wsSelftest : State := State.reset.setFld (Fld.CDG_STATUS_logic_state 0) logicSelftest
/-- Die 0 when its island has failed, and taken out. -/
def wsIsland : State :=
  ((wsUp.modDie 0 fun x => { x with islandFailed := true, island := false }).logEvent 2 3 (unitOf hubDie (0x080 + 0)) 0).setFlag
    (Fld.CDG_STATUS_island_up 0) false
def wsIslandOff : State := forEach [0x080, 0x081, 0x082] (wsIsland.takeOutDie 0 6 true) fun e t => t.linkDown (unitOf 0 e)
/-- Die 0 idle for a long time while a frame waits. -/
def wsIdleDie : State :=
  { State.reset with tb := 1000000000, power := { State.reset.power with phase := .run }
                     cams := { State.reset.cams with lanes := [(0, 0, ({} : CamFrame))] } }
/-- Page 5 granted to client 5 and reserved, its zeroing time over. -/
def wsReserve : State :=
  { State.reset.modPage 5 (fun _ => { state := .granted, owner := 5 }) with reserves := [(5, ⟨5, 0⟩)], tb := 1000000000 }
def wmove (p : MovePhase) : Move := { oldGroup := 0, oldFrame := 0, newGroup := 1, newFrame := 0, pass := 1, dirty := [], todo := [], phase := p, since := 0, waiting := [], held := [], evac := false }
/-- A return from DEEP whose memory is being rebuilt, and a timebase at its handback. -/
def wsRebuilding : State := { wsPower.setFlag Fld.PWR_STATUS_mem_ready false with power := { wsPower.power with left := 3 } }
def wsHandback : State :=
  { State.reset.setFlag Fld.CLK_TB_STATUS_rtc_mode true with power := { State.reset.power with oscReady := true, edgeSinceOsc := true } }
/-- An image that passes its checks, and a boot of slot 0 that has run for long. -/
def wimg : Image := ⟨leBytes 0x57465856 4 ++ leBytes 1 4 ++ leBytes 1 1 ++ leBytes 0 503, true, true⟩
def wsBooting : State :=
  { State.reset with tb := 10000000, keys := { State.reset.keys with preferred := some 0, running := some wimg } }
/-- Ring port 0 enabled in a ring of two packages: as such, trained, secure, and with a frame in its retry buffer. -/
def wsPorts : State := (wsPower.setFld Fld.HXR_PKG_ring_size 2).setFlag (Fld.HXR_CTRL_enable 0) true
def wsTrained : State := wsPorts.modRingPort 0 fun x => { x with trained := true }
def wkeymsg : KeyMsg := ⟨true, true, 0, 1, 2⟩
def wsSecure : State := wsTrained.installKeys 0
def wsNaked : State := wsSecure.modRingPort 0 fun x => { x with retry := [⟨0, 0, 3, [], []⟩] }
/-- A trace packet of the hub. -/
def wpacket : TracePacket := ⟨1, 0x8060, 0xFFF, 0, []⟩
/-- Indicator channel 1 lit and past its short test. -/
def wsLit : State := (State.reset.setFlag (Fld.IND_CH_on 1) true).modInd 1 fun k => { k with lit := true }
/-- Camera port 1 on; channel 3 on; its frame on lane 1, and that lane free again. -/
def wsPort : State := wsPower.setFlag (Fld.CAM_PORT_CTRL_enable 1) true
def wsChan : State := wsPower.setFlag (Fld.CAM_CH_CTRL_enable 3) true
def wsLane : State := { wsChan with cams := { wsChan.cams with lanes := [(1, 3, {})] } }
def wsLaneDone : State := { wsLane with cams := { wsLane.cams with lanes := mapDel wsLane.cams.lanes 1 } }
/-- Tinder at a hop of 480 samples, and a Tinder image being loaded. -/
def wsHop : State :=
  { ((wsPower.setFlag Fld.AUD_CTRL_enable true).setFlag Fld.WAK_CTRL_tinder_enable true).modWake (fun w => { w with tinder := some [] }) with
    audio := { State.reset.audio with index := 480 } }
def wsLoading : State := State.reset.modWake fun w => { w with loading := some 1 }
/-- The pass descriptor that `wpass` spells, a block header of zeros and the 256 bytes that carry it, and the ring state with that
block's landing granted. -/
def wpassd : PassDesc :=
  { passId := 1, parts := 2, position := 0, slots := 2, relayDie := 0, blockBytes := 1024, fmt := 0x1400, waitUs := limitOf 0
    landBase := 0x210000, homeTable := 0xC00000030000, nextPkg := 0, nextAddr := 0, tokenBase := 0 }
/-- The operands of the ATTEND_RING of `wsRing`, and its home blocks. -/
def wattX : Att :=
  { f := parseFmt 0x1400, d := wd32, q := wq32, up := none, init := none, causal := false, partial_ := false, dv := 32 }
def whomes (second : HomeState) : List HomeState := [.ready 0xC00000040000 (parseBlk (whome 0)), second]
def wblkb : List Byte := List.replicate 256 0
def wblkh : BlkHdr := parseBlk wblkb
def wsGranted : State :=
  (wput (wsT 1 [wd32, wq32, wpassc] {}) [(0x4000, wpass)]).modRelay 0 fun r => { r with blocks := [⟨0xC00000004000, 1, 1, 0, 1, true, false⟩] }
/-- Die 0 logged off. -/
def wsLoggedOff : State := State.reset.modDie 0 fun x => { x with loggedOff := true }
/-- A playback ring of client 0 in host memory with one frame produced; and Kindling running its confirmation. -/
def wsPlay : State :=
  (((((wsPower.setFlag Fld.AUD_TDM_CTRL_tdm_enable true).setFld Fld.AUD_TDM_CTRL_play_count 1).setFld Fld.AUD_PLAY_BASE_play_base 0xC00000001000).setFld
    Fld.AUD_PLAY_PRODUCED_produced_addr 0xC00000000000).store (hostKey 0 0xC00000000000) (leBytes 1 8)).store (hostKey 0 0xC00000001000) (leBytes 7 256)
def wsKindling : State := (wsPower.setFld Fld.WAK_STATE_stage 1).modWake fun w => { w with running := true }
/-- Kindling with an image loaded and a sample there, and an image whose first program is a single END. -/
def wsConfirm : State := { wsKindling.modWake (fun w => { w with kindling := some [] }) with audio := { wsKindling.audio with index := 1 } }
def wsImage : List Byte :=
  List.replicate 16 0 ++ leBytes 32 4 ++ leBytes 1 4 ++ List.replicate 8 0 ++ leBytes 1 1 ++ List.replicate 15 0

/-! ### Hypotheses that are met -/

theorem wit_IdleStepIsOneTick : { State.reset with power := { State.reset.power with phase := .off } }.pending = [] ∧
    { State.reset with power := { State.reset.power with phase := .off } }.clockRuns = false := ⟨rfl, rfl⟩
theorem wit_IdleStepIsOneTick_2 : wsPower.pending = [] ∧ wsPower.clockRuns = true ∧ wsPower.pageCmd = none := ⟨rfl, by decide, rfl⟩

theorem wit_MemoryStaysCanonical : memoryWf State.reset.mem = true ∧ step State.reset = .next (tick State.reset) := ⟨rfl, rfl⟩

theorem wit_RefusedHostAccesses_1 : ∃ (off size : Nat) (write : Bool) (s : State), misaligned off size = true :=
  ⟨2, 4, true, State.reset, by decide +kernel⟩

theorem wit_RefusedHostAccesses_2 : ∃ (off size : Nat) (write : Bool) (s : State), misaligned off size = false ∧ s.meetsReg off size = false :=
  ⟨0x60004, 4, true, State.reset, by decide +kernel⟩

theorem wit_LatchedReads_1 : ∃ (off : Nat) (d : RegDef) (s : State), s.regHere off = some (d, off) ∧ off % 4 = 0 ∧ hasLatch d off = true ∧ s.logicDead off = false :=
  ⟨Reg.CLK_TB, Reg.def_CLK_TB, State.reset, by decide +kernel⟩

theorem wit_LatchedReads_2 : ∃ (off : Nat) (d : RegDef) (s : State), s.regHere off = some (d, off) ∧ off % 8 = 0 ∧ d.words = 2 :=
  ⟨Reg.CLK_TB, Reg.def_CLK_TB, State.reset, by decide +kernel⟩

theorem wit_LatchedReads_3 : ∃ (off : Nat) (d : RegDef) (s : State) (w : BitVec 32), s.regHere (off + 4) = some (d, off) ∧ s.logicDead off = false ∧ s.counterRead off = none ∧ mapFind s.latch (s.keyOf off) = some w :=
  ⟨Reg.CLK_TB, Reg.def_CLK_TB, { State.reset with latch := [(State.reset.keyOf Reg.CLK_TB, 7)] }, 7, by decide +kernel⟩

theorem wit_LatchedReads_4 : ∃ (off : Nat) (d : RegDef) (s : State), s.regHere (off + 4) = some (d, off) ∧ s.logicDead off = false ∧ s.counterRead off = none ∧ mapFind s.latch (s.keyOf off) = none :=
  ⟨Reg.CLK_TB, Reg.def_CLK_TB, State.reset, by decide +kernel⟩

theorem wit_RegisterWrites_1 : ∃ (off : Nat) (wide : Bool) (v : W64) (s : State), (misaligned off (if wide then 8 else 4) = true) :=
  ⟨2, false, 0, State.reset, by decide +kernel⟩

theorem wit_RegisterWrites_2 : ∃ (off : Nat) (v : W64) (s : State), s.regHere off = none :=
  ⟨0x60004, 0, State.reset, by decide +kernel⟩

theorem wit_RegisterWrites_4 : ∃ (off : Nat) (d : RegDef) (v : W64) (s t : State), off % 4 = 0 ∧ s.regHere off = some (d, off) ∧ d.words = 1 ∧ off ≠ Reg.AUD_CTRL ∧ s.logicDead off = false ∧ s.ownRow off (v.toNat % 2 ^ 32) = false ∧ s.discarded off (v.toNat % 2 ^ 32) = none ∧ s.expertGuard off = none ∧ t = State.afterWrite s (s.setReg (s.keyOf off) (writeFields (s.reg (s.keyOf off)) (s.heldBits off (s.reg (s.keyOf off)) (s.storedValue off (v.toNat % 2 ^ 32))) (v.toNat % 2 ^ 32) d.fields)) off (s.reg (s.keyOf off)) (writeFields (s.reg (s.keyOf off)) (s.heldBits off (s.reg (s.keyOf off)) (s.storedValue off (v.toNat % 2 ^ 32))) (v.toNat % 2 ^ 32) d.fields) (v.toNat % 2 ^ 32) :=
  ⟨Reg.SCH_CLIENT_SEL, Reg.def_SCH_CLIENT_SEL, 5, State.reset, _, ⟨by decide, by rfl, by decide, by decide, by decide, by decide, by decide, by decide, rfl⟩⟩

theorem wit_Bar4Window_2 : ∃ (a : Nat) (s : State), s.deviceEnd ≤ a :=
  ⟨State.reset.deviceEnd, State.reset, by decide +kernel⟩

theorem wit_Bar4Window_3 : ∃ (off len : Nat) (s : State), (∀ g, (s.dmc g).errs = []) ∧ (∀ d, (s.hearth d).errs = []) :=
  ⟨0, 8, State.reset, ⟨fun _ => rfl, fun _ => rfl⟩⟩

theorem wit_Bar4Window_4 : ∃ (off : Nat) (data : List Byte) (s : State), (∀ k, k < data.length → s.deviceEnd ≤ s.fld Fld.HST_BAR4_BASE_bar4_base + off + k ∨ (s.page ((s.fld Fld.HST_BAR4_BASE_bar4_base + off + k) / 0x200000)).state ≠ .backed) :=
  ⟨0, [1], State.reset, fun _ _ => .inr (by show PageState.free ≠ PageState.backed; decide)⟩

theorem wit_Bar4Window_5 : ∃ (off : Nat) (data : List Byte) (s : State) (a : Nat), a = s.fld Fld.HST_BAR4_BASE_bar4_base + off ∧ 0 < data.length ∧ a % 64 + data.length ≤ 64 ∧ a < s.deviceEnd ∧ (s.page (a / 0x200000)).state = .backed :=
  ⟨0, [1], State.reset.modPage 0 (fun p => { p with state := .backed }), 0, by decide +kernel⟩

theorem wit_Bar4Window_6 : ∃ (g cw : Nat) (data : List Byte) (s : State), data.length = 16 ∧ mergeOf (cw / 4) (s.dmc g).merge = none :=
  ⟨0, 0, List.replicate 16 1, State.reset, by decide +kernel⟩

theorem wit_LinksTrainAndFail_1 : ∃ (link modules lanes v : Nat) (s : State), s.peerEnd link = some v ∧ s.endUp link = false ∧ (s.unit link).outSince = none ∧ (s.unit v).outSince = none ∧ modules % 4 ≠ 0 :=
  ⟨0x080, 3, 0, 0x8080, State.reset, by decide +kernel⟩

theorem wit_LinksTrainAndFail_2 : ∃ (link modules lanes v : Nat) (s : State), s.peerEnd link = some v ∧ s.endUp link = true :=
  ⟨0x080, 3, 0, 0x8080, wsLink, by decide +kernel⟩

theorem wit_LinksTrainAndFail_3 : ∃ (link module left v : Nat) (s : State), s.peerEnd link = some v ∧ s.endUp link = true ∧ bit (s.fld (Fld.HXL_STATUS_modules_up (linkBlk link))) (module % 2) = true ∧ setBit (s.fld (Fld.HXL_STATUS_modules_up (linkBlk link))) (module % 2) false = left ∧ left ≠ 0 :=
  ⟨0x080, 0, 2, 0x8080, wsLink, by decide +kernel⟩

theorem wit_LinksTrainAndFail_4 : ∃ (link module v : Nat) (s : State), s.peerEnd link = some v ∧ s.endUp link = true ∧ bit (s.fld (Fld.HXL_STATUS_modules_up (linkBlk link))) (module % 2) = true ∧ setBit (s.fld (Fld.HXL_STATUS_modules_up (linkBlk link))) (module % 2) false = 0 :=
  ⟨0x080, 0, 0x8080, linkTrained 0x080 1 0 State.reset, by decide +kernel⟩

theorem wit_LinksTrainAndFail_5 : ∃ (link v : Nat) (s : State), s.peerEnd link = some v ∧ s.endUp link = true ∧ (s.endLost link).endUp v = true :=
  ⟨0x080, 0x8080, wsLink, by decide +kernel⟩

theorem wit_FlitsAndReplay_1 : ∃ (link module v : Nat) (flit : List Byte) (s : State), s.peerEnd link = some v ∧ s.endUp link = true ∧ bit (s.fld (Fld.HXL_STATUS_modules_up (linkBlk link))) (module % 2) = true ∧ (flit.length ≠ 256 ∨ (crc32c (flit.take 252)).toNat ≠ atOff flit 252 4) :=
  ⟨0x080, 0, 0x8080, [], wsLink, by decide +kernel⟩

theorem wit_FlitsAndReplay_2 : ∃ (link module v : Nat) (flit : List Byte) (ms : List Msg) (x : LinkModule) (s : State), s.peerEnd link = some v ∧ s.endUp link = true ∧ bit (s.fld (Fld.HXL_STATUS_modules_up (linkBlk link))) (module % 2) = true ∧ flit.length = 256 ∧ (crc32c (flit.take 252)).toNat = atOff flit 252 4 ∧ bit (atOff flit 2 2) 12 = false ∧ (s.link link).module (module % 2) = x ∧ (((s.ackModule link (module % 2) (atOff flit 2 2 % 4096)).drainOutbox link).endUp link) = true ∧ atOff flit 248 1 % 64 ≠ 0 ∧ atOff flit 0 2 % 4096 = (x.rxSeq + 1) % 4096 ∧ flitMsgs flit = some ms :=
  ⟨0x080, 0, 0x8080, msgFlit ⟨⟨0x42, 1, 0, 0, 0x8050, 0, 0, 8, false, false⟩, []⟩ 0 0xFFF [0, 0, 0, 0], [⟨⟨0x42, 1, 0, 0, 0x8050, 0, 0, 8, false, false⟩, []⟩], (wsLink.link 0x080).module 0, wsLink, by set_option maxRecDepth 100000 in decide +kernel⟩

theorem wit_FlitsAndReplay_3 : ∃ (link module v : Nat) (flit : List Byte) (s : State), s.peerEnd link = some v ∧ s.endUp link = true ∧ bit (s.fld (Fld.HXL_STATUS_modules_up (linkBlk link))) (module % 2) = true ∧ flit.length = 256 ∧ (crc32c (flit.take 252)).toNat = atOff flit 252 4 ∧ bit (atOff flit 2 2) 12 = false ∧ (((s.ackModule link (module % 2) (atOff flit 2 2 % 4096)).drainOutbox link).endUp link) = true ∧ atOff flit 248 1 % 64 = 0 :=
  ⟨0x080, 0, 0x8080, (leBytes 0 252 ++ leBytes (crc32c (leBytes 0 252)).toNat 4), wsLink, by set_option maxRecDepth 100000 in decide +kernel⟩

theorem wit_FlitsAndReplay_5 : ∃ (link module ackSeq v : Nat) (x : LinkModule) (s : State), s.peerEnd link = some v ∧ s.endUp link = true ∧ bit (s.fld (Fld.HXL_STATUS_modules_up (linkBlk link))) (module % 2) = true ∧ ((s.ackModule link (module % 2) (ackSeq % 4096)).link link).module (module % 2) = x ∧ x.retry ≠ [] ∧ x.replays < 7 :=
  ⟨0x080, 0, 5, 0x8080, (((wsLink.modLink 0x080 fun l => { l with m0 := { l.m0 with retry := [⟨0, [], 0⟩] } }).link 0x080).module 0), wsLink.modLink 0x080 fun l => { l with m0 := { l.m0 with retry := [⟨0, [], 0⟩] } }, by decide +kernel⟩

theorem wit_FlitsAndReplay_6 : ∃ (link module ackSeq v : Nat) (x : LinkModule) (s : State), s.peerEnd link = some v ∧ s.endUp link = true ∧ bit (s.fld (Fld.HXL_STATUS_modules_up (linkBlk link))) (module % 2) = true ∧ ((s.ackModule link (module % 2) (ackSeq % 4096)).link link).module (module % 2) = x ∧ x.retry ≠ [] ∧ 7 ≤ x.replays :=
  ⟨0x080, 0, 5, 0x8080, (((wsLink.modLink 0x080 fun l => { l with m0 := { l.m0 with replays := 7, retry := [⟨0, [], 0⟩] } }).link 0x080).module 0), wsLink.modLink 0x080 fun l => { l with m0 := { l.m0 with replays := 7, retry := [⟨0, [], 0⟩] } }, by decide +kernel⟩

theorem wit_FlitsAndReplay_7 : ∃ (link module v : Nat) (f : Flit) (fs : List Flit) (s : State), s.peerEnd link = some v ∧ bit (s.fld (Fld.HXL_STATUS_modules_up (linkBlk link))) (module % 2) = true ∧ ((s.link link).module (module % 2)).retry = f :: fs ∧ s.passedUs (max f.sentAt ((s.link link).module (module % 2)).lastAck) 2 = true :=
  ⟨0x080, 0, 0x8080, ⟨0, [], 0⟩, [], { wsLink.modLink 0x080 (fun l => { l with m0 := { l.m0 with retry := [⟨0, [], 0⟩] } }) with tb := 1000 }, by decide +kernel⟩

theorem wit_RequestsAndResponses_1 : ∃ (m : Msg) (errs : List (Nat × List W16)) (s : State), m.hdr.opcode = 0x01 ∧ m.hdr.dst = 0x8050 ∧ hostBase ≤ m.hdr.addr ∧ m.hdr.addr < addrEnd ∧ s.env.refused = [] ∧ s.env.poisoned = [] :=
  ⟨⟨⟨0x01, 0, 0, 0x8050, 0, 0xC00000000000, 0, 8, false, false⟩, []⟩, [], State.reset, by decide +kernel⟩

theorem wit_RequestsAndResponses_2 : ∃ (m : Msg) (errs : List (Nat × List W16)) (s : State), m.hdr.opcode = 0x02 ∧ m.hdr.dst = 0x8050 ∧ hostBase ≤ m.hdr.addr ∧ m.hdr.addr < addrEnd ∧ m.hdr.clinker = false ∧ s.env.refused = [] :=
  ⟨⟨⟨0x02, 0, 0, 0x8050, 0, 0xC00000000000, 0, 8, false, false⟩, [1, 2, 3, 4, 5, 6, 7, 8]⟩, [], State.reset, by decide +kernel⟩

theorem wit_RequestsAndResponses_3 : ∃ (m : Msg) (errs : List (Nat × List W16)) (d g : Nat) (s : State), m.hdr.dst = unitOf d (0x070 + g % 2) ∧ (g = if d = hubDie then g % 2 else 2 + 2 * d + g % 2) ∧ (d ≠ hubDie → s.fitted d = true) ∧ s.groupUp g = true ∧ m.hdr.epoch = s.epoch m.hdr.dst ∧ s.epochPending m.hdr.dst = false :=
  ⟨⟨⟨0x01, 0, 0, 0x8070, 0, 0, 0, 8, false, false⟩, []⟩, [], 8, 0, State.reset, by decide +kernel⟩

theorem wit_RequestsAndResponses_4 : ∃ (m : Msg) (errs : List (Nat × List W16)) (d : Nat) (s : State), m.hdr.dst / 4096 = d ∧ d ≠ hubDie ∧ m.hdr.opcode = 0x01 ∧ s.fitted d = false :=
  ⟨⟨⟨0x01, 0, 0, 0x5050, 0, 0, 0, 8, false, false⟩, []⟩, [], 5, State.reset, by decide +kernel⟩

theorem wit_RequestsAndResponses_5 : ∃ (m : Msg) (errs : List (Nat × List W16)) (d : Nat) (s : State), m.hdr.dst / 4096 = d ∧ d ≠ hubDie ∧ m.hdr.opcode = 0x01 ∧ s.fitted d = true ∧ (s.dieSt d).gate = false ∧ (m.hdr.dst % 4096 = 0x050 ∨ dieEngines.contains (m.hdr.dst % 4096) = true) :=
  ⟨⟨⟨0x01, 0, 0, 0x050, 0, 0, 0, 8, false, false⟩, []⟩, [], 0, State.reset, by decide +kernel⟩

theorem wit_RequestsAndResponses_6 : ∃ (m : Msg) (w : Waiting) (s : State), s.waitingFor m = some w ∧ w.left = 0 ∧ (m.hdr.clinker = false ∨ m.hdr.len ≤ 16 ∨ privilegedUnit m.hdr.dst = false) ∧ portOfUnit m.hdr.dst = none :=
  ⟨⟨⟨0x41, 0, 0, 0x8050, 0, 0, 0, 8, false, false⟩, []⟩, ⟨0x8050, 0, ⟨⟨0x41, 0, 0, 0, 0, 0, 0, 8, false, false⟩, []⟩, 0, [], 0, [], false⟩, { State.reset with waiting := [⟨0x8050, 0, ⟨⟨0x41, 0, 0, 0, 0, 0, 0, 8, false, false⟩, []⟩, 0, [], 0, [], false⟩] }, by decide +kernel⟩

theorem wit_RequestsAndResponses_7 : ∃ (m : Msg) (w : Waiting) (s : State), s.waitingFor m = some w ∧ w.left = 0 ∧ m.hdr.clinker = true ∧ 16 < m.hdr.len ∧ privilegedUnit m.hdr.dst = true :=
  ⟨⟨⟨0x41, 0, 0, 0x8050, 0, 0, 0, 64, true, false⟩, []⟩, ⟨0x8050, 0, ⟨⟨0x01, 0, 0, 0x8050, 0x8070, 0, 0, 64, false, false⟩, []⟩, 0, [], 0, [], false⟩, { State.reset with waiting := [⟨0x8050, 0, ⟨⟨0x01, 0, 0, 0x8050, 0x8070, 0, 0, 64, false, false⟩, []⟩, 0, [], 0, [], false⟩] }, by decide +kernel⟩

theorem wit_RequestsAndResponses_8 : ∃ (m : Msg) (s : State), m.hdr.dst ≠ 0x8030 ∧ portOfUnit m.hdr.dst = none :=
  ⟨⟨⟨0x42, 0, 0, 0, 0, 0, 0, 8, false, false⟩, []⟩, { State.reset with waiting := [⟨0, 0, ⟨⟨0x01, 0, 0, 0x8050, 0, 0, 0, 8, false, false⟩, []⟩, 0, [], 0, [], false⟩] }, by decide +kernel⟩

theorem wit_RequestsAndResponses_9 : ∃ (m : Msg) (w : Waiting) (s : State), m.hdr.dst ≠ 0x8030 ∧ s.waitingFor m = some w ∧ m.hdr.src = w.msg.hdr.dst ∧ (m.hdr.src % 4096 < 0x080 ∨ 0x086 < m.hdr.src % 4096) ∧ (w.msg.hdr.dst / 4096 = hubDie ∨ s.logicUp (w.msg.hdr.dst / 4096) = true) :=
  ⟨⟨⟨0x43, 0, 9, 0, 0x8050, 0, 0, 8, false, false⟩, []⟩, ⟨0, 0, ⟨⟨0x01, 0, 0, 0x8050, 0, 0, 0, 8, false, false⟩, []⟩, 0, [], 0, [], false⟩, { State.reset with waiting := [⟨0, 0, ⟨⟨0x01, 0, 0, 0x8050, 0, 0, 0, 8, false, false⟩, []⟩, 0, [], 0, [], false⟩] }, by decide +kernel⟩

theorem wit_RequestsAndResponses_10 : ∃ (m : Msg) (w : Waiting) (r : Run) (s : State), s.waitingFor m = some w ∧ portOfUnit w.src = none ∧ (s.answered m).runOn? (w.src / 4096) (w.src % 4096) = some r :=
  ⟨⟨⟨0x44, 0, 0, 0, 0x8050, 0, 0, 8, false, false⟩, []⟩, ⟨0, 0, ⟨⟨0x01, 0, 0, 0x8050, 0, 0, 0, 8, false, false⟩, []⟩, 0, [], 0, [], false⟩, wrun 0 0 0, { wsRun 0 0 0 with waiting := [⟨0, 0, ⟨⟨0x01, 0, 0, 0x8050, 0, 0, 0, 8, false, false⟩, []⟩, 0, [], 0, [], false⟩] }, by decide +kernel⟩

theorem wit_RequestsAndResponses_11 : ∃ (src tag u x : Nat) (w : Waiting) (s : State), ((s.waiting.find? fun w => decide (w.src = src) && decide (w.tag = tag)) = some w) ∧ u ∈ w.via ∧ (s.link u).downAt = some x ∧ w.since ≤ x ∧ s.passedUs x 5 = true :=
  ⟨0, 0, 0x080, 0, ⟨0, 0, ⟨⟨0x01, 0, 0, 0x8050, 0, 0, 0, 8, false, false⟩, []⟩, 0, [0x080], 0, [], false⟩, { State.reset with waiting := [⟨0, 0, ⟨⟨0x01, 0, 0, 0x8050, 0, 0, 0, 8, false, false⟩, []⟩, 0, [0x080], 0, [], false⟩], links := [(0x080, { downAt := some 0 })], tb := 1000 }, by decide +kernel⟩

theorem wit_RequestsAndResponses_12 : ∃ (e : Eng) (r : Run) (g : EngRun) (s : State), s.engOf e = some (r, g) ∧ r.tallySent = false :=
  ⟨weng, wrun 0 0 0, {}, wsRun 0 0 0, by decide +kernel⟩

theorem wit_DoorbellRejections_1 : ∃ (function client : Nat) (word : W32) (s : State), s.doorbellOpen function client = true ∧ s.attached client = true ∧ (s.ringOf client (bits word.toNat 0 20) = false ∨ bits word.toNat 20 12 ≠ 0) :=
  ⟨1, 5, 2, wsClient, by decide +kernel⟩

theorem wit_DoorbellRejections_2 : ∃ (function client : Nat) (word : W32) (s : State), s.doorbellOpen function client = true ∧ s.attached client = true ∧ (s.ringOf client (bits word.toNat 0 20) = false ∨ bits word.toNat 24 8 ≠ 0) :=
  ⟨0, 5, 0x01000010, wsClient, by decide +kernel⟩

theorem wit_DoorbellsAreServed_1 : ∃ (function client : Nat) (word : W32) (r : Nat) (s : State), s.doorbellOpen function client = true ∧ s.attached client = true ∧ bits word.toNat 0 20 = r ∧ s.ringOf client r = true ∧ bits word.toNat 20 12 = 0 ∧ s.serving = true ∧ (s.ring r).accepts = true :=
  ⟨1, 5, 16, 16, wsStep .waiting, by decide +kernel⟩

theorem wit_DoorbellsAreServed_2 : ∃ (r : Nat) (s : State), (s.ring r).accepts = true ∧ s.rings.length < 2048 :=
  ⟨16, wsStep .waiting, by decide +kernel⟩

theorem wit_DoorbellsAreServed_3 : ∃ (function client : Nat) (word : W32) (r : Nat) (b : List Byte) (s : State), s.doorbellOpen function client = true ∧ s.attached client = true ∧ bits word.toNat 0 20 = r ∧ s.ringOf client r = true ∧ bits word.toNat 20 4 = 1 ∧ bits word.toNat 24 8 = 0 ∧ s.isWakeRing client r = false ∧ s.rebuilding = false ∧ (s.ring r).accepts = false ∧ (s.ring r).state ≠ .stopping ∧ s.cread client (s.fld (Fld.SCH_CLIENT_RCT_rct_base client) + (r - s.firstRing client) * 64) 64 = .ok b ∧ s.contextOk b = true :=
  ⟨1, 5, 0x100010, 16, wctx, wsCtx, by refine ⟨?_, ?_, ?_, ?_, ?_, ?_, ?_, ?_, ?_, ?_, okOf ?_, ?_⟩ <;> decide +kernel⟩

theorem wit_DoorbellsAreServed_4 : ∃ (function client : Nat) (word : W32) (r : Nat) (b : List Byte) (s : State), s.doorbellOpen function client = true ∧ s.attached client = true ∧ bits word.toNat 0 20 = r ∧ s.ringOf client r = true ∧ bits word.toNat 20 4 = 1 ∧ bits word.toNat 24 8 = 0 ∧ s.isWakeRing client r = false ∧ s.rebuilding = false ∧ (s.ring r).accepts = false ∧ (s.ring r).state ≠ .stopping ∧ s.cread client (s.fld (Fld.SCH_CLIENT_RCT_rct_base client) + (r - s.firstRing client) * 64) 64 = .ok b ∧ s.contextOk b = false :=
  ⟨1, 5, 0x100010, 16, List.replicate 64 0, (wsClient).setFld (Fld.SCH_CLIENT_RCT_rct_base 5) 0xC00000000000, by refine ⟨?_, ?_, ?_, ?_, ?_, ?_, ?_, ?_, ?_, ?_, okOf ?_, ?_⟩ <;> decide +kernel⟩

theorem wit_DoorbellsAreServed_5 : ∃ (function client : Nat) (word : W32) (r d : Nat) (s : State), s.doorbellOpen function client = true ∧ s.attached client = true ∧ bits word.toNat 0 20 = r ∧ s.ringOf client r = true ∧ bits word.toNat 20 4 = 1 ∧ bits word.toNat 24 8 = 0 ∧ s.isWakeRing client r = false ∧ s.rebuilding = false ∧ (s.ring r).accepts = false ∧ (s.ring r).state ≠ .stopping ∧ s.cread client (s.fld (Fld.SCH_CLIENT_RCT_rct_base client) + (r - s.firstRing client) * 64) 64 = .error d :=
  ⟨1, 5, 0x100010, 16, 0x0D04, { wsClient.setFld (Fld.SCH_CLIENT_RCT_rct_base 5) 0xC00000000000 with env := { wsClient.env with refused := [(hostKey 5 0xC00000000000, 0x10000)] } }, by refine ⟨?_, ?_, ?_, ?_, ?_, ?_, ?_, ?_, ?_, ?_, errorOf ?_⟩ <;> decide +kernel⟩

theorem wit_DoorbellsAreServed_6 : ∃ (function client : Nat) (word : W32) (r : Nat) (s : State), s.doorbellOpen function client = true ∧ s.attached client = true ∧ bits word.toNat 0 20 = r ∧ s.ringOf client r = true ∧ bits word.toNat 20 4 = 1 ∧ bits word.toNat 24 8 = 0 ∧ s.rebuilding = false ∧ ((s.ring r).accepts = true ∨ (s.ring r).state = .stopping) :=
  ⟨1, 5, 0x100010, 16, wsStep .waiting, by decide +kernel⟩

theorem wit_DoorbellsAreServed_7 : ∃ (function client : Nat) (word : W32) (r : Nat) (s : State), s.doorbellOpen function client = true ∧ s.attached client = true ∧ bits word.toNat 0 20 = r ∧ s.ringOf client r = true ∧ bits word.toNat 20 4 = 2 ∧ bits word.toNat 24 8 = 0 ∧ (s.ring r).state ≠ .disabled ∧ (s.ring r).state ≠ .stopped :=
  ⟨1, 5, 0x200010, 16, wsStep .waiting, by decide +kernel⟩

theorem wit_DoorbellsAreServed_8 : ∃ (function client : Nat) (word : W32) (r : Nat) (s : State), s.doorbellOpen function client = true ∧ s.attached client = true ∧ bits word.toNat 0 20 = r ∧ s.ringOf client r = true ∧ bits word.toNat 20 4 = 2 ∧ bits word.toNat 24 8 = 0 ∧ (s.ring r).state = .stopped :=
  ⟨1, 5, 0x200010, 16, { wsClient with rings := [(16, { client := 5, state := .stopped })] }, by decide +kernel⟩

theorem wit_DoorbellsAreServed_9 : ∃ (function client : Nat) (word : W32) (r : Nat) (s : State), s.doorbellOpen function client = true ∧ s.attached client = true ∧ bits word.toNat 0 20 = r ∧ s.ringOf client r = true ∧ bits word.toNat 20 4 = 3 ∧ bits word.toNat 24 8 = 0 ∧ (s.ring r).accepts = true :=
  ⟨1, 5, 0x300010, 16, wsStep .waiting, by decide +kernel⟩

theorem wit_ClientsAttachAndDetach_1 : ∃ (function : Nat) (s : State), s.fld Fld.SAF_STATUS_state ≠ safFailed ∧ (s.setFld (Fld.SCH_CLIENT_CTRL_function s.selected) (function % 64)).attachError s.selected (function % 64) = 0 :=
  ⟨1, State.reset.setFlag Fld.SCH_LEDGER_CTRL_enable true, by decide +kernel⟩

theorem wit_ClientsAttachAndDetach_2 : ∃ (function : Nat) (s : State), s.fld Fld.SAF_STATUS_state ≠ safFailed ∧ (s.setFld (Fld.SCH_CLIENT_CTRL_function s.selected) (function % 64)).attachError s.selected (function % 64) ≠ 0 :=
  ⟨1, State.reset, by decide +kernel⟩

theorem wit_ClientsAttachAndDetach_3 : ∃ (s : State), s.attached s.selected = true ∧ s.detaching s.selected = false :=
  ⟨(State.reset.setFlag (Fld.SCH_CLIENT_CTRL_attached 0) true), by decide +kernel⟩

theorem wit_ClientsAttachAndDetach_4 : ∃ (s : State), s.attached s.selected = false :=
  ⟨State.reset, by decide +kernel⟩

theorem wit_RingSweeps_1 : ∃ (s : State), s.serving = true :=
  ⟨wsStep .waiting, by decide +kernel⟩

theorem wit_RingSweeps_2 : ∃ (r : Nat) (s : State), s.serving = true ∧ (((s.rings.filter fun x => decide (x.2.state = .quiet)).map (·.1)).find? (fun q => decide (s.sweepAt < q)) = some r) :=
  ⟨16, { wsPower with rings := [(16, { state := .quiet })] }, by decide +kernel⟩

theorem wit_RingSweeps_3 : ∃ (r : Nat) (s : State), s.serving = true ∧ (((s.rings.filter fun x => decide (x.2.state = .quiet)).map (·.1)).find? (fun q => decide (s.sweepAt < q)) = none) ∧ (((s.rings.filter fun x => decide (x.2.state = .quiet)).map (·.1)).head? = some r) :=
  ⟨16, { wsPower with rings := [(16, { state := .quiet })], sweepAt := 16 }, by decide +kernel⟩

theorem wit_RingSweeps_4 : ∃ (r : Nat) (s : State), (s.ring r).state = .active ∧ s.passedUs (s.ring r).lastUse 10000 = true :=
  ⟨16, { wsStep .waiting with tb := 10000000 }, by decide +kernel⟩

theorem wit_RingSweeps_5 : ∃ (r tail : Nat) (s s1 : State), (s.ring r).reading = true ∧ s.serving = true ∧ s.pageCmdResumed = false ∧ (s.ring r).accepts = true ∧ (s1 = (s.modRing r fun y => { y with reading := false }).fetchHub (s.ring r).dbAddr 8) ∧ s1.cread64 (s.ring r).client (s.ring r).dbAddr = .ok tail :=
  ⟨16, 0, { wsClient with rings := [(16, { client := 5, state := .active, reading := true, dbAddr := 0xC00000000000 })] }, ({ wsClient with rings := [(16, { client := 5, state := .active, reading := true, dbAddr := 0xC00000000000 })] }.modRing 16 fun y => { y with reading := false }).fetchHub 0xC00000000000 8, by refine ⟨?_, ?_, ?_, ?_, ?_, okOf ?_⟩ <;> decide +kernel⟩

theorem wit_RingSweeps_6 : ∃ (r d : Nat) (s s1 : State), (s.ring r).reading = true ∧ s.serving = true ∧ s.pageCmdResumed = false ∧ (s.ring r).accepts = true ∧ (s1 = (s.modRing r fun y => { y with reading := false }).fetchHub (s.ring r).dbAddr 8) ∧ s1.cread64 (s.ring r).client (s.ring r).dbAddr = .error d :=
  ⟨16, 0x0D03, { wsClient with rings := [(16, { client := 5, state := .active, reading := true, dbAddr := 0 })] }, ({ wsClient with rings := [(16, { client := 5, state := .active, reading := true, dbAddr := 0 })] }.modRing 16 fun y => { y with reading := false }).fetchHub 0 8, by refine ⟨?_, ?_, ?_, ?_, ?_, errorOf ?_⟩ <;> decide +kernel⟩

theorem wit_RingSweeps_9 : ∃ (c base gen : Nat) (s : State), base = s.fld (Fld.SCH_CLIENT_ACCT_acct_base c) ∧ gen = mapGet ((s.chargeWaits c).client c).acct 8 0 :=
  ⟨5, 0xC00000001000, 0, wsClient.setFld (Fld.SCH_CLIENT_ACCT_acct_base 5) 0xC00000001000, by decide +kernel⟩

theorem wit_StepsAreAcceptedAndReleased_1 : ∃ (r : Nat) (s s1 : State), s.serving = true ∧ (s.ring r).accepts = true ∧ (s.ring r).head < (s.ring r).tail ∧ (s.ring r).checked = none ∧ (s1 = forEach (s.stepReads r) s fun x t => t.fetchHub x.1 x.2) :=
  ⟨16, wsStep .waiting, forEach ((wsStep .waiting).stepReads 16) (wsStep .waiting) fun x t => t.fetchHub x.1 x.2, all4 (by decide +kernel) (rfl)⟩

theorem wit_StepsAreAcceptedAndReleased_2 : ∃ (r d : Nat) (s : State), s.feRead (s.ring r).client ((s.ring r).stepBase + (s.ring r).head % 2 ^ (s.ring r).log2 * 64) 64 = .error d :=
  ⟨16, 0x0D04, { wsClient with rings := [(16, { client := 5, state := .active, tail := 1, stepBase := 0xC00000000000 })], env := { wsClient.env with refused := [(hostKey 5 0xC00000000000, 0x10000)] } }, errorOf (by decide +kernel)⟩

theorem wit_StepsAreAcceptedAndReleased_3 : ∃ (r : Nat) (st : Step) (s : State), (s.ring r).checked = some st ∧ s.serving = true ∧ (s.ring r).accepts = true ∧ (s.ring r).head < (s.ring r).tail ∧ (s.ring r).head - (s.ring r).released < 256 ∧ s.steps.length < 8192 :=
  ⟨16, wstep .waiting, { wsClient with rings := [(16, { client := 5, state := .active, tail := 1, checked := some (wstep .waiting) })] }, by decide +kernel⟩

theorem wit_StepsAreAcceptedAndReleased_4 : ∃ (r : Nat) (st : Step) (s t : State), (t = ((((((({ s.chargeWaits st.client with steps := (s.chargeWaits st.client).steps ++ [{ st with acceptedAt := (s.chargeWaits st.client).tb }] } : State).breakResleep).modRing r fun y => { y with head := y.head + 1, checked := none, heldWindow := none, heldLedger := none }).wakeRing r).noteCommit r).writeHead r).packet 0x10 unitSched st.client (seqRing st.seq r ++ leBytes st.cmds.length 2))) :=
  ⟨16, wstep .waiting, wsStep .waiting, _, rfl⟩

theorem wit_StepsAreAcceptedAndReleased_5 : ∃ (r : Nat) (st : Step) (s : State), (s.ring r).checked = some st ∧ s.serving = true ∧ (s.ring r).accepts = true ∧ (s.ring r).head < (s.ring r).tail ∧ 256 ≤ (s.ring r).head - (s.ring r).released :=
  ⟨16, wstep .waiting, { wsClient with rings := [(16, { client := 5, state := .active, head := 256, tail := 257, checked := some (wstep .waiting) })] }, by decide +kernel⟩

theorem wit_StepsAreAcceptedAndReleased_6 : ∃ (r : Nat) (st : Step) (s : State), (s.ring r).checked = some st ∧ s.serving = true ∧ (s.ring r).accepts = true ∧ (s.ring r).head < (s.ring r).tail ∧ (s.ring r).head - (s.ring r).released < 256 ∧ 8192 ≤ s.steps.length :=
  ⟨16, wstep .waiting, { wsClient with rings := [(16, { client := 5, state := .active, tail := 1, checked := some (wstep .waiting) })], steps := List.replicate 8192 (wstep .waiting) }, by decide +kernel⟩

theorem wit_StepsAreAcceptedAndReleased_7 : ∃ (r seq : Nat) (st : Step) (s : State), s.step? r seq = some st ∧ st.committed = false ∧ st.dispatched = false ∧ s.serving = true :=
  ⟨16, 0, wstep .waiting, wsStep .waiting, by decide +kernel⟩

theorem wit_StepsAreAcceptedAndReleased_8 : ∃ (r code : Nat) (st : Step) (s t u : State), s.releasable r = some (st, code) ∧ s.serving = true ∧ (t = ((({ (s.devWrite (s.ring r).client ((s.ring r).cplBase + st.seq % 2 ^ (s.ring r).log2 * 32) (st.record code (s.usSince st.acceptedAt))) with steps := (s.devWrite (s.ring r).client ((s.ring r).cplBase + st.seq % 2 ^ (s.ring r).log2 * 32) (st.record code (s.usSince st.acceptedAt))).steps.filter fun y => !(decide (y.ring = r) && decide (y.seq = st.seq)) } : State).modRing r fun y => { y with released := st.seq + 1 }).noteCommit r).acctRelease (s.ring r).client code) ∧ u = (t.writeHead r).packet 0x15 unitSched (s.ring r).client (seqRing st.seq r ++ leBytes code 1 ++ leBytes st.cflags 1) :=
  ⟨16, 0, { wstep .tallied with status := some 0 }, { wsStep .waiting with steps := [{ wstep .tallied with status := some 0 }] }, _, _, all2 (by decide +kernel) ⟨rfl, rfl⟩⟩

theorem wit_StepsAreAcceptedAndReleased_9 : ∃ (s : State), s.serving = true :=
  ⟨wsStep .waiting, by decide +kernel⟩

theorem wit_DispatchAndBounce_1 : ∃ (die reason : Nat) (m : Dispatch) (s : State), s.bounceReason die m = some reason :=
  ⟨0, 3, wdisp 0, wsStep (.placed 0 7), by decide +kernel⟩

theorem wit_DispatchAndBounce_3 : ∃ (die at_ : Nat) (m : Dispatch) (st : Step) (c : Cmd) (s : State), s.step? m.ring m.seq = some st ∧ st.cmd? m.index = some c ∧ c.state = .placed die at_ ∧ s.bounceReason die m = none ∧ s.takeEngines die m st.client c = none :=
  ⟨0, 7, { wdisp 0 with width := 5 }, wstep (.placed 0 7), (wstep (.placed 0 7)).cmds.getD 0 {}, wsPlaced, by decide +kernel⟩

theorem wit_DispatchAndBounce_4 : ∃ (die at_ : Nat) (m : Dispatch) (st : Step) (c : Cmd) (ns : List Nat) (s : State), s.step? m.ring m.seq = some st ∧ st.cmd? m.index = some c ∧ c.state = .placed die at_ ∧ s.bounceReason die m = none ∧ s.takeEngines die m st.client c = some ns ∧ s.freeEntry die = none :=
  ⟨8, 7, { wdisp 0 with kind := 6 }, wstep (.placed 8 7), (wstep (.placed 8 7)).cmds.getD 0 {}, [0], { wsStep (.placed 8 7) with runs := (natRange 0 256).map fun k => { kind := 6, die := 8, entry := k, tallySent := true } }, by decide +kernel⟩

theorem wit_DispatchAndBounce_5 : ∃ (die at_ e : Nat) (m : Dispatch) (st : Step) (c : Cmd) (ns : List Nat) (s : State), s.step? m.ring m.seq = some st ∧ st.cmd? m.index = some c ∧ c.state = .placed die at_ ∧ s.bounceReason die m = none ∧ s.takeEngines die m st.client c = some ns ∧ s.freeEntry die = some e :=
  ⟨0, 7, 0, wdisp 0, wstep (.placed 0 7), (wstep (.placed 0 7)).cmds.getD 0 {}, [0], wsPlaced, by decide +kernel⟩

theorem wit_DispatchAndBounce_6 : ∃ (d e cl : Nat) (m : Dispatch) (c : Cmd) (ns : List Nat) (s : State), s.liveResidency cl c = none :=
  ⟨0, 0, 5, wdisp 0, (wstep (.placed 0 7)).cmds.getD 0 {}, [0], wsPlaced, by decide +kernel⟩

theorem wit_DispatchAndBounce_7 : ∃ (die : Nat) (m : Dispatch) (r : Run) (s : State), s.bounceReason die m = none ∧ s.runOf? m.ring m.seq m.index = some r ∧ r.die = die ∧ r.tallySent = false :=
  ⟨0, wdisp 1, wrunMov false, wsMov false, by decide +kernel⟩

theorem wit_DispatchAndBounce_9 : ∃ (die at_ : Nat) (m : Dispatch) (st : Step) (c : Cmd) (s : State), s.step? m.ring m.seq = some st ∧ st.cmd? m.index = some c ∧ c.state = .placed die at_ ∧ m.op = 0 ∧ st.status = none :=
  ⟨0, 7, wdisp 0, wstep (.placed 0 7), (wstep (.placed 0 7)).cmds.getD 0 {}, wsStep (.placed 0 7), by decide +kernel⟩

theorem wit_DispatchAndBounce_10 : ∃ (die : Nat) (m : Dispatch) (st : Step) (c : Cmd) (r : Run) (a s : State), s.step? m.ring m.seq = some st ∧ st.cmd? m.index = some c ∧ c.state = .running die ∧ a = (({ s with known := mapSet s.known (dieUnit die) (m.curEpoch % 65536) } : State).acct st.client acBounces 1) ∧ a.runOf? m.ring m.seq m.index = some r :=
  ⟨0, wdisp 2, wstep (.running 0), (wstep (.running 0)).cmds.getD 0 {}, wrunMov true, _, wsMov true, all3 (by decide +kernel) ⟨rfl, by decide +kernel⟩⟩

theorem wit_DispatchAndBounce_11 : ∃ (unit epoch : Nat) (s : State), s.runs.any (·.tallySent) = false :=
  ⟨0x40, 3, wsMov false, by decide +kernel⟩

theorem wit_DispatchAndBounce_12 : ∃ (unit : Nat) (s : State), 0 < (s.unit unit).deferred ∧ s.advancedLately unit = false :=
  ⟨0x8060, State.reset.modUnit 0x8060 fun x => { x with deferred := 1 }, by decide +kernel⟩

theorem wit_CommandsFinishAndTally_1 : ∃ (die entry energyNj : Nat) (r : Run) (s : State), s.run? die entry = some r ∧ r.finished = true :=
  ⟨0, 0, 5, wrunMov true, wsMov true, by decide +kernel⟩

theorem wit_CommandsFinishAndTally_2 : ∃ (m : TallyMsg) (s : State), s.saf.damped = false ∧ m.headerEpoch ≠ s.epoch unitTally :=
  ⟨{ wtally with headerEpoch := 3 }, State.reset, by decide +kernel⟩

theorem wit_CommandsFinishAndTally_3 : ∃ (m : TallyMsg) (s : State), s.saf.damped = false ∧ m.headerEpoch = s.epoch unitTally ∧ s.epochPending unitTally = false ∧ (64 ≤ s.journalUsed.length ∨ s.tallyQueue ≠ []) :=
  ⟨wtally, { State.reset with tallyQueue := [wtally] }, by decide +kernel⟩

theorem wit_CommandsFinishAndTally_4 : ∃ (m : TallyMsg) (s : State), s.saf.damped = false ∧ m.headerEpoch = s.epoch unitTally ∧ s.epochPending unitTally = false ∧ s.journalUsed.length < 64 ∧ s.tallyQueue = [] :=
  ⟨wtally, State.reset, by decide +kernel⟩

theorem wit_CommandsFinishAndTally_5 : ∃ (m : TallyMsg) (rest : List TallyMsg) (s : State), s.saf.damped = false ∧ s.tallyQueue = m :: rest ∧ s.journalUsed.length < 64 :=
  ⟨wtally, [], { State.reset with tallyQueue := [wtally] }, by decide +kernel⟩

theorem wit_CommandsFinishAndTally_6 : ∃ (m : TallyMsg) (s : State), s.step? m.ring m.seq = none :=
  ⟨wtally, State.reset, by decide +kernel⟩

theorem wit_CommandsFinishAndTally_7 : ∃ (m : TallyMsg) (st : Step) (c : Cmd) (s : State), s.step? m.ring m.seq = some st ∧ st.cmd? m.index = some c :=
  ⟨wtally, wstep (.running 0), (wstep (.running 0)).cmds.getD 0 {}, wsMov true, by decide +kernel⟩

theorem wit_CommandsFinishAndTally_8 : ∃ (m : TallyMsg) (st : Step) (c : Cmd) (d : Nat) (s : State), s.readPubs st c = .error d :=
  ⟨wtally, wstep (.running 0), { (wstep (.running 0)).cmds.getD 0 {} with pubCount := 1, pubList := 0xC00000000000 }, 0x0D04, { wsMov true with env := { wsClient.env with refused := [(hostKey 5 0xC00000000000, 0x10000)] } }, errorOf (by decide +kernel)⟩

theorem wit_CommandsFinishAndTally_9 : ∃ (die entry : Nat) (r : Run) (s : State), s.run? die entry = some r ∧ r.tallySent = false :=
  ⟨0, 0, wrunMov true, wsMov true, by decide +kernel⟩

theorem wit_PlacementAndPreemption_1 : ∃ (r : Ready) (a s : State), s.serving = true ∧ a = { s.adoptShares with oldPreempt := none } ∧ ((a.readyCmds.find? fun r => a.noEngine r.client r.cmd) = some r) :=
  ⟨⟨16, 0, 5, (wstep .waiting).cmds.getD 0 {}, 0⟩, _, (wsStep .waiting).setFld Fld.GLB_TOPO_dies_present 0, by decide +kernel, rfl, by decide +kernel⟩

theorem wit_PlacementAndPreemption_2 : ∃ (r : Ready) (d : Nat) (a s : State), s.serving = true ∧ a = { s.adoptShares with oldPreempt := none } ∧ ((a.readyCmds.find? fun r => a.noEngine r.client r.cmd) = none) ∧ a.nextPlacement = some (r, d) :=
  ⟨⟨16, 0, 5, (wstep .waiting).cmds.getD 0 {}, 0⟩, 0, _, wsReadyMov, ⟨by decide +kernel, rfl, by decide +kernel⟩⟩

theorem wit_PlacementAndPreemption_3 : ∃ (a s : State), s.serving = true ∧ a = { s.adoptShares with oldPreempt := none } ∧ ((a.readyCmds.find? fun r => a.noEngine r.client r.cmd) = none) ∧ a.nextPlacement = none :=
  ⟨_, wsPower, ⟨by decide +kernel, rfl, by decide +kernel⟩⟩

theorem wit_PlacementAndPreemption_5 : ∃ (x : Residency) (s : State), s.serving = true ∧ s.flag Fld.SCH_PREEMPT_enable = true ∧ s.readyCmds.findSome? s.parkedVictim = some x :=
  ⟨wparked, wsParked, by decide +kernel⟩

theorem wit_PlacementAndPreemption_6 : ∃ (vs : List Run) (s : State), s.serving = true ∧ s.flag Fld.SCH_PREEMPT_enable = true ∧ s.readyCmds.findSome? s.parkedVictim = none ∧ s.readyCmds.findSome? s.fairPlan = some vs :=
  ⟨[wrunOld], wsFair, by decide +kernel⟩

theorem wit_PlacementAndPreemption_7 : ∃ (vs : List Run) (s : State), s.serving = true ∧ s.noteRoom.readyCmds.findSome? s.noteRoom.safetyPlan = some vs :=
  ⟨[wrunOld], wsSafety, by decide +kernel⟩

theorem wit_PlacementAndPreemption_8 : ∃ (r x : Run) (s : State), s.run? r.die r.entry = some x ∧ x.killSent = false ∧ x.tallySent = false :=
  ⟨wrunOld, wrunOld, wsSafety, by decide +kernel⟩

theorem wit_PlacementAndPreemption_9 : ∃ (die modelledNj measuredNj : Nat) (s : State), s.fitted die = true :=
  ⟨0, 4000, 5000, State.reset, by decide +kernel⟩

theorem wit_SelfTestsAndExclusiveWindows_1 : ∃ (unit kind n : Nat) (x : Residency) (s : State), engineOf (unit / 4096) (unit % 4096) = some (kind, n) ∧ s.mayTest (unit / 4096) (unit % 4096) kind n = true ∧ s.parkedOn (unit / 4096) kind n = some x ∧ s.calledBack x = false :=
  ⟨0x00, 0, 0, { wparked with engines := [0] }, wsTestParked, by decide +kernel⟩

theorem wit_SelfTestsAndExclusiveWindows_2 : ∃ (unit kind n : Nat) (s : State), engineOf (unit / 4096) (unit % 4096) = some (kind, n) ∧ s.mayTest (unit / 4096) (unit % 4096) kind n = true ∧ s.parkedOn (unit / 4096) kind n = none ∧ s.engineFree (unit / 4096) kind n = true :=
  ⟨0x40, 5, 0, wsTest, by decide +kernel⟩

theorem wit_SelfTestsAndExclusiveWindows_3 : ∃ (unit kind n : Nat) (r : Run) (s : State), engineOf (unit / 4096) (unit % 4096) = some (kind, n) ∧ s.mayTest (unit / 4096) (unit % 4096) kind n = true ∧ s.latestStart unit ≤ s.tb ∧ s.runOn? (unit / 4096) (unit % 4096) = some r :=
  ⟨0x40, 5, 0, wrunMov false, { wsTest with runs := [wrunMov false] }, by decide +kernel⟩

theorem wit_SelfTestsAndExclusiveWindows_4 : ∃ (unit : Nat) (t0 : Nat) (s : State), (s.unit unit).testing = some t0 :=
  ⟨0x40, 0, State.reset.modUnit 0x40 fun x => { x with testing := some 0 }, by decide +kernel⟩

theorem wit_TileControl_1 : ∃ (e : Eng) (w : W128) (r : Run) (g : EngRun) (s : State), s.atWord e w 0x00 r g ∧ wzero w 1 15 = true :=
  ⟨weng, 0, wrun 5 0 0, { unit := 0x040 }, wcode 0 (wsRun 5 0 0), ⟨all4 (by decide +kernel) (okOf (by decide +kernel)), by decide +kernel⟩⟩

theorem wit_TileControl_2 : ∃ (e : Eng) (w : W128) (r : Run) (g : EngRun) (s : State), s.atWord e w 0x01 r g ∧ wzero w 1 15 = true ∧ r.cmd.resident = false :=
  ⟨weng, 1, wrun 5 0 0, { unit := 0x040 }, wcode 1 (wsRun 5 0 0), ⟨all4 (by decide +kernel) (okOf (by decide +kernel)), by decide +kernel⟩⟩

theorem wit_TileControl_3 : ∃ (e : Eng) (w : W128) (slot level : Nat) (r : Run) (g : EngRun) (s : State), s.atWord e w 0x07 r g ∧ bits (wbyte w 1) 0 3 = slot ∧ bits (wbyte w 1) 4 2 = level ∧ level ≠ 3 ∧ bit (wbyte w 1) 3 = false ∧ bits (wbyte w 1) 6 2 = 0 ∧ wzero w 3 7 = true :=
  ⟨weng, wword16 [7, 0x21, 0xE4, 0, 0, 0, 0, 0, 4, 0, 2, 0, 1, 0, 1, 0], 1, 2, wrun 5 0 0, { unit := 0x040 }, wcode (wword16 [7, 0x21, 0xE4, 0, 0, 0, 0, 0, 4, 0, 2, 0, 1, 0, 1, 0]) (wsRun 5 0 0), ⟨all4 (by decide +kernel) (okOf (by decide +kernel)), by decide +kernel⟩⟩

theorem wit_TileControl_4 : ∃ (e : Eng) (w : W128) (k n : Nat) (r : Run) (g : EngRun) (s : State), s.atWord e w 0x03 r g ∧ bits (wbyte w 1) 0 4 = k ∧ bits (wbyte w 1) 4 4 = 0 ∧ wword w 4 = n ∧ n ≠ 0 ∧ wzero w 6 15 = true :=
  ⟨weng, wword16 [3, 2, 0, 0, 1, 0], 2, 1, wrun 5 0 0, { unit := 0x040 }, wcode (wword16 [3, 2, 0, 0, 1, 0]) (wsRun 5 0 0), ⟨all4 (by decide +kernel) (okOf (by decide +kernel)), by decide +kernel⟩⟩

theorem wit_TileControl_5 : ∃ (e : Eng) (w : W128) (k n : Nat) (ps : List Nat) (r : Run) (g : EngRun) (s : State), s.atWord e w 0x04 r g ∧ bits (wbyte w 1) 0 4 = k ∧ bits (wbyte w 1) 6 2 = 0 ∧ wzero w 2 3 = true ∧ wword w 4 = n ∧ n ≠ 0 ∧ wzero w 6 15 = true ∧ (((signalTargets (bits (wbyte w 1) 4 2) e.pos r.engs.length).filter fun p => !(r.engs.getD p {}).ended) = ps) ∧ ((∀ p ∈ ps, mapGet (r.engs.getD p {}).counters k 0 + n ≤ 65535)) :=
  ⟨weng, wword16 [4, 2, 0, 0, 1, 0], 2, 1, [0], wrun 5 0 0, { unit := 0x040 }, wcode (wword16 [4, 2, 0, 0, 1, 0]) (wsRun 5 0 0), ⟨all4 (by decide +kernel) (okOf (by decide +kernel)), by decide +kernel⟩⟩

theorem wit_TileControl_6 : ∃ (e : Eng) (w : W128) (r : Run) (g : EngRun) (s : State), s.atWord e w 0x02 r g ∧ wzero w 1 1 = true ∧ wzero w 4 15 = true :=
  ⟨weng, 2, wrun 5 0 0, { unit := 0x040 }, wcode 2 (wsRun 5 0 0), ⟨all4 (by decide +kernel) (okOf (by decide +kernel)), by decide +kernel⟩⟩

theorem wit_TileControl_7 : ∃ (e : Eng) (r : Run) (g : EngRun) (t : State), t.engOf e = some (r, g) :=
  ⟨weng, wrun 5 0 0, { unit := 0x040 }, wsRun 5 0 0, by decide +kernel⟩

theorem wit_TileStops_1 : ∃ (e : Eng) (r : Run) (g : EngRun) (s : State), s.engOf e = some (r, g) ∧ r.tallySent = false ∧ g.ended = false ∧ r.cmd.programLen ≤ g.pc :=
  ⟨weng, { wrun 5 0 0 with cmd := {} }, { unit := 0x040 }, { wsRun 5 0 0 with runs := [{ wrun 5 0 0 with cmd := {} }] }, by decide +kernel⟩

theorem wit_TileStops_2 : ∃ (e : Eng) (w : W128) (r : Run) (g : EngRun) (s : State), s.engOf e = some (r, g) ∧ s.mayRun e r g = true ∧ opAllowed r.kind (wbyte w 0) = false ∧ s.fetch r g = .ok w :=
  ⟨weng, 0x30, wrun 5 0 0, { unit := 0x040 }, wcode 0x30 (wsRun 5 0 0), all3 (by decide +kernel) (okOf (by decide +kernel))⟩

theorem wit_TileStops_3 : ∃ (e : Eng) (w : W128) (d : Nat) (r : Run) (g : EngRun) (s : State), s.engOf e = some (r, g) ∧ s.mayRun e r g = true ∧ opIs w 0x00 = true ∧ s.fetch r g = .error d :=
  ⟨weng, 0, 0x0D04, wrun 5 0 0, { unit := 0x040 }, { wsRun 5 0 0 with env := { wsClient.env with refused := [(hostKey 0 0xC0000000F000, 16)] } }, all3 (by decide +kernel) (errorOf (by decide +kernel))⟩

theorem wit_TileStops_4 : ∃ (e : Eng) (r : Run) (g : EngRun) (s : State), s.engOf e = some (r, g) :=
  ⟨weng, wrun 5 0 0, { unit := 0x040 }, wsRun 5 0 0, by decide +kernel⟩

theorem wit_TileStops_5 : ∃ (e : Eng) (w : W128) (r : Run) (g : EngRun) (s : State), s.atWord e w 0xA0 r g ∧ allAbsent w = true ∧ wbyte w 8 = 0 ∧ wzero w 10 11 = true :=
  ⟨weng, wword16 [0xA0, 0, 128, 0, 128, 0, 128, 0, 0, 1, 0, 0, 5], wrun 5 0 0, { unit := 0x040 }, wcode (wword16 [0xA0, 0, 128, 0, 128, 0, 128, 0, 0, 1, 0, 0, 5]) (wsRun 5 0 0), ⟨all4 (by decide +kernel) (okOf (by decide +kernel)), by decide +kernel⟩⟩

theorem wit_TileStops_6 : ∃ (e : Eng) (w : W128) (r : Run) (g : EngRun) (s : State), s.atWord e w 0xA1 r g ∧ allAbsent w = true ∧ wbyte w 8 = 0 ∧ wmods w = 0 ∧ wzero w 9 15 = true :=
  ⟨weng, wword16 [0xA1, 0, 128, 0, 128, 0, 128, 0], wrun 5 0 0, { unit := 0x040 }, wcode (wword16 [0xA1, 0, 128, 0, 128, 0, 128, 0]) (wsRun 5 0 0), ⟨all4 (by decide +kernel) (okOf (by decide +kernel)), by decide +kernel⟩⟩

theorem wit_TileHearth_1 : ∃ (e : Eng) (w : W128) (size off : Nat) (r : Run) (g : EngRun) (s : State), s.atWord e w 0x05 r g ∧ e.pos = 0 ∧ r.kind ≠ 6 ∧ bits (wbyte w 1) 4 4 = 0 ∧ bits (wbyte w 2) 2 6 = 0 ∧ wzero w 3 3 = true ∧ wword w 4 = size ∧ 1 ≤ size ∧ size ≤ 32768 ∧ wword w 6 = off ∧ off ≤ 32767 ∧ wzero w 8 15 = true ∧ mapFind r.hregs (bits (wbyte w 1) 0 4) = none :=
  ⟨weng, wword16 [5, 1, 0, 0, 2, 0], 2, 0, wrun 5 0 0, { unit := 0x040 }, wcode (wword16 [5, 1, 0, 0, 2, 0]) (wsRun 5 0 0), ⟨all4 (by decide +kernel) (okOf (by decide +kernel)), by decide +kernel⟩⟩

theorem wit_TileHearth_2 : ∃ (e : Eng) (w : W128) (r : Run) (g : EngRun) (s : State), s.atWord e w 0x06 r g ∧ e.pos = 0 ∧ r.kind ≠ 6 ∧ bits (wbyte w 1) 4 4 = 0 ∧ bits (wbyte w 2) 1 7 = 0 ∧ wzero w 3 5 = true ∧ wzero w 8 15 = true :=
  ⟨weng, wword16 [6, 1], wrun 5 0 0, { unit := 0x040 }, wcode (wword16 [6, 1]) (wsRun 5 0 0), ⟨all4 (by decide +kernel) (okOf (by decide +kernel)), by decide +kernel⟩⟩

theorem wit_TileHearth_3 : ∃ (die k : Nat) (a : AllocWait) (rest : List AllocWait) (s : State), (s.hearth die).queue = a :: rest ∧ firstFit a.size (s.hearth die).bufs 0 = some k :=
  ⟨0, 0, ⟨0, 1, 2, false, 5, none⟩, [], (wsRun 5 0 0).modHearth 0 fun h => { h with queue := [⟨0, 1, 2, false, 5, none⟩] }, by decide +kernel⟩

theorem wit_TileHearth_4 : ∃ (die entry k until_ : Nat) (z : AllocWait) (s : State), (((s.hearth die).zeroing.find? fun z => decide (z.entry = entry)) = some z) ∧ z.taken = some (k, until_) ∧ until_ ≤ s.tb :=
  ⟨0, 0, 0, 0, ⟨0, 1, 2, false, 5, some (0, 0)⟩, (wsRun 5 0 0).modHearth 0 fun h => { h with zeroing := [⟨0, 1, 2, false, 5, some (0, 0)⟩] }, by decide +kernel⟩

theorem wit_TileHearth_5 : ∃ (e : Eng) (d : Nat) (r : Run) (g : EngRun) (t : State), t.engOf e = some (r, g) :=
  ⟨weng, 0, wrun 5 0 0, { unit := 0x040 }, wsRun 5 0 0, by decide +kernel⟩

theorem wit_MoverInstructionsComplete_1 : ∃ (e : Eng) (w : W128) (r : Run) (g : EngRun) (c : Ctx) (t u : State) (ws : Writes) (s : State), s.instrAt e w 0x10 r g c t ∧ checks123 c.r.cmd moverShape1 w (decide (wmods w ≤ 1) && wzero w 9 15) = none ∧ (((usedRefs w).any fun x => (c.card x.card).ember) = false) ∧ copyOk (decide (wmods w = 1)) (c.dst w) (c.srcA w) = true ∧ wmods w = 0 ∧ rowWrites (t.copyRow c.cl (c.srcA w) (c.dst w) (c.rowLen (c.dst w))) (c.bandRows (c.dst w)) = .ok ws ∧ ((t.moved c true ((c.srcA w).rowRanges (c.rowLen (c.dst w)) (c.bandRows (c.dst w)) ++ (c.bandRows (c.dst w)).flatMap fun i => (c.srcA w).scaleRanges i (c.rowLen (c.dst w)))).doWrites c c.g.unit ws = (u, none)) :=
  ⟨weng, wword16 [16, 0, 0, 0, 1, 0, 128, 0, 0], wrunT 5 [wv4, wv4b] {}, { unit := 0x040 }, _, _, _, _, wcode (wword16 [16, 0, 0, 0, 1, 0, 128, 0, 0]) (wsT 5 [wv4, wv4b] {}), ⟨⟨all4 (by decide +kernel) (okOf (by decide +kernel)), rfl, rfl⟩, all4 (by decide +kernel) ⟨okVal (by decide +kernel), pairOf (by decide +kernel)⟩⟩⟩

theorem wit_MoverInstructionsComplete_2 : ∃ (e : Eng) (w : W128) (r : Run) (g : EngRun) (c : Ctx) (t u : State) (ws : Writes) (s : State), s.instrAt e w 0x10 r g c t ∧ checks123 c.r.cmd moverShape1 w (decide (wmods w ≤ 1) && wzero w 9 15) = none ∧ (((usedRefs w).any fun x => (c.card x.card).ember) = false) ∧ copyOk (decide (wmods w = 1)) (c.dst w) (c.srcA w) = true ∧ wmods w = 1 ∧ rowWrites (t.convertRow c (c.srcA w) (c.dst w) (c.rowLen (c.dst w))) (c.bandRows (c.dst w)) = .ok ws ∧ ((t.moved c true ((c.srcA w).rowRanges (c.rowLen (c.dst w)) (c.bandRows (c.dst w)) ++ (c.bandRows (c.dst w)).flatMap fun i => (c.srcA w).scaleRanges i (c.rowLen (c.dst w)))).doWrites c c.g.unit ws = (u, none)) :=
  ⟨weng, wword16 [16, 1, 0, 0, 1, 0, 128, 0, 0], wrunT 5 [wv4, wv4b] {}, { unit := 0x040 }, _, _, _, _, wcode (wword16 [16, 1, 0, 0, 1, 0, 128, 0, 0]) (wsT 5 [wv4, wv4b] {}), ⟨⟨all4 (by decide +kernel) (okOf (by decide +kernel)), rfl, rfl⟩, all4 (by decide +kernel) ⟨okVal (by decide +kernel), pairOf (by decide +kernel)⟩⟩⟩

theorem wit_MoverInstructionsComplete_3 : ∃ (e : Eng) (w : W128) (r : Run) (g : EngRun) (c : Ctx) (t u : State) (s : State), s.instrAt e w 0x11 r g c t ∧ checks123 c.r.cmd moverShape0 w (decide (wmods w = 0) && wzero w 9 11 && decide (wlong w 12 < 2 ^ (min 32 (c.dst w).bits))) = none ∧ (((usedRefs w).any fun x => (c.card x.card).ember) = false) ∧ (t.doWrites c c.g.unit (joinWrites ((c.bandRows (c.dst w)).map fun i => (c.dst w).storeRaw i ((natRange 0 (c.rowLen (c.dst w))).map fun _ => wlong w 12))) = (u, none)) :=
  ⟨weng, wword16 [17, 0, 0, 0, 128, 0, 128, 0, 0, 0, 0, 0, 90], wrunT 5 [wv4] {}, { unit := 0x040 }, _, _, _, wcode (wword16 [17, 0, 0, 0, 128, 0, 128, 0, 0, 0, 0, 0, 90]) (wsT 5 [wv4] {}), ⟨⟨all4 (by decide +kernel) (okOf (by decide +kernel)), rfl, rfl⟩, all2 (by decide +kernel) (pairOf (by decide +kernel))⟩⟩

theorem wit_MoverInstructionsComplete_4 : ∃ (e : Eng) (w : W128) (r : Run) (g : EngRun) (c : Ctx) (t u : State) (lo hi : Nat) (rs : List (List (Nat × Nat) × Writes)) (s : State), s.instrAt e w 0x12 r g c t ∧ checks123 c.r.cmd moverShape2 w (decide (wmods w = 0) && wzero w 9 15) = none ∧ (((usedRefs w).any fun x => (c.card x.card).ember) = false) ∧ gatherOk (c.dst w) (c.srcA w) (c.srcB w) (c.dst w) = true ∧ c.outerBand (c.dst w) = (lo, hi) ∧ tryMap (t.gatherRun c.cl (c.srcA w) (c.srcB w) (c.dst w)) (gatherRuns (c.dst w) lo hi) = .ok rs ∧ (t.moved c true (((c.srcB w).base + 4 * lo, 4 * (hi - lo)) :: rs.flatMap (·.1))).doWrites c c.g.unit (joinWrites (rs.map (·.2))) = (u, none) :=
  ⟨weng, wword16 [18, 0, 0, 0, 1, 0, 2, 0, 0], wrunT 5 [wv2, wv4b, wix2] {}, { unit := 0x040 }, _, _, _, _, _, _, wcode (wword16 [18, 0, 0, 0, 1, 0, 2, 0, 0]) (wsT 5 [wv2, wv4b, wix2] {}), ⟨⟨all4 (by decide +kernel) (okOf (by decide +kernel)), rfl, rfl⟩, all3 (by decide +kernel) ⟨rfl, okVal (by decide +kernel), pairOf (by decide +kernel)⟩⟩⟩

theorem wit_MoverInstructionsComplete_5 : ∃ (e : Eng) (w : W128) (r : Run) (g : EngRun) (c : Ctx) (t u : State) (s : State), s.instrAt e w 0x13 r g c t ∧ checks123 c.r.cmd moverShape2 w (decide (wmods w = 0) && wzero w 9 15) = none ∧ (((usedRefs w).any fun x => (c.card x.card).ember) = false) ∧ gatherOk (c.dst w) (c.srcA w) (c.srcB w) (c.srcA w) = true ∧ c.pos = 0 ∧ runEach (fun j v => match v.indexAt c.cl (c.srcB w) j with | .error d => (v, some d) | .ok x => v.scatterRow c (c.srcA w) (c.dst w) x j) (natRange 0 ((c.srcB w).ext 0)) (t.moved c true [((c.srcB w).base, 4 * (c.srcB w).ext 0)]) = (u, none) :=
  ⟨weng, wword16 [19, 0, 0, 0, 1, 0, 2, 0, 0], wrunT 5 [wv4, wv2, wix2] {}, { unit := 0x040 }, _, _, _, wcode (wword16 [19, 0, 0, 0, 1, 0, 2, 0, 0]) (wsT 5 [wv4, wv2, wix2] {}), ⟨⟨all4 (by decide +kernel) (okOf (by decide +kernel)), rfl, rfl⟩, all4 (by decide +kernel) (pairOf (by decide +kernel))⟩⟩

theorem wit_MoverInstructionsComplete_6 : ∃ (e : Eng) (w : W128) (r : Run) (g : EngRun) (c : Ctx) (t : State) (s : State), s.instrAt e w 0x13 r g c t ∧ checks123 c.r.cmd moverShape2 w (decide (wmods w = 0) && wzero w 9 15) = none ∧ (((usedRefs w).any fun x => (c.card x.card).ember) = false) ∧ gatherOk (c.dst w) (c.srcA w) (c.srcB w) (c.srcA w) = true ∧ c.pos ≠ 0 :=
  ⟨{ weng with pos := 1 }, wword16 [19, 0, 0, 0, 1, 0, 2, 0, 0], wrun2, { unit := 0x041 }, _, _, wcode (wword16 [19, 0, 0, 0, 1, 0, 2, 0, 0]) ({ (wsT 5 [wv4, wv2, wix2] {}) with runs := [wrun2] }), ⟨⟨all4 (by decide +kernel) (okOf (by decide +kernel)), rfl, rfl⟩, by decide +kernel⟩⟩

theorem wit_MoverInstructionsComplete_7 : ∃ (e : Eng) (w : W128) (r : Run) (g : EngRun) (c : Ctx) (t u : State) (ws : Writes) (s : State), s.instrAt e w 0x14 r g c t ∧ checks123 c.r.cmd moverShape1 w (decide (wmods w = 0) && wzero w 9 15) = none ∧ (((usedRefs w).any fun x => (c.card x.card).ember) = false) ∧ transposeOk (c.dst w) (c.srcA w) = true ∧ rowWrites (fun i => match tryMap (fun x => t.elem c.cl (c.srcA w) none (ixSwap (ixPlus i x))) (natRange 0 (c.rowLen (c.dst w))) with | .ok ps => .ok ((c.dst w).storeRaw i ps) | .error d => .error d) (c.bandRows (c.dst w)) = .ok ws ∧ (t.moved c true (transposeReads (c.dst w) (c.srcA w) (c.outerBand (c.dst w)).1 (c.outerBand (c.dst w)).2)).doWrites c c.g.unit ws = (u, none) :=
  ⟨weng, wword16 [20, 0, 0, 0, 1, 0, 128, 0, 0], wrunT 5 [wcard 0 9 0 0 [2, 2] 8, wcard 64 9 0 0 [2, 2] 8] {}, { unit := 0x040 }, _, _, _, _, wcode (wword16 [20, 0, 0, 0, 1, 0, 128, 0, 0]) (wsT 5 [wcard 0 9 0 0 [2, 2] 8, wcard 64 9 0 0 [2, 2] 8] {}), ⟨⟨all4 (by decide +kernel) (okOf (by decide +kernel)), rfl, rfl⟩, all3 (by decide +kernel) ⟨okVal (by decide +kernel), pairOf (by decide +kernel)⟩⟩⟩

theorem wit_MoverInstructionsComplete_8 : ∃ (e : Eng) (w : W128) (r : Run) (g : EngRun) (c : Ctx) (t u : State) (f : WinFields) (ws : Writes) (s : State), s.instrAt e w 0x15 r g c t ∧ checks123 c.r.cmd moverShape1 w (decide (wmods w = 0) && decide (1 ≤ (winFields w).kh) && decide ((winFields w).kh ≤ 16) && decide (1 ≤ (winFields w).kw) && decide ((winFields w).kw ≤ 16) && wzero w 15 15) = none ∧ (((usedRefs w).any fun x => (c.card x.card).ember) = false) ∧ windowOk f (c.dst w) (c.srcA w) = true ∧ f = winFields w ∧ rowWrites (fun i => match tryMap (fun v => t.elem c.cl (c.srcA w) none (winIx f ((c.srcA w).ext 0) i v)) (natRange 0 ((c.dst w).ext 0)) with | .ok ps => .ok ((c.dst w).storeRaw i ps) | .error d => .error d) (c.bandRows (c.dst w)) = .ok ws ∧ (t.moved c true ((c.srcA w).planeRuns ((⟨(c.srcA w).ext 1, f.kw, f.sx, f.dx, f.pl⟩ : Win1).span 0 ((c.dst w).ext 1)) ((⟨(c.srcA w).ext 2, f.kh, f.sy, f.dy, f.pt⟩ : Win1).fetched (decide (c.r.cmd.reuse = 1)) (c.dst w).outer 1 c.width c.pos) 0)).doWrites c c.g.unit ws = (u, none) :=
  ⟨weng, wword16 [21, 0, 0, 0, 1, 0, 128, 0, 0, 1, 1, 0, 0, 0, 0], wrunT 5 [wcard 0 9 0 0 [1, 1, 1] 4, wcard 64 9 0 0 [1, 1, 1] 4] {}, { unit := 0x040 }, _, _, _, winFields (wword16 [21, 0, 0, 0, 1, 0, 128, 0, 0, 1, 1, 0, 0, 0, 0]), _, wcode (wword16 [21, 0, 0, 0, 1, 0, 128, 0, 0, 1, 1, 0, 0, 0, 0]) (wsT 5 [wcard 0 9 0 0 [1, 1, 1] 4, wcard 64 9 0 0 [1, 1, 1] 4] {}), ⟨⟨all4 (by decide +kernel) (okOf (by decide +kernel)), rfl, rfl⟩, all3 (by decide +kernel) ⟨rfl, okVal (by decide +kernel), pairOf (by decide +kernel)⟩⟩⟩

theorem wit_MatrixInstructionsComplete_1 : ∃ (e : Eng) (w : W128) (chk : EngCheck) (r : Run) (g : EngRun) (c : Ctx) (t : State) (x : Mat) (s : State), s.instrAt e w 0x30 r g c t ∧ c.ringBarred t w = false ∧ s.waitsBook e w = false ∧ checks123 c.r.cmd matShape w (matOwn w) = none ∧ t.matDecode c w = .ok x ∧ x.outTiles c = [] :=
  ⟨{ weng with pos := 1 }, wword16 [48, 0, 0, 0, 1, 0, 2, 0, 0, 0], .pass, wrunM, { (wmatG : EngRun) with unit := 0x001 }, _, _, _, wcode (wword16 [48, 0, 0, 0, 1, 0, 2, 0, 0, 0]) ({ (wsT 0 wmats wmatG) with runs := [wrunM] }), ⟨⟨all4 (by decide +kernel) (okOf (by decide +kernel)), rfl, rfl⟩, all3 (by decide +kernel) ⟨okVal (by decide +kernel), by decide +kernel⟩⟩⟩

theorem wit_MatrixInstructionsComplete_2 : ∃ (e : Eng) (w : W128) (chk : EngCheck) (r : Run) (g : EngRun) (c : Ctx) (t u : State) (x : Mat) (first : Tile) (more : List Tile) (rd : Option EmRead) (b : BookUse) (ops : List W128) (v : State) (s : State), s.instrAt e w 0x30 r g c t ∧ c.ringBarred t w = false ∧ s.waitsBook e w = false ∧ checks123 c.r.cmd matShape w (matOwn w) = none ∧ t.matDecode c w = .ok x ∧ x.outTiles c = first :: more ∧ t.matEmber c x = .ok rd ∧ (ops = (if bits (wbyte w 9) 0 4 = 0 then [] else gateSeq c.g (bits (wbyte w 9) 0 4))) ∧ (match rd with | some r => r.useTiles (decide (x.w.dims = 3)) c.g.pendingBooks (t.loadCycles c) (x.emTileCycles r (decide (c.r.kind = 6)) c.g) (first :: more) { store := c.g.codebooks } | none => .ok (some { store := c.g.codebooks })) = .ok (some b) ∧ (v = (let s1 := (((t.modEng e fun g => { g with codebooks := b.store }).count c.r.die c.g.unit 0x41 b.loads (some c.cl)).count c.r.die c.g.unit 0x42 b.wait (some c.cl)).count c.r.die c.g.unit 0x40 ((first :: more).length * x.tileCycles c.g) (some c.cl); if ops.isEmpty then s1 else s1.gateCorrected c (if chk = .storeCorrected then .pass else chk))) ∧ v.mxeCheck c x.ints (!ops.isEmpty) (fun err => (errTile (first :: more) chk).bind (t.castoutOf c x rd err)) chk = none ∧ runWalk c x.slot (x.operands c w) (fun _ => true) (State.matOut c x ops (decide (bits (wbyte w 9) 0 4 ≠ 0)) rd (arrayErrOf x.ints chk) (errTile (first :: more) chk)) {} (walkVisits c.g x.slot (x.range c)) v = (u, none) :=
  ⟨weng, wword16 [48, 0, 0, 0, 1, 0, 2, 0, 0, 0], .pass, wrunT 0 wmats wmatG, { (wmatG : EngRun) with unit := 0x000 }, _, _, _, _, _, _, _, _, _, _, wcode (wword16 [48, 0, 0, 0, 1, 0, 2, 0, 0, 0]) (wsT 0 wmats wmatG), ⟨⟨all4 (by decide +kernel) (okOf (by decide +kernel)), rfl, rfl⟩, all3 (by decide +kernel) ⟨okVal (by decide +kernel), consVal (by decide +kernel), okVal (by decide +kernel), rfl, okVal (by decide +kernel), rfl, by decide +kernel, pairOf (by decide +kernel)⟩⟩⟩

theorem wit_MatrixInstructionsComplete_3 : ∃ (e : Eng) (w : W128) (chk : EngCheck) (s : State), s.waitsBook e w = true :=
  ⟨weng, wmmW, .pass, wsWaits, by decide +kernel⟩

theorem wit_MatrixInstructionsComplete_4 : ∃ (e : Eng) (w : W128) (r : Run) (g : EngRun) (c : Ctx) (t u : State) (em : Ember) (asked want : List Book) (until_ : Nat) (s : State), s.instrAt e w 0x31 r g c t ∧ c.ringBarred t w = false ∧ checks123 c.r.cmd preloadShape w (preloadOwn w) = none ∧ c.r.cmd.resident = false ∧ (c.srcA w).emberOk = true ∧ t.openEmber c.cl (c.srcA w) = .ok em ∧ wbyte w 9 + wbyte w 10 ≤ em.books.length ∧ t.emModeOk c.cl em true = true ∧ asked = (natRange (wbyte w 9) (wbyte w 10)).map em.bookOf ∧ booksFit asked = true ∧ (want = asked.filter fun b => !c.g.codebooks.any b.same && !c.g.loadingBooks.any b.same) ∧ want ≠ [] ∧ until_ = (match c.g.preloads.getLast? with | some p => max p.until_ t.tb | none => t.tb) + ceilDiv ((want.map (t.loadCycles c)).foldl (· + ·) 0 * 384) (10 * max 1 (t.unitMhz c.r.die c.g.unit)) ∧ (u = (((t.moved c true (want.map fun b => ((c.srcA w).scaleBase + b.off, b.bytes + 4))).count c.r.die c.g.unit 0x41 want.length (some c.cl)).modEng e fun g => { g with preloads := g.preloads ++ [⟨want, asked.filter fun b => c.g.codebooks.any b.same, until_⟩] })) :=
  ⟨weng, wword16 [49, 0, 128, 0, 1, 0, 128, 0, 0, 0, 1], wrunT 0 [wv4, wemc] {}, { unit := 0x000 }, _, _, _, wemR, [wbookR], [wbookR], _, wcode (wword16 [49, 0, 128, 0, 1, 0, 128, 0, 0, 0, 1]) (wput (wsT 0 [wv4, wemc] {}) ((0, wstream) :: wemem)), ⟨⟨all4 (by decide +kernel) (okOf (by decide +kernel)), rfl, rfl⟩, all4 (by decide +kernel) ⟨okOf (by decide +kernel), all4 (by decide +kernel) (all2 (by decide +kernel) ⟨rfl, rfl⟩)⟩⟩⟩

theorem wit_MatrixInstructionsComplete_5 : ∃ (e : Eng) (w : W128) (r : Run) (g : EngRun) (c : Ctx) (t u : State) (em : Ember) (asked want : List Book) (s : State), s.instrAt e w 0x31 r g c t ∧ c.ringBarred t w = false ∧ checks123 c.r.cmd preloadShape w (preloadOwn w) = none ∧ c.r.cmd.resident = false ∧ (c.srcA w).emberOk = true ∧ t.openEmber c.cl (c.srcA w) = .ok em ∧ wbyte w 9 + wbyte w 10 ≤ em.books.length ∧ t.emModeOk c.cl em true = true ∧ asked = (natRange (wbyte w 9) (wbyte w 10)).map em.bookOf ∧ booksFit asked = true ∧ (want = asked.filter fun b => !c.g.codebooks.any b.same && !c.g.loadingBooks.any b.same) ∧ want = [] ∧ (t.moved c true []).count c.r.die c.g.unit 0x41 0 (some c.cl) = u :=
  ⟨weng, wword16 [49, 0, 128, 0, 1, 0, 128, 0, 0, 0, 1], wrunT 0 [wv4, wemc] { codebooks := [wbookR] }, { ({ codebooks := [wbookR] } : EngRun) with unit := 0x000 }, _, _, _, wemR, [wbookR], [], wcode (wword16 [49, 0, 128, 0, 1, 0, 128, 0, 0, 0, 1]) (wput (wsT 0 [wv4, wemc] { codebooks := [wbookR] }) ((0, wstream) :: wemem)), ⟨⟨all4 (by decide +kernel) (okOf (by decide +kernel)), rfl, rfl⟩, all4 (by decide +kernel) ⟨okOf (by decide +kernel), all4 (by decide +kernel) (all2 (by decide +kernel) (rfl))⟩⟩⟩

theorem wit_MatrixInstructionsComplete_6 : ∃ (e : Eng) (w : W128) (r : Run) (g : EngRun) (c : Ctx) (t u : State) (shape : Nat) (rec : List Byte) (v : State) (s : State), s.instrAt e w 0x38 r g c t ∧ c.ringBarred t w = false ∧ checks123 c.r.cmd ⟨.required, .required, .unused, false⟩ w (decide (wmods w = 0) && decide (wbyte w 8 = 0) && decide (wbyte w 9 < 128) && decide (wbyte w 10 < 128) && decide (wbyte w 12 < 2) && wzero w 13 15) = none ∧ c.recFault = none ∧ shape = wbyte w 9 + wbyte w 10 * 128 + 16384 * wbyte w 11 + 2097152 * wbyte w 12 + 4194304 * (c.r.cmd.width - 1) ∧ (wdst w).card = 0 ∧ (wsrcA w).card = 1 ∧ c.g.bound = false ∧ (wbyte w 11 + 1) * (wbyte w 10 + 1) ≤ 128 ∧ t.cread c.cl c.r.cmd.record 64 = .ok rec ∧ emAt rec 24 4 = shape ∧ recordReservedOk rec = true ∧ (v = t.modEng e fun g => { g with bound := true }) ∧ v.residencyOf c.r = none ∧ ((v.moved c true [((c.card 0).base, if bit (emAt rec 0 8) 48 then 65536 * c.width else 0)]).enterResidency c rec shape = (u, none)) :=
  ⟨weng, wword16 [56, 0, 0, 0, 1, 0, 128, 0, 0], wrunR {}, { unit := 0x000 }, _, _, _, _, _, _, wcode (wword16 [56, 0, 0, 0, 1, 0, 128, 0, 0]) (wsRec {} []), ⟨⟨all4 (by decide +kernel) (okOf (by decide +kernel)), rfl, rfl⟩, all3 (by decide +kernel) ⟨rfl, all4 (by decide +kernel) ⟨okVal (by decide +kernel), all2 (by decide +kernel) ⟨rfl, by decide +kernel, pairOf (by decide +kernel)⟩⟩⟩⟩⟩

theorem wit_MatrixInstructionsComplete_7 : ∃ (e : Eng) (w : W128) (r : Run) (g : EngRun) (c : Ctx) (t : State) (shape : Nat) (rec : List Byte) (v : State) (x : Residency) (s : State), s.instrAt e w 0x38 r g c t ∧ c.ringBarred t w = false ∧ checks123 c.r.cmd ⟨.required, .required, .unused, false⟩ w (decide (wmods w = 0) && decide (wbyte w 8 = 0) && decide (wbyte w 9 < 128) && decide (wbyte w 10 < 128) && decide (wbyte w 12 < 2) && wzero w 13 15) = none ∧ c.recFault = none ∧ shape = wbyte w 9 + wbyte w 10 * 128 + 16384 * wbyte w 11 + 2097152 * wbyte w 12 + 4194304 * (c.r.cmd.width - 1) ∧ (wdst w).card = 0 ∧ (wsrcA w).card = 1 ∧ c.g.bound = false ∧ (wbyte w 11 + 1) * (wbyte w 10 + 1) ≤ 128 ∧ t.cread c.cl c.r.cmd.record 64 = .ok rec ∧ emAt rec 24 4 = shape ∧ recordReservedOk rec = true ∧ (v = t.modEng e fun g => { g with bound := true }) ∧ v.residencyOf c.r = some x ∧ x.shape = shape :=
  ⟨weng, wword16 [56, 0, 0, 0, 1, 0, 128, 0, 0], wrunR {}, { unit := 0x000 }, _, _, _, _, _, _, wcode (wword16 [56, 0, 0, 0, 1, 0, 128, 0, 0]) (wsRec {} [wres]), ⟨⟨all4 (by decide +kernel) (okOf (by decide +kernel)), rfl, rfl⟩, all3 (by decide +kernel) ⟨rfl, all4 (by decide +kernel) ⟨okVal (by decide +kernel), all2 (by decide +kernel) ⟨rfl, someVal (by decide +kernel), by decide +kernel⟩⟩⟩⟩⟩

theorem wit_MatrixInstructionsComplete_8 : ∃ (e : Eng) (w : W128) (chk : EngCheck) (r : Run) (g : EngRun) (c : Ctx) (t u : State) (x : Residency) (q : RecShape) (rd : Card → List (Nat × Nat)) (v : State) (rods : NMap Nat) (ws : Writes) (s : State), s.instrAt e w 0x39 r g c t ∧ c.ringBarred t w = false ∧ checks123 c.r.cmd ⟨.required, .required, .required, false⟩ w (decide (wmods w = 0) && decide (1 ≤ wbyte w 13) && decide (wbyte w 13 ≤ 64) && wzero w 14 15) = none ∧ c.recFault = none ∧ c.g.bound = true ∧ t.residencyOf c.r = some x ∧ q = shapeOf x.shape ∧ scanOk q c.width (c.dst w) (c.srcA w) (c.srcB w) = true ∧ (rd = (fun k : Card => ((natRange (wlong w 9) (wbyte w 13)).filter fun n => decide (n < (c.dst w).ext 2)).flatMap fun tok => (natRange 0 q.h).map fun i => (k.rowAddr [0, Int.ofNat (c.pos * q.h + i), Int.ofNat tok, 0, 0], k.rowBytes))) ∧ v = (t.moved c true (rd (c.srcA w) ++ rd (c.srcB w))).count c.r.die c.g.unit 0x43 (wbyte w 13) (some c.cl) ∧ v.mxeCheck c false false (fun _ => none) chk = none ∧ tryFold (fun acc k => t.scanToken c q (c.dst w) (c.srcA w) (c.srcB w) k acc) (x.state.getD c.pos [], {}) (natRange (wlong w 9) (wbyte w 13)) = .ok (rods, ws) ∧ (({ v with residencies := v.residencies.map fun (y : Residency) => if y.record = x.record ∧ y.client = x.client then { y with state := (natRange 0 y.state.length).map fun i => if i = c.pos then rods else y.state.getD i [] } else y }).doWrites c c.g.unit ws = (u, none)) :=
  ⟨weng, wword16 [57, 0, 4, 0, 2, 0, 3, 0, 0, 0, 0, 0, 0, 1], .pass, wrunR { bound := true }, { ({ bound := true } : EngRun) with unit := 0x000 }, _, _, _, _, _, _, _, _, _, wcode (wword16 [57, 0, 4, 0, 2, 0, 3, 0, 0, 0, 0, 0, 0, 1]) (wsRec { bound := true } [wres]), ⟨⟨all4 (by decide +kernel) (okOf (by decide +kernel)), rfl, rfl⟩, all4 (by decide +kernel) ⟨someVal (by decide +kernel), rfl, by decide +kernel, rfl, rfl, by decide +kernel, okVal (by decide +kernel), pairOf (by decide +kernel)⟩⟩⟩

theorem wit_MatrixInstructionsComplete_9 : ∃ (e : Eng) (w : W128) (r : Run) (g : EngRun) (c : Ctx) (t : State) (s : State), s.instrAt e w 0x3A r g c t ∧ c.ringBarred t w = false ∧ (allAbsent w && decide (wmods w = 0) && wzero w 8 15) = true ∧ c.recFault = none ∧ c.g.bound = true ∧ c.g.unbind = false :=
  ⟨weng, wword16 [58, 0, 128, 0, 128, 0, 128], wrunR { bound := true }, { ({ bound := true } : EngRun) with unit := 0x000 }, _, _, wcode (wword16 [58, 0, 128, 0, 128, 0, 128]) (wsRec { bound := true } [wres]), ⟨⟨all4 (by decide +kernel) (okOf (by decide +kernel)), rfl, rfl⟩, by decide +kernel⟩⟩

theorem wit_MatrixInstructionsComplete_10 : ∃ (e : Eng) (i : Nat) (p : Preload) (r : Run) (g : EngRun) (bs : List Book) (s : State), s.engOf e = some (r, g) ∧ g.preloadDone s.tb = some (i, p) ∧ s.loadBooks r.client p.want = .ok bs :=
  ⟨weng, 0, ⟨[], [], 0⟩, wrunT 0 [] { preloads := [⟨[], [], 0⟩] }, { unit := 0, preloads := [⟨[], [], 0⟩] }, [], wsT 0 [] { preloads := [⟨[], [], 0⟩] }, all2 (by decide +kernel) (okOf (by decide +kernel))⟩

theorem wit_MatrixInstructionsComplete_11 : ∃ (die engine t0 : Nat) (x : Residency) (s : State), s.parkedWith die engine = some x ∧ x.parkedSince = some t0 ∧ s.passedUs t0 (max 50 (s.fld (Fld.MXE_CTRL_park_limit_us die engine))) = true ∧ s.calledBack x = false :=
  ⟨0, 0, 0, { wres with parkedSince := some 0 }, { State.reset with residencies := [{ wres with parkedSince := some 0 }], tb := 10000000 }, by decide +kernel⟩

theorem wit_MatrixInstructionsComplete_12 : ∃ (unit : Nat) (f : Fld) (s : State), enableFld (unit / 4096) (unit % 4096) = some f ∧ s.fitted (unit / 4096) = true ∧ s.logicServes (unit / 4096) = true ∧ s.flag f = true :=
  ⟨0x030, Fld.CDC_CTRL_enable 0 0, wsServes, by decide +kernel⟩

theorem wit_GateAndWindowInstructionsComplete_1 : ∃ (e : Eng) (w : W128) (r : Run) (g : EngRun) (c : Ctx) (t : State) (s : State), s.instrAt e w 0x50 r g c t ∧ checks123 c.r.cmd ⟨.optional, .optional, .unused, false⟩ w (gseqSetOk w) = none :=
  ⟨weng, wword16 [80, 17, 128, 0, 128, 0, 128], wrunT 0 [wv4, wv4b] {}, { unit := 0x000 }, _, _, wcode (wword16 [80, 17, 128, 0, 128, 0, 128]) (wsT 0 [wv4, wv4b] {}), ⟨⟨all4 (by decide +kernel) (okOf (by decide +kernel)), rfl, rfl⟩, by decide +kernel⟩⟩

theorem wit_GateAndWindowInstructionsComplete_2 : ∃ (e : Eng) (w : W128) (r : Run) (g : EngRun) (c : Ctx) (t : State) (s : State), s.instrAt e w 0x51 r g c t ∧ c.ringBarred t w = false ∧ gseqClrOk w = true :=
  ⟨weng, wword16 [81, 1, 128, 0, 128, 0, 128], wrunT 0 [wv4, wv4b] {}, { unit := 0x000 }, _, _, wcode (wword16 [81, 1, 128, 0, 128, 0, 128]) (wsT 0 [wv4, wv4b] {}), ⟨⟨all4 (by decide +kernel) (okOf (by decide +kernel)), rfl, rfl⟩, by decide +kernel⟩⟩

theorem wit_GateAndWindowInstructionsComplete_3 : ∃ (e : Eng) (w : W128) (chk : EngCheck) (r : Run) (g : EngRun) (c : Ctx) (t u : State) (ops : List W128) (first n : Nat) (v : State) (rs : List (Writes × Nat)) (s : State), s.instrAt e w 0x52 r g c t ∧ c.ringBarred t w = false ∧ checks123 c.r.cmd gateShape w (gateOwn w) = none ∧ ops = gateSeq c.g (bits (wbyte w 9) 0 4) ∧ Machine.seqOk .map ops = true ∧ c.seqCards .map ops (c.dst w) (c.srcA w).shape (2 ^ c.lanes) = true ∧ gateOperandsOk .map (c.dst w) (c.srcA w) = true ∧ c.gateCols ops (c.dst w) = (first, n) ∧ (v = (t.moved c true (((c.bandRows (c.dst w)).flatMap fun i => (c.srcA w).runAt (ixSet0 i (Int.ofNat first)) n :: (c.srcA w).scaleRanges (ixSet0 i (Int.ofNat first)) n) ++ c.streamRanges ops (c.bandRows (c.dst w)) first n true)).gateCorrected c chk) ∧ v.gateCheck c chk = none ∧ tryMap (v.gateSrcRow c .map ops (c.dst w) (c.srcA w)) (c.bandRows (c.dst w)) = .ok rs ∧ (v.gateEvents c (c.bandRows (c.dst w)).length ((rs.map (·.2)).foldl (· + ·) 0)).doWrites c c.gateUnit (joinWrites (rs.map (·.1))) = (u, none) :=
  ⟨weng, wword16 [82, 0, 0, 0, 1, 0, 128, 0, 0, 1], .pass, wrunT 0 [wv4, wv4b] {}, { unit := 0x000 }, _, _, _, _, _, _, _, _, wcode (wword16 [82, 0, 0, 0, 1, 0, 128, 0, 0, 1]) (wsT 0 [wv4, wv4b] {}), ⟨⟨all4 (by decide +kernel) (okOf (by decide +kernel)), rfl, rfl⟩, all2 (by decide +kernel) ⟨rfl, all3 (by decide +kernel) ⟨rfl, rfl, by decide +kernel, okVal (by decide +kernel), pairOf (by decide +kernel)⟩⟩⟩⟩

theorem wit_GateAndWindowInstructionsComplete_4 : ∃ (e : Eng) (w : W128) (chk : EngCheck) (r : Run) (g : EngRun) (c : Ctx) (t u : State) (ops : List W128) (first n : Nat) (v : State) (rs : List (Writes × Nat)) (s : State), s.instrAt e w 0x53 r g c t ∧ c.ringBarred t w = false ∧ checks123 c.r.cmd gateShape w (gateOwn w) = none ∧ ops = gateSeq c.g (bits (wbyte w 9) 0 4) ∧ Machine.seqOk .rows ops = true ∧ c.seqCards .rows ops (c.dst w) (c.srcA w).shape (2 ^ c.lanes) = true ∧ gateOperandsOk .rows (c.dst w) (c.srcA w) = true ∧ c.gateCols ops (c.dst w) = (first, n) ∧ (v = (t.moved c true (((c.bandRows (c.dst w)).flatMap fun i => (c.srcA w).runAt (ixSet0 i (Int.ofNat first)) n :: (c.srcA w).scaleRanges (ixSet0 i (Int.ofNat first)) n) ++ c.streamRanges ops (c.bandRows (c.dst w)) first n true)).gateCorrected c chk) ∧ v.gateCheck c chk = none ∧ tryMap (v.gateSrcRow c .rows ops (c.dst w) (c.srcA w)) (c.bandRows (c.dst w)) = .ok rs ∧ (v.gateEvents c (c.bandRows (c.dst w)).length ((rs.map (·.2)).foldl (· + ·) 0)).doWrites c c.gateUnit (joinWrites (rs.map (·.1))) = (u, none) :=
  ⟨weng, wword16 [83, 0, 0, 0, 1, 0, 128, 0, 0, 1], .pass, wrunT 0 [wv4, wv4b] {}, { unit := 0x000 }, _, _, _, _, _, _, _, _, wcode (wword16 [83, 0, 0, 0, 1, 0, 128, 0, 0, 1]) (wsT 0 [wv4, wv4b] {}), ⟨⟨all4 (by decide +kernel) (okOf (by decide +kernel)), rfl, rfl⟩, all2 (by decide +kernel) ⟨rfl, all3 (by decide +kernel) ⟨rfl, rfl, by decide +kernel, okVal (by decide +kernel), pairOf (by decide +kernel)⟩⟩⟩⟩

theorem wit_GateAndWindowInstructionsComplete_5 : ∃ (e : Eng) (w : W128) (chk : EngCheck) (r : Run) (g : EngRun) (c : Ctx) (t u : State) (f : ConvFields) (os : List Operand) (rows : Nat × Nat) (vs : List (Tile × Tile)) (src : Operand) (v1 v : State) (s : State), s.instrAt e w 0x80 r g c t ∧ c.ringBarred t w = false ∧ checks123 c.r.cmd convShape w (convOwn w) = none ∧ walkOk c.g (wwalk w) none = true ∧ f = convFields w ∧ os = convOperands c f w (wwalk w) (c.dst w) (c.srcA w) (c.srcB w) ∧ t.staged5 c os = true ∧ (convOk f (c.dst w) (c.srcA w) (c.srcB w) && c.convParamOk ((c.dst w).ext 0)) = true ∧ convWalkOk f c.g (wwalk w) (c.srcA w) = true ∧ mirrorOk f (c.dst w) (c.srcA w) = true ∧ rows = band ((c.dst w).ext 2) (walkExt c.g (wwalk w) 1 0) c.width c.pos ∧ vs = walkVisits c.g (wwalk w) [rows, (0, (c.dst w).ext 1), (0, (c.dst w).ext 0), (0, (c.dst w).ext 3)] ∧ src = os.getD 0 { card := c.srcA w, ref := wsrcA w, split := true, dims := [] } ∧ (v1 = ((forEach (lineBoxes (f.winX (c.srcA w)) (f.winY (c.srcA w)) ((c.srcA w).ext 0) none (linesOfWalk c.g (wwalk w) vs)) t fun b t => t.loadBox c src 0 (src.box (vs.headD ([], [])).1) b).count c.r.die c.g.unit 0x40 ((rows.2 - rows.1) * ceilDiv ((c.dst w).ext 1) 16 * ceilDiv ((c.dst w).ext 0) 16 * (c.dst w).ext 3) (some c.cl)).count c.r.die c.g.unit 0x41 (refills (linesOfWalk c.g (wwalk w) vs)) (some c.cl)) ∧ v = v1.corrected c c.g.unit (v1.flag (Fld.CEE_CTRL_ecc_enable c.r.die) && decide (chk = .storeCorrected)) ∧ unitCheck (v.flag (Fld.CEE_CTRL_check_enable c.r.die) && convInts (c.srcA w)) (v1.flag (Fld.CEE_CTRL_ecc_enable c.r.die)) 0x0801 0x0805 chk = none ∧ runWalk c (wwalk w) os (fun o => !o.split) (State.convOut c f (decide (wmods w = 1)) (c.dst w) (c.srcA w) (c.srcB w)) {} vs v = (u, none) :=
  ⟨weng, wword16 [128, 0, 0, 0, 1, 0, 2], .pass, wrunT 2 wconvs wconvG, { (wconvG : EngRun) with unit := 0x020 }, _, _, _, _, _, _, _, _, _, _, wcode (wword16 [128, 0, 0, 0, 1, 0, 2]) (wsT 2 wconvs wconvG), ⟨⟨all4 (by decide +kernel) (okOf (by decide +kernel)), rfl, rfl⟩, all3 (by decide +kernel) ⟨rfl, rfl, all4 (by decide +kernel) ⟨rfl, rfl, rfl, rfl, rfl, by decide +kernel, pairOf (by decide +kernel)⟩⟩⟩⟩

theorem wit_GateAndWindowInstructionsComplete_6 : ∃ (e : Eng) (w : W128) (r : Run) (g : EngRun) (c : Ctx) (t : State) (s : State), s.instrAt e w 0x81 r g c t ∧ c.ringBarred t w = false ∧ checks123 c.r.cmd ⟨.unused, .optional, .optional, false⟩ w (decide (wmods w = 0) && wzero w 8 15) = none ∧ ((wsrcA w).absent || (decide ((c.card (wsrcA w).card).typ = 9) && decide ((c.card (wsrcA w).card).scaleType = 0) && decide ((c.card (wsrcA w).card).dims = 1) && decide ((c.card (wsrcA w).card).ext 0 ≤ 256))) = true ∧ ((wsrcB w).absent || (decide ((c.card (wsrcB w).card).typ = 9) && decide ((c.card (wsrcB w).card).scaleType = 0) && decide ((c.card (wsrcB w).card).dims = 1) && decide ((c.card (wsrcB w).card).ext 0 ≤ 256))) = true :=
  ⟨weng, wword16 [129, 0, 128, 0, 1, 0, 128], wrunT 2 [wconvs.getD 0 {}, wv4] {}, { unit := 0x020 }, _, _, wcode (wword16 [129, 0, 128, 0, 1, 0, 128]) (wsT 2 [wconvs.getD 0 {}, wv4] {}), ⟨⟨all4 (by decide +kernel) (okOf (by decide +kernel)), rfl, rfl⟩, by decide +kernel⟩⟩

theorem wit_GateAndWindowInstructionsComplete_7 : ∃ (e : Eng) (w : W128) (chk : EngCheck) (r : Run) (g : EngRun) (c : Ctx) (t u : State) (v : State) (ws : List Writes) (s : State), s.instrAt e w 0x90 r g c t ∧ c.ringBarred t w = false ∧ checks123 c.r.cmd ⟨.required, .required, .optional, false⟩ w (decide (wmods w < 4) && decide (bits (wmods w) 0 2 ≠ 3)) = none ∧ ((boxCard (c.srcA w) ((c.dst w).ext 1) && boxCard (c.dst w) ((c.dst w).ext 1) && [7, 8, 9].contains (c.dst w).typ && decide ((c.dst w).scaleType = 0) && (if (wsrcB w).absent then decide (bits (wmods w) 0 2 = 1) else boxCard (c.srcB w) ((c.dst w).ext 1))) = true) ∧ unitCheck (t.flag (Fld.PPE_CTRL_check_enable c.r.die)) (t.flag (Fld.PPE_CTRL_ecc_enable c.r.die)) 0x0901 0x0902 chk = none ∧ v = t.corrected c c.g.unit (t.flag (Fld.PPE_CTRL_ecc_enable c.r.die) && decide (chk = .storeCorrected)) ∧ (tryMap (fun j => match v.row4 c (c.srcA w) j, (if (wsrcB w).absent then .ok [] else v.row4 c (c.srcB w) j) with | .ok x, .ok y => .ok ((c.dst w).storeRow c.rnd c.draw [0, Int.ofNat j, 0, 0, 0] ((natRange 0 4).map fun i => clipTo ([bits (wlong w 12) 8 12, bits (wlong w 12) 20 12].getD (i % 2) 0) ((boxOf c.rho (bits (wmods w) 0 2) (if wword w 9 = 0 then numOne else bf16.decode (wword w 9)) (if wword w 11 = 0 then numOne else bf16.decode (wword w 11)) x y).getD i numZero))) | .error n, _ => .error n | _, .error n => .error n) (natRange 0 ((c.dst w).ext 1)) = .ok ws) ∧ (((v.moved c true ((c.srcA w).footprint 0 ++ if (wsrcB w).absent then [] else (c.srcB w).footprint 0)).count c.r.die c.g.unit 0x40 ((c.dst w).ext 1) (some c.cl)).doWrites c c.g.unit (joinWrites ws) = (u, none)) :=
  ⟨weng, wword16 [144, 1, 0, 0, 1, 0, 128], .pass, wrunT 3 [wcard 0 9 0 0 [4, 1] 16, wcard 64 9 0 0 [4, 1] 16] {}, { unit := 0x021 }, _, _, _, _, _, wcode (wword16 [144, 1, 0, 0, 1, 0, 128]) (wsT 3 [wcard 0 9 0 0 [4, 1] 16, wcard 64 9 0 0 [4, 1] 16] {}), ⟨⟨all4 (by decide +kernel) (okOf (by decide +kernel)), rfl, rfl⟩, all4 (by decide +kernel) ⟨rfl, okVal (by decide +kernel), pairOf (by decide +kernel)⟩⟩⟩

theorem wit_GateAndWindowInstructionsComplete_8 : ∃ (e : Eng) (w : W128) (chk : EngCheck) (r : Run) (g : EngRun) (c : Ctx) (t u : State) (v : State) (cs : List (List Cand)) (all : List Cand) (s : State), s.instrAt e w 0x91 r g c t ∧ c.ringBarred t w = false ∧ checks123 c.r.cmd ⟨.required, .required, .required, false⟩ w (decide (wmods w < 4) && wzero w 9 11) = none ∧ (decide ((c.srcA w).dims = 2) && !(c.srcA w).ember && decide ((c.srcA w).ext 0 * (c.srcA w).ext 1 ≤ 16777216) && boxCard (c.srcB w) ((c.srcA w).ext 1) && decide ((c.srcB w).typ = 9) && decide ((c.srcB w).scaleType = 0) && listCard (c.dst w) 8192) = true ∧ unitCheck (t.flag (Fld.PPE_CTRL_check_enable c.r.die)) (t.flag (Fld.PPE_CTRL_ecc_enable c.r.die)) 0x0901 0x0902 chk = none ∧ v = t.corrected c c.g.unit (t.flag (Fld.PPE_CTRL_ecc_enable c.r.die) && decide (chk = .storeCorrected)) ∧ (tryMap (fun an => match tryMap (fun cl => v.scoreAt c (c.srcA w) (bit (wmods w) 0) cl an) (natRange 0 ((c.srcA w).ext 0)), v.row4 c (c.srcB w) an with | .ok ss, .ok box => .ok (((if bit (wmods w) 1 then [((bestClass (ss.drop 1) 1 (0, ss.headD .nan)).1, (bestClass (ss.drop 1) 1 (0, ss.headD .nan)).2, an)] else (natRange 0 ((c.srcA w).ext 0)).map fun cl => (cl, ss.getD cl .nan, an * (c.srcA w).ext 0 + cl)).filter fun x => (num32 (wlong w 12)).lt x.2.1).map fun (cl, sc, ix) => ({ box := box, score := sc, cls := numOfInt (Int.ofNat cl), index := numOfInt (Int.ofNat ix) } : Cand)) | .error n, _ => .error n | _, .error n => .error n) (natRange 0 ((c.srcA w).ext 1)) = .ok cs) ∧ all = cs.flatten.mergeSort candBefore ∧ ((v.moved c true ((c.srcA w).footprint 0 ++ (c.srcB w).footprint 0)).count c.r.die c.g.unit 0x41 (all.length - (c.dst w).ext 1) (some c.cl)).doWrites c c.g.unit (listWrites c (c.dst w) (all.take ((c.dst w).ext 1))) = (u, none) :=
  ⟨weng, wword16 [145, 0, 0, 0, 1, 0, 2], .pass, wrunT 3 [wcard 0 9 0 0 [8, 1] 32, wcard 128 9 0 0 [1, 1] 4, wcard 64 9 0 0 [4, 1] 16] {}, { unit := 0x021 }, _, _, _, _, _, _, wcode (wword16 [145, 0, 0, 0, 1, 0, 2]) (wsT 3 [wcard 0 9 0 0 [8, 1] 32, wcard 128 9 0 0 [1, 1] 4, wcard 64 9 0 0 [4, 1] 16] {}), ⟨⟨all4 (by decide +kernel) (okOf (by decide +kernel)), rfl, rfl⟩, all4 (by decide +kernel) ⟨rfl, okVal (by decide +kernel), rfl, pairOf (by decide +kernel)⟩⟩⟩

theorem wit_GateAndWindowInstructionsComplete_9 : ∃ (e : Eng) (w : W128) (chk : EngCheck) (r : Run) (g : EngRun) (c : Ctx) (t u : State) (v : State) (cs kept : List Cand) (n : Nat) (s : State), s.instrAt e w 0x92 r g c t ∧ c.ringBarred t w = false ∧ checks123 c.r.cmd ⟨.required, .required, .unused, false⟩ w (decide (wmods w ≤ 1) && wzero w 13 15) = none ∧ (listCard (c.srcA w) 8192 && listCard (c.dst w) 1024 && !(num32 (wlong w 9)).isNan && !(num32 (wlong w 9)).lt numZero && !numOne.lt (num32 (wlong w 9))) = true ∧ unitCheck (t.flag (Fld.PPE_CTRL_check_enable c.r.die)) (t.flag (Fld.PPE_CTRL_ecc_enable c.r.die)) 0x0901 0x0902 chk = none ∧ v = t.corrected c c.g.unit (t.flag (Fld.PPE_CTRL_ecc_enable c.r.die) && decide (chk = .storeCorrected)) ∧ tryMap (v.candAt c.cl (c.srcA w)) (natRange 0 ((c.srcA w).ext 1)) = .ok cs ∧ (nmsKeep c.rho ((c.dst w).ext 1) (decide (wmods w = 1)) (num32 (wlong w 9)) ((cs.filter fun k => !k.index.lt numZero).mergeSort candBefore) ([], 0) = (kept, n)) ∧ ((v.moved c true ((c.srcA w).footprint 0)).count c.r.die c.g.unit 0x42 n (some c.cl)).doWrites c c.g.unit (listWrites c (c.dst w) kept.reverse) = (u, none) :=
  ⟨weng, wword16 [146, 0, 0, 0, 1, 0, 128], .pass, wrunT 3 [wcard 0 9 0 0 [8, 1] 32, wcard 64 9 0 0 [8, 1] 32] {}, { unit := 0x021 }, _, _, _, _, _, _, _, wcode (wword16 [146, 0, 0, 0, 1, 0, 128]) (wsT 3 [wcard 0 9 0 0 [8, 1] 32, wcard 64 9 0 0 [8, 1] 32] {}), ⟨⟨all4 (by decide +kernel) (okOf (by decide +kernel)), rfl, rfl⟩, all4 (by decide +kernel) ⟨rfl, okVal (by decide +kernel), rfl, pairOf (by decide +kernel)⟩⟩⟩

theorem wit_AttentionAndCodecInstructionsComplete_1 : ∃ (e : Eng) (w : W128) (chk : EngCheck) (r : Run) (g : EngRun) (c : Ctx) (t u : State) (x : Att) (table seq : Card) (ws : List SeqWords) (vs : List (Nat × List Nat × Nat)) (v : State) (rs : Writes) (s : State), s.instrAt e w 0x70 r g c t ∧ c.ringBarred t w = false ∧ checks123 c.r.cmd attShape w (decide (wmods w < 8) && wzero w 15 15) = none ∧ c.attend w = .ok (x, table, seq) ∧ tryMap (t.seqWords c.cl seq) (natRange 0 (x.q.ext 3)) = .ok ws ∧ vs = (x.tiles (c.bandRows x.d)).map (fun (q, ts) => (q, x.tileVisits (ws.getD q ⟨0, 0, 0⟩) ts)) ∧ (v = (((t.moved c true (x.reads (c.bandRows x.d) ++ seq.wholeRows ((natRange 0 (x.q.ext 3)).map fun (i : Nat) => [0, Int.ofNat i, 0, 0, 0]) ++ vs.flatMap fun (q, p) => t.visitReads c.cl x (c.srcB w) table q p.1)).count c.r.die c.g.unit 0x40 (vs.flatMap fun (_, p) => p.1).length (some c.cl)).count c.r.die c.g.unit 0x41 ((vs.map fun p => p.2.2).foldl (· + ·) 0) (some c.cl)).ateCorrected c chk) ∧ v.ateCheck c chk = none ∧ rowWrites (t.attRow c x (c.srcB w) table ws) (c.bandRows x.d) = .ok rs ∧ v.doWrites c c.g.unit rs = (u, none) :=
  ⟨weng, wword16 [112, 0, 0, 0, 1, 0, 2, 0, 0, 3, 4, 255, 255, 0, 20], .pass, wrunT 1 [wd32, wq32, warena, wtable, wseqc] {}, { unit := 0x010 }, _, _, _, _, _, _, _, _, _, _, wcode (wword16 [112, 0, 0, 0, 1, 0, 2, 0, 0, 3, 4, 255, 255, 0, 20]) (wsT 1 [wd32, wq32, warena, wtable, wseqc] {}), ⟨⟨all4 (by decide +kernel) (okOf (by decide +kernel)), rfl, rfl⟩, all2 (by decide +kernel) ⟨okVal3 (by decide +kernel), okVal (by decide +kernel), rfl, rfl, by decide +kernel, okVal (by decide +kernel), pairOf (by decide +kernel)⟩⟩⟩

theorem wit_AttentionAndCodecInstructionsComplete_2 : ∃ (e : Eng) (w : W128) (r : Run) (g : EngRun) (c : Ctx) (t : State) (s : State), s.instrAt e w 0x71 r g c t ∧ c.ringBarred t w = false ∧ (allAbsent w && decide (wmods w = 0) && decide (wbyte w 8 = 0) && wzero w 15 15) = true ∧ wbyte w 13 ≤ 16 ∧ wbyte w 14 ≤ 16 :=
  ⟨weng, wword16 [113, 0, 128, 0, 128, 0, 128], wrunT 1 [] {}, { unit := 0x010 }, _, _, wcode (wword16 [113, 0, 128, 0, 128, 0, 128]) (wsT 1 [] {}), ⟨⟨all4 (by decide +kernel) (okOf (by decide +kernel)), rfl, rfl⟩, by decide +kernel⟩⟩

theorem wit_AttentionAndCodecInstructionsComplete_3 : ∃ (e : Eng) (w : W128) (chk : EngCheck) (r : Run) (g : EngRun) (c : Ctx) (t u : State) (x : Att) (v : State) (rs : Writes) (s : State), s.instrAt e w 0x72 r g c t ∧ c.ringBarred t w = false ∧ checks123 c.r.cmd attShape w ((decide (wmods w = 0) || decide (wmods w = 4)) && wzero w 9 15) = none ∧ mergeOk (decide (wmods w = 4)) (c.dst w) (c.srcA w) (c.srcB w) = true ∧ x = { f := parseFmt 0, d := c.dst w, q := c.srcA w, up := none, init := none, causal := false, partial_ := decide (wmods w = 4), dv := (c.srcA w).ext 0 - 2 } ∧ v = (t.moved c true ((c.srcA w).wholeRows (c.bandRows (c.dst w)) ++ (c.srcB w).wholeRows (c.bandRows (c.dst w)))).ateCorrected c chk ∧ v.ateCheck c chk = none ∧ rowWrites (fun i => match t.attInit c.cl { x with init := some (c.srcA w) } i, t.attInit c.cl { x with init := some (c.srcB w) } i with | .ok p, .ok q => .ok (x.store c i (mergeStates c.rho p q)) | .error n, _ => .error n | _, .error n => .error n) (c.bandRows (c.dst w)) = .ok rs ∧ v.doWrites c c.g.unit rs = (u, none) :=
  ⟨weng, wword16 [114, 4, 0, 0, 1, 0, 2], .pass, wrunT 1 [wcard 0 9 0 0 [3, 1] 12, wcard 64 9 0 0 [3, 1] 12, wcard 128 9 0 0 [3, 1] 12] {}, { unit := 0x010 }, _, _, _, _, _, _, wcode (wword16 [114, 4, 0, 0, 1, 0, 2]) (wsT 1 [wcard 0 9 0 0 [3, 1] 12, wcard 64 9 0 0 [3, 1] 12, wcard 128 9 0 0 [3, 1] 12] {}), ⟨⟨all4 (by decide +kernel) (okOf (by decide +kernel)), rfl, rfl⟩, all3 (by decide +kernel) ⟨rfl, rfl, by decide +kernel, okVal (by decide +kernel), pairOf (by decide +kernel)⟩⟩⟩

theorem wit_AttentionAndCodecInstructionsComplete_4 : ∃ (e : Eng) (w : W128) (chk : EngCheck) (r : Run) (g : EngRun) (c : Ctx) (t u : State) (x : Att) (p : PassDesc) (hs : List HomeState) (rows : List Ix) (st : RingStep) (home : List Nat) (srcs : List (Nat × BlkHdr × Bool)) (pages : List (Nat × Nat)) (skipped : Nat) (v : State) (rs : Writes) (s : State), s.instrAt e w 0x73 r g c t ∧ c.ringBarred t w = false ∧ checks123 c.r.cmd attShape w (decide (wmods w < 8) && wzero w 15 15) = none ∧ t.ringOps c w = .ok (x, p) ∧ t.homeStates c.cl p = .ok hs ∧ (hs.map HomeState.count).foldl (· + ·) 0 ≤ 16777216 ∧ rows = c.bandRows x.d ∧ (st = t.settleBlocks c.cl (c.srcB w).base p x.causal (wlong w 9 + (rows.map fun i => (ixAt i 2).toNat).foldl max 0) (!rows.isEmpty) hs (natRange 0 p.parts) c.g.homeBlocks) ∧ st = .done home ∧ (srcs = t.ringSources c.cl (c.srcB w).base p x.causal (wlong w 9 + (rows.map fun i => (ixAt i 2).toNat).foldl max 0) (!rows.isEmpty) hs home) ∧ (x.ringVisits (wlong w 9) rows (srcs.map fun q => (q.1, q.2.1)) = (pages, skipped)) ∧ (v = (((((t.moved c true (x.reads rows ++ [((c.srcB w).base, 64), (p.homeTable, 16 * p.parts)] ++ (srcs.map fun q => (q.1, 256)) ++ pages)).count c.r.die c.g.unit 0x40 pages.length (some c.cl)).count c.r.die c.g.unit 0x41 skipped (some c.cl)).count c.r.die c.g.unit 0x42 (srcs.filter fun q => q.2.2).length (some c.cl)).count c.r.die c.g.unit 0x43 (srcs.filter fun q => !q.2.2).length (some c.cl)).ateCorrected c chk) ∧ v.ateCheck c chk = none ∧ (rowWrites (t.ringRow c x (wlong w 9) (srcs.map fun q => (q.1, q.2.1))) rows = .ok rs) ∧ v.doWrites c c.g.unit rs = (u, none) :=
  ⟨weng, wword16 [115, 0, 0, 0, 1, 0, 2, 0, 0, 0, 0, 0, 0, 255, 255], .pass, wrunT 1 [wd32, wq32, wpassc] {}, { unit := 0x010 }, _, _, _, wattX, wpassd, (whomes (.ready 0xC00000040100 (parseBlk (whome 1)))), _, _, [], [], [], 0, _, _, wcode (wword16 [115, 0, 0, 0, 1, 0, 2, 0, 0, 0, 0, 0, 0, 255, 255]) (wsRing), ⟨⟨all4 (by decide +kernel) (okOf (by decide +kernel)), rfl, rfl⟩, all2 (by decide +kernel) ⟨okOf (by decide +kernel), okOf (by decide +kernel), by decide +kernel, rfl, rfl, all3 (by decide +kernel) ⟨rfl, by decide +kernel, okVal (by decide +kernel), pairOf (by decide +kernel)⟩⟩⟩⟩

theorem wit_AttentionAndCodecInstructionsComplete_5 : ∃ (e : Eng) (w : W128) (chk : EngCheck) (r : Run) (g : EngRun) (c : Ctx) (t : State) (x : Att) (p : PassDesc) (hs : List HomeState) (rows : List Ix) (st : RingStep) (k : Nat) (home : List Nat) (s : State), s.instrAt e w 0x73 r g c t ∧ c.ringBarred t w = false ∧ checks123 c.r.cmd attShape w (decide (wmods w < 8) && wzero w 15 15) = none ∧ t.ringOps c w = .ok (x, p) ∧ t.homeStates c.cl p = .ok hs ∧ (hs.map HomeState.count).foldl (· + ·) 0 ≤ 16777216 ∧ rows = c.bandRows x.d ∧ (st = t.settleBlocks c.cl (c.srcB w).base p x.causal (wlong w 9 + (rows.map fun i => (ixAt i 2).toNat).foldl max 0) (!rows.isEmpty) hs (natRange 0 p.parts) c.g.homeBlocks) ∧ ((st = .waitLand k home ∨ st = .waitHome k home)) :=
  ⟨weng, wword16 [115, 0, 0, 0, 1, 0, 2, 0, 0, 0, 0, 0, 0, 255, 255], .pass, wrunT 1 [wd32, wq32, wpassc] {}, { unit := 0x010 }, _, _, wattX, wpassd, (whomes .notReady), _, _, 1, [], wcode (wword16 [115, 0, 0, 0, 1, 0, 2, 0, 0, 0, 0, 0, 0, 255, 255]) (wdev (wput (wsT 1 [wd32, wq32, wpassc] {}) wpmem2)), ⟨⟨all4 (by decide +kernel) (okOf (by decide +kernel)), rfl, rfl⟩, all2 (by decide +kernel) ⟨okOf (by decide +kernel), okOf (by decide +kernel), by decide +kernel, rfl, rfl, Or.inl (by decide +kernel)⟩⟩⟩

theorem wit_AttentionAndCodecInstructionsComplete_6 : ∃ (e : Eng) (w : W128) (chk : EngCheck) (r : Run) (g : EngRun) (c : Ctx) (t u : State) (x : Append) (lo hi : Nat) (seqs : List Nat) (rd : Card → List (Nat × Nat)) (v : State) (ws : List Writes) (s : State), s.instrAt e w 0x74 r g c t ∧ c.ringBarred t w = false ∧ checks123 c.r.cmd ⟨.required, .required, .optional, false⟩ w (decide (wmods w = 0) && wzero w 15 15) = none ∧ t.appendOps c w = .ok x ∧ band x.ws.length 1 c.width c.pos = (lo, hi) ∧ seqs = natRange lo (hi - lo) ∧ (rd = (fun k : Card => seqs.flatMap fun i => (natRange 0 (x.ws.getD i ⟨0, 0, 0⟩).qpos).map fun (j : Nat) => (k.rowAddr [0, Int.ofNat j, Int.ofNat i, 0, 0], k.rowBytes))) ∧ (v = (t.moved c true (rd x.lat ++ (match x.pos with | some k => rd k | none => []) ++ (match c.immCard (wbyte w 10) with | .ok (some k) => k.wholeRows ((natRange 0 x.ws.length).map fun (i : Nat) => [0, Int.ofNat i, 0, 0, 0]) | _ => []) ++ [(x.free.base + 4 * below SeqWords.newPages x.ws lo, 4 * (seqs.map fun i => ((x.ws.getD i ⟨0, 0, 0⟩).newPages).length).foldl (· + ·) 0)] ++ seqs.flatMap fun i => ((x.ws.getD i ⟨0, 0, 0⟩).touched.filter fun n => decide (16 * n < (x.ws.getD i ⟨0, 0, 0⟩).len)).map fun n => (entryAddr x.table n i, 8))).ateCorrected c chk) ∧ v.ateCheck c chk = none ∧ tryMap (t.appendSeq c x) seqs = .ok ws ∧ v.doWrites c c.g.unit (joinWrites ws) = (u, none) :=
  ⟨weng, wword16 [116, 0, 0, 0, 1, 0, 128, 0, 0, 2, 3, 4, 0, 20], .pass, wrunT 1 [warena, wcard 0x3200 7 0 0 [32, 1, 1] 64, wtable, wseqc, wcard 0x3100 10 0 0 [4] 16] {}, { unit := 0x010 }, _, _, _, _, _, _, _, _, _, _, wcode (wword16 [116, 0, 0, 0, 1, 0, 128, 0, 0, 2, 3, 4, 0, 20]) (wsT 1 [warena, wcard 0x3200 7 0 0 [32, 1, 1] 64, wtable, wseqc, wcard 0x3100 10 0 0 [4] 16] {}), ⟨⟨all4 (by decide +kernel) (okOf (by decide +kernel)), rfl, rfl⟩, all2 (by decide +kernel) ⟨okVal (by decide +kernel), rfl, rfl, rfl, rfl, by decide +kernel, okVal (by decide +kernel), pairOf (by decide +kernel)⟩⟩⟩

theorem wit_AttentionAndCodecInstructionsComplete_7 : ∃ (e : Eng) (w : W128) (r : Run) (g : EngRun) (c : Ctx) (t u : State) (p : PassDesc) (table : Card) (n : Nat) (pages : List (List Byte)) (s : State), s.instrAt e w 0x20 r g c t ∧ checks123 c.r.cmd moverShape2 w (decide (wmods w = 0) && wzero w 15 15) = none ∧ c.pos = 0 ∧ t.packOps c w (wword w 10) (wlong w 12 % 16777216) = .ok (p, table) ∧ n = ceilDiv (wlong w 12 % 16777216) 16 ∧ tryMap (t.packPage c.cl (parseFmt p.fmt) (c.srcA w) table (wword w 10) (wlong w 12 % 16777216)) (natRange 0 n) = .ok pages ∧ ((t.moved c true (t.packReads c.cl (parseFmt p.fmt) (c.srcA w) table (wword w 10) n ++ [((c.srcB w).base, 64)])).doWrites c c.g.unit { items := ((c.dst w).base, blkHeader p (wlong w 12 % 16777216)) :: (natRange 0 n).map fun k => ((c.dst w).base + 256 + k * (parseFmt p.fmt).slot, pages.getD k []) } = (u, none)) :=
  ⟨weng, wword16 [32, 0, 0, 0, 1, 0, 2, 0, 0, 3, 0, 0, 1], wrunT 5 [wblkc, warena, wpassc, wtable] {}, { unit := 0x040 }, _, _, _, _, _, _, _, wcode (wword16 [32, 0, 0, 0, 1, 0, 2, 0, 0, 3, 0, 0, 1]) (wdev (wput (wsT 5 [wblkc, warena, wpassc, wtable] {}) wpmem)), ⟨⟨all4 (by decide +kernel) (okOf (by decide +kernel)), rfl, rfl⟩, all2 (by decide +kernel) ⟨okVal2 (by decide +kernel), rfl, okVal (by decide +kernel), pairOf (by decide +kernel)⟩⟩⟩

theorem wit_AttentionAndCodecInstructionsComplete_8 : ∃ (e : Eng) (w : W128) (r : Run) (g : EngRun) (c : Ctx) (t : State) (s : State), s.instrAt e w 0x20 r g c t ∧ checks123 c.r.cmd moverShape2 w (decide (wmods w = 0) && wzero w 15 15) = none ∧ c.pos ≠ 0 :=
  ⟨{ weng with pos := 1 }, wword16 [32, 0, 0, 0, 1, 0, 2, 0, 0, 3, 0, 0, 1], wrunP, { unit := 0x041 }, _, _, wcode (wword16 [32, 0, 0, 0, 1, 0, 2, 0, 0, 3, 0, 0, 1]) ({ (wsT 5 [wblkc, warena, wpassc, wtable] {}) with runs := [wrunP] }), ⟨⟨all4 (by decide +kernel) (okOf (by decide +kernel)), rfl, rfl⟩, by decide +kernel⟩⟩

theorem wit_AttentionAndCodecInstructionsComplete_9 : ∃ (e : Eng) (w : W128) (r : Run) (g : EngRun) (c : Ctx) (t : State) (p : PassDesc) (s : State), s.instrAt e w 0x21 r g c t ∧ checks123 c.r.cmd ⟨.unused, .required, .required, false⟩ w (decide (wmods w = 0) && wzero w 9 15) = none ∧ c.pos = 0 ∧ t.passCard (c.srcB w) = true ∧ byteCard (c.srcA w) 1 = true ∧ (c.srcA w).cls = 5 ∧ t.readPass c.cl (c.srcB w).base = .ok p ∧ t.logicUp p.relayDie = true :=
  ⟨weng, wword16 [33, 0, 128, 0, 1, 0, 2], wrunT 5 [wv4, wblkc, wpassc] {}, { unit := 0x040 }, _, _, _, wcode (wword16 [33, 0, 128, 0, 1, 0, 2]) (wdev (wup (wput (wsT 5 [wv4, wblkc, wpassc] {}) wpmem))), ⟨⟨all4 (by decide +kernel) (okOf (by decide +kernel)), rfl, rfl⟩, all4 (by decide +kernel) ⟨by decide +kernel, okVal (by decide +kernel), by decide +kernel⟩⟩⟩

theorem wit_AttentionAndCodecInstructionsComplete_10 : ∃ (e : Eng) (w : W128) (r : Run) (g : EngRun) (c : Ctx) (t : State) (p : PassDesc) (s : State), s.instrAt e w 0x21 r g c t ∧ checks123 c.r.cmd ⟨.unused, .required, .required, false⟩ w (decide (wmods w = 0) && wzero w 9 15) = none ∧ c.pos = 0 ∧ t.passCard (c.srcB w) = true ∧ byteCard (c.srcA w) 1 = true ∧ (c.srcA w).cls = 5 ∧ t.readPass c.cl (c.srcB w).base = .ok p ∧ t.logicUp p.relayDie = false :=
  ⟨weng, wword16 [33, 0, 128, 0, 1, 0, 2], wrunT 5 [wv4, wblkc, wpassc] {}, { unit := 0x040 }, _, _, _, wcode (wword16 [33, 0, 128, 0, 1, 0, 2]) ((wdev (wput (wsT 5 [wv4, wblkc, wpassc] {}) wpmem)).store (dramKey 0 0x200007) [1]), ⟨⟨all4 (by decide +kernel) (okOf (by decide +kernel)), rfl, rfl⟩, all4 (by decide +kernel) ⟨by decide +kernel, okVal (by decide +kernel), by decide +kernel⟩⟩⟩

theorem wit_AttentionAndCodecInstructionsComplete_11 : ∃ (e : Eng) (w : W128) (r : Run) (g : EngRun) (c : Ctx) (t : State) (s : State), s.instrAt e w 0x21 r g c t ∧ checks123 c.r.cmd ⟨.unused, .required, .required, false⟩ w (decide (wmods w = 0) && wzero w 9 15) = none ∧ c.pos ≠ 0 :=
  ⟨{ weng with pos := 1 }, wword16 [33, 0, 128, 0, 1, 0, 2], wrunP2, { unit := 0x041 }, _, _, wcode (wword16 [33, 0, 128, 0, 1, 0, 2]) ({ (wsT 5 [wv4, wblkc, wpassc] {}) with runs := [wrunP2] }), ⟨⟨all4 (by decide +kernel) (okOf (by decide +kernel)), rfl, rfl⟩, by decide +kernel⟩⟩

theorem wit_AttentionAndCodecInstructionsComplete_12 : ∃ (e : Eng) (w : W128) (chk : EngCheck) (r : Run) (g : EngRun) (c : Ctx) (t u : State) (em : Ember) (qs : List Nat) (rd : EmRead) (s : State), s.instrAt e w 0x98 r g c t ∧ c.ringBarred t w = false ∧ checks123 c.r.cmd moverShape1 w (decide (wmods w = 0) && wzero w 9 15) = none ∧ ((c.srcA w).emberOk && !(c.dst w).ember && sameExt (c.dst w) (c.srcA w)) = true ∧ t.openEmber c.cl (c.srcA w) = .ok em ∧ (lossless (c.dst w) em || scaledForm (c.dst w)) = true ∧ unitCheck (t.flag (Fld.CDC_CTRL_check_enable c.r.die c.num)) false 0x0C07 0x0C07 chk = none ∧ qs = em.bandBlocks c (c.dst w) (c.bandRows (c.dst w)) ∧ t.emRead c.cl em false [] qs = .ok rd ∧ ((t.moved c true (em.blockRanges qs)).count c.r.die c.g.unit 0x40 qs.length (some c.cl)).doWrites c c.g.unit (joinWrites ((c.bandRows (c.dst w)).map (rd.decodeCol c (c.dst w) (c.rowLen (c.dst w))))) = (u, none) :=
  ⟨weng, wword16 [152, 0, 0, 0, 1, 0, 128], .pass, wrunT 4 [wcard 0x4000 9 0 0 [4, 1] 16, wemc] {}, { unit := 0x030 }, _, _, _, wemR, _, _, wcode (wword16 [152, 0, 0, 0, 1, 0, 128]) (wput (wsT 4 [wcard 0x4000 9 0 0 [4, 1] 16, wemc] {}) ((0, wstream) :: wemem)), ⟨⟨all4 (by decide +kernel) (okOf (by decide +kernel)), rfl, rfl⟩, all3 (by decide +kernel) ⟨okOf (by decide +kernel), all2 (by decide +kernel) ⟨rfl, okVal (by decide +kernel), pairOf (by decide +kernel)⟩⟩⟩⟩

theorem wit_AttentionAndCodecInstructionsComplete_13 : ∃ (e : Eng) (w : W128) (chk : EngCheck) (r : Run) (g : EngRun) (c : Ctx) (t u : State) (m : Nat) (z : Int) (map : Card) (st : EmSet) (pairs : List (Nat × Nat)) (h : EmHdr) (ws : Writes) (s : State), s.instrAt e w 0x99 r g c t ∧ c.ringBarred t w = false ∧ checks123 c.r.cmd moverShape2 w (decide (wmods w = 0)) = none ∧ c.immCards [wbyte w 9] = .ok [some map] ∧ ((c.dst w).emberOk && !(c.srcA w).ember && sameExt (c.dst w) (c.srcA w) && [7, 8, 9].contains (c.srcA w).typ && decide ((c.srcA w).scaleType = 0) && decide ((c.srcB w).typ = 4) && decide ((c.srcB w).base = (c.dst w).scaleBase)) = true ∧ (decide (map.typ = 4) && !map.ember && extIs map [2, ceilDiv ((c.dst w).ext 1) 128, (c.dst w).ext 2]) = true ∧ num32 (wlong w 12) = .fin false m z ∧ m ≠ 0 ∧ t.openSet c.cl (c.dst w).scaleBase = .ok st ∧ t.cbMap c.cl map = .ok pairs ∧ encodeHdr (c.dst w) st pairs (wword w 10) = some h ∧ streamRoom (c.dst w) h = true ∧ unitCheck (t.flag (Fld.CDC_CTRL_check_enable c.r.die c.num)) false 0x0C07 0x0C07 chk = none ∧ rowWrites (t.encodeCol c ⟨c.dst w, h, st.books⟩ (c.srcA w) map pairs (num32 (wlong w 12))) (c.bandRows (c.dst w)) = .ok ws ∧ (((t.moved c true ((c.srcA w).rowRanges (c.rowLen (c.dst w)) (c.bandRows (c.dst w)))).count c.r.die c.g.unit 0x41 ws.items.length (some c.cl)).doWrites c c.g.unit ((if c.pos = 0 then { items := [((c.dst w).base, h.bytes (c.dst w))] } else ({} : Writes)).append ws) = (u, none)) :=
  ⟨weng, wencW, .pass, wrunT 4 wemcs {}, { unit := 0x030 }, _, _, _, 8388608, (-23), wemMap, _, _, _, _, wcode (wencW) (wput (wsT 4 wemcs {}) wemem), ⟨⟨all4 (by decide +kernel) (okOf (by decide +kernel)), rfl, rfl⟩, all2 (by decide +kernel) ⟨okOf (by decide +kernel), all4 (by decide +kernel) ⟨okVal (by decide +kernel), okVal (by decide +kernel), someVal (by decide +kernel), all2 (by decide +kernel) ⟨okVal (by decide +kernel), pairOf (by decide +kernel)⟩⟩⟩⟩⟩

theorem wit_AttentionAndCodecInstructionsComplete_14 : ∃ (e : Eng) (w : W128) (chk : EngCheck) (r : Run) (g : EngRun) (c : Ctx) (t u : State) (em : Ember) (same : Bool) (qs : List Nat) (raws : List (Nat × List Byte)) (nonce : Nat) (o : Ember) (s : State), s.instrAt e w 0x9A r g c t ∧ c.ringBarred t w = false ∧ checks123 c.r.cmd moverShape1 w (decide (wmods w ≤ 1) && decide (wrnd w = 0) && wzero w 9 11 && (decide (wmods w = 1) || decide (wlong w 12 = 0))) = none ∧ ((c.dst w).emberOk && (c.srcA w).emberOk && sameExt (c.dst w) (c.srcA w) && decide ((c.dst w).scaleBase = (c.srcA w).scaleBase) && decide ((c.dst w).scaleType = (c.srcA w).scaleType) && decide ((c.dst w).group = (c.srcA w).group)) = true ∧ t.openEmber c.cl (c.srcA w) = .ok em ∧ streamRoom (c.dst w) em.h = true ∧ same = (em.h.compat == decide (wmods w = 1)) ∧ (qs = (c.bandRows (c.dst w)).flatMap fun i => (em.ownBlocks c (c.dst w) i).map fun kb => em.blockNo kb (ixAt i 1).toNat (ixAt i 2).toNat) ∧ tryMap (fun q => match t.emRaw c.cl em q with | .ok b => .ok (q, b) | .error n => .error n) qs = .ok raws ∧ em.groupsOk raws [] = true ∧ ((same = true ∨ (mapFind t.keys.compatKeys c.cl).isSome = true)) ∧ unitCheck (t.flag (Fld.CDC_CTRL_check_enable c.r.die c.num)) false 0x0C07 0x0C07 chk = none ∧ (nonce = (if same then em.h.nonce else if wmods w = 1 then wlong w 12 else em.h.nonce)) ∧ (o = ⟨c.dst w, { em.h with compat := decide (wmods w = 1), nonce := if wmods w = 1 then nonce else 0 }, em.books⟩) ∧ ((t.moved c true (em.blockRanges qs)).doWrites c c.g.unit { items := (if c.pos = 0 then [((c.dst w).base, o.h.bytes (c.dst w))] else []) ++ raws.map fun (q, b) => (o.blockAddr q, if same then b else em.rewrap (t.compatKey c.cl) nonce q b) } = (u, none)) :=
  ⟨weng, wword16 [154, 0, 0, 0, 1, 0, 128], .pass, wrunT 4 [{ wemc with base := 0xC00000005000 }, wemc] {}, { unit := 0x030 }, _, _, _, wemR, true, [0], [(0, wblk0)], 0, { wemR with card := { wemc with base := 0xC00000005000 } }, wcode (wword16 [154, 0, 0, 0, 1, 0, 128]) (wput (wsT 4 [{ wemc with base := 0xC00000005000 }, wemc] {}) ((0, wstream) :: wemem)), ⟨⟨all4 (by decide +kernel) (okOf (by decide +kernel)), rfl, rfl⟩, all3 (by decide +kernel) ⟨okOf (by decide +kernel), all3 (by decide +kernel) ⟨okOf (by decide +kernel), all4 (by decide +kernel) ⟨by decide +kernel, pairOf (by decide +kernel)⟩⟩⟩⟩⟩

theorem wit_RelaysPassBlocksOn_1 : ∃ (die : Nat) (o : Offer) (s : State), s.fitted die = true ∧ s.relayStale die o.epoch = true :=
  ⟨0, woffer, State.reset, by decide +kernel⟩

theorem wit_RelaysPassBlocksOn_2 : ∃ (die d : Nat) (o : Offer) (s : State), s.fitted die = true ∧ s.relayStale die o.epoch = false ∧ s.readPass o.client o.descAddr = .error d :=
  ⟨0, 0x0D03, { woffer with descAddr := 3 }, wup wsRing, all2 (by decide +kernel) (errorOf (by decide +kernel))⟩

theorem wit_RelaysPassBlocksOn_3 : ∃ (die : Nat) (o : Offer) (p : PassDesc) (s : State), s.fitted die = true ∧ s.relayStale die o.epoch = false ∧ s.readPass o.client o.descAddr = .ok p ∧ p.passId ≠ o.passId :=
  ⟨0, { woffer with passId := 2 }, wpassd, wup wsRing, all2 (by decide +kernel) ⟨okOf (by decide +kernel), by decide +kernel⟩⟩

theorem wit_RelaysPassBlocksOn_4 : ∃ (die a : Nat) (o : Offer) (p : PassDesc) (s : State), s.fitted die = true ∧ s.relayStale die o.epoch = false ∧ s.readPass o.client o.descAddr = .ok p ∧ p.passId = o.passId ∧ s.slotHolds o.client o.descAddr p o.hop = false ∧ a = s.slotAddr o.descAddr p o.hop ∧ (s.relay die).blocks.any (fun b => decide (b.addr = a) && (b.landing || !b.forwarded)) = true ∧ o.sender < 16 :=
  ⟨0, 0x210400, woffer, wpassd, (wup wsRing).modRelay 0 fun r => { r with blocks := [⟨0, 0x210400, 1, 1, 1, true, false⟩] }, all2 (by decide +kernel) ⟨okOf (by decide +kernel), by decide +kernel⟩⟩

theorem wit_RelaysPassBlocksOn_5 : ∃ (die a : Nat) (o : Offer) (p : PassDesc) (s : State), s.fitted die = true ∧ s.relayStale die o.epoch = false ∧ s.readPass o.client o.descAddr = .ok p ∧ p.passId = o.passId ∧ s.slotHolds o.client o.descAddr p o.hop = false ∧ a = s.slotAddr o.descAddr p o.hop ∧ (s.relay die).blocks.any (fun b => decide (b.addr = a) && (b.landing || !b.forwarded)) = false :=
  ⟨0, 0x210400, woffer, wpassd, wup wsRing, all2 (by decide +kernel) ⟨okOf (by decide +kernel), by decide +kernel⟩⟩

theorem wit_RelaysPassBlocksOn_6 : ∃ (die dst n : Nat) (o : Offer) (p : PassDesc) (h : BlkHdr) (b : List Byte) (s : State), s.fitted die = true ∧ s.logicUp die = true ∧ die < 16 ∧ s.readPass o.client o.descAddr = .ok p ∧ s.relayOf (s.pkgOf o.descAddr) p.relayDie < 16 ∧ dst = s.slotAddr o.descAddr p o.hop ∧ (s.relay (s.relayOf (s.pkgOf o.descAddr) p.relayDie)).blocks.any (fun b => decide (b.addr = dst) && decide (b.hop = o.hop) && decide (b.passId = o.passId) && b.landing) = true ∧ s.readBlk o.client o.srcAddr = .ok h ∧ n = min p.blockBytes (blkBytes (parseFmt h.fmt) h.count) ∧ s.cread o.client o.srcAddr n = .ok b :=
  ⟨0, 0x210400, 256, woffer, wpassd, parseBlk (whome 0), whome 0, (wup wsRing).modRelay 0 fun r => { r with blocks := [⟨0, 0x210400, 1, 0, 1, true, false⟩] }, all3 (by decide +kernel) ⟨okOf (by decide +kernel), all3 (by decide +kernel) ⟨okOf (by decide +kernel), by decide +kernel, okOf (by decide +kernel)⟩⟩⟩

theorem wit_RelaysPassBlocksOn_7 : ∃ (die t : Nat) (o o1 : Offer) (s : State), s.fitted die = true ∧ s.logicUp die = true ∧ (s.relay die).repeats.find? (fun x => sameOffer x.1 o) = some (o1, t) ∧ s.passedUs t 1 = true :=
  ⟨0, 0, woffer, woffer, { (wup wsRing).modRelay 0 (fun r => { r with repeats := [(woffer, 0)] }) with tb := 1000 }, by decide +kernel⟩

theorem wit_RelaysPassBlocksOn_8 : ∃ (die epoch n t : Nat) (o : Offer) (notice : Bool) (p : PassDesc) (rest : Relay → List (Offer × Bool × Nat × Nat)) (s0 s : State), s.fitted die = true ∧ s.logicUp die = true ∧ (s.relay die).tries.find? (fun x => sameOffer x.1 o && decide (x.2.1 = notice)) = some (o, notice, n, t) ∧ s.passedUs t 1 = true ∧ s.readPass o.client o.descAddr = .ok p ∧ s0 = { s with known := mapSet s.known (dieUnit (s.relayOf (s.pkgOf o.descAddr) p.relayDie)) (epoch % 65536) } ∧ (rest = (fun r : Relay => r.tries.filter fun x => !(sameOffer x.1 o && decide (x.2.1 = notice)))) ∧ n < 4 :=
  ⟨0, 5, 3, 0, woffer, false, wpassd, _, _, { (wup wsRing).modRelay 0 (fun r => { r with tries := [(woffer, false, 3, 0)] }) with tb := 1000 }, all4 (by decide +kernel) ⟨okOf (by decide +kernel), rfl, rfl, by decide +kernel⟩⟩

theorem wit_RelaysPassBlocksOn_9 : ∃ (die epoch n t : Nat) (o : Offer) (notice : Bool) (p : PassDesc) (rest : Relay → List (Offer × Bool × Nat × Nat)) (s0 s : State), s.fitted die = true ∧ s.logicUp die = true ∧ (s.relay die).tries.find? (fun x => sameOffer x.1 o && decide (x.2.1 = notice)) = some (o, notice, n, t) ∧ s.passedUs t 1 = true ∧ s.readPass o.client o.descAddr = .ok p ∧ s0 = { s with known := mapSet s.known (dieUnit (s.relayOf (s.pkgOf o.descAddr) p.relayDie)) (epoch % 65536) } ∧ (rest = (fun r : Relay => r.tries.filter fun x => !(sameOffer x.1 o && decide (x.2.1 = notice)))) ∧ 4 ≤ n :=
  ⟨0, 5, 4, 0, woffer, false, wpassd, _, _, { (wup wsRing).modRelay 0 (fun r => { r with tries := [(woffer, false, 4, 0)] }) with tb := 1000 }, all4 (by decide +kernel) ⟨okOf (by decide +kernel), rfl, rfl, by decide +kernel⟩⟩

theorem wit_RelaysPassBlocksOn_10 : ∃ (die : Nat) (p : PassDesc) (o : Offer) (s s1 : State), s1 = s.setFlag (Fld.MOV_RELAY_STATUS_skips_seen die) true :=
  ⟨0, wpassd, woffer, State.reset, State.reset.setFlag (Fld.MOV_RELAY_STATUS_skips_seen 0) true, rfl⟩

theorem wit_RelaysPassBlocksOn_11 : ∃ (e : Eng) (k limit since : Nat) (r : Run) (g : EngRun) (s : State), s.engOf e = some (r, g) ∧ g.stall = .landing k limit since ∧ s.passedUs since limit = true :=
  ⟨weng, 1, 10, 0, wrunT 1 [wd32, wq32, wpassc] { stall := .landing 1 10 0 }, { unit := 0x010, stall := .landing 1 10 0 }, { wsT 1 [wd32, wq32, wpassc] { stall := .landing 1 10 0 } with tb := 100000 }, by decide +kernel⟩

theorem wit_RelaysPassBlocksOn_12 : ∃ (e : Eng) (k limit since last a : Nat) (w : W128) (p : PassDesc) (b : BlkHdr) (r : Run) (g : EngRun) (s : State), s.engOf e = some (r, g) ∧ g.stall = .home k limit since last ∧ g.ringWord = some w ∧ s.passedUs last 10 = true ∧ s.readPass r.client (r.cmd.cards.getD (wsrcB w).card {}).base = .ok p ∧ s.homeState r.client p k = .ok (.ready a b) :=
  ⟨weng, 1, 10, 0, 0, 0xC00000040100, wword16 [115, 0, 0, 0, 1, 0, 2, 0, 0, 0, 0, 0, 0, 255, 255], wpassd, parseBlk (whome 1), wrunT 1 [wd32, wq32, wpassc] { stall := .home 1 10 0 0, ringWord := some (wword16 [115, 0, 0, 0, 1, 0, 2, 0, 0, 0, 0, 0, 0, 255, 255]) }, { unit := 0x010, stall := .home 1 10 0 0, ringWord := some (wword16 [115, 0, 0, 0, 1, 0, 2, 0, 0, 0, 0, 0, 0, 255, 255]) }, { wdev (wput (wsT 1 [wd32, wq32, wpassc] { stall := .home 1 10 0 0, ringWord := some (wword16 [115, 0, 0, 0, 1, 0, 2, 0, 0, 0, 0, 0, 0, 255, 255]) }) wpmem) with tb := 100000 }, all4 (by decide +kernel) ⟨okOf (by decide +kernel), okOf (by decide +kernel)⟩⟩

theorem wit_RelaysPassBlocksOn_13 : ∃ (e : Eng) (k limit since last : Nat) (w : W128) (p : PassDesc) (r : Run) (g : EngRun) (s : State), s.engOf e = some (r, g) ∧ g.stall = .home k limit since last ∧ g.ringWord = some w ∧ s.passedUs last 10 = true ∧ s.readPass r.client (r.cmd.cards.getD (wsrcB w).card {}).base = .ok p ∧ s.homeState r.client p k = .ok .notReady :=
  ⟨weng, 1, 10, 0, 0, wword16 [115, 0, 0, 0, 1, 0, 2, 0, 0, 0, 0, 0, 0, 255, 255], wpassd, wrunT 1 [wd32, wq32, wpassc] { stall := .home 1 10 0 0, ringWord := some (wword16 [115, 0, 0, 0, 1, 0, 2, 0, 0, 0, 0, 0, 0, 255, 255]) }, { unit := 0x010, stall := .home 1 10 0 0, ringWord := some (wword16 [115, 0, 0, 0, 1, 0, 2, 0, 0, 0, 0, 0, 0, 255, 255]) }, { wdev (wput (wsT 1 [wd32, wq32, wpassc] { stall := .home 1 10 0 0, ringWord := some (wword16 [115, 0, 0, 0, 1, 0, 2, 0, 0, 0, 0, 0, 0, 255, 255]) }) wpmem2) with tb := 100000 }, all4 (by decide +kernel) ⟨okOf (by decide +kernel), okOf (by decide +kernel)⟩⟩

theorem wit_RelaysPassBlocksOn_14 : ∃ (e : Eng) (k limit since last : Nat) (w : W128) (p : PassDesc) (r : Run) (g : EngRun) (s : State), s.engOf e = some (r, g) ∧ g.stall = .home k limit since last ∧ g.ringWord = some w ∧ s.passedUs last 10 = true ∧ s.readPass r.client (r.cmd.cards.getD (wsrcB w).card {}).base = .ok p ∧ s.homeState r.client p k = .ok .unreachable :=
  ⟨weng, 1, 10, 0, 0, wword16 [115, 0, 0, 0, 1, 0, 2, 0, 0, 0, 0, 0, 0, 255, 255], wpassd, wrunT 1 [wd32, wq32, wpassc] { stall := .home 1 10 0 0, ringWord := some (wword16 [115, 0, 0, 0, 1, 0, 2, 0, 0, 0, 0, 0, 0, 255, 255]) }, { unit := 0x010, stall := .home 1 10 0 0, ringWord := some (wword16 [115, 0, 0, 0, 1, 0, 2, 0, 0, 0, 0, 0, 0, 255, 255]) }, { wdev (wput (wsT 1 [wd32, wq32, wpassc] { stall := .home 1 10 0 0, ringWord := some (wword16 [115, 0, 0, 0, 1, 0, 2, 0, 0, 0, 0, 0, 0, 255, 255]) }) wpmem3) with tb := 100000 }, all4 (by decide +kernel) ⟨okOf (by decide +kernel), okOf (by decide +kernel)⟩⟩

theorem wit_DiesLeaveAndReturnToService_1 : ∃ (die : Nat) (s : State), s.fitted die = true ∧ s.logicState die = logicReady ∧ (s.dieSt die).gate = true :=
  ⟨0, wsUp, by decide +kernel⟩

theorem wit_DiesLeaveAndReturnToService_2 : ∃ (die t0 : Nat) (s1 s : State), (s.dieSt die).drainAt = some t0 ∧ s.logicState die = logicDraining ∧ s.passedUs t0 10000 = true ∧ s1 = forEach (s.liveRuns die) s (fun r t => match t.run? die r.entry with | some x => t.preempt x | none => t) :=
  ⟨0, 0, _, { dieDrain 0 wsUp with tb := 1000000000 }, all3 (by decide +kernel) (rfl)⟩

theorem wit_DiesLeaveAndReturnToService_3 : ∃ (die : Nat) (s : State), s.fitted die = true ∧ s.drained die = true :=
  ⟨0, wsDrained, by decide +kernel⟩

theorem wit_DiesLeaveAndReturnToService_4 : ∃ (die : Nat) (s : State), s.fitted die = true ∧ (s.dieSt die).islandFailed = false ∧ s.drained die = false ∧ (s.dieSt die).gate = false ∧ ((s.dieSt die).loggedOff = true ∨ s.flag (Fld.CFR_STATUS_held_out die) = true) :=
  ⟨0, wsLoggedOff, all4 (by decide +kernel) (Or.inl (by decide +kernel))⟩

theorem wit_DiesLeaveAndReturnToService_5 : ∃ (die : Nat) (s1 s : State), s.fitted die = true ∧ (s.dieSt die).islandFailed = false ∧ s.drained die = true ∧ s1 = s.closeGate die false :=
  ⟨0, _, wsDrained, all3 (by decide +kernel) (rfl)⟩

theorem wit_DiesLeaveAndReturnToService_6 : ∃ (die cause : Nat) (s : State), s.fitted die = true ∧ (s.dieSt die).gate = true ∧ 1 ≤ cause ∧ cause ≤ 7 :=
  ⟨0, 2, wsRun 5 0 0, by decide +kernel⟩

theorem wit_DiesLeaveAndReturnToService_7 : ∃ (die : Nat) (pass : W32) (s1 s2 s : State), s.fitted die = true ∧ (s.dieSt die).gate = false ∧ (s.dieSt die).islandFailed = false ∧ (s.dieSt die).loggedOff = false ∧ (s.dieSt die).thermalOut = false ∧ s.flag (Fld.CFR_STATUS_held_out die) = false ∧ s.saf.damped = false ∧ s.logicState die = logicSelftest ∧ s1 = (s.startEngines die).dieMap die pass ∧ (s1.dieSt die).startFailed = false ∧ s2 = (s1.setFld (Fld.CDG_STATUS_logic_state die) logicReady).setFlag (Fld.CPC_STATUS_logic_powered die) true ∧ (s.dieSt die).takeoutAt = [] :=
  ⟨0, 0xFFFFFFFF#32, _, _, wsSelftest, all4 (by decide +kernel) (all4 (by decide +kernel) ⟨rfl, by decide +kernel, rfl, by decide +kernel⟩)⟩

theorem wit_DiesLeaveAndReturnToService_8 : ∃ (die : Nat) (pass : W32) (s1 s : State), s.fitted die = true ∧ (s.dieSt die).gate = false ∧ (s.dieSt die).islandFailed = false ∧ (s.dieSt die).loggedOff = false ∧ (s.dieSt die).thermalOut = false ∧ s.flag (Fld.CFR_STATUS_held_out die) = false ∧ s.saf.damped = false ∧ s.logicState die = logicSelftest ∧ s1 = (s.startEngines die).dieMap die pass ∧ (s1.dieSt die).startFailed = true :=
  ⟨0, 0#32, _, wsSelftest, all4 (by decide +kernel) (all4 (by decide +kernel) ⟨rfl, by decide +kernel⟩)⟩

theorem wit_DiesLeaveAndReturnToService_9 : ∃ (die : Nat) (s1 s2 s : State), s.fitted die = true ∧ (s.dieSt die).islandFailed = false ∧ (s1 = ((s.modDie die fun x => { x with islandFailed := true, island := false }).logEvent 2 3 (unitOf hubDie (0x080 + die)) 0).setFlag (Fld.CDG_STATUS_island_up die) false) ∧ (s1.dieSt die).gate = true ∧ (s2 = forEach [0x080, 0x081, 0x082] (s1.takeOutDie die 6 true) fun e t => t.linkDown (unitOf die e)) :=
  ⟨0, _, _, wsUp, all2 (by decide +kernel) ⟨rfl, by decide +kernel, rfl⟩⟩

theorem wit_DiesLeaveAndReturnToService_10 : ∃ (die : Nat) (s : State), s.fitted die = true ∧ s.power.phase = .run ∧ s.inFlightOn die = false ∧ s.passedUs (s.dieSt die).idleSince (s.fld Fld.PWR_CTRL_idle_us) = true :=
  ⟨0, wsIdleDie, by decide +kernel⟩

theorem wit_PageMapOperations_2 : ∃ (v : W32) (s : State), s.flag Fld.MEM_PAGE_CMD_busy = true :=
  ⟨0, State.reset.setFlag Fld.MEM_PAGE_CMD_busy true, by decide +kernel⟩

theorem wit_PageMapOperations_3 : ∃ (v : W32) (u : Nat → State) (k : Nat → PageCmd) (s : State), s.flag Fld.MEM_PAGE_CMD_busy = false ∧ (∀ op, u op = (((s.setFld Fld.MEM_PAGE_CMD_op op).setFld Fld.MEM_PAGE_CMD_hint_group (bits v.toNat 3 4)).setFld Fld.MEM_PAGE_CMD_hint_valid (bits v.toNat 7 1)).setFld Fld.MEM_PAGE_CMD_client (bits v.toNat 8 12)) ∧ (∀ op, k op = { op := op, first := (u op).fld Fld.MEM_PAGE_FIRST_first, count := (u op).fld Fld.MEM_PAGE_COUNT_count, client := bits v.toNat 8 12, hintGroup := bits v.toNat 3 4, hintValid := bit v.toNat 7, since := s.tb }) :=
  ⟨0, _, _, State.reset, by decide +kernel, fun _ => rfl, fun _ => rfl⟩

theorem wit_PageMapOperations_4 : ∃ (k : PageCmd) (s : State), s.pageCheck k ≠ 0 :=
  ⟨{ op := 1, first := 0, count := 1, client := 0, hintGroup := 0, hintValid := false, since := 0 }, State.reset, by decide +kernel⟩

theorem wit_PageMapOperations_5 : ∃ (k : PageCmd) (n : Nat) (s : State), s.pageCheck k = 0 :=
  ⟨{ op := 1, first := 5, count := 2, client := 0, hintGroup := 0, hintValid := false, since := 0 }, 5, State.reset.setFlag Fld.MEM_MAP_CTRL_enable true, by decide +kernel⟩

theorem wit_PageMapOperations_6 : ∃ (k : PageCmd) (n : Nat) (s : State), s.pageCheck k = 0 :=
  ⟨{ op := 1, first := 5, count := 2, client := 0, hintGroup := 0, hintValid := false, since := 0 }, 5, State.reset.setFlag Fld.MEM_MAP_CTRL_enable true, by decide +kernel⟩

theorem wit_PageMapOperations_7 : ∃ (k : PageCmd) (s : State), s.backDue.pageCmd = some k :=
  ⟨{ op := 3, first := 5, count := 2, client := 0, hintGroup := 0, hintValid := false, since := 0 }, { State.reset with pageCmd := some { op := 3, first := 5, count := 2, client := 0, hintGroup := 0, hintValid := false, since := 0 } }, by decide +kernel⟩

theorem wit_LedgerReservesAndClearing_1 : ∃ (base n : Nat) (s : State), s.flag Fld.SCH_LEDGER_CTRL_enable = false ∧ s.fld Fld.SCH_LEDGER_BASE_mirror_base = base ∧ base / 0x200000 = n :=
  ⟨0, 0, State.reset, by decide +kernel⟩

theorem wit_LedgerReservesAndClearing_2 : ∃ (page g f : Nat) (r : Reserve) (s1 s : State), mapFind s.reserves page = some r ∧ s.frameFor (s.page page) = some (g, f) ∧ backNs ≤ s.nsSince (max r.since (s.dmc g).backedAt) ∧ s1 = (s.backIn page g f .backed).modDmc g (fun d => { d with backedAt := s.tb }) :=
  ⟨5, (wsReserve.frameFor (wsReserve.page 5)).get!.1, (wsReserve.frameFor (wsReserve.page 5)).get!.2, ⟨5, 0⟩, _, wsReserve, all3 (by decide +kernel) (rfl)⟩

theorem wit_LedgerReservesAndClearing_3 : ∃ (client : Nat) (s : State), s.readyToClear client = false :=
  ⟨5, State.reset, by decide +kernel⟩

theorem wit_LedgerReservesAndClearing_4 : ∃ (client : Nat) (s : State), s.readyToClear client = true :=
  ⟨5, wsClient.setFlag (Fld.SCH_CLIENT_CTRL_detaching 5) true, by decide +kernel⟩

theorem wit_MovesAndDramUpkeep_1 : ∃ (s0 s : State), s.flag Fld.MEM_BELLOWS_CTRL_enable = true ∧ s.passedUs s.bellowsAt s.bellows.period = true ∧ s0 = (s.setFld Fld.MEM_BELLOWS_STATUS_moves_last s.movesDone).setFld Fld.MEM_BELLOWS_STATUS_deferred_last 0 :=
  ⟨_, { State.reset.setFlag Fld.MEM_BELLOWS_CTRL_enable true with tb := 1000000000 }, all2 (by decide +kernel) (rfl)⟩

theorem wit_MovesAndDramUpkeep_2 : ∃ (page : Nat) (m : Move) (s : State), mapFind s.moves page = some m ∧ m.phase = .copying ∧ ((if m.pass = 1 then 32768 else m.todo.length) ≤ s.copiedLines m) :=
  ⟨5, wmove .copying, { State.reset with moves := [(5, wmove .copying)], tb := 1000000000 }, by decide +kernel⟩

theorem wit_MovesAndDramUpkeep_3 : ∃ (page : Nat) (m : Move) (s : State), mapFind s.moves page = some m ∧ m.phase = .hold ∧ m.waiting.any s.logicUp = false :=
  ⟨5, wmove .hold, { State.reset with moves := [(5, wmove .hold)] }, by decide +kernel⟩

theorem wit_MovesAndDramUpkeep_4 : ∃ (page : Nat) (m : Move) (s : State), mapFind s.moves page = some m ∧ m.phase = .forwarding ∧ s.passedUs m.since 100 = true :=
  ⟨5, wmove .forwarding, { State.reset with moves := [(5, wmove .forwarding)], tb := 1000000 }, by decide +kernel⟩

theorem wit_MovesAndDramUpkeep_5 : ∃ (group : Nat) (errs : List (Nat × List W16)) (bad : Bool) (e : MergeEntry) (s1 s : State), s.groupServes group = true ∧ s1 = s.addErrors group errs ∧ (s1.dmc group).merge.find? (fun x => decide (x.age * 250 ≤ s1.nsSince x.since)) = some e :=
  ⟨0, [], false, { line := 0, bytes := [], since := 0 }, _, { wsPower.modDmc 0 (fun d => { d with merge := [{ line := 0, bytes := [], since := 0 }] }) with tb := 1000000000 }, by decide +kernel, rfl, by decide +kernel⟩

theorem wit_MovesAndDramUpkeep_6 : ∃ (group pos : Nat) (errs : List (Nat × List W16)) (s1 s2 s : State), s.scrubs group = true ∧ s1 = (s.addErrors group errs).modDmc group (fun d => { d with lastScrub := s.tb, lapLimit := s.fld (Fld.DMC_CTRL_lap_limit_min (dmcBase group)) }) ∧ s1.fld (Fld.DMC_SCRUB_POS_position (dmcBase group)) = pos ∧ (s2 = forEach (natRange (pos * 16) 16) s1 fun cw t => t.scrubWord group cw) :=
  ⟨0, 0, [], _, _, { wsPower.setFlag Fld.PWR_STATUS_mem_ready true with tb := 1000000 }, by decide +kernel, rfl, by decide +kernel, rfl⟩

theorem wit_MovesAndDramUpkeep_7 : ∃ (group : Nat) (s : State), s.groupUp group = true ∧ s.lapLong group = true :=
  ⟨0, { State.reset with tb := 1000000000000000 }, by decide +kernel⟩

theorem wit_MovesAndDramUpkeep_8 : ∃ (group : Nat) (failing : List Nat) (s : State), s.groupServes group = true ∧ ((s.dmc group).healthDue = true ∨ s.passedUs (s.dmc group).healthAt 10000 = true) :=
  ⟨0, [3], wsPower.modDmc 0 fun d => { d with healthDue := true }, by decide +kernel⟩

theorem wit_MovesAndDramUpkeep_9 : ∃ (group : Nat) (e : Evac) (s : State), (s.dmc group).evac = some e :=
  ⟨3, ⟨0, false, false, []⟩, State.reset.modDmc 3 fun d => { d with evac := some ⟨0, false, false, []⟩ }, by decide +kernel⟩

theorem wit_WatchIntervals_1 : ∃ (data : Nat) (s : State), s.awake = true :=
  ⟨65535, { wsPower with saf := { wsPower.saf with lastStatus := some 0 } }, by decide +kernel⟩

theorem wit_WatchIntervals_2 : ∃ (t0 : Nat) (s : State), s.saf.kickedAt = some t0 ∧ s.fld Fld.SAF_WATCH_watch_timeout_ms ≠ 0 ∧ 38400 * s.fld Fld.SAF_WATCH_watch_timeout_ms < s.tb - t0 :=
  ⟨0, { State.reset.setFld Fld.SAF_WATCH_watch_timeout_ms 5 with tb := 1000000, saf := { State.reset.saf with kickedAt := some 0 } }, by decide +kernel⟩

theorem wit_WatchIntervals_3 : ∃ (s : State), (s.saf.kickedAt = none ∨ s.fld Fld.SAF_WATCH_watch_timeout_ms = 0 ∨ (∃ t0, s.saf.kickedAt = some t0 ∧ s.tb - t0 ≤ 38400 * s.fld Fld.SAF_WATCH_watch_timeout_ms)) :=
  ⟨State.reset, Or.inl rfl⟩

theorem wit_WatchIntervals_4 : ∃ (v : W64) (s : State), s.logicDead Reg.SAF_WATCH = false :=
  ⟨7, State.reset, by decide +kernel⟩

theorem wit_WatchIntervals_5 : ∃ (s : State), s.saf.damped = false :=
  ⟨State.reset, by decide +kernel⟩

theorem wit_WatchPortCommands_1 : ∃ (data : Nat) (s : State), s.awake = true :=
  ⟨0, wsPower, by decide +kernel⟩

theorem wit_WatchPortCommands_2 : ∃ (data : Nat) (s : State), s.awake = true :=
  ⟨0, wsPower, by decide +kernel⟩

theorem wit_WatchPortCommands_3 : ∃ (data : Nat) (s : State), s.awake = true ∧ s.saf.lastStatus = some (65535 - data % 65536) :=
  ⟨65535, { wsPower with saf := { wsPower.saf with lastStatus := some 0 } }, by decide +kernel⟩

theorem wit_WatchPortCommands_4 : ∃ (data : Nat) (s : State), s.awake = true ∧ data % 65536 = 0xA55A :=
  ⟨0xA55A, wsPower, by decide +kernel⟩

theorem wit_WatchPortFrames_1 : ∃ (s : State), s.awake = true :=
  ⟨wsPower, by decide +kernel⟩

theorem wit_WatchPortFrames_2 : ∃ (command : Nat) (s : State), s.awake = true :=
  ⟨4, wsPower, by decide +kernel⟩

theorem wit_WatchPortFrames_3 : ∃ (data : Nat) (s : State), s.awake = true :=
  ⟨0, wsPower, by decide +kernel⟩

theorem wit_WatchPortFrames_5 : ∃ (data : Nat) (s : State), s.awake = false :=
  ⟨0, State.reset, by decide +kernel⟩

theorem wit_SupervisorsAndTheDamper_1 : ∃ (core : Nat) (s : State), core < 2 :=
  ⟨1, State.reset, by decide +kernel⟩

theorem wit_SupervisorsAndTheDamper_2 : ∃ (u s : State), s.saf.missedP = 2 ∧ u = { s with saf := { s.saf with missedP := 3 } } :=
  ⟨_, { State.reset with saf := { State.reset.saf with missedP := 2 } }, by decide +kernel, rfl⟩

theorem wit_SupervisorsAndTheDamper_3 : ∃ (s : State), s.saf.damped = false ∧ s.flag Fld.SAF_STATUS_standby_ok = true :=
  ⟨State.reset.setFlag Fld.SAF_STATUS_standby_ok true, by decide +kernel⟩

theorem wit_SupervisorsAndTheDamper_4 : ∃ (s : State), s.saf.damped = false ∧ s.flag Fld.SAF_STATUS_standby_ok = false :=
  ⟨State.reset.setFlag Fld.SAF_STATUS_standby_ok false, by decide +kernel⟩

theorem wit_SupervisorsAndTheDamper_5 : ∃ (pass : Bool) (core : Nat) (s t : State), s.saf.testing = some core ∧ (t = { s with saf := { s.saf with testing := none, missedP := (if pass = true ∧ core = 0 then 0 else s.saf.missedP), missedS := (if pass = true ∧ core ≠ 0 then 0 else s.saf.missedS) } }) :=
  ⟨true, 1, { State.reset with saf := { State.reset.saf with testing := some 1 } }, State.reset, by decide +kernel, rfl⟩

theorem wit_SupervisorsAndTheDamper_7 : ∃ (cause : Nat) (s : State), 1 ≤ cause ∧ cause ≤ 6 ∧ s.saf.damped = false :=
  ⟨3, State.reset, by decide +kernel⟩

theorem wit_SupervisorsAndTheDamper_9 : ∃ (t0 : Nat) (s : State), s.saf.pulseSince = some t0 ∧ s.passedUs t0 (s.fld Fld.SAF_CTRL_escalate_pulse_us) = true :=
  ⟨0, { State.reset with tb := 1000000000, saf := { State.reset.saf with pulseSince := some 0 } }, by decide +kernel⟩

theorem wit_InjectionRetestAndReports_1 : ∃ (hub : W32) (dies : List W32) (s : State), s.fld Fld.SAF_STATUS_state ≠ safStarting :=
  ⟨0, [], State.reset.setFld Fld.SAF_STATUS_state 1, by decide +kernel⟩

theorem wit_InjectionRetestAndReports_2 : ∃ (dies : List W32) (s : State), s.fld Fld.SAF_STATUS_state = safStarting :=
  ⟨[], State.reset.setFld Fld.SAF_STATUS_state safStarting, by decide +kernel⟩

theorem wit_InjectionRetestAndReports_3 : ∃ (unit t0 : Nat) (pass on : Bool) (s1 s : State), (s.unit unit).outSince = some t0 ∧ ((unit / 4096 < s.nDies ∧ dieEngines.contains (unit % 4096) = true) ∨ unit = unitOf hubDie 0x010) ∧ s.logicUp (unit / 4096) = true ∧ (s.unit unit).rounds < 3 ∧ (s.passedUs (s.unit unit).retestAt (if (s.unit unit).rounds = 0 ∨ 0 < (s.unit unit).passes then 100000 else 10000000) = true) ∧ on = (match enableFld (unit / 4096) (unit % 4096) with | some f => s.flag f | none => true) ∧ s1 = s.modUnit unit (fun y => { y with outSince := none, detectedAt := none, passes := 0, rounds := 0 }) :=
  ⟨0x010, 0, true, _, _, { (wsUp.modUnit 0x010 fun x => { x with outSince := some 0, passes := 1 }) with tb := 1000000000 }, ⟨by decide +kernel, Or.inl (by decide +kernel), all3 (by decide +kernel) ⟨rfl, rfl⟩⟩⟩

theorem wit_InjectionRetestAndReports_5 : ∃ (r : FaultReport) (s : State), r.source ≠ .compare ∧ r.entry = none ∧ isDetection r.detail = false :=
  ⟨{ cls := 0, unit := 7, detail := 0, client := none, ring := 0, seq := 0, index := none, entry := none }, State.reset, by decide +kernel⟩

theorem wit_InjectionRetestAndReports_6 : ∃ (unit detail : Nat) (m : LogMerge) (s : State), ((s.saf.merges.find? fun m => decide (m.unit = unit) && decide (m.detail = detail)) = some m) ∧ s.passedUs m.tb 1000 = true :=
  ⟨7, 0, ⟨7, 0, 0, 1, 0, 0xFFF⟩, { State.reset with tb := 1000000, saf := { State.reset.saf with merges := [⟨7, 0, 0, 1, 0, 0xFFF⟩] } }, by decide +kernel⟩

theorem wit_FirmwareAndBoot_2 : ∃ (digestOk signatureOk : Bool) (k : Image) (s : State), s.fld Fld.SEC_FW_CTRL_fw_status = 1 ∧ s.keys.hostBoot = false ∧ k = ⟨s.keys.staging, digestOk, signatureOk⟩ :=
  ⟨true, true, ⟨[], true, true⟩, State.reset.setFld Fld.SEC_FW_CTRL_fw_status 1, by decide +kernel⟩

theorem wit_FirmwareAndBoot_3 : ∃ (slot : Nat) (s : State), s.keys.staged = some slot :=
  ⟨1, { State.reset with keys := { State.reset.keys with staged := some 1 } }, by decide +kernel⟩

theorem wit_FirmwareAndBoot_4 : ∃ (die slot : Nat) (k : Image) (s : State), s.fitted die = true ∧ s.keys.staged = some slot ∧ s.slotImage slot = some k :=
  ⟨0, 1, wimg, { wsDrained with keys := { State.reset.keys with staged := some 1, slotB := some wimg } }, by decide +kernel⟩

theorem wit_FirmwareAndBoot_5 : ∃ (p : Nat) (s s1 : State), s.keys.preferred = some p ∧ s.fld Fld.SAF_STATUS_state = safStarting ∧ s.servedLate p = true ∧ s.keys.bootFails < 2 ∧ (s1 = s.modKeys fun k => { k with bootFails := k.bootFails + 1, bootLate := true }) :=
  ⟨0, wsBooting, wsBooting.modKeys fun k => { k with bootFails := k.bootFails + 1, bootLate := true }, all4 (by decide +kernel) (rfl)⟩

theorem wit_PowerStatesAreEnteredAndLeft_1 : ∃ (target : Nat) (s : State), s.power.phase = .run ∧ s.fld Fld.PWR_CTRL_target = target :=
  ⟨1, wsPower.setFld Fld.PWR_CTRL_target 1, by decide +kernel⟩

theorem wit_PowerStatesAreEnteredAndLeft_2 : ∃ (t0 : Nat) (s : State), s.power.targetAt = some t0 ∧ s.power.phase = .run ∧ 1 ≤ s.fld Fld.PWR_CTRL_target ∧ s.fld Fld.PWR_CTRL_target ≤ 3 ∧ s.power.l2 = false ∧ s.passedUs t0 10000 = true :=
  ⟨0, { (wsPower.setFld Fld.PWR_CTRL_target 1).modPower (fun p => { p with targetAt := some 0 }) with tb := 1000000000 }, by decide +kernel⟩

theorem wit_PowerStatesAreEnteredAndLeft_4 : ∃ (s : State), (s.power.phase = .sleep ∨ s.power.phase = .deep ∨ s.power.phase = .off) :=
  ⟨{ State.reset with power := { State.reset.power with phase := .sleep } }, by decide +kernel⟩

theorem wit_PowerStatesAreEnteredAndLeft_5 : ∃ (s : State), s.fld Fld.CLK_ALARM_alarm ≠ 0 ∧ s.fld Fld.CLK_ALARM_alarm ≤ s.tb ∧ s.power.alarmFired = false :=
  ⟨{ State.reset.setFld Fld.CLK_ALARM_alarm 5 with tb := 5 }, by decide +kernel⟩

theorem wit_PowerStatesAreEnteredAndLeft_6 : ∃ (t0 : Nat) (s : State), s.power.wokeAt = some t0 ∧ s.power.phase = .run ∧ s.saf.damped = false ∧ s.power.l2 = true ∧ s.flag Fld.PWR_CTRL_auto_resleep = true ∧ s.stage = 0 ∧ s.fld Fld.PWR_CTRL_target = 0 ∧ s.passedUs t0 10000 = true ∧ s.entryError 1 = 0 :=
  ⟨0, { (wsPower.setFlag Fld.PWR_CTRL_auto_resleep true).modPower (fun p => { p with l2 := true, wokeAt := some 0 }) with tb := 1000000 }, by decide +kernel⟩

theorem wit_PowerStatesAreEnteredAndLeft_7 : ∃ (s : State), (s.power.phase = .sleep ∨ s.power.phase = .deep) :=
  ⟨{ State.reset with power := { State.reset.power with phase := .deep } }, by decide +kernel⟩

theorem wit_PowerStatesAreEnteredAndLeft_9 : ∃ (s : State), s.power.phase = .unpowered :=
  ⟨{ State.reset with power := { State.reset.power with phase := .unpowered } }, by decide +kernel⟩

theorem wit_PowerStatesAreEnteredAndLeft_10 : ∃ (speed width : Nat) (s : State), s.power.phase = .run :=
  ⟨6, 16, wsPower, by decide +kernel⟩

theorem wit_PowerUpOrderAndResets_4 : ∃ (s : State), s.rebuilding = true ∧ s.power.heldPage = none :=
  ⟨wsRebuilding, by decide +kernel⟩

theorem wit_PowerUpOrderAndResets_6 : ∃ (s : State), s.power.phase = .run :=
  ⟨wsPower, by decide +kernel⟩

theorem wit_PowerUpOrderAndResets_7 : ∃ (s : State), s.power.phase ≠ .unpowered :=
  ⟨State.reset, by decide +kernel⟩

theorem wit_TimebaseThermalAndPowerCap_1 : ∃ (s : State), s.rtcMode = true ∧ s.handbackDue = false :=
  ⟨State.reset.setFlag Fld.CLK_TB_STATUS_rtc_mode true, by decide +kernel⟩

theorem wit_TimebaseThermalAndPowerCap_2 : ∃ (s : State), s.handbackDue = true :=
  ⟨wsHandback, by decide +kernel⟩

theorem wit_TimebaseThermalAndPowerCap_5 : ∃ (t0 : Nat) (s : State), s.power.hotSince = some t0 ∧ s.saf.damped = true ∧ s.passedUs t0 100000 = true :=
  ⟨0, { State.reset with tb := 10000000, saf := { State.reset.saf with damped := true }, power := { State.reset.power with hotSince := some 0 } }, by decide +kernel⟩

theorem wit_TimebaseThermalAndPowerCap_6 : ∃ (die : Nat) (lower : Bool) (s : State), (s.fitted die = true ∨ die = hubDie) ∧ s.power.phase = .run :=
  ⟨0, true, wsPower, by decide +kernel⟩

theorem wit_TimebaseThermalAndPowerCap_7 : ∃ (n : Nat) (s s1 : State), s.fld Fld.PWR_STATUS_throttle_level = n ∧ (s1 = s.modPower fun p => { p with credit := min s.creditMax (s.power.credit + s.creditFill - 10 * s.reserve n) }) :=
  ⟨0, State.reset, State.reset.modPower fun p => { p with credit := min State.reset.creditMax (State.reset.power.credit + State.reset.creditFill - 10 * State.reset.reserve 0) }, by decide +kernel, rfl⟩

theorem wit_TimebaseThermalAndPowerCap_8 : ∃ (d n : Nat) (heaviest : List Nat) (s : State), s.fld Fld.PWR_STATUS_throttle_level = n ∧ n ≠ 0 ∧ s.passedUs s.power.capAt 100 = true ∧ ((heaviest.find? fun d => s.fitted d && decide (s.ownPoint d < 4)) = some d) :=
  ⟨0, 1, [0], { State.reset.setFld Fld.PWR_STATUS_throttle_level 1 with tb := 1000000 }, by decide +kernel⟩

theorem wit_TimebaseThermalAndPowerCap_9 : ∃ (d : Nat) (rest : List Nat) (s : State), s.power.capSteps = d :: rest ∧ s.passedUs s.power.capAt 1000 = true :=
  ⟨0, [], { State.reset with tb := 1000000, power := { State.reset.power with capSteps := [0] } }, by decide +kernel⟩

theorem wit_KeysAndRandomness_1 : ∃ (unit client : Nat) (s : State), s.attached client = true ∧ s.keys.unwrapWait = [] :=
  ⟨0x070, 5, wsClient, by decide +kernel⟩

theorem wit_RingPortsAgreeSendAndReceive_1 : ∃ (port : Nat) (s : State), port < 2 :=
  ⟨1, State.reset, by decide +kernel⟩

theorem wit_RingPortsAgreeSendAndReceive_2 : ∃ (port : Nat) (s : State), s.portPowered port = true ∧ (s.ringPort port).trained = false :=
  ⟨0, wsPorts, by decide +kernel⟩

theorem wit_RingPortsAgreeSendAndReceive_3 : ∃ (port : Nat) (m : KeyMsg) (s : State), s.portPowered port = true ∧ (s.ringPort port).trained = true :=
  ⟨0, wkeymsg, wsTrained, by decide +kernel⟩

theorem wit_RingPortsAgreeSendAndReceive_4 : ∃ (port t0 : Nat) (s : State), (s.ringPort port).failedAt = some t0 ∧ s.portPowered port = true ∧ s.passedUs t0 1000000 = true :=
  ⟨0, 0, { (wsPorts.modRingPort 0 fun x => { x with failedAt := some 0 }) with tb := 1000000000 }, by decide +kernel⟩

theorem wit_RingPortsAgreeSendAndReceive_5 : ∃ (port : Nat) (s : State), s.portPowered port = true ∧ s.flag (Fld.HXR_SEC_STATUS_secure port) = true ∧ (s.ringPort port).rekeyAt = none :=
  ⟨0, wsSecure, by decide +kernel⟩

theorem wit_RingPortsAgreeSendAndReceive_6 : ∃ (port t0 : Nat) (s : State), (s.ringPort port).rekeyAt = some t0 ∧ s.passedUs t0 (1000 * (s.ringPort port).rekeyMs) = true :=
  ⟨0, 0, { (wsSecure.modRingPort 0 fun x => { x with rekeyAt := some 0 }) with tb := 10000000000 }, by decide +kernel⟩

theorem wit_RingPortsAgreeSendAndReceive_7 : ∃ (port n : Nat) (f : RingFrame) (s0 s1 s : State), s.portPowered port = true ∧ s.flag (Fld.HXR_SEC_STATUS_secure port) = true ∧ s0 = s.ackPort port f.ackCounter ∧ (f.fecOk && f.tagOk) = false ∧ n = s0.saf.ringBad.getD port 0 + 1 ∧ s1 = ((s0.send (.nak (portUnit port) (s.ringPort port).rxNext)).logCorrected (portUnit port) 0).noteBad port n :=
  ⟨0, _, ⟨0, 0, 0, 0, 0, List.replicate 16 0, true, false, 0⟩, _, _, wsSecure, all2 (by decide +kernel) ⟨rfl, by decide +kernel, rfl, rfl⟩⟩

theorem wit_RingPortsAgreeSendAndReceive_8 : ∃ (port : Nat) (f : RingFrame) (s : State), s.portPowered port = true ∧ s.flag (Fld.HXR_SEC_STATUS_secure port) = true ∧ (f.fecOk && f.tagOk) = true ∧ (f.kind ≠ 0 ∨ f.payload.length < 16 ∨ 2048 < f.payload.length ∨ f.payload.length % 16 ≠ 0) :=
  ⟨0, ⟨0, 1, 0, 0, 0, List.replicate 16 0, true, true, 0⟩, wsSecure, all3 (by decide +kernel) (Or.inl (by decide +kernel))⟩

theorem wit_RingPortsAgreeSendAndReceive_9 : ∃ (port : Nat) (f : RingFrame) (s0 s1 s2 s : State), s.portPowered port = true ∧ s.flag (Fld.HXR_SEC_STATUS_secure port) = true ∧ s0 = s.ackPort port f.ackCounter ∧ (f.fecOk && f.tagOk) = true ∧ f.kind = 0 ∧ 16 ≤ f.payload.length ∧ f.payload.length ≤ 2048 ∧ f.payload.length % 16 = 0 ∧ (s.ringPort port).rxOld = false ∧ f.counter % 2 ^ 32 = (s.ringPort port).rxNext % 2 ^ 32 ∧ f.phase % 2 = (s.ringPort port).rxPhase ∧ s1 = ((s0.noteBad port 0).modRingPort port (fun y => { y with rxNext := (s.ringPort port).rxNext + 1, rxPhase := f.phase % 2, rxOld := y.rxOld && true })).rekeyAtCount port ((s.ringPort port).rxNext + 1) ∧ s2 = s1.send (.ack (portUnit port) (s.ringPort port).rxNext []) :=
  ⟨0, ⟨0, 0, 0, 0, 0, List.replicate 16 0, true, true, 0⟩, _, _, _, wsSecure, all2 (by decide +kernel) ⟨rfl, all4 (by decide +kernel) (all4 (by decide +kernel) ⟨rfl, rfl⟩)⟩⟩

theorem wit_RingPortsAgreeSendAndReceive_10 : ∃ (port counter n : Nat) (left : List SentFrame) (s1 s2 s : State), s.portPowered port = true ∧ (((s.ringPort port).retry.any fun f => decide (f.counter = counter)) = true) ∧ left = framesFrom counter (s.ringPort port).retry ∧ (n = (if left.length < (s.ringPort port).retry.length then 1 else (s.ringPort port).resends + 1)) ∧ (s1 = (s.modRingPort port fun y => { y with retry := left, resends := n }).addFld (Fld.HXR_STATUS_resends port) left.length) ∧ (s2 = forEach left s1 fun f t => t.send (f.sent port)) :=
  ⟨0, 3, _, _, _, _, wsNaked, all2 (by decide +kernel) ⟨rfl, rfl, rfl, rfl⟩⟩

theorem wit_CountersAreReadWrittenAndCaptured_1 : ∃ (block i : Nat) (s : State), s.isBlock block = true ∧ i < 16 ∧ s.logicDead block = false :=
  ⟨kindlingBlock, 3, wsPower, by decide +kernel⟩

theorem wit_CountersAreReadWrittenAndCaptured_2 : ∃ (block i : Nat) (hi lo : W32) (s : State), s.isBlock block = true ∧ i < 16 ∧ s.logicDead block = false :=
  ⟨kindlingBlock, 3, 1, 2, wsPower, by decide +kernel⟩

theorem wit_CountersAreReadWrittenAndCaptured_3 : ∃ (block i : Nat) (s : State), s.isBlock block = true ∧ i < 16 ∧ s.logicDead block = false :=
  ⟨kindlingBlock, 3, wsPower, by decide +kernel⟩

theorem wit_CountersAreReadWrittenAndCaptured_5 : ∃ (block t0 : Nat) (s : State), (s.cnt block).due = some t0 :=
  ⟨kindlingBlock, 0, State.reset.modCnt kindlingBlock fun b => { b with due := some 0 }, by decide +kernel⟩

theorem wit_CountersAreReadWrittenAndCaptured_6 : ∃ (s : State), s.fld Fld.DBG_TRACE_CTRL_sample_10us ≠ 0 ∧ s.flag Fld.DBG_TRACE_CTRL_enable = true :=
  ⟨(State.reset.setFld Fld.DBG_TRACE_CTRL_sample_10us 1).setFlag Fld.DBG_TRACE_CTRL_enable true, by decide +kernel⟩

theorem wit_TraceWindowFlueAndTensorWatch_4 : ∃ (out rest : List TracePacket) (s : State), s.awake = true ∧ s.flag Fld.DBG_TRACE_CTRL_enable = true ∧ s.flag Fld.DBG_TRACE_CTRL_window = true ∧ s.fld Fld.DBG_TRACE_STATUS_wstate = 3 ∧ s.trace.hub ++ s.trace.post ≠ [] ∧ takePackets 256 (s.trace.hub ++ s.trace.post) = (out, rest) :=
  ⟨[wpacket], [], { ((wsPower.setFlag Fld.DBG_TRACE_CTRL_enable true).setFlag Fld.DBG_TRACE_CTRL_window true).setFld Fld.DBG_TRACE_STATUS_wstate 3 with trace := { State.reset.trace with hub := [wpacket] } }, by decide +kernel⟩

theorem wit_TraceWindowFlueAndTensorWatch_5 : ∃ (s : State), s.awake = true ∧ (s.flag Fld.DBG_TRACE_CTRL_enable = false ∨ (s.flag Fld.DBG_TRACE_CTRL_window = true ∧ s.fld Fld.DBG_TRACE_STATUS_wstate ≠ 3) ∨ (s.trace.hub = [] ∧ s.flag Fld.DBG_TRACE_CTRL_window = false)) :=
  ⟨wsPower, by decide +kernel, Or.inl (by decide +kernel)⟩

theorem wit_TraceWindowFlueAndTensorWatch_7 : ∃ (s : State), s.flag Fld.DBG_TRACE_CTRL_enable = true ∧ s.flag Fld.DBG_TRACE_CTRL_window = true :=
  ⟨(State.reset.setFlag Fld.DBG_TRACE_CTRL_enable true).setFlag Fld.DBG_TRACE_CTRL_window true, by decide +kernel⟩

theorem wit_TraceWindowFlueAndTensorWatch_9 : ∃ (s : State), s.fld Fld.DBG_TRACE_STATUS_wstate = 3 ∧ s.trace.hub = [] ∧ s.trace.post = [] :=
  ⟨State.reset.setFld Fld.DBG_TRACE_STATUS_wstate 3, by decide +kernel⟩

theorem wit_TraceWindowFlueAndTensorWatch_10 : ∃ (n : Nat) (st : Step) (s : State), s.watchStep n = some st ∧ n < 4 ∧ mapFind s.trace.copying n = none ∧ st.watching.head? = some n :=
  ⟨0, { wstep .waiting with watching := [0] }, { wsStep .waiting with steps := [{ wstep .waiting with watching := [0] }] }, by decide +kernel⟩

theorem wit_TraceWindowFlueAndTensorWatch_11 : ∃ (n ring seq : Nat) (s1 s : State), mapFind s.trace.copying n = some (ring, seq) ∧ (s1 = ((s.setFlag (Fld.DBG_WATCH_RING_done n) true).addFld (Fld.DBG_WATCH_CNT_dumps n) 1).modStep ring seq (fun x => { x with watching := x.watching.filter fun k => decide (k ≠ n) })) :=
  ⟨0, 16, 0, _, { State.reset with trace := { State.reset.trace with copying := [(0, 16, 0)] } }, by decide +kernel, rfl⟩

theorem wit_IndicatorChannels_1 : ∃ (n : Nat) (value : W32) (s s1 : State), n < nInd ∧ s1 = ((((s.setFld (Fld.IND_CH_current_ma n) (min 60 (max 2 (bits value.toNat 0 6)))).setFlag (Fld.IND_CH_on n) (bit value.toNat 6 || (decide (n = 0) && s.audMuted))).setFld (Fld.IND_CH_ramp_ms n) (min 20 (max 1 (bits value.toNat 7 5)))).setFlag (Fld.IND_CH_open_seen n) (s.flag (Fld.IND_CH_open_seen n) && !bit value.toNat 15)).noteWish n (bit value.toNat 6) :=
  ⟨1, 0x40, State.reset, ((((State.reset.setFld (Fld.IND_CH_current_ma 1) (min 60 (max 2 (bits (0x40#32).toNat 0 6)))).setFlag (Fld.IND_CH_on 1) (bit (0x40#32).toNat 6 || (decide (1 = 0) && State.reset.audMuted))).setFld (Fld.IND_CH_ramp_ms 1) (min 20 (max 1 (bits (0x40#32).toNat 7 5)))).setFlag (Fld.IND_CH_open_seen 1) (State.reset.flag (Fld.IND_CH_open_seen 1) && !bit (0x40#32).toNat 15)).noteWish 1 (bit (0x40#32).toNat 6), by decide +kernel, rfl⟩

theorem wit_IndicatorChannels_2 : ∃ (n t0 : Nat) (s : State), (s.indCh n).rampEnd = some t0 :=
  ⟨1, 0, State.reset.modInd 1 fun k => { k with rampEnd := some 0 }, by decide +kernel⟩

theorem wit_IndicatorChannels_3 : ∃ (n : Nat) (s : State), n < nInd ∧ (s.indCh n).tested = true ∧ s.flag (Fld.IND_CH_clamped n) = false :=
  ⟨1, wsLit, by decide +kernel⟩

theorem wit_IndicatorChannels_4 : ∃ (n t0 : Nat) (above : Bool) (s s1 : State), (s.indCh n).clampedAt = some t0 ∧ s1 = ((s.darken n).setFlag (Fld.IND_CH_short_latched n) true).logRecorded unitInd 0 :=
  ⟨1, 0, true, State.reset.modInd 1 (fun k => { k with clampedAt := some 0 }), (((State.reset.modInd 1 (fun k => { k with clampedAt := some 0 })).darken 1).setFlag (Fld.IND_CH_short_latched 1) true).logRecorded unitInd 0, by decide +kernel, rfl⟩

theorem wit_IndicatorChannels_5 : ∃ (t0 : Nat) (s : State), s.inds.freezeAt = some t0 ∧ s.passedUs t0 50 = true :=
  ⟨0, { State.reset with tb := 10000, inds := { State.reset.inds with freezeAt := some 0 } }, by decide +kernel⟩

theorem wit_IndicatorChannels_6 : ∃ (n : Nat) (s : State), n < nInd ∧ (s.indCh n).tested = true :=
  ⟨1, wsLit, by decide +kernel⟩

theorem wit_IndicatorChannels_7 : ∃ (n : Nat) (s s1 : State), n < nInd ∧ s1 = s.setFlag (Fld.IND_CH_short_latched n) false :=
  ⟨1, State.reset, State.reset.setFlag (Fld.IND_CH_short_latched 1) false, by decide +kernel, rfl⟩

theorem wit_SerialPinsAndBoundaryScan_1 : ∃ (n : Nat) (value : W32) (s : State), n < 4 ∧ bit value.toNat 16 = true :=
  ⟨1, 0x10000, State.reset, by decide +kernel⟩

theorem wit_SerialPinsAndBoundaryScan_2 : ∃ (n : Nat) (nack : Bool) (data : List Byte) (s : State), n < 4 ∧ s.awake = true ∧ s.flag (Fld.IND_I3C_CMD_busy n) = true :=
  ⟨1, false, [], wsPower.setFlag (Fld.IND_I3C_CMD_busy 1) true, by decide +kernel⟩

theorem wit_SerialPinsAndBoundaryScan_3 : ∃ (n addr : Nat) (s : State), n < 4 ∧ s.awake = true ∧ s.flag (Fld.IND_I3C_CTRL_enable n) = true :=
  ⟨1, 8, wsPower.setFlag (Fld.IND_I3C_CTRL_enable 1) true, by decide +kernel⟩

theorem wit_SerialPinsAndBoundaryScan_4 : ∃ (i : Nat) (level : Bool) (s : State), i < 24 :=
  ⟨3, true, wsPower, by decide +kernel⟩

theorem wit_SerialPinsAndBoundaryScan_5 : ∃ (i : Nat) (s : State), i < 24 :=
  ⟨3, State.reset, by decide +kernel⟩

theorem wit_SerialPinsAndBoundaryScan_6 : ∃ (shiftIn pins : List Bool) (s : State), s.tapRuns = true :=
  ⟨[true], [false], wsPower, by decide +kernel⟩

theorem wit_SerialPinsAndBoundaryScan_7 : ∃ (s : State), s.tapRuns = true :=
  ⟨wsPower, by decide +kernel⟩

theorem wit_SerialPinsAndBoundaryScan_8 : ∃ (code : Nat) (s : State), s.tapRuns = true :=
  ⟨255, wsPower, by decide +kernel⟩

theorem wit_CameraPortsAndPackets_1 : ∃ (port : Nat) (value : W32) (s : State), port < 4 :=
  ⟨1, 1, State.reset, by decide +kernel⟩

theorem wit_CameraPortsAndPackets_2 : ∃ (port vc frameNo : Nat) (s s0 s1 s2 : State), (s0 = (s.watchFrame port (vc % 16)).modPort port fun x => { x with packetAt := (s.watchFrame port (vc % 16)).tb }) ∧ s1 = s0.refreshTable port ∧ s2 = ((s0.eccPacket port).refreshTable port) ∧ s.portOn port = true ∧ (s.watchFrame port (vc % 16)).portOn port = true :=
  ⟨1, 0, 1, wsPort, wsPort.modPort 1 fun x => { x with packetAt := wsPort.tb }, (wsPort.modPort 1 fun x => { x with packetAt := wsPort.tb }).refreshTable 1, ((wsPort.modPort 1 fun x => { x with packetAt := wsPort.tb }).eccPacket 1).refreshTable 1, ⟨rfl, rfl, rfl, by decide +kernel⟩⟩

theorem wit_CameraPortsAndPackets_3 : ∃ (port vc : Nat) (s s1 s2 : State), s.portOn port = true ∧ (s1 = s.modPort port fun x => { x with packetAt := s.tb }) ∧ s2 = (s1.eccPacket port).flagStream port (vc % 16) flEcc :=
  ⟨1, 0, wsPort, wsPort.modPort 1 fun x => { x with packetAt := wsPort.tb }, ((wsPort.modPort 1 fun x => { x with packetAt := wsPort.tb }).eccPacket 1).flagStream 1 0 flEcc, by decide +kernel, rfl, rfl⟩

theorem wit_CameraPortsAndPackets_4 : ∃ (port vc dt : Nat) (payload : List Byte) (s s0 s1 : State), s.portOn port = true ∧ (s.watchLine port (vc % 16) dt payload).portOn port = true ∧ (s0 = s.modPort port fun x => { x with packetAt := s.tb }) ∧ (s1 = (s.watchLine port (vc % 16) dt payload).modPort port fun x => { x with packetAt := (s.watchLine port (vc % 16) dt payload).tb }) :=
  ⟨1, 0, 0x2A, [], wsPort, wsPort.modPort 1 fun x => { x with packetAt := wsPort.tb }, wsPort.modPort 1 fun x => { x with packetAt := wsPort.tb }, all2 (by decide +kernel) ⟨rfl, rfl⟩⟩

theorem wit_CameraPortsAndPackets_5 : ∃ (port vc dt : Nat) (s s1 : State), s.portOn port = true ∧ vc < 16 ∧ 2 ≤ dt ∧ (s1 = s.modPort port fun x => { x with packetAt := s.tb }) :=
  ⟨1, 0, 2, wsPort, wsPort.modPort 1 fun x => { x with packetAt := wsPort.tb }, all3 (by decide +kernel) (rfl)⟩

theorem wit_CameraPortsAndPackets_6 : ∃ (port : Nat) (s : State), s.portOn port = true ∧ s.passedUs (s.camPort port).packetAt 100 = true :=
  ⟨1, { wsPort with tb := 100000 }, by decide +kernel⟩

theorem wit_CameraPortsAndPackets_7 : ∃ (port vc dt frameNo : Nat) (payload : List Byte) (err : PacketError) (s : State), s.portOn port = false ∧ s.watched port (vc % 16) = false :=
  ⟨1, 0, 0x2A, 0, [], .none, State.reset, by decide +kernel⟩

theorem wit_CaptureChannelsAndLanes_1 : ∃ (channel : Nat) (value : W32) (s s1 : State), channel < 16 ∧ bit value.toNat 0 = true ∧ s.flag (Fld.CAM_CH_CTRL_enable channel) = false ∧ s1 = s.setReg (Reg.CAM_CH_CTRL channel) (value.toNat % 0x400000 - 1) :=
  ⟨3, 1, State.reset, State.reset.setReg (Reg.CAM_CH_CTRL 3) 0, all3 (by decide +kernel) (rfl)⟩

theorem wit_CaptureChannelsAndLanes_2 : ∃ (channel : Nat) (value : W32) (s : State), channel < 16 ∧ bit value.toNat 0 = true ∧ s.flag (Fld.CAM_CH_CTRL_enable channel) = true ∧ value.toNat % 0x400000 ≠ s.reg (Reg.CAM_CH_CTRL channel) :=
  ⟨3, 3, State.reset.setFlag (Fld.CAM_CH_CTRL_enable 3) true, by decide +kernel⟩

theorem wit_CaptureChannelsAndLanes_3 : ∃ (channel : Nat) (value : W32) (s : State), channel < 16 ∧ bit value.toNat 0 = false :=
  ⟨3, 0, State.reset, by decide +kernel⟩

theorem wit_CaptureChannelsAndLanes_5 : ∃ (channel : Nat) (f : CamFrame) (s : State), (s.chan channel).open_ = some f ∧ s.camOn channel = true ∧ s.passedUs f.tStart (s.fld (Fld.CAM_CH_TIMING_fe_timeout_us channel)) = true :=
  ⟨3, {}, { (wsChan.modChan 3 fun x => { x with open_ := some {} }) with tb := 1000000000 }, by decide +kernel⟩

theorem wit_CaptureChannelsAndLanes_6 : ∃ (channel : Nat) (f : CamFrame) (rest : List CamFrame) (s s1 s2 : State), (s.chan channel).ready = f :: rest ∧ s.camOn channel = true ∧ (s.chan channel).memError = false ∧ s1 = s.devWrite (s.camClient channel) (s.fld (Fld.CAM_CH_REC_BASE_rec_base channel) + 32 * (f.no % max 1 (s.fld (Fld.CAM_CH_BUF_CFG_buf_count channel)))) (leBytes f.no 8 ++ leBytes f.tStart 8 ++ leBytes f.tClose 8 ++ leBytes f.csi 2 ++ leBytes (f.layersByte (s.camLayers channel)) 1 ++ leBytes (s.chan channel).dropped 1 ++ leBytes f.flags 4) ∧ (s2 = if f.flags = 0 then s1.modChan channel (fun y => { y with ready := rest, dropped := 0, memError := false }) else (s1.modChan channel (fun y => { y with ready := rest, dropped := 0, memError := false })).setFlag (Fld.CAM_CH_STATUS_frame_flagged channel) true) :=
  ⟨3, {}, [], wsChan.modChan 3 (fun x => { x with ready := [{}] }), (wsChan.modChan 3 (fun x => { x with ready := [{}] })).devWrite 0 0 (leBytes 0 27 ++ leBytes 0 5), ((wsChan.modChan 3 (fun x => { x with ready := [{}] })).devWrite 0 0 (leBytes 0 27 ++ leBytes 0 5)).modChan 3 (fun y => { y with ready := [], dropped := 0, memError := false }), all3 (by decide +kernel) ⟨rfl, rfl⟩⟩

theorem wit_CaptureChannelsAndLanes_7 : ∃ (lane k : Nat) (f : CamFrame) (s : State), lane < 2 ∧ mapFind s.cams.lanes lane = none ∧ s.saf.damped = false ∧ (leastBy (fun (x : Nat × CamFrame) => x.2.tClose) ((natRange 0 16).flatMap fun i => if s.camOn i then (s.chan i).queue.map (fun g => (i, g)) else []) = some (k, f)) :=
  ⟨1, 3, {}, wsChan.modChan 3 fun x => { x with queue := [{}] }, by decide +kernel⟩

theorem wit_CaptureChannelsAndLanes_8 : ∃ (lane k : Nat) (f : CamFrame) (s s1 : State), mapFind s.cams.lanes lane = some (k, f) ∧ s.saf.damped = false ∧ s1 = { s with cams := { s.cams with lanes := mapDel s.cams.lanes lane } } :=
  ⟨1, 3, {}, wsLane, wsLaneDone, all2 (by decide +kernel) (rfl)⟩

theorem wit_ListeningMutingAndPlaying_1 : ∃ (value : W32) (v : Nat) (s : State), (v = if bits (value.toNat % 2 ^ 31) 25 6 = 0 then setBits (value.toNat % 2 ^ 31) 25 6 1 else value.toNat % 2 ^ 31) :=
  ⟨1, 0x2000001, State.reset, by decide +kernel⟩

theorem wit_ListeningMutingAndPlaying_3 : ∃ (input : Nat) (value : W32) (s : State), input < 2 ∧ s.flag (Fld.AUD_ADC_CTRL_adc_enable input) = true ∧ bits value.toNat 4 10 ≠ s.fld (Fld.AUD_ADC_CTRL_down_hold_ms input) :=
  ⟨0, 0x3FF0, State.reset.setFlag (Fld.AUD_ADC_CTRL_adc_enable 0) true, by decide +kernel⟩

theorem wit_ListeningMutingAndPlaying_4 : ∃ (input : Nat) (value : W32) (s : State), input < 2 ∧ (s.flag (Fld.AUD_ADC_CTRL_adc_enable input) = false ∨ bits value.toNat 4 10 = s.fld (Fld.AUD_ADC_CTRL_down_hold_ms input)) :=
  ⟨1, 6, State.reset, by decide +kernel⟩

theorem wit_ListeningMutingAndPlaying_7 : ∃ (value : W32) (s s1 : State), (s1 = (if bit value.toNat 3 then s.setFlag Fld.AUD_MUTE_mic_vdd_fault false else s).setFlag Fld.AUD_MUTE_mute (bit value.toNat 0)) :=
  ⟨0, State.reset, State.reset.setFlag Fld.AUD_MUTE_mute (bit (0#32).toNat 0), rfl⟩

theorem wit_ListeningMutingAndPlaying_8 : ∃ (s s1 : State), s1 = s.setFlag Fld.AUD_MUTE_pin_muted false :=
  ⟨State.reset, State.reset.setFlag Fld.AUD_MUTE_pin_muted false, rfl⟩

theorem wit_ListeningMutingAndPlaying_9 : ∃ (s : State), s.audMuted = false ∧ s.micOpen = false ∧ s.micSupplied = true :=
  ⟨wsPower, by decide +kernel⟩

theorem wit_ListeningMutingAndPlaying_10 : ∃ (p : Nat) (bs : List Byte) (s : State), s.tdmOn = true ∧ s.saf.damped = false ∧ s.power.phase = .run ∧ s.cread64 (s.fld Fld.WAK_CLIENT_client) (s.fld Fld.AUD_PLAY_PRODUCED_produced_addr) = .ok p ∧ s.audio.playFrame < p ∧ s.cread (s.fld Fld.WAK_CLIENT_client) (s.fld Fld.AUD_PLAY_BASE_play_base + s.audio.playFrame % max 1 (s.fld Fld.AUD_TDM_CTRL_play_count) * (4 * (s.tdmTimes * s.tdmSlots))) (4 * (s.tdmTimes * s.tdmSlots)) = .ok bs :=
  ⟨_, _, wsPlay, ⟨by decide, by decide, by decide, okVal (by decide), by decide, okVal (by decide)⟩⟩

theorem wit_ListeningMutingAndPlaying_11 : ∃ (s : State), s.tdmOn = true ∧ (s.saf.damped = true ∨ s.power.phase ≠ .run ∨ (∀ p, s.cread64 (s.fld Fld.WAK_CLIENT_client) (s.fld Fld.AUD_PLAY_PRODUCED_produced_addr) = .ok p → p ≤ s.audio.playFrame)) :=
  ⟨{ wsPlay with saf := { wsPlay.saf with damped := true } }, ⟨by decide, .inl rfl⟩⟩

theorem wit_DetectionAndConfirmation_1 : ∃ (img : List Byte) (s s0 : State), s.listening = true ∧ s.flag Fld.WAK_CTRL_tinder_enable = true ∧ s.wake.tinder = some img ∧ s.saf.damped = false ∧ s.audio.index % 480 = 0 ∧ s.audio.index ≠ 0 ∧ s.wake.lastHop ≠ s.audio.index ∧ ((s0 = s.modWake fun w => { w with lastHop := s.audio.index, feats := (s.hopFeatures s.audio.index :: w.feats).take 100 })) :=
  ⟨[], wsHop, _, ⟨by decide, by decide, rfl, by decide, by decide, by decide, by decide, rfl⟩⟩

theorem wit_DetectionAndConfirmation_2 : ∃ (logits : List W32) (s t : State), (t = s.modWake fun w => { w with held := (natRange 0 8).map fun k => if s.flag (Fld.WAK_KW_kw_enable k) = true ∧ atLeast (logits.getD (k + 1) 0) (thresh (s.fld (Fld.WAK_KW_kw_thresh k))) = true then s.wake.held.getD k 0 + 1 else 0 }) :=
  ⟨[], State.reset, State.reset.modWake fun w => { w with held := List.replicate 8 0 }, rfl⟩

theorem wit_DetectionAndConfirmation_3 : ∃ (s : State), s.listening = true ∧ s.flag Fld.WAK_CTRL_presence_enable = true ∧ s.flag Fld.WAK_CTRL_tinder_enable = true ∧ s.saf.damped = false ∧ s.wake.zones = none :=
  ⟨((wsPower.setFlag Fld.AUD_CTRL_enable true).setFlag Fld.WAK_CTRL_presence_enable true).setFlag Fld.WAK_CTRL_tinder_enable true, by decide +kernel⟩

theorem wit_DetectionAndConfirmation_4 : ∃ (zones old : List Rat) (moved n : Nat) (s : State), s.listening = true ∧ s.flag Fld.WAK_CTRL_presence_enable = true ∧ s.flag Fld.WAK_CTRL_tinder_enable = true ∧ s.saf.damped = false ∧ s.wake.zones = some old ∧ zones = zoneMeans s.wake.presLines ∧ (moved = ((natRange 0 48).filter fun z => decide (old.getD z 0 + (s.fld Fld.WAK_PRES_pres_delta : Rat) < zones.getD z 0) || decide (zones.getD z 0 + (s.fld Fld.WAK_PRES_pres_delta : Rat) < old.getD z 0)).length) ∧ (n = if max 1 (s.fld Fld.WAK_PRES_pres_zones) ≤ moved then s.wake.changed + 1 else 0) :=
  ⟨_, [], _, _, (((wsPower.setFlag Fld.AUD_CTRL_enable true).setFlag Fld.WAK_CTRL_presence_enable true).setFlag Fld.WAK_CTRL_tinder_enable true).modWake fun w => { w with zones := some [] }, ⟨by decide, by decide, by decide, by decide, rfl, rfl, rfl, rfl⟩⟩

theorem wit_DetectionAndConfirmation_5 : ∃ (s s1 : State), s.stage = 1 ∧ s.wake.running = false ∧ s.wake.resting = false ∧ s.running = true ∧ s.wake.kindling.isSome = true ∧ (s1 = match s.runOn? hubDie 0x010 with | some r => s.preempt r | none => s) :=
  ⟨(wsPower.setFld Fld.WAK_STATE_stage 1).modWake (fun w => { w with kindling := some [] }), (wsPower.setFld Fld.WAK_STATE_stage 1).modWake fun w => { w with kindling := some [] }, by decide +kernel⟩

theorem wit_DetectionAndConfirmation_6 : ∃ (img : List Byte) (s s1 t1 : State) (ok : Bool) (logit : W32), s.wake.kindling = some img ∧ s.stage = 1 ∧ s.wake.running = true ∧ s.saf.damped = false ∧ imageLast img 0 s.kindlingFrom < s.audio.index ∧ s.runKindling img 0 s.kindlingFrom = (s1, t1, ok) ∧ logit = (imageValues t1 img 0 1).getD 0 0 ∧ (ok = false ∨ atLeast logit (num32 (imageField (some img) 64 4)) = false) :=
  ⟨[], wsConfirm, _, _, false, _, ⟨rfl, by decide, by decide, by decide, by decide, tripleIs (by set_option maxRecDepth 100000 in decide +kernel), rfl, .inl rfl⟩⟩

theorem wit_DetectionAndConfirmation_7 : ∃ (img img1 : List Byte) (s s1 t1 s2 t2 s3 : State) (ok2 : Bool) (logit similarity : W32) (nearest : Nat), s.wake.kindling = some img ∧ s.stage = 1 ∧ s.wake.running = true ∧ s.saf.damped = false ∧ imageLast img 0 s.kindlingFrom < s.audio.index ∧ s.runKindling img 0 s.kindlingFrom = (s1, t1, true) ∧ logit = (imageValues t1 img 0 1).getD 0 0 ∧ atLeast logit (num32 (imageField (some img) 64 4)) = true ∧ img1 = imageAfter t1 img ∧ s1.runKindling img1 1 s.kindlingFrom = (s2, t2, ok2) ∧ nearestSpeaker (some img1) (imageValues t2 img1 1 256) = (nearest, similarity) ∧ ((s3 = s2.modWake fun w => { w with now := { w.now with confirm := logit, sim := similarity, speaker := if atLeast similarity (num32 (imageField (some img1) 68 4)) && decide (nearest < imageField (some img1) 72 1) then nearest else 0xFF }, last := { w.now with confirm := logit, sim := similarity, speaker := if atLeast similarity (num32 (imageField (some img1) 68 4)) && decide (nearest < imageField (some img1) 72 1) then nearest else 0xFF }, running := false })) :=
  ⟨wsImage, _, { wsConfirm with wake := { wsConfirm.wake with kindling := some wsImage } }, _, _, _, _, _, _, _, _, _, ⟨rfl, by decide, by decide, by decide, by decide, tripleIs (by set_option maxRecDepth 100000 in decide +kernel), rfl, by set_option maxRecDepth 100000 in decide +kernel, rfl, rfl, rfl, rfl⟩⟩

theorem wit_DetectionAndConfirmation_8 : ∃ (img : List Byte) (first : Nat) (s s1 t : State) (ok : Bool), s.wake.kindling = some img ∧ s.stage = 1 ∧ (s.wake.running = true ∨ s.wake.resting = true) ∧ s.saf.damped = false ∧ first = s.wake.now.encStart + 480 * s.wake.encSlots ∧ first + 480 ≤ s.audio.index ∧ s.runKindling img 2 first = (s1, t, ok) :=
  ⟨[], 0, { wsConfirm with audio := { wsConfirm.audio with index := 480 } }, _, _, _, ⟨rfl, by decide, by decide, by decide, by decide, by decide, rfl⟩⟩

theorem wit_DetectionAndConfirmation_9 : ∃ (s : State), s.stage = 1 ∧ s.passedUs s.wake.since (1000 * s.fld Fld.WAK_CTRL_confirm_ms) = true :=
  ⟨{ wsPower.setFld Fld.WAK_STATE_stage 1 with tb := 1000000000 }, by decide +kernel⟩

theorem wit_DetectionAndConfirmation_10 : ∃ (s : State), s.stage = 2 ∧ s.passedUs s.wake.since (1000 * s.fld Fld.WAK_CTRL_reply_ms) = true :=
  ⟨{ wsPower.setFld Fld.WAK_STATE_stage 2 with tb := 1000000000000 }, by decide +kernel⟩

theorem wit_RepliesCapturesAndImages_5 : ∃ (s s0 : State), s.flag Fld.WAK_STATE_capture_open = true ∧ s.saf.damped = false ∧ (s0 = s.modWake fun w => { w with capIndex := s.captureStart, capLost := s.wake.capLost + (s.captureStart - s.wake.capIndex), capGap := s.wake.capGap || decide (s.captureStart ≠ s.wake.capIndex) }) :=
  ⟨State.reset.setFlag Fld.WAK_STATE_capture_open true, (State.reset.setFlag Fld.WAK_STATE_capture_open true).modWake fun w => { w with capIndex := 0, capLost := 0, capGap := false }, all2 (by decide +kernel) (rfl)⟩

theorem wit_RepliesCapturesAndImages_6 : ∃ (s : State), s.flag Fld.WAK_LOAD_load_busy = false :=
  ⟨State.reset, by decide +kernel⟩

theorem wit_RepliesCapturesAndImages_7 : ∃ (target a e : Nat) (s : State), s.wake.loading = some target ∧ (target = 1 ∨ target = 2) ∧ (a = if target = 1 then s.fld Fld.WAK_TINDER_IMG_tinder_img else s.fld Fld.WAK_KND_IMG_kindling_img) :=
  ⟨1, 0, 5, wsLoading, by decide +kernel⟩

theorem wit_CommandsTouchOnlyTheirParts_8 : ∃ (s : State), ((∀ g, (s.dmc g).errs = [])) ∧ ((∀ d, (s.hearth d).errs = [])) :=
  ⟨State.reset, ⟨fun _ => rfl, fun _ => rfl⟩⟩

theorem wit_StoresReachTheirBytes_2 : ∃ (cl a d : Nat) (bs : List Byte) (p : Place) (s : State), bs ≠ [] ∧ a % 64 + bs.length ≤ 64 :=
  ⟨0, 0xC00000000000, 0, [1], .unbacked, State.reset, by decide +kernel⟩

theorem wit_StoresReachTheirBytes_3 : ∃ (e : Eng) (w : W128) (r : Run) (g : EngRun) (f : EngRun → EngRun) (s t : State), t = ((s.begun e w r g).modEng e f).advance e :=
  ⟨weng, wword16 [], wrun 5 0 0, { unit := 0x040 }, id, wsRun 5 0 0, (((wsRun 5 0 0).begun weng (wword16 []) (wrun 5 0 0) { unit := 0x040 }).modEng weng id).advance weng, rfl⟩

/-! ### WellFormed refuses a term that fails each of its checks, and takes one that passes -/

theorem test_wf_dieOk : Instr.wellFormed (.dieDrain 7) = false := by decide +kernel
theorem test_wf_diesOk : Instr.wellFormed (.powerCapAdjust [7]) = false := by decide +kernel
theorem test_wf_entryOk : Instr.wellFormed (.vtimeTick 0 2048) = false := by decide +kernel
theorem test_wf_engOk : Instr.wellFormed (.nop ⟨0, 0, 8⟩ 0) = false := by decide +kernel
theorem test_wf_engineOk : Instr.wellFormed (.parkLimit 0 8) = false := by decide +kernel
theorem test_wf_engCheckOk : Instr.wellFormed (.matmul ⟨0, 0, 0⟩ 0 (.castout 0 0 0 4 0 1)) = false := by decide +kernel
theorem test_wf_byteOk : Instr.wellFormed (.requestReissue 0 256) = false := by decide +kernel
theorem test_wf_halfOk : Instr.wellFormed (.epochNotice 0 65536) = false := by decide +kernel
theorem test_wf_seqOk : Instr.wellFormed (.refusalRecheck 0 (2 ^ 64)) = false := by decide +kernel
theorem test_wf_unitOk : Instr.wellFormed (.selftestStart 65536) = false := by decide +kernel
theorem test_wf_clientOk : Instr.wellFormed (.clientClear 4096) = false := by decide +kernel
theorem test_wf_functionOk : Instr.wellFormed (.clientAttach 64) = false := by decide +kernel
theorem test_wf_ringOk : Instr.wellFormed (.stepCheck 1048576) = false := by decide +kernel
theorem test_wf_pageOk : Instr.wellFormed (.reservedPageBacked 131072) = false := by decide +kernel
theorem test_wf_groupOk : Instr.wellFormed (.lapOverdue 16) = false := by decide +kernel
theorem test_wf_barOk : Instr.wellFormed (.regWrite 0x8000000 false 0) = false := by decide +kernel
theorem test_wf_sizeOk : Instr.wellFormed (.emptyOffsetAccess 0 9 false) = false := by decide +kernel
theorem test_wf_bar4Ok : Instr.wellFormed (.bar4Read (2 ^ 48) 1) = false := by decide +kernel
theorem test_wf_lenOk : Instr.wellFormed (.bar4Read 0 0) = false := by decide +kernel
theorem test_wf_dataOk : Instr.wellFormed (.bar4Write 0 (List.replicate 4097 0)) = false := by decide +kernel
theorem test_wf_moduleOk : Instr.wellFormed (.moduleFail 0x080 2) = false := by decide +kernel
theorem test_wf_modulesOk : Instr.wellFormed (.linkTrained 0x080 4 0) = false := by decide +kernel
theorem test_wf_flitOk : Instr.wellFormed (.flitReceive 0x080 0 []) = false := by decide +kernel
theorem test_wf_flitSeqOk : Instr.wellFormed (.flitNakReplay 0x080 0 4096) = false := by decide +kernel
theorem test_wf_headerOk : Instr.wellFormed (.read ⟨⟨256, 0, 0, 0, 0, 0, 0, 16, false, false⟩, []⟩ []) = false := by decide +kernel
theorem test_wf_msgOk : Instr.wellFormed (.readData ⟨⟨0, 0, 0, 0, 0, 0, 0, 16, false, false⟩, List.replicate 65 0⟩) = false := by decide +kernel
theorem test_wf_dispatchOk : Instr.wellFormed (.dispatchPlace 0 ⟨0, 0, 0, 3, 0, 0, 0, 0, 0, 0, 0, 0, 0⟩) = false := by decide +kernel
theorem test_wf_tallyOk : Instr.wellFormed (.tally ⟨2 ^ 64, 0, 0, 0, 0, 0, 0, 0, 0, 0, 0, 0, 0⟩) = false := by decide +kernel
theorem test_wf_faultReportOk : Instr.wellFormed (.event ⟨8, .unit, 0, 0, none, 0, 0, none, none⟩) = false := by decide +kernel
theorem test_wf_offerOk : Instr.wellFormed (.blockOffer 0 ⟨2 ^ 32, 0, 0, 0, 0, 0, 0, 0, 0⟩) = false := by decide +kernel
theorem test_wf_tracePacketOk : Instr.wellFormed (.tracePacket ⟨1, 0, 0, 0, List.replicate 21 0⟩) = false := by decide +kernel
theorem test_wf_keyMsgOk : Instr.wellFormed (.keyAgreementMsg 0 ⟨true, true, 0, 16, 2⟩) = false := by decide +kernel
theorem test_wf_counterOk : Instr.wellFormed (.ringFrameNak 0 (2 ^ 40)) = false := by decide +kernel
theorem test_wf_ringFrameOk : Instr.wellFormed (.ringFrame 0 ⟨2, 0, 0, 0, 0, [], true, true, 0⟩) = false := by decide +kernel
theorem test_wf_imageOk : Instr.wellFormed (.logicReady 0 (some ⟨[], true, true⟩) none) = false := by decide +kernel
theorem test_wf_errsOk : Instr.wellFormed (.mergeAgeFlush 0 [(0, List.replicate 11 0)] false) = false := by decide +kernel
theorem test_wf_devicesOk : Instr.wellFormed (.dramHealthCheck 0 [10]) = false := by decide +kernel
theorem test_wf_causeOk : Instr.wellFormed (.damper 8) = false := by decide +kernel
theorem test_wf_camPortOk : Instr.wellFormed (.routeTableRefresh 4) = false := by decide +kernel
theorem test_wf_channelOk : Instr.wellFormed (.frameTimeout 16) = false := by decide +kernel
theorem test_wf_vcOk : Instr.wellFormed (.frameEndPacket 0 32 .none) = false := by decide +kernel
theorem test_wf_dtOk : Instr.wellFormed (.shortPacket 0 0 64 .none) = false := by decide +kernel
theorem test_wf_payloadOk : ∃ l, Instr.wellFormed (.longPacket 0 0 0x2A l .none) = false :=
  ⟨List.replicate 65536 0, by
    generalize h : List.replicate 65536 (0 : Byte) = l
    have e : l.length = 65536 := by rw [← h]; exact List.length_replicate
    have f : payloadOk l = false := by unfold payloadOk; rw [e]; rfl
    simp only [Instr.wellFormed, f, Bool.and_false]⟩
theorem test_wf_pairOk : Instr.wellFormed (.rekeyNow 2) = false := by decide +kernel
theorem test_wf_micsOk : Instr.wellFormed (.sampleTick (List.replicate 33 0) [] []) = false := by decide +kernel
theorem test_wf_analogOk : Instr.wellFormed (.sampleTick [] [0, 0, 0] []) = false := by decide +kernel
theorem test_wf_tdmOk : Instr.wellFormed (.sampleTick [] [] (List.replicate 65 0)) = false := by decide +kernel
theorem test_wf_passesOk : Instr.wellFormed (.injectionDone 0 (List.replicate 8 0)) = false := by decide +kernel
theorem test_wf_tempsOk : Instr.wellFormed (.thermalSample (List.replicate 9 0)) = false := by decide +kernel
theorem test_wf_bootSelOk : Instr.wellFormed (.logicReady 4 none none) = false := by decide +kernel
theorem test_wf_counterNoOk : Instr.wellFormed (.countLoRead 0xC1000 16) = false := by decide +kernel
theorem test_wf_fourOk : Instr.wellFormed (.i3cIbi 4 0) = false := by decide +kernel
theorem test_wf_indOk : Instr.wellFormed (.indRampEnd 6) = false := by decide +kernel
theorem test_wf_gpioOk : Instr.wellFormed (.gpioEdge 24 true) = false := by decide +kernel
theorem test_wf_addr7Ok : Instr.wellFormed (.i3cIbi 0 128) = false := by decide +kernel
theorem test_wf_speedOk : Instr.wellFormed (.hostLinkL0 6 4) = false := by decide +kernel
theorem test_wf_widthOk : Instr.wellFormed (.hostLinkL0 1 3) = false := by decide +kernel
theorem test_wf_tapOk : Instr.wellFormed (.samplePreload (List.replicate 4097 false) []) = false := by decide +kernel
theorem test_wf_good : Instr.wellFormed (.dieDrain 6) = true ∧ Instr.wellFormed (.tinderHop true) = true ∧
    Instr.wellFormed (.nop ⟨8, 2047, 7⟩ 0) = true ∧ Instr.wellFormed (.countLoRead 0xC1000 15) = true := by decide +kernel

/-! ### Values that the spec's own text works out -/

/-- A doorbell record holding the tail 0x12A40 holds 0x40 at offset 0 and 0x2A at offset 1 (spec/00_scope.md, Conventions). -/
theorem test_bytes_are_little_endian : (leBytes 0x12A40 8).take 3 = [0x40, 0x2A, 0x01] := by decide

/-- The identification register of a VXP8 of grade AQ, and the VXP4 value that the reset state holds (R7). -/
theorem test_glb_id : regReset .vxp8 .aq Reg.GLB_ID = 0x7A51B047#64 := by decide

/-- ATE1 of compute die 3 sits at BAR0 0x283_4000 (spec/01_package_and_paths.md, the example of R53). -/
theorem test_ate_address : Reg.ATE_CTRL 3 1 = 0x2834000 := by decide

/-- Granule 0x1234 of die 3 with generation 5 has the handle 0x0141_9234 (R310). -/
theorem test_handle : handleOf 0x1234 3 5 = 0x01419234 ∧ handleGranule 0x01419234 = 0x1234 ∧ handleDie 0x01419234 = 3 ∧
    handleGen 0x01419234 = 5 := by decide

/-- The rod of two INT8 groups is 4.6875 (R172's worked example): scales 0x18, 0x20 and 0x2C in E4M3, bead counts 1,234 and -517. -/
theorem test_rod : pattern32 (add32 1 (mul32 1 (numOfInt 1234) (mul32 1 (e4m3.decode 0x18) (e4m3.decode 0x2C)))
    (mul32 1 (numOfInt (-517)) (mul32 1 (e4m3.decode 0x20) (e4m3.decode 0x2C)))) = 0x40960000 := by decide +kernel

/-- That rod stored as E4M3 under the three rounding modes (R174's worked example). -/
theorem test_rod_stored : e4m3.encode (e4m3.round (num32 0x40960000) 0 0).1 = 0x49 ∧ e4m3.encode (e4m3.round (num32 0x40960000) 1 0).1 = 0x49 ∧
    e4m3.encode (e4m3.round (num32 0x40960000) 2 0x5FFF).1 = 0x4A ∧ e4m3.encode (e4m3.round (num32 0x40960000) 2 0x6000).1 = 0x49 := by
  decide +kernel

/-- The linear index of the element in column 130 of row 700 of a card of 5,120 by 2,500 (R181's worked example). -/
theorem test_linear_index : (wcard 0 5 0 0 [5120, 2500] 0).linear [130, 700] = 3584130 := by decide +kernel

/-- The scale of an INT8 group of largest magnitude 3.5 is 0x7A in E8 and 0x0F in E4M3 (R184's worked example). -/
theorem test_requant_scales : (requantScale 3 (requantLimit 3) (num32 0x40600000)).2 = 0x7A ∧
    (requantScale 1 (requantLimit 3) (num32 0x40600000)).2 = 0x0F := by decide +kernel

/-- The edge after edge 1,000,003, whose `frac` is 5: floor(1,171.875 × 1,000,004) is 1,172 above floor(1,171.875 × 1,000,003) (R472). -/
theorem test_rtc_edge : exec .rtcEdge { State.reset.setFlag Fld.CLK_TB_STATUS_rtc_mode true with
      tb := 0x50000000 + 1171878515, power := { State.reset.power with frac := 5 } } =
    .next { State.reset.setFlag Fld.CLK_TB_STATUS_rtc_mode true with
      tb := 0x50000000 + 1171879687, power := { State.reset.power with frac := 4 } } := by rfl

/-- A sleep of 1,171,884,375 ticks adds 23,439 ticks of uncertainty (R473's worked example). -/
theorem test_handback : ∃ t, exec .timebaseHandback { wsHandback with tb := 0x95D98957, power := { wsHandback.power with rtcFrom := 0x50000000 } } = .next t ∧
    t.fld Fld.CLK_LAST_SLEEP_last_sleep = 1171884375 ∧ t.fld Fld.CLK_TB_UNCERT_uncert = 23439 :=
  ⟨_, rfl, by decide +kernel⟩

/-- The JTAG identification codes (R518). -/
theorem test_idcodes : idcodeOf .vxp2 = 0xB7A524F3 ∧ idcodeOf .vxp4 = 0xB7A544F3 ∧ idcodeOf .vxp8 = 0xB7A584F3 := by decide

/-- A SAFE frame with other data does not trip the damper (R424); one with 0xA55A does (R425). -/
theorem test_watch_safe : (watchSafe 0xA55B wsPower).saf.damped = false ∧ (watchSafe 0xA55A wsPower).saf.damped = true := by decide +kernel

/-- A RESET_N low of 9 µs does nothing, one of 10 ms is a cold reset (R511). -/
theorem test_reset_pin : resetPinRise 9 wsPower = wsPower ∧ (resetPinRise 10000 wsPower).power.phase = .regulator := ⟨rfl, rfl⟩

/-- Indicator channels: five of 60 mA would pass the budget of 240 mA with a sixth; four do not (R515). -/
theorem test_indicator_budget :
    (indChannelOn 4 (60 + 64) ((((State.reset.setFld (Fld.IND_CH_current_ma 0) 60).setFlag (Fld.IND_CH_on 0) true).setFld (Fld.IND_CH_current_ma 1) 60).setFlag
      (Fld.IND_CH_on 1) true)).flag Fld.IND_STATUS_budget_error = false := by decide +kernel

/-- Two writes set a 48-bit counter (R482). -/
theorem test_counter_write : mapGet ((countLoWrite kindlingBlock 2 5 (countHiWrite kindlingBlock 2 0x1FFFF wsPower)).cnt kindlingBlock).counts 2 0 =
    0xFFFF00000005 := by decide +kernel

/-- An unlisted byte of memory reads zero, and writing zero removes a cell (log 2). -/
theorem test_memory_canonical : memoryWrite (memoryWrite [] 5 [1, 2]) 5 [0] = [(6, 2)] ∧ memoryRead [(6, 2)] 5 3 = [0, 2, 0] := by decide

/-- A step on an empty queue counts one tick; with a command in front it runs the command (log 6). -/
theorem test_steps : step { State.reset with pending := [.rtcEdge] } = .next State.reset ∧
    step { wsPower with tb := 7 } = .next (tick { wsPower with tb := 7 }) := ⟨rfl, rfl⟩

/-- EMB_ENCODE of four zeros stores the stream's header and its one block (R300, R289 to R292). -/
theorem test_encode_stream : (match exec (.embEncode weng wencW .pass) (wcode wencW (wput (wsT 4 wemcs {}) wemem)) with
    | .next t => memoryRead t.mem (hostKey 0 0xC00000000000) wstream.length
    | _ => []) = wstream := by decide +kernel

/-- GPIO4 to GPIO23 float in SLEEP, GPIO0 to GPIO3 do not (R464, R513). -/
theorem test_gpio_sleep :
    ({ State.reset with power := { State.reset.power with phase := .sleep } }.setFlag (Fld.IND_GPIO_oe 4) true).outputState (.gpio 4) = .floats ∧
    ({ State.reset with power := { State.reset.power with phase := .sleep } }.setFlag (Fld.IND_GPIO_oe 3) true).outputState (.gpio 3) = .low := by
  decide +kernel

/-- GELU(-14) is -14 Φ(-14), whose magnitude lies between 2^-143 and 2^-142 (R224; Φ(-14) = 7.79e-45). -/
theorem test_gelu_tail : (match gateExact 0x0A true 7 1 with
    | .fin true m e => (Num.fin false 1 (-143)).lt (.fin false m e) && (Num.fin false m e).lt (.fin false 1 (-142))
    | _ => false) = true := by decide +kernel

/-- Dies 0 and 1 of a VXP8 with the ring link between them and die 0's hub link down: all the way West (R37, third choice). -/
theorem test_longer_ring_way :
    (forEach [0x081, 0x080] (forEach (natRange 0 7) ({ wsPower with variant := .vxp8 } : State) fun d t =>
      forEach [0x080, 0x081, 0x082] t fun u x => x.setFlag (Fld.HXL_STATUS_link_up (linkBlk (unitOf d u))) true) fun u t =>
        t.linkDown (unitOf 0 u)).path 0 1 = some [0x082, 0x6082, 0x5082, 0x4082, 0x3082, 0x2082] := by decide +kernel

end Sys2Proof.Tests
end

section
/-! Settles the obligation on rejected doorbell words (R61): what a doorbell word that is rejected does to the state, in one lemma,
and what it takes for a nudge and for each ring-control word to be one. -/

namespace Sys2Proof.Machine

open Sys2Proof

/-- A word through an open doorbell that names a ring outside the client's range, or has a reserved bit set, is rejected (R61). -/
theorem State.doorbell_eq_rejectDoorbell {s : State} {fn c : Nat} {word : W32} {rsv : Bool} (act : Nat → State → State)
    (hopen : s.doorbellOpen fn c = true) (hbad : s.ringOf c (bits word.toNat 0 20) = false ∨ rsv = false) :
    s.doorbell fn c word rsv act = s.rejectDoorbell c := by
  have hcond : !s.attached c ∨ !s.ringOf c (bits word.toNat 0 20) ∨ !rsv := by
    rcases hbad with hring | hrsv
    · simp [hring]
    · simp [hrsv]
  simp only [State.doorbell, hopen]
  rw [if_neg (by decide), if_pos hcond]

/-- A ring-control word is rejected whatever its operation (R61). -/
theorem State.ringControl_eq_rejectDoorbell {s : State} {fn c : Nat} {word : W32} (op : Nat) (act : Nat → State → State)
    (hopen : s.doorbellOpen fn c = true) (hbad : s.ringOf c (bits word.toNat 0 20) = false ∨ bits word.toNat 24 8 ≠ 0) :
    s.ringControl fn c word op act = s.rejectDoorbell c :=
  State.doorbell_eq_rejectDoorbell _ hopen (hbad.imp_right decide_eq_false)

/-- A nudge through an open doorbell that names a ring outside the client's range, or has a reserved bit set, is rejected (R61). -/
theorem nudge_eq_rejectDoorbell {function client : Nat} {word : W32} {s : State} (hopen : s.doorbellOpen function client = true)
    (hbad : s.ringOf client (bits word.toNat 0 20) = false ∨ bits word.toNat 20 12 ≠ 0) :
    nudge function client word s = s.rejectDoorbell client :=
  State.doorbell_eq_rejectDoorbell _ hopen (hbad.imp_right decide_eq_false)

/-- A rejected word of an attached client is counted in its account and recorded. -/
theorem State.rejectDoorbell_of_attached {s : State} {c : Nat} (hatt : s.attached c = true) :
    s.rejectDoorbell c = (s.acct c acDoorbell 1).logRecorded unitSched 0 c :=
  if_pos hatt

/-- An addition to a counter of a client's account raises that counter. -/
theorem State.acct_counter_same (s : State) (c off n : Nat) :
    mapGet ((s.acct c off n).client c).acct off 0 = mapGet (s.client c).acct off 0 + n := by
  simp [State.acct]

/-- An addition to a counter of a client's account leaves the other clients as they are. -/
theorem State.client_acct_other (s : State) {c x : Nat} (off n : Nat) (h : x ≠ c) :
    (s.acct c off n).client x = s.client x :=
  State.client_modClient_other s _ h

/-- An addition to a counter of a client's account changes the table of clients alone. -/
theorem State.acct_frame (s : State) (c off n : Nat) :
    s.acct c off n = { s with clients := (s.acct c off n).clients } := rfl

/-! ### The four doorbell commands answer a next state -/

theorem exec_nudge_eq (function client : Nat) (word : W32) (s : State) :
    exec (.nudge function client word) s = .next (nudge function client word s) := rfl

theorem exec_ringStart_eq (function client : Nat) (word : W32) (s : State) :
    exec (.ringStart function client word) s = .next (ringStart function client word s) := rfl

theorem exec_ringStop_eq (function client : Nat) (word : W32) (s : State) :
    exec (.ringStop function client word) s = .next (ringStop function client word s) := rfl

theorem exec_ringDrain_eq (function client : Nat) (word : W32) (s : State) :
    exec (.ringDrain function client word) s = .next (ringDrain function client word s) := rfl

/-! ### The obligation -/

/-- Settles O14: each such word comes to `rejectDoorbell`, which adds one to the client's counter and records the event. -/
theorem doorbellRejections : Obligations.DoorbellRejections := by
  refine ⟨fun function client word s hopen hatt hbad => ?nudge, fun function client word s hopen hatt hbad => ?control⟩
  case nudge =>
    exact ⟨s.acct client acDoorbell 1,
      by rw [exec_nudge_eq, nudge_eq_rejectDoorbell hopen hbad, State.rejectDoorbell_of_attached hatt],
      s.acct_counter_same client _ 1, fun _ => s.client_acct_other _ 1, s.acct_frame client _ 1⟩
  case control =>
    have hrej op act : s.ringControl function client word op act = (s.acct client acDoorbell 1).logRecorded unitSched 0 client :=
      (State.ringControl_eq_rejectDoorbell op act hopen hbad).trans (State.rejectDoorbell_of_attached hatt)
    exact ⟨s.acct client acDoorbell 1,
      by rw [exec_ringStart_eq, ringStart, hrej],
      by rw [exec_ringStop_eq, ringStop, hrej],
      by rw [exec_ringDrain_eq, ringDrain, hrej],
      s.acct_counter_same client _ 1, fun _ => s.client_acct_other _ 1, s.acct_frame client _ 1⟩

end Sys2Proof.Machine
end

section
/-! What the writing of memory, the log and the release of steps leave alone of the package's safety state: SAF_STATUS, and the
supervisors', damper's and watch port's part of the state (R406 to R428). -/

namespace Sys2Proof.Machine

open Sys2Proof

/-! ### The safety state without the fault log's own bookkeeping -/

/-- SAF_STATUS, and the safety state but for what the fault log itself keeps (R407): the records being merged, the count of lost
records and the time of the last interrupt. -/
def State.safetyView (s : State) : Nat × Safety :=
  (s.reg Reg.SAF_STATUS, { s.saf with merges := [], lost := 0, msixAt := none })

/-- A field of SAF_STATUS is a function of the safety view. -/
theorem State.fld_eq_of_safetyView {s t : State} (h : t.safetyView = s.safetyView) {f : Fld} (hf : f.key = Reg.SAF_STATUS) :
    t.fld f = s.fld f := by
  have hreg : t.reg Reg.SAF_STATUS = s.reg Reg.SAF_STATUS := congrArg Prod.fst h
  simp only [State.fld, hf, hreg]

/-- The watch port's next response is a function of the safety view. -/
theorem State.watchNext_eq_of_safetyView {s t : State} (h : t.safetyView = s.safetyView) : t.saf.watchNext = s.saf.watchNext :=
  congrArg (fun v : Nat × Safety => v.2.watchNext) h

/-- The registers of a group's controller (R347) lie above SAF_STATUS. -/
theorem dmcBase_add_ne_safStatus (g k : Nat) : dmcBase g + k ≠ Reg.SAF_STATUS := by
  simp only [dmcBase, dieBase, Reg.SAF_STATUS]
  split <;> omega

/-! ### The base updates -/

section Updates

variable (s : State)

theorem State.safetyView_setReg {key : Nat} (v : Nat) (h : key ≠ Reg.SAF_STATUS) : (s.setReg key v).safetyView = s.safetyView := by
  simp [State.safetyView, State.reg_setReg_other _ _ h.symm]

theorem State.safetyView_setFld {f : Fld} (v : Nat) (h : f.key ≠ Reg.SAF_STATUS) : (s.setFld f v).safetyView = s.safetyView :=
  s.safetyView_setReg _ h

theorem State.safetyView_setFlag {f : Fld} (b : Bool) (h : f.key ≠ Reg.SAF_STATUS) : (s.setFlag f b).safetyView = s.safetyView :=
  s.safetyView_setReg _ h

theorem State.safetyView_addFld {f : Fld} (n : Nat) (h : f.key ≠ Reg.SAF_STATUS) : (s.addFld f n).safetyView = s.safetyView :=
  s.safetyView_setReg _ h

@[simp] theorem State.safetyView_store (a : Nat) (bs : List Byte) : (s.store a bs).safetyView = s.safetyView := rfl
@[simp] theorem State.safetyView_send (m : Sent) : (s.send m).safetyView = s.safetyView := rfl
@[simp] theorem State.safetyView_msix (fn vec : Nat) : (s.msix fn vec).safetyView = s.safetyView := rfl
@[simp] theorem State.safetyView_modClient (c : Nat) (f : Client → Client) : (s.modClient c f).safetyView = s.safetyView := rfl
@[simp] theorem State.safetyView_modRing (r : Nat) (f : Ring → Ring) : (s.modRing r f).safetyView = s.safetyView := rfl
@[simp] theorem State.safetyView_modHearth (d : Nat) (f : Hearth → Hearth) : (s.modHearth d f).safetyView = s.safetyView := rfl
@[simp] theorem State.safetyView_modDmc (g : Nat) (f : Dmc → Dmc) : (s.modDmc g f).safetyView = s.safetyView := rfl
@[simp] theorem State.safetyView_modStep (r q : Nat) (f : Step → Step) : (s.modStep r q f).safetyView = s.safetyView := rfl
@[simp] theorem State.safetyView_modCmd (r q i : Nat) (f : Cmd → Cmd) : (s.modCmd r q i f).safetyView = s.safetyView := rfl
@[simp] theorem State.safetyView_acct (c off n : Nat) : (s.acct c off n).safetyView = s.safetyView := rfl
@[simp] theorem State.safetyView_setVt (c kind v : Nat) : (s.setVt c kind v).safetyView = s.safetyView := rfl
@[simp] theorem State.safetyView_putWord (g cw : Nat) (bs : List Byte) : (s.putWord g cw bs).safetyView = s.safetyView := rfl
@[simp] theorem State.safetyView_putClinker (g cw : Nat) (bs : List Byte) : (s.putClinker g cw bs).safetyView = s.safetyView := rfl
@[simp] theorem State.safetyView_markDirty (g off : Nat) : (s.markDirty g off).safetyView = s.safetyView := rfl

end Updates

/-! ### Trace packets and the fault log -/

@[simp] theorem State.safetyView_dropPacket (s : State) (p : TracePacket) (note : Bool) :
    (s.dropPacket p note).safetyView = s.safetyView := by
  have hbase : ((s.addFld Fld.DBG_TRACE_LOST_lost 1).setFlag Fld.DBG_TRACE_STATUS_loss_seen true).safetyView = s.safetyView := by
    rw [State.safetyView_setFlag _ _ (by decide), State.safetyView_addFld _ _ (by decide)]
  unfold State.dropPacket
  split <;> exact hbase

@[simp] theorem State.safetyView_postPacket (s : State) (p : TracePacket) : (s.postPacket p).safetyView = s.safetyView := by
  unfold State.postPacket
  dsimp only
  split
  · exact State.safetyView_setFld _ _ (by decide)
  · rfl

@[simp] theorem State.safetyView_hubPacket (s : State) (p : TracePacket) : (s.hubPacket p).1.safetyView = s.safetyView := by
  unfold State.hubPacket
  split
  · split
    · rfl
    · rfl
    · exact State.safetyView_postPacket s p
    · exact State.safetyView_dropPacket s p false
  · dsimp only
    split <;> rfl

@[simp] theorem State.safetyView_hubTake (ps : List TracePacket) (s : State) : (State.hubTake ps s).1.safetyView = s.safetyView := by
  induction ps generalizing s with
  | nil => rfl
  | cons p ps ih =>
    have hp := State.safetyView_hubPacket s p
    unfold State.hubTake
    split
    · next s1 heq => rw [ih, ← hp, heq]
    · rfl

@[simp] theorem State.safetyView_forwardTrace (s : State) (d : Nat) (buf : List TracePacket) :
    (s.forwardTrace d buf).safetyView = s.safetyView := by
  unfold State.forwardTrace
  split
  next s1 left htake =>
    have hs1 : s1.safetyView = s.safetyView := by
      split at htake
      · rw [← State.safetyView_hubTake buf s, htake]
      · cases htake; rfl
    rw [← hs1]
    exact forEach_proj State.safetyView _ s1 _ fun _ _ => rfl

@[simp] theorem State.safetyView_trigger (s : State) (cause : Nat) : (s.trigger cause).safetyView = s.safetyView := by
  unfold State.trigger
  split
  · simp only [State.safetyView_postPacket]
    rw [State.safetyView_setReg _ _ (by decide), State.safetyView_setFld _ _ (by decide)]
  · rfl

@[simp] theorem State.safetyView_arrive (s : State) (p : TracePacket) : (s.arrive p).safetyView = s.safetyView := by
  unfold State.arrive
  extract_lets d buf throttle _ t s1
  have hs1 : s1.safetyView = s.safetyView := by
    unfold s1
    split
    · split
      next t hhub => rw [← State.safetyView_hubPacket s p, hhub]
      next t hhub => rw [State.safetyView_dropPacket, ← State.safetyView_hubPacket s p, hhub]
    · split
      · rw [State.safetyView_forwardTrace]
        unfold t
        split <;> rfl
      · exact State.safetyView_dropPacket s p true
  split
  · exact (State.safetyView_trigger s1 _).trans hs1
  · exact hs1

@[simp] theorem State.safetyView_packet (s : State) (ty unit client : Nat) (payload : List Byte) :
    (s.packet ty unit client payload).safetyView = s.safetyView := by
  unfold State.packet
  split
  · exact State.safetyView_arrive s _
  · rfl

@[simp] theorem State.safetyView_noteWakeOut (s : State) : s.noteWakeOut.safetyView = s.safetyView := by
  unfold State.noteWakeOut
  split <;> rfl

@[simp] theorem State.safetyView_writeLog (s : State) (r : LogRec) : (s.writeLog r).safetyView = s.safetyView := by
  unfold State.writeLog
  extract_lets s0 head count _ slot s1 _ s2 due
  have hs0 : s0.safetyView = s.safetyView := by
    unfold s0
    rw [State.safetyView_packet]
    split
    · exact State.safetyView_noteWakeOut s
    · rfl
  have hs1 : s1.safetyView = s.safetyView := (State.safetyView_setFld _ _ (by decide)).trans hs0
  clear_value s1 s0
  split
  · split
    · exact hs0
    · split
      · exact hs1
      · exact hs1
  · exact hs0

@[simp] theorem State.safetyView_logEvent (s : State) (cls action unit detail client seq ring : Nat) :
    (s.logEvent cls action unit detail client seq ring).safetyView = s.safetyView :=
  State.safetyView_writeLog s _

@[simp] theorem State.safetyView_writeMerge (s : State) (m : LogMerge) : (s.writeMerge m).safetyView = s.safetyView :=
  State.safetyView_writeLog _ _

@[simp] theorem State.safetyView_logCorrected (s : State) (unit detail client : Nat) :
    (s.logCorrected unit detail client).safetyView = s.safetyView := by
  unfold State.logCorrected
  extract_lets s1
  have hs1 : s1.safetyView = s.safetyView := by
    unfold s1
    split
    · split
      · exact State.safetyView_writeMerge s _
      · rfl
    · rfl
  exact hs1

/-! ### Writes to memory, with what the controllers record of them -/

@[simp] theorem State.safetyView_noteUe (s : State) (g cw : Nat) : (s.noteUe g cw).safetyView = s.safetyView := by
  unfold State.noteUe
  extract_lets s1
  have hs1 : s1.safetyView = s.safetyView := by
    unfold s1
    rw [State.safetyView_setFld _ _ (dmcBase_add_ne_safStatus g 0x10), State.safetyView_setFlag _ _ (dmcBase_add_ne_safStatus g 4)]
  split <;> exact hs1

section Recorders

variable {tell : State → Nat → Nat → List Nat → State} {note : State → Nat → Nat → State}
  (htell : ∀ t g ev owners, (tell t g ev owners).safetyView = t.safetyView)
  (hnote : ∀ t g j, (note t g j).safetyView = t.safetyView)

include htell

theorem State.safetyView_exposeGroupBy (s : State) (g : Nat) : (s.exposeGroupBy tell g).safetyView = s.safetyView := by
  unfold State.exposeGroupBy
  rw [State.safetyView_modDmc, htell, State.safetyView_logEvent, State.safetyView_setFlag _ _ (dmcBase_add_ne_safStatus g 4)]

theorem State.safetyView_markPositionBy (s : State) (g j : Nat) : (s.markPositionBy tell g j).safetyView = s.safetyView := by
  unfold State.markPositionBy
  extract_lets f s1
  have hs1 : s1.safetyView = s.safetyView := by
    unfold s1
    rw [State.safetyView_logEvent, State.safetyView_setFld _ _ (dmcBase_add_ne_safStatus g 4)]
  split
  · rfl
  · split
    · exact (State.safetyView_exposeGroupBy htell s1 g).trans hs1
    · exact hs1

theorem State.safetyView_noteCorrectionBy (s : State) (g j : Nat) : (s.noteCorrectionBy tell g j).safetyView = s.safetyView := by
  unfold State.noteCorrectionBy
  extract_lets b s1 n s2
  have hs2 : s2.safetyView = s.safetyView := by
    unfold s2 s1
    rw [State.safetyView_modDmc, State.safetyView_logCorrected, State.safetyView_setFlag _ _ (dmcBase_add_ne_safStatus g 4),
      State.safetyView_addFld _ _ (dmcBase_add_ne_safStatus g 8)]
  split
  · exact (State.safetyView_markPositionBy htell s2 g j).trans hs2
  · exact hs2

omit htell
include hnote

theorem State.safetyView_noteCorrected (s : State) (g cw : Nat) : (s.noteCorrected note g cw).safetyView = s.safetyView := by
  unfold State.noteCorrected
  split
  · exact hnote s g _
  · rfl

theorem State.safetyView_flushWordBy (s : State) (g : Nat) (e : MergeEntry) (k : Nat) :
    (s.flushWordBy note g e k).safetyView = s.safetyView := by
  unfold State.flushWordBy
  dsimp only
  split
  · rfl
  · split
    · rfl
    · split
      · exact State.safetyView_noteCorrected hnote s g _
      · exact State.safetyView_noteUe _ g _

omit hnote in
theorem State.safetyView_flushBad (s : State) (g : Nat) (e : MergeEntry) : (s.flushBad g e).safetyView = s.safetyView :=
  forEach_proj State.safetyView _ _ _ fun _ _ => State.safetyView_noteUe _ g _

theorem State.safetyView_flushEntryBy (s : State) (g : Nat) (e : MergeEntry) : (s.flushEntryBy note g e).safetyView = s.safetyView := by
  unfold State.flushEntryBy
  split
  · exact State.safetyView_flushBad s g e
  · exact forEach_proj State.safetyView _ _ _ fun k t => State.safetyView_flushWordBy hnote t g e k

theorem State.safetyView_writeLineBy (s : State) (g off : Nat) (bs : List Byte) :
    (s.writeLineBy note g off bs).safetyView = s.safetyView := by
  unfold State.writeLineBy
  dsimp only
  split
  · split
    · exact State.safetyView_flushEntryBy hnote s g _
    · rfl
  · split
    · exact forEach_proj State.safetyView _ _ _ fun _ _ => rfl
    · rw [State.safetyView_modDmc]
      split
      · split
        · exact State.safetyView_flushEntryBy hnote s g _
        · rfl
      · rfl

theorem State.safetyView_dramWriteBy (s : State) (g off : Nat) (bs : List Byte) :
    (s.dramWriteBy note g off bs).safetyView = s.safetyView :=
  forEach_proj State.safetyView _ _ _ fun _ _ => State.safetyView_writeLineBy hnote _ g _ _

omit hnote in
theorem State.safetyView_cleanHearth (s : State) (d off n : Nat) : (s.cleanHearth d off n).safetyView = s.safetyView := by
  refine forEach_proj State.safetyView _ _ _ fun w t => ?_
  dsimp only
  split <;> rfl

theorem State.safetyView_putAtBy (s : State) (p : Place) (bs : List Byte) : (s.putAtBy note p bs).safetyView = s.safetyView := by
  cases p with
  | dram g off => exact State.safetyView_dramWriteBy hnote s g off bs
  | unbacked => rfl
  | hearth d off => exact State.safetyView_cleanHearth s d off bs.length
  | remote k => rfl
  | host k =>
    unfold State.putAtBy
    dsimp only
    split <;> rfl

theorem safetyView_writePiecesBy (find : State → Nat → Except Nat Place) (strict : Bool) (ps : List (Nat × List Byte)) (s : State) :
    (writePiecesBy note find strict ps s).1.safetyView = s.safetyView := by
  induction ps generalizing s with
  | nil => rfl
  | cons x ps ih =>
    obtain ⟨a, bs⟩ := x
    unfold writePiecesBy
    split
    · split
      · rfl
      · exact ih s
    · split
      · rfl
      · exact ih s
    · rw [ih, State.safetyView_putAtBy hnote]

end Recorders

@[simp] theorem State.safetyView_countLines (s : State) (die a n : Nat) : (s.countLines die a n).safetyView = s.safetyView := by
  refine forEach_proj State.safetyView _ _ _ fun x t => ?_
  dsimp only
  split <;> rfl

@[simp] theorem State.safetyView_clientEvent (s : State) (c ev unit arg : Nat) :
    (s.clientEvent c ev unit arg).safetyView = s.safetyView := by
  unfold State.clientEvent
  extract_lets base cl count full rec quiet a s1
  have hquiet : ∀ t g j, (quiet t g j).safetyView = t.safetyView := State.safetyView_noteCorrectionBy fun _ _ _ _ => rfl
  have hs1 : s1.safetyView = s.safetyView := by
    unfold s1
    rw [State.safetyView_countLines, safetyView_writePiecesBy hquiet]
  clear_value s1
  split
  · rfl
  · split
    · rfl
    · exact hs1

@[simp] theorem State.safetyView_noteCorrection (s : State) (g j : Nat) : (s.noteCorrection g j).safetyView = s.safetyView :=
  State.safetyView_noteCorrectionBy (fun _ _ _ _ => forEach_proj State.safetyView _ _ _ fun _ _ => State.safetyView_clientEvent _ _ _ _ _) s g j

@[simp] theorem State.safetyView_devWrite (s : State) (c a : Nat) (bs : List Byte) : (s.devWrite c a bs).safetyView = s.safetyView := by
  unfold State.devWrite writePieces
  rw [State.safetyView_countLines, safetyView_writePiecesBy State.safetyView_noteCorrection]

/-! ### The journal, the release of steps, and the damper -/

@[simp] theorem State.safetyView_applyGroup (s : State) (j : Journal) (cl : Nat) : (s.applyGroup j cl).safetyView = s.safetyView := by
  unfold State.applyGroup
  have hpubs : (forEach j.pubs s fun p t => t.applyPub cl p).safetyView = s.safetyView :=
    forEach_proj State.safetyView _ _ _ fun _ t => State.safetyView_devWrite t cl _ _
  rw [State.safetyView_modCmd]
  split
  · exact (State.safetyView_devWrite _ cl _ _).trans hpubs
  · exact hpubs

@[simp] theorem State.safetyView_redoJournal (s : State) : s.redoJournal.safetyView = s.safetyView := by
  refine (forEach_proj State.safetyView s.journalUsed s _ fun j t => ?_ :)
  split
  · exact State.safetyView_applyGroup t j _
  · exact State.safetyView_applyGroup t j _

@[simp] theorem State.safetyView_noteCommit (s : State) (ring : Nat) : (s.noteCommit ring).safetyView = s.safetyView :=
  forEach_proj State.safetyView _ _ _ fun _ _ => rfl

@[simp] theorem State.safetyView_writeHead (s : State) (r : Nat) : (s.writeHead r).safetyView = s.safetyView := by
  unfold State.writeHead
  dsimp only
  split
  · exact State.safetyView_devWrite s _ _ _
  · rfl

@[simp] theorem State.safetyView_endHeld (s : State) (r : Nat) : (s.endHeld r).safetyView = s.safetyView := by
  unfold State.endHeld
  dsimp only
  rw [State.safetyView_modRing]
  split <;> split <;> rfl

@[simp] theorem State.safetyView_settleHeld (s : State) : s.settleHeld.safetyView = s.safetyView := by
  refine forEach_proj State.safetyView _ _ _ fun x t => ?_
  dsimp only
  split
  · exact State.safetyView_endHeld t _
  · rfl

@[simp] theorem State.safetyView_settleRing (s : State) (r : Nat) : (s.settleRing r).safetyView = s.safetyView := by
  unfold State.settleRing
  split
  · exact State.safetyView_writeHead _ r
  · rfl

@[simp] theorem State.safetyView_acctRelease (s : State) (c status : Nat) : (s.acctRelease c status).safetyView = s.safetyView := by
  unfold State.acctRelease
  repeat' split
  all_goals rfl

@[simp] theorem State.safetyView_settleCompat (s : State) : s.settleCompat.safetyView = s.safetyView := by
  unfold State.settleCompat
  split
  · split <;> rfl
  · rfl

@[simp] theorem State.safetyView_raiseVt (s : State) (c kind : Nat) : (s.raiseVt c kind).safetyView = s.safetyView := by
  unfold State.raiseVt
  split
  · split <;> rfl
  · rfl

@[simp] theorem State.safetyView_refreshReady (s : State) : s.refreshReady.safetyView = s.safetyView := by
  unfold State.refreshReady
  rw [forEach_proj State.safetyView, State.safetyView_settleCompat]
  intro st t
  refine forEach_proj State.safetyView _ _ _ fun c u => ?_
  split
  · split
    · rfl
    · rw [State.safetyView_modCmd]
      split
      · rfl
      · exact State.safetyView_raiseVt u _ _
  · split
    · split <;> rfl
    · rfl

@[simp] theorem State.safetyView_releaseStep (s : State) (ring : Nat) (st : Step) (code : Nat) :
    (s.releaseStep ring st code).safetyView = s.safetyView := by
  unfold State.releaseStep
  extract_lets x s1 s2 s3 s4 s5
  have hs1 : s1.safetyView = s.safetyView := State.safetyView_devWrite s _ _ _
  clear_value s1
  have hs2 : s2.safetyView = s.safetyView := hs1
  have hs4 : s4.safetyView = s.safetyView := by simp [s4, s3, hs2]
  have hs5 : s5.safetyView = s.safetyView := by
    unfold s5
    split <;> exact hs4
  simp [hs5]

@[simp] theorem State.safetyView_releaseAll (r n : Nat) (s : State) : (State.releaseAll r n s).safetyView = s.safetyView := by
  induction n generalizing s with
  | zero => rfl
  | succ n ih =>
    unfold State.releaseAll
    split
    · rw [ih, State.safetyView_releaseStep]
    · rfl

end Sys2Proof.Machine
end

section
/-! What the damper does in order, and what it shows once it has acted (R422, R423). -/

namespace Sys2Proof.Machine

open Sys2Proof

/-- The damper's first steps: its event is logged, its cause recorded, and FAULT_N driven low. -/
def State.tripDamper (s : State) (cause unit detail client : Nat) : State :=
  ((s.logEvent 3 6 unit detail client).setFld Fld.SAF_STATUS_damper_cause cause).setFlag Fld.SAF_STATUS_fault_n_low true

/-- The tally unit's last work: what is journalled is applied, what is not is discarded, and the steps that have committed are
released. -/
def State.finishTallied (s : State) : State :=
  let s1 := { s.redoJournal with tallyQueue := [] }
  forEach s1.rings s1 fun (r, _) t => t.releaseAll r t.steps.length

/-- The damper's end: SAFE. -/
def State.showSafe (s : State) : State :=
  let s1 := s.setFld Fld.SAF_STATUS_state safSafe
  { s1 with saf := { s1.saf with damped := true, pulseSince := none } }

theorem State.dampAt_of_not_damped {s : State} (cause unit detail client : Nat) (h : s.saf.damped = false) :
    s.dampAt cause unit detail client = (s.tripDamper cause unit detail client).finishTallied.showSafe :=
  if_neg (by simp [h])

theorem State.dampAt_of_damped {s : State} (cause unit detail client : Nat) (h : s.saf.damped = true) :
    s.dampAt cause unit detail client = s :=
  if_pos h

theorem State.safetyView_finishTallied (s : State) : s.finishTallied.safetyView = s.safetyView := by
  rw [← s.safetyView_redoJournal]
  exact forEach_proj State.safetyView _ _ _ fun x t => State.safetyView_releaseAll x.1 _ t

theorem State.tripDamper_cause (s : State) (cause unit detail client : Nat) :
    (s.tripDamper cause unit detail client).fld Fld.SAF_STATUS_damper_cause = cause % 2 ^ 8 := by
  rw [State.tripDamper, State.setFlag, State.fld_setFld_apart (f := Fld.SAF_STATUS_fault_n_low) (g := Fld.SAF_STATUS_damper_cause) _ _ rfl
    (by decide) (by decide) (by decide), State.fld_setFld_same _ _ (by decide)]
  rfl

theorem State.tripDamper_faultLow (s : State) (cause unit detail client : Nat) :
    (s.tripDamper cause unit detail client).flag Fld.SAF_STATUS_fault_n_low = true :=
  State.flag_setFlag_same _ true (by decide) rfl

theorem State.tripDamper_watchNext (s : State) (cause unit detail client : Nat) :
    (s.tripDamper cause unit detail client).saf.watchNext = s.saf.watchNext := by
  rw [State.tripDamper, State.setFlag_saf, State.setFld_saf]
  exact State.watchNext_eq_of_safetyView (State.safetyView_logEvent s 3 6 unit detail client 0 0)

@[simp] theorem State.showSafe_watchNext (s : State) : s.showSafe.saf.watchNext = s.saf.watchNext := rfl

@[simp] theorem State.showSafe_damped (s : State) : s.showSafe.saf.damped = true := rfl

theorem State.showSafe_state (s : State) : s.showSafe.fld Fld.SAF_STATUS_state = safSafe :=
  State.fld_setFld_same (f := Fld.SAF_STATUS_state) s safSafe (by decide)

/-- SAFE leaves the rest of SAF_STATUS as it is. -/
theorem State.showSafe_fld (s : State) {g : Fld} (hkey : g.key = Reg.SAF_STATUS) (hlo : 2 ≤ g.lo) (hhi : g.lo + g.width ≤ 64) :
    s.showSafe.fld g = s.fld g :=
  State.fld_setFld_apart (f := Fld.SAF_STATUS_state) s _ hkey (by decide) hhi (.inr hlo)

/-- What the damper shows once it has acted (R423). -/
theorem State.damp_shows {s : State} (cause : Nat) (h : s.saf.damped = false) :
    (s.damp cause).fld Fld.SAF_STATUS_damper_cause = cause % 2 ^ 8 ∧ (s.damp cause).fld Fld.SAF_STATUS_state = safSafe ∧
    (s.damp cause).flag Fld.SAF_STATUS_fault_n_low = true ∧ (s.damp cause).saf.damped = true := by
  have hkept : ∀ g : Fld, g.key = Reg.SAF_STATUS → 2 ≤ g.lo → g.lo + g.width ≤ 64 →
      (s.damp cause).fld g = (s.tripDamper cause s.unitPrimary 0 0xFFF).fld g := fun g hkey hlo hhi => by
    rw [State.damp, State.dampAt_of_not_damped _ _ _ _ h, State.showSafe_fld _ hkey hlo hhi,
      State.fld_eq_of_safetyView (State.safetyView_finishTallied _) hkey]
  refine ⟨?recorded, ?state, ?low, ?damped⟩
  case recorded => rw [hkept _ rfl (by decide) (by decide), State.tripDamper_cause]
  case state =>
    rw [State.damp, State.dampAt_of_not_damped _ _ _ _ h, State.showSafe_state]
  case low =>
    rw [State.flag, hkept _ rfl (by decide) (by decide)]
    exact State.tripDamper_faultLow s _ _ _ _
  case damped => rw [State.damp, State.dampAt_of_not_damped _ _ _ _ h, State.showSafe_damped]

/-- The damper leaves the watch port's next response as it is. -/
theorem State.watchNext_damp (s : State) (cause : Nat) : (s.damp cause).saf.watchNext = s.saf.watchNext := by
  cases h : s.saf.damped with
  | true => rw [State.damp, State.dampAt_of_damped _ _ _ _ h]
  | false =>
    rw [State.damp, State.dampAt_of_not_damped _ _ _ _ h, State.showSafe_watchNext,
      State.watchNext_eq_of_safetyView (State.safetyView_finishTallied _), State.tripDamper_watchNext]

end Sys2Proof.Machine
end

section
/-! Settles the obligation on the watch port's commands (R425): what each command does in RUN, and the bits of the words that it answers. -/

namespace Sys2Proof.Machine

open Sys2Proof

/-! ### The watch port's frames (R424, R425) -/

/-- Shifting out a response changes what was sent and, of the rest, the last STATUS response alone. -/
theorem State.watchShift_frame (s : State) :
    s.watchShift = { s with sent := s.watchShift.sent, saf := { s.saf with lastStatus := s.watchShift.saf.lastStatus } } := by
  unfold State.watchShift
  dsimp only
  split <;> rfl

@[simp] theorem State.watchShift_kickedAt (s : State) : s.watchShift.saf.kickedAt = s.saf.kickedAt := by rw [s.watchShift_frame]
@[simp] theorem State.watchShift_escalations (s : State) : s.watchShift.saf.escalations = s.saf.escalations := by rw [s.watchShift_frame]
@[simp] theorem State.watchShift_fld (s : State) (f : Fld) : s.watchShift.fld f = s.fld f := by rw [s.watchShift_frame]; rfl
@[simp] theorem State.watchShift_statusWord (s : State) : s.watchShift.statusWord = s.statusWord := by rw [s.watchShift_frame]; rfl

@[simp] theorem State.watchSet_watchNext (s : State) (b0 data : Nat) : (s.watchSet b0 data).saf.watchNext = some (b0, data) := rfl
@[simp] theorem State.watchError_kickedAt (s : State) (b0 : Nat) : (s.watchError b0).saf.kickedAt = s.saf.kickedAt := rfl

section Awake

variable {s : State} (data : Nat) (hawake : s.awake = true)

include hawake

theorem exec_watchStatus_of_awake : exec (.watchStatus data) s = .next
    { s.watchShift.watchSet 0x01 s.statusWord with
      saf := { (s.watchShift.watchSet 0x01 s.statusWord).saf with escalatedSince := false } } := by
  show Host.Outcome.next (watchStatus data s) = _
  simp [watchStatus, hawake]

theorem exec_watchCause_of_awake : exec (.watchCause data) s = .next
    (s.watchShift.watchSet 0x02 (s.fld Fld.SAF_STATUS_damper_cause + min s.saf.escalations 255 * 256)) := by
  show Host.Outcome.next (watchCause data s) = _
  simp [watchCause, hawake]

variable {data}

theorem exec_watchKick_of_accepted (hdata : s.saf.lastStatus = some (65535 - data % 65536)) : exec (.watchKick data) s = .next
    { s.watchShift.watchSet 0x03 0 with saf := { (s.watchShift.watchSet 0x03 0).saf with kickedAt := some s.tb } } := by
  show Host.Outcome.next (watchKick data s) = _
  simp [watchKick, hawake, hdata]

theorem exec_watchKick_of_wrong (hdata : s.saf.lastStatus ≠ some (65535 - data % 65536)) :
    exec (.watchKick data) s = .next (s.watchShift.watchError 0xE3) := by
  show Host.Outcome.next (watchKick data s) = _
  simp [watchKick, hawake, hdata]

theorem exec_watchSafe_of_accepted (hdata : data % 65536 = 0xA55A) :
    exec (.watchSafe data) s = .next ((s.watchShift.watchSet 0x5A 0).damp 5) := by
  show Host.Outcome.next (watchSafe data s) = _
  simp [watchSafe, hawake, hdata]

end Awake

/-! ### The words of STATUS and CAUSE -/

theorem State.fld_lt (s : State) (f : Fld) : s.fld f < 2 ^ f.width := Nat.mod_lt _ (Nat.two_pow_pos _)

theorem b2n_lt (b : Bool) : b2n b < 2 := by cases b <;> decide

/-- The bits of a word that is packed as the data of a STATUS response. -/
theorem bits_of_packedStatus {a f o n : Nat} (e : Bool) (ha : a < 4) (hf : f < 2) (ho : o < 2) (hn : n < 256) :
    let w := a + f * 4 + o * 8 + b2n e * 16 + n * 256
    bits w 0 2 = a ∧ bits w 2 1 = f ∧ bits w 3 1 = o ∧ bit w 4 = e ∧ bits w 5 3 = 0 ∧ bits w 8 8 = n := by
  have he := b2n_lt e
  have hbit : (b2n e = 1) = (e = true) := by cases e <;> simp [b2n]
  have hfour : (a + f * 4 + o * 8 + b2n e * 16 + n * 256) / 16 % 2 = b2n e := by omega
  simp only [bits, bit, Nat.shiftRight_eq_div_pow, Nat.testBit_eq_decide_div_mod_eq]
  refine ⟨by omega, by omega, by omega, ?_, by omega, by omega⟩
  simp [hfour, hbit]

/-- The bits of a STATUS response's data (R425). -/
theorem State.bits_statusWord (s : State) :
    bits s.statusWord 0 2 = s.fld Fld.SAF_STATUS_state ∧ bits s.statusWord 2 1 = s.fld Fld.SAF_STATUS_fault_n_low ∧
    bits s.statusWord 3 1 = s.fld Fld.SAF_STATUS_standby_ok ∧ bit s.statusWord 4 = s.saf.escalatedSince ∧ bits s.statusWord 5 3 = 0 ∧
    bits s.statusWord 8 8 = s.usSince s.saf.aliveAt / 1000 % 256 :=
  bits_of_packedStatus _ (s.fld_lt Fld.SAF_STATUS_state) (s.fld_lt Fld.SAF_STATUS_fault_n_low) (s.fld_lt Fld.SAF_STATUS_standby_ok)
    (Nat.mod_lt _ (by decide))

/-- Two bytes packed into a word. -/
theorem bits_of_twoBytes {a n : Nat} (ha : a < 256) (hn : n < 256) : bits (a + n * 256) 0 8 = a ∧ bits (a + n * 256) 8 8 = n := by
  simp only [bits, Nat.shiftRight_eq_div_pow]
  omega

/-! ### The obligation -/

/-- Settles O36: each command sets the response that the next frame shifts out, and the damper, where SAFE makes it act, leaves that
response as it is. -/
theorem watchPortCommands : Obligations.WatchPortCommands := by
  refine ⟨fun data s hawake => ?status, fun data s hawake => ?cause, fun data s hawake hdata => ?kick, fun data s hawake hdata => ?safe⟩
  case status => exact ⟨_, _, exec_watchStatus_of_awake data hawake, rfl, rfl, s.bits_statusWord⟩
  case cause =>
    exact ⟨_, _, exec_watchCause_of_awake data hawake, rfl,
      bits_of_twoBytes (s.fld_lt Fld.SAF_STATUS_damper_cause) (by omega)⟩
  case kick => exact ⟨_, exec_watchKick_of_accepted hawake hdata, rfl⟩
  case safe => exact ⟨exec_watchSafe_of_accepted hawake hdata, State.watchNext_damp _ 5⟩

end Sys2Proof.Machine
end

section
/-! Settles the obligation on the watch port's intervals (R426): what a write of SAF_WATCH stores and restarts, and when an interval is
too long. -/

namespace Sys2Proof.Machine

open Sys2Proof

/-! ### A write of watch_timeout_ms (R426, R428) -/

/-- A loop that acts on some of its elements only is the loop over those. -/
theorem forEach_ite {β σ : Type} (p : β → Bool) (f : β → σ → σ) (xs : List β) (s : σ) :
    forEach xs s (fun x t => if p x then f x t else t) = forEach (xs.filter p) s f := by
  induction xs generalizing s with
  | nil => rfl
  | cons x xs ih =>
    cases hx : p x <;> simp [forEach, hx, ih]

/-- The one range that bears on SAF_WATCH. -/
theorem ranges_watch :
    ranges.filter (fun r => sitsAt r.1 r.2.1 Reg.SAF_WATCH) = [(Reg.SAF_WATCH, [], 0, 16, 0, 1000)] := by
  decide

/-- What SAF_WATCH stores of a written value: a limit of at most 1,000 ms. -/
theorem State.storedValue_watch (s : State) (v : Nat) :
    s.storedValue Reg.SAF_WATCH v = setBits v 0 16 (min 1000 (bits v 0 16)) := by
  have hloop := forEach_ite (fun r : Nat × List (Nat × Nat) × Nat × Nat × Nat × Nat => sitsAt r.1 r.2.1 Reg.SAF_WATCH)
    (fun r x => setBits x r.2.2.1 r.2.2.2.1 (min r.2.2.2.2.2 (max r.2.2.2.2.1 (bits x r.2.2.1 r.2.2.2.1)))) ranges v
  rw [ranges_watch] at hloop
  unfold State.storedValue
  extract_lets v1
  have hv1 : v1 = setBits v 0 16 (min 1000 (bits v 0 16)) := by
    refine hloop.trans ?_
    simp [forEach]
  rw [if_neg (by decide), if_neg (by decide), if_neg fun h => absurd h.1 (by decide), if_neg fun h => absurd h.2.2.1 (by decide), hv1]

theorem regAt_watch : regAt Reg.SAF_WATCH = some (Reg.def_SAF_WATCH, Reg.SAF_WATCH) := by decide

theorem State.counterRead_watch (s : State) : s.counterRead Reg.SAF_WATCH = none := by
  unfold State.counterRead
  exact if_neg (by decide)

/-- No write of SAF_WATCH is a command of its own. -/
theorem State.ownRow_watch (s : State) (v : Nat) : s.ownRow Reg.SAF_WATCH v = false := by
  have hsits : ∀ r ∈ [(0x70000, [(0x40, 4)]), (0x90010, [(4, 2)]), (0xB0000, [(4, 6)]), (0xB0404, [(0x80, 4)]), (0xD0000, [(0x4000, 2)]),
      (0x71000, [(0x100, 16)])], sitsAt r.1 r.2 Reg.SAF_WATCH = false := by decide
  have hreg : ∀ r ∈ [Reg.SCH_CLIENT_EXCL, Reg.AUD_MUTE, Reg.DBG_TRACE_CTRL, Reg.DBG_SNAP, Reg.AUD_CTRL, Reg.MEM_PAGE_CMD],
      Reg.SAF_WATCH ≠ r := by decide
  simp only [List.forall_mem_cons] at hsits hreg
  simp [State.ownRow, State.counterRead_watch, hsits, hreg]

/-- No write of SAF_WATCH is discarded. -/
theorem State.discarded_watch (s : State) (v : Nat) : s.discarded Reg.SAF_WATCH v = none := by
  unfold State.discarded
  repeat rw [if_neg (by decide)]

/-- SAF_WATCH has no expert fields of a function that may be enabled. -/
theorem State.expertGuard_watch (s : State) : s.expertGuard Reg.SAF_WATCH = none := by
  unfold State.expertGuard
  extract_lets d rel guard
  repeat rw [if_neg (by decide)]

/-- A write of SAF_WATCH leaves no bit to another command. -/
theorem State.heldBits_watch (s : State) (old v : Nat) : s.heldBits Reg.SAF_WATCH old v = v := by
  unfold State.heldBits
  extract_lets rel
  rw [if_neg (by decide), if_neg (by decide), if_neg fun h => absurd h.1 (by decide), if_neg fun h => absurd h.1 (by decide)]

/-- An interval that runs starts again now (R426). -/
def State.restartWatch (s : State) : State := { s with saf := { s.saf with kickedAt := s.saf.kickedAt.map fun _ => s.tb } }

theorem State.afterWrite_watch (s0 s : State) (old new value : Nat) :
    State.afterWrite s0 s Reg.SAF_WATCH old new value = s.restartWatch := by
  unfold State.afterWrite
  repeat rw [if_neg (by decide)]
  exact if_pos (by decide)

/-- The fields that a write of SAF_WATCH leaves: the limit as stored, and the rest as it was. -/
theorem bits_writeFields_watch (old v ones : Nat) :
    bits (writeFields old v ones Reg.def_SAF_WATCH.fields % 2 ^ 64) 0 16 = bits v 0 16 := by
  have hlt : bits v 0 16 < 2 ^ 16 := Nat.mod_lt _ (by decide)
  rw [bits_mod _ (by decide)]
  simp only [Reg.def_SAF_WATCH, writeFields]
  simp only [bits, Nat.shiftRight_eq_div_pow] at *
  omega

/-- SAF_WATCH with a written value, its limit at most 1,000 ms. -/
def State.storeWatch (s : State) (value : Nat) : State :=
  s.setReg Reg.SAF_WATCH
    (writeFields (s.reg Reg.SAF_WATCH) (setBits value 0 16 (min 1000 (bits value 0 16))) value Reg.def_SAF_WATCH.fields)

theorem State.storeWatch_timeout (s : State) (value : Nat) :
    (s.storeWatch value).fld Fld.SAF_WATCH_watch_timeout_ms = min 1000 (bits value 0 16) := by
  rw [State.fld, State.storeWatch, Fld.SAF_WATCH_watch_timeout_ms, State.reg_setReg_same, bits_writeFields_watch, bits_setBits_same,
    Nat.mod_eq_of_lt (by omega)]

/-- A write of SAF_WATCH is stored and restarts the interval; beside these it can only end a wait for auto-re-sleep. -/
theorem State.writeReg_watch {s : State} (value : Nat) (hlive : s.logicDead Reg.SAF_WATCH = false) :
    s.writeReg Reg.def_SAF_WATCH Reg.SAF_WATCH none value =
      if (s.storeWatch value).restartWatch.entryError 1 = 0 then (s.storeWatch value).restartWatch
      else (s.storeWatch value).restartWatch.breakResleep := by
  have hkey : s.keyOf Reg.SAF_WATCH = Reg.SAF_WATCH := if_neg (by decide)
  have hmic : decide (Reg.SAF_WATCH = Reg.AUD_CTRL) = false := by decide
  simp only [State.writeReg, hlive, hkey, hmic, State.ownRow_watch, State.discarded_watch, State.expertGuard_watch,
    State.storedValue_watch, State.heldBits_watch, State.afterWrite_watch, Bool.false_and, Bool.false_eq_true, or_self, if_false]
  rfl

/-- A write of SAF_WATCH restarts an interval that runs (R426). -/
theorem State.writeReg_watch_kickedAt {s : State} (value : Nat) (hlive : s.logicDead Reg.SAF_WATCH = false) :
    (s.writeReg Reg.def_SAF_WATCH Reg.SAF_WATCH none value).saf.kickedAt = s.saf.kickedAt.map fun _ => s.tb := by
  rw [State.writeReg_watch value hlive]
  split <;> rfl

/-- A write of SAF_WATCH stores a limit of at most 1,000 ms (R428). -/
theorem State.writeReg_watch_timeout {s : State} (value : Nat) (hlive : s.logicDead Reg.SAF_WATCH = false) :
    (s.writeReg Reg.def_SAF_WATCH Reg.SAF_WATCH none value).fld Fld.SAF_WATCH_watch_timeout_ms = min 1000 (bits value 0 16) := by
  rw [State.writeReg_watch value hlive]
  split
  · exact s.storeWatch_timeout value
  · exact s.storeWatch_timeout value

/-- A 32-bit write at the offset of SAF_WATCH meets that register. -/
theorem exec_regWrite_watch (v : W64) (s : State) : exec (.regWrite 0x40060 false v) s =
    .next (s.writeReg Reg.def_SAF_WATCH Reg.SAF_WATCH none (v.toNat % 2 ^ 32)) := by
  have hhere : s.regHere 0x40060 = some (Reg.def_SAF_WATCH, Reg.SAF_WATCH) := by
    rw [State.regHere, if_neg fun h => absurd h.1 (by decide)]
    exact regAt_watch
  show Host.Outcome.next (regWrite 0x40060 false v s) = _
  rw [regWrite, if_neg (by decide), if_neg (by decide), State.writeWord, hhere]
  rfl

/-! ### The timeout (R426) -/

theorem exec_watchTimeout_of_running {s : State} {t0 : Nat} (hkick : s.saf.kickedAt = some t0) : exec .watchTimeout s = .next
    (if s.fld Fld.SAF_WATCH_watch_timeout_ms ≠ 0 ∧ 38400 * s.fld Fld.SAF_WATCH_watch_timeout_ms < s.tb - t0 then s.damp 4 else s) := by
  show Host.Outcome.next (watchTimeout s) = _
  rw [watchTimeout, hkick]

theorem exec_watchTimeout_of_none {s : State} (hkick : s.saf.kickedAt = none) : exec .watchTimeout s = .next s := by
  show Host.Outcome.next (watchTimeout s) = _
  rw [watchTimeout, hkick]

/-! ### The obligation -/

/-- Settles O35: an accepted KICK and a write of SAF_WATCH begin an interval, and one that is too long makes the damper act. -/
theorem watchIntervals : Obligations.WatchIntervals := by
  refine ⟨fun data s hawake => ?kick, fun t0 s hkick hon hlong => ?long, fun s hshort => ?within, fun v s hlive => ?write, fun s h => ?damper⟩
  case kick =>
    by_cases hdata : s.saf.lastStatus = some (65535 - data % 65536)
    · exact ⟨_, exec_watchKick_of_accepted hawake hdata, fun _ => rfl, fun hne => absurd hdata hne⟩
    · exact ⟨_, exec_watchKick_of_wrong hawake hdata, fun h => absurd h hdata, fun _ => by simp⟩
  case long => rw [exec_watchTimeout_of_running hkick, if_pos ⟨hon, hlong⟩]
  case within =>
    cases hkick : s.saf.kickedAt with
    | none => exact exec_watchTimeout_of_none hkick
    | some t0 =>
      rw [exec_watchTimeout_of_running hkick, if_neg]
      rintro ⟨hon, hlong⟩
      rcases hshort with hnone | hoff | ⟨t1, hkick1, hle⟩
      · exact absurd (hkick.symm.trans hnone) (by simp)
      · exact hon hoff
      · obtain rfl : t0 = t1 := Option.some.inj (hkick.symm.trans hkick1)
        omega
  case write =>
    exact ⟨_, exec_regWrite_watch v s, State.writeReg_watch_kickedAt _ hlive,
      (State.writeReg_watch_timeout _ hlive).trans (by rw [bits_mod _ (by decide)])⟩
  case damper => exact State.damp_shows 4 h

end Sys2Proof.Machine
end

section
/-! Facts of the model's number ranges and of the dies that are fitted, for the proofs that follow. -/

namespace Sys2Proof.Machine

open Sys2Proof

theorem natRange_eq_range' (a n : Nat) : natRange a n = List.range' a n := by
  induction n generalizing a with
  | zero => rfl
  | succ n ih => rw [natRange, ih, List.range'_succ]

theorem mem_natRange {a n x : Nat} : x ∈ natRange a n ↔ a ≤ x ∧ x < a + n := by
  rw [natRange_eq_range', List.mem_range'_1]

@[simp] theorem length_natRange (a n : Nat) : (natRange a n).length = n := by
  rw [natRange_eq_range', List.length_range']

/-- A part has at most seven compute dies (R1). -/
theorem State.nDies_le (s : State) : s.nDies ≤ 7 := by
  unfold State.nDies
  cases s.variant <;> decide

end Sys2Proof.Machine
end

section
/-! Settles the obligations on the step itself: it takes the first command of the queue, or idles for one period of the timebase; every
command completes; and the memory stays canonical (R523, log 6). -/

namespace Sys2Proof.Machine

open Sys2Proof

/-! ### What every command keeps -/

/-- Every command answers a next state, which keeps what is fixed: each arm's meaning has its own `…_kept` law. -/
theorem exec_next_kept (c : Instr) (s : State) : ∃ t, exec c s = .next t ∧ ∀ fx, Kept fx s → Kept fx t := by
  cases c with
  | misalignedRegAccess off size write => exact ⟨_, rfl, fun _ => misalignedRegAccess_kept off size write s⟩
  | emptyOffsetAccess off size write => exact ⟨_, rfl, fun _ => emptyOffsetAccess_kept off size write s⟩
  | regWrite off wide value => exact ⟨_, rfl, fun _ => regWrite_kept off wide value s⟩
  | latchedLowRead off wide => exact ⟨_, rfl, fun _ => latchedLowRead_kept off wide s⟩
  | latchedHighRead off => exact ⟨_, rfl, fun _ => latchedHighRead_kept off s⟩
  | bar4Read off len => exact ⟨_, rfl, fun _ => bar4Read_kept off len s⟩
  | bar4Write off data => exact ⟨_, rfl, fun _ => bar4Write_kept off data s⟩
  | flitReceive link module flit => exact ⟨_, rfl, fun _ => flitReceive_kept link module flit s⟩
  | flitNakReplay link module ackSeq => exact ⟨_, rfl, fun _ => flitNakReplay_kept link module ackSeq s⟩
  | linkAckTimeout link module => exact ⟨_, rfl, fun _ => linkAckTimeout_kept link module s⟩
  | moduleFail link module => exact ⟨_, rfl, fun _ => moduleFail_kept link module s⟩
  | linkTrained link modules lanesRepaired => exact ⟨_, rfl, fun _ => linkTrained_kept link modules lanesRepaired s⟩
  | requestReissue src tag => exact ⟨_, rfl, fun _ => requestReissue_kept src tag s⟩
  | read m errs => exact ⟨_, rfl, fun _ => read_kept m errs s⟩
  | write m errs => exact ⟨_, rfl, fun _ => write_kept m errs s⟩
  | readData m => exact ⟨_, rfl, fun _ => readData_kept m s⟩
  | writeAck m => exact ⟨_, rfl, fun _ => writeAck_kept m s⟩
  | retry m => exact ⟨_, rfl, fun _ => retry_kept m s⟩
  | busError m => exact ⟨_, rfl, fun _ => busError_kept m s⟩
  | dispatchPlace die m => exact ⟨_, rfl, fun _ => dispatchPlace_kept die m s⟩
  | dispatchKill die m => exact ⟨_, rfl, fun _ => dispatchKill_kept die m s⟩
  | bounce die m => exact ⟨_, rfl, fun _ => bounce_kept die m s⟩
  | tally m => exact ⟨_, rfl, fun _ => tally_kept m s⟩
  | tallyDequeue => exact ⟨_, rfl, fun _ => tallyDequeue_kept s⟩
  | event r => exact ⟨_, rfl, fun _ => event_kept r s⟩
  | epochNotice unit epoch => exact ⟨_, rfl, fun _ => epochNotice_kept unit epoch s⟩
  | routeUpdate => exact ⟨_, rfl, fun _ => routeUpdate_kept s⟩
  | epochDeferredAdvance unit => exact ⟨_, rfl, fun _ => epochDeferredAdvance_kept unit s⟩
  | dieLogicReset die cause => exact ⟨_, rfl, fun _ => dieLogicReset_kept die cause s⟩
  | dieSelftestDone die pass => exact ⟨_, rfl, fun _ => dieSelftestDone_kept die pass s⟩
  | clientAttach function => exact ⟨_, rfl, fun _ => clientAttach_kept function s⟩
  | clientDetach => exact ⟨_, rfl, fun _ => clientDetach_kept s⟩
  | clientClear client => exact ⟨_, rfl, fun _ => clientClear_kept client s⟩
  | nudge function client word => exact ⟨_, rfl, fun _ => nudge_kept function client word s⟩
  | ringStart function client word => exact ⟨_, rfl, fun _ => ringStart_kept function client word s⟩
  | ringStop function client word => exact ⟨_, rfl, fun _ => ringStop_kept function client word s⟩
  | ringDrain function client word => exact ⟨_, rfl, fun _ => ringDrain_kept function client word s⟩
  | activeSweep => exact ⟨_, rfl, fun _ => activeSweep_kept s⟩
  | quietSweep => exact ⟨_, rfl, fun _ => quietSweep_kept s⟩
  | ringQuietTimeout ring => exact ⟨_, rfl, fun _ => ringQuietTimeout_kept ring s⟩
  | doorbellRead ring => exact ⟨_, rfl, fun _ => doorbellRead_kept ring s⟩
  | stepCheck ring => exact ⟨_, rfl, fun _ => stepCheck_kept ring s⟩
  | stepAccept ring => exact ⟨_, rfl, fun _ => stepAccept_kept ring s⟩
  | refusalRecheck ring seq => exact ⟨_, rfl, fun _ => refusalRecheck_kept ring seq s⟩
  | reservedPageBacked page => exact ⟨_, rfl, fun _ => reservedPageBacked_kept page s⟩
  | placement => exact ⟨_, rfl, fun _ => placement_kept s⟩
  | commandFinish die entry energyNj => exact ⟨_, rfl, fun _ => commandFinish_kept die entry energyNj s⟩
  | stepRelease ring => exact ⟨_, rfl, fun _ => stepRelease_kept ring s⟩
  | budgetCheck => exact ⟨_, rfl, fun _ => budgetCheck_kept s⟩
  | ledgerEnable => exact ⟨_, rfl, fun _ => ledgerEnable_kept s⟩
  | vtimeTick die entry => exact ⟨_, rfl, fun _ => vtimeTick_kept die entry s⟩
  | preemptFair => exact ⟨_, rfl, fun _ => preemptFair_kept s⟩
  | preemptSafety => exact ⟨_, rfl, fun _ => preemptSafety_kept s⟩
  | selftestStart unit => exact ⟨_, rfl, fun _ => selftestStart_kept unit s⟩
  | selftestForce unit => exact ⟨_, rfl, fun _ => selftestForce_kept unit s⟩
  | selftestEnd unit pass => exact ⟨_, rfl, fun _ => selftestEnd_kept unit pass s⟩
  | exclWrite value => exact ⟨_, rfl, fun _ => exclWrite_kept value s⟩
  | acctWrite => exact ⟨_, rfl, fun _ => acctWrite_kept s⟩
  | powerModelScale die modelledNj measuredNj => exact ⟨_, rfl, fun _ => powerModelScale_kept die modelledNj measuredNj s⟩
  | nop e w => exact ⟨_, rfl, fun _ => nop_kept e w s⟩
  | endProgram e w => exact ⟨_, rfl, fun _ => endProgram_kept e w s⟩
  | runPastEnd e => exact ⟨_, rfl, fun _ => runPastEnd_kept e s⟩
  | sync e w => exact ⟨_, rfl, fun _ => sync_kept e w s⟩
  | wait e w => exact ⟨_, rfl, fun _ => wait_kept e w s⟩
  | stallTimeout e => exact ⟨_, rfl, fun _ => stallTimeout_kept e s⟩
  | signal e w => exact ⟨_, rfl, fun _ => signal_kept e w s⟩
  | alloc e w => exact ⟨_, rfl, fun _ => alloc_kept e w s⟩
  | allocWaitGrant die => exact ⟨_, rfl, fun _ => allocWaitGrant_kept die s⟩
  | allocZeroDone die entry => exact ⟨_, rfl, fun _ => allocZeroDone_kept die entry s⟩
  | free e w => exact ⟨_, rfl, fun _ => free_kept e w s⟩
  | walk e w => exact ⟨_, rfl, fun _ => walk_kept e w s⟩
  | copy e w => exact ⟨_, rfl, fun _ => copy_kept e w s⟩
  | fill e w => exact ⟨_, rfl, fun _ => fill_kept e w s⟩
  | gather e w => exact ⟨_, rfl, fun _ => gather_kept e w s⟩
  | scatter e w => exact ⟨_, rfl, fun _ => scatter_kept e w s⟩
  | transpose e w => exact ⟨_, rfl, fun _ => transpose_kept e w s⟩
  | window e w => exact ⟨_, rfl, fun _ => window_kept e w s⟩
  | blkPack e w => exact ⟨_, rfl, fun _ => blkPack_kept e w s⟩
  | blkSend e w => exact ⟨_, rfl, fun _ => blkSend_kept e w s⟩
  | matmul e w chk => exact ⟨_, rfl, fun _ => matmul_kept e w chk s⟩
  | cbPreload e w => exact ⟨_, rfl, fun _ => cbPreload_kept e w s⟩
  | codebookLoadDone e => exact ⟨_, rfl, fun _ => codebookLoadDone_kept e s⟩
  | recBind e w => exact ⟨_, rfl, fun _ => recBind_kept e w s⟩
  | recScan e w chk => exact ⟨_, rfl, fun _ => recScan_kept e w chk s⟩
  | recUnbind e w => exact ⟨_, rfl, fun _ => recUnbind_kept e w s⟩
  | parkLimit die engine => exact ⟨_, rfl, fun _ => parkLimit_kept die engine s⟩
  | engineDisable unit => exact ⟨_, rfl, fun _ => engineDisable_kept unit s⟩
  | gseqSet e w => exact ⟨_, rfl, fun _ => gseqSet_kept e w s⟩
  | gseqClr e w => exact ⟨_, rfl, fun _ => gseqClr_kept e w s⟩
  | gateMap e w chk => exact ⟨_, rfl, fun _ => gateMap_kept e w chk s⟩
  | gateRows e w chk => exact ⟨_, rfl, fun _ => gateRows_kept e w chk s⟩
  | conv e w chk => exact ⟨_, rfl, fun _ => conv_kept e w chk s⟩
  | convParam e w => exact ⟨_, rfl, fun _ => convParam_kept e w s⟩
  | boxDecode e w chk => exact ⟨_, rfl, fun _ => boxDecode_kept e w chk s⟩
  | scoreFilter e w chk => exact ⟨_, rfl, fun _ => scoreFilter_kept e w chk s⟩
  | nms e w chk => exact ⟨_, rfl, fun _ => nms_kept e w chk s⟩
  | attend e w chk => exact ⟨_, rfl, fun _ => attend_kept e w chk s⟩
  | attParam e w => exact ⟨_, rfl, fun _ => attParam_kept e w s⟩
  | merge e w chk => exact ⟨_, rfl, fun _ => merge_kept e w chk s⟩
  | attendRing e w chk => exact ⟨_, rfl, fun _ => attendRing_kept e w chk s⟩
  | kvAppend e w chk => exact ⟨_, rfl, fun _ => kvAppend_kept e w chk s⟩
  | blockOffer die o => exact ⟨_, rfl, fun _ => blockOffer_kept die o s⟩
  | blockGrant die o => exact ⟨_, rfl, fun _ => blockGrant_kept die o s⟩
  | offerRepeat die o => exact ⟨_, rfl, fun _ => offerRepeat_kept die o s⟩
  | relayRetry die o notice epoch => exact ⟨_, rfl, fun _ => relayRetry_kept die o notice epoch s⟩
  | landWaitTimeout e => exact ⟨_, rfl, fun _ => landWaitTimeout_kept e s⟩
  | homeBlockRecheck e => exact ⟨_, rfl, fun _ => homeBlockRecheck_kept e s⟩
  | embDecode e w chk => exact ⟨_, rfl, fun _ => embDecode_kept e w chk s⟩
  | embEncode e w chk => exact ⟨_, rfl, fun _ => embEncode_kept e w chk s⟩
  | embRewrap e w chk => exact ⟨_, rfl, fun _ => embRewrap_kept e w chk s⟩
  | mark e w => exact ⟨_, rfl, fun _ => mark_kept e w s⟩
  | cntEmit e w => exact ⟨_, rfl, fun _ => cntEmit_kept e w s⟩
  | mapEnable => exact ⟨_, rfl, fun _ => mapEnable_kept s⟩
  | grant value => exact ⟨_, rfl, fun _ => grant_kept value s⟩
  | ungrant value => exact ⟨_, rfl, fun _ => ungrant_kept value s⟩
  | back value => exact ⟨_, rfl, fun _ => back_kept value s⟩
  | pin value => exact ⟨_, rfl, fun _ => pin_kept value s⟩
  | unpin value => exact ⟨_, rfl, fun _ => unpin_kept value s⟩
  | query value => exact ⟨_, rfl, fun _ => query_kept value s⟩
  | pageCmdComplete => exact ⟨_, rfl, fun _ => pageCmdComplete_kept s⟩
  | bellowsEvaluate => exact ⟨_, rfl, fun _ => bellowsEvaluate_kept s⟩
  | bellowsCopyPass page => exact ⟨_, rfl, fun _ => bellowsCopyPass_kept page s⟩
  | bellowsHoldEnd page => exact ⟨_, rfl, fun _ => bellowsHoldEnd_kept page s⟩
  | bellowsForwardEnd page => exact ⟨_, rfl, fun _ => bellowsForwardEnd_kept page s⟩
  | mergeAgeFlush group errs bad => exact ⟨_, rfl, fun _ => mergeAgeFlush_kept group errs bad s⟩
  | scrubBurst group errs => exact ⟨_, rfl, fun _ => scrubBurst_kept group errs s⟩
  | lapOverdue group => exact ⟨_, rfl, fun _ => lapOverdue_kept group s⟩
  | dramHealthCheck group failing => exact ⟨_, rfl, fun _ => dramHealthCheck_kept group failing s⟩
  | evacuationPageMove group => exact ⟨_, rfl, fun _ => evacuationPageMove_kept group s⟩
  | evacuationRetry group => exact ⟨_, rfl, fun _ => evacuationRetry_kept group s⟩
  | hostReadCompletion e status => exact ⟨_, rfl, fun _ => hostReadCompletion_kept e status s⟩
  | hostCompletionTimeout e => exact ⟨_, rfl, fun _ => hostCompletionTimeout_kept e s⟩
  | keyUnwrapDone unit client => exact ⟨_, rfl, fun _ => keyUnwrapDone_kept unit client s⟩
  | camPortEnable port value => exact ⟨_, rfl, fun _ => camPortEnable_kept port value s⟩
  | camChannelEnable channel value => exact ⟨_, rfl, fun _ => camChannelEnable_kept channel value s⟩
  | camChannelDisable channel value => exact ⟨_, rfl, fun _ => camChannelDisable_kept channel value s⟩
  | frameStartPacket port vc frameNo err => exact ⟨_, rfl, fun _ => frameStartPacket_kept port vc frameNo err s⟩
  | frameEndPacket port vc err => exact ⟨_, rfl, fun _ => frameEndPacket_kept port vc err s⟩
  | longPacket port vc dt payload err => exact ⟨_, rfl, fun _ => longPacket_kept port vc dt payload err s⟩
  | shortPacket port vc dt err => exact ⟨_, rfl, fun _ => shortPacket_kept port vc dt err s⟩
  | routeTableRefresh port => exact ⟨_, rfl, fun _ => routeTableRefresh_kept port s⟩
  | frameTimeout channel => exact ⟨_, rfl, fun _ => frameTimeout_kept channel s⟩
  | frameRecordWrite channel => exact ⟨_, rfl, fun _ => frameRecordWrite_kept channel s⟩
  | m2mLaneStart lane => exact ⟨_, rfl, fun _ => m2mLaneStart_kept lane s⟩
  | m2mLaneDone lane => exact ⟨_, rfl, fun _ => m2mLaneDone_kept lane s⟩
  | audEnable value => exact ⟨_, rfl, fun _ => audEnable_kept value s⟩
  | sampleTick mics analog tdmIn => exact ⟨_, rfl, fun _ => sampleTick_kept mics analog tdmIn s⟩
  | rangeRequest input value => exact ⟨_, rfl, fun _ => rangeRequest_kept input value s⟩
  | mutePinFall => exact ⟨_, rfl, fun _ => mutePinFall_kept s⟩
  | muteWrite value => exact ⟨_, rfl, fun _ => muteWrite_kept value s⟩
  | muteRelease => exact ⟨_, rfl, fun _ => muteRelease_kept s⟩
  | micVddLimitExpire => exact ⟨_, rfl, fun _ => micVddLimitExpire_kept s⟩
  | micVddRetry => exact ⟨_, rfl, fun _ => micVddRetry_kept s⟩
  | audLatch => exact ⟨_, rfl, fun _ => audLatch_kept s⟩
  | tdmPlaybackTick => exact ⟨_, rfl, fun _ => tdmPlaybackTick_kept s⟩
  | tinderHop ended => exact ⟨_, rfl, fun _ => tinderHop_kept ended s⟩
  | presenceFrame => exact ⟨_, rfl, fun _ => presenceFrame_kept s⟩
  | kindlingStart => exact ⟨_, rfl, fun _ => kindlingStart_kept s⟩
  | confirmDecision => exact ⟨_, rfl, fun _ => confirmDecision_kept s⟩
  | kindlingEncoderHop => exact ⟨_, rfl, fun _ => kindlingEncoderHop_kept s⟩
  | confirmTimeout => exact ⟨_, rfl, fun _ => confirmTimeout_kept s⟩
  | replyTimeout => exact ⟨_, rfl, fun _ => replyTimeout_kept s⟩
  | wakeRingNudge word => exact ⟨_, rfl, fun _ => wakeRingNudge_kept word s⟩
  | controlWordPoll => exact ⟨_, rfl, fun _ => controlWordPoll_kept s⟩
  | acceptReply startIndex => exact ⟨_, rfl, fun _ => acceptReply_kept startIndex s⟩
  | declineReply => exact ⟨_, rfl, fun _ => declineReply_kept s⟩
  | closeCapture => exact ⟨_, rfl, fun _ => closeCapture_kept s⟩
  | openCapture startIndex => exact ⟨_, rfl, fun _ => openCapture_kept startIndex s⟩
  | captureFrame => exact ⟨_, rfl, fun _ => captureFrame_kept s⟩
  | loadTinder => exact ⟨_, rfl, fun _ => loadTinder_kept s⟩
  | loadKindling => exact ⟨_, rfl, fun _ => loadKindling_kept s⟩
  | imageLoadDone => exact ⟨_, rfl, fun _ => imageLoadDone_kept s⟩
  | logMergeFlush unit detail => exact ⟨_, rfl, fun _ => logMergeFlush_kept unit detail s⟩
  | engineRetest unit pass => exact ⟨_, rfl, fun _ => engineRetest_kept unit pass s⟩
  | dieDrain die => exact ⟨_, rfl, fun _ => dieDrain_kept die s⟩
  | drainTimeout die => exact ⟨_, rfl, fun _ => drainTimeout_kept die s⟩
  | dieLogicOff die => exact ⟨_, rfl, fun _ => dieLogicOff_kept die s⟩
  | dieRelease die => exact ⟨_, rfl, fun _ => dieRelease_kept die s⟩
  | supervisorHeartbeat core received => exact ⟨_, rfl, fun _ => supervisorHeartbeat_kept core received s⟩
  | failover => exact ⟨_, rfl, fun _ => failover_kept s⟩
  | failoverStandbyTestDone pass => exact ⟨_, rfl, fun _ => failoverStandbyTestDone_kept pass s⟩
  | damper cause => exact ⟨_, rfl, fun _ => damper_kept cause s⟩
  | enterSafe => exact ⟨_, rfl, fun _ => enterSafe_kept s⟩
  | escalatePulseEnd => exact ⟨_, rfl, fun _ => escalatePulseEnd_kept s⟩
  | watchStatus data => exact ⟨_, rfl, fun _ => watchStatus_kept data s⟩
  | watchCause data => exact ⟨_, rfl, fun _ => watchCause_kept data s⟩
  | watchKick data => exact ⟨_, rfl, fun _ => watchKick_kept data s⟩
  | watchSafe data => exact ⟨_, rfl, fun _ => watchSafe_kept data s⟩
  | watchFrameReject => exact ⟨_, rfl, fun _ => watchFrameReject_kept s⟩
  | watchTimeout => exact ⟨_, rfl, fun _ => watchTimeout_kept s⟩
  | injectionDone hub dies => exact ⟨_, rfl, fun _ => injectionDone_kept hub dies s⟩
  | thermalSample temps => exact ⟨_, rfl, fun _ => thermalSample_kept temps s⟩
  | thermalOffTimeout => exact ⟨_, rfl, fun _ => thermalOffTimeout_kept s⟩
  | drbgReseed => exact ⟨_, rfl, fun _ => drbgReseed_kept s⟩
  | compatKeyLoad client => exact ⟨_, rfl, fun _ => compatKeyLoad_kept client s⟩
  | compatKeyClear client => exact ⟨_, rfl, fun _ => compatKeyClear_kept client s⟩
  | keyAgreementMsg port m => exact ⟨_, rfl, fun _ => keyAgreementMsg_kept port m s⟩
  | keyAgreementRetry port => exact ⟨_, rfl, fun _ => keyAgreementRetry_kept port s⟩
  | rekeyNow port => exact ⟨_, rfl, fun _ => rekeyNow_kept port s⟩
  | rekeyTimeout port => exact ⟨_, rfl, fun _ => rekeyTimeout_kept port s⟩
  | ringFrame port f => exact ⟨_, rfl, fun _ => ringFrame_kept port f s⟩
  | ringFrameNak port counter => exact ⟨_, rfl, fun _ => ringFrameNak_kept port counter s⟩
  | hxrEnable port on => exact ⟨_, rfl, fun _ => hxrEnable_kept port on s⟩
  | fwStage => exact ⟨_, rfl, fun _ => fwStage_kept s⟩
  | fwStageDone digestOk signatureOk => exact ⟨_, rfl, fun _ => fwStageDone_kept digestOk signatureOk s⟩
  | fwActivate => exact ⟨_, rfl, fun _ => fwActivate_kept s⟩
  | fwDieUpdate die => exact ⟨_, rfl, fun _ => fwDieUpdate_kept die s⟩
  | bootServingTimeout => exact ⟨_, rfl, fun _ => bootServingTimeout_kept s⟩
  | powerEntryCheck => exact ⟨_, rfl, fun _ => powerEntryCheck_kept s⟩
  | entryHandshakeTimeout => exact ⟨_, rfl, fun _ => entryHandshakeTimeout_kept s⟩
  | wakePin => exact ⟨_, rfl, fun _ => wakePin_kept s⟩
  | rtcAlarm => exact ⟨_, rfl, fun _ => rtcAlarm_kept s⟩
  | regulatorReady => exact ⟨_, rfl, fun _ => regulatorReady_kept s⟩
  | oscillatorReady => exact ⟨_, rfl, fun _ => oscillatorReady_kept s⟩
  | memoryReady => exact ⟨_, rfl, fun _ => memoryReady_kept s⟩
  | logicReady bootSel slotA slotB => exact ⟨_, rfl, fun _ => hubLogicReady_kept bootSel slotA slotB s⟩
  | rtcEdge => exact ⟨_, rfl, fun _ => rtcEdge_kept s⟩
  | timebaseHandback => exact ⟨_, rfl, fun _ => timebaseHandback_kept s⟩
  | memRebuildDone => exact ⟨_, rfl, fun _ => memRebuildDone_kept s⟩
  | autoResleep => exact ⟨_, rfl, fun _ => autoResleep_kept s⟩
  | aonBrownout => exact ⟨_, rfl, fun _ => aonBrownout_kept s⟩
  | vinLoss => exact ⟨_, rfl, fun _ => vinLoss_kept s⟩
  | vinPowerOn => exact ⟨_, rfl, fun _ => vinPowerOn_kept s⟩
  | resetPinRise lowUs => exact ⟨_, rfl, fun _ => resetPinRise_kept lowUs s⟩
  | resetPinColdTimeout => exact ⟨_, rfl, fun _ => resetPinColdTimeout_kept s⟩
  | warmReset => exact ⟨_, rfl, fun _ => warmReset_kept s⟩
  | coldReset => exact ⟨_, rfl, fun _ => coldReset_kept s⟩
  | hostPortReset => exact ⟨_, rfl, fun _ => hostPortReset_kept s⟩
  | dieIdleGate die => exact ⟨_, rfl, fun _ => dieIdleGate_kept die s⟩
  | dvfsStep die lower => exact ⟨_, rfl, fun _ => dvfsStep_kept die lower s⟩
  | powerCapGrid => exact ⟨_, rfl, fun _ => powerCapGrid_kept s⟩
  | powerCapAdjust heaviest => exact ⟨_, rfl, fun _ => powerCapAdjust_kept heaviest s⟩
  | powerCapRestore => exact ⟨_, rfl, fun _ => powerCapRestore_kept s⟩
  | uncertClear => exact ⟨_, rfl, fun _ => uncertClear_kept s⟩
  | countLoRead block idx => exact ⟨_, rfl, fun _ => countLoRead_kept block idx s⟩
  | countHiWrite block idx value => exact ⟨_, rfl, fun _ => countHiWrite_kept block idx value s⟩
  | countLoWrite block idx value => exact ⟨_, rfl, fun _ => countLoWrite_kept block idx value s⟩
  | counterSnap block => exact ⟨_, rfl, fun _ => counterSnap_kept block s⟩
  | dbgSnap value => exact ⟨_, rfl, fun _ => dbgSnap_kept value s⟩
  | dbgSnapCapture block => exact ⟨_, rfl, fun _ => dbgSnapCapture_kept block s⟩
  | counterSample => exact ⟨_, rfl, fun _ => counterSample_kept s⟩
  | traceSync => exact ⟨_, rfl, fun _ => traceSync_kept s⟩
  | tracePacket p => exact ⟨_, rfl, fun _ => tracePacket_kept p s⟩
  | traceThrottleRelease die => exact ⟨_, rfl, fun _ => traceThrottleRelease_kept die s⟩
  | flueFrame => exact ⟨_, rfl, fun _ => flueFrame_kept s⟩
  | traceEnable value => exact ⟨_, rfl, fun _ => traceEnable_kept value s⟩
  | traceArm => exact ⟨_, rfl, fun _ => traceArm_kept s⟩
  | traceTriggerNow => exact ⟨_, rfl, fun _ => traceTriggerNow_kept s⟩
  | traceDrainEnd => exact ⟨_, rfl, fun _ => traceDrainEnd_kept s⟩
  | tensorWatchCopy n => exact ⟨_, rfl, fun _ => tensorWatchCopy_kept n s⟩
  | tensorWatchDone n => exact ⟨_, rfl, fun _ => tensorWatchDone_kept n s⟩
  | indChannelOn n value => exact ⟨_, rfl, fun _ => indChannelOn_kept n value s⟩
  | indRampEnd n => exact ⟨_, rfl, fun _ => indRampEnd_kept n s⟩
  | indShortDetect n => exact ⟨_, rfl, fun _ => indShortDetect_kept n s⟩
  | indShortTimeout n above => exact ⟨_, rfl, fun _ => indShortTimeout_kept n above s⟩
  | indFreezeTimeout => exact ⟨_, rfl, fun _ => indFreezeTimeout_kept s⟩
  | indOpenDetect n => exact ⟨_, rfl, fun _ => indOpenDetect_kept n s⟩
  | indRetry n => exact ⟨_, rfl, fun _ => indRetry_kept n s⟩
  | i3cTransfer n value => exact ⟨_, rfl, fun _ => i3cTransfer_kept n value s⟩
  | i3cTransferDone n nack data => exact ⟨_, rfl, fun _ => i3cTransferDone_kept n nack data s⟩
  | i3cIbi n addr => exact ⟨_, rfl, fun _ => i3cIbi_kept n addr s⟩
  | gpioEdge idx level => exact ⟨_, rfl, fun _ => gpioEdge_kept idx level s⟩
  | idcode => exact ⟨_, rfl, fun _ => idcode_kept s⟩
  | samplePreload shiftIn pins => exact ⟨_, rfl, fun _ => samplePreload_kept shiftIn pins s⟩
  | extest => exact ⟨_, rfl, fun _ => extest_kept s⟩
  | extestPulse => exact ⟨_, rfl, fun _ => extestPulse_kept s⟩
  | extestTrain => exact ⟨_, rfl, fun _ => extestTrain_kept s⟩
  | clamp => exact ⟨_, rfl, fun _ => clamp_kept s⟩
  | highz => exact ⟨_, rfl, fun _ => highz_kept s⟩
  | bypass code => exact ⟨_, rfl, fun _ => bypass_kept code s⟩
  | reservedOpcode e w => exact ⟨_, rfl, fun _ => reservedOpcode_kept e w s⟩
  | islandFailure die => exact ⟨_, rfl, fun _ => islandFailure_kept die s⟩
  | hostLinkL0 speed width => exact ⟨_, rfl, fun _ => hostLinkL0_kept speed width s⟩
  | ringPortTrained port => exact ⟨_, rfl, fun _ => ringPortTrained_kept port s⟩
  | watchUnknownCommand command => exact ⟨_, rfl, fun _ => watchUnknownCommand_kept command s⟩
  | standbyLockstepMismatch => exact ⟨_, rfl, fun _ => standbyLockstepMismatch_kept s⟩
  | standbyTestDone pass => exact ⟨_, rfl, fun _ => standbyTestDone_kept pass s⟩
/-! ### The two cases of a step -/

theorem step_of_empty {s : State} (h : s.pending = []) : step s = .next (tick s) := by
  unfold step
  rw [h]

theorem step_of_cons {s : State} {c : Instr} {rest : List Instr} (h : s.pending = c :: rest) :
    step s = exec c { s with pending := rest } := by
  unfold step
  rw [h]

/-- A step answers a next state, which keeps what is fixed of the state whose queue has lost its first command. -/
theorem step_next_kept (s : State) :
    ∃ t, step s = .next t ∧ Kept (State.fixed { s with pending := s.pending.drop 1 }) t := by
  cases hq : s.pending with
  | nil =>
    have hs : ({ s with pending := [] } : State) = s := by rw [← hq]
    exact ⟨tick s, step_of_empty hq, by simpa only [List.drop_nil, hs] using tick_kept s (kept_fixed s)⟩
  | cons c rest =>
    obtain ⟨t, hexec, hkept⟩ := exec_next_kept c { s with pending := rest }
    exact ⟨t, (step_of_cons hq).trans hexec, hkept _ (kept_fixed _)⟩

/-! ### One period of the timebase -/

theorem tick_of_clockRuns {s : State} (h : s.clockRuns = true) : tick s =
    (forEach (natRange 0 s.nDies) { s with tb := (s.tb + 1) % 2 ^ 64 } fun d t => t.releaseLogic d).backDue := if_pos h

theorem tick_of_stopped {s : State} (h : s.clockRuns = false) : tick s = s := if_neg (by simp [h])

/-- The release of compute logic from reset changes registers alone. -/
theorem State.releaseLogic_frame (s : State) (d : Nat) : s.releaseLogic d = { s with regs := (s.releaseLogic d).regs } := by
  unfold State.releaseLogic
  dsimp only
  split <;> rfl

/-- It changes the die's own status register alone. -/
theorem State.reg_releaseLogic_other (s : State) {d k : Nat} (h : k ≠ Reg.CDG_STATUS d) : (s.releaseLogic d).reg k = s.reg k := by
  unfold State.releaseLogic
  dsimp only
  split
  · exact State.reg_setFld_other s _ h
  · rfl

/-- Releasing the logic of several dies changes registers alone. -/
theorem releaseLogic_forEach_frame (ds : List Nat) (s : State) :
    forEach ds s (fun d t => t.releaseLogic d) = { s with regs := (forEach ds s fun d t => t.releaseLogic d).regs } := by
  induction ds generalizing s with
  | nil => rfl
  | cons d ds ih =>
    rw [forEach, ih, s.releaseLogic_frame d]

theorem releaseLogic_forEach_regsBut (ds : List Nat) (s : State) :
    s.regsBut (ds.map Reg.CDG_STATUS) (forEach ds s fun d t => t.releaseLogic d) := by
  induction ds generalizing s with
  | nil => exact fun _ _ => rfl
  | cons d ds ih =>
    intro k hk
    rw [List.map_cons, List.mem_cons, not_or] at hk
    rw [forEach, ih _ k hk.2, s.reg_releaseLogic_other hk.1]

/-- The time is none of what a page-map operation's progress changes. -/
theorem State.tb_refreshReady (s : State) : s.refreshReady.tb = s.tb := by
  have hcompat : s.settleCompat.tb = s.tb := by
    unfold State.settleCompat
    split
    · split <;> rfl
    · rfl
  have hraise (u : State) (c kind : Nat) : (u.raiseVt c kind).tb = u.tb := by
    unfold State.raiseVt
    split
    · split <;> rfl
    · rfl
  refine (forEach_proj State.tb _ _ _ fun st t => forEach_proj State.tb _ _ _ fun c u => ?_).trans hcompat
  split
  · split
    · rfl
    · rw [State.modCmd_tb]
      split
      · rfl
      · exact hraise u _ _
  · split
    · split <;> rfl
    · rfl

theorem State.tb_backIn (s : State) (n g f : Nat) (st : PageState) : (s.backIn n g f st).tb = s.tb := by
  unfold State.backIn State.resleepBacked
  split <;> rfl

theorem State.tb_backDue (s : State) : s.backDue.tb = s.tb := by
  unfold State.backDue
  split
  · rfl
  · dsimp only
    split
    · rfl
    · rw [State.tb_refreshReady]
      refine forEach_proj State.tb _ _ _ fun b t => ?_
      split
      · exact State.tb_backIn t _ _ _ _
      · rfl

/-- With no page-map operation in progress there is no page to be backed. -/
theorem State.backDue_of_idle {s : State} (h : s.pageCmd = none) : s.backDue = s := by
  unfold State.backDue
  rw [h]

/-! ### The obligations -/

/-- Settles O1: the step's own definition. -/
theorem stepRunsFrontCommand : Obligations.StepRunsFrontCommand := fun _ _ _ => step_of_cons rfl

/-- Settles O3: the reset state lists nothing, so each register holds its reset value. -/
theorem resetState : Obligations.ResetState :=
  ⟨rfl, rfl, rfl, rfl, rfl, rfl, rfl, rfl, rfl, rfl, fun _ => rfl, by decide⟩

/-- Settles O5. -/
theorem commandsKeepQueueAndPart : Obligations.CommandsKeepQueueAndPart := fun c s => by
  obtain ⟨t, hexec, hkept⟩ := exec_next_kept c s
  obtain ⟨-, hqueue, hvariant, hgrade⟩ := hkept _ (kept_fixed s)
  exact ⟨t, hexec, hqueue, hvariant, hgrade⟩

/-- Settles O4: a canonical memory is among what a step keeps. -/
theorem memoryStaysCanonical : Obligations.MemoryStaysCanonical := fun s t hwf hstep => by
  obtain ⟨u, hnext, hcanon, -⟩ := step_next_kept s
  obtain rfl : u = t := Host.Outcome.next.inj (hnext.symm.trans hstep)
  exact hcanon hwf

/-- Settles O6: a step keeps what is fixed, but for the queue's first command. -/
theorem queueIsFirstInFirstOut : Obligations.QueueIsFirstInFirstOut := fun s => by
  obtain ⟨t, hnext, -, hqueue, hvariant, hgrade⟩ := step_next_kept s
  exact ⟨t, hnext, hqueue, hvariant, hgrade⟩

/-- Settles O2: the tick releases compute logic, which is a write of status registers, and goes on with a BACK in progress, which
leaves the time alone. -/
theorem idleStepIsOneTick : Obligations.IdleStepIsOneTick := by
  refine ⟨fun s hq hstop => ?stopped, fun s hq hrun => ?runs, fun s hq hrun hidle => ?frame⟩
  case stopped => rw [step_of_empty hq, tick_of_stopped hstop]
  case runs =>
    obtain ⟨-, hqueue, -⟩ := tick_kept s (kept_fixed s)
    refine ⟨tick s, step_of_empty hq, ?_, hqueue.trans hq⟩
    rw [tick_of_clockRuns hrun, State.tb_backDue, releaseLogic_forEach_frame]
  case frame =>
    have htick : tick s = forEach (natRange 0 s.nDies) { s with tb := (s.tb + 1) % 2 ^ 64 } fun d t => t.releaseLogic d := by
      rw [tick_of_clockRuns hrun, State.backDue_of_idle]
      rw [releaseLogic_forEach_frame]
      exact hidle
    refine ⟨tick s, step_of_empty hq, ?_, ?_⟩
    · rw [htick]
      exact releaseLogic_forEach_regsBut _ _
    · rw [htick, releaseLogic_forEach_frame]

end Sys2Proof.Machine
end

section
/-! Settles the obligations on the host's access to registers (R11 to R13, R506, R523): accesses that are refused, reads with a latch,
and what a write stores. -/

namespace Sys2Proof.Machine

open Sys2Proof

/-! ### Accesses that meet no register (R12, R506) -/

/-- The access is recorded in HST_ACC_LOG and counted in HST_ACC_COUNT. -/
def State.recordAccess (s : State) (log : Nat) : State := (s.setReg Reg.HST_ACC_LOG log).addFld Fld.HST_ACC_COUNT_count 1

theorem accLog_lt (off cause : Nat) (write : Bool) (h : cause ≤ 1) : accLog off cause write < 2 ^ 64 := by
  have hwrite : b2n write < 2 := b2n_lt write
  have hoff : off % 0x8000000 < 0x8000000 := Nat.mod_lt _ (by decide)
  unfold accLog
  omega

theorem State.reg_recordAccess_log (s : State) {log : Nat} (h : log < 2 ^ 64) : (s.recordAccess log).reg Reg.HST_ACC_LOG = log := by
  rw [State.recordAccess, State.reg_addFld_other _ _ (by decide), State.reg_setReg_same, Nat.mod_eq_of_lt h]

theorem State.fld_recordAccess_count (s : State) (log : Nat) : (s.recordAccess log).fld Fld.HST_ACC_COUNT_count =
    min (s.fld Fld.HST_ACC_COUNT_count + 1) (2 ^ Fld.HST_ACC_COUNT_count.width - 1) := by
  rw [State.recordAccess, State.fld_addFld_same _ _ (by decide), State.fld, State.reg_setReg_other _ _ (by decide), State.fld]

theorem State.regsBut_recordAccess (s : State) (log : Nat) :
    s.regsBut [Reg.HST_ACC_LOG, Reg.HST_ACC_COUNT] (s.recordAccess log) := by
  intro k hk
  simp only [List.mem_cons, List.not_mem_nil, or_false, not_or] at hk
  obtain ⟨hlog, hcount⟩ := hk
  rw [State.recordAccess, State.reg_addFld_other _ _ hcount, State.reg_setReg_other _ _ hlog]

/-- An access that is refused is recorded, logged as class 0, and a read of it is answered with one byte throughout. -/
theorem State.noteAccess_eq (s : State) (off size cause : Nat) (write : Bool) (fill : Byte) :
    s.noteAccess off size cause write fill =
      if write then (s.recordAccess (accLog off cause write)).logRecorded 0x8050 0
      else { (s.recordAccess (accLog off cause write)).logRecorded 0x8050 0 with
        hostRsp := List.replicate size fill, hostPoison := false } := rfl

theorem misalignedRegAccess_of_misaligned {off size : Nat} (write : Bool) (s : State) (h : misaligned off size = true) :
    exec (.misalignedRegAccess off size write) s = .next (s.noteAccess off size 0 write 0xFF) :=
  congrArg Host.Outcome.next (if_pos h)

theorem emptyOffsetAccess_of_empty {off size : Nat} (write : Bool) {s : State} (h : misaligned off size = false)
    (hmeets : s.meetsReg off size = false) :
    exec (.emptyOffsetAccess off size write) s = .next (s.noteAccess off size 1 write 0) :=
  congrArg Host.Outcome.next (if_neg (by simp [h, hmeets]))

/-- Settles O7. -/
theorem refusedHostAccesses : Obligations.RefusedHostAccesses := by
  refine ⟨fun off size write s hmis => ?misaligned, fun off size write s hal hmeets => ?empty⟩
  case misaligned =>
    exact ⟨s.recordAccess (accLog off 0 write),
      by rw [misalignedRegAccess_of_misaligned write s hmis, State.noteAccess_eq],
      s.reg_recordAccess_log (accLog_lt off 0 write (by decide)), s.fld_recordAccess_count _, s.regsBut_recordAccess _, rfl⟩
  case empty =>
    exact ⟨s.recordAccess (accLog off 1 write),
      by rw [emptyOffsetAccess_of_empty write hal hmeets, State.noteAccess_eq],
      s.reg_recordAccess_log (accLog_lt off 1 write (by decide)), s.fld_recordAccess_count _, s.regsBut_recordAccess _, rfl⟩

/-! ### Reads with a latch (R11, R523) -/

/-- Reading a register draws a free value at most. -/
theorem State.readReg_frame (s : State) (base words : Nat) :
    (s.readReg base words).1 = { s with drawn := (s.readReg base words).1.drawn } := by
  unfold State.readReg
  split
  · rfl
  · split <;> rfl

/-- The registers of a block of 2 KiB lie in the compute logic in which the block's first register lies. -/
theorem inLogic_of_block {off : Nat} (h : inLogic (offDie (off - off % 0x800)) (off - off % 0x800) = true) :
    0x1000000 ≤ off ∧ inLogic (offDie off) off = true := by
  rw [inLogic, Bool.and_eq_true, decide_eq_true_eq, decide_eq_true_eq] at h
  rw [inLogic, Bool.and_eq_true, decide_eq_true_eq, decide_eq_true_eq]
  simp only [offDie, dieBase] at h ⊢
  omega

/-- A register with a high-word latch is no counter: counters have a latch of their own (R481). -/
theorem State.counterRead_of_hasLatch (s : State) {d : RegDef} {off : Nat} (h : hasLatch d off = true) : s.counterRead off = none := by
  unfold State.counterRead
  extract_lets blk
  refine if_neg fun ⟨hlow, hhigh, hblk⟩ => ?_
  rw [hasLatch, Bool.and_eq_true] at h
  have hwide : decide (off % 0x800 < 0x180) = true := decide_eq_true (by omega)
  have hblk' : (decide (off - off % 0x800 = 0xC1000) || (decide (0x1000000 ≤ off) && inLogic (offDie off) off)) = true := by
    rcases hblk with hhub | hdie
    · simp [show off - off % 0x800 = 0xC1000 from hhub]
    · obtain ⟨hge, hin⟩ := inLogic_of_block hdie
      simp [hge, hin]
  simp [hwide, hlow, hblk'] at h

theorem exec_latchedLowRead (off : Nat) (wide : Bool) (s : State) :
    exec (.latchedLowRead off wide) s = .next (latchedLowRead off wide s) := rfl

theorem exec_latchedHighRead (off : Nat) (s : State) : exec (.latchedHighRead off) s = .next (latchedHighRead off s) := rfl

/-- A 32-bit read of the low word of a live register with a latch answers that word and latches the high word of the same value. -/
theorem State.readLow_of_hasLatch {s : State} {off : Nat} {d : RegDef} (hreg : s.regHere off = some (d, off)) (hal : off % 4 = 0)
    (hlatch : hasLatch d off = true) (hlive : s.logicDead off = false) :
    s.readLow off = { s with
      latch := mapSet s.latch (s.keyOf off) (BitVec.ofNat 32 ((s.readReg off d.words).2 / 2 ^ 32))
      hostRsp := leBytes (s.readReg off d.words).2 4, hostPoison := false, drawn := (s.readReg off d.words).1.drawn } := by
  simp only [State.readLow, hreg, hal, hlive, s.counterRead_of_hasLatch hlatch, hlatch, ne_eq, not_true_eq_false,
    or_self, Bool.false_eq_true, Option.isSome_none, if_false, if_true]
  rw [s.readReg_frame off d.words]
  rfl

/-- An aligned 64-bit read of a 64-bit register answers its eight bytes. -/
theorem State.readWide_of_words {s : State} {off : Nat} {d : RegDef} (hreg : s.regHere off = some (d, off)) (hwords : d.words = 2) :
    s.readWide off = { s with
      hostRsp := leBytes (s.readReg off 2).2 8, hostPoison := false, drawn := (s.readReg off 2).1.drawn } := by
  simp only [State.readWide, hreg, hwords]
  rw [if_pos ⟨trivial, trivial⟩, s.readReg_frame off 2]
  rfl

/-- A 32-bit read of the high word answers a full latch and empties it. -/
theorem latchedHighRead_of_full {s : State} {off : Nat} {d : RegDef} {w : W32} (hreg : s.regHere (off + 4) = some (d, off))
    (hlive : s.logicDead off = false) (hcount : s.counterRead off = none) (hfull : mapFind s.latch (s.keyOf off) = some w) :
    latchedHighRead (off + 4) s = { s.hostAnswer (leBytes w.toNat 4) with latch := mapDel s.latch (s.keyOf off) } := by
  simp only [latchedHighRead, hreg, hlive, hcount, hfull, ne_eq, not_true_eq_false, Bool.false_eq_true, if_false]

/-- With an empty latch it answers the current high word. -/
theorem latchedHighRead_of_empty {s : State} {off : Nat} {d : RegDef} (hreg : s.regHere (off + 4) = some (d, off))
    (hlive : s.logicDead off = false) (hcount : s.counterRead off = none) (hempty : mapFind s.latch (s.keyOf off) = none) :
    latchedHighRead (off + 4) s = { s with
      hostRsp := leBytes ((s.readReg off d.words).2 / 2 ^ 32) 4, hostPoison := false, drawn := (s.readReg off d.words).1.drawn } := by
  simp only [latchedHighRead, hreg, hlive, hcount, hempty, ne_eq, not_true_eq_false, Bool.false_eq_true, if_false]
  rw [s.readReg_frame off d.words]
  rfl

/-- Settles O8. -/
theorem latchedReads : Obligations.LatchedReads := by
  refine ⟨fun off d s hreg hal hlatch hlive => ?low, fun off d s hreg hal hwords => ?wide,
    fun off d s w hreg hlive hcount hfull => ?full, fun off d s hreg hlive hcount hempty => ?empty⟩
  case low =>
    have heq : latchedLowRead off false s = s.readLow off := rfl
    rw [State.readLow_of_hasLatch hreg hal hlatch hlive] at heq
    exact ⟨_, (exec_latchedLowRead off false s).trans (congrArg _ heq), rfl, rfl, mapFind_mapSet_same _ _ _, rfl⟩
  case wide =>
    have hmeets : s.meetsReg off 8 = true := by simp [State.meetsReg, hreg]
    have heq : latchedLowRead off true s = s.readWide off := by rw [latchedLowRead, if_pos rfl, if_pos ⟨hal, hmeets⟩]
    rw [State.readWide_of_words hreg hwords] at heq
    exact ⟨_, (exec_latchedLowRead off true s).trans (congrArg _ heq), rfl, rfl, rfl⟩
  case full =>
    exact ⟨_, (exec_latchedHighRead _ s).trans (congrArg _ (latchedHighRead_of_full hreg hlive hcount hfull)), rfl, rfl,
      mapFind_mapDel_same _ _, rfl⟩
  case empty =>
    exact ⟨_, (exec_latchedHighRead _ s).trans (congrArg _ (latchedHighRead_of_empty hreg hlive hcount hempty)), rfl, rfl, rfl⟩

/-! ### Writes (R11 to R17) -/

theorem exec_regWrite (off : Nat) (wide : Bool) (v : W64) (s : State) :
    exec (.regWrite off wide v) s = .next (regWrite off wide v s) := rfl

theorem regWrite_of_misaligned {off : Nat} {wide : Bool} (v : W64) (s : State) (h : misaligned off (if wide then 8 else 4) = true) :
    regWrite off wide v s = s := if_pos h

/-- A 32-bit write at an offset that holds no register has no effect. -/
theorem regWrite_of_empty {off : Nat} (v : W64) {s : State} (h : s.regHere off = none) : regWrite off false v s = s := by
  by_cases hmis : misaligned off 4 = true
  · exact regWrite_of_misaligned v s hmis
  · rw [regWrite, if_neg (by simpa using hmis), if_neg (by decide), State.writeWord, h]

/-- An aligned 32-bit write of a 32-bit register. -/
theorem regWrite_of_word {off : Nat} {d : RegDef} (v : W64) {s : State} (hal : off % 4 = 0) (hreg : s.regHere off = some (d, off))
    (hwords : d.words = 1) : regWrite off false v s = s.writeReg d off none (v.toNat % 2 ^ 32) := by
  have hmis : misaligned off 4 = false := by simp [misaligned, hal]
  rw [regWrite, if_neg (by simp [hmis]), if_neg (by decide), State.writeWord, hreg]
  simp only [hwords]
  rfl

/-- What a 32-bit register holds after a write of `value`, its fields stored by their access codes after the clamps (R14 to R16). -/
def State.storedFields (s : State) (d : RegDef) (off value : Nat) : Nat :=
  writeFields (s.reg (s.keyOf off)) (s.heldBits off (s.reg (s.keyOf off)) (s.storedValue off value)) value d.fields

/-- A write of a live register that has no row of its own, meets no discard rule and is under no enabled function is stored, and has
the effect of a write of that register. -/
theorem State.writeReg_of_plain {s : State} {d : RegDef} {off : Nat} (value : Nat) (haud : off ≠ Reg.AUD_CTRL)
    (hlive : s.logicDead off = false) (hrow : s.ownRow off value = false) (hkeep : s.discarded off value = none)
    (hguard : s.expertGuard off = none) :
    s.writeReg d off none value =
      let t := State.afterWrite s (s.setReg (s.keyOf off) (s.storedFields d off value)) off (s.reg (s.keyOf off))
        (s.storedFields d off value) value
      if t.entryError 1 = 0 then t else t.breakResleep := by
  simp only [State.writeReg, hlive, hrow, hkeep, hguard, haud, decide_false, Bool.false_and, Bool.false_eq_true, or_self, if_false]
  rfl

/-! ### A write of SCH_CLIENT_SEL (R57) -/

theorem regAt_clientSel : regAt Reg.SCH_CLIENT_SEL = some (Reg.def_SCH_CLIENT_SEL, Reg.SCH_CLIENT_SEL) := by decide

/-- SCH_CLIENT_SEL has no limits on what may be stored. -/
theorem State.storedValue_clientSel (s : State) (v : Nat) : s.storedValue Reg.SCH_CLIENT_SEL v = v := by
  have hloop := forEach_ite (fun r : Nat × List (Nat × Nat) × Nat × Nat × Nat × Nat => sitsAt r.1 r.2.1 Reg.SCH_CLIENT_SEL)
    (fun r x => setBits x r.2.2.1 r.2.2.2.1 (min r.2.2.2.2.2 (max r.2.2.2.2.1 (bits x r.2.2.1 r.2.2.2.1)))) ranges v
  have hnone : ranges.filter (fun r => sitsAt r.1 r.2.1 Reg.SCH_CLIENT_SEL) = [] := by decide
  rw [hnone] at hloop
  unfold State.storedValue
  extract_lets v1
  have hv1 : v1 = v := hloop
  rw [if_neg (by decide), if_neg (by decide), if_neg fun h => absurd h.1 (by decide), if_neg fun h => absurd h.2.1 (by decide), hv1]

theorem State.heldBits_clientSel (s : State) (old v : Nat) : s.heldBits Reg.SCH_CLIENT_SEL old v = v := by
  unfold State.heldBits
  extract_lets rel
  rw [if_neg (by decide), if_neg (by decide), if_neg fun h => absurd h.1 (by decide), if_neg fun h => absurd h.1 (by decide)]

theorem State.counterRead_clientSel (s : State) : s.counterRead Reg.SCH_CLIENT_SEL = none := by
  unfold State.counterRead
  exact if_neg (by decide)

/-- No write of SCH_CLIENT_SEL is a command of its own. -/
theorem State.ownRow_clientSel (s : State) (v : Nat) : s.ownRow Reg.SCH_CLIENT_SEL v = false := by
  have hsits : ∀ r ∈ [(0x70000, [(0x40, 4)]), (0x90010, [(4, 2)]), (0xB0000, [(4, 6)]), (0xB0404, [(0x80, 4)]), (0xD0000, [(0x4000, 2)]),
      (0x71000, [(0x100, 16)])], sitsAt r.1 r.2 Reg.SCH_CLIENT_SEL = false := by decide
  have hreg : ∀ r ∈ [Reg.SCH_CLIENT_EXCL, Reg.AUD_MUTE, Reg.DBG_TRACE_CTRL, Reg.DBG_SNAP, Reg.AUD_CTRL, Reg.MEM_PAGE_CMD],
      Reg.SCH_CLIENT_SEL ≠ r := by decide
  simp only [List.forall_mem_cons] at hsits hreg
  simp [State.ownRow, State.counterRead_clientSel, hsits, hreg]

theorem State.discarded_clientSel (s : State) (v : Nat) : s.discarded Reg.SCH_CLIENT_SEL v = none := by
  unfold State.discarded
  repeat rw [if_neg (by decide)]

theorem State.expertGuard_clientSel (s : State) : s.expertGuard Reg.SCH_CLIENT_SEL = none := by
  unfold State.expertGuard
  extract_lets d rel guard
  repeat rw [if_neg (by decide)]

theorem State.afterWrite_clientSel (s0 s : State) (old new value : Nat) : State.afterWrite s0 s Reg.SCH_CLIENT_SEL old new value = s := by
  unfold State.afterWrite
  repeat rw [if_neg (by decide)]
  exact if_neg fun h => absurd h.1 (by decide)

/-- The state with SCH_CLIENT_SEL written. -/
def State.selectClient (s : State) (value : Nat) : State :=
  s.setReg Reg.SCH_CLIENT_SEL (s.storedFields Reg.def_SCH_CLIENT_SEL Reg.SCH_CLIENT_SEL value)

/-- A write of SCH_CLIENT_SEL stores the 12-bit client field and keeps the rest of its 32 bits. -/
theorem State.storedFields_clientSel (s : State) (value : Nat) :
    s.storedFields Reg.def_SCH_CLIENT_SEL Reg.SCH_CLIENT_SEL value =
      bits value 0 12 + 2 ^ 12 * bits (s.reg Reg.SCH_CLIENT_SEL) 12 20 := by
  have hkey : s.keyOf Reg.SCH_CLIENT_SEL = Reg.SCH_CLIENT_SEL := if_neg (by decide)
  simp [State.storedFields, hkey, s.storedValue_clientSel, s.heldBits_clientSel, Reg.def_SCH_CLIENT_SEL, writeFields]

theorem State.reg_selectClient (s : State) (value : Nat) : (s.selectClient value).reg Reg.SCH_CLIENT_SEL =
    value % 4096 + 4096 * (s.reg Reg.SCH_CLIENT_SEL / 4096 % 2 ^ 20) := by
  rw [State.selectClient, State.reg_setReg_same, s.storedFields_clientSel]
  simp only [bits, Nat.shiftRight_eq_div_pow]
  omega

theorem regWrite_clientSel (v : W64) (s : State) : regWrite Reg.SCH_CLIENT_SEL false v s =
    if (s.selectClient (v.toNat % 2 ^ 32)).entryError 1 = 0 then s.selectClient (v.toNat % 2 ^ 32)
    else (s.selectClient (v.toNat % 2 ^ 32)).breakResleep := by
  have hreg : s.regHere Reg.SCH_CLIENT_SEL = some (Reg.def_SCH_CLIENT_SEL, Reg.SCH_CLIENT_SEL) :=
    (if_neg fun h => absurd h.1 (by decide)).trans regAt_clientSel
  have hlive : s.logicDead Reg.SCH_CLIENT_SEL = false := rfl
  have hkey : s.keyOf Reg.SCH_CLIENT_SEL = Reg.SCH_CLIENT_SEL := if_neg (by decide)
  rw [regWrite_of_word v (by decide) hreg rfl, State.writeReg_of_plain _ (by decide) hlive (s.ownRow_clientSel _)
    (s.discarded_clientSel _) s.expertGuard_clientSel]
  simp only [State.afterWrite_clientSel, hkey]
  rfl

/-- SCH_CLIENT_SEL is none of the registers that the conditions of SLEEP look at (R463, R465). -/
theorem State.entryError_selectClient (s : State) (value : Nat) : (s.selectClient value).entryError 1 = s.entryError 1 := by
  have hfld (f : Fld) (h : f.key ≠ Reg.SCH_CLIENT_SEL) : (s.selectClient value).fld f = s.fld f := by
    rw [State.fld, State.selectClient, State.reg_setReg_other _ _ h, State.fld]
  have hflag (f : Fld) (h : f.key ≠ Reg.SCH_CLIENT_SEL) : (s.selectClient value).flag f = s.flag f := by
    rw [State.flag, hfld f h, State.flag]
  have hcam c : (s.selectClient value).flag (Fld.CAM_CH_CTRL_enable c) = s.flag (Fld.CAM_CH_CTRL_enable c) :=
    hflag _ (by simp only [Fld.CAM_CH_CTRL_enable, Reg.CAM_CH_CTRL, Reg.SCH_CLIENT_SEL]; omega)
  have hbanks : ((natRange 0 s.nDies).map fun d =>
        ((natRange 0 16).filter fun k => bit ((s.selectClient value).fld (Fld.PWR_RETAIN_banks d)) k).length) =
      (natRange 0 s.nDies).map fun d => ((natRange 0 16).filter fun k => bit (s.fld (Fld.PWR_RETAIN_banks d)) k).length := by
    refine List.map_congr_left fun d hd => ?_
    have hd7 : d < 7 := Nat.lt_of_lt_of_le (by simpa [mem_natRange] using hd) s.nDies_le
    rw [hfld _ (by simp only [Fld.PWR_RETAIN_banks, Reg.PWR_RETAIN, Reg.SCH_CLIENT_SEL]; omega)]
  have hentry e : Reg.AUD_HIST_ENTRY e ≠ Reg.SCH_CLIENT_SEL := by simp only [Reg.AUD_HIST_ENTRY, Reg.SCH_CLIENT_SEL]; omega
  have hhist rate : (s.selectClient value).histAt rate = s.histAt rate := by
    simp only [State.histAt, hflag (Fld.AUD_HIST_ENTRY_hist_enable _) (hentry _), hflag (Fld.AUD_HIST_ENTRY_rate48 _) (hentry _)]
  have hbeams rate : (s.selectClient value).beamsAt rate = s.beamsAt rate := by
    simp only [State.beamsAt, hhist, hfld (Fld.AUD_HIST_ENTRY_source _) (hentry _)]
  have hkept g : (s.selectClient value).keptGroup g = s.keptGroup g := by
    rw [State.keptGroup, hfld _ (by decide), State.keptGroup]
  have hmics m0 m1 mode : (s.selectClient value).micsIn m0 m1 mode = s.micsIn m0 m1 mode := by
    rw [State.micsIn, hfld _ (by decide), State.micsIn]
  have hbudget : (s.selectClient value).aonBudget false = s.aonBudget false := by
    have hdies : (s.selectClient value).nDies = s.nDies := rfl
    simp only [State.aonBudget, State.audMuted, hdies, hbanks, hmics, hbeams, hhist, hfld Fld.AUD_CTRL_mode_sleep0 (by decide),
      hfld Fld.AUD_CTRL_mode_sleep1 (by decide), hflag Fld.AUD_CTRL_enable (by decide), hflag Fld.AUD_MUTE_muted (by decide),
      hflag Fld.WAK_CTRL_tinder_enable (by decide), hflag Fld.WAK_CTRL_presence_enable (by decide)]
    rfl
  have hsteps : (s.selectClient value).steps = s.steps := rfl
  have hpages : (s.selectClient value).pages = s.pages := rfl
  simp only [State.entryError, State.stage, hsteps, hpages, hcam, hkept, hfld Fld.WAK_STATE_stage (by decide),
    hflag Fld.PWR_CTRL_allow_drop (by decide), show decide (1 = 2) = false from rfl, hbudget, show decide (1 = 3) = false from rfl,
    Bool.false_and]
  rfl

/-- Settles O9. -/
theorem registerWrites : Obligations.RegisterWrites := by
  refine ⟨fun off wide v s hmis => ?misaligned, fun off v s hempty => ?empty, fun v s => ?select,
    fun off d v s t hal hreg hwords haud hlive hrow hkeep hguard ht => ?plain⟩
  case misaligned => rw [exec_regWrite, regWrite_of_misaligned v s hmis]
  case empty => rw [exec_regWrite, regWrite_of_empty v hempty]
  case select =>
    have hfld : (s.selectClient (v.toNat % 2 ^ 32)).fld Fld.SCH_CLIENT_SEL_client = v.toNat % 4096 := by
      rw [State.fld, Fld.SCH_CLIENT_SEL_client, State.reg_selectClient]
      simp only [bits, Nat.shiftRight_eq_div_pow]
      omega
    have hlow (h : s.reg Reg.SCH_CLIENT_SEL < 4096) : (s.selectClient (v.toNat % 2 ^ 32)).reg Reg.SCH_CLIENT_SEL < 4096 := by
      rw [State.reg_selectClient]
      omega
    have hregs : s.regsBut [Reg.SCH_CLIENT_SEL] (s.selectClient (v.toNat % 2 ^ 32)) := fun k hk =>
      State.reg_setReg_other s _ (by simpa using hk)
    rw [exec_regWrite, regWrite_clientSel]
    split
    · exact ⟨_, rfl, hfld, hlow, hregs, rfl, fun _ => rfl⟩
    · next hbroken => exact ⟨_, rfl, hfld, hlow, hregs, rfl, fun h => absurd ((s.entryError_selectClient _).trans h) hbroken⟩
  case plain =>
    subst ht
    rw [exec_regWrite, regWrite_of_word v hal hreg hwords, State.writeReg_of_plain _ haud hlive hrow hkeep hguard]
    rfl

end Sys2Proof.Machine
end

section
/-! Facts of the byte memory, of cut ranges and of loops, and of the line counts and notes of a read (R327, R336). -/

namespace Sys2Proof.Machine

open Sys2Proof

/-! ### Loops and ranges -/

/-- A loop none of whose turns changes the state changes nothing. -/
theorem forEach_id {β σ : Type} {xs : List β} {s : σ} {f : β → σ → σ} (h : ∀ x ∈ xs, f x s = s) : forEach xs s f = s := by
  induction xs with
  | nil => rfl
  | cons x xs ih =>
    rw [forEach, h x List.mem_cons_self]
    exact ih fun y hy => h y (List.mem_cons_of_mem x hy)

theorem natRange_eq_map (a n : Nat) : natRange a n = (natRange 0 n).map (a + ·) := by
  rw [natRange_eq_range', natRange_eq_range', List.map_add_range', Nat.add_zero]

@[simp] theorem getElem_natRange {a n k : Nat} (h : k < (natRange a n).length) : (natRange a n)[k] = a + k := by
  simp [natRange_eq_range']

/-- A piece of a cut range starts within the range. -/
theorem cutRange_mem {w fuel a n x k : Nat} (h : (x, k) ∈ cutRange w fuel a n) : a ≤ x ∧ x < a + n := by
  induction fuel generalizing a n with
  | zero => simp [cutRange] at h
  | succ fuel ih =>
    unfold cutRange at h
    split at h
    · simp at h
    · rcases List.mem_cons.mp h with heq | hmem
      · cases heq; omega
      · have := ih hmem
        omega

theorem cutBytes_cons (w fuel a : Nat) (y : Byte) (ys : List Byte) : cutBytes w (fuel + 1) a (y :: ys) =
    (a, (y :: ys).take (w - a % w)) :: cutBytes w fuel (a + (w - a % w)) ((y :: ys).drop (w - a % w)) := rfl

/-- A piece of cut bytes starts within the range of the bytes. -/
theorem cutBytes_mem {w fuel a x : Nat} {bs b : List Byte} (h : (x, b) ∈ cutBytes w fuel a bs) : a ≤ x ∧ x < a + bs.length := by
  induction fuel generalizing a bs with
  | zero => simp [cutBytes] at h
  | succ fuel ih =>
    cases bs with
    | nil => simp [cutBytes] at h
    | cons y ys =>
      rw [cutBytes_cons, List.mem_cons] at h
      rcases h with heq | hmem
      · cases heq; simp
      · have := ih hmem
        simp only [List.length_drop, List.length_cons] at this ⊢
        omega

/-- Bytes that lie within one unit of `w` are one piece. -/
theorem cutBytes_within {w fuel a : Nat} {bs : List Byte} (hne : 0 < bs.length) (hw : a % w + bs.length ≤ w) :
    cutBytes w (fuel + 2) a bs = [(a, bs)] := by
  cases bs with
  | nil => simp at hne
  | cons y ys =>
    have htake : (y :: ys).take (w - a % w) = y :: ys := List.take_of_length_le (by omega)
    have hdrop : (y :: ys).drop (w - a % w) = [] := List.drop_of_length_le (by omega)
    rw [cutBytes_cons, htake, hdrop]
    rfl

/-! ### The byte memory -/

/-- Bytes written are the bytes read back. -/
theorem memoryRead_write_same (m : List Host.Cell) (a : Nat) (bs : List Byte) : memoryRead (memoryWrite m a bs) a bs.length = bs := by
  refine List.ext_getElem (by simp [memoryRead]) fun k h1 h2 => ?_
  simp only [memoryRead, List.getElem_map, getElem_natRange]
  exact memoryGet_write_inside m a k bs h2

theorem State.load_store_same (s : State) (a : Nat) (bs : List Byte) : (s.store a bs).load a bs.length = bs :=
  memoryRead_write_same s.mem a bs

/-! ### What is counted and noted of an access (R327, R336) -/

/-- Counting lines changes the access counts alone. -/
theorem State.countLines_frame (s : State) (die a n : Nat) : s.countLines die a n = { s with access := (s.countLines die a n).access } := by
  unfold State.countLines
  generalize cutRange 0x200000 (n / 0x200000 + 2) a n = ps
  induction ps generalizing s with
  | nil => rfl
  | cons p ps ih =>
    obtain ⟨x, k⟩ := p
    rw [forEach, ih]
    dsimp only
    split <;> rfl

/-- An access to no backed page is counted nowhere. -/
theorem State.countLines_of_unbacked {s : State} (die : Nat) {a n : Nat}
    (h : ∀ x, a ≤ x → x < a + n → s.deviceEnd ≤ x ∨ (s.page (x / 0x200000)).state ≠ .backed) : s.countLines die a n = s := by
  refine forEach_id fun p hp => ?_
  obtain ⟨x, k⟩ := p
  obtain ⟨hlo, hhi⟩ := cutRange_mem hp
  refine if_neg fun ⟨hdev, hbacked⟩ => ?_
  rcases h x hlo hhi with hend | hpage
  · omega
  · exact hpage hbacked

/-- A read of a group without a word in error leaves nothing to note. -/
theorem State.noteRead_of_clean {s : State} {g : Nat} (off n : Nat) (h : (s.dmc g).errs = []) : s.noteRead g off n = s := by
  simp [State.noteRead, h, forEach]

/-- A read of a Hearth without a word in error leaves nothing to note. -/
theorem State.noteHearthRead_of_clean {s : State} {d : Nat} (off n : Nat) (h : (s.hearth d).errs = []) : s.noteHearthRead d off n = s := by
  simp [State.noteHearthRead, h]

theorem State.noteReads_of_clean {s : State} (a n : Nat) (hdram : ∀ g, (s.dmc g).errs = []) (hhearth : ∀ d, (s.hearth d).errs = []) :
    s.noteReads a n = s := by
  refine forEach_id fun p _ => ?_
  dsimp only
  split
  · split
    · exact State.noteRead_of_clean _ _ (hdram _)
    · rfl
  · split
    · exact State.noteHearthRead_of_clean _ _ (hhearth _)
    · rfl

/-- Where no word is in error, an access changes the access counts alone. -/
theorem State.touch_of_clean {s : State} (die a n : Nat) (isRead : Bool) (hdram : ∀ g, (s.dmc g).errs = [])
    (hhearth : ∀ d, (s.hearth d).errs = []) : s.touch die a n isRead = s.countLines die a n := by
  unfold State.touch
  dsimp only
  split
  · refine State.noteReads_of_clean a n (fun g => ?_) (fun d => ?_)
    · rw [s.countLines_frame]; exact hdram g
    · rw [s.countLines_frame]; exact hhearth d
  · rfl

end Sys2Proof.Machine
end

section
/-! Settles the obligation on BAR4 (R319, R343, R505): which bytes it reads, and where a write goes. -/

namespace Sys2Proof.Machine

open Sys2Proof

theorem exec_bar4Read (off len : Nat) (s : State) : exec (.bar4Read off len) s = .next (bar4Read off len s) := rfl

theorem exec_bar4Write (off : Nat) (data : List Byte) (s : State) : exec (.bar4Write off data) s = .next (bar4Write off data s) := rfl

/-! ### Reads -/

/-- One byte of a BAR4 read: what can be read, or else the next free byte. -/
def fillByte (b : Option Byte) (p : List Byte × List Byte) : List Byte × List Byte :=
  match b with
  | some x => (p.1 ++ [x], p.2)
  | none => (p.1 ++ p.2.take 1, p.2.drop 1)

/-- With a free byte for each byte that cannot be read, a read gives as many bytes as are asked for, and each that can be read. -/
theorem fillByte_forEach (got : List (Option Byte)) (acc free : List Byte) (h : free.length = (got.filter (·.isNone)).length) :
    ∃ bs : List Byte, (forEach got (acc, free) fillByte).1 = acc ++ bs ∧ bs.length = got.length ∧
      ∀ (k : Nat) (b : Byte), got[k]? = some (some b) → bs[k]? = some b := by
  induction got generalizing acc free with
  | nil => exact ⟨[], by simp [forEach], rfl, by simp⟩
  | cons x got ih =>
    cases x with
    | some y =>
      obtain ⟨bs, hfill, hlen, hread⟩ := ih (acc ++ [y]) free (by simpa using h)
      refine ⟨y :: bs, by simpa [forEach, fillByte] using hfill, by simp [hlen], fun k b hk => ?_⟩
      cases k with
      | zero => simpa using hk
      | succ k => simpa using hread k b (by simpa using hk)
    | none =>
      obtain ⟨y, ys, rfl⟩ : ∃ y ys, free = y :: ys := List.exists_cons_of_length_pos (by simp [h])
      obtain ⟨bs, hfill, hlen, hread⟩ := ih (acc ++ [y]) ys (by simpa using h)
      refine ⟨y :: bs, by simpa [forEach, fillByte] using hfill, by simp [hlen], fun k b hk => ?_⟩
      cases k with
      | zero => simp at hk
      | succ k => simpa using hread k b (by simpa using hk)

/-- The bytes that BAR4 can give of a range, none where a byte cannot be read. -/
def State.barBytes (s : State) (a len : Nat) : List (Option Byte) := (natRange a len).map s.barByte

/-- What a BAR4 read answers: the bytes that can be read, and free ones for the rest. -/
def State.barAnswer (s : State) (a len : Nat) : List Byte :=
  (forEach (s.barBytes a len) ([], (s.drawBytes ((s.barBytes a len).filter (·.isNone)).length).2) fillByte).1

theorem bar4Read_eq (off len : Nat) (s : State) : bar4Read off len s =
    { (s.drawBytes ((s.barBytes (s.fld Fld.HST_BAR4_BASE_bar4_base + off) len).filter (·.isNone)).length).1.touch hubDie
        (s.fld Fld.HST_BAR4_BASE_bar4_base + off) len true with
      hostRsp := s.barAnswer (s.fld Fld.HST_BAR4_BASE_bar4_base + off) len
      hostPoison := (s.barBytes (s.fld Fld.HST_BAR4_BASE_bar4_base + off) len).any (·.isNone) } := rfl

theorem State.barAnswer_spec (s : State) (a len : Nat) :
    (s.barAnswer a len).length = len ∧ ∀ k b, k < len → s.barByte (a + k) = some b → (s.barAnswer a len).getD k 0 = b := by
  obtain ⟨bs, hfill, hlen, hread⟩ := fillByte_forEach (s.barBytes a len) []
    (s.drawBytes ((s.barBytes a len).filter (·.isNone)).length).2 (by simp [State.drawBytes])
  have hbs : s.barAnswer a len = bs := by simpa [State.barAnswer] using hfill
  rw [hbs]
  refine ⟨by simpa [State.barBytes] using hlen, fun k b hk hb => ?_⟩
  have hgot : (s.barBytes a len)[k]? = some (some b) := by
    rw [State.barBytes, List.getElem?_map, List.getElem?_eq_getElem (by simpa using hk), getElem_natRange, Option.map_some, hb]
  simp [List.getD, hread k b hgot]

theorem State.barBytes_any_isNone (s : State) (a len : Nat) :
    (s.barBytes a len).any (·.isNone) = (natRange 0 len).any fun k => (s.barByte (a + k)).isNone := by
  rw [State.barBytes, natRange_eq_map, List.map_map, List.any_map]
  rfl

/-! ### Writes -/

/-- The bytes of one line that a BAR4 write stores: those of a backed page of device memory. -/
def State.barStore (x : Nat) (bs : List Byte) (t : State) : State :=
  if x < t.deviceEnd ∧ (t.page (x / 0x200000)).state = .backed then
    t.dramWrite (t.page (x / 0x200000)).group (0x200000 * (t.page (x / 0x200000)).frame + x % 0x200000) bs
  else t

theorem bar4Write_eq (off : Nat) (data : List Byte) (s : State) : bar4Write off data s =
    forEach (cutBytes 64 (data.length + 1) (s.fld Fld.HST_BAR4_BASE_bar4_base + off) data)
      (s.countLines hubDie (s.fld Fld.HST_BAR4_BASE_bar4_base + off) data.length) fun p t => t.barStore p.1 p.2 := rfl

/-- A piece that lies in no backed page of device memory is not stored. -/
theorem State.barStore_of_unbacked {t : State} {x : Nat} (bs : List Byte)
    (h : t.deviceEnd ≤ x ∨ (t.page (x / 0x200000)).state ≠ .backed) : t.barStore x bs = t := by
  refine if_neg fun ⟨hdev, hbacked⟩ => ?_
  rcases h with hend | hpage
  · omega
  · exact hpage hbacked

/-- A BAR4 write none of whose bytes falls in a backed page changes nothing. -/
theorem bar4Write_of_unbacked {off : Nat} {data : List Byte} {s : State}
    (h : ∀ k, k < data.length → s.deviceEnd ≤ s.fld Fld.HST_BAR4_BASE_bar4_base + off + k ∨
      (s.page ((s.fld Fld.HST_BAR4_BASE_bar4_base + off + k) / 0x200000)).state ≠ .backed) : bar4Write off data s = s := by
  have hrange x (hlo : s.fld Fld.HST_BAR4_BASE_bar4_base + off ≤ x)
      (hhi : x < s.fld Fld.HST_BAR4_BASE_bar4_base + off + data.length) :
      s.deviceEnd ≤ x ∨ (s.page (x / 0x200000)).state ≠ .backed := by
    have hk := h (x - (s.fld Fld.HST_BAR4_BASE_bar4_base + off)) (by omega)
    rwa [Nat.add_sub_cancel' hlo] at hk
  rw [bar4Write_eq, State.countLines_of_unbacked hubDie hrange]
  refine forEach_id fun p hp => ?_
  obtain ⟨hlo, hhi⟩ := cutBytes_mem hp
  exact State.barStore_of_unbacked _ (hrange _ hlo hhi)

/-- A BAR4 write within one line of a backed page is stored at the same offset of the page's frame. -/
theorem bar4Write_of_line {off a : Nat} {data : List Byte} {s : State} (ha : a = s.fld Fld.HST_BAR4_BASE_bar4_base + off)
    (hne : 0 < data.length) (hline : a % 64 + data.length ≤ 64) (hdev : a < s.deviceEnd) (hpage : (s.page (a / 0x200000)).state = .backed) :
    bar4Write off data s = (s.touch hubDie a data.length false).dramWrite (s.page (a / 0x200000)).group
      (0x200000 * (s.page (a / 0x200000)).frame + a % 0x200000) data := by
  have hcut : cutBytes 64 (data.length + 1) a data = [(a, data)] := by
    rw [show data.length + 1 = data.length - 1 + 2 by omega, cutBytes_within hne hline]
  have htouch : s.touch hubDie a data.length false = s.countLines hubDie a data.length := rfl
  rw [bar4Write_eq, ← ha, hcut, htouch]
  have hend : (s.countLines hubDie a data.length).deviceEnd = s.deviceEnd := by rw [s.countLines_frame]; rfl
  have hpages : (s.countLines hubDie a data.length).page (a / 0x200000) = s.page (a / 0x200000) := by rw [s.countLines_frame]; rfl
  simp only [forEach, State.barStore, hend, hpages, hdev, hpage, and_self, if_true]

/-- A write of one whole code word of a line that waits in no merge buffer is stored at once (R339, R340). -/
theorem State.dramWrite_of_word {g cw : Nat} {data : List Byte} {s : State} (hlen : data.length = 16)
    (hmerge : mergeOf (cw / 4) (s.dmc g).merge = none) :
    s.dramWrite g (cw * 16) data = (s.markDirty g (cw * 16)).putWord g cw data := by
  have hcut : cutBytes 64 (data.length + 1) (cw * 16) data = [(cw * 16, data)] := by
    rw [hlen]
    exact cutBytes_within (by omega) (by omega)
  have hline : cw * 16 / 64 = cw / 4 := by omega
  have hdmc : (s.markDirty g (cw * 16)).dmc g = s.dmc g := rfl
  have hword : cw * 16 / 16 = cw := Nat.mul_div_cancel cw (by decide)
  have hall : (data.drop 0).take 16 = data := by rw [List.drop_zero, List.take_of_length_le (by omega)]
  rw [State.dramWrite, State.dramWriteBy, hcut]
  simp only [forEach, State.writeLineBy, hline, hdmc, hmerge]
  rw [if_pos ⟨by omega, by omega⟩, hlen]
  simp only [show natRange 0 (16 / 16) = [0] from rfl, forEach, hword, Nat.mul_zero, hall, Nat.add_zero]

/-- A code word written whole reads as written, without error, and every other byte as before. -/
theorem State.putWord_spec (s : State) (g cw : Nat) {data : List Byte} (hlen : data.length = 16) :
    (s.putWord g cw data).load (dramKey g (cw * 16)) 16 = data ∧ (s.putWord g cw data).wordError g cw = noError ∧
      ∀ a, a < dramKey g (cw * 16) ∨ dramKey g (cw * 16) + 16 ≤ a →
        memoryGet (s.putWord g cw data).mem a = memoryGet s.mem a := by
  refine ⟨?_, ?_, fun a ha => ?_⟩
  · have hread := s.load_store_same (dramKey g (cw * 16)) data
    rw [hlen] at hread
    exact hread
  · simp [State.wordError, State.putWord, mapGet]
  · exact memoryGet_write_outside s.mem data (by rw [hlen]; exact ha)

/-- Settles O10. -/
theorem bar4Window : Obligations.Bar4Window := by
  refine ⟨fun off len s => ?reads, fun a s hend => ?beyond, fun off len s hdram hhearth => ?clean, fun off data s h => ?unbacked,
    fun off data s a ha hne hline hdev hpage => ?line, fun g cw data s hlen hmerge => ?word⟩
  case reads =>
    obtain ⟨hlen, hbytes⟩ := s.barAnswer_spec (s.fld Fld.HST_BAR4_BASE_bar4_base + off) len
    exact ⟨bar4Read off len s, exec_bar4Read off len s, hlen, hbytes, s.barBytes_any_isNone _ len⟩
  case beyond => exact if_neg (by omega)
  case clean =>
    refine ⟨bar4Read off len s, exec_bar4Read off len s, ?_⟩
    have htouch n a : (s.drawBytes n).1.touch hubDie a len true = (s.drawBytes n).1.countLines hubDie a len :=
      State.touch_of_clean _ _ _ _ hdram hhearth
    rw [bar4Read_eq]
    dsimp only
    rw [htouch, State.countLines_frame]
    rfl
  case unbacked => rw [exec_bar4Write, bar4Write_of_unbacked h]
  case line => rw [exec_bar4Write, bar4Write_of_line ha hne hline hdev hpage]
  case word =>
    rw [State.dramWrite_of_word hlen hmerge]
    exact ⟨rfl, (s.markDirty g (cw * 16)).putWord_spec g cw hlen⟩

end Sys2Proof.Machine
end

section
/-! Settles the obligation on attaching and detaching the selected client (R56 to R59, R93). -/

namespace Sys2Proof.Machine

open Sys2Proof

theorem exec_clientAttach (function : Nat) (s : State) : exec (.clientAttach function) s = .next (clientAttach function s) := rfl

theorem exec_clientDetach (s : State) : exec .clientDetach s = .next (clientDetach s) := rfl

/-! ### The control register of the selected client -/

theorem State.attachError_le (s : State) (c fn : Nat) : s.attachError c fn ≤ 5 := by
  unfold State.attachError
  dsimp only
  repeat' split
  all_goals decide

/-- Function and error code written, as every attach begins. -/
def State.noteAttach (s : State) (function : Nat) : State :=
  (s.setFld (Fld.SCH_CLIENT_CTRL_function s.selected) (function % 64)).setFld (Fld.SCH_CLIENT_CTRL_attach_error s.selected)
    ((s.setFld (Fld.SCH_CLIENT_CTRL_function s.selected) (function % 64)).attachError s.selected (function % 64))

/-- Two fields written change registers alone. -/
theorem State.setFld_setFld_frame (s : State) (f g : Fld) (v w : Nat) :
    (s.setFld f v).setFld g w = { s with regs := ((s.setFld f v).setFld g w).regs } := rfl

theorem State.noteAttach_frame (s : State) (function : Nat) :
    s.noteAttach function = { s with regs := (s.noteAttach function).regs } := by
  rw [State.noteAttach]
  exact State.setFld_setFld_frame _ _ _ _ _

theorem State.regsBut_noteAttach (s : State) (function : Nat) :
    s.regsBut [clientKey s.selected Reg.SCH_CLIENT_CTRL] (s.noteAttach function) := by
  intro k hk
  have hne : k ≠ clientKey s.selected Reg.SCH_CLIENT_CTRL := by simpa using hk
  rw [State.noteAttach, State.reg_setFld_other _ _ hne, State.reg_setFld_other _ _ hne]

theorem State.noteAttach_attached (s : State) (function : Nat) :
    (s.noteAttach function).attached s.selected = s.attached s.selected := by
  have hfn := State.flag_setFld_apart (f := Fld.SCH_CLIENT_CTRL_function s.selected) (g := Fld.SCH_CLIENT_CTRL_attached s.selected) s
    (function % 64) rfl (show 0 + 6 ≤ 64 by decide) (show 10 + 1 ≤ 64 by decide) (.inr (show 0 + 6 ≤ 10 by decide))
  exact (State.flag_setFld_apart (f := Fld.SCH_CLIENT_CTRL_attach_error s.selected) (g := Fld.SCH_CLIENT_CTRL_attached s.selected) _ _ rfl
    (show 12 + 3 ≤ 64 by decide) (show 10 + 1 ≤ 64 by decide) (.inl (show 10 + 1 ≤ 12 by decide))).trans hfn

theorem State.noteAttach_ownerFn (s : State) (function : Nat) : (s.noteAttach function).ownerFn s.selected = function % 64 := by
  have hfn := State.fld_setFld_same (f := Fld.SCH_CLIENT_CTRL_function s.selected) s (function % 64) (show 0 + 6 ≤ 64 by decide)
  refine (State.fld_setFld_apart (f := Fld.SCH_CLIENT_CTRL_attach_error s.selected) (g := Fld.SCH_CLIENT_CTRL_function s.selected) _ _ rfl
    (show 12 + 3 ≤ 64 by decide) (show 0 + 6 ≤ 64 by decide) (.inl (show 0 + 6 ≤ 12 by decide))).trans (hfn.trans ?_)
  exact Nat.mod_mod _ _

theorem State.noteAttach_error (s : State) (function : Nat) :
    (s.noteAttach function).fld (Fld.SCH_CLIENT_CTRL_attach_error s.selected) =
      (s.setFld (Fld.SCH_CLIENT_CTRL_function s.selected) (function % 64)).attachError s.selected (function % 64) := by
  have hle := (s.setFld (Fld.SCH_CLIENT_CTRL_function s.selected) (function % 64)).attachError_le s.selected (function % 64)
  rw [State.noteAttach, State.fld_setFld_same _ _ (show 12 + 3 ≤ 64 by decide)]
  exact Nat.mod_eq_of_lt (Nat.lt_of_le_of_lt hle (show 5 < 2 ^ 3 by decide))

/-! ### Attaching -/

/-- The client, attached: a new key, no ring of its own, no accounting. -/
def State.enterClient (s : State) (c : Nat) : State :=
  let (s2, k) := s.newMemoryKey
  State.setFlag { s2 with
    keys := { s2.keys with clientKeys := mapSet s2.keys.clientKeys c k }
    clients := mapSet s2.clients c {}
    rings := s2.rings.filter fun x => !s2.ringOf c x.1 } (Fld.SCH_CLIENT_CTRL_attached c) true

theorem clientAttach_of_error {function : Nat} {s : State} (hstart : s.fld Fld.SAF_STATUS_state ≠ safFailed)
    (herr : (s.setFld (Fld.SCH_CLIENT_CTRL_function s.selected) (function % 64)).attachError s.selected (function % 64) ≠ 0) :
    clientAttach function s = s.noteAttach function := by
  simp only [clientAttach, if_neg hstart, if_pos herr]
  rfl

theorem clientAttach_of_passed {function : Nat} {s : State} (hstart : s.fld Fld.SAF_STATUS_state ≠ safFailed)
    (hok : (s.setFld (Fld.SCH_CLIENT_CTRL_function s.selected) (function % 64)).attachError s.selected (function % 64) = 0) :
    clientAttach function s = (s.noteAttach function).enterClient s.selected := by
  simp only [clientAttach, if_neg hstart, hok, ne_eq, not_true_eq_false, if_false, State.noteAttach, State.enterClient]

/-- Entering a client changes registers, keys, clients and rings. -/
theorem State.enterClient_frame (s : State) (c : Nat) : s.enterClient c = { s with
    regs := (s.enterClient c).regs, keys := (s.enterClient c).keys, clients := (s.enterClient c).clients
    rings := (s.enterClient c).rings } := by
  unfold State.enterClient
  generalize Fld.SCH_CLIENT_CTRL_attached c = f
  rfl

theorem State.enterClient_attached (s : State) (c : Nat) : (s.enterClient c).attached c = true :=
  State.flag_setFlag_same _ true (show 10 + 1 ≤ 64 by decide) rfl

/-- Entering a client sets one bit of its control register. -/
theorem State.fld_enterClient_apart (s : State) {c : Nat} {g : Fld} (hkey : g.key = clientKey c Reg.SCH_CLIENT_CTRL)
    (hg : g.lo + g.width ≤ 64) (h : g.lo + g.width ≤ 10 ∨ 11 ≤ g.lo) : (s.enterClient c).fld g = s.fld g :=
  State.fld_setFld_apart (f := Fld.SCH_CLIENT_CTRL_attached c) _ _ hkey (show 10 + 1 ≤ 64 by decide) hg h

theorem State.reg_enterClient_other (s : State) {c k : Nat} (h : k ≠ clientKey c Reg.SCH_CLIENT_CTRL) :
    (s.enterClient c).reg k = s.reg k :=
  State.reg_setFlag_other (f := Fld.SCH_CLIENT_CTRL_attached c) _ _ h

theorem State.enterClient_client_same (s : State) (c : Nat) : (s.enterClient c).client c = {} := mapGet_mapSet_same _ _ _ _

theorem State.enterClient_client_other (s : State) {c x : Nat} (h : x ≠ c) : (s.enterClient c).client x = s.client x :=
  mapGet_mapSet_other _ _ _ h

theorem State.enterClient_key (s : State) (c : Nat) : (mapFind (s.enterClient c).keys.clientKeys c).isSome = true := by
  simp [State.enterClient]

theorem State.enterClient_rings (s : State) (c : Nat) : (s.enterClient c).rings.any (fun x => s.ringOf c x.1) = false := by
  have hrings : (s.enterClient c).rings = s.rings.filter fun x => !s.ringOf c x.1 := rfl
  rw [hrings, List.any_eq_false]
  intro x hx
  simpa using (List.mem_filter.mp hx).2

/-- A client's range of RingIds is not in its control register. -/
theorem State.ringOf_noteAttach (s : State) (function c r : Nat) : (s.noteAttach function).ringOf c r = s.ringOf c r := by
  have hapart (f : Fld) (h : f.key ≠ clientKey s.selected Reg.SCH_CLIENT_CTRL) : (s.noteAttach function).fld f = s.fld f := by
    rw [State.noteAttach, State.fld_setFld_other _ _ h, State.fld_setFld_other _ _ h]
  have hfirst : (s.noteAttach function).firstRing c = s.firstRing c := hapart _ (by
    simp only [Fld.SCH_CLIENT_RINGS_first_ring, clientKey, Reg.SCH_CLIENT_RINGS, Reg.SCH_CLIENT_CTRL]; omega)
  have hcount : (s.noteAttach function).ringCount c = s.ringCount c := hapart _ (by
    simp only [Fld.SCH_CLIENT_RING_COUNT_ring_count, clientKey, Reg.SCH_CLIENT_RING_COUNT, Reg.SCH_CLIENT_CTRL]; omega)
  simp only [State.ringOf, hfirst, hcount]

/-! ### Detaching -/

theorem clientDetach_of_attached {s : State} (hatt : s.attached s.selected = true) (hdet : s.detaching s.selected = false) :
    clientDetach s = forEach (s.ringsOf s.selected)
      ((forEach ((natRange 0 16).filter fun k => decide (s.fld (Fld.CAM_CH_OWNER_client k) = s.selected) &&
        s.flag (Fld.CAM_CH_CTRL_enable k)) s fun k t => t.stopChannel k).setFlag
          (Fld.SCH_CLIENT_CTRL_detaching s.selected) true) fun r t => t.stopRing r :=
  if_pos ⟨hatt, by simp [hdet]⟩

theorem clientDetach_of_free {s : State} (hatt : s.attached s.selected = false) : clientDetach s = s :=
  if_neg (by simp [hatt])

/-- Settles O16. -/
theorem clientsAttachAndDetach : Obligations.ClientsAttachAndDetach := by
  refine ⟨fun function s hstart hok => ?passed, fun function s hstart herr => ?refused, fun s hatt hdet => ?detach, fun s hatt => ?free⟩
  case passed =>
    refine ⟨(s.noteAttach function).enterClient s.selected, by rw [exec_clientAttach, clientAttach_of_passed hstart hok], State.enterClient_attached _ _,
      ?_, ?_, State.enterClient_client_same _ _, fun c hc => ?_, ?_, State.enterClient_key _ _,
      fun k hk => ?_, ?_⟩
    · exact (State.fld_enterClient_apart (g := Fld.SCH_CLIENT_CTRL_function s.selected) _ rfl (show 0 + 6 ≤ 64 by decide)
        (.inl (show 0 + 6 ≤ 10 by decide))).trans (s.noteAttach_ownerFn function)
    · rw [State.fld_enterClient_apart (g := Fld.SCH_CLIENT_CTRL_attach_error s.selected) _ rfl (show 12 + 3 ≤ 64 by decide)
        (.inr (show 11 ≤ 12 by decide)), s.noteAttach_error, hok]
    · rw [State.enterClient_client_other _ hc, State.client, s.noteAttach_frame function, State.client]
    · simpa only [State.ringOf_noteAttach] using (s.noteAttach function).enterClient_rings s.selected
    · rw [State.reg_enterClient_other _ (by simpa using hk), s.regsBut_noteAttach function k hk]
    · have hframe := (s.noteAttach function).enterClient_frame s.selected
      generalize (s.noteAttach function).enterClient s.selected = t at hframe ⊢
      rw [s.noteAttach_frame function] at hframe
      exact hframe
  case refused =>
    exact ⟨s.noteAttach function, by rw [exec_clientAttach, clientAttach_of_error hstart herr], s.noteAttach_attached function,
      s.noteAttach_ownerFn function, s.noteAttach_error function, s.regsBut_noteAttach function, s.noteAttach_frame function⟩
  case detach => rw [exec_clientDetach, clientDetach_of_attached hatt hdet]
  case free => rw [exec_clientDetach, clientDetach_of_free hatt]

end Sys2Proof.Machine
end

section
/-! Settles the obligation on sweeps, quiet rings, doorbell records and accounting blocks (R67, R68, R126, R127). -/

namespace Sys2Proof.Machine

open Sys2Proof

theorem exec_activeSweep (s : State) : exec .activeSweep s = .next (activeSweep s) := rfl
theorem exec_quietSweep (s : State) : exec .quietSweep s = .next (quietSweep s) := rfl
theorem exec_ringQuietTimeout (r : Nat) (s : State) : exec (.ringQuietTimeout r) s = .next (ringQuietTimeout r s) := rfl
theorem exec_doorbellRead (r : Nat) (s : State) : exec (.doorbellRead r) s = .next (doorbellRead r s) := rfl

/-! ### Sweeps (R67) -/

/-- The quiet rings, in ascending order. -/
def State.quietRings (s : State) : List Nat := (s.rings.filter fun x => decide (x.2.state = .quiet)).map (·.1)

/-- An active sweep marks each active ring for a read of its doorbell record. -/
theorem activeSweep_of_serving {s : State} (h : s.serving = true) : activeSweep s =
    { s with rings := s.rings.map fun x => if x.2.state = .active then (x.1, { x.2 with reading := true }) else x } :=
  if_pos h

/-- A quiet sweep asks for the record of the first quiet ring after the last one. -/
theorem quietSweep_of_next {s : State} {r : Nat} (h : s.serving = true) (hnext : s.quietRings.find? (fun q => decide (s.sweepAt < q)) = some r) :
    quietSweep s = { s.modRing r (fun x => { x with reading := true }) with sweepAt := r } := by
  rw [State.quietRings] at hnext
  simp only [quietSweep, hnext, h, if_true]

/-- After the last quiet ring it starts again with the first. -/
theorem quietSweep_of_wrap {s : State} {r : Nat} (h : s.serving = true)
    (hnone : s.quietRings.find? (fun q => decide (s.sweepAt < q)) = none) (hfirst : s.quietRings.head? = some r) :
    quietSweep s = { s.modRing r (fun x => { x with reading := true }) with sweepAt := r } := by
  rw [State.quietRings] at hnone hfirst
  simp only [quietSweep, hnone, hfirst, h, if_true]

theorem ringQuietTimeout_of_idle {s : State} {r : Nat} (hactive : (s.ring r).state = .active)
    (hidle : s.passedUs (s.ring r).lastUse 10000 = true) :
    ringQuietTimeout r s = (s.modRing r fun y => { y with state := .quiet }).writeHead r :=
  if_pos ⟨hactive, hidle⟩

/-! ### Doorbell records (R68) -/

theorem Ring.accepts_iff (x : Ring) : x.accepts = true ↔ x.state = .active ∨ x.state = .quiet := by
  simp [Ring.accepts]

section Doorbell

variable {s s1 : State} {r : Nat} (hreading : (s.ring r).reading = true) (hserving : s.serving = true)
  (hpage : s.pageCmdResumed = false) (haccepts : (s.ring r).accepts = true)
  (hs1 : s1 = (s.modRing r fun y => { y with reading := false }).fetchHub (s.ring r).dbAddr 8)

include hreading hserving hpage haccepts hs1

/-- A doorbell record that was asked for and is read: its tail is ignored, held, or held and an error. -/
theorem doorbellRead_of_ok {tail : Nat} (hread : s1.cread64 (s.ring r).client (s.ring r).dbAddr = .ok tail) : doorbellRead r s =
    if tail < (s.ring r).tail then s1
    else if 2 ^ (s.ring r).log2 < tail - (s.ring r).released then (s1.modRing r fun y => { y with tail := tail }).ringError r 2
    else s1.modRing r fun y => { y with tail := tail } := by
  subst hs1
  rw [doorbellRead, if_pos ⟨hreading, hserving, by simp [hpage], (Ring.accepts_iff _).mp haccepts⟩]
  simp only [hread]

/-- A record that cannot be read puts the ring into ERROR. -/
theorem doorbellRead_of_error {d : Nat} (hread : s1.cread64 (s.ring r).client (s.ring r).dbAddr = .error d) :
    doorbellRead r s = s1.ringError r 3 := by
  subst hs1
  rw [doorbellRead, if_pos ⟨hreading, hserving, by simp [hpage], (Ring.accepts_iff _).mp haccepts⟩]
  simp only [hread]

end Doorbell

/-! ### Accounting blocks (R127) -/

theorem State.writeAcct_of_none {s : State} {c : Nat} (h : s.fld (Fld.SCH_CLIENT_ACCT_acct_base c) = 0) : s.writeAcct c = s := if_pos h

/-- Settles O17. -/
theorem ringSweeps : Obligations.RingSweeps := by
  refine ⟨fun s h => ?active, fun r s h hnext => ?next, fun r s h hnone hfirst => ?wrap, fun r s hactive hidle => ?quiet,
    fun r tail s s1 hreading hserving hpage haccepts hs1 hread => ⟨fun hlow => ?ignored, fun hlow hfits => ?held, fun hlow hover => ?overrun⟩,
    fun r d s s1 hreading hserving hpage haccepts hs1 hread => ?unread, fun _ _ _ => rfl, fun _ => rfl,
    fun c base gen s hbase hgen => ⟨fun h => ?noblock, fun h => ?block⟩⟩
  case active => exact ⟨activeSweep s, exec_activeSweep s, by rw [activeSweep_of_serving h], by rw [activeSweep_of_serving h]⟩
  case next => rw [exec_quietSweep, quietSweep_of_next h hnext]
  case wrap => rw [exec_quietSweep, quietSweep_of_wrap h hnone hfirst]
  case quiet => rw [exec_ringQuietTimeout, ringQuietTimeout_of_idle hactive hidle]
  case ignored => rw [exec_doorbellRead, doorbellRead_of_ok hreading hserving hpage haccepts hs1 hread, if_pos hlow]
  case held =>
    rw [exec_doorbellRead, doorbellRead_of_ok hreading hserving hpage haccepts hs1 hread, if_neg (by omega), if_neg (by omega)]
  case overrun =>
    rw [exec_doorbellRead, doorbellRead_of_ok hreading hserving hpage haccepts hs1 hread, if_neg (by omega), if_pos hover]
  case unread => rw [exec_doorbellRead, doorbellRead_of_error hreading hserving hpage haccepts hs1 hread]
  case noblock => exact State.writeAcct_of_none (hbase.symm.trans h)
  case block =>
    subst hbase hgen
    exact if_neg h

end Sys2Proof.Machine
end

section
/-! Settles the obligation on the steps of a ring (R73 to R77, R82 to R84, R121, R125): checked, accepted, refused and released. -/

namespace Sys2Proof.Machine

open Sys2Proof

theorem exec_stepCheck (r : Nat) (s : State) : exec (.stepCheck r) s = .next (stepCheck r s) := rfl
theorem exec_stepAccept (r : Nat) (s : State) : exec (.stepAccept r) s = .next (stepAccept r s) := rfl
theorem exec_refusalRecheck (r seq : Nat) (s : State) : exec (.refusalRecheck r seq) s = .next (refusalRecheck r seq s) := rfl
theorem exec_stepRelease (r : Nat) (s : State) : exec (.stepRelease r) s = .next (stepRelease r s) := rfl
theorem exec_budgetCheck (s : State) : exec .budgetCheck s = .next (budgetCheck s) := rfl

/-! ### Checking (R73, R77) -/

/-- The step at the head of a ring that takes steps is fetched, checked and held. -/
theorem stepCheck_of_due {s : State} {r : Nat} (hserving : s.serving = true) (haccepts : (s.ring r).accepts = true)
    (htail : (s.ring r).head < (s.ring r).tail) (hnone : (s.ring r).checked = none) :
    stepCheck r s =
      ((forEach (s.stepReads r) s fun x t => t.fetchHub x.1 x.2).checkStep r).1.modRing r fun y =>
        { y with checked := some ((forEach (s.stepReads r) s fun x t => t.fetchHub x.1 x.2).checkStep r).2 } :=
  if_pos ⟨hserving, haccepts, htail, by rw [hnone]; rfl⟩

/-- A descriptor that cannot be read gives a rejected step without an index. -/
theorem State.checkStep_of_unread {s : State} {r d : Nat}
    (h : s.feRead (s.ring r).client ((s.ring r).stepBase + (s.ring r).head % 2 ^ (s.ring r).log2 * 64) 64 = .error d) :
    (s.checkStep r).2 = rejectStep { ring := r, seq := (s.ring r).head, client := (s.ring r).client, userTag := s.drawWord.2 }
      ⟨stFaultDescriptor, 0x0501, 0xFF⟩ := by
  simp only [State.checkStep, h]

/-! ### Acceptance (R76) -/

section Accept

variable {s : State} {r : Nat} {st : Step} (hchecked : (s.ring r).checked = some st) (hserving : s.serving = true)
  (haccepts : (s.ring r).accepts = true) (htail : (s.ring r).head < (s.ring r).tail)

include hchecked hserving haccepts htail

/-- A checked step of a ring that takes steps is held by the ring's window, held by the ledger, or accepted. -/
theorem stepAccept_of_checked : stepAccept r s =
    if 256 ≤ (s.ring r).head - (s.ring r).released then
      s.modRing r fun y => { y with heldWindow := some (y.heldWindow.getD s.tb) }
    else if 8192 ≤ s.steps.length then s.modRing r fun y => { y with heldLedger := some (y.heldLedger.getD s.tb) }
    else s.acceptStep r st := by
  simp only [stepAccept, hchecked]
  exact if_neg (by simp [hserving, haccepts, htail])

end Accept

/-- A step not decided and not dispatched is refused where its deadline or the load says so (R121). -/
theorem refusalRecheck_of_open {s : State} {r seq : Nat} {st : Step} (hstep : s.step? r seq = some st) (hopen : st.committed = false)
    (hdispatched : st.dispatched = false) (hserving : s.serving = true) : refusalRecheck r seq s = s.refuseLate st := by
  simp only [refusalRecheck, hstep]
  exact if_neg (by simp [hopen, hdispatched, hserving])

theorem State.refuseLate_of_none {s : State} {st : Step} (h : s.lateReason st = none) : s.refuseLate st = s := by
  rw [State.refuseLate, h]

theorem State.refuseLate_of_some {s : State} {st : Step} {x d : Nat} (h : s.lateReason st = some (x, d)) :
    s.refuseLate st = s.refuse st x d := by
  rw [State.refuseLate, h]

/-! ### Release and budgets (R84, R125) -/

theorem stepRelease_of_due {s : State} {r code : Nat} {st : Step} (hdue : s.releasable r = some (st, code)) (hserving : s.serving = true) :
    stepRelease r s = s.releaseStep r st code := by
  simp only [stepRelease, hdue, hserving, if_true]

theorem budgetCheck_of_serving {s : State} (h : s.serving = true) : budgetCheck s = s.checkBudgets := if_pos h

/-- Settles O18. -/
theorem stepsAreAcceptedAndReleased : Obligations.StepsAreAcceptedAndReleased := by
  refine ⟨fun r s s1 hserving haccepts htail hnone hs1 => ?check, fun r d s hread => State.checkStep_of_unread hread,
    fun r st s hchecked hserving haccepts htail hwindow hledger => ?accept, fun r st s t ht => ⟨fun hdecided => ?rejected, fun hopen => ?taken⟩,
    fun r st s hchecked hserving haccepts htail hwindow => ?window,
    fun r st s hchecked hserving haccepts htail hwindow hledger => ?ledger,
    fun r seq st s hstep hopen hdispatched hserving => ⟨fun hnone => ?left, fun x d hsome => ?refused⟩,
    fun r code st s t u hdue hserving ht hu => ?release, fun s hserving => ?budget⟩
  case check =>
    subst hs1
    rw [exec_stepCheck, stepCheck_of_due hserving haccepts htail hnone]
  case accept =>
    rw [exec_stepAccept, stepAccept_of_checked hchecked hserving haccepts htail, if_neg (by omega), if_neg (by omega)]
  case rejected =>
    obtain ⟨x, hx⟩ := Option.isSome_iff_exists.mp hdecided
    rw [ht, State.acceptStep]
    simp only [hx]
  case taken =>
    rw [ht, State.acceptStep]
    simp only [hopen]
  case window => rw [exec_stepAccept, stepAccept_of_checked hchecked hserving haccepts htail, if_pos hwindow]
  case ledger =>
    rw [exec_stepAccept, stepAccept_of_checked hchecked hserving haccepts htail, if_neg (by omega), if_pos hledger]
  case left => rw [exec_refusalRecheck, refusalRecheck_of_open hstep hopen hdispatched hserving, State.refuseLate_of_none hnone]
  case refused => rw [exec_refusalRecheck, refusalRecheck_of_open hstep hopen hdispatched hserving, State.refuseLate_of_some hsome]
  case release =>
    subst ht hu
    rw [exec_stepRelease, stepRelease_of_due hdue hserving]
    rfl
  case budget =>
    rw [exec_budgetCheck, budgetCheck_of_serving hserving]
    rfl

end Sys2Proof.Machine
end

section
/-! What the base operations of an engine do to the runs: the engine that a name finds after a change, what counting leaves alone, and
what an instruction of a tile program comes to when its engine goes on or stalls (R130, R131, R178, R479). -/

namespace Sys2Proof.Machine

open Sys2Proof

/-! ### Counting changes registers and counters alone (R479, R483) -/

theorem State.bump_frame (s : State) (blk i n : Nat) :
    s.bump blk i n = { s with regs := (s.bump blk i n).regs, cnts := (s.bump blk i n).cnts } := by
  unfold State.bump
  dsimp only
  split <;> rfl

theorem State.count_frame (s : State) (d u code n : Nat) (cl : Option Nat) :
    s.count d u code n cl = { s with regs := (s.count d u code n cl).regs, cnts := (s.count d u code n cl).cnts } := by
  unfold State.count
  split
  · rfl
  · split
    · rfl
    · next h1 h2 =>
      clear h1 h2
      generalize natRange 0 12 = is
      induction is generalizing s with
      | nil => rfl
      | cons i is ih =>
        rw [forEach, ih]
        split
        · rw [State.bump_frame]
        · rfl

theorem State.countStall_frame (s : State) (r : Run) (g : EngRun) (code since : Nat) : s.countStall r g code since =
    { s with regs := (s.countStall r g code since).regs, cnts := (s.countStall r g code since).cnts } := by
  unfold State.countStall
  generalize withGate r.die g.unit = us
  induction us generalizing s with
  | nil => rfl
  | cons u us ih => rw [forEach, ih, State.count_frame]

@[simp] theorem State.count_runs (s : State) (d u code n : Nat) (cl : Option Nat) : (s.count d u code n cl).runs = s.runs := by
  rw [State.count_frame]

@[simp] theorem State.count_tb (s : State) (d u code n : Nat) (cl : Option Nat) : (s.count d u code n cl).tb = s.tb := by
  rw [State.count_frame]

@[simp] theorem State.countStall_runs (s : State) (r : Run) (g : EngRun) (code since : Nat) :
    (s.countStall r g code since).runs = s.runs := by
  rw [State.countStall_frame]

/-! ### The run and the engine that a name finds -/

theorem findRun_map {d entry : Nat} {f : Run → Run} (hd : ∀ r, (f r).die = r.die) (he : ∀ r, (f r).entry = r.entry) (rs : List Run) :
    findRun d entry (rs.map fun r => if r.die = d ∧ r.entry = entry then f r else r) = (findRun d entry rs).map f := by
  induction rs with
  | nil => rfl
  | cons r rs ih =>
    by_cases h : r.die = d ∧ r.entry = entry
    · simp [findRun, h, hd, he]
    · simp [findRun, h, ih]

/-- A change of a run that keeps its place is found at that place. -/
theorem State.run?_modRun {s : State} {d entry : Nat} {r : Run} (f : Run → Run) (hd : ∀ r, (f r).die = r.die)
    (he : ∀ r, (f r).entry = r.entry) (h : s.run? d entry = some r) : (s.modRun d entry f).run? d entry = some (f r) :=
  (findRun_map hd he s.runs).trans (congrArg (Option.map f) h)

/-- The engine that a name finds depends on the runs alone. -/
theorem State.engOf_congr {s t : State} (h : t.runs = s.runs) (e : Eng) : t.engOf e = s.engOf e := by
  simp only [State.engOf, State.run?, h]

theorem State.engOf_eq_some {s : State} {e : Eng} {r : Run} {g : EngRun} :
    s.engOf e = some (r, g) ↔ s.run? e.die e.entry = some r ∧ r.engs[e.pos]? = some g := by
  unfold State.engOf
  split
  · next x hx =>
    split
    · next y hy =>
      simp only [hx, Option.some.injEq, Prod.mk.injEq]
      exact ⟨fun ⟨hr, hg⟩ => ⟨hr, hr ▸ hg ▸ hy⟩, fun ⟨hr, hg⟩ => ⟨hr, Option.some.inj (hy.symm.trans (by rw [hr, hg]))⟩⟩
    · next hy =>
      refine iff_of_false (nomatch ·) ?_
      rintro ⟨hr, hg⟩
      rw [hx] at hr
      rw [← Option.some.inj hr, hy] at hg
      exact nomatch hg
  · next hx =>
    rw [hx]
    exact iff_of_false (nomatch ·) (nomatch ·.1)

/-- A change of one engine of a run is found at that engine, and the other engines of the run are as they were. -/
theorem State.engOf_modEng {s : State} {e : Eng} {r : Run} {g : EngRun} (f : EngRun → EngRun) (p : Nat) (h : s.engOf e = some (r, g)) :
    ∃ r', (s.modEng { e with pos := p } f).engOf e = some (r', if e.pos = p then f g else g) := by
  obtain ⟨hrun, heng⟩ := State.engOf_eq_some.mp h
  refine ⟨_, State.engOf_eq_some.mpr ⟨State.run?_modRun _ (fun _ => rfl) (fun _ => rfl) hrun, ?_⟩⟩
  obtain ⟨hlt, hget⟩ := List.getElem?_eq_some_iff.mp heng
  dsimp only
  rw [List.getElem?_map, List.getElem?_eq_getElem (by simpa using hlt), Option.map_some, getElem_natRange, Nat.zero_add]
  simp [List.getD, heng]

theorem State.engOf_modEng_same {s : State} {e : Eng} {r : Run} {g : EngRun} (f : EngRun → EngRun) (h : s.engOf e = some (r, g)) :
    ∃ r', (s.modEng e f).engOf e = some (r', f g) := by
  obtain ⟨r', hr'⟩ := State.engOf_modEng f e.pos h
  exact ⟨r', by simpa using hr'⟩

/-- In the state in which an instruction is counted, its engine is as it was. -/
theorem State.engOf_begun {s : State} {e : Eng} {r : Run} {g : EngRun} (w : W128) (h : s.engOf e = some (r, g)) :
    ∃ r', (s.begun e w r g).engOf e = some (r', g) := by
  obtain ⟨hrun, heng⟩ := State.engOf_eq_some.mp h
  have hnote : ∃ r', (if substituted r w then s.modRun e.die e.entry fun x => { x with roundSubst := true } else s).engOf e = some (r', g) := by
    split
    · exact ⟨_, State.engOf_eq_some.mpr ⟨State.run?_modRun _ (fun _ => rfl) (fun _ => rfl) hrun, heng⟩⟩
    · exact ⟨r, h⟩
  obtain ⟨r', hr'⟩ := hnote
  refine ⟨r', ?_⟩
  unfold State.begun
  dsimp only
  split
  · exact hr'
  · exact (State.engOf_congr (State.count_runs _ _ _ _ _ _) e).trans hr'

@[simp] theorem State.begun_tb (s : State) (e : Eng) (w : W128) (r : Run) (g : EngRun) : (s.begun e w r g).tb = s.tb := by
  have hnote : (if substituted r w then s.modRun e.die e.entry fun x => { x with roundSubst := true } else s).tb = s.tb := by
    split <;> rfl
  unfold State.begun
  dsimp only
  split
  · exact hnote
  · exact (State.count_tb _ _ _ _ _ _).trans hnote

/-! ### What follows an instruction's own effect (R131) -/

/-- An engine that its instruction has not made wait goes on. -/
theorem State.ended_of_running {t : State} {e : Eng} {r : Run} {g : EngRun} (h : t.engOf e = some (r, g)) (hrun : g.stalled = false) :
    State.ended e (t, none) = t.advance e := by
  simp only [State.ended, h, hrun, Bool.false_eq_true, if_false]

/-- One that its instruction has made wait stays. -/
theorem State.ended_of_stalled {t : State} {e : Eng} {r : Run} {g : EngRun} (h : t.engOf e = some (r, g)) (hwait : g.stalled = true) :
    State.ended e (t, none) = t := by
  simp only [State.ended, h, hwait, if_true]

theorem State.stalled_of_mayRun {s : State} {e : Eng} {r : Run} {g : EngRun} (h : s.mayRun e r g = true) : g.stalled = false := by
  simp only [State.mayRun, Bool.and_eq_true, Bool.not_eq_true'] at h
  obtain ⟨⟨⟨⟨⟨-, hstall⟩, -⟩, -⟩, -⟩, -⟩ := h
  exact hstall

/-- An engine at an instruction word of its program is not waiting. -/
theorem State.stalled_of_atWord {s : State} {e : Eng} {w : W128} {op : Nat} {r : Run} {g : EngRun} (h : s.atWord e w op r g) :
    g.stalled = false := by
  obtain ⟨-, hmay, -⟩ := h
  exact State.stalled_of_mayRun hmay

theorem State.engOf_of_atWord {s : State} {e : Eng} {w : W128} {op : Nat} {r : Run} {g : EngRun} (h : s.atWord e w op r g) :
    s.engOf e = some (r, g) := h.1

theorem State.wbyte_of_atWord {s : State} {e : Eng} {w : W128} {op : Nat} {r : Run} {g : EngRun} (h : s.atWord e w op r g) :
    wbyte w 0 = op := by
  obtain ⟨-, -, hop, -⟩ := h
  exact of_decide_eq_true hop

section Control

variable {s t : State} {e : Eng} {w : W128} {op : Nat} {r r' : Run} {g g' : EngRun} {f : Ctx → State → State × Option Nat}

/-- A control or mover instruction, or GSEQ_SET, is not held to the ring window: one whose effect succeeds ends with it. -/
theorem State.instr_of_control (h : s.atWord e w op r g) (hop : op < 0x30 ∨ 0xA0 ≤ op ∨ op = 0x50)
    (hf : f (ctxOf e r g w) (s.begun e w r g) = (t, none)) : s.instr e w op f = State.ended e (t, none) :=
  State.instr_done h (Ctx.ringBarred_of_op _ (by rwa [State.wbyte_of_atWord h])) hf

/-- Such an instruction that changes its engine without making it wait changes it and goes on. -/
theorem State.instr_modEng_advance (h : s.atWord e w op r g) (hop : op < 0x30 ∨ 0xA0 ≤ op ∨ op = 0x50) {f1 : EngRun → EngRun}
    (hf : f (ctxOf e r g w) (s.begun e w r g) = ((s.begun e w r g).modEng e f1, none)) (hrun : (f1 g).stalled = false) :
    s.instr e w op f = ((s.begun e w r g).modEng e f1).advance e := by
  obtain ⟨_, hbegun⟩ := State.engOf_begun w (State.engOf_of_atWord h)
  obtain ⟨_, heng⟩ := State.engOf_modEng_same f1 hbegun
  rw [State.instr_of_control h hop hf, State.ended_of_running heng hrun]

/-- One that makes its engine wait leaves it there. -/
theorem State.instr_modEng_stall (h : s.atWord e w op r g) (hop : op < 0x30 ∨ 0xA0 ≤ op ∨ op = 0x50) {f1 : EngRun → EngRun}
    (hf : f (ctxOf e r g w) (s.begun e w r g) = ((s.begun e w r g).modEng e f1, none)) (hwait : (f1 g).stalled = true) :
    s.instr e w op f = (s.begun e w r g).modEng e f1 := by
  obtain ⟨_, hbegun⟩ := State.engOf_begun w (State.engOf_of_atWord h)
  obtain ⟨_, heng⟩ := State.engOf_modEng_same f1 hbegun
  rw [State.instr_of_control h hop hf, State.ended_of_stalled heng hwait]

end Control

end Sys2Proof.Machine
end

section
/-! Settles the obligation on the control instructions of a tile program (R138 to R142, R151). -/

namespace Sys2Proof.Machine

open Sys2Proof

/-! ### SIGNAL (R139, R140) -/

/-- A SIGNAL leaves an engine that does not wait not waiting. -/
theorem State.engOf_signalled {u : State} {r r0 : Run} {e : Eng} {g : EngRun} (k n p : Nat) (h : u.engOf e = some (r0, g))
    (hrun : g.stalled = false) : ∃ r1 g1, (u.signalled r e k n p).engOf e = some (r1, g1) ∧ g1.stalled = false := by
  unfold State.signalled
  extract_lets add x s1
  have hs1 : s1.engOf e = some (r0, g) := by
    refine (State.engOf_congr ?_ e).trans h
    unfold s1
    split
    · split
      · exact State.countStall_runs _ _ _ _ _
      · rfl
    · rfl
  obtain ⟨r1, hr1⟩ := State.engOf_modEng (fun x => (add x).release) p hs1
  refine ⟨r1, _, hr1, ?_⟩
  split
  · have hnone : (add g).stall = .none := by
      show g.stall = .none
      unfold EngRun.stalled at hrun
      split at hrun
      · assumption
      · simp at hrun
    have hrelease : (add g).release = add g := by simp only [EngRun.release, hnone]
    rw [hrelease]
    exact hrun
  · exact hrun

theorem State.engOf_forEach_signalled {u : State} {r r0 : Run} {e : Eng} {g : EngRun} (k n : Nat) (ps : List Nat)
    (h : u.engOf e = some (r0, g)) (hrun : g.stalled = false) :
    ∃ r1 g1, (forEach ps u fun p t => t.signalled r e k n p).engOf e = some (r1, g1) ∧ g1.stalled = false := by
  induction ps generalizing u r0 g with
  | nil => exact ⟨r0, g, h, hrun⟩
  | cons p ps ih =>
    obtain ⟨r1, g1, hr1, hg1⟩ := State.engOf_signalled (r := r) k n p h hrun
    exact ih hr1 hg1

/-! ### SYNC (R141) -/

/-- Counting the stalls of the engines that a SYNC releases changes registers and counters alone. -/
theorem State.countSyncs_frame (gs : List EngRun) (r : Run) (t : State) :
    (forEach gs t fun x u => match x.stall with | .sync _ since => u.countStall r x 0x03 since | _ => u) =
      { t with
        regs := (forEach gs t fun x u => match x.stall with | .sync _ since => u.countStall r x 0x03 since | _ => u).regs
        cnts := (forEach gs t fun x u => match x.stall with | .sync _ since => u.countStall r x 0x03 since | _ => u).cnts } := by
  induction gs generalizing t with
  | nil => rfl
  | cons x gs ih =>
    rw [forEach, ih]
    split
    · rw [State.countStall_frame]
    · rfl

theorem exec_nop (e : Eng) (w : W128) (s : State) : exec (.nop e w) s = .next (nop e w s) := rfl
theorem exec_endProgram (e : Eng) (w : W128) (s : State) : exec (.endProgram e w) s = .next (endProgram e w s) := rfl
theorem exec_walk (e : Eng) (w : W128) (s : State) : exec (.walk e w) s = .next (walk e w s) := rfl
theorem exec_wait (e : Eng) (w : W128) (s : State) : exec (.wait e w) s = .next (wait e w s) := rfl
theorem exec_signal (e : Eng) (w : W128) (s : State) : exec (.signal e w) s = .next (signal e w s) := rfl
theorem exec_sync (e : Eng) (w : W128) (s : State) : exec (.sync e w) s = .next (sync e w s) := rfl


section Effects

variable {s u : State} {e : Eng} {w : W128} {k n slot level : Nat} {ps : List Nat} {r : Run} {g : EngRun}

theorem nop_of_atWord (h : s.atWord e w 0x00 r g) (hz : wzero w 1 15 = true) : nop e w s = (s.begun e w r g).advance e := by
  obtain ⟨_, hbegun⟩ := State.engOf_begun w (State.engOf_of_atWord h)
  unfold nop
  rw [State.instr_of_control h (.inl (by decide)) (t := s.begun e w r g) (by simp only [nopFx, nopOk, hz, if_true]),
    State.ended_of_running hbegun (State.stalled_of_atWord h)]

theorem endProgram_of_atWord (h : s.atWord e w 0x01 r g) (hz : wzero w 1 15 = true) (hres : r.cmd.resident = false) :
    endProgram e w s = ((s.begun e w r g).modEng e fun x => { x with ended := true }).advance e := by
  unfold endProgram
  have hrun := State.stalled_of_atWord h
  refine State.instr_modEng_advance h (.inl (by decide)) ?_ hrun
  simp only [endProgramFx, nopOk, hz, ctxOf, hres, Bool.not_true, Bool.false_eq_true, if_false]

theorem walk_of_atWord (h : s.atWord e w 0x07 r g) (hslot : bits (wbyte w 1) 0 3 = slot) (hlevel : bits (wbyte w 1) 4 2 = level)
    (hl3 : level ≠ 3) (hb3 : bit (wbyte w 1) 3 = false) (hb6 : bits (wbyte w 1) 6 2 = 0) (hz : wzero w 3 7 = true) :
    walk e w s = ((s.begun e w r g).modEng e fun x => { x with
      walks := mapSet x.walks (slot * 4 + level) { perm := wbyte w 2, ext := [wword w 8, wword w 10, wword w 12, wword w 14] } }).advance e := by
  unfold walk
  have hrun := State.stalled_of_atWord h
  refine State.instr_modEng_advance h (.inl (by decide)) ?_ hrun
  have hok : walkFieldsOk w = true := by simp only [walkFieldsOk, hb3, hb6, hlevel, hz, hl3, ne_eq, not_false_eq_true, decide_true, Bool.not_false, Bool.and_self]
  simp only [walkFx, hok, hslot, hlevel, Bool.not_true, Bool.false_eq_true, if_false]
  rfl

theorem waitOk_of_fields (hb : bits (wbyte w 1) 4 4 = 0) (hn : wword w 4 = n) (hn0 : n ≠ 0) (hz : wzero w 6 15 = true) : waitOk w = true := by
  simp only [waitOk, hb, hn, hn0, hz, ne_eq, not_false_eq_true, decide_true, Bool.and_self]

theorem wait_of_reached (h : s.atWord e w 0x03 r g) (hk : bits (wbyte w 1) 0 4 = k) (hn : wword w 4 = n) (hok : waitOk w = true)
    (hle : n ≤ mapGet g.counters k 0) : wait e w s =
    ((s.begun e w r g).modEng e fun x => { x with counters := mapPut x.counters k (mapGet g.counters k 0 - n) 0 }).advance e := by
  unfold wait
  have hrun := State.stalled_of_atWord h
  refine State.instr_modEng_advance h (.inl (by decide)) ?_ hrun
  simp only [waitFx, hok, hk, hn, ctxOf, hle, Bool.not_true, Bool.false_eq_true, if_false, if_true]

theorem wait_of_short (h : s.atWord e w 0x03 r g) (hk : bits (wbyte w 1) 0 4 = k) (hn : wword w 4 = n) (hok : waitOk w = true)
    (hlt : mapGet g.counters k 0 < n) : wait e w s =
    (s.begun e w r g).modEng e fun x => { x with stall := .wait k n (limitOf (wword w 2)) s.tb } := by
  unfold wait
  refine State.instr_modEng_stall h (.inl (by decide)) ?_ rfl
  simp only [waitFx, hok, hk, hn, ctxOf, Nat.not_le.mpr hlt, Bool.not_true, Bool.false_eq_true, if_false, State.begun_tb]

theorem signalOk_of_fields (hb : bits (wbyte w 1) 6 2 = 0) (hz2 : wzero w 2 3 = true) (hn : wword w 4 = n) (hn0 : n ≠ 0)
    (hz6 : wzero w 6 15 = true) : signalOk w = true := by
  simp only [signalOk, hb, hn, hn0, hz2, hz6, ne_eq, not_false_eq_true, decide_true, Bool.and_self]

theorem signal_of_atWord (h : s.atWord e w 0x04 r g) (hk : bits (wbyte w 1) 0 4 = k) (hn : wword w 4 = n) (hok : signalOk w = true)
    (hps : ((signalTargets (bits (wbyte w 1) 4 2) e.pos r.engs.length).filter fun p => !(r.engs.getD p {}).ended) = ps)
    (hroom : ∀ p ∈ ps, mapGet (r.engs.getD p {}).counters k 0 + n ≤ 65535) :
    signal e w s = (forEach ps (s.begun e w r g) fun p u => u.signalled r e k n p).advance e := by
  have hfits : (ps.any fun p => decide (65535 < mapGet (r.engs.getD p {}).counters k 0 + n)) = false := by
    simpa using hroom
  obtain ⟨_, hbegun⟩ := State.engOf_begun w (State.engOf_of_atWord h)
  obtain ⟨_, _, heng, hrun⟩ := State.engOf_forEach_signalled (r := r) k n ps hbegun (State.stalled_of_atWord h)
  unfold signal
  rw [State.instr_of_control h (.inl (by decide)) (t := forEach ps (s.begun e w r g) fun p u => u.signalled r e k n p) ?_,
    State.ended_of_running heng hrun]
  simp only [signalFx, hok, hk, hn, ctxOf, Ctx.width, hps, hfits, Bool.not_true, Bool.false_eq_true, if_false]

theorem sync_of_atWord (h : s.atWord e w 0x02 r g) (hz1 : wzero w 1 1 = true) (hz4 : wzero w 4 15 = true) : sync e w s =
    ((s.begun e w r g).modEng e fun x => { x with stall := .sync (limitOf (wword w 2)) s.tb }).releaseSync e := by
  have hinstr : s.instr e w 0x02 (syncFx e w) =
      (s.begun e w r g).modEng e fun x => { x with stall := .sync (limitOf (wword w 2)) s.tb } := by
    refine State.instr_modEng_stall h (.inl (by decide)) ?_ rfl
    simp only [syncFx, syncOk, hz1, hz4, Bool.and_self, Bool.not_true, Bool.false_eq_true, if_false, State.begun_tb]
  unfold sync
  rw [hinstr]

theorem State.releaseSync_of_apart (h : u.engOf e = some (r, g)) (hall : (r.engs.all fun x => x.atSync g.pc) = false) :
    u.releaseSync e = u := by
  simp only [State.releaseSync, h, hall, Bool.false_eq_true, if_false]

theorem State.releaseSync_of_met (h : u.engOf e = some (r, g)) (hall : (r.engs.all fun x => x.atSync g.pc) = true) :
    u.releaseSync e =
      (forEach r.engs u fun x t => match x.stall with | .sync _ since => t.countStall r x 0x03 since | _ => t).modRun e.die e.entry
        fun y => { y with engs := y.engs.map fun x => { x with pc := x.pc + 1, stall := .none } } := by
  simp only [State.releaseSync, h, hall, if_true] <;> rfl

end Effects

/-- Settles O23: each control instruction either goes on, or makes its engine wait, in the state in which it is counted. -/
theorem tileControl : Obligations.TileControl := by
  unfold Obligations.TileControl
  refine ⟨?nop, ?endProgram, ?walk, ?wait, ?signal, ?sync, ?release⟩
  case nop =>
    intro e w r g s h hz
    rw [exec_nop, nop_of_atWord h hz]
  case endProgram =>
    intro e w r g s h hz hres
    rw [exec_endProgram, endProgram_of_atWord h hz hres]
  case walk =>
    intro e w slot level r g s h hslot hlevel hl3 hb3 hb6 hz
    rw [exec_walk, walk_of_atWord h hslot hlevel hl3 hb3 hb6 hz]
  case wait =>
    intro e w k n r g s h hk hb hn hn0 hz
    have hok := waitOk_of_fields hb hn hn0 hz
    exact ⟨fun hle => by rw [exec_wait, wait_of_reached h hk hn hok hle], fun hlt => by rw [exec_wait, wait_of_short h hk hn hok hlt]⟩
  case signal =>
    intro e w k n ps r g s h hk hb hz2 hn hn0 hz6 hps hroom
    rw [exec_signal, signal_of_atWord h hk hn (signalOk_of_fields hb hz2 hn hn0 hz6) hps hroom]
  case sync =>
    intro e w r g s h hz1 hz4
    rw [exec_sync, sync_of_atWord h hz1 hz4]
  case release =>
    intro e r g t h
    exact ⟨State.releaseSync_of_apart h, fun hall => ⟨_, State.releaseSync_of_met h hall, State.countSyncs_frame r.engs r t⟩⟩

end Sys2Proof.Machine
end

section
/-! Refutes the obligation on the counters: its clause on a capture that is due speaks of every offset that bears a `due`, and so of
offsets at which no counter block stands (R481, R482). -/

namespace Sys2Proof.Machine

open Sys2Proof

/-- A state whose only counter entry stands at offset 0, where there is no block, and is due. -/
def strayCaptureState : State := { State.reset with cnts := [(0, { due := some 1 })], tb := 1 }

theorem exec_dbgSnapCapture (block : Nat) (s : State) : exec (.dbgSnapCapture block) s = .next (dbgSnapCapture block s) := rfl

/-- Offset 0 is below every die, so the model takes it as of a die that is not READY and captures nothing. -/
theorem dbgSnapCapture_stray : (dbgSnapCapture 0 strayCaptureState).reg (Reg.X_CNT_SNAP_TB 0) = 0 := by decide

theorem reg_capture_stray :
    ((strayCaptureState.modCnt 0 fun b => { b with due := none }).capture 0 1).reg (Reg.X_CNT_SNAP_TB 0) = 1 :=
  State.reg_setReg_same _ _ _

/-- Refutes O46: clause (5) does not ask that the block be there. At offset 0, which is no block and lies in no die's logic, a capture
that is due is not made. -/
theorem not_countersAreReadWrittenAndCaptured : ¬ Obligations.CountersAreReadWrittenAndCaptured := by
  unfold Obligations.CountersAreReadWrittenAndCaptured
  rintro ⟨-, -, -, -, hcapture, -⟩
  have hdue : exec (.dbgSnapCapture 0) strayCaptureState =
      .next ((strayCaptureState.modCnt 0 fun b => { b with due := none }).capture 0 1) :=
    (hcapture 0 1 strayCaptureState (by decide)).2 (by decide) (by decide)
  rw [exec_dbgSnapCapture] at hdue
  have hreg := congrArg (fun t : State => t.reg (Reg.X_CNT_SNAP_TB 0)) (Host.Outcome.next.inj hdue)
  rw [dbgSnapCapture_stray, reg_capture_stray] at hreg
  exact absurd hreg (by decide)

end Sys2Proof.Machine
end

section
/-! Settles the obligation on stores (R10, R36, R300, R314): which bytes a store writes, where it goes, and that an instruction whose
effect lies in its engine stores nothing. -/

namespace Sys2Proof.Machine

open Sys2Proof

variable {s : State} {a cl d off k x i : Nat} {bs : List Byte} {p : Place}

/-! ### The bytes that a store writes -/

theorem memoryGet_store_outside (h : x < a ∨ a + bs.length ≤ x) : memoryGet (s.store a bs).mem x = memoryGet s.mem x :=
  memoryGet_write_outside s.mem bs h

theorem memoryGet_store_inside (h : i < bs.length) : memoryGet (s.store a bs).mem (a + i) = bs.getD i 0  := by
  rw [List.getD_eq_getElem?_getD, List.getElem?_eq_getElem h, Option.getD_some]
  exact memoryGet_write_inside s.mem a i bs h

@[simp] theorem State.cleanHearth_mem (s : State) (d off n : Nat) : (s.cleanHearth d off n).mem = s.mem := by
  unfold State.cleanHearth
  generalize natRange (off / 8) ((off + n + 7) / 8 - off / 8) = ws
  induction ws generalizing s with
  | nil => rfl
  | cons w ws ih =>
    rw [forEach, ih]
    dsimp only
    split <;> rfl

/-- A store in the Hearth keeps its byte memory but for the bytes stored: what else it clears is the record of errors and clinker. -/
theorem State.putAt_hearth_mem (s : State) (d off : Nat) (bs : List Byte) :
    (s.putAt (.hearth d off) bs).mem = (s.store (hearthKey d off) bs).mem := by
  show ((s.cleanHearth d off bs.length).store (hearthKey d off) bs).mem = _
  simp only [State.store, State.cleanHearth_mem]

theorem State.putAt_remote (s : State) (k : Nat) (bs : List Byte) : s.putAt (.remote k) bs = s.store k bs := rfl

theorem State.putAt_host_of_refused (h : inRanges k s.env.refused = true) : s.putAt (.host k) bs = s := if_pos h

theorem State.putAt_host_of_taken (h : inRanges k s.env.refused = false) : s.putAt (.host k) bs = s.store k bs :=
  if_neg (by simp [h])

theorem State.putAt_host_outside (h : x < k ∨ k + bs.length ≤ x) : memoryGet (s.putAt (.host k) bs).mem x = memoryGet s.mem x := by
  by_cases hr : inRanges k s.env.refused = true
  · rw [State.putAt_host_of_refused hr]
  · rw [State.putAt_host_of_taken (by simpa using hr), memoryGet_store_outside h]

/-! ### Where a client's store goes (R314, R315) -/

/-- Bytes within one 64-byte line are one piece. -/
theorem State.cwrite_of_line (hne : bs ≠ []) (hline : a % 64 + bs.length ≤ 64) :
    s.cwrite cl a bs = writePieces (fun t x => t.place cl x) true [(a, bs)] s := by
  obtain ⟨n, hn⟩ := Nat.exists_eq_add_one_of_ne_zero (Nat.ne_of_gt (List.length_pos_iff.mpr hne))
  unfold State.cwrite
  rw [hn, cutBytes_within (List.length_pos_iff.mpr hne) hline]

theorem writePieces_one_of_place (find : State → Nat → Except Nat Place) (h : find s a = .ok p) (hp : p ≠ .unbacked) :
    writePieces find true [(a, bs)] s = (s.putAt p bs, none) := by
  unfold writePieces writePiecesBy
  rw [h]
  cases p with
  | unbacked => exact absurd rfl hp
  | dram | hearth | host | remote => rfl

theorem writePieces_one_of_unbacked (find : State → Nat → Except Nat Place) (h : find s a = .ok .unbacked) :
    writePieces find true [(a, bs)] s = (s, some 0x0D03) := by
  unfold writePieces writePiecesBy
  rw [h]
  rfl

theorem writePieces_one_of_error (find : State → Nat → Except Nat Place) (h : find s a = .error d) :
    writePieces find true [(a, bs)] s = (s, some d) := by
  unfold writePieces writePiecesBy
  rw [h]
  rfl

/-! ### An instruction whose effect lies in its own engine -/

/-- Counting an instruction changes the run's note of substitutions, the registers and the counters. -/
theorem State.begun_frame (s : State) (e : Eng) (w : W128) (r : Run) (g : EngRun) : s.begun e w r g =
    { s with runs := (s.begun e w r g).runs, cnts := (s.begun e w r g).cnts, regs := (s.begun e w r g).regs } := by
  unfold State.begun
  extract_lets s0
  have hs0 : s0 = { s with runs := s0.runs, cnts := s0.cnts, regs := s0.regs } := by
    unfold s0
    split <;> rfl
  split
  · exact hs0
  · rw [State.count_frame, hs0]

theorem State.own_effect_frame (s : State) (e : Eng) (w : W128) (r : Run) (g : EngRun) (f : EngRun → EngRun) :
    ((s.begun e w r g).modEng e f).advance e =
      { s with
        runs := (((s.begun e w r g).modEng e f).advance e).runs
        cnts := (((s.begun e w r g).modEng e f).advance e).cnts
        regs := (((s.begun e w r g).modEng e f).advance e).regs } := by
  rw [State.begun_frame]
  rfl

/-- Settles O56. -/
theorem storesReachTheirBytes : Obligations.StoresReachTheirBytes := by
  unfold Obligations.StoresReachTheirBytes
  refine ⟨?bytes, ?places, ?own⟩
  case bytes =>
    intro d off k x i bs s
    refine ⟨fun h => ?_, fun h => ?_, fun h => ⟨?_, State.putAt_host_outside h⟩, fun h => ?_, fun h hr => ?_,
      State.putAt_host_of_refused⟩
    · rw [State.putAt_hearth_mem, memoryGet_store_outside h]
    · rw [State.putAt_hearth_mem, memoryGet_store_inside h]
    · rw [State.putAt_remote, memoryGet_store_outside h]
    · rw [State.putAt_remote, memoryGet_store_inside h]
    · rw [State.putAt_host_of_taken hr, memoryGet_store_inside h]
  case places =>
    intro cl a d bs p s hne hline
    rw [State.cwrite_of_line hne hline]
    exact ⟨writePieces_one_of_place fun t x => t.place cl x, writePieces_one_of_unbacked fun t x => t.place cl x,
      writePieces_one_of_error fun t x => t.place cl x⟩
  case own =>
    rintro e w r g f s t rfl
    have hframe := State.own_effect_frame s e w r g f
    refine ⟨?_, ?_, ?_, hframe⟩
    all_goals rw [hframe]

end Sys2Proof.Machine
end

section
/-! Settles the obligation on the parts of the machine that the commands of one block may change: a frame for each command, by its
branches. -/

namespace Sys2Proof.Machine

open Sys2Proof

/-! ### Register operations -/

theorem State.setReg_frame (s : State) (k v : Nat) : s.setReg k v = { s with regs := (s.setReg k v).regs } := rfl
theorem State.setFld_frame (s : State) (f : Fld) (v : Nat) : s.setFld f v = { s with regs := (s.setFld f v).regs } := rfl
theorem State.setFlag_frame (s : State) (f : Fld) (b : Bool) : s.setFlag f b = { s with regs := (s.setFlag f b).regs } := rfl
theorem State.addFld_frame (s : State) (f : Fld) (n : Nat) : s.addFld f n = { s with regs := (s.addFld f n).regs } := rfl

theorem State.regs_frame_trans {s t u : State} (ht : t = { s with regs := t.regs }) (hu : u = { t with regs := u.regs }) :
    u = { s with regs := u.regs } := by
  rw [ht] at hu
  exact hu

/-! ### The watch port (R421 to R426) -/

theorem watchKick_frame (data : Nat) (s : State) : watchKick data s =
    { s with saf := (watchKick data s).saf, sent := (watchKick data s).sent, drawn := (watchKick data s).drawn } := by
  unfold watchKick
  dsimp only
  split
  · rfl
  · split <;> rw [s.watchShift_frame] <;> rfl

theorem watchStatus_frame (data : Nat) (s : State) : watchStatus data s =
    { s with saf := (watchStatus data s).saf, sent := (watchStatus data s).sent, drawn := (watchStatus data s).drawn } := by
  unfold watchStatus
  split
  · rfl
  · rw [s.watchShift_frame]; rfl

theorem watchCause_frame (data : Nat) (s : State) : watchCause data s =
    { s with saf := (watchCause data s).saf, sent := (watchCause data s).sent, drawn := (watchCause data s).drawn } := by
  unfold watchCause
  split
  · rfl
  · rw [s.watchShift_frame]; rfl

/-! ### Commands that change registers and keys -/

theorem timebaseHandback_frame (s : State) : timebaseHandback s = { s with regs := (timebaseHandback s).regs } := by
  unfold timebaseHandback
  split
  · dsimp only
    rw [State.setFlag_frame, State.addFld_frame, State.setFld_frame]
  · rfl

/-- Register writes in a row change registers alone. -/
theorem forEach_setReg_frame {β : Type} (xs : List β) (key v : β → State → Nat) (s : State) :
    forEach xs s (fun x t => t.setReg (key x t) (v x t)) =
      { s with regs := (forEach xs s fun x t => t.setReg (key x t) (v x t)).regs } := by
  induction xs generalizing s with
  | nil => rfl
  | cons x xs ih => rw [forEach, ih]; rfl

theorem i3cTransferDone_frame (n : Nat) (nack : Bool) (data : List Byte) (s : State) :
    i3cTransferDone n nack data s = { s with regs := (i3cTransferDone n nack data s).regs } := by
  unfold i3cTransferDone
  dsimp only
  split
  · rfl
  · split
    · rfl
    · split
      · exact forEach_setReg_frame _ _ _ _
      · rfl

theorem i3cIbi_frame (n addr : Nat) (s : State) : i3cIbi n addr s = { s with regs := (i3cIbi n addr s).regs } := by
  unfold i3cIbi
  split <;> rfl

theorem gpioEdge_frame (i : Nat) (level : Bool) (s : State) : gpioEdge i level s = { s with regs := (gpioEdge i level s).regs } := by
  unfold gpioEdge
  split <;> rfl

theorem State.capture_frame (s : State) (blk tb : Nat) : s.capture blk tb = { s with regs := (s.capture blk tb).regs } := by
  unfold State.capture
  rw [forEach_setReg_frame]
  rfl

theorem counterSnap_frame (block : Nat) (s : State) : counterSnap block s = { s with regs := (counterSnap block s).regs } := by
  unfold counterSnap
  split
  · rfl
  · exact s.capture_frame block s.tb

theorem fwStage_frame (s : State) : fwStage s = { s with regs := (fwStage s).regs, keys := (fwStage s).keys } := by
  unfold fwStage
  split <;> rfl

/-! ### Power and time -/

theorem memoryReady_frame (s : State) :
    memoryReady s = { s with regs := (memoryReady s).regs, dies := (memoryReady s).dies, power := (memoryReady s).power } := by
  unfold memoryReady
  dsimp only
  split
  · generalize natRange 0 s.nDies = ds
    have hdies : ∀ t : State, (forEach ds t fun d t => if (t.dieSt d).islandFailed then t
          else (t.modDie d fun x => { x with island := true }).setFlag (Fld.CDG_STATUS_island_up d) true) =
        { t with
          regs := (forEach ds t fun d t => if (t.dieSt d).islandFailed then t
            else (t.modDie d fun x => { x with island := true }).setFlag (Fld.CDG_STATUS_island_up d) true).regs
          dies := (forEach ds t fun d t => if (t.dieSt d).islandFailed then t
            else (t.modDie d fun x => { x with island := true }).setFlag (Fld.CDG_STATUS_island_up d) true).dies } := by
      induction ds with
      | nil => exact fun _ => rfl
      | cons d ds ih =>
        intro t
        rw [forEach, ih]
        split <;> rfl
    rw [hdies]
    rfl
  · rfl

theorem State.wakeUp_frame (s : State) (cause : Nat) :
    s.wakeUp cause = { s with regs := (s.wakeUp cause).regs, power := (s.wakeUp cause).power } := by
  unfold State.wakeUp
  extract_lets left s1 s2
  split
  · have hs2 : s2 = { s with regs := s2.regs } := by unfold s2 s1; rw [State.setFld_frame, State.setFld_frame, State.setFld_frame]
    rw [hs2]
  · split
    · rw [State.setFld_frame]
    · rfl

theorem State.noteWakeOut_frame (s : State) : s.noteWakeOut = { s with power := s.noteWakeOut.power } := by
  unfold State.noteWakeOut
  split <;> rfl

theorem rtcAlarm_frame (s : State) : rtcAlarm s = { s with regs := (rtcAlarm s).regs, power := (rtcAlarm s).power } := by
  unfold rtcAlarm
  dsimp only
  split
  · rfl
  · split
    · rw [State.wakeUp_frame, State.noteWakeOut_frame]; rfl
    · rw [State.noteWakeOut_frame]; rfl

theorem rtcEdge_frame (s : State) : rtcEdge s = { s with tb := (rtcEdge s).tb, power := (rtcEdge s).power } := by
  unfold rtcEdge
  split <;> rfl

/-! ### Indicators, the trace unit and the front end -/

theorem indShortDetect_frame (n : Nat) (s : State) :
    indShortDetect n s = { s with regs := (indShortDetect n s).regs, inds := (indShortDetect n s).inds } := by
  unfold indShortDetect
  split <;> rfl

theorem State.arm_frame (s : State) : s.arm = { s with regs := s.arm.regs, trace := s.arm.trace } := by
  unfold State.arm
  rw [State.setFld_frame]

theorem traceArm_frame (s : State) : traceArm s = { s with regs := (traceArm s).regs, trace := (traceArm s).trace } := by
  unfold traceArm
  split
  · rfl
  · split
    · rfl
    · exact s.arm_frame

theorem State.dropPacket_frame (s : State) (p : TracePacket) (note : Bool) :
    s.dropPacket p note = { s with regs := (s.dropPacket p note).regs, trace := (s.dropPacket p note).trace } := by
  unfold State.dropPacket
  extract_lets s1
  obtain ⟨R, hR⟩ : ∃ R, s1 = { s with regs := R } := ⟨_, State.regs_frame_trans (s.addFld_frame _ _) (State.setFlag_frame _ _ _)⟩
  clear_value s1
  subst hR
  split
  · rfl
  · rfl

theorem State.postPacket_frame (s : State) (p : TracePacket) :
    s.postPacket p = { s with regs := (s.postPacket p).regs, trace := (s.postPacket p).trace } := by
  unfold State.postPacket
  dsimp only
  split <;> rfl

theorem State.trigger_frame (s : State) (cause : Nat) :
    s.trigger cause = { s with regs := (s.trigger cause).regs, trace := (s.trigger cause).trace } := by
  unfold State.trigger
  split
  · dsimp only
    rw [State.postPacket_frame, State.setReg_frame, State.setFld_frame]
  · rfl

theorem State.hubPacket_frame (s : State) (p : TracePacket) :
    (s.hubPacket p).1 = { s with regs := (s.hubPacket p).1.regs, trace := (s.hubPacket p).1.trace } := by
  unfold State.hubPacket
  split
  · split
    · rfl
    · rfl
    · exact s.postPacket_frame p
    · exact s.dropPacket_frame p false
  · dsimp only
    split <;> rfl

/-- A packet of the hub changes registers and trace state alone. -/
theorem State.arrive_frame_of_hub {s : State} {p : TracePacket} (hhub : p.unit / 4096 = hubDie) :
    s.arrive p = { s with regs := (s.arrive p).regs, trace := (s.arrive p).trace } := by
  unfold State.arrive
  extract_lets d buf throttle src t s1
  have hs1 : s1 = { s with regs := s1.regs, trace := s1.trace } := by
    have hd : d = hubDie := hhub
    unfold s1
    rw [if_pos hd]
    have hpacket := s.hubPacket_frame p
    split
    · next t h => rw [h] at hpacket; exact hpacket
    · next t h =>
      rw [h] at hpacket
      have ht : t = { s with regs := t.regs, trace := t.trace } := hpacket
      rw [State.dropPacket_frame, ht]
  split
  · rw [State.trigger_frame, hs1]
  · exact hs1

theorem State.syncPacket_hub {s : State} : s.syncPacket.unit / 4096 = hubDie := (by decide : unitTrace / 4096 = hubDie)

theorem traceEnable_frame (value : W32) (s : State) :
    traceEnable value s = { s with regs := (traceEnable value s).regs, trace := (traceEnable value s).trace } := by
  unfold traceEnable
  extract_lets v on split1 s1 s2 s3
  have hs1 : s1 = { s with regs := s1.regs } := s.setReg_frame _ _
  have hs2 : s2 = { s with regs := s2.regs } := State.regs_frame_trans hs1 (State.setFld_frame _ _ _)
  have hs3 : s3 = { s with regs := s3.regs } := State.regs_frame_trans hs1 (State.setFld_frame _ _ _)
  clear_value s3 s2 s1
  split
  · exact State.setFlag_frame s _ _
  · split
    · rw [State.arrive_frame_of_hub State.syncPacket_hub, hs2]
    · split
      · rw [hs3]
      · rw [hs1]

theorem rangeRequest_frame (n : Nat) (value : W32) (s : State) :
    rangeRequest n value s = { s with regs := (rangeRequest n value s).regs, audio := (rangeRequest n value s).audio } := by
  unfold rangeRequest
  extract_lets v0 v
  split
  · rfl
  · split <;> rfl

theorem audEnable_frame (value : W32) (s : State) :
    audEnable value s = { s with regs := (audEnable value s).regs, audio := (audEnable value s).audio } := by
  unfold audEnable
  extract_lets v0 v old
  split
  · split
    · rfl
    · split <;> rfl
  · split <;> rfl

/-! ### Counters -/

theorem countLoRead_frame (block i : Nat) (s : State) : countLoRead block i s =
    { s with cnts := (countLoRead block i s).cnts, hostRsp := (countLoRead block i s).hostRsp, hostPoison := (countLoRead block i s).hostPoison } := by
  unfold countLoRead
  split
  · rfl
  · split <;> rfl

theorem countHiWrite_frame (block i : Nat) (value : W32) (s : State) :
    countHiWrite block i value s = { s with cnts := (countHiWrite block i value s).cnts } := by
  unfold countHiWrite
  split <;> rfl

theorem countLoWrite_frame (block i : Nat) (value : W32) (s : State) :
    countLoWrite block i value s = { s with cnts := (countLoWrite block i value s).cnts } := by
  unfold countLoWrite
  split <;> rfl

/-! ### Cameras and the wake chain -/

theorem State.modChan_frame (s : State) (c : Nat) (f : CamChan → CamChan) : s.modChan c f = { s with cams := (s.modChan c f).cams } := rfl
theorem State.modWake_frame (s : State) (f : Wake → Wake) : s.modWake f = { s with wake := (s.modWake f).wake } := rfl
theorem State.breakResleep_frame (s : State) : s.breakResleep = { s with power := s.breakResleep.power } := rfl

theorem camPortEnable_frame (n : Nat) (value : W32) (s : State) :
    camPortEnable n value s = { s with regs := (camPortEnable n value s).regs, cams := (camPortEnable n value s).cams } := by
  unfold camPortEnable
  dsimp only
  split
  · rfl
  · split
    · rfl
    · split <;> rfl

theorem camChannelEnable_frame (n : Nat) (value : W32) (s : State) : camChannelEnable n value s =
    { s with regs := (camChannelEnable n value s).regs, cams := (camChannelEnable n value s).cams, power := (camChannelEnable n value s).power } := by
  unfold camChannelEnable
  extract_lets v s1 err
  have hs1 : s1 = { s with regs := s1.regs } := s.setReg_frame _ _
  clear_value s1
  split
  · rfl
  · split
    · split
      · rfl
      · exact State.setFlag_frame s _ _
    · split
      · rw [State.regs_frame_trans hs1 (s1.setFld_frame (Fld.CAM_CH_STATUS_cfg_error n) err)]
      · have hset := State.regs_frame_trans (State.regs_frame_trans hs1 (s1.setFlag_frame (Fld.CAM_CH_CTRL_enable n) true))
          (State.setFld_frame _ (Fld.CAM_CH_DROPS_drops n) 0)
        rw [State.breakResleep_frame, State.modChan_frame, hset]

theorem State.loadImage_frame (s : State) (target : Nat) :
    s.loadImage target = { s with regs := (s.loadImage target).regs, wake := (s.loadImage target).wake } := by
  unfold State.loadImage
  extract_lets s1
  have hs1 : s1 = { s with regs := s1.regs } := s.setFld_frame _ _
  clear_value s1
  split
  · rfl
  · split
    · split
      · rw [State.modWake_frame, hs1]
      · rw [State.modWake_frame, hs1]
    · rw [State.modWake_frame, State.regs_frame_trans (State.setFld_frame s Fld.WAK_LOAD_load_error 0)
        (State.setFlag_frame _ Fld.WAK_LOAD_load_busy true)]

/-- A fetch through the hub counts its lines alone where nothing is in error. -/
theorem State.fetchHub_of_clean {s : State} (a n : Nat) (hdram : ∀ g, (s.dmc g).errs = []) (hhearth : ∀ d, (s.hearth d).errs = []) :
    s.fetchHub a n = { s with access := (s.fetchHub a n).access } := by
  unfold State.fetchHub
  rw [State.touch_of_clean hubDie a n true hdram hhearth]
  exact s.countLines_frame hubDie a n

theorem imageLoadDone_frame {s : State} (hdram : ∀ g, (s.dmc g).errs = []) (hhearth : ∀ d, (s.hearth d).errs = []) : imageLoadDone s =
    { s with regs := (imageLoadDone s).regs, wake := (imageLoadDone s).wake, access := (imageLoadDone s).access } := by
  unfold imageLoadDone
  split
  · rfl
  · extract_lets s1 put a len s2
    have hput : ∀ (t : State) (img : Option (List Byte)), put t img = { t with wake := (put t img).wake } := by
      intro t img
      unfold put
      split <;> rfl
    have hs2 : s2 = { s with regs := s2.regs, wake := s2.wake, access := s2.access } := by
      unfold s2
      rw [State.fetchHub_of_clean (s := s1) a len hdram hhearth]
      rfl
    split
    · rw [hput, State.setFld_frame, hs2]
    · split
      · rw [hput, hs2]
      · rw [hput, State.setFld_frame, hs2]

/-- Settles O55: a frame for each command. -/
theorem commandsTouchOnlyTheirParts : Obligations.CommandsTouchOnlyTheirParts := by
  unfold Obligations.CommandsTouchOnlyTheirParts
  refine ⟨?watch, ?registers, ?keys, ?power, ?pins, ?counters, ?chain, ?image⟩
  case watch =>
    exact fun data s => ⟨⟨_, rfl, watchKick_frame data s⟩, ⟨_, rfl, watchStatus_frame data s⟩, ⟨_, rfl, watchCause_frame data s⟩⟩
  case registers =>
    exact fun n nack data addr i level block s =>
      ⟨⟨_, rfl, State.setFld_frame s _ _⟩, ⟨_, rfl, timebaseHandback_frame s⟩, ⟨_, rfl, i3cTransferDone_frame n nack data s⟩,
        ⟨_, rfl, i3cIbi_frame n addr s⟩, ⟨_, rfl, gpioEdge_frame i level s⟩, ⟨_, rfl, counterSnap_frame block s⟩,
        ⟨_, rfl, fwStage_frame s⟩, ⟨_, rfl, State.setFld_setFld_frame s _ _ _ _⟩⟩
  case keys => exact fun client s => ⟨⟨_, rfl, rfl⟩, ⟨_, rfl, rfl⟩⟩
  case power =>
    exact fun s => ⟨⟨_, rfl, memoryReady_frame s⟩, ⟨_, rfl, s.wakeUp_frame 1⟩, ⟨_, rfl, rtcAlarm_frame s⟩, ⟨_, rfl, rtcEdge_frame s⟩⟩
  case pins =>
    exact fun n value s => ⟨⟨_, rfl, indShortDetect_frame n s⟩, ⟨_, rfl, traceArm_frame s⟩, ⟨_, rfl, traceEnable_frame value s⟩,
      ⟨_, rfl, rangeRequest_frame n value s⟩, ⟨_, rfl, audEnable_frame value s⟩⟩
  case counters =>
    exact fun block i value s => ⟨⟨_, rfl, countLoRead_frame block i s⟩, ⟨_, rfl, countHiWrite_frame block i value s⟩,
      ⟨_, rfl, countLoWrite_frame block i value s⟩⟩
  case chain =>
    exact fun n value s => ⟨⟨_, rfl, camPortEnable_frame n value s⟩, ⟨_, rfl, camChannelEnable_frame n value s⟩,
      ⟨_, rfl, s.loadImage_frame 1⟩, ⟨_, rfl, s.loadImage_frame 2⟩⟩
  case image => exact fun s hdram hhearth => ⟨_, rfl, imageLoadDone_frame hdram hhearth⟩

end Sys2Proof.Machine
end

section
/-! What tracing, logging and the advance of an epoch leave alone: the parts of the machine they change, and the registers of their
own (R65, R88, R404, R405, R481, R486). -/

namespace Sys2Proof.Machine

open Sys2Proof

/-! ### Registers outside a list -/

theorem State.regsBut_refl (ks : List Nat) (s : State) : s.regsBut ks s := fun _ _ => rfl

theorem State.regsBut_trans {ks : List Nat} {s t u : State} (h1 : s.regsBut ks t) (h2 : t.regsBut ks u) : s.regsBut ks u :=
  fun k hk => (h2 k hk).trans (h1 k hk)

theorem State.regsBut_setReg {ks : List Nat} {key : Nat} (s : State) (v : Nat) (h : key ∈ ks) : s.regsBut ks (s.setReg key v) :=
  fun _ hk => s.reg_setReg_other v fun heq => hk (heq ▸ h)

theorem State.regsBut_setFld {ks : List Nat} {f : Fld} (s : State) (v : Nat) (h : f.key ∈ ks) : s.regsBut ks (s.setFld f v) :=
  State.regsBut_setReg s _ h

theorem State.regsBut_setFlag {ks : List Nat} {f : Fld} (s : State) (b : Bool) (h : f.key ∈ ks) : s.regsBut ks (s.setFlag f b) :=
  State.regsBut_setReg s _ h

theorem State.regsBut_addFld {ks : List Nat} {f : Fld} (s : State) (n : Nat) (h : f.key ∈ ks) : s.regsBut ks (s.addFld f n) :=
  State.regsBut_setReg s _ h

/-! ### Tracing and logging -/

/-- The registers that tracing and logging write. -/
def logKeys : List Nat := [Reg.DBG_TRACE_STATUS, Reg.DBG_TRACE_LOST, Reg.DBG_TRACE_TRIGTB, Reg.SAF_LOG_HEAD]

/-- `t` differs from `s` by what tracing and logging change: their registers, the host memory that the log lies in, what was sent, the
trace state, the log's own state, and the wake output. -/
def State.OnlyLogs (s t : State) : Prop :=
  t = { s with
    regs := t.regs, mem := t.mem, sent := t.sent, trace := t.trace
    saf := { s.saf with lost := t.saf.lost, msixAt := t.saf.msixAt, merges := t.saf.merges }
    power := { s.power with wakeOut := t.power.wakeOut } } ∧ s.regsBut logKeys t

theorem State.OnlyLogs.refl (s : State) : s.OnlyLogs s := ⟨rfl, s.regsBut_refl logKeys⟩

theorem State.OnlyLogs.trans {s t u : State} (h1 : s.OnlyLogs t) (h2 : t.OnlyLogs u) : s.OnlyLogs u := by
  obtain ⟨heq1, hregs1⟩ := h1
  obtain ⟨heq2, hregs2⟩ := h2
  exact ⟨by rw [heq2, heq1], State.regsBut_trans hregs1 hregs2⟩

theorem State.OnlyLogs.reg {s t : State} (h : s.OnlyLogs t) {k : Nat} (hk : k ∉ logKeys) : t.reg k = s.reg k := h.2 k hk

theorem State.onlyLogs_setFld {f : Fld} (s : State) (v : Nat) (h : f.key ∈ logKeys) : s.OnlyLogs (s.setFld f v) :=
  ⟨rfl, s.regsBut_setFld v h⟩

theorem State.onlyLogs_setFlag {f : Fld} (s : State) (b : Bool) (h : f.key ∈ logKeys) : s.OnlyLogs (s.setFlag f b) :=
  ⟨rfl, s.regsBut_setFlag b h⟩

theorem State.onlyLogs_addFld {f : Fld} (s : State) (n : Nat) (h : f.key ∈ logKeys) : s.OnlyLogs (s.addFld f n) :=
  ⟨rfl, s.regsBut_addFld n h⟩

theorem State.onlyLogs_setReg {key : Nat} (s : State) (v : Nat) (h : key ∈ logKeys) : s.OnlyLogs (s.setReg key v) :=
  ⟨rfl, s.regsBut_setReg v h⟩

theorem State.onlyLogs_trace (s : State) (x : TraceSt) : s.OnlyLogs { s with trace := x } := ⟨rfl, fun _ _ => rfl⟩

theorem State.onlyLogs_send (s : State) (m : Sent) : s.OnlyLogs (s.send m) := ⟨rfl, fun _ _ => rfl⟩

theorem State.onlyLogs_merges (s : State) (ms : List LogMerge) : s.OnlyLogs { s with saf := { s.saf with merges := ms } } :=
  ⟨rfl, fun _ _ => rfl⟩

theorem State.onlyLogs_dropPacket (s : State) (p : TracePacket) (note : Bool) : s.OnlyLogs (s.dropPacket p note) := by
  have hflags : s.OnlyLogs ((s.addFld Fld.DBG_TRACE_LOST_lost 1).setFlag Fld.DBG_TRACE_STATUS_loss_seen true) :=
    (s.onlyLogs_addFld 1 (by decide)).trans (State.onlyLogs_setFlag _ true (by decide))
  unfold State.dropPacket
  dsimp only
  split
  · exact hflags.trans (State.onlyLogs_trace _ _)
  · exact hflags

theorem State.onlyLogs_postPacket (s : State) (p : TracePacket) : s.OnlyLogs (s.postPacket p) := by
  unfold State.postPacket
  dsimp only
  split
  · exact (s.onlyLogs_trace _).trans (State.onlyLogs_setFld _ 3 (by decide))
  · exact s.onlyLogs_trace _

theorem State.onlyLogs_trigger (s : State) (cause : Nat) : s.OnlyLogs (s.trigger cause) := by
  unfold State.trigger
  split
  · exact ((s.onlyLogs_setFld 2 (by decide)).trans (State.onlyLogs_setReg _ s.tb (by decide))).trans (State.onlyLogs_postPacket _ _)
  · exact .refl s

theorem State.onlyLogs_hubPacket (s : State) (p : TracePacket) : s.OnlyLogs (s.hubPacket p).1 := by
  unfold State.hubPacket
  split
  · split
    · exact .refl s
    · exact s.onlyLogs_trace _
    · exact s.onlyLogs_postPacket p
    · exact s.onlyLogs_dropPacket p false
  · dsimp only
    split
    · exact s.onlyLogs_trace _
    · exact .refl s

theorem State.onlyLogs_hubTake (ps : List TracePacket) (s : State) : s.OnlyLogs (State.hubTake ps s).1 := by
  induction ps generalizing s with
  | nil => exact .refl s
  | cons p ps ih =>
    have hpacket := s.onlyLogs_hubPacket p
    unfold State.hubTake
    split
    · next t h => rw [h] at hpacket; exact hpacket.trans (ih t)
    · exact .refl s

theorem State.onlyLogs_forEach {β : Type} {f : β → State → State} (h : ∀ x (t : State), t.OnlyLogs (f x t)) (xs : List β) (s : State) :
    s.OnlyLogs (forEach xs s f) := by
  induction xs generalizing s with
  | nil => exact .refl s
  | cons x xs ih => exact (h x s).trans (ih (f x s))

theorem State.onlyLogs_forwardTrace (s : State) (d : Nat) (buf : List TracePacket) : s.OnlyLogs (s.forwardTrace d buf) := by
  unfold State.forwardTrace
  split
  next s1 left hhub =>
    have hs1 : s.OnlyLogs s1 := by
      split at hhub
      · have htake := State.onlyLogs_hubTake buf s
        rw [hhub] at htake
        exact htake
      · cases hhub; exact .refl s
    exact (hs1.trans (State.onlyLogs_forEach (fun _ t => t.onlyLogs_send _) _ s1)).trans (State.onlyLogs_trace _ _)

theorem State.onlyLogs_arrive (s : State) (p : TracePacket) : s.OnlyLogs (s.arrive p) := by
  unfold State.arrive
  extract_lets d buf throttle src t s1
  have hs1 : s.OnlyLogs s1 := by
    unfold s1
    split
    · have hpacket := s.onlyLogs_hubPacket p
      split
      · next t h => rw [h] at hpacket; exact hpacket
      · next t h => rw [h] at hpacket; exact hpacket.trans (State.onlyLogs_dropPacket t p true)
    · split
      · have ht : s.OnlyLogs t := by
          unfold t
          split
          · exact s.onlyLogs_trace _
          · exact .refl s
        exact ht.trans (State.onlyLogs_forwardTrace t d _)
      · exact s.onlyLogs_dropPacket p true
  split
  · exact hs1.trans (State.onlyLogs_trigger s1 _)
  · exact hs1

theorem State.onlyLogs_packet (s : State) (ty unit client : Nat) (payload : List Byte) : s.OnlyLogs (s.packet ty unit client payload) := by
  unfold State.packet
  split
  · exact s.onlyLogs_arrive _
  · exact .refl s

theorem State.onlyLogs_noteWakeOut (s : State) : s.OnlyLogs s.noteWakeOut := by
  unfold State.noteWakeOut
  split
  · exact ⟨rfl, fun _ _ => rfl⟩
  · exact .refl s

theorem State.onlyLogs_store (s : State) (a : Nat) (bs : List Byte) : s.OnlyLogs (s.store a bs) := ⟨rfl, fun _ _ => rfl⟩

/-- The log's count of lost records, and the time of its last message. -/
theorem State.onlyLogs_lost (s : State) (n : Nat) : s.OnlyLogs { s with saf := { s.saf with lost := n } } := ⟨rfl, fun _ _ => rfl⟩

theorem State.onlyLogs_msixAt (s : State) (fn vec : Nat) (at_ : Option Nat) :
    s.OnlyLogs { s.msix fn vec with saf := { s.saf with msixAt := at_ } } := ⟨rfl, fun _ _ => rfl⟩

theorem State.onlyLogs_writeLog (s : State) (r : LogRec) : s.OnlyLogs (s.writeLog r) := by
  unfold State.writeLog
  extract_lets s0 head count _ slot s1 _ s2 due
  have hs0 : s.OnlyLogs s0 := by
    refine State.OnlyLogs.trans ?_ (State.onlyLogs_packet _ _ _ _ _)
    split
    · exact s.onlyLogs_noteWakeOut
    · exact .refl s
  clear_value s0
  have hs1 : s0.OnlyLogs s1 := (s0.onlyLogs_store _ _).trans (State.onlyLogs_setFld _ _ (by decide))
  clear_value s1
  have hs2 : s1.OnlyLogs s2 := s1.onlyLogs_lost 0
  clear_value s2
  split
  · split
    · exact hs0.trans (s0.onlyLogs_lost _)
    · split
      · exact (hs0.trans hs1).trans (hs2.trans (s2.onlyLogs_msixAt _ _ _))
      · exact (hs0.trans hs1).trans hs2
  · exact hs0

theorem State.onlyLogs_logEvent (s : State) (cls action unit detail client seq ring : Nat) :
    s.OnlyLogs (s.logEvent cls action unit detail client seq ring) := s.onlyLogs_writeLog _

theorem State.onlyLogs_writeMerge (s : State) (m : LogMerge) : s.OnlyLogs (s.writeMerge m) :=
  (s.onlyLogs_merges _).trans (State.onlyLogs_writeLog _ _)

theorem State.onlyLogs_logCorrected (s : State) (unit detail client : Nat) : s.OnlyLogs (s.logCorrected unit detail client) := by
  unfold State.logCorrected
  extract_lets s1
  have hs1 : s.OnlyLogs s1 := by
    unfold s1
    split
    · split
      · exact s.onlyLogs_writeMerge _
      · exact .refl s
    · exact .refl s
  exact hs1.trans (s1.onlyLogs_merges _)

/-! ### Counters and epochs -/

theorem counterBlock_bounds {d u blk : Nat} (h : counterBlock d u = some blk) :
    (d = hubDie ∧ blk = 0xC1000) ∨ (d ≠ hubDie ∧ dieBase d + 0x10800 ≤ blk ∧ blk ≤ dieBase d + 0x5C800) := by
  unfold counterBlock at h
  dsimp only at h
  repeat' split at h
  all_goals simp only [Option.some.injEq, reduceCtorEq] at h
  all_goals omega

/-- Counting changes at most the overflow register of the unit's counter block. -/
theorem State.reg_count {s : State} {d u k : Nat} (code n : Nat) (cl : Option Nat)
    (hk : ∀ blk, counterBlock d u = some blk → k ≠ Reg.X_CNT_OVF blk) : (s.count d u code n cl).reg k = s.reg k := by
  unfold State.count
  split
  · rfl
  · next blk hblk =>
    have hother := hk blk hblk
    split
    · rfl
    · next hcond =>
      clear hcond
      generalize natRange 0 12 = is
      induction is generalizing s with
      | nil => rfl
      | cons i is ih =>
        rw [forEach, ih]
        split
        · unfold State.bump
          dsimp only
          split
          · rfl
          · exact State.reg_setFld_other _ _ hother
        · rfl

/-- The advance of an epoch changes units, counters with their registers, and what was sent. -/
theorem State.stepEpoch_frame (s : State) (u : Nat) : s.stepEpoch u =
    { s with units := (s.stepEpoch u).units, regs := (s.stepEpoch u).regs, cnts := (s.stepEpoch u).cnts, sent := (s.stepEpoch u).sent } := by
  unfold State.stepEpoch
  extract_lets e s1
  have hcounts : ∀ (ns : List Nat) (t : State), (forEach ns t fun n t => t.count (u / 4096) n 0x0F 1 none) = { t with
      regs := (forEach ns t fun n t => t.count (u / 4096) n 0x0F 1 none).regs
      cnts := (forEach ns t fun n t => t.count (u / 4096) n 0x0F 1 none).cnts } := by
    intro ns
    induction ns with
    | nil => exact fun _ => rfl
    | cons n ns ih => intro t; rw [forEach, ih, State.count_frame]
  rw [hcounts]
  rfl

theorem State.advanceEpoch_frame (s : State) (u : Nat) : s.advanceEpoch u =
    { s with
      units := (s.advanceEpoch u).units, regs := (s.advanceEpoch u).regs, cnts := (s.advanceEpoch u).cnts
      sent := (s.advanceEpoch u).sent } := by
  unfold State.advanceEpoch
  split
  · rfl
  · exact s.stepEpoch_frame u

/-- The advance of an epoch changes at most the overflow registers of the die's counter blocks. -/
theorem State.reg_advanceEpoch {s : State} {u k : Nat} (hk : ∀ n blk, counterBlock (u / 4096) n = some blk → k ≠ Reg.X_CNT_OVF blk) :
    (s.advanceEpoch u).reg k = s.reg k := by
  have hcounts : ∀ (ns : List Nat) (t : State), (forEach ns t fun n t => t.count (u / 4096) n 0x0F 1 none).reg k = t.reg k := by
    intro ns
    induction ns with
    | nil => exact fun _ => rfl
    | cons n ns ih => intro t; rw [forEach, ih, State.reg_count _ _ _ (hk n)]
  unfold State.advanceEpoch
  split
  · rfl
  · exact hcounts _ _

end Sys2Proof.Machine
end

section
/-! Settles the obligation on links (R27, R35 to R38, R90): what training, a failed module and a lost link leave, and what ROUTE_UPDATE
shows. -/

namespace Sys2Proof.Machine

open Sys2Proof

/-! ### Fields of registers that stand, and of registers written in a row -/

theorem State.fld_congr {s t : State} {f : Fld} (h : t.reg f.key = s.reg f.key) : t.fld f = s.fld f := by
  simp only [State.fld, h]

theorem State.flag_congr {s t : State} {f : Fld} (h : t.reg f.key = s.reg f.key) : t.flag f = s.flag f := by
  simp only [State.flag, State.fld_congr h]

theorem State.flag_setFlag_apart (s : State) {f g : Fld} (b : Bool) (hk : g.key = f.key) (hf : f.lo + f.width ≤ 64)
    (hg : g.lo + g.width ≤ 64) (h : g.lo + g.width ≤ f.lo ∨ f.lo + f.width ≤ g.lo) : (s.setFlag f b).flag g = s.flag g :=
  s.flag_setFld_apart (b2n b) hk hf hg h

theorem State.fld_setFlag_apart (s : State) {f g : Fld} (b : Bool) (hk : g.key = f.key) (hf : f.lo + f.width ≤ 64)
    (hg : g.lo + g.width ≤ 64) (h : g.lo + g.width ≤ f.lo ∨ f.lo + f.width ≤ g.lo) : (s.setFlag f b).fld g = s.fld g :=
  s.fld_setFld_apart (b2n b) hk hf hg h

theorem forEach_regs_frame {β : Type} {f : β → State → State} (h : ∀ x (t : State), f x t = { t with regs := (f x t).regs })
    (xs : List β) (s : State) : forEach xs s f = { s with regs := (forEach xs s f).regs } := by
  induction xs generalizing s with
  | nil => rfl
  | cons x xs ih => rw [forEach, ih, h]

theorem State.regsBut_forEach {β : Type} {ks : List Nat} {f : β → State → State} {xs : List β}
    (h : ∀ x ∈ xs, ∀ t : State, t.regsBut ks (f x t)) (s : State) : s.regsBut ks (forEach xs s f) := by
  induction xs generalizing s with
  | nil => exact s.regsBut_refl ks
  | cons x xs ih =>
    exact State.regsBut_trans (h x (by simp) s) (ih (fun y hy => h y (List.mem_cons_of_mem _ hy)) (f x s))

/-- What one turn of a loop makes true, and every turn keeps, holds at its end. -/
theorem forEach_makes {β σ : Type} (P : σ → Prop) {f : β → σ → σ} {xs : List β} {x : β} (hx : x ∈ xs) (hmake : ∀ t, P (f x t))
    (hkeep : ∀ y t, P t → P (f y t)) (s : σ) : P (forEach xs s f) := by
  induction xs generalizing s with
  | nil => exact nomatch hx
  | cons y ys ih =>
    rcases List.mem_cons.mp hx with rfl | hys
    · exact forEach_keeps P ys hkeep (hmake s)
    · exact ih hys (f y s)

/-! ### Link ends and their registers (R26, R27) -/

/-- A name of a link end of some part. -/
def IsLinkEnd (u : Nat) : Prop := (u / 4096 = 8 ∧ u % 4096 < 0x087) ∨ (u / 4096 < 7 ∧ 0x080 ≤ u % 4096 ∧ u % 4096 ≤ 0x082)

theorem State.isLinkEnd_of_peerEnd {s : State} {u v : Nat} (h : s.peerEnd u = some v) : IsLinkEnd u ∧ IsLinkEnd v := by
  have hn := s.nDies_le
  unfold State.peerEnd at h
  simp only [hubDie, unitOf, State.fitted, Bool.not_eq_true', decide_eq_false_iff_not] at h
  unfold IsLinkEnd
  generalize s.nDies = n at h hn
  have heast : 0 < n → (u / 4096 + 1) % n < n := Nat.mod_lt _
  have hwest : 0 < n → (u / 4096 + n - 1) % n < n := Nat.mod_lt _
  generalize (u / 4096 + 1) % n = east at h heast
  generalize (u / 4096 + n - 1) % n = west at h hwest
  split at h
  · split at h
    · obtain rfl := Option.some.inj h
      omega
    · exact nomatch h
  · split at h
    · exact nomatch h
    · next hfit =>
      rw [Decidable.not_not] at hfit
      split at h
      · obtain rfl := Option.some.inj h
        omega
      · split at h
        · obtain rfl := Option.some.inj h
          omega
        · split at h
          · obtain rfl := Option.some.inj h
            omega
          · exact nomatch h

theorem State.peerEnd_congr {s t : State} (h : t.variant = s.variant) (u : Nat) : t.peerEnd u = s.peerEnd u := by
  unfold State.peerEnd State.fitted State.nDies
  rw [h]

theorem linkBlk_ge (u : Nat) : (u / 4096 = hubDie ∧ 0xD8000 ≤ linkBlk u) ∨ (u / 4096 ≠ hubDie ∧ dieBase (u / 4096) + 0x80000 ≤ linkBlk u) := by
  unfold linkBlk hubLinkBase hxlBase
  split <;> omega

/-- No link's status register is one that logging writes. -/
theorem hxlStatus_not_mem_logKeys (u : Nat) : Reg.HXL_STATUS (linkBlk u) ∉ logKeys := by
  have hge : 0xD8000 ≤ linkBlk u := by
    have := linkBlk_ge u
    unfold dieBase at this
    omega
  simp only [logKeys, Reg.HXL_STATUS, Reg.DBG_TRACE_STATUS, Reg.DBG_TRACE_LOST, Reg.DBG_TRACE_TRIGTB, Reg.SAF_LOG_HEAD, List.mem_cons,
    List.not_mem_nil, or_false]
  omega

/-- A link's status register is no overflow register of a counter block of its die. -/
theorem hxlStatus_ne_overflow {u n blk : Nat} (h : counterBlock (u / 4096) n = some blk) : Reg.HXL_STATUS (linkBlk u) ≠ Reg.X_CNT_OVF blk := by
  have hge := linkBlk_ge u
  have hblk := counterBlock_bounds h
  unfold dieBase hubDie at hge hblk
  simp only [Reg.HXL_STATUS, Reg.X_CNT_OVF]
  omega

/-- A link's status register is no register that shows the routes. -/
theorem hxlStatus_not_mem_topoKeys {u : Nat} (h : IsLinkEnd u) (n : Nat) :
    Reg.HXL_STATUS (linkBlk u) ∉ Reg.GLB_TOPO :: (natRange 0 n).map Reg.CDG_STATUS := by
  have hblk : linkBlk u < 0x1000000 ∧ 4 < linkBlk u ∨ ∃ e, e ≤ 2 ∧ linkBlk u = 0x1000000 + 0x800000 * (u / 4096) + 0x80000 + 0x4000 * e := by
    unfold IsLinkEnd at h
    unfold linkBlk hubLinkBase hxlBase dieBase hubDie
    split
    · exact .inl (by omega)
    · exact .inr ⟨u % 4096 - 0x080, by omega, rfl⟩
  simp only [List.mem_cons, List.mem_map, not_or, not_exists, not_and, Reg.HXL_STATUS, Reg.GLB_TOPO, Reg.CDG_STATUS, dieBase]
  rcases hblk with hhub | ⟨e, he, hdie⟩
  · exact ⟨by omega, fun d _ => by omega⟩
  · exact ⟨by omega, fun d _ => by omega⟩

/-! ### The routes that registers show (R27) -/

/-- A mask of bits has them as its bits. -/
theorem mask_testBit (bs : List Bool) (n : Nat) :
    (natRange 0 n).foldl (fun a i => a + b2n (bs.getD i false) * 2 ^ i) 0 < 2 ^ n ∧
      ∀ d, d < n → ((natRange 0 n).foldl (fun a i => a + b2n (bs.getD i false) * 2 ^ i) 0).testBit d = bs.getD d false := by
  induction n with
  | zero => exact ⟨Nat.one_pos, fun d hd => absurd hd (Nat.not_lt_zero d)⟩
  | succ n ih =>
    obtain ⟨hlt, hbits⟩ := ih
    have hrange : natRange 0 (n + 1) = natRange 0 n ++ [n] := by
      rw [natRange_eq_range', natRange_eq_range', List.range'_1_concat, Nat.zero_add]
    rw [hrange, List.foldl_append]
    generalize hm : (natRange 0 n).foldl (fun a i => a + b2n (bs.getD i false) * 2 ^ i) 0 = m at hlt hbits
    simp only [List.foldl_cons, List.foldl_nil]
    have hb := b2n_lt (bs.getD n false)
    refine ⟨?_, fun d hd => ?_⟩
    · have : b2n (bs.getD n false) * 2 ^ n ≤ 1 * 2 ^ n := Nat.mul_le_mul_right _ (by omega)
      rw [Nat.pow_succ]
      omega
    · rw [Nat.add_comm, Nat.mul_comm, Nat.testBit_two_pow_mul_add _ hlt]
      split
      · next hdn => exact hbits d hdn
      · next hdn =>
        obtain rfl : d = n := by omega
        rw [Nat.sub_self]
        cases bs.getD d false <;> rfl

/-- The link flags that ROUTE_UPDATE shows for one die. -/
def State.showLinks (hub ring : List Bool) (n d : Nat) (t : State) : State :=
  ((t.setFlag (Fld.CDG_STATUS_hub_link_up d) (hub.getD d false)).setFlag (Fld.CDG_STATUS_east_link_up d)
    (ring.getD d false)).setFlag (Fld.CDG_STATUS_west_link_up d) (ring.getD ((d + n - 1) % n) false)

/-- Which hub links are up, by die. -/
def State.hubUps (s : State) : List Bool := (natRange 0 s.nDies).map fun d => s.endUp (unitOf hubDie (0x080 + d))

/-- Which ring links are up, by the die to the west of them. -/
def State.ringUps (s : State) : List Bool := (natRange 0 s.nDies).map fun d => decide (1 < s.nDies) && s.endUp (unitOf d 0x081)

/-- What ROUTE_UPDATE shows in GLB_TOPO. -/
def State.showTopo (s : State) : State :=
  ((s.setFld Fld.GLB_TOPO_hub_links_up ((natRange 0 s.nDies).foldl (fun a i => a + b2n (s.hubUps.getD i false) * 2 ^ i) 0)).setFld
    Fld.GLB_TOPO_ring_links_up ((natRange 0 s.nDies).foldl (fun a i => a + b2n (s.ringUps.getD i false) * 2 ^ i) 0)).setFlag
    Fld.GLB_TOPO_ring_closed (decide (1 < s.nDies) && s.ringUps.all id)

theorem State.syncTopo_eq (s : State) :
    s.syncTopo = forEach (natRange 0 s.nDies) s.showTopo fun d t => t.showLinks s.hubUps s.ringUps s.nDies d := by
  unfold State.syncTopo State.showTopo State.showLinks
  simp only [State.hubUps, State.ringUps, List.length_map, length_natRange]

theorem State.showLinks_frame (hub ring : List Bool) (n d : Nat) (t : State) :
    t.showLinks hub ring n d = { t with regs := (t.showLinks hub ring n d).regs } := by
  unfold State.showLinks
  rw [State.setFlag_frame, State.setFlag_frame, State.setFlag_frame]

theorem State.showTopo_frame (s : State) : s.showTopo = { s with regs := s.showTopo.regs } := by
  unfold State.showTopo
  rw [State.setFlag_frame, State.setFld_frame, State.setFld_frame]

theorem State.syncTopo_frame (s : State) : s.syncTopo = { s with regs := s.syncTopo.regs } := by
  rw [State.syncTopo_eq, forEach_regs_frame (fun d t => t.showLinks_frame _ _ _ d), State.showTopo_frame]

theorem State.regsBut_showLinks {ks : List Nat} (hub ring : List Bool) (n d : Nat) (t : State) (h : Reg.CDG_STATUS d ∈ ks) :
    t.regsBut ks (t.showLinks hub ring n d) :=
  State.regsBut_trans (State.regsBut_trans (t.regsBut_setFlag _ h) (State.regsBut_setFlag _ _ h)) (State.regsBut_setFlag _ _ h)

theorem State.regsBut_syncTopo (s : State) : s.regsBut (Reg.GLB_TOPO :: (natRange 0 s.nDies).map Reg.CDG_STATUS) s.syncTopo := by
  rw [State.syncTopo_eq]
  refine State.regsBut_trans ?_ (State.regsBut_forEach (fun d hd t => t.regsBut_showLinks _ _ _ d ?_) _)
  · exact State.regsBut_trans (State.regsBut_trans (s.regsBut_setFld _ (by simp [Fld.GLB_TOPO_hub_links_up]))
      (State.regsBut_setFld _ _ (by simp [Fld.GLB_TOPO_ring_links_up]))) (State.regsBut_setFlag _ _ (by simp [Fld.GLB_TOPO_ring_closed]))
  · exact List.mem_cons_of_mem _ (List.mem_map_of_mem hd)

/-- The link flags of a die. -/
def State.linkFlags (t : State) (d : Nat) : Bool × Bool × Bool :=
  (t.flag (Fld.CDG_STATUS_hub_link_up d), t.flag (Fld.CDG_STATUS_east_link_up d), t.flag (Fld.CDG_STATUS_west_link_up d))

theorem State.linkFlags_showLinks_same (hub ring : List Bool) (n d : Nat) (t : State) :
    (t.showLinks hub ring n d).linkFlags d = (hub.getD d false, ring.getD d false, ring.getD ((d + n - 1) % n) false) := by
  unfold State.linkFlags State.showLinks
  rw [State.flag_setFlag_same _ _ (show 6 + 1 ≤ 64 by decide) rfl,
    State.flag_setFlag_apart _ (f := Fld.CDG_STATUS_west_link_up d) (g := Fld.CDG_STATUS_east_link_up d) _ rfl
      (show 6 + 1 ≤ 64 by decide) (show 5 + 1 ≤ 64 by decide) (.inl (show 5 + 1 ≤ 6 by decide)),
    State.flag_setFlag_same _ _ (show 5 + 1 ≤ 64 by decide) rfl,
    State.flag_setFlag_apart _ (f := Fld.CDG_STATUS_west_link_up d) (g := Fld.CDG_STATUS_hub_link_up d) _ rfl
      (show 6 + 1 ≤ 64 by decide) (show 4 + 1 ≤ 64 by decide) (.inl (show 4 + 1 ≤ 6 by decide)),
    State.flag_setFlag_apart _ (f := Fld.CDG_STATUS_east_link_up d) (g := Fld.CDG_STATUS_hub_link_up d) _ rfl
      (show 5 + 1 ≤ 64 by decide) (show 4 + 1 ≤ 64 by decide) (.inl (show 4 + 1 ≤ 5 by decide)),
    State.flag_setFlag_same _ _ (show 4 + 1 ≤ 64 by decide) rfl]

theorem State.linkFlags_showLinks_other (hub ring : List Bool) (n : Nat) {d y : Nat} (t : State) (h : d ≠ y) :
    (t.showLinks hub ring n y).linkFlags d = t.linkFlags d := by
  have hkey : Reg.CDG_STATUS d ∉ [Reg.CDG_STATUS y] := by
    simp only [List.mem_singleton, Reg.CDG_STATUS, dieBase]
    omega
  have hreg : (t.showLinks hub ring n y).reg (Reg.CDG_STATUS d) = t.reg (Reg.CDG_STATUS d) :=
    t.regsBut_showLinks (ks := [Reg.CDG_STATUS y]) hub ring n y (by simp) _ hkey
  unfold State.linkFlags
  rw [State.flag_congr (f := Fld.CDG_STATUS_hub_link_up d) hreg, State.flag_congr (f := Fld.CDG_STATUS_east_link_up d) hreg,
    State.flag_congr (f := Fld.CDG_STATUS_west_link_up d) hreg]

theorem State.linkFlags_syncTopo {s : State} {d : Nat} (h : d < s.nDies) :
    s.syncTopo.linkFlags d = (s.hubUps.getD d false, s.ringUps.getD d false, s.ringUps.getD ((d + s.nDies - 1) % s.nDies) false) := by
  rw [State.syncTopo_eq]
  refine forEach_makes (fun t : State => t.linkFlags d = _) (x := d) (mem_natRange.mpr ⟨Nat.zero_le d, by omega⟩)
    (fun t => t.linkFlags_showLinks_same _ _ _ d) (fun y t ht => ?_) _
  by_cases hy : d = y
  · subst hy
    exact t.linkFlags_showLinks_same _ _ _ d
  · exact (t.linkFlags_showLinks_other _ _ _ hy).trans ht

theorem State.getD_hubUps {s : State} {d : Nat} (h : d < s.nDies) : s.hubUps.getD d false = s.endUp (unitOf hubDie (0x080 + d)) := by
  simp [State.hubUps, List.getD_eq_getElem?_getD, h]

theorem State.getD_ringUps {s : State} {d : Nat} (h : d < s.nDies) :
    s.ringUps.getD d false = (decide (1 < s.nDies) && s.endUp (unitOf d 0x081)) := by
  simp [State.ringUps, List.getD_eq_getElem?_getD, h]

/-- GLB_TOPO shows the masks of the links. -/
theorem State.topo_syncTopo (s : State) {d : Nat} (h : d < s.nDies) :
    bit (s.syncTopo.fld Fld.GLB_TOPO_hub_links_up) d = s.hubUps.getD d false ∧
      bit (s.syncTopo.fld Fld.GLB_TOPO_ring_links_up) d = s.ringUps.getD d false := by
  have hn := s.nDies_le
  have hreg : s.syncTopo.reg Reg.GLB_TOPO = s.showTopo.reg Reg.GLB_TOPO := by
    rw [State.syncTopo_eq]
    refine State.regsBut_forEach (ks := (natRange 0 s.nDies).map Reg.CDG_STATUS)
      (fun d hd t => t.regsBut_showLinks _ _ _ d (List.mem_map_of_mem hd)) _ _ ?_
    simp only [List.mem_map, not_exists, not_and, Reg.CDG_STATUS, Reg.GLB_TOPO, dieBase]
    omega
  obtain ⟨hhublt, hhub⟩ := mask_testBit s.hubUps s.nDies
  obtain ⟨hringlt, hring⟩ := mask_testBit s.ringUps s.nDies
  have hpow : 2 ^ s.nDies ≤ 2 ^ 7 := Nat.pow_le_pow_right (by decide) hn
  rw [State.fld_congr (f := Fld.GLB_TOPO_hub_links_up) hreg, State.fld_congr (f := Fld.GLB_TOPO_ring_links_up) hreg]
  unfold State.showTopo
  rw [State.fld_setFlag_apart _ (g := Fld.GLB_TOPO_hub_links_up) (f := Fld.GLB_TOPO_ring_closed) _ rfl (by decide) (by decide)
      (.inl (by decide)),
    State.fld_setFld_apart _ (g := Fld.GLB_TOPO_hub_links_up) (f := Fld.GLB_TOPO_ring_links_up) _ rfl (by decide) (by decide)
      (.inl (by decide)), State.fld_setFld_same _ (f := Fld.GLB_TOPO_hub_links_up) _ (by decide),
    State.fld_setFlag_apart _ (g := Fld.GLB_TOPO_ring_links_up) (f := Fld.GLB_TOPO_ring_closed) _ rfl (by decide) (by decide)
      (.inl (by decide)), State.fld_setFld_same _ (f := Fld.GLB_TOPO_ring_links_up) _ (by decide),
    show Fld.GLB_TOPO_hub_links_up.width = 7 from rfl, show Fld.GLB_TOPO_ring_links_up.width = 7 from rfl,
    Nat.mod_eq_of_lt (Nat.lt_of_lt_of_le hhublt hpow), Nat.mod_eq_of_lt (Nat.lt_of_lt_of_le hringlt hpow)]
  exact ⟨hhub d h, hring d h⟩

/-! ### Sending over a link (R28, R33, R34) -/

/-- The module that an end sends over. -/
def State.txModule (s : State) (u : Nat) : Nat := if bit (s.fld (Fld.HXL_STATUS_modules_up (linkBlk u))) 0 then 0 else 1

theorem Link.module_setModule_other (l : Link) {j k : Nat} (x : LinkModule) (hj : j < 2) (hk : k < 2) (h : k ≠ j) :
    (l.setModule j x).module k = l.module k := by
  obtain ⟨rfl, rfl⟩ | ⟨rfl, rfl⟩ : (j = 0 ∧ k = 1) ∨ (j = 1 ∧ k = 0) := by omega
  · rfl
  · rfl

theorem Link.module_setModule_same (l : Link) (j : Nat) (x : LinkModule) : (l.setModule j x).module j = x := by
  unfold Link.setModule Link.module
  split <;> rfl

theorem State.link_send (s : State) (m : Sent) (w : Nat) : (s.send m).link w = s.link w := rfl

theorem State.module_modLink {s : State} {u w k : Nat} {f : Link → Link} (hf : ∀ l, (f l).module k = l.module k) :
    ((s.modLink u f).link w).module k = (s.link w).module k := by
  by_cases h : w = u
  · subst h
    rw [State.link_modLink_same, hf]
  · rw [State.link_modLink_other _ _ h]

theorem State.module_freeSlot (s : State) (u c w k : Nat) : ((s.freeSlot u c).link w).module k = (s.link w).module k := by
  unfold State.freeSlot
  exact State.module_modLink fun _ => rfl

theorem State.linkSend_frame (s : State) (u : Nat) (o : OutMsg) :
    s.linkSend u o = { s with links := (s.linkSend u o).links, sent := (s.linkSend u o).sent } := by
  unfold State.linkSend
  extract_lets l mods j x c credit behind f x' s1
  split
  · rfl
  · split <;> rfl

/-- A message sent leaves the modules that it does not leave over as they were, at every end. -/
theorem State.module_linkSend {s : State} {u w k : Nat} (o : OutMsg) (hk : k < 2) (h : k ≠ s.txModule u) :
    ((s.linkSend u o).link w).module k = (s.link w).module k := by
  unfold State.linkSend
  extract_lets l mods j x c credit behind f x' s1
  have hs1 : (s1.link w).module k = (s.link w).module k := by
    unfold s1
    rw [State.link_send, State.module_modLink fun y => ?_]
    exact Link.module_setModule_other y x' (by unfold j; split <;> decide) hk h
  clear_value s1
  split
  · exact State.module_modLink (s := s) fun _ => rfl
  · split
    · exact (State.module_freeSlot s1 _ c w k).trans hs1
    · exact hs1

theorem State.drainOutbox_frame (s : State) (u : Nat) :
    s.drainOutbox u = { s with links := (s.drainOutbox u).links, sent := (s.drainOutbox u).sent } := by
  unfold State.drainOutbox
  dsimp only
  generalize (s.link u).outbox = ms
  have hsend : ∀ t : State, (forEach ms t fun m t => t.linkSend u m) = { t with
      links := (forEach ms t fun m t => t.linkSend u m).links, sent := (forEach ms t fun m t => t.linkSend u m).sent } := by
    induction ms with
    | nil => exact fun _ => rfl
    | cons m ms ih => intro t; rw [forEach, ih, State.linkSend_frame]
  rw [hsend]
  rfl

theorem State.module_drainOutbox {s : State} {u w k : Nat} (hk : k < 2) (h : k ≠ s.txModule u) :
    ((s.drainOutbox u).link w).module k = (s.link w).module k := by
  unfold State.drainOutbox
  dsimp only
  generalize (s.link u).outbox = ms
  refine Eq.trans ?_ (State.module_modLink (s := s) (u := u) (w := w) (f := fun y => { y with outbox := [] }) fun _ => rfl)
  have htx : k ≠ (s.modLink u fun y => { y with outbox := [] }).txModule u := h
  revert htx
  generalize (s.modLink u fun y => { y with outbox := [] }) = t
  induction ms generalizing t with
  | nil => exact fun _ => rfl
  | cons m ms ih =>
    intro htx
    rw [forEach, ih (t.linkSend u m) (by rw [State.linkSend_frame]; exact htx), State.module_linkSend m hk htx]

/-! ### A failed module (R36) -/

/-- The module that is left is the other one. -/
theorem setBit_left : ∀ mods < 4, ∀ k < 2, setBit mods k false ≠ 0 →
    k ≠ (if bit (setBit mods k false) 0 then 0 else 1) ∧ setBit mods k false % 4 = setBit mods k false := by decide

/-- The registers of an end whose module drops. -/
def State.showDropped (s : State) (u left : Nat) : State :=
  (s.setFld (Fld.HXL_STATUS_modules_up (linkBlk u)) left).setFlag (Fld.HXL_STATUS_module_degraded (linkBlk u)) true

theorem State.dropModule_frame (s : State) (u k left : Nat) : s.dropModule u k left =
    { s with regs := (s.showDropped u left).regs, links := (s.dropModule u k left).links, sent := (s.dropModule u k left).sent } := by
  unfold State.dropModule
  extract_lets s1 ms
  have hs1 : s1 = { s with regs := s1.regs } := by
    unfold s1
    rw [State.setFlag_frame, State.setFld_frame]
  rw [show s.showDropped u left = s1 from rfl, State.drainOutbox_frame]
  clear_value s1
  rw [hs1]
  rfl

theorem State.reg_dropModule (s : State) (u k left key : Nat) : (s.dropModule u k left).reg key = (s.showDropped u left).reg key := by
  rw [State.dropModule_frame]
  rfl

theorem State.regsBut_dropModule {ks : List Nat} (s : State) {u : Nat} (k left : Nat) (h : Reg.HXL_STATUS (linkBlk u) ∈ ks) :
    s.regsBut ks (s.dropModule u k left) := fun key hkey =>
  (s.reg_dropModule u k left key).trans
    (State.regsBut_trans (s.regsBut_setFld (f := Fld.HXL_STATUS_modules_up (linkBlk u)) left h)
      (State.regsBut_setFlag (f := Fld.HXL_STATUS_module_degraded (linkBlk u)) _ true h) key hkey)

/-- What an end shows: whether it is up, its modules, and whether one has failed. -/
def State.endShown (s : State) (u : Nat) : Bool × Nat × Bool :=
  (s.endUp u, s.fld (Fld.HXL_STATUS_modules_up (linkBlk u)), s.flag (Fld.HXL_STATUS_module_degraded (linkBlk u)))

theorem State.endShown_congr {s t : State} {u : Nat} (h : t.reg (Reg.HXL_STATUS (linkBlk u)) = s.reg (Reg.HXL_STATUS (linkBlk u))) :
    t.endShown u = s.endShown u := by
  unfold State.endShown State.endUp
  rw [State.flag_congr (f := Fld.HXL_STATUS_link_up (linkBlk u)) h, State.fld_congr (f := Fld.HXL_STATUS_modules_up (linkBlk u)) h,
    State.flag_congr (f := Fld.HXL_STATUS_module_degraded (linkBlk u)) h]

theorem State.endShown_dropModule_same (s : State) (u k left : Nat) :
    (s.dropModule u k left).endShown u = (s.endUp u, left % 4, true) := by
  rw [State.endShown_congr (s.reg_dropModule u k left _)]
  unfold State.endShown State.endUp State.showDropped
  rw [State.flag_setFlag_apart _ (f := Fld.HXL_STATUS_module_degraded (linkBlk u)) (g := Fld.HXL_STATUS_link_up (linkBlk u)) _ rfl
      (show 3 + 1 ≤ 64 by decide) (show 0 + 1 ≤ 64 by decide) (.inl (show 0 + 1 ≤ 3 by decide)),
    State.flag_setFld_apart _ (f := Fld.HXL_STATUS_modules_up (linkBlk u)) (g := Fld.HXL_STATUS_link_up (linkBlk u)) _ rfl
      (show 1 + 2 ≤ 64 by decide) (show 0 + 1 ≤ 64 by decide) (.inl (show 0 + 1 ≤ 1 by decide)),
    State.fld_setFlag_apart _ (f := Fld.HXL_STATUS_module_degraded (linkBlk u)) (g := Fld.HXL_STATUS_modules_up (linkBlk u)) _ rfl
      (show 3 + 1 ≤ 64 by decide) (show 1 + 2 ≤ 64 by decide) (.inl (show 1 + 2 ≤ 3 by decide)),
    State.fld_setFld_same _ (f := Fld.HXL_STATUS_modules_up (linkBlk u)) _ (show 1 + 2 ≤ 64 by decide),
    State.flag_setFlag_same _ _ (show 3 + 1 ≤ 64 by decide) rfl]
  rfl

theorem State.endShown_dropModule_other (s : State) {u w : Nat} (k left : Nat) (h : linkBlk w ≠ linkBlk u) :
    (s.dropModule u k left).endShown w = s.endShown w :=
  State.endShown_congr (s.regsBut_dropModule (ks := [Reg.HXL_STATUS (linkBlk u)]) k left (by simp) _ (by simpa [Reg.HXL_STATUS] using h))

theorem State.module_dropModule {s : State} {u w k left : Nat} (hk : k < 2) (hleft : left % 4 = left)
    (h : k ≠ if bit left 0 then 0 else 1) :
    ((s.dropModule u k left).link w).module k = if w = u then { lastAck := s.tb } else (s.link w).module k := by
  unfold State.dropModule
  extract_lets s1 ms
  have hmods : s1.fld (Fld.HXL_STATUS_modules_up (linkBlk u)) = left := by
    unfold s1
    rw [State.fld_setFlag_apart _ (f := Fld.HXL_STATUS_module_degraded (linkBlk u)) (g := Fld.HXL_STATUS_modules_up (linkBlk u)) _ rfl
        (show 3 + 1 ≤ 64 by decide) (show 1 + 2 ≤ 64 by decide) (.inl (show 1 + 2 ≤ 3 by decide)),
      State.fld_setFld_same _ (f := Fld.HXL_STATUS_modules_up (linkBlk u)) _ (show 1 + 2 ≤ 64 by decide)]
    exact hleft
  have hlinks : ∀ x, s1.link x = s.link x := fun _ => rfl
  clear_value s1
  rw [State.module_drainOutbox hk (by unfold State.txModule; rw [State.fld_modLink, hmods]; exact h)]
  split
  · next hw =>
    subst hw
    rw [State.link_modLink_same]
    exact Link.module_setModule_same _ k _
  · next hw => rw [State.link_modLink_other _ _ hw, hlinks]

theorem State.endUp_of_endShown {s t : State} {u : Nat} {m : Nat} {b : Bool} (h : t.endShown u = (s.endUp u, m, b)) :
    t.endUp u = s.endUp u ∧ t.fld (Fld.HXL_STATUS_modules_up (linkBlk u)) = m ∧ t.flag (Fld.HXL_STATUS_module_degraded (linkBlk u)) = b := by
  simpa [State.endShown] using h

/-- The first of two ends whose module drops shows it still once the second shows it too. -/
theorem State.endShown_bothDropped {s t : State} {link v left : Nat} (k : Nat) (hleft : left % 4 = left)
    (h : t.endShown link = (s.endUp link, left % 4, true)) : (t.dropModule v k left).endUp link = s.endUp link ∧
      (t.dropModule v k left).fld (Fld.HXL_STATUS_modules_up (linkBlk link)) = left ∧
      (t.dropModule v k left).flag (Fld.HXL_STATUS_module_degraded (linkBlk link)) = true := by
  refine State.endUp_of_endShown ?_
  by_cases hblk : linkBlk link = linkBlk v
  · have hv := t.endShown_dropModule_same v k left
    unfold State.endShown State.endUp at *
    rw [hblk] at h ⊢
    rw [hv, (Prod.mk.inj h).1, hleft]
  · rw [State.endShown_dropModule_other t k left hblk, h, hleft]

/-- The second shows its module dropped, and is up as it was. -/
theorem State.endShown_vDropped {s : State} {link v left : Nat} (k : Nat) (hleft : left % 4 = left) :
    ((s.dropModule link k left).dropModule v k left).endShown v = (s.endUp v, left, true) := by
  have hup : (s.dropModule link k left).endUp v = s.endUp v := by
    by_cases hblk : linkBlk v = linkBlk link
    · have hlink := s.endShown_dropModule_same link k left
      unfold State.endShown State.endUp at *
      rw [hblk]
      exact (Prod.mk.inj hlink).1
    · exact (Prod.mk.inj (State.endShown_dropModule_other s k left hblk)).1
  rw [State.endShown_dropModule_same, hup, hleft]

theorem exec_moduleFail (link module : Nat) (s : State) : exec (.moduleFail link module) s = .next (moduleFail link module s) := rfl
theorem exec_linkTrained (link modules lanes : Nat) (s : State) :
    exec (.linkTrained link modules lanes) s = .next (linkTrained link modules lanes s) := rfl
theorem exec_routeUpdate (s : State) : exec .routeUpdate s = .next s.syncTopo := rfl

section Modules

variable {s : State} {link v module left modules lanes : Nat} (hpeer : s.peerEnd link = some v)

include hpeer

theorem moduleFail_of_left (hup : s.endUp link = true) (hmod : bit (s.fld (Fld.HXL_STATUS_modules_up (linkBlk link))) (module % 2) = true)
    (hleft : setBit (s.fld (Fld.HXL_STATUS_modules_up (linkBlk link))) (module % 2) false = left) (hne : left ≠ 0) :
    moduleFail link module s = ((s.dropModule link (module % 2) left).dropModule v (module % 2) left).logRecorded link 0 := by
  simp only [moduleFail, hpeer, hup, hmod, hleft, hne, Bool.not_true, Bool.or_self, Bool.false_eq_true, if_false]

theorem moduleFail_of_last (hup : s.endUp link = true) (hmod : bit (s.fld (Fld.HXL_STATUS_modules_up (linkBlk link))) (module % 2) = true)
    (hleft : setBit (s.fld (Fld.HXL_STATUS_modules_up (linkBlk link))) (module % 2) false = 0) :
    moduleFail link module s = s.linkDown link := by
  simp only [moduleFail, hpeer, hup, hmod, hleft, Bool.not_true, Bool.or_self, Bool.false_eq_true, if_false, if_true]

theorem linkTrained_of_up (hup : s.endUp link = true) : linkTrained link modules lanes s = s := by
  simp only [linkTrained, hpeer, hup, if_true]

theorem linkTrained_of_down (hup : s.endUp link = false) (hlink : (s.unit link).outSince = none) (hv : (s.unit v).outSince = none)
    (hmods : modules % 4 ≠ 0) : linkTrained link modules lanes s =
    (((s.trainEnd link (modules % 4) lanes).trainEnd v (modules % 4) lanes).syncTopo).send .routeUpdate := by
  simp only [linkTrained, State.trainTest, hpeer, hup, hlink, hv, hmods, ne_eq, not_false_eq_true, decide_true, Bool.and_self,
    Bool.false_eq_true, if_false, if_true]

end Modules

/-! ### Training (R35) -/

theorem hxlStatus_ne_overflow_of_end {w d n blk : Nat} (hw : IsLinkEnd w) (h : counterBlock d n = some blk) :
    Reg.HXL_STATUS (linkBlk w) ≠ Reg.X_CNT_OVF blk := by
  have hblk := counterBlock_bounds h
  unfold IsLinkEnd at hw
  unfold dieBase hubDie at hblk
  unfold Reg.HXL_STATUS Reg.X_CNT_OVF linkBlk hubLinkBase hxlBase dieBase
  split
  · next hhub =>
    unfold hubDie at hhub
    omega
  · next hhub =>
    unfold hubDie at hhub
    omega

theorem State.outSince_advanceEpoch (s : State) (u w : Nat) : ((s.advanceEpoch u).unit w).outSince = (s.unit w).outSince := by
  have hmod : ∀ (t : State) (f : UnitSt → UnitSt), (∀ x, (f x).outSince = x.outSince) → ((t.modUnit u f).unit w).outSince = (t.unit w).outSince := by
    intro t f hf
    by_cases h : w = u
    · subst h
      rw [State.unit_modUnit_same, hf]
    · rw [State.unit_modUnit_other _ _ h]
  have hcounts : ∀ (ns : List Nat) (t : State), (forEach ns t fun n t => t.count (u / 4096) n 0x0F 1 none).units = t.units :=
    fun ns t => forEach_proj (·.units) ns t _ fun n t => by rw [State.count_frame]
  unfold State.advanceEpoch
  split
  · exact hmod s _ fun _ => rfl
  · refine Eq.trans ?_ (hmod s (fun x => { x with epoch := ((s.unit u).epoch + 1) % 65536, lastAdvance := some s.tb }) fun _ => rfl)
    unfold State.stepEpoch State.unit
    exact congrArg (fun m => UnitSt.outSince (mapGet m w {})) (hcounts _ _)

/-- The registers of an end that trains. -/
def State.showTrained (s : State) (u modules lanes : Nat) : State :=
  (((s.setFlag (Fld.HXL_STATUS_link_up (linkBlk u)) true).setFld (Fld.HXL_STATUS_modules_up (linkBlk u)) modules).setFlag
    (Fld.HXL_STATUS_module_degraded (linkBlk u)) (decide (modules ≠ 3))).setFld (Fld.HXL_STATUS_lanes_repaired (linkBlk u)) (min lanes 255)

theorem State.showTrained_frame (s : State) (u modules lanes : Nat) :
    s.showTrained u modules lanes = { s with regs := (s.showTrained u modules lanes).regs } :=
  State.regs_frame_trans (State.regs_frame_trans (State.regs_frame_trans (State.setFlag_frame _ _ _) (State.setFld_frame _ _ _))
    (State.setFlag_frame _ _ _)) (State.setFld_frame _ _ _)

/-- A link end that has trained. -/
def trainedLink (tb : Nat) : Link := { m0 := { lastAck := tb }, m1 := { lastAck := tb }, credits := [64, 64, 32, 8] }

theorem State.trainEnd_of_in {s : State} {u : Nat} (modules lanes : Nat) (h : (s.unit u).outSince = none) : s.trainEnd u modules lanes =
    (((s.showTrained u modules lanes).modLink u fun _ => trainedLink s.tb).modUnit u
      fun x => { x with outSince := none, passes := 0, rounds := 0 }).advanceEpoch u := by
  obtain ⟨R, hR⟩ : ∃ R, s.showTrained u modules lanes = { s with regs := R } := ⟨_, s.showTrained_frame u modules lanes⟩
  unfold State.trainEnd
  extract_lets blk s1 s2 s3 back s4
  have hs2 : s2 = { s with regs := R } := hR
  have hs3 : s3 = { s with regs := R }.modLink u fun _ => trainedLink s.tb := by
    unfold s3
    rw [hs2]
    rfl
  have hback : back = false := by
    unfold back
    rw [hs3]
    show ((s.unit u).outSince).isSome = false
    rw [h]
    rfl
  rw [if_neg (by simp [hback]), hR]
  unfold s4
  rw [hs3]

section Train

variable {s : State} {u w modules lanes : Nat} (hin : (s.unit u).outSince = none)

include hin

theorem State.trainEnd_frame : s.trainEnd u modules lanes =
    { s with
      regs := (s.trainEnd u modules lanes).regs, links := (s.trainEnd u modules lanes).links, units := (s.trainEnd u modules lanes).units
      cnts := (s.trainEnd u modules lanes).cnts, sent := (s.trainEnd u modules lanes).sent } := by
  obtain ⟨R, hR⟩ : ∃ R, s.showTrained u modules lanes = { s with regs := R } := ⟨_, s.showTrained_frame u modules lanes⟩
  rw [State.trainEnd_of_in modules lanes hin, hR, State.advanceEpoch_frame]
  rfl

theorem State.outSince_trainEnd (h : (s.unit w).outSince = none) : ((s.trainEnd u modules lanes).unit w).outSince = none := by
  obtain ⟨R, hR⟩ : ∃ R, s.showTrained u modules lanes = { s with regs := R } := ⟨_, s.showTrained_frame u modules lanes⟩
  rw [State.trainEnd_of_in modules lanes hin, State.outSince_advanceEpoch, hR]
  by_cases hw : w = u
  · subst hw
    rw [State.unit_modUnit_same]
  · rw [State.unit_modUnit_other _ _ hw]
    exact h

theorem State.link_trainEnd : (s.trainEnd u modules lanes).link w = if w = u then trainedLink s.tb else s.link w := by
  obtain ⟨R, hR⟩ : ∃ R, s.showTrained u modules lanes = { s with regs := R } := ⟨_, s.showTrained_frame u modules lanes⟩
  rw [State.trainEnd_of_in modules lanes hin, hR, State.advanceEpoch_frame]
  show ((State.modLink { s with regs := R } u fun _ => trainedLink s.tb).link w) = _
  split
  · next hw => rw [hw, State.link_modLink_same]
  · next hw => exact State.link_modLink_other _ _ hw

theorem State.reg_trainEnd (hw : IsLinkEnd w) : (s.trainEnd u modules lanes).reg (Reg.HXL_STATUS (linkBlk w)) =
    (s.showTrained u modules lanes).reg (Reg.HXL_STATUS (linkBlk w)) := by
  rw [State.trainEnd_of_in modules lanes hin, State.reg_advanceEpoch fun n blk h => hxlStatus_ne_overflow_of_end hw h,
    State.reg_modUnit, State.reg_modLink]

end Train

/-- An end shows a trained link with these modules and repaired lanes. -/
def State.ShowsTrained (s : State) (modules lanes w : Nat) : Prop :=
  s.endUp w = true ∧ s.fld (Fld.HXL_STATUS_modules_up (linkBlk w)) = modules ∧
    s.fld (Fld.HXL_STATUS_lanes_repaired (linkBlk w)) = min lanes 255

theorem State.ShowsTrained.congr {s t : State} {modules lanes w : Nat} (h : s.ShowsTrained modules lanes w)
    (hreg : t.reg (Reg.HXL_STATUS (linkBlk w)) = s.reg (Reg.HXL_STATUS (linkBlk w))) : t.ShowsTrained modules lanes w := by
  unfold State.ShowsTrained State.endUp at *
  rw [State.flag_congr (f := Fld.HXL_STATUS_link_up (linkBlk w)) hreg, State.fld_congr (f := Fld.HXL_STATUS_modules_up (linkBlk w)) hreg,
    State.fld_congr (f := Fld.HXL_STATUS_lanes_repaired (linkBlk w)) hreg]
  exact h

theorem State.showsTrained_showTrained (s : State) (u modules lanes : Nat) : (s.showTrained u (modules % 4) lanes).ShowsTrained (modules % 4) lanes u := by
  unfold State.ShowsTrained State.endUp State.showTrained
  rw [State.flag_setFld_apart _ (f := Fld.HXL_STATUS_lanes_repaired (linkBlk u)) (g := Fld.HXL_STATUS_link_up (linkBlk u)) _ rfl
      (show 8 + 8 ≤ 64 by decide) (show 0 + 1 ≤ 64 by decide) (.inl (show 0 + 1 ≤ 8 by decide)),
    State.flag_setFlag_apart _ (f := Fld.HXL_STATUS_module_degraded (linkBlk u)) (g := Fld.HXL_STATUS_link_up (linkBlk u)) _ rfl
      (show 3 + 1 ≤ 64 by decide) (show 0 + 1 ≤ 64 by decide) (.inl (show 0 + 1 ≤ 3 by decide)),
    State.flag_setFld_apart _ (f := Fld.HXL_STATUS_modules_up (linkBlk u)) (g := Fld.HXL_STATUS_link_up (linkBlk u)) _ rfl
      (show 1 + 2 ≤ 64 by decide) (show 0 + 1 ≤ 64 by decide) (.inl (show 0 + 1 ≤ 1 by decide)),
    State.flag_setFlag_same _ _ (show 0 + 1 ≤ 64 by decide) rfl,
    State.fld_setFld_apart _ (f := Fld.HXL_STATUS_lanes_repaired (linkBlk u)) (g := Fld.HXL_STATUS_modules_up (linkBlk u)) _ rfl
      (show 8 + 8 ≤ 64 by decide) (show 1 + 2 ≤ 64 by decide) (.inl (show 1 + 2 ≤ 8 by decide)),
    State.fld_setFlag_apart _ (f := Fld.HXL_STATUS_module_degraded (linkBlk u)) (g := Fld.HXL_STATUS_modules_up (linkBlk u)) _ rfl
      (show 3 + 1 ≤ 64 by decide) (show 1 + 2 ≤ 64 by decide) (.inl (show 1 + 2 ≤ 3 by decide)),
    State.fld_setFld_same _ (f := Fld.HXL_STATUS_modules_up (linkBlk u)) _ (show 1 + 2 ≤ 64 by decide),
    State.fld_setFld_same _ (f := Fld.HXL_STATUS_lanes_repaired (linkBlk u)) _ (show 8 + 8 ≤ 64 by decide)]
  exact ⟨rfl, Nat.mod_mod _ 4, Nat.mod_eq_of_lt (Nat.lt_of_le_of_lt (Nat.min_le_right lanes 255) (show 255 < 2 ^ 8 by decide))⟩

theorem State.regsBut_showTrained (s : State) (u modules lanes : Nat) :
    s.regsBut [Reg.HXL_STATUS (linkBlk u)] (s.showTrained u modules lanes) := by
  have hkey : Reg.HXL_STATUS (linkBlk u) ∈ [Reg.HXL_STATUS (linkBlk u)] := List.mem_singleton_self _
  exact State.regsBut_trans (State.regsBut_trans (State.regsBut_trans (s.regsBut_setFlag (f := Fld.HXL_STATUS_link_up (linkBlk u)) _ hkey)
    (State.regsBut_setFld (f := Fld.HXL_STATUS_modules_up (linkBlk u)) _ _ hkey))
    (State.regsBut_setFlag (f := Fld.HXL_STATUS_module_degraded (linkBlk u)) _ _ hkey))
    (State.regsBut_setFld (f := Fld.HXL_STATUS_lanes_repaired (linkBlk u)) _ _ hkey)

theorem State.showsTrained_trainEnd {s : State} {u w modules lanes : Nat} (hin : (s.unit u).outSince = none) (hw : IsLinkEnd w)
    (h : linkBlk w = linkBlk u ∨ s.ShowsTrained (modules % 4) lanes w) :
    (s.trainEnd u (modules % 4) lanes).ShowsTrained (modules % 4) lanes w := by
  by_cases hblk : linkBlk w = linkBlk u
  · have hu := s.showsTrained_showTrained u modules lanes
    unfold State.ShowsTrained State.endUp at hu
    rw [← hblk] at hu
    exact State.ShowsTrained.congr hu (State.reg_trainEnd hin hw)
  · refine State.ShowsTrained.congr (h.resolve_left hblk) ((State.reg_trainEnd hin hw).trans ?_)
    exact s.regsBut_showTrained u _ lanes _ (by simpa [Reg.HXL_STATUS] using hblk)

/-! ### A lost link (R37, R38, R90) -/

/-- The registers of an end that is lost. -/
def State.showLost (s : State) (u : Nat) : State :=
  (((s.setFlag (Fld.HXL_STATUS_link_up (linkBlk u)) false).setFld (Fld.HXL_STATUS_modules_up (linkBlk u)) 0).setFlag
    (Fld.HXL_STATUS_module_degraded (linkBlk u)) false).setFlag (Fld.HXL_STATUS_down_seen (linkBlk u)) true

theorem State.showLost_frame (s : State) (u : Nat) : s.showLost u = { s with regs := (s.showLost u).regs } :=
  State.regs_frame_trans (State.regs_frame_trans (State.regs_frame_trans (State.setFlag_frame _ _ _) (State.setFld_frame _ _ _))
    (State.setFlag_frame _ _ _)) (State.setFlag_frame _ _ _)

theorem State.showsLost_showLost (s : State) (u : Nat) : (s.showLost u).endUp u = false ∧
    (s.showLost u).fld (Fld.HXL_STATUS_modules_up (linkBlk u)) = 0 ∧ (s.showLost u).flag (Fld.HXL_STATUS_down_seen (linkBlk u)) = true := by
  unfold State.endUp State.showLost
  rw [State.flag_setFlag_apart _ (f := Fld.HXL_STATUS_down_seen (linkBlk u)) (g := Fld.HXL_STATUS_link_up (linkBlk u)) _ rfl
      (show 4 + 1 ≤ 64 by decide) (show 0 + 1 ≤ 64 by decide) (.inl (show 0 + 1 ≤ 4 by decide)),
    State.flag_setFlag_apart _ (f := Fld.HXL_STATUS_module_degraded (linkBlk u)) (g := Fld.HXL_STATUS_link_up (linkBlk u)) _ rfl
      (show 3 + 1 ≤ 64 by decide) (show 0 + 1 ≤ 64 by decide) (.inl (show 0 + 1 ≤ 3 by decide)),
    State.flag_setFld_apart _ (f := Fld.HXL_STATUS_modules_up (linkBlk u)) (g := Fld.HXL_STATUS_link_up (linkBlk u)) _ rfl
      (show 1 + 2 ≤ 64 by decide) (show 0 + 1 ≤ 64 by decide) (.inl (show 0 + 1 ≤ 1 by decide)),
    State.flag_setFlag_same _ _ (show 0 + 1 ≤ 64 by decide) rfl,
    State.fld_setFlag_apart _ (f := Fld.HXL_STATUS_down_seen (linkBlk u)) (g := Fld.HXL_STATUS_modules_up (linkBlk u)) _ rfl
      (show 4 + 1 ≤ 64 by decide) (show 1 + 2 ≤ 64 by decide) (.inl (show 1 + 2 ≤ 4 by decide)),
    State.fld_setFlag_apart _ (f := Fld.HXL_STATUS_module_degraded (linkBlk u)) (g := Fld.HXL_STATUS_modules_up (linkBlk u)) _ rfl
      (show 3 + 1 ≤ 64 by decide) (show 1 + 2 ≤ 64 by decide) (.inl (show 1 + 2 ≤ 3 by decide)),
    State.fld_setFld_same _ (f := Fld.HXL_STATUS_modules_up (linkBlk u)) _ (show 1 + 2 ≤ 64 by decide),
    State.flag_setFlag_same _ _ (show 4 + 1 ≤ 64 by decide) rfl]
  exact ⟨rfl, Nat.zero_mod _, rfl⟩

/-- An end that is lost, before the failed requests are answered and the loss is logged. -/
def State.lostBare (s : State) (u : Nat) : State :=
  ((s.showLost u).advanceEpoch u).modLink u fun y => { y with m0 := {}, m1 := {}, downAt := some s.tb, outbox := [], protoAt := [] }

theorem State.lostBare_frame (s : State) (u : Nat) : s.lostBare u =
    { s with
      regs := (s.lostBare u).regs, links := (s.lostBare u).links, units := (s.lostBare u).units, cnts := (s.lostBare u).cnts
      sent := (s.lostBare u).sent } := by
  obtain ⟨R, hR⟩ : ∃ R, s.showLost u = { s with regs := R } := ⟨_, s.showLost_frame u⟩
  unfold State.lostBare
  rw [hR, State.advanceEpoch_frame]
  rfl

/-- What follows: answers are sent, the unit is out, and the loss is logged. -/
theorem State.endLost_spec (s : State) (u : Nat) : ∃ sent' : List Sent,
    ({ s.lostBare u with sent := sent' }.modUnit u fun x => { x with outSince := some s.tb, retestAt := s.tb, passes := 0 }).OnlyLogs
      (s.endLost u) := by
  unfold State.endLost
  extract_lets l ms blk s1 _ s2 own s3
  have hsend : ∀ (ms : List Msg) (t : State) (f : Msg → State → Sent), (forEach ms t fun m t => t.send (f m t)) =
      { t with sent := (forEach ms t fun m t => t.send (f m t)).sent } := by
    intro ms
    induction ms with
    | nil => exact fun _ _ => rfl
    | cons m ms ih => intro t f; rw [forEach, ih]; rfl
  refine ⟨s3.sent, ?_⟩
  have hs3 : s3 = { s.lostBare u with sent := s3.sent } := hsend own s2 _
  rw [← hs3]
  exact State.onlyLogs_logEvent _ _ _ _ _ _ _ _

theorem State.reg_endLost (s : State) (u : Nat) :
    (s.endLost u).reg (Reg.HXL_STATUS (linkBlk u)) = (s.showLost u).reg (Reg.HXL_STATUS (linkBlk u)) := by
  obtain ⟨sent', hlogs⟩ := s.endLost_spec u
  rw [hlogs.reg (hxlStatus_not_mem_logKeys u), State.reg_modUnit]
  exact State.reg_advanceEpoch fun n blk h => hxlStatus_ne_overflow h

theorem State.variant_endLost (s : State) (u : Nat) : (s.endLost u).variant = s.variant := by
  obtain ⟨sent', heq, -⟩ := s.endLost_spec u
  rw [heq, State.modUnit, State.lostBare_frame]

theorem State.link_endLost (s : State) (u : Nat) : (s.endLost u).link u =
    { s.link u with m0 := {}, m1 := {}, downAt := some s.tb, outbox := [], protoAt := [] } := by
  obtain ⟨sent', heq, -⟩ := s.endLost_spec u
  have hlink : ((s.showLost u).advanceEpoch u).link u = s.link u := by
    obtain ⟨R, hR⟩ : ∃ R, s.showLost u = { s with regs := R } := ⟨_, s.showLost_frame u⟩
    rw [State.link, hR, State.advanceEpoch_frame]
    rfl
  rw [State.link, heq]
  show (s.lostBare u).link u = _
  unfold State.lostBare
  rw [State.link_modLink_same, hlink]

theorem State.retestAt_endLost (s : State) (u : Nat) : ((s.endLost u).unit u).retestAt = s.tb := by
  obtain ⟨sent', heq, -⟩ := s.endLost_spec u
  rw [State.unit, heq]
  generalize { s.lostBare u with sent := sent' } = t
  exact congrArg UnitSt.retestAt (t.unit_modUnit_same u fun x => { x with outSince := some s.tb, retestAt := s.tb, passes := 0 })

theorem State.showsLost_endLost (s : State) (u : Nat) : (s.endLost u).endUp u = false ∧
    (s.endLost u).fld (Fld.HXL_STATUS_modules_up (linkBlk u)) = 0 ∧ (s.endLost u).flag (Fld.HXL_STATUS_down_seen (linkBlk u)) = true := by
  have hreg := s.reg_endLost u
  unfold State.endUp
  rw [State.flag_congr (f := Fld.HXL_STATUS_link_up (linkBlk u)) hreg, State.fld_congr (f := Fld.HXL_STATUS_modules_up (linkBlk u)) hreg,
    State.flag_congr (f := Fld.HXL_STATUS_down_seen (linkBlk u)) hreg]
  exact s.showsLost_showLost u

theorem State.linkDown_of_up {s : State} {link v : Nat} (hpeer : s.peerEnd link = some v) (hup : s.endUp link = true)
    (hv : (s.endLost link).endUp v = true) :
    s.linkDown link = (((((s.endLost link).endLost v).syncTopo).send .routeUpdate).takeOutUnreached) := by
  have hpeer' : (s.endLost link).peerEnd link = some v := (State.peerEnd_congr (s.variant_endLost link) link).trans hpeer
  simp only [State.linkDown, hup, hpeer', hv, if_true]

/-- Settles O11: each command by its branch, each end by what its status register shows. -/
theorem linksTrainAndFail : Obligations.LinksTrainAndFail := by
  unfold Obligations.LinksTrainAndFail
  refine ⟨?train, ?upAlready, ?oneModule, ?lastModule, ?down, ?lost, ?routes⟩
  case train =>
    intro link modules lanes v s hpeer hup hlink hv hmods
    obtain ⟨hend, hend'⟩ := State.isLinkEnd_of_peerEnd hpeer
    have hv1 := State.outSince_trainEnd (modules := modules % 4) (lanes := lanes) hlink hv
    have htb : (s.trainEnd link (modules % 4) lanes).tb = s.tb := by rw [State.trainEnd_frame hlink]
    have hshow : ∀ w, IsLinkEnd w → w = link ∨ w = v →
        (((s.trainEnd link (modules % 4) lanes).trainEnd v (modules % 4) lanes).syncTopo.send .routeUpdate).ShowsTrained (modules % 4) lanes w := by
      intro w hw hwhich
      refine State.ShowsTrained.congr (State.showsTrained_trainEnd hv1 hw ?_)
        (State.regsBut_syncTopo _ _ (hxlStatus_not_mem_topoKeys hw _))
      rcases hwhich with rfl | rfl
      · exact .inr (State.showsTrained_trainEnd hlink hw (.inl rfl))
      · exact .inl rfl
    have hlinks : ∀ w, w = link ∨ w = v →
        (((s.trainEnd link (modules % 4) lanes).trainEnd v (modules % 4) lanes).syncTopo.send .routeUpdate).link w = trainedLink s.tb := by
      intro w hwhich
      rw [State.link_send, State.link, State.syncTopo_frame]
      show ((s.trainEnd link (modules % 4) lanes).trainEnd v (modules % 4) lanes).link w = _
      rw [State.link_trainEnd hv1, State.link_trainEnd hlink, htb]
      rcases hwhich with rfl | rfl
      · simp
      · simp
    obtain ⟨hup1, hmods1, hlanes1⟩ := hshow link hend (.inl rfl)
    obtain ⟨hup2, hmods2, hlanes2⟩ := hshow v hend' (.inr rfl)
    refine ⟨_, by rw [exec_linkTrained, linkTrained_of_down hpeer hup hlink hv hmods], rfl, hup1, hup2, hmods1, hmods2, hlanes1, hlanes2,
      hlinks link (.inl rfl), hlinks v (.inr rfl), rfl, ?_⟩
    rw [State.send_mem, State.syncTopo_frame, State.trainEnd_frame hv1, State.trainEnd_frame hlink]
  case upAlready =>
    intro link modules lanes v s hpeer hup
    rw [exec_linkTrained, linkTrained_of_up hpeer hup]
  case oneModule =>
    intro link module left v s hpeer hup hmod hleft hne
    have hmods : s.fld (Fld.HXL_STATUS_modules_up (linkBlk link)) < 4 := s.fld_lt _
    have hk : module % 2 < 2 := Nat.mod_lt _ (by decide)
    obtain ⟨htx, hleft4⟩ := setBit_left _ hmods _ hk (by rw [hleft]; exact hne)
    rw [hleft] at htx hleft4
    obtain ⟨hup1, hmods1, hdeg1⟩ := State.endShown_bothDropped (v := v) (module % 2) hleft4 (s.endShown_dropModule_same link (module % 2) left)
    obtain ⟨hup2, hmods2, hdeg2⟩ := State.endUp_of_endShown (State.endShown_vDropped (s := s) (link := link) (module % 2) hleft4)
    refine ⟨(s.dropModule link (module % 2) left).dropModule v (module % 2) left,
      by rw [exec_moduleFail, moduleFail_of_left hpeer hup hmod hleft hne], hmods1, hmods2, hdeg1, hdeg2, hup1.trans hup, hup2, ?_, ?_, ?_, ?_⟩
    · rw [State.module_dropModule hk hleft4 htx]
      split
      · rfl
      · rw [State.module_dropModule hk hleft4 htx, if_pos rfl]
    · rw [State.module_dropModule hk hleft4 htx, if_pos rfl]
    · exact State.regsBut_trans (s.regsBut_dropModule _ _ (by simp)) (State.regsBut_dropModule _ _ _ (by simp))
    · rw [State.dropModule_frame, State.dropModule_frame]
  case lastModule =>
    intro link module v s hpeer hup hmod hleft
    rw [exec_moduleFail, moduleFail_of_last hpeer hup hmod hleft]
  case down => exact fun link v s hpeer hup hv => State.linkDown_of_up hpeer hup hv
  case lost =>
    intro u s
    obtain ⟨hup, hmods, hseen⟩ := s.showsLost_endLost u
    exact ⟨hup, hmods, hseen, s.link_endLost u, s.retestAt_endLost u⟩
  case routes =>
    intro s
    refine ⟨_, exec_routeUpdate s, fun d hd => ?_, s.regsBut_syncTopo, s.syncTopo_frame⟩
    have hflags := State.linkFlags_syncTopo hd
    have hn : 0 < s.nDies := by omega
    simp only [State.linkFlags, Prod.mk.injEq, State.getD_hubUps hd, State.getD_ringUps hd,
      State.getD_ringUps (Nat.mod_lt (d + s.nDies - 1) hn)] at hflags
    obtain ⟨hhub, heast, hwest⟩ := hflags
    obtain ⟨hhubs, hrings⟩ := s.topo_syncTopo hd
    exact ⟨hhubs.trans (State.getD_hubUps hd), hrings.trans (State.getD_ringUps hd), hhub, heast, hwest⟩

end Sys2Proof.Machine
end

section
/-! Settles the obligation on flits and their replay (R28, R33, R34, R36). -/

namespace Sys2Proof.Machine

open Sys2Proof

theorem exec_flitReceive (link module : Nat) (flit : List Byte) (s : State) :
    exec (.flitReceive link module flit) s = .next (flitReceive link module flit s) := rfl
theorem exec_flitNakReplay (link module ackSeq : Nat) (s : State) :
    exec (.flitNakReplay link module ackSeq) s = .next (flitNakReplay link module ackSeq s) := rfl
theorem exec_linkAckTimeout (link module : Nat) (s : State) :
    exec (.linkAckTimeout link module) s = .next (linkAckTimeout link module s) := rfl

section Flits

variable {link module ackSeq v : Nat} {flit : List Byte} {ms : List Msg} {x : LinkModule} {f : Flit} {fs : List Flit} {s : State}
  (hpeer : s.peerEnd link = some v) (hup : s.endUp link = true)
  (hmod : bit (s.fld (Fld.HXL_STATUS_modules_up (linkBlk link))) (module % 2) = true)

include hpeer hup hmod

theorem flitReceive_of_bad (hbad : flit.length ≠ 256 ∨ (crc32c (flit.take 252)).toNat ≠ atOff flit 252 4) : flitReceive link module flit s =
    ((s.addFld (Fld.HXL_CRC_crc_errors (linkBlk link)) 1).send (.nak link ((s.link link).module (module % 2)).rxSeq)).logCorrected link 0 := by
  simp only [flitReceive, hpeer, hup, hmod, Option.isNone_some, Bool.not_true, Bool.or_self, Bool.false_eq_true, if_false, if_pos hbad]

section Good

variable (hlen : flit.length = 256) (hcrc : (crc32c (flit.take 252)).toNat = atOff flit 252 4) (hack : bit (atOff flit 2 2) 12 = false)
  (hup1 : (((s.ackModule link (module % 2) (atOff flit 2 2 % 4096)).drainOutbox link).endUp link) = true)

include hlen hcrc hack hup1

theorem flitReceive_of_messages (hx : (s.link link).module (module % 2) = x) (hcount : atOff flit 248 1 % 64 ≠ 0)
    (hseq : atOff flit 0 2 % 4096 = (x.rxSeq + 1) % 4096) (hms : flitMsgs flit = some ms) : flitReceive link module flit s =
    (forEach ms
      (((((s.ackModule link (module % 2) (atOff flit 2 2 % 4096)).drainOutbox link).takeCredits link flit).modLink link fun l =>
        l.setModule (module % 2) { l.module (module % 2) with rxSeq := (x.rxSeq + 1) % 4096 }).drainOutbox link)
      fun m t => t.deliver link m).sendAck link ((x.rxSeq + 1) % 4096) := by
  simp only [flitReceive, hpeer, hup, hmod, hlen, hcrc, hack, hup1, hx, hcount, hseq, hms, Option.isNone_some, Bool.not_true, Bool.or_self,
    Bool.false_eq_true, ne_eq, not_true_eq_false, or_self, if_false]

theorem flitReceive_of_empty (hcount : atOff flit 248 1 % 64 = 0) : flitReceive link module flit s =
    (((s.ackModule link (module % 2) (atOff flit 2 2 % 4096)).drainOutbox link).takeCredits link flit).drainOutbox link := by
  simp only [flitReceive, hpeer, hup, hmod, hlen, hcrc, hack, hup1, hcount, Option.isNone_some, Bool.not_true, Bool.or_self,
    Bool.false_eq_true, ne_eq, not_true_eq_false, or_self, if_false, if_true]

end Good

section Nak

variable (hx : ((s.ackModule link (module % 2) (ackSeq % 4096)).link link).module (module % 2) = x) (hretry : x.retry ≠ [])

include hx hretry

theorem flitNakReplay_of_few (hfew : x.replays < 7) : flitNakReplay link module ackSeq s =
    (((s.ackModule link (module % 2) (ackSeq % 4096)).modLink link fun l => l.setModule (module % 2) { x with
      replays := x.replays + 1, retry := x.retry.map fun f => { f with sentAt := s.tb } }).addFld
      (Fld.HXL_REPLAYS_replays (linkBlk link)) x.retry.length).drainOutbox link := by
  have hsome : x.retry.isEmpty = false := by simpa using hretry
  have hnot : ¬ 8 ≤ x.replays + 1 := by omega
  simp only [flitNakReplay, State.replay, hpeer, hup, hmod, hx, hsome, hnot, Bool.not_true, Bool.or_self, Bool.false_eq_true, if_false]

theorem flitNakReplay_of_many (hmany : 7 ≤ x.replays) :
    flitNakReplay link module ackSeq s = (s.ackModule link (module % 2) (ackSeq % 4096)).linkDown link := by
  have hsome : x.retry.isEmpty = false := by simpa using hretry
  have height : 8 ≤ x.replays + 1 := by omega
  simp only [flitNakReplay, State.replay, hpeer, hup, hmod, hx, hsome, height, Bool.not_true, Bool.or_self, Bool.false_eq_true, if_false,
    if_true]

end Nak

omit hup in
theorem linkAckTimeout_of_late (hretry : ((s.link link).module (module % 2)).retry = f :: fs)
    (hlate : s.passedUs (max f.sentAt ((s.link link).module (module % 2)).lastAck) 2 = true) :
    linkAckTimeout link module s = s.linkDown link := by
  simp only [linkAckTimeout, hpeer, hmod, hretry, hlate, Bool.not_true, Bool.false_eq_true, if_false, if_true]

end Flits

/-- Settles O12: each command by its branch. -/
theorem flitsAndReplay : Obligations.FlitsAndReplay := by
  unfold Obligations.FlitsAndReplay
  refine ⟨?bad, ?messages, ?empty, fun _ _ _ => rfl, ?few, ?many, ?timeout⟩
  case bad =>
    intro link module v flit s hpeer hup hmod hbad
    refine ⟨(s.addFld (Fld.HXL_CRC_crc_errors (linkBlk link)) 1).send (.nak link ((s.link link).module (module % 2)).rxSeq),
      by rw [exec_flitReceive, flitReceive_of_bad hpeer hup hmod hbad], ?_, rfl, ?_, rfl⟩
    · exact s.fld_addFld_same (f := Fld.HXL_CRC_crc_errors (linkBlk link)) 1 (show 0 + 32 ≤ 64 by decide)
    · exact s.regsBut_addFld (f := Fld.HXL_CRC_crc_errors (linkBlk link)) 1 (List.mem_singleton_self _)
  case messages =>
    intro link module v flit ms x s hpeer hup hmod hlen hcrc hack hx hup1 hcount hseq hms
    rw [exec_flitReceive, flitReceive_of_messages hpeer hup hmod hlen hcrc hack hup1 hx hcount hseq hms]
  case empty =>
    intro link module v flit s hpeer hup hmod hlen hcrc hack hup1 hcount
    rw [exec_flitReceive, flitReceive_of_empty hpeer hup hmod hlen hcrc hack hup1 hcount]
  case few =>
    intro link module ackSeq v x s hpeer hup hmod hx hretry hfew
    rw [exec_flitNakReplay, flitNakReplay_of_few hpeer hup hmod hx hretry hfew]
  case many =>
    intro link module ackSeq v x s hpeer hup hmod hx hretry hmany
    rw [exec_flitNakReplay, flitNakReplay_of_many hpeer hup hmod hx hretry hmany]
  case timeout =>
    intro link module v f fs s hpeer hmod hretry hlate
    rw [exec_linkAckTimeout, linkAckTimeout_of_late hpeer hmod hretry hlate]

end Sys2Proof.Machine
end

section
/-! Settles the obligation on accepted doorbell words (R60, R62, R66, R67, R92). -/

namespace Sys2Proof.Machine

open Sys2Proof

theorem exec_nudge (function client : Nat) (word : W32) (s : State) :
    exec (.nudge function client word) s = .next (nudge function client word s) := rfl
theorem exec_ringStart (function client : Nat) (word : W32) (s : State) :
    exec (.ringStart function client word) s = .next (ringStart function client word s) := rfl
theorem exec_ringStop (function client : Nat) (word : W32) (s : State) :
    exec (.ringStop function client word) s = .next (ringStop function client word s) := rfl
theorem exec_ringDrain (function client : Nat) (word : W32) (s : State) :
    exec (.ringDrain function client word) s = .next (ringDrain function client word s) := rfl

/-! ### Words that a doorbell accepts (R60, R61) -/

section Word

variable {s : State} {function client r op : Nat} {word : W32} {act : Nat → State → State}
  (hopen : s.doorbellOpen function client = true) (hatt : s.attached client = true) (hr : bits word.toNat 0 20 = r)
  (hring : s.ringOf client r = true)

include hopen hatt hr hring

theorem State.doorbell_of_accepted : s.doorbell function client word true act = act r s := by
  simp only [State.doorbell, hopen, hatt, hr, hring, Bool.not_true, Bool.false_eq_true, or_self, if_false]

theorem State.ringControl_of_accepted (hop : bits word.toNat 20 4 = op) (hz : bits word.toNat 24 8 = 0) :
    s.ringControl function client word op act = act r s := by
  unfold State.ringControl
  rw [hz, decide_eq_true rfl, State.doorbell_of_accepted hopen hatt hr hring, if_pos hop]

theorem nudge_of_accepts (hz : bits word.toNat 20 12 = 0) (hserving : s.serving = true) (haccepts : (s.ring r).accepts = true) :
    nudge function client word s = (s.wakeRing r).modRing r fun y => { y with reading := true } := by
  unfold nudge
  rw [hz, decide_eq_true rfl, State.doorbell_of_accepted hopen hatt hr hring]
  exact if_pos ⟨hserving, (Ring.accepts_iff _).mp haccepts⟩

theorem ringStart_of_start (hop : bits word.toNat 20 4 = 1) (hz : bits word.toNat 24 8 = 0) (hwake : s.isWakeRing client r = false)
    (hreb : s.rebuilding = false) : ringStart function client word s = s.startRing client r := by
  unfold ringStart
  rw [State.ringControl_of_accepted hopen hatt hr hring hop hz]
  simp only [hwake, hreb, Bool.false_eq_true, if_false]

theorem ringStart_of_started (hop : bits word.toNat 20 4 = 1) (hz : bits word.toNat 24 8 = 0) (hreb : s.rebuilding = false)
    (hstate : (s.ring r).accepts = true ∨ (s.ring r).state = .stopping) : ringStart function client word s = s := by
  have hstart : s.startRing client r = s := by
    refine if_pos ?_
    rw [Ring.accepts_iff, or_assoc] at hstate
    exact hstate
  unfold ringStart
  rw [State.ringControl_of_accepted hopen hatt hr hring hop hz]
  simp only [hreb, hstart, Bool.false_eq_true, if_false, ite_self]

theorem ringStop_of_stop (hop : bits word.toNat 20 4 = 2) (hz : bits word.toNat 24 8 = 0) :
    ringStop function client word s = s.stopRing r :=
  State.ringControl_of_accepted hopen hatt hr hring hop hz

theorem ringDrain_of_accepts (hop : bits word.toNat 20 4 = 3) (hz : bits word.toNat 24 8 = 0) (haccepts : (s.ring r).accepts = true) :
    ringDrain function client word s = (((s.endHeld r).modRing r fun y => { y with state := .stopping, checked := none }).writeHead r).settleRing r := by
  unfold ringDrain
  rw [State.ringControl_of_accepted hopen hatt hr hring hop hz]
  refine if_neg ?_
  rcases (Ring.accepts_iff _).mp haccepts with h | h <;> simp [h]

end Word

/-! ### What START, STOP and a nudge do to a ring (R66, R67, R92) -/

section Start

variable {s : State} {client r : Nat} (haccepts : (s.ring r).accepts = false) (hstop : (s.ring r).state ≠ .stopping)

include haccepts hstop

theorem State.startRing_of_idle : s.startRing client r =
    match s.cread client (s.fld (Fld.SCH_CLIENT_RCT_rct_base client) + (r - s.firstRing client) * 64) 64 with
    | .error _ => ((s.modRing r fun y => { y with client := client }).fetchHub
        (s.fld (Fld.SCH_CLIENT_RCT_rct_base client) + (r - s.firstRing client) * 64) 64).ringError r 3
    | .ok b =>
      if s.contextOk b then
        ((((s.modRing r fun y => { y with client := client }).fetchHub
            (s.fld (Fld.SCH_CLIENT_RCT_rct_base client) + (r - s.firstRing client) * 64) 64).modRing r fun y =>
          { y with
            stepBase := leNat (b.take 8), cplBase := leNat ((b.drop 8).take 8), dbAddr := leNat ((b.drop 16).take 8)
            headAddr := some (leNat ((b.drop 24).take 8)), log2 := leNat ((b.drop 32).take 1), irqMode := leNat ((b.drop 33).take 1)
            vector := leNat ((b.drop 34).take 2), state := .active, error := 0, lastUse := s.tb, checked := none }).limitActive).writeHead r
      else (((s.modRing r fun y => { y with client := client }).fetchHub
          (s.fld (Fld.SCH_CLIENT_RCT_rct_base client) + (r - s.firstRing client) * 64) 64).modRing r fun y =>
        { y with headAddr := s.contextHead b y.headAddr }).ringError r 1 := by
  have hidle : ¬((s.ring r).state = .active ∨ (s.ring r).state = .quiet ∨ (s.ring r).state = .stopping) := by
    rw [← or_assoc, ← Ring.accepts_iff, haccepts]
    simp [hstop]
  unfold State.startRing
  exact if_neg hidle

end Start

theorem State.stopRing_of_live {s : State} {r : Nat} (hd : (s.ring r).state ≠ .disabled) (hs : (s.ring r).state ≠ .stopped) :
    s.stopRing r =
      (((forEach ((((s.endHeld r).modRing r fun y => { y with state := .stopping, checked := none })).stepsOf r)
        ((s.endHeld r).modRing r fun y => { y with state := .stopping, checked := none }) fun st t =>
          if st.cmds.any Cmd.isTallied then t else t.decideStep r st.seq stCancelled 0 0xFF)).writeHead r).settleRing r :=
  if_neg (not_or.mpr ⟨hd, hs⟩)

theorem State.stopRing_of_stopped {s : State} {r : Nat} (h : (s.ring r).state = .stopped) : s.stopRing r = s := if_pos (.inr h)

theorem length_mapSet_le {α : Type} (m : NMap α) (k : Nat) (v : α) : (mapSet m k v).length ≤ m.length + 1 := by
  induction m with
  | nil => exact Nat.le_refl 1
  | cons p m ih =>
    obtain ⟨j, u⟩ := p
    unfold mapSet
    split
    · exact Nat.le_refl _
    · split
      · exact Nat.le_succ _
      · exact Nat.succ_le_succ ih

/-- With at most 2,048 rings none has to become QUIET. -/
theorem State.limitActive_of_few {s : State} (h : s.rings.length ≤ 2048) : s.limitActive = s :=
  if_neg (Nat.not_lt.mpr (Nat.le_trans (List.length_filter_le _ _) h))

theorem State.wakeRing_of_few {s : State} {r : Nat} (haccepts : (s.ring r).accepts = true) (hfew : s.rings.length < 2048) :
    s.wakeRing r = s.modRing r fun x => { x with state := .active, lastUse := s.tb } := by
  have hstate : (if (s.ring r).state = .quiet then RingState.active else (s.ring r).state) = .active := by
    rcases (Ring.accepts_iff _).mp haccepts with h | h <;> simp [h]
  unfold State.wakeRing
  rw [State.limitActive_of_few (Nat.le_trans (length_mapSet_le _ _ _) hfew)]
  simp only [State.modRing, hstate]

/-- Settles O15: each word by its branch. -/
theorem doorbellsAreServed : Obligations.DoorbellsAreServed := by
  unfold Obligations.DoorbellsAreServed
  refine ⟨?nudge, fun r s => State.wakeRing_of_few, ?start, ?badContext, ?noContext, ?started, ?stop, ?stopped, ?drain⟩
  case nudge =>
    intro function client word r s hopen hatt hr hring hz hserving haccepts
    rw [exec_nudge, nudge_of_accepts hopen hatt hr hring hz hserving haccepts]
  case start =>
    intro function client word r b s hopen hatt hr hring hop hz hwake hreb haccepts hstop hread hok
    rw [exec_ringStart, ringStart_of_start hopen hatt hr hring hop hz hwake hreb, State.startRing_of_idle haccepts hstop, hread]
    simp only [hok, if_true]
  case badContext =>
    intro function client word r b s hopen hatt hr hring hop hz hwake hreb haccepts hstop hread hbad
    rw [exec_ringStart, ringStart_of_start hopen hatt hr hring hop hz hwake hreb, State.startRing_of_idle haccepts hstop, hread]
    simp only [hbad, Bool.false_eq_true, if_false]
  case noContext =>
    intro function client word r d s hopen hatt hr hring hop hz hwake hreb haccepts hstop hread
    rw [exec_ringStart, ringStart_of_start hopen hatt hr hring hop hz hwake hreb, State.startRing_of_idle haccepts hstop, hread]
  case started =>
    intro function client word r s hopen hatt hr hring hop hz hreb hstate
    rw [exec_ringStart, ringStart_of_started hopen hatt hr hring hop hz hreb hstate]
  case stop =>
    intro function client word r s hopen hatt hr hring hop hz hd hs
    rw [exec_ringStop, ringStop_of_stop hopen hatt hr hring hop hz, State.stopRing_of_live hd hs]
  case stopped =>
    intro function client word r s hopen hatt hr hring hop hz hstopped
    rw [exec_ringStop, ringStop_of_stop hopen hatt hr hring hop hz, State.stopRing_of_stopped hstopped]
  case drain =>
    intro function client word r s hopen hatt hr hring hop hz haccepts
    rw [exec_ringDrain, ringDrain_of_accepts hopen hatt hr hring hop hz haccepts]

end Sys2Proof.Machine
end

section
/-! Settles the obligation on placing, killing and bouncing a command at its die (R85, R88 to R90, R103, R115). -/

namespace Sys2Proof.Machine

open Sys2Proof

theorem exec_dispatchPlace (die : Nat) (m : Dispatch) (s : State) : exec (.dispatchPlace die m) s = .next (dispatchPlace die m s) := rfl
theorem exec_dispatchKill (die : Nat) (m : Dispatch) (s : State) : exec (.dispatchKill die m) s = .next (dispatchKill die m s) := rfl
theorem exec_bounce (die : Nat) (m : Dispatch) (s : State) : exec (.bounce die m) s = .next (bounce die m s) := rfl
theorem exec_epochNotice (unit epoch : Nat) (s : State) : exec (.epochNotice unit epoch) s = .next (epochNotice unit epoch s) := rfl
theorem exec_epochDeferredAdvance (unit : Nat) (s : State) :
    exec (.epochDeferredAdvance unit) s = .next (epochDeferredAdvance unit s) := rfl

/-! ### PLACE and KILL at the die (R85, R88) -/

theorem State.bounceReason_eq (s : State) (die : Nat) (m : Dispatch) : s.bounceReason die m =
    if s.logicUp die = false then some 3
    else if m.headerEpoch ≠ s.epoch (dieUnit die) ∨ s.epochPending (dieUnit die) = true then some 0 else none := by
  simp only [State.bounceReason, Bool.not_eq_true']

section Die

variable {s : State} {die reason at_ e : Nat} {m : Dispatch} {st : Step} {c : Cmd} {ns : List Nat} {r : Run}

theorem dispatchPlace_of_barred (h : s.bounceReason die m = some reason) : dispatchPlace die m s = s.sendBounce die m reason := by
  simp only [dispatchPlace, h]

theorem dispatchKill_of_barred (h : s.bounceReason die m = some reason) : dispatchKill die m s = s.sendBounce die m reason := by
  simp only [dispatchKill, h]

section Place

variable (hst : s.step? m.ring m.seq = some st) (hc : st.cmd? m.index = some c) (hfree : s.bounceReason die m = none)

include hst hc hfree

theorem dispatchPlace_of_noEngines (heng : s.takeEngines die m st.client c = none) : dispatchPlace die m s = s.sendBounce die m 1 := by
  simp only [dispatchPlace, State.takePlace, hfree, hst, hc, Option.getD_some, heng]

theorem dispatchPlace_of_noEntry (heng : s.takeEngines die m st.client c = some ns) (hentry : s.freeEntry die = none) :
    dispatchPlace die m s = s.sendBounce die m 2 := by
  simp only [dispatchPlace, State.takePlace, hfree, hst, hc, Option.getD_some, heng, hentry]

theorem dispatchPlace_of_room (hplaced : c.state = .placed die at_) (heng : s.takeEngines die m st.client c = some ns)
    (hentry : s.freeEntry die = some e) : dispatchPlace die m s = (s.startRun die m st.client e c ns).noteRoom := by
  simp only [dispatchPlace, State.takePlace, hfree, hst, hc, Option.getD_some, heng, hentry, hplaced, if_true]

end Place

theorem dispatchKill_of_run (hfree : s.bounceReason die m = none) (hrun : s.runOf? m.ring m.seq m.index = some r) (hdie : r.die = die)
    (hsent : r.tallySent = false) : dispatchKill die m s = (s.takeKill r).noteRoom := by
  simp only [dispatchKill, hfree, hrun, hdie, hsent, Bool.not_false, and_self, if_true]

theorem State.takeKill_of_kept (h : r.preempted = false) : s.takeKill r = (s.killRun r).refreshReady := by
  simp only [State.takeKill, h, Bool.false_eq_true, if_false]

theorem State.takeKill_of_preempted (h : r.preempted = true) : s.takeKill r = ((s.killRun r).acct r.client acPreemptions 1).refreshReady := by
  simp only [State.takeKill, h, if_true]

end Die

/-- The run that a PLACE starts. -/
def State.newRun (s : State) (d : Nat) (m : Dispatch) (cl entry : Nat) (c : Cmd) (ns : List Nat) : Run :=
  { die := d, entry := entry, kind := m.kind, width := m.width
    engs := ns.map fun n => { unit := engineUnit m.kind n }
    ring := m.ring, seq := m.seq, index := m.index, client := cl, cmd := c, tallyEpoch := m.tallyEpoch
    epoch0 := s.epoch (unitOf d (engineUnit m.kind (ns.getD 0 0)))
    start := s.tb, segStart := c.segStart, segShare := c.segShare }

/-- Without a residency to resume, the run joins the runs. -/
theorem State.runs_startRun {s : State} {d e cl : Nat} {m : Dispatch} {c : Cmd} {ns : List Nat} (h : s.liveResidency cl c = none) :
    (s.startRun d m cl e c ns).runs = s.runs ++ [s.newRun d m cl e c ns] := by
  unfold State.startRun
  extract_lets live run mask s0 s1
  have hruns : s0.runs = s.runs := by
    obtain ⟨heq, -⟩ := s.onlyLogs_packet 0x11 unitSched cl (seqRing m.seq m.ring ++ leBytes m.index 1 ++ leBytes d 1 ++ leBytes mask 2 ++
      leBytes run.epoch0 2 ++ leBytes (s.epoch (dieUnit d)) 2)
    unfold s0
    rw [heq]
  have hlive : live = none := h
  rw [hlive]
  show s0.runs ++ [run] = _
  rw [hruns]
  rfl

/-! ### BOUNCE (R89, R103) -/

/-- The state in which the scheduler has taken a die's epoch from a BOUNCE. -/
def State.learned (s : State) (die : Nat) (m : Dispatch) : State := { s with known := mapSet s.known (dieUnit die) (m.curEpoch % 65536) }

section Bounce

variable {s : State} {die at_ : Nat} {m : Dispatch} {st : Step} {c : Cmd} {r : Run} (hst : s.step? m.ring m.seq = some st)
  (hc : st.cmd? m.index = some c)

include hst hc

theorem bounce_of_placed (hplaced : c.state = .placed die at_) (hop : m.op = 0) (hopen : st.status = none) : bounce die m s =
    (((((s.learned die m).acct st.client acBounces 1).modCmd m.ring m.seq m.index fun k =>
      { k with state := .waiting, readySince := some at_ }).refreshReady)).noteRoom := by
  have hst' : (s.learned die m).step? m.ring m.seq = some st := hst
  unfold bounce
  extract_lets s0
  simp only [show s0 = s.learned die m from rfl, hst', hc, hplaced, hop, hopen, and_self, if_true, Option.isSome_none, Bool.false_eq_true, if_false]

theorem bounce_of_running (hrunning : c.state = .running die)
    (hrun : ((s.learned die m).acct st.client acBounces 1).runOf? m.ring m.seq m.index = some r) : bounce die m s =
    if m.op = 2 then ((s.learned die m).acct st.client acBounces 1).tallyAgain r
    else ((s.learned die m).acct st.client acBounces 1).killAgain r := by
  have hst' : (s.learned die m).step? m.ring m.seq = some st := hst
  unfold bounce
  extract_lets s0
  simp only [show s0 = s.learned die m from rfl, hst', hc, hrunning, hrun, ne_eq, not_true_eq_false, if_false]

end Bounce

/-! ### Epochs (R88, R90) -/

theorem epochNotice_of_noTally {s : State} (unit epoch : Nat) (h : s.runs.any (·.tallySent) = false) :
    epochNotice unit epoch s = { s with known := mapSet s.known unit (epoch % 65536) } := by
  unfold epochNotice State.replayStale
  have hnone : (s.runs.filter fun r => decide (dieUnit r.die = unit) && r.tallySent &&
      decide (r.tallyEpoch ≠ State.knownEpoch { s with known := mapSet s.known unit (epoch % 65536) } unit)) = [] := by
    rw [List.filter_eq_nil_iff]
    intro r hr
    have := List.any_eq_false.mp h r hr
    simp only [this, Bool.and_false, Bool.false_and, Bool.false_eq_true, not_false_eq_true]
  exact congrArg (fun rs => forEach rs _ _) hnone

theorem epochDeferredAdvance_of_due {s : State} {unit : Nat} (hdef : 0 < (s.unit unit).deferred) (hlate : s.advancedLately unit = false) :
    epochDeferredAdvance unit s = (s.modUnit unit fun x => { x with deferred := x.deferred - 1 }).stepEpoch unit :=
  if_pos ⟨hdef, by simp [hlate]⟩

/-- Settles O19: each message by its branch. -/
theorem dispatchAndBounce : Obligations.DispatchAndBounce := by
  unfold Obligations.DispatchAndBounce
  refine ⟨?barred, fun die m s => s.bounceReason_eq die m, ?noEngines, ?noEntry, ?room, ?run, ?kill, ?killed, ?placed, ?running, ?notice,
    ?deferred⟩
  case barred =>
    intro die reason m s h
    exact ⟨by rw [exec_dispatchPlace, dispatchPlace_of_barred h], by rw [exec_dispatchKill, dispatchKill_of_barred h]⟩
  case noEngines =>
    intro die at_ m st c s hst hc _ hfree heng
    rw [exec_dispatchPlace, dispatchPlace_of_noEngines hst hc hfree heng]
  case noEntry =>
    intro die at_ m st c ns s hst hc _ hfree heng hentry
    rw [exec_dispatchPlace, dispatchPlace_of_noEntry hst hc hfree heng hentry]
  case room =>
    intro die at_ e m st c ns s hst hc hplaced hfree heng hentry
    rw [exec_dispatchPlace, dispatchPlace_of_room hst hc hfree hplaced heng hentry]
  case run =>
    intro d e cl m c ns s hlive
    exact ⟨s.newRun d m cl e c ns, State.runs_startRun hlive, rfl, rfl, rfl, rfl, rfl, rfl, rfl, rfl, rfl, rfl, rfl⟩
  case kill =>
    intro die m r s hfree hrun hdie hsent
    rw [exec_dispatchKill, dispatchKill_of_run hfree hrun hdie hsent]
  case killed => exact fun r s => ⟨State.takeKill_of_kept, State.takeKill_of_preempted⟩
  case placed =>
    intro die at_ m st c s hst hc hplaced hop hopen
    rw [exec_bounce, bounce_of_placed hst hc hplaced hop hopen]
    rfl
  case running =>
    rintro die m st c r a s hst hc hrunning rfl hrun
    rw [exec_bounce, bounce_of_running hst hc hrunning hrun]
    exact ⟨fun hop => by rw [if_pos hop]; rfl, fun hop => by rw [if_neg hop]; rfl⟩
  case notice =>
    intro unit epoch s h
    refine ⟨_, by rw [exec_epochNotice, epochNotice_of_noTally unit epoch h], ?_, fun u hu => ?_, rfl⟩
    · exact mapGet_mapSet_same _ _ _ _
    · exact mapGet_mapSet_other _ _ _ hu
  case deferred =>
    intro unit s hdef hlate
    rw [exec_epochDeferredAdvance, epochDeferredAdvance_of_due hdef hlate]

end Sys2Proof.Machine
end

section
/-! Settles the obligation on finished commands and their TALLY (R103 to R106, R118). -/

namespace Sys2Proof.Machine

open Sys2Proof

theorem exec_commandFinish (die entry energyNj : Nat) (s : State) :
    exec (.commandFinish die entry energyNj) s = .next (commandFinish die entry energyNj s) := rfl
theorem exec_tally (m : TallyMsg) (s : State) : exec (.tally m) s = .next (tally m s) := rfl
theorem exec_tallyDequeue (s : State) : exec .tallyDequeue s = .next (tallyDequeue s) := rfl
theorem exec_vtimeTick (die entry : Nat) (s : State) : exec (.vtimeTick die entry) s = .next (vtimeTick die entry s) := rfl

theorem commandFinish_of_finished {s : State} {die entry : Nat} {r : Run} (energyNj : Nat) (hrun : s.run? die entry = some r)
    (hfin : r.finished = true) : commandFinish die entry energyNj s =
    (forEach r.engs
      (((((((s.chargeRun r).endCycles r).cmdEnd r 0 0).freeRunBufs die entry false).modRun die entry fun x =>
        { x with tallySent := true, endedAt := s.tb }).modRun die entry fun x => { x with tallyMsg := some (s.tallyOf r energyNj) }).send
          (.tally (s.tallyOf r energyNj) (tallyData (s.tallyOf r energyNj))))
      fun e t => t.settleDisable die e.unit).noteRoom := by
  simp only [commandFinish, hrun, hfin, if_true]

theorem vtimeTick_of_unsent {s : State} {die entry : Nat} {r : Run} (hrun : s.run? die entry = some r) (hsent : r.tallySent = false) :
    vtimeTick die entry s =
      forEach ((s.chargeRun r).residencies.filter fun x => decide (x.die = die)) (s.chargeRun r) fun x t => t.chargeParked x := by
  simp only [vtimeTick, hrun, hsent, Bool.false_eq_true, if_false]

/-! ### A TALLY at the tally unit (R88, R104) -/

section Tally

variable {s : State} {m : TallyMsg} {rest : List TallyMsg} (hdamp : s.saf.damped = false)

include hdamp

theorem tally_of_stale (hepoch : m.headerEpoch ≠ s.epoch unitTally) :
    tally m s = ({ s with journal := s.journalUsed } : State).send (.tallyBounce m) := by
  unfold tally
  extract_lets s0
  rw [if_neg (by simp [hdamp]), if_pos (.inl hepoch)]

section Current

variable (hepoch : m.headerEpoch = s.epoch unitTally) (hpending : s.epochPending unitTally = false)

include hepoch hpending

theorem tally_of_full (hfull : 64 ≤ s.journalUsed.length ∨ s.tallyQueue ≠ []) :
    tally m s = { s with journal := s.journalUsed, tallyQueue := s.tallyQueue ++ [m] } := by
  unfold tally
  extract_lets s0
  rw [if_neg (by simp [hdamp]), if_neg (by simp [hepoch, hpending]), if_pos (hfull.imp id (by simp [s0]))]

theorem tally_of_room (hroom : s.journalUsed.length < 64) (hempty : s.tallyQueue = []) :
    tally m s = (({ s with journal := s.journalUsed } : State).dropLate m).handleTally m := by
  unfold tally
  extract_lets s0
  rw [if_neg (by simp [hdamp]), if_neg (by simp [hepoch, hpending]), if_neg]
  simp only [s0, hempty, List.isEmpty_nil, Bool.not_true, Bool.false_eq_true, or_false, Nat.not_le]
  exact hroom

end Current

theorem tallyDequeue_of_room (hqueue : s.tallyQueue = m :: rest) (hroom : s.journalUsed.length < 64) :
    tallyDequeue s = (({ s with journal := s.journalUsed, tallyQueue := rest } : State).dropLate m).handleTally m := by
  have hfree : ¬(64 ≤ s.journalUsed.length ∨ s.saf.damped = true) := by
    rw [hdamp]
    simp only [Bool.false_eq_true, or_false, Nat.not_le]
    exact hroom
  simp only [tallyDequeue, hqueue, if_neg hfree]

end Tally

section Handle

variable {s : State} {m : TallyMsg} {st : Step} {c : Cmd}

theorem State.handleTally_of_released (h : s.step? m.ring m.seq = none) : s.handleTally m = s.send (.tallyAck m.seq m.ring m.index) := by
  simp only [State.handleTally, h]

section Known

variable (hst : s.step? m.ring m.seq = some st) (hc : st.cmd? m.index = some c)

include hst hc

theorem State.handleTally_of_tallied (h : c.isTallied = true) : s.handleTally m = s.send (.tallyAck m.seq m.ring m.index) := by
  simp only [State.handleTally, hst, hc, h, if_true]

theorem State.handleTally_of_stale (h : c.isTallied = false) (hepoch : m.tallyEpoch ≠ s.knownEpoch (dieUnit m.die)) :
    s.handleTally m = s.staleTally m := by
  simp only [State.handleTally, hst, hc, h, Bool.false_eq_true, if_false, if_pos hepoch]

theorem State.handleTally_of_current (h : c.isTallied = false) (hepoch : m.tallyEpoch = s.knownEpoch (dieUnit m.die)) :
    s.handleTally m = s.performTally st c m := by
  simp only [State.handleTally, hst, hc, h, Bool.false_eq_true, if_false, hepoch, ne_eq, not_true_eq_false]

end Known

theorem State.performTally_of_error {d : Nat} (h : s.readPubs st c = .error d) : s.performTally st c m =
    match s.runOf? m.ring m.seq m.index with
    | some r => s.failFinal r unitTally d
    | none => s.decideStep m.ring m.seq (statusOf d) d m.index := by
  unfold State.performTally
  rw [h] <;> rfl

end Handle

/-- Settles O20: each message by its branch. -/
theorem commandsFinishAndTally : Obligations.CommandsFinishAndTally := by
  unfold Obligations.CommandsFinishAndTally
  refine ⟨?finish, ?stale, ?full, ?room, ?dequeue, fun m s => State.handleTally_of_released, ?handle,
    fun m st c d s => State.performTally_of_error, ?tick⟩
  case finish =>
    intro die entry energyNj r s hrun hfin
    rw [exec_commandFinish, commandFinish_of_finished energyNj hrun hfin]
  case stale =>
    intro m s hdamp hepoch
    rw [exec_tally, tally_of_stale hdamp hepoch]
  case full =>
    intro m s hdamp hepoch hpending hfull
    rw [exec_tally, tally_of_full hdamp hepoch hpending hfull]
  case room =>
    intro m s hdamp hepoch hpending hroom hempty
    rw [exec_tally, tally_of_room hdamp hepoch hpending hroom hempty]
  case dequeue =>
    intro m rest s hdamp hqueue hroom
    rw [exec_tallyDequeue, tallyDequeue_of_room hdamp hqueue hroom]
  case handle =>
    exact fun m st c s hst hc => ⟨State.handleTally_of_tallied hst hc, State.handleTally_of_stale hst hc, State.handleTally_of_current hst hc⟩
  case tick =>
    intro die entry r s hrun hsent
    rw [exec_vtimeTick, vtimeTick_of_unsent hrun hsent]

end Sys2Proof.Machine
end

section
/-! Settles the obligation on placement and pre-emption (R109 to R116, R472). -/

namespace Sys2Proof.Machine

open Sys2Proof

theorem exec_placement (s : State) : exec .placement s = .next (placement s) := rfl
theorem exec_preemptFair (s : State) : exec .preemptFair s = .next (preemptFair s) := rfl
theorem exec_preemptSafety (s : State) : exec .preemptSafety s = .next (preemptSafety s) := rfl
theorem exec_powerModelScale (die modelledNj measuredNj : Nat) (s : State) :
    exec (.powerModelScale die modelledNj measuredNj) s = .next (powerModelScale die modelledNj measuredNj s) := rfl

/-! ### Placement (R109 to R111) -/

section Placement

variable {s : State} {r : Ready} {d : Nat}

theorem placement_of_serving (h : s.serving = true) :
    placement s = (({ s.adoptShares with oldPreempt := none } : State).placeNext).noteRoom := if_pos h

theorem State.placeNext_of_noEngine (h : (s.readyCmds.find? fun r => s.noEngine r.client r.cmd) = some r) :
    s.placeNext = s.refuseNoEngine r := by
  simp only [State.placeNext, h]

variable (hall : (s.readyCmds.find? fun r => s.noEngine r.client r.cmd) = none)

include hall

theorem State.placeNext_of_choice (h : s.nextPlacement = some (r, d)) : s.placeNext = s.place1 r d := by
  simp only [State.placeNext, hall, h]

theorem State.placeNext_of_none (h : s.nextPlacement = none) : s.placeNext = s := by
  simp only [State.placeNext, hall, h]

end Placement

/-- A command placed is dispatched to its die. -/
theorem State.place1_dispatches (s : State) (r : Ready) (d : Nat) :
    ∃ (m : Dispatch) (t : State), s.place1 r d = t.sendDispatch d m ∧ m.ring = r.ring ∧ m.seq = r.seq ∧ m.index = r.cmd.index ∧ m.op = 0 ∧
      m.kind = r.cmd.kind ∧ m.width = s.widthNow r.cmd ∧ m.cmdAddr = r.cmd.addr ∧ m.headerEpoch = s.knownEpoch (dieUnit d) ∧
      m.tallyEpoch = s.knownEpoch (dieUnit d) ∧ m.avoid = avoidMask d (s.avoidNow r.cmd) := by
  unfold State.place1
  extract_lets w e st m s0 s1 s2 s3
  exact ⟨m, s3, rfl, rfl, rfl, rfl, rfl, rfl, rfl, rfl, rfl, rfl, rfl⟩

/-! ### Pre-emption (R112 to R116) -/

section Preempt

variable {s : State} {x : Residency} {vs : List Run}

section Fair

variable (hserving : s.serving = true) (hon : s.flag Fld.SCH_PREEMPT_enable = true)

include hserving hon

theorem preemptFair_of_parked (h : s.readyCmds.findSome? s.parkedVictim = some x) : preemptFair s = s.endResidency x true := by
  simp only [preemptFair, hserving, hon, and_self, if_true, h]

theorem preemptFair_of_plan (hnone : s.readyCmds.findSome? s.parkedVictim = none) (h : s.readyCmds.findSome? s.fairPlan = some vs) :
    preemptFair s = forEach vs s fun r t => t.preempt r := by
  simp only [preemptFair, hserving, hon, and_self, if_true, hnone, h]

end Fair

theorem preemptSafety_of_plan (hserving : s.serving = true) (h : s.noteRoom.readyCmds.findSome? s.noteRoom.safetyPlan = some vs) :
    preemptSafety s = forEach vs s.noteRoom fun r t => t.preempt r := by
  simp only [preemptSafety, hserving, if_true, h]

theorem State.preempt_of_run {r y : Run} (hrun : s.run? r.die r.entry = some y) (hkill : y.killSent = false) (htally : y.tallySent = false) :
    s.preempt r = (s.sendDispatch y.die (s.killMsg y)).modRun y.die y.entry fun z => { z with killSent := true, preempted := true } := by
  simp only [State.preempt, State.schedKill, hrun, hkill, htally, Bool.or_self, Bool.false_eq_true, if_false]

end Preempt

/-! ### The power model (R472) -/

theorem State.measured_setFld_frame (s : State) (m : NMap (Nat × Nat)) (f : Fld) (v : Nat) :
    ({ s with measured := m } : State).setFld f v =
      { s with regs := (({ s with measured := m } : State).setFld f v).regs, measured := (({ s with measured := m } : State).setFld f v).measured } := rfl

theorem powerModelScale_of_fitted {s : State} {die : Nat} (modelledNj measuredNj : Nat) (h : s.fitted die = true) :
    powerModelScale die modelledNj measuredNj s =
      ({ s with measured := mapSet s.measured die (modelledNj, measuredNj) } : State).setFld (Fld.CPC_POWER_die_mw die)
        (min (measuredNj / 1000) (2 ^ 32 - 1)) := if_pos h

/-- Settles O21: each command by its branch. -/
theorem placementAndPreemption : Obligations.PlacementAndPreemption := by
  unfold Obligations.PlacementAndPreemption
  refine ⟨?refuse, ?place, ?nothing, fun r d s => s.place1_dispatches r d, ?parked, ?fair, ?safety, fun r x s => State.preempt_of_run, ?scale⟩
  case refuse =>
    rintro r a s hserving rfl h
    rw [exec_placement, placement_of_serving hserving, State.placeNext_of_noEngine h]
  case place =>
    rintro r d a s hserving rfl hall h
    rw [exec_placement, placement_of_serving hserving, State.placeNext_of_choice hall h]
  case nothing =>
    rintro a s hserving rfl hall h
    rw [exec_placement, placement_of_serving hserving, State.placeNext_of_none hall h]
  case parked =>
    intro x s hserving hon h
    rw [exec_preemptFair, preemptFair_of_parked hserving hon h]
  case fair =>
    intro vs s hserving hon hnone h
    rw [exec_preemptFair, preemptFair_of_plan hserving hon hnone h]
  case safety =>
    intro vs s hserving h
    rw [exec_preemptSafety, preemptSafety_of_plan hserving h]
  case scale =>
    intro die modelledNj measuredNj s hfit
    refine ⟨({ s with measured := mapSet s.measured die (modelledNj, measuredNj) } : State).setFld (Fld.CPC_POWER_die_mw die)
        (min (measuredNj / 1000) (2 ^ 32 - 1)), by rw [exec_powerModelScale, powerModelScale_of_fitted modelledNj measuredNj hfit], ?_, ?_, ?_,
      State.measured_setFld_frame s _ _ _⟩
    · rw [State.setFld_measured]
      exact mapGet_mapSet_same _ _ _ _
    · rw [State.fld_setFld_same _ (f := Fld.CPC_POWER_die_mw die) _ (show 0 + 32 ≤ 64 by decide)]
      exact Nat.mod_eq_of_lt (Nat.lt_of_le_of_lt (Nat.min_le_right _ _) (show 2 ^ 32 - 1 < 2 ^ 32 by decide))
    · exact State.regsBut_setFld _ _ (List.mem_singleton_self _)

end Sys2Proof.Machine
end

section
/-! Settles the obligation on self-tests of engines and on the exclusive windows (R119, R120, R403). -/

namespace Sys2Proof.Machine

open Sys2Proof

theorem exec_selftestStart (unit : Nat) (s : State) : exec (.selftestStart unit) s = .next (selftestStart unit s) := rfl
theorem exec_selftestForce (unit : Nat) (s : State) : exec (.selftestForce unit) s = .next (selftestForce unit s) := rfl
theorem exec_selftestEnd (unit : Nat) (pass : Bool) (s : State) : exec (.selftestEnd unit pass) s = .next (selftestEnd unit pass s) := rfl
theorem exec_exclWrite (value : W32) (s : State) : exec (.exclWrite value) s = .next (exclWrite value s) := rfl

section Tests

variable {s : State} {unit kind n t0 : Nat} {x : Residency} {r : Run}

section Engine

variable (heng : engineOf (unit / 4096) (unit % 4096) = some (kind, n)) (hmay : s.mayTest (unit / 4096) (unit % 4096) kind n = true)

include heng hmay

theorem selftestStart_of_parked (hparked : s.parkedOn (unit / 4096) kind n = some x) (hback : s.calledBack x = false) :
    selftestStart unit s = ((s.endResidency x true).startTest unit).noteRoom := by
  simp only [selftestStart, heng, hmay, if_true, hparked, hback, Bool.false_eq_true, if_false]

theorem selftestStart_of_free (hparked : s.parkedOn (unit / 4096) kind n = none) (hfree : s.engineFree (unit / 4096) kind n = true) :
    selftestStart unit s = (s.startTest unit).noteRoom := by
  simp only [selftestStart, heng, hmay, if_true, hparked, hfree]

theorem selftestForce_of_busy (hlatest : s.latestStart unit ≤ s.tb) (hrun : s.runOn? (unit / 4096) (unit % 4096) = some r) :
    selftestForce unit s = (s.preempt r).setFlag Fld.SCH_STATUS_selftest_forced true := by
  simp only [selftestForce, heng, hmay, hlatest, and_self, if_true, hrun]

end Engine

theorem selftestEnd_of_testing (pass : Bool) (htest : (s.unit unit).testing = some t0) : selftestEnd unit pass s =
    if pass then (((forEach (withGate (unit / 4096) (unit % 4096)) s fun u t => t.countTest (unit / 4096) u).modUnit unit fun x =>
        { x with testing := none }).advanceEpoch unit).noteRoom
    else ((((forEach (withGate (unit / 4096) (unit % 4096)) s fun u t => t.countTest (unit / 4096) u).modUnit unit fun x =>
        { x with testing := none }).advanceEpoch unit).takeOutEngine (unit / 4096) (unit % 4096) 0).noteRoom := by
  simp only [selftestEnd, htest]

end Tests

/-! ### The exclusive windows (R119) -/

/-- The state in which the selected client's window register holds what is written. -/
def State.exclStored (s : State) (value : W32) : State :=
  s.setReg (Fld.SCH_CLIENT_EXCL_excl_period_ms s.selected).key (value.toNat % 2 ^ 28)

/-- Why a write of the window register is turned away. -/
def State.exclBad (s : State) (value : W32) : Prop :=
  s.fld (Fld.SCH_CLIENT_CLASS_class s.selected) ≠ 0 ∨ bits value.toNat 0 10 < 2 * bits value.toNat 10 8 ∨
    200 < longestStretch (s.exclStored value).windows (2 * hyperPeriod (s.exclStored value).windows) 0 0 0

/-- The bits that the register does not keep do not count. -/
theorem exclWrite_cond (s : State) (value : W32) :
    (s.fld (Fld.SCH_CLIENT_CLASS_class s.selected) ≠ 0 ∨ bits (value.toNat % 2 ^ 28) 0 10 < 2 * bits (value.toNat % 2 ^ 28) 10 8 ∨
      200 < longestStretch (s.exclStored value).windows (2 * hyperPeriod (s.exclStored value).windows) 0 0 0) ↔ s.exclBad value := by
  rw [bits_mod _ (show 0 + 10 ≤ 28 by decide), bits_mod _ (show 10 + 8 ≤ 28 by decide)]
  exact Iff.rfl

theorem exclWrite_of_bad {s : State} {value : W32} (h : s.exclBad value) : exclWrite value s = s.setFlag Fld.SCH_STATUS_excl_error true :=
  if_pos ((exclWrite_cond s value).mpr h)

theorem exclWrite_of_good {s : State} {value : W32} (h : ¬s.exclBad value) : exclWrite value s = s.exclStored value :=
  if_neg (mt (exclWrite_cond s value).mp h)

/-- Settles O22: each command by its branch. -/
theorem selfTestsAndExclusiveWindows : Obligations.SelfTestsAndExclusiveWindows := by
  unfold Obligations.SelfTestsAndExclusiveWindows
  refine ⟨?parked, ?free, ?busy, ?testEnd, ?window⟩
  case parked =>
    intro unit kind n x s heng hmay hparked hback
    rw [exec_selftestStart, selftestStart_of_parked heng hmay hparked hback]
  case free =>
    intro unit kind n s heng hmay hparked hfree
    rw [exec_selftestStart, selftestStart_of_free heng hmay hparked hfree]
  case busy =>
    intro unit kind n r s heng hmay hlatest hrun
    rw [exec_selftestForce, selftestForce_of_busy heng hmay hlatest hrun]
  case testEnd =>
    intro unit t0 s htest
    exact ⟨by rw [exec_selftestEnd, selftestEnd_of_testing true htest, if_pos rfl],
      by rw [exec_selftestEnd, selftestEnd_of_testing false htest, if_neg Bool.false_ne_true]⟩
  case window =>
    intro value s
    exact ⟨fun h => by rw [exec_exclWrite, exclWrite_of_bad h], fun h => by rw [exec_exclWrite, exclWrite_of_good h]; rfl⟩

end Sys2Proof.Machine
end

section
/-! Settles the obligation on Hearth buffers (R309 to R313). -/

namespace Sys2Proof.Machine

open Sys2Proof

theorem exec_alloc (e : Eng) (w : W128) (s : State) : exec (.alloc e w) s = .next (alloc e w s) := rfl
theorem exec_free (e : Eng) (w : W128) (s : State) : exec (.free e w) s = .next (free e w s) := rfl
theorem exec_allocWaitGrant (die : Nat) (s : State) : exec (.allocWaitGrant die) s = .next (allocWaitGrant die s) := rfl
theorem exec_allocZeroDone (die entry : Nat) (s : State) : exec (.allocZeroDone die entry) s = .next (allocZeroDone die entry s) := rfl

/-- The first engine performs an instruction that a command performs once. -/
theorem State.once_of_first {s : State} {e : Eng} (w : W128) (op : Nat) (f : Ctx → State → State × Option Nat) (h : e.pos = 0) :
    s.once e w op f = s.instr e w op f := if_pos h

/-! ### ALLOC (R309 to R311) -/

section Alloc

variable {e : Eng} {w : W128} {size off k : Nat} {c : Ctx} {t : State} (hkind : c.r.kind ≠ 6) (h4 : bits (wbyte w 1) 4 4 = 0)
  (h2 : bits (wbyte w 2) 2 6 = 0) (hz3 : wzero w 3 3 = true) (hsize : wword w 4 = size) (h1 : 1 ≤ size) (hmax : size ≤ 32768)
  (hoff : wword w 6 = off) (hoffmax : off ≤ 32767) (hz8 : wzero w 8 15 = true)
  (hempty : mapFind c.r.hregs (bits (wbyte w 1) 0 4) = none)

include hkind h4 h2 hz3 hsize h1 hmax hoff hoffmax hz8 hempty

theorem allocFx_fixed (hfixed : bit (wbyte w 2) 0 = true) (hfree : (t.hearth e.die).regionFree off size = true) :
    allocFx e w c t = (t.takeSpace e (bits (wbyte w 1) 0 4) off size c.cl (bit (wbyte w 2) 1), none) := by
  simp only [allocFx, h4, h2, hz3, hsize, h1, hmax, hoff, hoffmax, hz8, hempty, hkind, hfixed, hfree, decide_true, Bool.and_self,
    Bool.true_or, Bool.not_true, Bool.false_eq_true, if_false, Option.isSome_none, and_false, or_self, if_true]

theorem allocFx_first (hfixed : bit (wbyte w 2) 0 = false) (hkeep : bit (wbyte w 2) 1 = false) (hzero : off = 0)
    (hqueue : (t.hearth e.die).queue = []) (hfit : firstFit size (t.hearth e.die).bufs 0 = some k) :
    allocFx e w c t = (t.takeSpace e (bits (wbyte w 1) 0 4) k size c.cl false, none) := by
  subst hzero
  simp only [allocFx, h4, h2, hz3, hsize, h1, hmax, hoff, hoffmax, hz8, hempty, hkind, hfixed, hkeep, hqueue, hfit, decide_true,
    Bool.and_self, Bool.or_true, Bool.not_true, Bool.false_eq_true, if_false, Option.isSome_none, false_and, or_self, List.isEmpty_nil,
    if_true]

end Alloc

/-! ### FREE (R312) -/

section Free

variable {e : Eng} {w : W128} {h : Nat} {c : Ctx} {t : State} (hkind : c.r.kind ≠ 6) (h4 : bits (wbyte w 1) 4 4 = 0)
  (h1 : bits (wbyte w 2) 1 7 = 0) (hz3 : wzero w 3 5 = true) (hz8 : wzero w 8 15 = true)

include hkind h4 h1 hz3 hz8

theorem freeFx_byOffset (hby : bit (wbyte w 2) 0 = true) : freeFx e w c t = (t.freeFor e.die c.cl (wword w 6) true, none) := by
  simp only [freeFx, h4, h1, hz3, hz8, hkind, hby, decide_true, Bool.and_self, Bool.true_or, Bool.not_true, Bool.false_eq_true, if_false,
    if_true]

theorem freeFx_byHandle (hby : bit (wbyte w 2) 0 = false) (hoff : wword w 6 = 0) (hreg : mapFind c.r.hregs (bits (wbyte w 1) 0 4) = some h) :
    freeFx e w c t =
      ((t.freeFor e.die c.cl (handleGranule h)
        (decide (handleDie h = e.die) && decide (handleGen h = (t.hearth e.die).gen (handleGranule h)))).modRun
          e.die e.entry fun x => { x with hregs := mapDel x.hregs (bits (wbyte w 1) 0 4) }, none) := by
  simp only [freeFx, h4, h1, hz3, hz8, hkind, hby, hoff, hreg, decide_true, Bool.and_self, Bool.or_true, Bool.not_true, Bool.false_eq_true,
    if_false]

end Free

/-! ### Waits and zeroing (R311, R313) -/

theorem allocWaitGrant_of_fit {s : State} {die k : Nat} {a : AllocWait} {rest : List AllocWait} (hqueue : (s.hearth die).queue = a :: rest)
    (hfit : firstFit a.size (s.hearth die).bufs 0 = some k) {t : State}
    (ht : t = (s.modHearth die fun h => { h with queue := rest }).takeSpace ⟨die, a.entry, 0⟩ a.hreg k a.size a.client a.keep) :
    allocWaitGrant die s = if (t.hearth die).zeroing.any fun z => decide (z.entry = a.entry) then t else t.resumeAlloc die a.entry := by
  subst ht
  simp only [allocWaitGrant, hqueue, hfit]

theorem allocZeroDone_of_due {s : State} {die entry k until_ : Nat} {z : AllocWait}
    (hz : ((s.hearth die).zeroing.find? fun z => decide (z.entry = entry)) = some z) (htaken : z.taken = some (k, until_))
    (hdue : until_ ≤ s.tb) : allocZeroDone die entry s =
    ((s.modHearth die fun h => { h with zeroing := h.zeroing.filter fun y => decide (y.entry ≠ entry) }).giveHandle die entry z.hreg k).resumeAlloc
      die entry := by
  simp only [allocZeroDone, hz, htaken, Nat.not_lt.mpr hdue, if_false]

/-- Settles O25: each instruction by its branch. -/
theorem tileHearth : Obligations.TileHearth := by
  unfold Obligations.TileHearth
  refine ⟨?alloc, ?free, ?grant, ?zeroed, ?ended⟩
  case alloc =>
    intro e w size off r g s h hpos hkind h4 h2 hz3 hsize h1 hmax hoff hoffmax hz8 hempty
    refine ⟨fun hfixed hfree => ?_, fun hfixed hkeep hzero hqueue k hfit => ?_⟩
    · rw [exec_alloc, alloc, State.once_of_first w 0x05 _ hpos, State.instr_of_control h (.inl (by decide))
        (allocFx_fixed (c := ctxOf e r g w) hkind h4 h2 hz3 hsize h1 hmax hoff hoffmax hz8 hempty hfixed hfree)]
      rfl
    · rw [exec_alloc, alloc, State.once_of_first w 0x05 _ hpos, State.instr_of_control h (.inl (by decide))
        (allocFx_first (c := ctxOf e r g w) hkind h4 h2 hz3 hsize h1 hmax hoff hoffmax hz8 hempty hfixed hkeep hzero hqueue hfit)]
      rfl
  case free =>
    intro e w r g s h hpos hkind h4 h1 hz3 hz8
    refine ⟨fun hby => ?_, fun hby hoff hd hreg => ?_⟩
    · rw [exec_free, free, State.once_of_first w 0x06 _ hpos, State.instr_of_control h (.inl (by decide))
        (freeFx_byOffset (c := ctxOf e r g w) hkind h4 h1 hz3 hz8 hby)]
      rfl
    · rw [exec_free, free, State.once_of_first w 0x06 _ hpos, State.instr_of_control h (.inl (by decide))
        (freeFx_byHandle (c := ctxOf e r g w) hkind h4 h1 hz3 hz8 hby hoff hreg)]
      rfl
  case grant =>
    intro die k a rest s hqueue hfit t ht
    rw [exec_allocWaitGrant, allocWaitGrant_of_fit hqueue hfit ht]
  case zeroed =>
    intro die entry k until_ z s hz htaken hdue
    rw [exec_allocZeroDone, allocZeroDone_of_due hz htaken hdue]
  case ended =>
    exact fun e d r g t h => ⟨rfl, State.ended_of_running h, State.ended_of_stalled h⟩

end Sys2Proof.Machine
end

section
/-! Settles the obligation on the mover instructions (R144 to R150). -/

namespace Sys2Proof.Machine

open Sys2Proof

theorem exec_copy (e : Eng) (w : W128) (s : State) : exec (.copy e w) s = .next (copy e w s) := rfl
theorem exec_fill (e : Eng) (w : W128) (s : State) : exec (.fill e w) s = .next (fill e w s) := rfl
theorem exec_gather (e : Eng) (w : W128) (s : State) : exec (.gather e w) s = .next (gather e w s) := rfl
theorem exec_scatter (e : Eng) (w : W128) (s : State) : exec (.scatter e w) s = .next (scatter e w s) := rfl
theorem exec_transpose (e : Eng) (w : W128) (s : State) : exec (.transpose e w) s = .next (transpose e w s) := rfl
theorem exec_window (e : Eng) (w : W128) (s : State) : exec (.window e w) s = .next (window e w s) := rfl

section Mover

variable {s t u : State} {e : Eng} {w : W128} {op : Nat} {r : Run} {g : EngRun} {c : Ctx} {f : Ctx → State → State × Option Nat}

/-- The rule of an instruction that is not held to the ring window, at its engine. -/
theorem State.instr_of_instrAt (h : s.instrAt e w op r g c t) (hop : op < 0x30 ∨ 0xA0 ≤ op ∨ op = 0x50) (hf : f c t = (u, none)) :
    s.instr e w op f = State.ended e (u, none) := by
  obtain ⟨hat, rfl, rfl⟩ := h
  exact State.instr_of_control hat hop hf

variable {sh : OpShape} {own ok : Ctx → Bool}

/-- A mover whose checks pass has its own effect. -/
theorem State.mover_of_instrAt (h : s.instrAt e w op r g c t) (hop : op < 0x30) (hchecks : checks123 c.r.cmd sh w (own c) = none)
    (hember : ((usedRefs w).any fun x => (c.card x.card).ember) = false) (hok : ok c = true) (hf : f c t = (u, none)) :
    s.mover e w op sh own ok f = State.ended e (u, none) := by
  refine State.instr_of_instrAt h (.inl hop) ?_
  simp only [moverFx, hchecks, hember, hok, Bool.false_eq_true, Bool.not_true, or_self, if_false, hf]

end Mover

section Effects

variable {w : W128} {c : Ctx} {t u : State} {ws : Writes}

theorem copyFx_plain (hmods : wmods w = 0)
    (hrows : rowWrites (t.copyRow c.cl (c.srcA w) (c.dst w) (c.rowLen (c.dst w))) (c.bandRows (c.dst w)) = .ok ws)
    (hwrites : (t.moved c true ((c.srcA w).rowRanges (c.rowLen (c.dst w)) (c.bandRows (c.dst w)) ++
      (c.bandRows (c.dst w)).flatMap fun i => (c.srcA w).scaleRanges i (c.rowLen (c.dst w)))).doWrites c c.g.unit ws = (u, none)) :
    copyFx w c t = (u, none) := by
  simp only [copyFx, State.finish, hmods, Nat.zero_ne_one, if_false, hrows, hwrites]

theorem copyFx_converted (hmods : wmods w = 1)
    (hrows : rowWrites (t.convertRow c (c.srcA w) (c.dst w) (c.rowLen (c.dst w))) (c.bandRows (c.dst w)) = .ok ws)
    (hwrites : (t.moved c true ((c.srcA w).rowRanges (c.rowLen (c.dst w)) (c.bandRows (c.dst w)) ++
      (c.bandRows (c.dst w)).flatMap fun i => (c.srcA w).scaleRanges i (c.rowLen (c.dst w)))).doWrites c c.g.unit ws = (u, none)) :
    copyFx w c t = (u, none) := by
  simp only [copyFx, State.finish, hmods, if_true, hrows, hwrites]

theorem gatherFx_done {lo hi : Nat} {rs : List (List (Nat × Nat) × Writes)} (hband : c.outerBand (c.dst w) = (lo, hi))
    (hrows : tryMap (t.gatherRun c.cl (c.srcA w) (c.srcB w) (c.dst w)) (gatherRuns (c.dst w) lo hi) = .ok rs)
    (hwrites : (t.moved c true (((c.srcB w).base + 4 * lo, 4 * (hi - lo)) :: rs.flatMap (·.1))).doWrites c c.g.unit
      (joinWrites (rs.map (·.2))) = (u, none)) : gatherFx w c t = (u, none) := by
  simp only [gatherFx, hband, hrows, hwrites]

theorem scatterFx_first (hpos : c.pos = 0)
    (hrun : runEach (fun j v => match v.indexAt c.cl (c.srcB w) j with
      | .error d => (v, some d)
      | .ok x => v.scatterRow c (c.srcA w) (c.dst w) x j) (natRange 0 ((c.srcB w).ext 0))
        (t.moved c true [((c.srcB w).base, 4 * (c.srcB w).ext 0)]) = (u, none)) : scatterFx w c t = (u, none) := by
  unfold scatterFx
  rw [if_neg (by simp [hpos])]
  exact hrun

theorem scatterFx_other (hpos : c.pos ≠ 0) : scatterFx w c t = (t, none) := if_pos hpos

theorem State.finish_ok {s : State} {x : Except Nat Writes} {n : Nat} (hx : x = .ok ws) (hwrites : s.doWrites c n ws = (u, none)) :
    s.finish c n x = (u, none) := by
  simp only [State.finish, hx, hwrites]

end Effects

/-- Settles O26: each mover's own effect, once its checks pass. -/
theorem moverInstructionsComplete : Obligations.MoverInstructionsComplete := by
  unfold Obligations.MoverInstructionsComplete
  refine ⟨?copy, ?convert, ?fill, ?gather, ?scatterFirst, ?scatterOther, ?transpose, ?window⟩
  case copy =>
    intro e w r g c t u ws s h hchecks hember hok hmods hrows hwrites
    rw [exec_copy, copy, State.mover_of_instrAt h (by decide) hchecks hember hok (copyFx_plain hmods hrows hwrites)]
  case convert =>
    intro e w r g c t u ws s h hchecks hember hok hmods hrows hwrites
    rw [exec_copy, copy, State.mover_of_instrAt h (by decide) hchecks hember hok (copyFx_converted hmods hrows hwrites)]
  case fill =>
    intro e w r g c t u s h hchecks hember hwrites
    rw [exec_fill, fill, State.mover_of_instrAt (own := fun c => decide (wmods w = 0) && wzero w 9 11 && decide (wlong w 12 < 2 ^ (min 32 (c.dst w).bits)))
      (ok := fun _ => true) h (by decide) hchecks hember rfl hwrites]
  case gather =>
    intro e w r g c t u lo hi rs s h hchecks hember hok hband hrows hwrites
    rw [exec_gather, gather, State.mover_of_instrAt h (by decide) hchecks hember hok (gatherFx_done hband hrows hwrites)]
  case scatterFirst =>
    intro e w r g c t u s h hchecks hember hok hpos hrun
    rw [exec_scatter, scatter, State.mover_of_instrAt h (by decide) hchecks hember hok (scatterFx_first hpos hrun)]
  case scatterOther =>
    intro e w r g c t s h hchecks hember hok hpos
    rw [exec_scatter, scatter, State.mover_of_instrAt h (by decide) hchecks hember hok (scatterFx_other hpos)]
  case transpose =>
    intro e w r g c t u ws s h hchecks hember hok hrows hwrites
    rw [exec_transpose, transpose, State.mover_of_instrAt h (by decide) hchecks hember hok (State.finish_ok hrows hwrites)]
  case window =>
    rintro e w r g c t u f ws s h hchecks hember hok rfl hrows hwrites
    rw [exec_window, window, State.mover_of_instrAt h (by decide) hchecks hember hok (State.finish_ok hrows hwrites)]

end Sys2Proof.Machine
end

section
/-! Settles the obligation on the matrix, codebook and recurrence instructions (R212 to R221, R240 to R246, R363). -/

namespace Sys2Proof.Machine

open Sys2Proof

theorem exec_matmul (e : Eng) (w : W128) (chk : EngCheck) (s : State) : exec (.matmul e w chk) s = .next (matmul e w chk s) := rfl
theorem exec_cbPreload (e : Eng) (w : W128) (s : State) : exec (.cbPreload e w) s = .next (cbPreload e w s) := rfl
theorem exec_recBind (e : Eng) (w : W128) (s : State) : exec (.recBind e w) s = .next (recBind e w s) := rfl
theorem exec_recScan (e : Eng) (w : W128) (chk : EngCheck) (s : State) : exec (.recScan e w chk) s = .next (recScan e w chk s) := rfl
theorem exec_recUnbind (e : Eng) (w : W128) (s : State) : exec (.recUnbind e w) s = .next (recUnbind e w s) := rfl
theorem exec_codebookLoadDone (e : Eng) (s : State) : exec (.codebookLoadDone e) s = .next (codebookLoadDone e s) := rfl
theorem exec_parkLimit (die engine : Nat) (s : State) : exec (.parkLimit die engine) s = .next (parkLimit die engine s) := rfl
theorem exec_engineDisable (unit : Nat) (s : State) : exec (.engineDisable unit) s = .next (engineDisable unit s) := rfl

section Rules

variable {s t u : State} {e : Eng} {w : W128} {op : Nat} {r : Run} {g : EngRun} {c : Ctx} {f : Ctx → State → State × Option Nat}

/-- The rule of an instruction that no operand bars from its engine, at that engine. -/
theorem State.instr_of_unbarred (h : s.instrAt e w op r g c t) (hb : c.ringBarred t w = false) (hf : f c t = (u, none)) :
    s.instr e w op f = State.ended e (u, none) := by
  obtain ⟨hat, rfl, rfl⟩ := h
  exact State.instr_done hat hb hf

theorem matmul_of_ready (chk : EngCheck) (h : s.waitsBook e w = false) : matmul e w chk s = s.instr e w 0x30 (matmulFx e w chk) :=
  if_neg (by simp [h])

theorem matmul_of_waiting (chk : EngCheck) (h : s.waitsBook e w = true) :
    matmul e w chk s = s.modEng e fun g => { g with stall := .codebook s.tb } := if_pos h

theorem codebookLoadDone_of_due {i : Nat} {p : Preload} {bs : List Book} (heng : s.engOf e = some (r, g))
    (hdone : g.preloadDone s.tb = some (i, p)) (hload : s.loadBooks r.client p.want = .ok bs) : codebookLoadDone e s = s.modEng e fun x =>
      { x with codebooks := (useBooks x.pendingBooks bs x.codebooks).getD x.codebooks, preloads := x.preloads.eraseIdx i,
               stall := match x.stall with | .codebook _ => .none | y => y } := by
  simp only [codebookLoadDone, heng, hdone, hload] <;> rfl

theorem parkLimit_of_over {die engine t0 : Nat} {x : Residency} (hparked : s.parkedWith die engine = some x)
    (hsince : x.parkedSince = some t0) (hlate : s.passedUs t0 (max 50 (s.fld (Fld.MXE_CTRL_park_limit_us die engine))) = true)
    (hback : s.calledBack x = false) : parkLimit die engine s = s.endResidency x true := by
  simp only [parkLimit, hparked, hsince, hlate, hback, Bool.not_false, and_self, if_true]

theorem engineDisable_of_enabled {unit : Nat} {x : Fld} (hfld : enableFld (unit / 4096) (unit % 4096) = some x)
    (hfit : s.fitted (unit / 4096) = true) (hlogic : s.logicServes (unit / 4096) = true) (hon : s.flag x = true) :
    engineDisable unit s = (s.setFlag x false).disableEngine (unit / 4096) (unit % 4096) := by
  simp only [engineDisable, hfld, hfit, hlogic, hon, and_self, if_true]

end Rules

/-- Settles O27: each instruction's own effect, once its checks pass. -/
theorem matrixInstructionsComplete : Obligations.MatrixInstructionsComplete := by
  unfold Obligations.MatrixInstructionsComplete
  refine ⟨?noTile, ?tiles, ?waiting, ?preload, ?preloaded, ?bind, ?bound, ?scan, ?unbind, ?loaded, ?park, ?disable⟩
  case noTile =>
    intro e w chk r g c t x s h hb hbook hchecks hdec htiles
    have hfx : matmulFx e w chk c t = (t, none) := by simp only [matmulFx, State.matRun, hchecks, hdec, htiles]
    rw [exec_matmul, matmul_of_ready chk hbook, State.instr_of_unbarred h hb hfx]
  case tiles =>
    rintro e w chk r g c t u x first more rd b ops v s h hb hbook hchecks hdec htiles hember rfl hbooks rfl hcheck hwalk
    have hfx : matmulFx e w chk c t = (u, none) := by
      simp only [matmulFx, State.matRun, hchecks, hdec, htiles, hember]
      split
      case h_1 herr => exact nomatch herr.symm.trans hbooks
      case h_2 hload => exact nomatch hload.symm.trans hbooks
      case h_3 use huse =>
        obtain rfl : use = b := Option.some.inj (Except.ok.inj (huse.symm.trans hbooks))
        dsimp only at hcheck hwalk ⊢
        rw [hcheck]
        exact hwalk
    rw [exec_matmul, matmul_of_ready chk hbook, State.instr_of_unbarred h hb hfx]
  case waiting =>
    intro e w chk s hbook
    rw [exec_matmul, matmul_of_waiting chk hbook]
  case preload =>
    rintro e w r g c t u em asked want until_ s h hb hchecks hres hok hopen hcount hmode rfl hfit rfl hwant rfl hu
    have hsome := List.isEmpty_eq_false_iff.mpr hwant
    have hfx : cbPreloadFx e w c t = (u, none) := by
      simp only [cbPreloadFx, hchecks, hres, hok, hopen, Nat.not_lt.mpr hcount, hmode, hfit, Bool.false_eq_true, Bool.not_true, if_false]
      rw [if_neg (by simp [hsome]), hu] <;> rfl
    rw [exec_cbPreload, cbPreload, State.instr_of_unbarred h hb hfx]
  case preloaded =>
    rintro e w r g c t u em asked want s h hb hchecks hres hok hopen hcount hmode rfl hfit rfl hwant rfl
    have hfx : cbPreloadFx e w c t = ((t.moved c true []).count c.r.die c.g.unit 0x41 0 (some c.cl), none) := by
      simp only [cbPreloadFx, hchecks, hres, hok, hopen, Nat.not_lt.mpr hcount, hmode, hfit, hwant, Bool.false_eq_true, Bool.not_true, if_false,
        List.isEmpty_nil, if_true, List.map_nil, List.length_nil]
    rw [exec_cbPreload, cbPreload, State.instr_of_unbarred h hb hfx]
  case bind =>
    rintro e w r g c t u shape rec v s h hb hchecks hfault rfl hdst hsrc hbound hsize hread hshape hrec rfl hnone henter
    have hfx : recBindFx e w c t = (u, none) := by
      simp only [recBindFx, hchecks, hfault, hdst, hsrc, hbound, Nat.not_lt.mpr hsize, hread, hshape, hrec, hnone, ne_eq, not_true_eq_false,
        Bool.false_eq_true, Bool.not_true, or_self, if_false, henter]
    rw [exec_recBind, recBind, State.instr_of_unbarred h hb hfx]
  case bound =>
    rintro e w r g c t shape rec v x s h hb hchecks hfault rfl hdst hsrc hbound hsize hread hshape hrec rfl hres hsame
    have hfx : recBindFx e w c t = (t.modEng e fun g => { g with bound := true }, none) := by
      simp only [recBindFx, hchecks, hfault, hdst, hsrc, hbound, Nat.not_lt.mpr hsize, hread, hshape, hrec, hres, hsame, ne_eq,
        not_true_eq_false, Bool.false_eq_true, Bool.not_true, or_self, if_false, if_true]
    rw [exec_recBind, recBind, State.instr_of_unbarred h hb hfx]
  case scan =>
    rintro e w chk r g c t u x q rd v rods ws s h hb hchecks hfault hbound hres rfl hok rfl rfl hcheck hfold hwrites
    have hfx : recScanFx w chk c t = (u, none) := by
      simp only [recScanFx, hchecks, hfault, hbound, hres, hok, if_true, Bool.not_true, Bool.false_eq_true, if_false]
      rw [hcheck]
      simp only [hfold, hwrites]
    rw [exec_recScan, recScan, State.instr_of_unbarred h hb hfx]
  case unbind =>
    intro e w r g c t s h hb hfields hfault hbound hunbind
    have hfx : recUnbindFx e w c t = (t.modEng e fun g => { g with unbind := true }, none) := by
      simp only [recUnbindFx, hfields, hfault, hbound, hunbind, Bool.not_true, Bool.false_eq_true, or_self, if_false]
    rw [exec_recUnbind, recUnbind, State.instr_of_unbarred h hb hfx]
  case loaded =>
    intro e i p r g bs s heng hdone hload
    rw [exec_codebookLoadDone, codebookLoadDone_of_due heng hdone hload] <;> rfl
  case park =>
    intro die engine t0 x s hparked hsince hlate hback
    rw [exec_parkLimit, parkLimit_of_over hparked hsince hlate hback]
  case disable =>
    intro unit f s hfld hfit hlogic hon
    rw [exec_engineDisable, engineDisable_of_enabled hfld hfit hlogic hon]

end Sys2Proof.Machine
end

section
/-! Settles the obligation on the gate, window and detection instructions (R222 to R239, R247 to R256). -/

namespace Sys2Proof.Machine

open Sys2Proof

theorem exec_gseqSet (e : Eng) (w : W128) (s : State) : exec (.gseqSet e w) s = .next (gseqSet e w s) := rfl
theorem exec_gseqClr (e : Eng) (w : W128) (s : State) : exec (.gseqClr e w) s = .next (gseqClr e w s) := rfl
theorem exec_gateMap (e : Eng) (w : W128) (chk : EngCheck) (s : State) :
    exec (.gateMap e w chk) s = .next (s.instr e w 0x52 (gateFx w .map chk)) := rfl
theorem exec_gateRows (e : Eng) (w : W128) (chk : EngCheck) (s : State) :
    exec (.gateRows e w chk) s = .next (s.instr e w 0x53 (gateFx w .rows chk)) := rfl
theorem exec_conv (e : Eng) (w : W128) (chk : EngCheck) (s : State) : exec (.conv e w chk) s = .next (conv e w chk s) := rfl
theorem exec_convParam (e : Eng) (w : W128) (s : State) : exec (.convParam e w) s = .next (convParam e w s) := rfl
theorem exec_boxDecode (e : Eng) (w : W128) (chk : EngCheck) (s : State) : exec (.boxDecode e w chk) s = .next (boxDecode e w chk s) := rfl
theorem exec_scoreFilter (e : Eng) (w : W128) (chk : EngCheck) (s : State) :
    exec (.scoreFilter e w chk) s = .next (scoreFilter e w chk s) := rfl
theorem exec_nms (e : Eng) (w : W128) (chk : EngCheck) (s : State) : exec (.nms e w chk) s = .next (nms e w chk s) := rfl

/-- A gate instruction of either kind whose checks pass writes its rows. -/
theorem gateFx_done {w : W128} {k : GCtx} {chk : EngCheck} {c : Ctx} {t u v : State} {ops : List W128} {first n : Nat}
    {rs : List (Writes × Nat)} (hchecks : checks123 c.r.cmd gateShape w (gateOwn w) = none) (hops : ops = gateSeq c.g (bits (wbyte w 9) 0 4))
    (hseq : seqOk k ops = true) (hcards : c.seqCards k ops (c.dst w) (c.srcA w).shape (2 ^ c.lanes) = true)
    (hoperands : gateOperandsOk k (c.dst w) (c.srcA w) = true) (hcols : c.gateCols ops (c.dst w) = (first, n))
    (hv : v = (t.moved c true (((c.bandRows (c.dst w)).flatMap fun i =>
      (c.srcA w).runAt (ixSet0 i (Int.ofNat first)) n :: (c.srcA w).scaleRanges (ixSet0 i (Int.ofNat first)) n) ++
        c.streamRanges ops (c.bandRows (c.dst w)) first n true)).gateCorrected c chk)
    (hcheck : v.gateCheck c chk = none) (hrows : tryMap (v.gateSrcRow c k ops (c.dst w) (c.srcA w)) (c.bandRows (c.dst w)) = .ok rs)
    (hwrites : (v.gateEvents c (c.bandRows (c.dst w)).length ((rs.map (·.2)).foldl (· + ·) 0)).doWrites c c.gateUnit
      (joinWrites (rs.map (·.1))) = (u, none)) : gateFx w k chk c t = (u, none) := by
  subst hops
  simp only [gateFx, hchecks, hseq, hcards, hoperands, hcols, Bool.not_true, Bool.false_eq_true, if_false, ← hv, hcheck, hrows, hwrites]

/-- A detection instruction whose checks pass goes on with the errors corrected. -/
theorem State.ppe_of_pass {t v : State} {c : Ctx} {chk : EngCheck} (f : State → State × Option Nat)
    (hcheck : unitCheck (t.flag (Fld.PPE_CTRL_check_enable c.r.die)) (t.flag (Fld.PPE_CTRL_ecc_enable c.r.die)) 0x0901 0x0902 chk = none)
    (hv : v = t.corrected c c.g.unit (t.flag (Fld.PPE_CTRL_ecc_enable c.r.die) && decide (chk = .storeCorrected))) :
    t.ppe c chk f = f v := by
  simp only [State.ppe, hcheck, hv]

/-- Settles O28: each instruction's own effect, once its checks pass. -/
theorem gateAndWindowInstructionsComplete : Obligations.GateAndWindowInstructionsComplete := by
  unfold Obligations.GateAndWindowInstructionsComplete
  refine ⟨?set, ?clear, ?map, ?rows, ?conv, ?param, ?box, ?filter, ?nms⟩
  case set =>
    intro e w r g c t s h hchecks
    have hfx : gseqSetFx e w c t = (t.modEng e fun g => { g with
        gseq := if gMop w = 0 then mapDel g.gseq (bits (wmods w) 0 4 * 16 + bits (wmods w) 4 4)
          else mapSet g.gseq (bits (wmods w) 0 4 * 16 + bits (wmods w) 4 4) w }, none) := by
      simp only [gseqSetFx, hchecks]
    rw [exec_gseqSet, gseqSet, State.instr_of_instrAt h (.inr (.inr rfl)) hfx]
  case clear =>
    intro e w r g c t s h hb hok
    have hfx : gseqClrFx e w c t = (t.modEng e fun g => { g with gseq := g.gseq.filter fun (k, _) => decide (k / 16 ≠ wmods w) }, none) := by
      simp only [gseqClrFx, hok, Bool.not_true, Bool.false_eq_true, if_false]
    rw [exec_gseqClr, gseqClr, State.instr_of_unbarred h hb hfx]
  case map =>
    intro e w chk r g c t u ops first n v rs s h hb hchecks hops hseq hcards hoperands hcols hv hcheck hrows hwrites
    rw [exec_gateMap,
      State.instr_of_unbarred h hb (gateFx_done hchecks hops hseq hcards hoperands hcols hv hcheck hrows hwrites)]
  case rows =>
    intro e w chk r g c t u ops first n v rs s h hb hchecks hops hseq hcards hoperands hcols hv hcheck hrows hwrites
    rw [exec_gateRows,
      State.instr_of_unbarred h hb (gateFx_done hchecks hops hseq hcards hoperands hcols hv hcheck hrows hwrites)]
  case conv =>
    rintro e w chk r g c t u f os rows vs src v1 v s h hb hchecks hwalk rfl rfl hstaged hok hwalkOk hmirror rfl rfl rfl hv1 hv hcheck hrun
    have hfx : convFx w chk c t = (u, none) := by
      simp only [convFx, hchecks, hwalk, hstaged, hok, hwalkOk, hmirror, Bool.not_true, Bool.false_eq_true, if_false, State.convRun, ← hv1,
        ← hv, hcheck, hrun]
    rw [exec_conv, conv, State.instr_of_unbarred h hb hfx]
  case param =>
    intro e w r g c t s h hb hchecks hgain hbias
    have hfx : convParamFx e w c t = (t.modEng e fun g => { g with convParam := some w }, none) := by
      simp only [convParamFx, hchecks, hgain, hbias, Bool.and_self, Bool.not_true, Bool.false_eq_true, if_false]
    rw [exec_convParam, convParam, State.instr_of_unbarred h hb hfx]
  case box =>
    intro e w chk r g c t u v ws s h hb hchecks hcards hcheck hv hrows hwrites
    have hfx : boxDecodeFx w chk c t = (u, none) := by
      simp only [boxDecodeFx, hchecks, hcards, Bool.not_true, Bool.false_eq_true, if_false]
      rw [State.ppe_of_pass _ hcheck hv]
      generalize hres : tryMap _ _ = res
      obtain rfl := hres.symm.trans hrows
      exact hwrites
    rw [exec_boxDecode, boxDecode, State.instr_of_unbarred h hb hfx]
  case filter =>
    rintro e w chk r g c t u v cs all s h hb hchecks hcards hcheck hv hrows rfl hwrites
    have hfx : scoreFilterFx w chk c t = (u, none) := by
      simp only [scoreFilterFx, hchecks, hcards, Bool.not_true, Bool.false_eq_true, if_false]
      rw [State.ppe_of_pass _ hcheck hv]
      generalize hres : tryMap _ _ = res
      obtain rfl := hres.symm.trans hrows
      exact hwrites
    rw [exec_scoreFilter, scoreFilter, State.instr_of_unbarred h hb hfx]
  case nms =>
    intro e w chk r g c t u v cs kept n s h hb hchecks hcards hcheck hv hcands hkeep hwrites
    have hfx : nmsFx w chk c t = (u, none) := by
      simp only [nmsFx, hchecks, hcards, Bool.not_true, Bool.false_eq_true, if_false]
      rw [State.ppe_of_pass _ hcheck hv]
      simp only [hcands, hkeep, hwrites]
    rw [exec_nms, nms, State.instr_of_unbarred h hb hfx]

end Sys2Proof.Machine
end

section
/-! Settles the obligation on the attention, ring-pass and codec instructions (R257 to R299, R364). -/

namespace Sys2Proof.Machine

open Sys2Proof

theorem exec_attend (e : Eng) (w : W128) (chk : EngCheck) (s : State) : exec (.attend e w chk) s = .next (attend e w chk s) := rfl
theorem exec_attParam (e : Eng) (w : W128) (s : State) : exec (.attParam e w) s = .next (attParam e w s) := rfl
theorem exec_merge (e : Eng) (w : W128) (chk : EngCheck) (s : State) : exec (.merge e w chk) s = .next (merge e w chk s) := rfl
theorem exec_attendRing (e : Eng) (w : W128) (chk : EngCheck) (s : State) :
    exec (.attendRing e w chk) s = .next (attendRing e w chk s) := rfl
theorem exec_kvAppend (e : Eng) (w : W128) (chk : EngCheck) (s : State) : exec (.kvAppend e w chk) s = .next (kvAppend e w chk s) := rfl
theorem exec_blkPack (e : Eng) (w : W128) (s : State) : exec (.blkPack e w) s = .next (blkPack e w s) := rfl
theorem exec_blkSend (e : Eng) (w : W128) (s : State) : exec (.blkSend e w) s = .next (blkSend e w s) := rfl
theorem exec_embDecode (e : Eng) (w : W128) (chk : EngCheck) (s : State) : exec (.embDecode e w chk) s = .next (embDecode e w chk s) := rfl
theorem exec_embEncode (e : Eng) (w : W128) (chk : EngCheck) (s : State) : exec (.embEncode e w chk) s = .next (embEncode e w chk s) := rfl
theorem exec_embRewrap (e : Eng) (w : W128) (chk : EngCheck) (s : State) : exec (.embRewrap e w chk) s = .next (embRewrap e w chk s) := rfl

/-- A codec instruction whose check passes goes on. -/
theorem State.codecRun_of_pass {t : State} {c : Ctx} {chk : EngCheck} (f : State → State × Option Nat)
    (hcheck : unitCheck (t.flag (Fld.CDC_CTRL_check_enable c.r.die c.num)) false 0x0C07 0x0C07 chk = none) : t.codecRun c chk f = f t := by
  simp only [State.codecRun, hcheck]

/-- A block still to land, or to become ready at home, makes the engine wait for it. -/
theorem attendRingFx_of_wait {e : Eng} {w : W128} {chk : EngCheck} {c : Ctx} {t : State} {x : Att} {p : PassDesc} {hs : List HomeState} {k : Nat}
    {home : List Nat} {st : RingStep} (hchecks : checks123 c.r.cmd attShape w (decide (wmods w < 8) && wzero w 15 15) = none)
    (hops : t.ringOps c w = .ok (x, p)) (hhome : t.homeStates c.cl p = .ok hs)
    (hcount : (hs.map HomeState.count).foldl (· + ·) 0 ≤ 16777216)
    (hst : st = t.settleBlocks c.cl (c.srcB w).base p x.causal (wlong w 9 + ((c.bandRows x.d).map fun i => (ixAt i 2).toNat).foldl max 0)
      (!(c.bandRows x.d).isEmpty) hs (natRange 0 p.parts) c.g.homeBlocks) (hwait : st = .waitLand k home ∨ st = .waitHome k home) :
    attendRingFx e w chk c t =
      (t.waitRing e c w (if st = .waitLand k home then .landing k p.waitUs t.tb else .home k p.waitUs t.tb t.tb) home, none) := by
  simp only [attendRingFx, hchecks, hops, hhome, Nat.not_lt.mpr hcount, if_false, ← hst]
  rcases hwait with rfl | rfl
  · rw [if_pos rfl]
  · rw [if_neg (nomatch ·)]

/-- Settles O29: each instruction's own effect, once its checks pass. -/
theorem attentionAndCodecInstructionsComplete : Obligations.AttentionAndCodecInstructionsComplete := by
  unfold Obligations.AttentionAndCodecInstructionsComplete
  refine ⟨?attend, ?param, ?merge, ?ring, ?ringWait, ?append, ?pack, ?packOther, ?send, ?sendDown, ?sendOther, ?decode, ?encode, ?rewrap⟩
  case attend =>
    rintro e w chk r g c t u x table seq ws vs v rs s h hb hchecks hatt hseq rfl hv hcheck hrows hwrites
    have hfx : attendFx w chk c t = (u, none) := by
      simp only [attendFx, hchecks, hatt, hseq, ← hv, hcheck, State.finish_ok hrows hwrites]
    rw [exec_attend, attend, State.instr_of_unbarred h hb hfx]
  case param =>
    intro e w r g c t s h hb hfields h13 h14
    have hfx : attParamFx e w c t = (t.modEng e fun g => { g with attParam := some w }, none) := by
      simp only [attParamFx, hfields, Nat.not_lt.mpr h13, Nat.not_lt.mpr h14, Bool.not_true, Bool.false_eq_true, or_self, if_false]
    rw [exec_attParam, attParam, State.instr_of_unbarred h hb hfx]
  case merge =>
    rintro e w chk r g c t u x v rs s h hb hchecks hok rfl hv hcheck hrows hwrites
    have hfx : mergeFx w chk c t = (u, none) := by
      simp only [mergeFx, hchecks, hok, Bool.not_true, Bool.false_eq_true, if_false, ← hv, hcheck]
      exact State.finish_ok hrows hwrites
    rw [exec_merge, merge, State.instr_of_unbarred h hb hfx]
  case ring =>
    rintro e w chk r g c t u x p hs rows st home srcs pages skipped v rs s h hb hchecks hops hhome hcount rfl rfl hdone rfl hvisits hv hcheck
      hrows hwrites
    have hfx : attendRingFx e w chk c t = (u, none) := by
      simp only [attendRingFx, hchecks, hops, hhome, Nat.not_lt.mpr hcount, if_false, hdone, hvisits, ← hv, hcheck, State.finish_ok hrows hwrites]
    rw [exec_attendRing, attendRing, State.instr_of_unbarred h hb hfx]
  case ringWait =>
    rintro e w chk r g c t x p hs rows st k home s h hb hchecks hops hhome hcount rfl hst hwait
    rw [exec_attendRing, attendRing, State.instr_of_unbarred h hb (attendRingFx_of_wait hchecks hops hhome hcount hst hwait)]
  case append =>
    rintro e w chk r g c t u x lo hi seqs rd v ws s h hb hchecks hops hband rfl rfl hv hcheck hseqs hwrites
    have hfx : kvAppendFx w chk c t = (u, none) := by
      simp only [kvAppendFx, hchecks, hops, hband]
      generalize hmoved : State.ateCorrected _ _ _ = v'
      obtain rfl := hmoved.symm.trans hv.symm
      simp only [hcheck, hseqs, hwrites]
    rw [exec_kvAppend, kvAppend, State.instr_of_unbarred h hb hfx]
  case pack =>
    rintro e w r g c t u p table n pages s h hchecks hpos hops rfl hpages hwrites
    have hfx : blkPackFx w c t = (u, none) := by
      simp only [blkPackFx, hchecks, hpos, ne_eq, not_true_eq_false, if_false, hops, hpages, hwrites]
    rw [exec_blkPack, blkPack, State.instr_of_instrAt h (.inl (by decide)) hfx]
  case packOther =>
    intro e w r g c t s h hchecks hpos
    have hfx : blkPackFx w c t = (t, none) := by
      simp only [blkPackFx, hchecks, hpos, ne_eq, not_false_eq_true, if_true]
    rw [exec_blkPack, blkPack, State.instr_of_instrAt h (.inl (by decide)) hfx]
  case send =>
    intro e w r g c t p s h hchecks hpos hpass hbyte hcls hread hup
    have hfx : blkSendFx w c t = (t.sendOffer p.relayDie
        { passId := p.passId, origin := p.position, hop := 1, descAddr := t.windowAddr p.nextPkg p.nextAddr,
          srcAddr := (c.srcA w).base, client := c.cl }, none) := by
      simp only [blkSendFx, hchecks, hpos, hpass, hbyte, hcls, hread, hup, Bool.not_true, Bool.false_eq_true, ne_eq, not_true_eq_false, or_self,
        if_false]
    rw [exec_blkSend, blkSend, State.instr_of_instrAt h (.inl (by decide)) hfx]
  case sendDown =>
    intro e w r g c t p s h hchecks hpos hpass hbyte hcls hread hdown
    have hfx : blkSendFx w c t = (t, none) := by
      simp only [blkSendFx, hchecks, hpos, hpass, hbyte, hcls, hread, hdown, Bool.not_true, Bool.not_false, Bool.false_eq_true, ne_eq,
        not_true_eq_false, or_self, if_false, if_true]
    rw [exec_blkSend, blkSend, State.instr_of_instrAt h (.inl (by decide)) hfx]
  case sendOther =>
    intro e w r g c t s h hchecks hpos
    have hfx : blkSendFx w c t = (t, none) := by
      simp only [blkSendFx, hchecks, hpos, ne_eq, not_false_eq_true, if_true]
    rw [exec_blkSend, blkSend, State.instr_of_instrAt h (.inl (by decide)) hfx]
  case decode =>
    rintro e w chk r g c t u em qs rd s h hb hchecks hcards hopen hform hcheck rfl hread hwrites
    have hfx : embDecodeFx w chk c t = (u, none) := by
      simp only [embDecodeFx, hchecks, hcards, hopen, hform, Bool.not_true, Bool.false_eq_true, if_false]
      rw [State.codecRun_of_pass _ hcheck]
      simp only [hread, hwrites]
    rw [exec_embDecode, embDecode, State.instr_of_unbarred h hb hfx]
  case encode =>
    intro e w chk r g c t u m z map st pairs hd ws s h hb hchecks himm hcards hmap hqmax hm hset hpairs hhdr hroom hcheck hrows hwrites
    have hfx : embEncodeFx w chk c t = (u, none) := by
      rw [hqmax] at hrows
      simp only [embEncodeFx, hchecks, himm, List.getD_cons_zero, Option.isSome_some, Bool.true_and, hcards, hmap, hqmax, ne_eq, hm,
        not_false_eq_true, decide_true, Bool.not_false, Bool.and_self, Bool.not_true, Bool.false_eq_true, if_false, hset, hpairs, hhdr, hroom]
      rw [State.codecRun_of_pass _ hcheck]
      simp only [hrows, hwrites]
    rw [exec_embEncode, embEncode, State.instr_of_unbarred h hb hfx]
  case rewrap =>
    rintro e w chk r g c t u em same qs raws nonce o s h hb hchecks hcards hopen hroom rfl rfl hraws hgroups hkey hcheck rfl rfl hwrites
    have hfx : embRewrapFx w chk c t = (u, none) := by
      have hkeyed : ¬((!(em.h.compat == decide (wmods w = 1))) = true ∧ (mapFind t.keys.compatKeys c.cl).isNone = true) := by
        rintro ⟨hdiff, hnone⟩
        rcases hkey with hsame | hsome
        · rw [hsame] at hdiff; exact absurd hdiff Bool.false_ne_true
        · rw [Option.isNone_iff_eq_none] at hnone; rw [hnone] at hsome; exact absurd hsome Bool.false_ne_true
      simp only [embRewrapFx, hchecks, hcards, hopen, hroom, Bool.not_true, Bool.false_eq_true, if_false]
      generalize hres : tryMap _ _ = res
      obtain rfl := hres.symm.trans hraws
      simp only [hgroups, hkeyed, Bool.not_true, Bool.false_eq_true, if_false]
      rw [State.codecRun_of_pass _ hcheck]
      simp only [decide_eq_true_eq]
      exact hwrites
    rw [exec_embRewrap, embRewrap, State.instr_of_unbarred h hb hfx]

end Sys2Proof.Machine
end

section

/-! ## How a die's logic leaves service and returns to it (O31)

Each command of a compute die is stated in the branch that its clause names. -/

namespace Sys2Proof.Machine

open Sys2Proof

/-! The gate of a die closes at one moment: nothing that this does moves the timebase. -/

theorem State.OnlyLogs.tb {s t : State} (h : s.OnlyLogs t) : t.tb = s.tb := by
  rw [h.1]

theorem State.tb_count (s : State) (d u code n : Nat) (cl : Option Nat) : (s.count d u code n cl).tb = s.tb := by
  rw [State.count_frame]

theorem State.tb_advanceEpoch (s : State) (u : Nat) : (s.advanceEpoch u).tb = s.tb := by
  rw [State.advanceEpoch_frame]

theorem State.tb_resetRegs (s : State) (inBlock : Nat → Bool) (keep : Acc → Bool) : (s.resetRegs inBlock keep).tb = s.tb := by
  refine forEach_proj State.tb _ _ _ fun x t => ?_
  obtain ⟨key, v⟩ := x
  dsimp only
  split
  · split
    · split
      · exact State.setReg_tb t _ _
      · exact State.setReg_tb t _ _
    · exact State.setReg_tb t _ _
  · rfl

theorem State.tb_schedKill (s : State) (r : Run) (preempted : Bool) : (s.schedKill r preempted).tb = s.tb := by
  unfold State.schedKill
  split
  · rfl
  · split
    · rfl
    · exact (State.modRun_tb _ _ _ _).trans (State.send_tb s _)

theorem State.tb_killPlaced (s : State) (st : Step) (c : Cmd) : (s.killPlaced st c).tb = s.tb := by
  unfold State.killPlaced
  split
  · exact State.send_tb s _
  · rfl

theorem State.tb_noteCommit (s : State) (ring : Nat) : (s.noteCommit ring).tb = s.tb :=
  (forEach_proj State.tb _ _ _ fun _ t => State.modStep_tb t _ _ _).trans (State.modRing_tb s _ _)

theorem State.tb_decideStep (s : State) (ring seq status detail failIndex : Nat) :
    (s.decideStep ring seq status detail failIndex).tb = s.tb := by
  unfold State.decideStep
  split
  · rfl
  · split
    · rfl
    · refine (State.tb_refreshReady _).trans ((State.tb_noteCommit _ _).trans ((State.modStep_tb _ _ _ _).trans ?_))
      refine (forEach_proj State.tb _ _ _ fun c t => t.tb_killPlaced _ c).trans ?_
      exact forEach_proj State.tb _ _ _ fun r t => t.tb_schedKill r false

theorem State.tb_failHearthSteps (s : State) (d : Nat) : (s.failHearthSteps d).tb = s.tb := by
  refine forEach_proj State.tb _ _ _ fun st t => ?_
  dsimp only
  split
  · rfl
  · exact (State.onlyLogs_writeLog _ _).tb.trans (t.tb_decideStep _ _ _ _ _)

theorem State.tb_abandonMove (s : State) (n : Nat) : (s.abandonMove n).tb = s.tb := by
  have hmigrate : (match mapFind s.moves n with | some m => s.migrate n m 2 | none => s).tb = s.tb := by
    split
    · exact (State.onlyLogs_packet s _ _ _ _).tb
    · rfl
  exact hmigrate

theorem State.tb_cutMove (s : State) (n : Nat) (m : Move) : (s.cutMove n m).tb = s.tb := by
  unfold State.cutMove
  split
  · exact s.tb_abandonMove n
  · refine forEach_proj State.tb _ _ _ fun x t => ?_
    dsimp only
    split
    · exact t.tb_schedKill _ false
    · rfl

theorem State.tb_cutMovesOf (s : State) (d : Nat) : (s.cutMovesOf d).tb = s.tb :=
  forEach_proj State.tb _ _ _ fun x t => t.tb_cutMove x.1 x.2

theorem State.tb_chargeParked (s : State) (x : Residency) : (s.chargeParked x).tb = s.tb := by
  unfold State.chargeParked
  split
  · rfl
  · split
    · rfl
    · rfl

theorem State.tb_countParked (s : State) (x : Residency) : (s.countParked x).tb = s.tb := by
  unfold State.countParked
  split
  · rfl
  · exact forEach_proj State.tb _ _ _ fun n t => t.tb_count _ _ _ _ _

theorem State.tb_endResidency (s : State) (x : Residency) (bump : Bool) : (s.endResidency x bump).tb = s.tb := by
  refine (forEach_proj State.tb _ _ _ fun n t => ?_).trans ((State.tb_countParked _ x).trans (s.tb_chargeParked x))
  dsimp only
  split
  · exact (State.tb_advanceEpoch _ _).trans ((State.setReg_tb _ _ _).trans (State.setFld_tb _ _ _))
  · exact (State.setReg_tb _ _ _).trans (State.setFld_tb _ _ _)

theorem State.tb_resetLogic (s : State) (d : Nat) : (s.resetLogic d).tb = s.tb :=
  (forEach_proj State.tb _ _ _ fun _ t => State.modUnit_tb t _ _).trans
    ((forEach_proj State.tb _ _ _ fun _ t => State.modUnit_tb t _ _).trans (s.tb_resetRegs _ _))

/-- The gate closes without touching the time. -/
theorem State.tb_closeGate (s : State) (d : Nat) (off : Bool) : (s.closeGate d off).tb = s.tb := by
  unfold State.closeGate
  dsimp only
  rw [State.modDie_tb, State.setFlag_tb, State.setFld_tb, State.tb_resetLogic, State.modHearth_tb, State.loseHearth, State.modHearth_tb,
    State.tb_failHearthSteps]
  refine (forEach_proj State.tb _ _ _ fun u t => t.tb_advanceEpoch u).trans ?_
  exact (forEach_proj State.tb _ _ _ fun x t => t.tb_endResidency x false).trans (s.tb_cutMovesOf d)

theorem exec_dieDrain (die : Nat) (s : State) : exec (.dieDrain die) s = .next (dieDrain die s) := rfl

theorem exec_drainTimeout (die : Nat) (s : State) : exec (.drainTimeout die) s = .next (drainTimeout die s) := rfl

theorem exec_dieLogicOff (die : Nat) (s : State) : exec (.dieLogicOff die) s = .next (dieLogicOff die s) := rfl

theorem exec_dieRelease (die : Nat) (s : State) : exec (.dieRelease die) s = .next (dieRelease die s) := rfl

theorem exec_dieLogicReset (die cause : Nat) (s : State) : exec (.dieLogicReset die cause) s = .next (dieLogicReset die cause s) := rfl

theorem exec_dieSelftestDone (die : Nat) (pass : W32) (s : State) :
    exec (.dieSelftestDone die pass) s = .next (dieSelftestDone die pass s) := rfl

theorem exec_islandFailure (die : Nat) (s : State) : exec (.islandFailure die) s = .next (islandFailure die s) := rfl

theorem exec_dieIdleGate (die : Nat) (s : State) : exec (.dieIdleGate die) s = .next (dieIdleGate die s) := rfl

/-- A die in service with its gate open begins to drain. -/
theorem dieDrain_of_ready {die : Nat} {s : State} (hfit : s.fitted die = true) (hready : s.logicState die = logicReady)
    (hgate : (s.dieSt die).gate = true) :
    dieDrain die s = (((s.setFld (Fld.CDG_STATUS_logic_state die) logicDraining).setFld (Fld.CFR_CAUSE_last_cause die) 8).modDie die
      fun x => { x with drainAt := some s.tb }).holdDrained die := by
  simp only [dieDrain, hfit, hready, hgate, decide_true, Bool.and_self, if_true]

/-- Ten milliseconds into a drain what still runs is pre-empted and what is parked ends. -/
theorem drainTimeout_of_due {die t0 : Nat} {s : State} (hdrain : (s.dieSt die).drainAt = some t0)
    (hstate : s.logicState die = logicDraining) (hdue : s.passedUs t0 10000 = true) :
    drainTimeout die s =
      let s1 := forEach (s.liveRuns die) s fun r t => match t.run? die r.entry with | some x => t.preempt x | none => t
      (forEach (s1.residencies.filter fun x => decide (x.die = die)) s1 fun x t => t.endResidency x true).holdDrained die := by
  simp only [drainTimeout, hdrain, hstate, hdue, decide_true, Bool.and_self, if_true] <;> rfl

theorem dieLogicOff_of_drained {die : Nat} {s : State} (hfit : s.fitted die = true) (hdrained : s.drained die = true) :
    dieLogicOff die s = (((s.modDie die fun x => { x with loggedOff := true }).closeGate die true).notePresent die).refreshReady := by
  simp only [dieLogicOff, hfit, hdrained, Bool.and_self, if_true]

/-- A release of logic that is powered down or held out starts its self-test. -/
theorem dieRelease_of_off {die : Nat} {s : State} (hfit : s.fitted die = true) (hisland : (s.dieSt die).islandFailed = false)
    (hdrained : s.drained die = false) (hgate : (s.dieSt die).gate = false)
    (hoff : (s.dieSt die).loggedOff = true ∨ s.flag (Fld.CFR_STATUS_held_out die) = true) :
    dieRelease die s = ((((s.setFlag (Fld.CFR_STATUS_held_out die) false).modDie die fun x => { x with loggedOff := false, since := s.tb }).setFlag
      (Fld.CPC_STATUS_logic_powered die) true).setFld (Fld.CDG_STATUS_logic_state die) logicSelftest).notePresent die := by
  rw [← Bool.or_eq_true] at hoff
  simp only [dieRelease, hfit, hisland, hdrained, hgate, hoff, Bool.not_true, Bool.not_false, Bool.or_self, Bool.and_self, Bool.false_eq_true,
    if_false, if_true]

/-- A release of a drained die does the same behind its closed gate. -/
theorem dieRelease_of_drained {die : Nat} {s : State} (hfit : s.fitted die = true) (hisland : (s.dieSt die).islandFailed = false)
    (hdrained : s.drained die = true) :
    dieRelease die s = (((((s.closeGate die false).setFlag (Fld.CFR_STATUS_held_out die) false).modDie die
      fun x => { x with loggedOff := false, since := s.tb }).setFlag (Fld.CPC_STATUS_logic_powered die) true).setFld
      (Fld.CDG_STATUS_logic_state die) logicSelftest).notePresent die := by
  simp only [dieRelease, hfit, hisland, hdrained, Bool.not_true, Bool.or_self, Bool.false_eq_true, if_false, if_true]

/-- A reset of the logic of a die in service takes the die out. -/
theorem dieLogicReset_of_gate {die cause : Nat} {s : State} (hfit : s.fitted die = true) (hgate : (s.dieSt die).gate = true)
    (hlo : 1 ≤ cause) (hhi : cause ≤ 7) :
    dieLogicReset die cause s = if cause = 7 then (s.takeOutDie die cause false).modDie die fun x => { x with thermalOut := true }
      else s.takeOutDie die cause false := by
  simp only [dieLogicReset, hfit, hgate, hlo, hhi, decide_true, Bool.and_self, if_true]

/-- Logic in its self-test, which nothing keeps out, is started and its pass map taken. -/
theorem dieSelftestDone_of_testing {die : Nat} {pass : W32} {s : State} (hfit : s.fitted die = true) (hgate : (s.dieSt die).gate = false)
    (hisland : (s.dieSt die).islandFailed = false) (hlogged : (s.dieSt die).loggedOff = false) (hthermal : (s.dieSt die).thermalOut = false)
    (hheld : s.flag (Fld.CFR_STATUS_held_out die) = false) (hdamped : s.saf.damped = false) (hstate : s.logicState die = logicSelftest) :
    dieSelftestDone die pass s =
      let s1 := (s.startEngines die).dieMap die pass
      if (s1.dieSt die).startFailed then (s1.setFld (Fld.CDG_STATUS_logic_state die) logicReset).logEvent 2 3 (dieUnit die) 0
      else
        let s2 := (s1.setFld (Fld.CDG_STATUS_logic_state die) logicReady).setFlag (Fld.CPC_STATUS_logic_powered die) true
        let out := decide (0 < (s.dieSt die).takeoutAt.length) && decide ((s.dieSt die).since = (s.dieSt die).takeoutAt.getLastD 0)
        let s3 := (s2.modDie die fun y => { y with gate := true, since := s.tb }).send (.epochNotice (dieUnit die) (s2.epoch (dieUnit die)))
        (if out then s3.logEvent 2 4 (dieUnit die) 0 else s3).refreshReady := by
  simp only [dieSelftestDone, hfit, hgate, hisland, hlogged, hthermal, hheld, hdamped, hstate, ne_eq, not_true_eq_false, decide_false,
    Bool.not_true, Bool.or_self, Bool.false_eq_true, if_false]

/-- The failure of an island takes the whole die out, its links down and its page moves back. -/
theorem islandFailure_of_gate {die : Nat} {s s1 : State} (hfit : s.fitted die = true) (hisland : (s.dieSt die).islandFailed = false)
    (h1 : s1 = ((s.modDie die fun x => { x with islandFailed := true, island := false }).logEvent 2 3 (unitOf hubDie (0x080 + die)) 0).setFlag
      (Fld.CDG_STATUS_island_up die) false) (hgate : (s1.dieSt die).gate = true) :
    islandFailure die s =
      let s2 := forEach [0x080, 0x081, 0x082] (s1.takeOutDie die 6 true) fun e t => t.linkDown (unitOf die e)
      ((forEach s2.moves s2 fun x t => if x.2.phase = .copying ∧ (groupDie x.2.oldGroup = die ∨ groupDie x.2.newGroup = die) then t.abandonMove x.1 else t).notePresent
        die).refreshReady := by
  simp only [islandFailure, hfit, hisland, ← h1, hgate, Bool.not_true, Bool.or_self, Bool.false_eq_true, if_false, if_true]

theorem dieIdleGate_of_idle {die : Nat} {s : State} (hfit : s.fitted die = true) (hrun : s.power.phase = .run)
    (hflight : s.inFlightOn die = false) (hidle : s.passedUs (s.dieSt die).idleSince (s.fld Fld.PWR_CTRL_idle_us) = true) :
    dieIdleGate die s = s.modPower fun p => { p with gated := mapSet p.gated die () } := by
  simp only [dieIdleGate, hfit, hrun, hflight, hidle, decide_true, Bool.not_false, Bool.and_self, if_true]

/-- Settles O31: one lemma per command of a compute die, in the branch its clause names. -/
theorem diesLeaveAndReturnToService : Obligations.DiesLeaveAndReturnToService := by
  refine ⟨?drain, ?timeout, ?off, ?release, ?releaseDrained, ?reset, ?started, ?failed, ?island, ?idle⟩
  case drain =>
    intro die s hfit hready hgate
    rw [exec_dieDrain, dieDrain_of_ready hfit hready hgate]
  case timeout =>
    rintro die t0 s1 s hdrain hstate hdue rfl
    rw [exec_drainTimeout, drainTimeout_of_due hdrain hstate hdue] <;> rfl
  case off =>
    intro die s hfit hdrained
    rw [exec_dieLogicOff, dieLogicOff_of_drained hfit hdrained]
  case release =>
    intro die s hfit hisland hdrained hgate hoff
    rw [exec_dieRelease, dieRelease_of_off hfit hisland hdrained hgate hoff]
  case releaseDrained =>
    rintro die s1 s hfit hisland hdrained rfl
    rw [exec_dieRelease, dieRelease_of_drained hfit hisland hdrained, State.tb_closeGate]
  case reset =>
    intro die cause s hfit hgate hlo hhi
    constructor
    · intro hcause
      rw [exec_dieLogicReset, dieLogicReset_of_gate hfit hgate hlo hhi, if_neg hcause]
    · rintro rfl
      rw [exec_dieLogicReset, dieLogicReset_of_gate hfit hgate hlo hhi, if_pos rfl]
  case started =>
    rintro die pass s1 s2 s hfit hgate hisland hlogged hthermal hheld hdamped hstate rfl hpass rfl hnone
    rw [exec_dieSelftestDone, dieSelftestDone_of_testing hfit hgate hisland hlogged hthermal hheld hdamped hstate]
    simp only [hpass, hnone, List.length_nil, Nat.lt_irrefl, decide_false, Bool.false_and, Bool.false_eq_true, if_false]
  case failed =>
    rintro die pass s1 s hfit hgate hisland hlogged hthermal hheld hdamped hstate rfl hfail
    rw [exec_dieSelftestDone, dieSelftestDone_of_testing hfit hgate hisland hlogged hthermal hheld hdamped hstate]
    simp only [hfail, if_true]
  case island =>
    rintro die s1 s2 s hfit hisland h1 hgate rfl
    rw [exec_islandFailure, islandFailure_of_gate hfit hisland h1 hgate]
  case idle =>
    intro die s hfit hrun hflight hidle
    rw [exec_dieIdleGate, dieIdleGate_of_idle hfit hrun hflight hidle]

end Sys2Proof.Machine
end

section

/-! ## Of the ledger mirror, reserved pages and the clearing of a client (O33)

The clearing of a client writes its last accounting block after its keys are gone, so it needs what a write to memory leaves alone. -/

namespace Sys2Proof.Machine

open Sys2Proof

/-! ### What a write to memory may change -/

/-- Below this key lie the hub's registers of identity, power, time, security, and the safety status with the injection's pass map. -/
def lowRegs : Nat := 0x40014

/-- A write to memory, with all that the controllers record of it, changes at most registers above the low ones, bytes, logs and
messages, the state of controllers and Hearths, clients' event counts, access counts and the written lines of moves. -/
def State.StoreOnly (s t : State) : Prop :=
  t = { s with
    regs := t.regs, mem := t.mem, sent := t.sent, trace := t.trace
    saf := { s.saf with lost := t.saf.lost, msixAt := t.saf.msixAt, merges := t.saf.merges }
    power := { s.power with wakeOut := t.power.wakeOut }
    dmcs := t.dmcs, hearths := t.hearths, clients := t.clients, access := t.access, moves := t.moves } ∧
  ∀ k, k < lowRegs → t.reg k = s.reg k

theorem State.StoreOnly.refl (s : State) : s.StoreOnly s := ⟨rfl, fun _ _ => rfl⟩

theorem State.StoreOnly.trans {s t u : State} (h1 : s.StoreOnly t) (h2 : t.StoreOnly u) : s.StoreOnly u := by
  obtain ⟨heq1, hregs1⟩ := h1
  obtain ⟨heq2, hregs2⟩ := h2
  exact ⟨by rw [heq2, heq1], fun k hk => (hregs2 k hk).trans (hregs1 k hk)⟩

theorem lowRegs_le_logKeys : ∀ k ∈ logKeys, lowRegs ≤ k := by decide

theorem State.OnlyLogs.storeOnly {s t : State} (h : s.OnlyLogs t) : s.StoreOnly t :=
  ⟨by rw [h.1], fun k hk => h.reg fun hmem => absurd hk (Nat.not_lt.mpr (lowRegs_le_logKeys k hmem))⟩

theorem State.StoreOnly.keys {s t : State} (h : s.StoreOnly t) : t.keys = s.keys := by
  rw [h.1]

theorem State.storeOnly_setFld {f : Fld} (s : State) (v : Nat) (h : lowRegs ≤ f.key) : s.StoreOnly (s.setFld f v) :=
  ⟨rfl, fun _ hk => State.reg_setReg_other s _ (Nat.ne_of_lt (Nat.lt_of_lt_of_le hk h))⟩

theorem State.storeOnly_setFlag {f : Fld} (s : State) (b : Bool) (h : lowRegs ≤ f.key) : s.StoreOnly (s.setFlag f b) :=
  s.storeOnly_setFld _ h

theorem State.storeOnly_addFld {f : Fld} (s : State) (n : Nat) (h : lowRegs ≤ f.key) : s.StoreOnly (s.addFld f n) :=
  s.storeOnly_setFld _ h

theorem State.storeOnly_store (s : State) (a : Nat) (bs : List Byte) : s.StoreOnly (s.store a bs) := ⟨rfl, fun _ _ => rfl⟩

theorem State.storeOnly_msix (s : State) (fn vec : Nat) : s.StoreOnly (s.msix fn vec) := ⟨rfl, fun _ _ => rfl⟩

theorem State.storeOnly_modDmc (s : State) (g : Nat) (f : Dmc → Dmc) : s.StoreOnly (s.modDmc g f) := ⟨rfl, fun _ _ => rfl⟩

theorem State.storeOnly_modHearth (s : State) (d : Nat) (f : Hearth → Hearth) : s.StoreOnly (s.modHearth d f) := ⟨rfl, fun _ _ => rfl⟩

theorem State.storeOnly_modClient (s : State) (c : Nat) (f : Client → Client) : s.StoreOnly (s.modClient c f) := ⟨rfl, fun _ _ => rfl⟩

theorem State.storeOnly_markDirty (s : State) (g off : Nat) : s.StoreOnly (s.markDirty g off) := ⟨rfl, fun _ _ => rfl⟩

/-- The registers of a group's controller lie above the low ones. -/
theorem lowRegs_le_dmcBase (g k : Nat) : lowRegs ≤ dmcBase g + k := by
  simp only [lowRegs, dmcBase, dieBase]
  split <;> omega

theorem State.storeOnly_forEach {β : Type} {f : β → State → State} (h : ∀ x (t : State), t.StoreOnly (f x t)) (xs : List β) (s : State) :
    s.StoreOnly (forEach xs s f) := by
  induction xs generalizing s with
  | nil => exact .refl s
  | cons x xs ih => exact (h x s).trans (ih (f x s))

theorem State.storeOnly_putWord (s : State) (g cw : Nat) (bs : List Byte) : s.StoreOnly (s.putWord g cw bs) :=
  (s.storeOnly_store _ _).trans (State.storeOnly_modDmc _ g _)

theorem State.storeOnly_putClinker (s : State) (g cw : Nat) (bs : List Byte) : s.StoreOnly (s.putClinker g cw bs) :=
  (s.storeOnly_store _ _).trans (State.storeOnly_modDmc _ g _)

theorem State.storeOnly_noteUe (s : State) (g cw : Nat) : s.StoreOnly (s.noteUe g cw) := by
  have hshown := (s.storeOnly_setFlag (f := Fld.DMC_STATUS_ue_seen (dmcBase g)) true (lowRegs_le_dmcBase g _)).trans
    (State.storeOnly_setFld (f := Fld.DMC_UE_OFFSET_ue_offset (dmcBase g)) _ (cw * 16) (lowRegs_le_dmcBase g _))
  unfold State.noteUe
  dsimp only
  split
  · exact hshown.trans (State.storeOnly_modDmc _ g _)
  · exact hshown

theorem State.storeOnly_flushBad (s : State) (g : Nat) (e : MergeEntry) : s.StoreOnly (s.flushBad g e) :=
  (s.storeOnly_modDmc g _).trans (State.storeOnly_forEach (fun _ t => (t.storeOnly_putClinker g _ _).trans (State.storeOnly_noteUe _ g _)) _ _)

theorem State.storeOnly_cleanHearth (s : State) (d off n : Nat) : s.StoreOnly (s.cleanHearth d off n) := by
  refine State.storeOnly_forEach (fun w t => ?_) _ s
  dsimp only
  split
  · exact t.storeOnly_modHearth d _
  · exact .refl t

theorem State.storeOnly_countLines (s : State) (die a n : Nat) : s.StoreOnly (s.countLines die a n) := by
  rw [State.countLines_frame]
  exact ⟨rfl, fun _ _ => rfl⟩

section Recorders

variable {tell : State → Nat → Nat → List Nat → State} {note : State → Nat → Nat → State}
  (htell : ∀ (t : State) g ev owners, t.StoreOnly (tell t g ev owners))
  (hnote : ∀ (t : State) g j, t.StoreOnly (note t g j))

include htell

theorem State.storeOnly_exposeGroupBy (s : State) (g : Nat) : s.StoreOnly (s.exposeGroupBy tell g) := by
  unfold State.exposeGroupBy
  dsimp only
  exact (s.storeOnly_setFlag _ (lowRegs_le_dmcBase g _)).trans ((State.onlyLogs_writeLog _ _).storeOnly.trans ((htell _ _ _ _).trans (State.storeOnly_modDmc _ g _)))

theorem State.storeOnly_markPositionBy (s : State) (g j : Nat) : s.StoreOnly (s.markPositionBy tell g j) := by
  have hmarked : s.StoreOnly ((s.setFld (Fld.DMC_STATUS_marked (dmcBase g)) (setBit (s.fld (Fld.DMC_STATUS_marked (dmcBase g))) j
      true)).logEvent 0 0 (groupUnit g) 0) :=
    (s.storeOnly_setFld _ (lowRegs_le_dmcBase g _)).trans (State.onlyLogs_writeLog _ _).storeOnly
  unfold State.markPositionBy
  dsimp only
  split
  · exact .refl s
  · split
    · exact hmarked.trans (State.storeOnly_exposeGroupBy htell _ g)
    · exact hmarked

theorem State.storeOnly_noteCorrectionBy (s : State) (g j : Nat) : s.StoreOnly (s.noteCorrectionBy tell g j) := by
  have hcounted (f : Dmc → Dmc) : s.StoreOnly ((((s.addFld (Fld.DMC_CE_COUNT_corrections (dmcBase g)) 1).setFlag
      (Fld.DMC_STATUS_ce_seen (dmcBase g)) true).logCorrected (groupUnit g) 0).modDmc g f) :=
    (s.storeOnly_addFld _ (lowRegs_le_dmcBase g _)).trans ((State.storeOnly_setFlag _ _ (lowRegs_le_dmcBase g _)).trans
      ((State.onlyLogs_logCorrected _ _ _ _).storeOnly.trans (State.storeOnly_modDmc _ g f)))
  unfold State.noteCorrectionBy
  dsimp only
  split
  · exact (hcounted _).trans (State.storeOnly_markPositionBy htell _ g j)
  · exact hcounted _

omit htell
include hnote

theorem State.storeOnly_noteCorrected (s : State) (g cw : Nat) : s.StoreOnly (s.noteCorrected note g cw) := by
  unfold State.noteCorrected
  split
  · exact hnote s g _
  · exact .refl s

theorem State.storeOnly_flushWordBy (s : State) (g : Nat) (e : MergeEntry) (k : Nat) : s.StoreOnly (s.flushWordBy note g e k) := by
  unfold State.flushWordBy
  dsimp only
  split
  · exact .refl s
  · split
    · exact s.storeOnly_putWord g _ _
    · split
      · exact (State.storeOnly_noteCorrected hnote s g _).trans (State.storeOnly_putWord _ g _ _)
      · exact (s.storeOnly_putClinker g _ _).trans (State.storeOnly_noteUe _ g _)

theorem State.storeOnly_flushEntryBy (s : State) (g : Nat) (e : MergeEntry) : s.StoreOnly (s.flushEntryBy note g e) := by
  unfold State.flushEntryBy
  split
  · exact s.storeOnly_flushBad g e
  · exact (s.storeOnly_modDmc g _).trans (State.storeOnly_forEach (fun k t => State.storeOnly_flushWordBy hnote t g e k) _ _)

theorem State.storeOnly_writeLineBy (s : State) (g off : Nat) (bs : List Byte) : s.StoreOnly (s.writeLineBy note g off bs) := by
  unfold State.writeLineBy
  dsimp only
  split
  · split
    · exact State.storeOnly_flushEntryBy hnote s g _
    · exact s.storeOnly_modDmc g _
  · split
    · exact State.storeOnly_forEach (fun _ t => t.storeOnly_putWord g _ _) _ s
    · refine State.StoreOnly.trans ?_ (State.storeOnly_modDmc _ g _)
      split
      · split
        · exact State.storeOnly_flushEntryBy hnote s g _
        · exact .refl s
      · exact .refl s

theorem State.storeOnly_dramWriteBy (s : State) (g off : Nat) (bs : List Byte) : s.StoreOnly (s.dramWriteBy note g off bs) :=
  State.storeOnly_forEach (fun _ t => (t.storeOnly_markDirty g _).trans (State.storeOnly_writeLineBy hnote _ g _ _)) _ s

theorem State.storeOnly_putAtBy (s : State) (p : Place) (bs : List Byte) : s.StoreOnly (s.putAtBy note p bs) := by
  cases p with
  | dram g off => exact State.storeOnly_dramWriteBy hnote s g off bs
  | unbacked => exact .refl s
  | hearth d off =>
    unfold State.putAtBy
    dsimp only
    exact (s.storeOnly_cleanHearth d off bs.length).trans ((State.storeOnly_store _ _ _).trans (State.storeOnly_modHearth _ d _))
  | remote k => exact s.storeOnly_store k bs
  | host k =>
    unfold State.putAtBy
    dsimp only
    split
    · exact .refl s
    · exact s.storeOnly_store k bs

theorem storeOnly_writePiecesBy (find : State → Nat → Except Nat Place) (strict : Bool) (ps : List (Nat × List Byte)) (s : State) :
    s.StoreOnly (writePiecesBy note find strict ps s).1 := by
  induction ps generalizing s with
  | nil => exact .refl s
  | cons x ps ih =>
    obtain ⟨a, bs⟩ := x
    unfold writePiecesBy
    split
    · split
      · exact .refl s
      · exact ih s
    · split
      · exact .refl s
      · exact ih s
    · exact (State.storeOnly_putAtBy hnote s _ bs).trans (ih _)

end Recorders

theorem State.storeOnly_clientEvent (s : State) (c ev unit arg : Nat) : s.StoreOnly (s.clientEvent c ev unit arg) := by
  have hquiet : ∀ (t : State) g j, t.StoreOnly (t.noteCorrectionBy (fun t _ _ _ => t) g j) :=
    State.storeOnly_noteCorrectionBy fun t _ _ _ => .refl t
  unfold State.clientEvent
  extract_lets base cl count full rec quiet a s1
  have hs1 : s.StoreOnly s1 := (storeOnly_writePiecesBy hquiet _ _ _ s).trans (State.storeOnly_countLines _ _ _ _)
  clear_value s1
  split
  · exact .refl s
  · split
    · exact s.storeOnly_modClient c _
    · exact hs1.trans ((State.storeOnly_modClient _ c _).trans (State.storeOnly_msix _ _ _))

theorem State.storeOnly_noteCorrection (s : State) (g j : Nat) : s.StoreOnly (s.noteCorrection g j) :=
  State.storeOnly_noteCorrectionBy (fun t _ _ _ => State.storeOnly_forEach (fun _ u => u.storeOnly_clientEvent _ _ _ _) _ t) s g j

theorem State.storeOnly_devWrite (s : State) (c a : Nat) (bs : List Byte) : s.StoreOnly (s.devWrite c a bs) :=
  (storeOnly_writePiecesBy State.storeOnly_noteCorrection _ _ _ s).trans (State.storeOnly_countLines _ _ _ _)

theorem State.storeOnly_sysWrite (s : State) (c a : Nat) (bs : List Byte) : s.StoreOnly (s.sysWrite c a bs) :=
  (storeOnly_writePiecesBy State.storeOnly_noteCorrection _ _ _ s).trans (State.storeOnly_countLines _ _ _ _)

/-! ### The last accounting block of a client is written after its keys are gone -/

theorem State.keys_chargeWaits (s : State) (c : Nat) : (s.chargeWaits c).keys = s.keys := by
  refine forEach_proj State.keys _ _ _ fun r t => ?_
  have hacct (u : State) (n : Nat) (f : Ring → Ring) (off : Nat) : ((u.acct c off n).modRing r f).keys = u.keys := rfl
  dsimp only
  split
  · split
    · exact (hacct _ _ _ _).trans (hacct _ _ _ _)
    · exact hacct _ _ _ _
  · split
    · exact hacct _ _ _ _
    · rfl

theorem State.keys_writeAcct (s : State) (c : Nat) : (s.writeAcct c).keys = s.keys := by
  unfold State.writeAcct
  dsimp only
  split
  · rfl
  · rw [State.acct, State.modClient_keys, (State.storeOnly_sysWrite _ _ _ _).keys, (State.storeOnly_sysWrite _ _ _ _).keys,
      State.keys_chargeWaits]

/-! ### The commands -/

theorem exec_ledgerEnable (s : State) : exec .ledgerEnable s = .next (ledgerEnable s) := rfl

theorem exec_reservedPageBacked (page : Nat) (s : State) : exec (.reservedPageBacked page) s = .next (reservedPageBacked page s) := rfl

theorem exec_clientClear (client : Nat) (s : State) : exec (.clientClear client) s = .next (clientClear client s) := rfl

/-- Where the base and the map will do, the mirror's pages become system pages. -/
theorem ledgerEnable_of_fit {base n : Nat} {s : State} (hoff : s.flag Fld.SCH_LEDGER_CTRL_enable = false)
    (hbase : s.fld Fld.SCH_LEDGER_BASE_mirror_base = base) (hn : base / 0x200000 = n) (hmap : s.flag Fld.MEM_MAP_CTRL_enable = true)
    (haligned : base % 0x4000000 = 0) (hinside : base + 0x4000000 ≤ s.deviceEnd)
    (hfree : (natRange n 32).all (fun k => decide ((s.page k).state = .free)) = true) :
    ledgerEnable s = (forEach (natRange (n + 16) 16) (forEach (natRange n 16) s fun k t => t.systemPage k 0)
      fun k t => t.systemPage k 1).setFlag Fld.SCH_LEDGER_CTRL_enable true := by
  simp only [ledgerEnable, hoff, hbase, hn, hmap, haligned, hinside, hfree, decide_true, Bool.and_self, Bool.false_eq_true, if_false, if_true]

/-- A base or a map that will not do sets `enable_error`. -/
theorem ledgerEnable_of_unfit {base : Nat} {s : State} (hoff : s.flag Fld.SCH_LEDGER_CTRL_enable = false)
    (hbase : s.fld Fld.SCH_LEDGER_BASE_mirror_base = base)
    (hunfit : s.flag Fld.MEM_MAP_CTRL_enable = false ∨ base % 0x4000000 ≠ 0 ∨ s.deviceEnd < base + 0x4000000) :
    ledgerEnable s = s.setFlag Fld.SCH_LEDGER_CTRL_enable_error true := by
  have hguard : (s.flag Fld.MEM_MAP_CTRL_enable && decide (base % 0x4000000 = 0) && decide (base + 0x4000000 ≤ s.deviceEnd)) = false := by
    rcases hunfit with hmap | hbad | hbeyond
    · rw [hmap, Bool.false_and, Bool.false_and]
    · rw [decide_eq_false hbad, Bool.and_false, Bool.false_and]
    · rw [decide_eq_false (Nat.not_le.mpr hbeyond), Bool.and_false]
  simp only [ledgerEnable, hoff, hbase, hguard, Bool.false_and, Bool.false_eq_true, if_false]

/-- A reserved page that its zeroing time has passed gets its frame. -/
theorem reservedPageBacked_of_due {page g f : Nat} {r : Reserve} {s : State} (hreserved : mapFind s.reserves page = some r)
    (hframe : s.frameFor (s.page page) = some (g, f)) (hdue : backNs ≤ s.nsSince (max r.since (s.dmc g).backedAt)) :
    reservedPageBacked page s =
      let s1 := (s.backIn page g f .backed).modDmc g (fun d => { d with backedAt := s.tb })
      { s1 with reserves := mapDel s1.reserves page }.refreshReady := by
  simp only [reservedPageBacked, hreserved, hframe, Nat.not_lt.mpr hdue, if_false]

theorem clientClear_of_busy {client : Nat} {s : State} (h : s.readyToClear client = false) : clientClear client s = s := by
  simp only [clientClear, h, Bool.not_false, if_true]

/-- The clearing ends with the client's keys gone, its last accounting block written, and then its attachment taken back. -/
theorem clientClear_of_ready {client : Nat} {s : State} (h : s.readyToClear client = true) :
    ∃ (u : State) (k : Keys), mapFind k.clientKeys client = none ∧ mapFind k.compatKeys client = none ∧
      clientClear client s = (((u.modKeys fun _ => k).writeAcct client).setFlag (Fld.SCH_CLIENT_CTRL_attached client) false).setFlag
        (Fld.SCH_CLIENT_CTRL_detaching client) false := by
  unfold clientClear
  rw [h, Bool.not_true, if_neg Bool.false_ne_true]
  extract_lets s1 s2 s3 s4 s5 s6
  clear_value s4
  exact ⟨s4, s5.keys, mapFind_mapDel_same _ _, mapFind_mapDel_same _ _, rfl⟩

/-- Settles O33: each command in the branch its clause names; the accounting block written last leaves the keys as they are. -/
theorem ledgerReservesAndClearing : Obligations.LedgerReservesAndClearing := by
  refine ⟨?ledger, ?reserved, ?busy, ?clear⟩
  case ledger =>
    intro base n s hoff hbase hn
    constructor
    · intro hmap haligned hinside hfree
      rw [exec_ledgerEnable, ledgerEnable_of_fit hoff hbase hn hmap haligned hinside hfree]
    · intro hunfit
      rw [exec_ledgerEnable, ledgerEnable_of_unfit hoff hbase hunfit]
  case reserved =>
    rintro page g f r s1 s hreserved hframe hdue rfl
    rw [exec_reservedPageBacked, reservedPageBacked_of_due hreserved hframe hdue]
  case busy =>
    intro client s h
    rw [exec_clientClear, clientClear_of_busy h]
  case clear =>
    intro client s h
    obtain ⟨u, k, hclient, hcompat, hend⟩ := clientClear_of_ready h
    have hkeys : (clientClear client s).keys = k := by
      rw [hend, State.setFlag_keys, State.setFlag_keys, State.keys_writeAcct]
      rfl
    refine ⟨clientClear client s, exec_clientClear client s, ?_, ?_, ?_, ?_⟩
    · rw [hend, State.attached, State.flag_setFlag_apart (f := Fld.SCH_CLIENT_CTRL_detaching client) (g := Fld.SCH_CLIENT_CTRL_attached client) _ _ rfl
        (show 11 + 1 ≤ 64 by decide) (show 10 + 1 ≤ 64 by decide) (.inl (show 10 + 1 ≤ 11 by decide)),
        State.flag_setFlag_same (f := Fld.SCH_CLIENT_CTRL_attached client) _ _ (show 10 + 1 ≤ 64 by decide) rfl]
    · rw [hend, State.detaching, State.flag_setFlag_same (f := Fld.SCH_CLIENT_CTRL_detaching client) _ _ (show 11 + 1 ≤ 64 by decide) rfl]
    · rw [hkeys]; exact hclient
    · rw [hkeys]; exact hcompat

end Sys2Proof.Machine
end

section

/-! ## Of the bellows and of the upkeep of a memory group (O34) -/

namespace Sys2Proof.Machine

open Sys2Proof

theorem exec_bellowsEvaluate (s : State) : exec .bellowsEvaluate s = .next (bellowsEvaluate s) := rfl

theorem exec_bellowsCopyPass (page : Nat) (s : State) : exec (.bellowsCopyPass page) s = .next (bellowsCopyPass page s) := rfl

theorem exec_bellowsHoldEnd (page : Nat) (s : State) : exec (.bellowsHoldEnd page) s = .next (bellowsHoldEnd page s) := rfl

theorem exec_bellowsForwardEnd (page : Nat) (s : State) : exec (.bellowsForwardEnd page) s = .next (bellowsForwardEnd page s) := rfl

theorem exec_mergeAgeFlush (group : Nat) (errs : List (Nat × List W16)) (bad : Bool) (s : State) :
    exec (.mergeAgeFlush group errs bad) s = .next (mergeAgeFlush group errs bad s) := rfl

theorem exec_scrubBurst (group : Nat) (errs : List (Nat × List W16)) (s : State) :
    exec (.scrubBurst group errs) s = .next (scrubBurst group errs s) := rfl

theorem exec_lapOverdue (group : Nat) (s : State) : exec (.lapOverdue group) s = .next (lapOverdue group s) := rfl

theorem exec_dramHealthCheck (group : Nat) (failing : List Nat) (s : State) :
    exec (.dramHealthCheck group failing) s = .next (dramHealthCheck group failing s) := rfl

theorem exec_evacuationPageMove (group : Nat) (s : State) : exec (.evacuationPageMove group) s = .next (evacuationPageMove group s) := rfl

theorem exec_evacuationRetry (group : Nat) (s : State) : exec (.evacuationRetry group) s = .next (evacuationRetry group s) := rfl

/-! ### An entry of a merge buffer that has reached its age -/

/-- The second of two insertions under one key is the one that stays. -/
theorem mapSet_mapSet_same {α : Type} (m : NMap α) (k : Nat) (v w : α) : mapSet (mapSet m k v) k w = mapSet m k w := by
  induction m with
  | nil => simp only [mapSet, Nat.lt_irrefl, if_false, if_true]
  | cons p m ih =>
    obtain ⟨j, u⟩ := p
    by_cases hlt : k < j
    · simp only [mapSet, hlt, Nat.lt_irrefl, if_false, if_true]
    · by_cases heq : j = k
      · simp only [mapSet, heq, Nat.lt_irrefl, if_false, if_true]
      · simp only [mapSet, hlt, heq, if_false, ih]

/-- Two changes of one group's controller are one. -/
theorem State.modDmc_modDmc (s : State) (g : Nat) (f h : Dmc → Dmc) : (s.modDmc g f).modDmc g h = s.modDmc g fun d => h (f d) := by
  show { s with dmcs := mapSet (mapSet s.dmcs g (f (s.dmc g))) g (h ((s.modDmc g f).dmc g)) } = _
  rw [mapSet_mapSet_same, State.dmc_modDmc_same]
  rfl

/-- The entry of a line, shown to hold an error. -/
def MergeEntry.spoiled (line : Nat) (x : MergeEntry) : MergeEntry := if x.line = line then { x with bad := true } else x

theorem MergeEntry.spoiled_line (line : Nat) (x : MergeEntry) : (x.spoiled line).line = x.line := by
  unfold MergeEntry.spoiled
  split <;> rfl

theorem MergeEntry.spoiled_other {line : Nat} {x : MergeEntry} (h : x.line ≠ line) : x.spoiled line = x := if_neg h

theorem MergeEntry.spoiled_own (x : MergeEntry) : x.spoiled x.line = { x with bad := true } := if_pos rfl

/-- An error shown by a line's entry does not change which other entries stay when the line's entry goes. -/
theorem filter_map_spoiled (line : Nat) (xs : List MergeEntry) :
    ((xs.map (MergeEntry.spoiled line)).filter fun x => decide (x.line ≠ line)) = xs.filter fun x => decide (x.line ≠ line) := by
  induction xs with
  | nil => rfl
  | cons x xs ih =>
    by_cases h : x.line = line
    · rw [List.map_cons, List.filter_cons_of_neg, List.filter_cons_of_neg, ih]
      · exact fun hd => (of_decide_eq_true hd) h
      · exact fun hd => (of_decide_eq_true hd) ((x.spoiled_line line).trans h)
    · rw [List.map_cons, MergeEntry.spoiled_other h, List.filter_cons_of_pos, List.filter_cons_of_pos, ih]
      · exact decide_eq_true h
      · exact decide_eq_true h

/-- An aged entry with an error of its own is the same entry, shown to be bad. -/
theorem State.agedEntry_spoilEntry {s : State} {g : Nat} {e : MergeEntry} (h : s.agedEntry g = some e) :
    (s.spoilEntry g).agedEntry g = some { e with bad := true } := by
  have hage (x : MergeEntry) : (decide ((x.spoiled e.line).age * 250 ≤ s.nsSince (x.spoiled e.line).since)) =
      decide (x.age * 250 ≤ s.nsSince x.since) := by
    unfold MergeEntry.spoiled
    split <;> rfl
  have hmerge : ((s.spoilEntry g).dmc g).merge = (s.dmc g).merge.map (MergeEntry.spoiled e.line) := by
    simp only [State.spoilEntry, h, State.dmc_modDmc_same]
    rfl
  have hns : (s.spoilEntry g).nsSince = s.nsSince := by
    simp only [State.spoilEntry, h]
    rfl
  unfold State.agedEntry at h ⊢
  rw [hmerge, hns, List.find?_map]
  simp only [Function.comp_def, hage, h, Option.map_some, MergeEntry.spoiled_own]

/-- Bad bytes in the aged entry make its four words clinker. -/
theorem State.flushEntry_spoilEntry {s : State} {g : Nat} {e : MergeEntry} (h : s.agedEntry g = some e) :
    (s.spoilEntry g).flushEntry g { e with bad := true } = s.flushBad g e := by
  have hmod : (s.spoilEntry g).modDmc g (fun d => { d with merge := d.merge.filter fun x => decide (x.line ≠ e.line) }) =
      s.modDmc g fun d => { d with merge := d.merge.filter fun x => decide (x.line ≠ e.line) } := by
    simp only [State.spoilEntry, h]
    rw [State.modDmc_modDmc]
    congr 1
    funext d
    exact congrArg (fun m => { d with merge := m }) (filter_map_spoiled e.line d.merge)
  unfold State.flushEntry State.flushEntryBy
  rw [if_pos rfl]
  unfold State.flushBad
  dsimp only
  rw [hmod]

theorem mergeAgeFlush_of_aged {group : Nat} {errs : List (Nat × List W16)} {bad : Bool} {e : MergeEntry} {s : State}
    (hserves : s.groupServes group = true) (haged : (s.addErrors group errs).agedEntry group = some e) :
    mergeAgeFlush group errs bad s =
      if bad then (s.addErrors group errs).flushBad group e else (s.addErrors group errs).flushEntry group e := by
  cases bad with
  | false => simp only [mergeAgeFlush, hserves, if_true, Bool.false_eq_true, if_false, haged]
  | true => simp only [mergeAgeFlush, hserves, if_true, State.agedEntry_spoilEntry haged, State.flushEntry_spoilEntry haged]

/-! ### The other commands -/

theorem bellowsEvaluate_of_due {s : State} (henable : s.flag Fld.MEM_BELLOWS_CTRL_enable = true)
    (hdue : s.passedUs s.bellowsAt s.bellows.period = true) :
    bellowsEvaluate s = (forEach (sortBy (fun (w : Nat × Nat × Nat) => w.2.2) s.moveWishes).reverse
      ((s.setFld Fld.MEM_BELLOWS_STATUS_moves_last s.movesDone).setFld Fld.MEM_BELLOWS_STATUS_deferred_last 0, s.bellows.maxMoves, [])
      wishMove).1.startPeriod := by
  simp only [bellowsEvaluate, henable, hdue, Bool.not_true, Bool.false_eq_true, or_self, if_false]

/-- A copy pass that is over ends the copying, begins another pass, or gives the move up. -/
theorem bellowsCopyPass_of_over {page : Nat} {m : Move} {s : State} (hmove : mapFind s.moves page = some m) (hphase : m.phase = .copying)
    (hover : (if m.pass = 1 then 32768 else m.todo.length) ≤ s.copiedLines m) :
    bellowsCopyPass page s =
      if m.dirty.length ≤ 256 then s.switchMove page m
      else if 4 ≤ m.pass then
        ((s.abandonMove page).setFlag Fld.MEM_BELLOWS_STATUS_aborted_seen true).logRecorded (unitOf hubDie 0x030) 0
      else
        let next := { m with pass := m.pass + 1, todo := m.dirty.map fun x => x.1, dirty := [], since := s.tb, done := 0 }
        { s with moves := mapSet s.moves page next } := by
  simp only [bellowsCopyPass, hmove, hphase, Nat.not_lt.mpr hover, if_false]

theorem bellowsHoldEnd_of_acknowledged {page : Nat} {m : Move} {s : State} (hmove : mapFind s.moves page = some m)
    (hphase : m.phase = .hold) (hnone : m.waiting.any s.logicUp = false) :
    bellowsHoldEnd page s = forEach m.held
      { s with moves := mapSet s.moves page { m with phase := .forwarding, since := s.tb, held := [], waiting := [] },
               movesDone := if m.evac then s.movesDone else s.movesDone + 1 }
      fun x t => t.atDmc x.1 m.oldGroup x.2 := by
  simp only [bellowsHoldEnd, hmove, hphase, hnone, Bool.false_eq_true, if_false]

theorem bellowsForwardEnd_of_due {page : Nat} {m : Move} {s : State} (hmove : mapFind s.moves page = some m)
    (hphase : m.phase = .forwarding) (hdue : s.passedUs m.since 100 = true) :
    bellowsForwardEnd page s = { s with moves := mapDel s.moves page } := by
  simp only [bellowsForwardEnd, hmove, hphase, hdue, if_true]

theorem lapOverdue_of_long {group : Nat} {s : State} (hup : s.groupUp group = true) (hlong : s.lapLong group = true) :
    lapOverdue group s = s.setFlag (Fld.DMC_STATUS_lap_overdue (dmcBase group)) true := by
  simp only [lapOverdue, hup, hlong, Bool.and_self, if_true]

theorem dramHealthCheck_of_due {group : Nat} {failing : List Nat} {s : State} (hserves : s.groupServes group = true)
    (hdue : (s.dmc group).healthDue = true ∨ s.passedUs (s.dmc group).healthAt 10000 = true) :
    dramHealthCheck group failing s = forEach ((natRange 0 10).filter failing.contains)
      (s.modDmc group fun d => { d with healthDue := false, healthAt := s.tb }) fun j t => t.markPosition group j :=
  if_pos (.inr ⟨hserves, hdue⟩)

/-- Settles O34: each command in the branch its clause names; an aged entry keeps its place when it is shown to be bad. -/
theorem movesAndDramUpkeep : Obligations.MovesAndDramUpkeep := by
  refine ⟨?evaluate, ?copy, ?hold, ?forward, ?merge, ?scrub, ?overdue, ?health, ?evacuate⟩
  case evaluate =>
    rintro s0 s henable hdue rfl
    rw [exec_bellowsEvaluate, bellowsEvaluate_of_due henable hdue]
  case copy =>
    intro page m s hmove hphase hover
    rw [exec_bellowsCopyPass, bellowsCopyPass_of_over hmove hphase hover]
    refine ⟨fun hfew => ?_, fun hmany hlast => ?_, fun hmany hmore => ?_⟩
    · rw [if_pos hfew]
    · rw [if_neg (Nat.not_le.mpr hmany), if_pos hlast]
    · rw [if_neg (Nat.not_le.mpr hmany), if_neg (Nat.not_le.mpr hmore)]
  case hold =>
    intro page m s hmove hphase hnone
    rw [exec_bellowsHoldEnd, bellowsHoldEnd_of_acknowledged hmove hphase hnone]
  case forward =>
    intro page m s hmove hphase hdue
    rw [exec_bellowsForwardEnd, bellowsForwardEnd_of_due hmove hphase hdue]
  case merge =>
    rintro group errs bad e s1 s hserves rfl haged
    rw [exec_mergeAgeFlush, mergeAgeFlush_of_aged hserves haged]
  case scrub =>
    rintro group pos errs s1 s2 s hscrubs h1 hpos h2
    rw [exec_scrubBurst]
    constructor
    · intro hmore
      simp only [scrubBurst, hscrubs, if_true, ← h1, hpos, ← h2, hmore, if_false]
    · intro hlast
      simp only [scrubBurst, hscrubs, if_true, ← h1, hpos, ← h2, hlast]
  case overdue =>
    intro group s hup hlong
    rw [exec_lapOverdue, lapOverdue_of_long hup hlong]
  case health =>
    intro group failing s hserves hdue
    rw [exec_dramHealthCheck, dramHealthCheck_of_due hserves hdue]
  case evacuate =>
    intro group e s hevac
    simp only [exec_evacuationPageMove, exec_evacuationRetry, evacuationPageMove, evacuationRetry, hevac]
    refine ⟨fun hgo => ?_, fun hstalled => ?_, fun hgo hdue => ?_, fun hstalled hdue => ?_⟩
    · rw [hgo, if_neg Bool.false_ne_true]
    · rw [hstalled, if_pos rfl]
    · rw [hgo, if_neg Bool.false_ne_true, hdue, if_pos rfl]
    · rw [hstalled, if_pos rfl, hdue, if_pos rfl]

end Sys2Proof.Machine
end

section

/-! ## The watch port's frames and the supervisor cores (O37, O38) -/

namespace Sys2Proof.Machine

open Sys2Proof

/-! ### Frames of the watch port that are answered with an error -/

theorem exec_watchFrameReject (s : State) : exec .watchFrameReject s = .next (watchFrameReject s) := rfl

theorem exec_watchUnknownCommand (command : Nat) (s : State) : exec (.watchUnknownCommand command) s = .next (watchUnknownCommand command s) := rfl

theorem exec_watchSafe (data : Nat) (s : State) : exec (.watchSafe data) s = .next (watchSafe data s) := rfl

theorem exec_watchKick (data : Nat) (s : State) : exec (.watchKick data) s = .next (watchKick data s) := rfl

theorem exec_watchStatus (data : Nat) (s : State) : exec (.watchStatus data) s = .next (watchStatus data s) := rfl

theorem exec_watchCause (data : Nat) (s : State) : exec (.watchCause data) s = .next (watchCause data s) := rfl

section Asleep

variable {s : State} (hasleep : s.awake = false)

include hasleep

theorem watchFrameReject_of_asleep : watchFrameReject s = s := by
  simp only [watchFrameReject, hasleep, Bool.not_false, if_true]

theorem watchUnknownCommand_of_asleep (command : Nat) : watchUnknownCommand command s = s := by
  simp only [watchUnknownCommand, hasleep, Bool.not_false, true_or, if_true]

theorem watchSafe_of_asleep (data : Nat) : watchSafe data s = s := by
  simp only [watchSafe, hasleep, Bool.not_false, if_true]

theorem watchKick_of_asleep (data : Nat) : watchKick data s = s := by
  simp only [watchKick, hasleep, Bool.not_false, if_true]

theorem watchStatus_of_asleep (data : Nat) : watchStatus data s = s := by
  simp only [watchStatus, hasleep, Bool.not_false, if_true]

theorem watchCause_of_asleep (data : Nat) : watchCause data s = s := by
  simp only [watchCause, hasleep, Bool.not_false, if_true]

end Asleep

/-- Settles O37: each command of the watch port by whether RUN serves it and whether its frame is accepted. -/
theorem watchPortFrames : Obligations.WatchPortFrames := by
  refine ⟨?reject, ?unknown, ?wrong, ?response, ?asleep⟩
  case reject =>
    intro s hawake
    simp only [exec_watchFrameReject, watchFrameReject, hawake, Bool.not_true, Bool.false_eq_true, if_false]
  case unknown =>
    intro command s hawake
    constructor
    · intro hunlisted
      simp only [exec_watchUnknownCommand, watchUnknownCommand, hawake, hunlisted, Bool.not_true, Bool.false_eq_true, or_self, if_false]
    · intro hlisted
      simp only [exec_watchUnknownCommand, watchUnknownCommand, hlisted, or_true, if_true]
  case wrong =>
    intro data s hawake
    constructor
    · intro hdata
      simp only [exec_watchSafe, watchSafe, hawake, hdata, Bool.not_true, Bool.false_eq_true, if_false]
    · exact fun hdata => exec_watchKick_of_wrong hawake hdata
  case response =>
    intro b s
    exact ⟨s.drawWord.2 % 65536, State.watchSet_watchNext _ _ _⟩
  case asleep =>
    intro data s hasleep
    rw [exec_watchStatus, exec_watchCause, exec_watchKick, exec_watchSafe, exec_watchFrameReject, exec_watchUnknownCommand,
      watchStatus_of_asleep hasleep, watchCause_of_asleep hasleep, watchKick_of_asleep hasleep, watchSafe_of_asleep hasleep,
      watchFrameReject_of_asleep hasleep, watchUnknownCommand_of_asleep hasleep]
    exact ⟨rfl, rfl, rfl, rfl, rfl, rfl⟩

/-! ### What the release of a step may change -/

/-- The release of a step changes at most what a write to memory changes, the steps and the rings, and the keys that a codec command's end
settles. -/
def State.ReleaseOnly (s t : State) : Prop :=
  t = { s with
    regs := t.regs, mem := t.mem, sent := t.sent, trace := t.trace
    saf := { s.saf with lost := t.saf.lost, msixAt := t.saf.msixAt, merges := t.saf.merges }
    power := { s.power with wakeOut := t.power.wakeOut }
    dmcs := t.dmcs, hearths := t.hearths, clients := t.clients, access := t.access, moves := t.moves
    steps := t.steps, rings := t.rings, keys := t.keys }

theorem State.ReleaseOnly.refl (s : State) : s.ReleaseOnly s := rfl

theorem State.ReleaseOnly.trans {s t u : State} (h1 : s.ReleaseOnly t) (h2 : t.ReleaseOnly u) : s.ReleaseOnly u := by
  unfold State.ReleaseOnly at h1 h2 ⊢
  rw [h2, h1]

theorem State.StoreOnly.releaseOnly {s t : State} (h : s.StoreOnly t) : s.ReleaseOnly t := by
  unfold State.ReleaseOnly
  rw [h.1]

theorem State.ReleaseOnly.tallyQueue {s t : State} (h : s.ReleaseOnly t) : t.tallyQueue = s.tallyQueue := by
  rw [h]

theorem State.releaseOnly_forEach {β : Type} {f : β → State → State} (h : ∀ x (t : State), t.ReleaseOnly (f x t)) (xs : List β) (s : State) :
    s.ReleaseOnly (forEach xs s f) := by
  induction xs generalizing s with
  | nil => exact .refl s
  | cons x xs ih => exact (h x s).trans (ih (f x s))

theorem State.releaseOnly_setFld (s : State) (f : Fld) (v : Nat) : s.ReleaseOnly (s.setFld f v) := rfl

theorem State.releaseOnly_setFlag (s : State) (f : Fld) (b : Bool) : s.ReleaseOnly (s.setFlag f b) := rfl

theorem State.releaseOnly_modRing (s : State) (r : Nat) (f : Ring → Ring) : s.ReleaseOnly (s.modRing r f) := rfl

theorem State.releaseOnly_modStep (s : State) (r q : Nat) (f : Step → Step) : s.ReleaseOnly (s.modStep r q f) := rfl

theorem State.releaseOnly_devWrite (s : State) (c a : Nat) (bs : List Byte) : s.ReleaseOnly (s.devWrite c a bs) :=
  (s.storeOnly_devWrite c a bs).releaseOnly

theorem State.releaseOnly_writeHead (s : State) (r : Nat) : s.ReleaseOnly (s.writeHead r) := by
  unfold State.writeHead
  dsimp only
  split
  · exact s.releaseOnly_devWrite _ _ _
  · exact .refl s

theorem State.releaseOnly_noteCommit (s : State) (ring : Nat) : s.ReleaseOnly (s.noteCommit ring) :=
  (s.releaseOnly_modRing ring _).trans (State.releaseOnly_forEach (fun _ t => t.releaseOnly_modStep _ _ _) _ _)

theorem State.releaseOnly_acctRelease (s : State) (c status : Nat) : s.ReleaseOnly (s.acctRelease c status) := by
  unfold State.acctRelease
  repeat' split
  all_goals rfl

theorem State.releaseOnly_settleRing (s : State) (r : Nat) : s.ReleaseOnly (s.settleRing r) := by
  unfold State.settleRing
  split
  · exact (s.releaseOnly_modRing r _).trans (State.releaseOnly_writeHead _ r)
  · exact .refl s

theorem State.releaseOnly_endHeld (s : State) (r : Nat) : s.ReleaseOnly (s.endHeld r) := by
  unfold State.endHeld
  dsimp only
  refine State.ReleaseOnly.trans ?_ (State.releaseOnly_modRing _ r _)
  split <;> split <;> rfl

theorem State.releaseOnly_settleHeld (s : State) : s.ReleaseOnly s.settleHeld := by
  refine State.releaseOnly_forEach (fun x t => ?_) _ s
  dsimp only
  split
  · exact t.releaseOnly_endHeld _
  · exact .refl t

/-- To note which commands have become ready changes at most the steps, the virtual times, and the keys that a codec command's end
settles. -/
def State.ReadyOnly (s t : State) : Prop := t = { s with steps := t.steps, clients := t.clients, keys := t.keys }

theorem State.ReadyOnly.refl (s : State) : s.ReadyOnly s := rfl

theorem State.ReadyOnly.trans {s t u : State} (h1 : s.ReadyOnly t) (h2 : t.ReadyOnly u) : s.ReadyOnly u := by
  unfold State.ReadyOnly at h1 h2 ⊢
  rw [h2, h1]

theorem State.ReadyOnly.releaseOnly {s t : State} (h : s.ReadyOnly t) : s.ReleaseOnly t := by
  unfold State.ReleaseOnly
  rw [h]

theorem State.readyOnly_forEach {β : Type} {f : β → State → State} (h : ∀ x (t : State), t.ReadyOnly (f x t)) (xs : List β) (s : State) :
    s.ReadyOnly (forEach xs s f) := by
  induction xs generalizing s with
  | nil => exact .refl s
  | cons x xs ih => exact (h x s).trans (ih (f x s))

theorem State.readyOnly_modStep (s : State) (r q : Nat) (f : Step → Step) : s.ReadyOnly (s.modStep r q f) := rfl

theorem State.readyOnly_settleCompat (s : State) : s.ReadyOnly s.settleCompat := by
  unfold State.settleCompat
  split
  · split <;> rfl
  · rfl

theorem State.readyOnly_raiseVt (s : State) (c kind : Nat) : s.ReadyOnly (s.raiseVt c kind) := by
  unfold State.raiseVt
  split
  · split <;> rfl
  · rfl

theorem State.readyOnly_refreshReady (s : State) : s.ReadyOnly s.refreshReady := by
  refine s.readyOnly_settleCompat.trans
    (State.readyOnly_forEach (fun st t => State.readyOnly_forEach (fun c u => ?_) _ t) _ _)
  split
  · split
    · exact .refl u
    · refine State.ReadyOnly.trans ?_ (State.readyOnly_modStep _ _ _ _)
      split
      · exact .refl u
      · exact u.readyOnly_raiseVt _ _
  · split
    · split
      · exact u.readyOnly_modStep _ _ _
      · exact .refl u
    · exact .refl u

theorem State.releaseOnly_refreshReady (s : State) : s.ReleaseOnly s.refreshReady := s.readyOnly_refreshReady.releaseOnly

theorem State.releaseOnly_releaseStep (s : State) (ring : Nat) (st : Step) (code : Nat) : s.ReleaseOnly (s.releaseStep ring st code) := by
  unfold State.releaseStep
  extract_lets x s1 s2 s3 s4 s5
  have hs1 : s.ReleaseOnly s1 := s.releaseOnly_devWrite _ _ _
  clear_value s1
  have hs2 : s.ReleaseOnly s2 := hs1.trans rfl
  clear_value s2
  have hs3 : s.ReleaseOnly s3 := hs2.trans ((s2.releaseOnly_modRing ring _).trans (State.releaseOnly_noteCommit _ ring))
  clear_value s3
  have hs4 : s.ReleaseOnly s4 := hs3.trans ((s3.releaseOnly_acctRelease _ _).trans ((State.releaseOnly_writeHead _ ring).trans
    (State.onlyLogs_packet _ _ _ _ _).storeOnly.releaseOnly))
  clear_value s4
  have hs5 : s.ReleaseOnly s5 := by
    unfold s5
    split
    · exact hs4.trans (s4.storeOnly_msix _ _).releaseOnly
    · exact hs4
  exact hs5.trans ((s5.releaseOnly_settleRing ring).trans ((State.releaseOnly_settleHeld _).trans (State.releaseOnly_refreshReady _)))

theorem State.releaseOnly_releaseAll (r n : Nat) (s : State) : s.ReleaseOnly (State.releaseAll r n s) := by
  induction n generalizing s with
  | zero => exact .refl s
  | succ n ih =>
    unfold State.releaseAll
    split
    · exact (s.releaseOnly_releaseStep r _ _).trans (ih _)
    · exact .refl s

/-- The tally unit's last work leaves nothing waiting. -/
theorem State.tallyQueue_finishTallied (s : State) : s.finishTallied.tallyQueue = [] :=
  forEach_proj State.tallyQueue _ _ _ fun x t => (State.releaseOnly_releaseAll x.1 _ t).tallyQueue

theorem State.showSafe_tallyQueue (s : State) : s.showSafe.tallyQueue = s.tallyQueue := rfl

theorem State.showSafe_pulseSince (s : State) : s.showSafe.saf.pulseSince = none := rfl

/-- The damper drops the waiting tallies and ends an escalation's pulse. -/
theorem State.damp_drops {s : State} (cause : Nat) (h : s.saf.damped = false) :
    (s.damp cause).tallyQueue = [] ∧ (s.damp cause).saf.pulseSince = none := by
  rw [State.damp, State.dampAt_of_not_damped _ _ _ _ h, State.showSafe_tallyQueue, State.tallyQueue_finishTallied]
  exact ⟨rfl, State.showSafe_pulseSince _⟩

/-! ### The supervisor cores -/

theorem exec_supervisorHeartbeat (core : Nat) (received : Bool) (s : State) :
    exec (.supervisorHeartbeat core received) s = .next (supervisorHeartbeat core received s) := rfl

theorem exec_failover (s : State) : exec .failover s = .next s.failOver := rfl

theorem exec_failoverStandbyTestDone (pass : Bool) (s : State) : exec (.failoverStandbyTestDone pass) s = .next (s.coreTested pass) := rfl

theorem exec_standbyTestDone (pass : Bool) (s : State) : exec (.standbyTestDone pass) s = .next (s.coreTested pass) := rfl

theorem exec_standbyLockstepMismatch (s : State) : exec .standbyLockstepMismatch s = .next (standbyLockstepMismatch s) := rfl

theorem exec_damper (cause : Nat) (s : State) : exec (.damper cause) s = .next (damper cause s) := rfl

theorem exec_enterSafe (s : State) : exec .enterSafe s = .next (s.damp 6) := rfl

theorem exec_escalatePulseEnd (s : State) : exec .escalatePulseEnd s = .next (escalatePulseEnd s) := rfl

theorem supervisorHeartbeat_received {core : Nat} (s : State) (h : core < 2) : supervisorHeartbeat core true s =
    { s with saf := if core = 0 then { s.saf with missedP := 0, beatP := s.tb } else { s.saf with missedS := 0, beatS := s.tb } } := by
  simp only [supervisorHeartbeat, Nat.not_le.mpr h, if_false, if_true]
  split <;> rfl

/-- The third heartbeat of core 0 that is missed. -/
theorem supervisorHeartbeat_third {s u : State} (hmissed : s.saf.missedP = 2) (hu : u = { s with saf := { s.saf with missedP := 3 } }) :
    supervisorHeartbeat 0 false s =
      if 3 ≤ s.saf.missedS then u.damp 2
      else if 0 = s.primaryCore then u.failOver
      else if s.flag Fld.SAF_STATUS_standby_ok then u.standbyOut
      else u := by
  subst hu
  have hthree : s.saf.missedP + 1 = 3 := by rw [hmissed]
  simp only [supervisorHeartbeat, hthree, Bool.false_eq_true, if_false, if_true, Nat.le_refl, true_and,
    Nat.lt_irrefl]
  rfl

/-- The failover of a primary whose standby is ready (R421). -/
theorem State.failOver_of_standby {s : State} (hdamped : s.saf.damped = false) (hready : s.flag Fld.SAF_STATUS_standby_ok = true) :
    s.failOver.fld Fld.SAF_STATUS_primary = 1 - s.primaryCore ∧ s.failOver.flag Fld.SAF_STATUS_standby_ok = false ∧
    s.failOver.saf.testing = some s.primaryCore := by
  unfold State.failOver
  rw [hdamped, hready, if_neg Bool.false_ne_true, Bool.not_true, if_neg Bool.false_ne_true]
  extract_lets old s1 s2 s3
  have hview : s3.safetyView = (s2.setFlag Fld.SAF_STATUS_standby_ok false).safetyView := State.safetyView_logEvent _ _ _ _ _ _ _ _
  have hprimary : s3.fld Fld.SAF_STATUS_primary = 1 - old := by
    rw [State.fld_eq_of_safetyView hview rfl, State.fld_setFlag_apart (f := Fld.SAF_STATUS_standby_ok) (g := Fld.SAF_STATUS_primary) _ _ rfl
      (by decide) (by decide) (by decide)]
    exact (State.fld_setFld_same _ _ (by decide)).trans (Nat.mod_eq_of_lt (Nat.lt_of_le_of_lt (Nat.sub_le 1 old) (by decide)))
  have hstandby : s3.flag Fld.SAF_STATUS_standby_ok = false := by
    rw [State.flag, State.fld_eq_of_safetyView hview rfl]
    exact State.flag_setFlag_same _ false (by decide) rfl
  exact ⟨hprimary, hstandby, rfl⟩

theorem State.failOver_of_alone {s : State} (hdamped : s.saf.damped = false) (hnone : s.flag Fld.SAF_STATUS_standby_ok = false) :
    s.failOver = s.damp 3 := by
  simp only [State.failOver, hdamped, hnone, Bool.false_eq_true, if_false, Bool.not_false, if_true]

theorem State.coreTested_of_testing {s : State} {core : Nat} (htesting : s.saf.testing = some core) (pass : Bool) :
    s.coreTested pass = ({ s with saf := { s.saf with
      testing := none, missedP := if pass = true ∧ core = 0 then 0 else s.saf.missedP,
      missedS := if pass = true ∧ core ≠ 0 then 0 else s.saf.missedS } } : State).setFlag Fld.SAF_STATUS_standby_ok pass := by
  simp only [State.coreTested, htesting]

theorem escalatePulseEnd_of_due {t0 : Nat} {s : State} (hpulse : s.saf.pulseSince = some t0)
    (hdue : s.passedUs t0 (s.fld Fld.SAF_CTRL_escalate_pulse_us) = true) :
    escalatePulseEnd s = { s.setFlag Fld.SAF_STATUS_fault_n_low s.faultHeld with saf := { s.saf with pulseSince := none } } := by
  simp only [escalatePulseEnd, hpulse, hdue, if_true]

/-- Settles O38: the heartbeats by their count, the failover by its standby, and the damper by what it shows and what it drops. -/
theorem supervisorsAndTheDamper : Obligations.SupervisorsAndTheDamper := by
  refine ⟨?beat, ?third, ?failover, ?alone, ?tested, ?mismatch, ?damper, ?safe, ?pulse⟩
  case beat =>
    intro core s hcore
    rw [exec_supervisorHeartbeat, supervisorHeartbeat_received s hcore]
  case third =>
    intro u s hmissed hu
    rw [exec_supervisorHeartbeat, supervisorHeartbeat_third hmissed hu]
    refine ⟨fun hboth => ?_, fun hone hprimary => ?_, fun hone hprimary hready => ?_⟩
    · rw [if_pos hboth]
    · rw [if_neg (Nat.not_le.mpr hone), if_pos hprimary.symm]
    · rw [if_neg (Nat.not_le.mpr hone), hprimary, if_neg Nat.zero_ne_one, if_pos hready]
  case failover =>
    intro s hdamped hready
    exact ⟨s.failOver, exec_failover s, State.failOver_of_standby hdamped hready⟩
  case alone =>
    intro s hdamped hnone
    rw [exec_failover, State.failOver_of_alone hdamped hnone]
  case tested =>
    rintro pass core s t htesting rfl
    rw [exec_failoverStandbyTestDone, exec_standbyTestDone, State.coreTested_of_testing htesting pass]
    exact ⟨rfl, rfl⟩
  case mismatch =>
    intro s
    simp only [exec_standbyLockstepMismatch, standbyLockstepMismatch]
    exact ⟨fun h => by rw [if_pos h], fun h => by rw [h, if_neg Bool.false_ne_true]⟩
  case damper =>
    intro cause s hlo hhi hdamped
    obtain ⟨hcause, hstate, hlow, hacted⟩ := State.damp_shows cause hdamped
    obtain ⟨hqueue, hpulse⟩ := State.damp_drops cause hdamped
    rw [Nat.mod_eq_of_lt (by omega)] at hcause
    exact ⟨s.damp cause, (exec_damper cause s).trans (congrArg _ (if_pos ⟨hlo, hhi⟩)), hcause, hstate, hlow, hacted, hqueue, hpulse⟩
  case safe =>
    intro s
    exact ⟨exec_enterSafe s, fun h => State.dampAt_of_damped _ _ _ _ h⟩
  case pulse =>
    intro t0 s hpulse hdue
    rw [exec_escalatePulseEnd, escalatePulseEnd_of_due hpulse hdue]

end Sys2Proof.Machine
end

section

/-! ## Of firmware images (O40) -/

namespace Sys2Proof.Machine

open Sys2Proof

theorem exec_fwStage (s : State) : exec .fwStage s = .next (fwStage s) := rfl

theorem exec_fwStageDone (digestOk signatureOk : Bool) (s : State) :
    exec (.fwStageDone digestOk signatureOk) s = .next (fwStageDone digestOk signatureOk s) := rfl

theorem exec_fwActivate (s : State) : exec .fwActivate s = .next (fwActivate s) := rfl

theorem exec_fwDieUpdate (die : Nat) (s : State) : exec (.fwDieUpdate die) s = .next (fwDieUpdate die s) := rfl

theorem exec_bootServingTimeout (s : State) : exec .bootServingTimeout s = .next (bootServingTimeout s) := rfl

theorem fwStage_of_busy {s : State} (h : s.fld Fld.SEC_FW_CTRL_fw_status = 1) : fwStage s = s := if_pos h

/-- A stage that may begin takes the header that it can read. -/
theorem fwStage_of_read {s : State} {bs : List Byte} (hidle : s.fld Fld.SEC_FW_CTRL_fw_status ≠ 1)
    (hread : s.sysRead hostPf (s.fld Fld.SEC_FW_SRC_fw_src) 512 = .ok bs) :
    fwStage s = (s.modKeys fun k => { k with staging := bs }).setFld Fld.SEC_FW_CTRL_fw_status 1 := by
  simp only [fwStage, hidle, if_false, hread]

section StageDone

variable {digestOk signatureOk : Bool} {k : Image} {s : State} (hbusy : s.fld Fld.SEC_FW_CTRL_fw_status = 1)
  (hk : k = ⟨s.keys.staging, digestOk, signatureOk⟩)

include hbusy hk

/-- An image that is not good only shows its status. -/
theorem fwStageDone_of_bad (hbad : s.imageStatus k ≠ 2) :
    fwStageDone digestOk signatureOk s = s.setFld Fld.SEC_FW_CTRL_fw_status (s.imageStatus k) := by
  simp only [fwStageDone, hbusy, ← hk, hbad, ne_eq, not_true_eq_false, not_false_eq_true, if_false, if_true]

/-- A good image goes into the slot that does not run. -/
theorem fwStageDone_of_good (hhost : s.keys.hostBoot = false) (hgood : s.imageStatus k = 2) :
    fwStageDone digestOk signatureOk s =
      if s.fld Fld.SEC_STATUS_boot_slot = 0 then
        (s.setFld Fld.SEC_FW_CTRL_fw_status 2).modKeys fun x => { x with slotB := some k, staged := some 1 }
      else (s.setFld Fld.SEC_FW_CTRL_fw_status 2).modKeys fun x => { x with slotA := some k, staged := some 0 } := by
  have hslot : (s.setFld Fld.SEC_FW_CTRL_fw_status 2).fld Fld.SEC_STATUS_boot_slot = s.fld Fld.SEC_STATUS_boot_slot :=
    State.fld_setFld_other _ _ (by decide)
  simp only [fwStageDone, hbusy, ← hk, hgood, State.setFld_keys, hhost, hslot, ne_eq, not_true_eq_false, Bool.false_eq_true, if_false]

end StageDone

theorem fwActivate_of_staged {slot : Nat} {s : State} (h : s.keys.staged = some slot) :
    fwActivate s = s.modKeys fun k => { k with preferred := some slot, bootFails := 0 } := by
  simp only [fwActivate, h]

/-- A die that is not drained is not updated. -/
theorem fwDieUpdate_of_undrained {die : Nat} {s : State} (hfit : s.fitted die = true) (hdrained : s.drained die = false) :
    fwDieUpdate die s = (s.setFlag (Fld.CFR_STATUS_update_refused die) true).setFld Fld.SEC_FW_CTRL_fw_status 6 := by
  simp only [fwDieUpdate, hfit, hdrained, Bool.not_true, Bool.not_false, Bool.false_eq_true, if_false, if_true]

/-- A drained die takes the staged image behind its closed gate. -/
theorem fwDieUpdate_of_drained {die slot : Nat} {k : Image} {s : State} (hfit : s.fitted die = true) (hstaged : s.keys.staged = some slot)
    (himage : s.slotImage slot = some k) (hdrained : s.drained die = true) :
    fwDieUpdate die s = ((s.closeGate die false).setFld (Fld.CDG_STATUS_logic_state die) logicSelftest).modKeys
      fun x => { x with dieFw := mapSet x.dieFw die (imageVersion k) } := by
  simp only [fwDieUpdate, hfit, hdrained, hstaged, himage, Bool.not_true, Bool.false_eq_true, if_false]

/-- A start that is late counts one failure, and the second runs the other slot. -/
theorem bootServingTimeout_of_late {p : Nat} {s : State} (hpreferred : s.keys.preferred = some p)
    (hstarting : s.fld Fld.SAF_STATUS_state = safStarting) (hlate : s.servedLate p = true) (hfails : s.keys.bootFails < 2) :
    bootServingTimeout s =
      let s1 := s.modKeys fun k => { k with bootFails := k.bootFails + 1, bootLate := true }
      if s.keys.bootFails + 1 = 2 then s1.runSlot (1 - p) else s1 := by
  simp only [bootServingTimeout, hpreferred, hstarting, hlate, hfails, and_self, if_true]
  rfl

/-- Settles O40: each command by the status, the slot or the count its clause names. -/
theorem firmwareAndBoot : Obligations.FirmwareAndBoot := by
  refine ⟨?stage, ?staged, ?activate, ?die, ?late⟩
  case stage =>
    intro s
    rw [exec_fwStage]
    refine ⟨fun hbusy => ?_, fun bs hidle hread => ?_⟩
    · rw [fwStage_of_busy hbusy]
    · rw [fwStage_of_read hidle hread]
  case staged =>
    intro digestOk signatureOk k s hbusy hhost hk
    rw [exec_fwStageDone]
    refine ⟨fun hbad => ?_, fun hgood hslot => ?_, fun hgood hslot => ?_⟩
    · rw [fwStageDone_of_bad hbusy hk hbad]
    · rw [fwStageDone_of_good hbusy hk hhost hgood, if_pos hslot]
    · rw [fwStageDone_of_good hbusy hk hhost hgood, hslot, if_neg Nat.one_ne_zero]
  case activate =>
    intro slot s hstaged
    rw [exec_fwActivate, fwActivate_of_staged hstaged]
  case die =>
    intro die slot k s hfit hstaged himage
    rw [exec_fwDieUpdate]
    exact ⟨fun hdrained => by rw [fwDieUpdate_of_drained hfit hstaged himage hdrained],
      fun hdrained => by rw [fwDieUpdate_of_undrained hfit hdrained]⟩
  case late =>
    rintro p s s1 hpreferred hstarting hlate hfails rfl
    rw [exec_bootServingTimeout, bootServingTimeout_of_late hpreferred hstarting hlate hfails]
    refine ⟨fun hnone => ?_, fun hone => ?_⟩
    · rw [hnone]; rfl
    · rw [hone]; rfl

end Sys2Proof.Machine
end

section

/-! ## How the package enters and leaves its power states (O41) -/

namespace Sys2Proof.Machine

open Sys2Proof

theorem exec_powerEntryCheck (s : State) : exec .powerEntryCheck s = .next (powerEntryCheck s) := rfl

theorem exec_entryHandshakeTimeout (s : State) : exec .entryHandshakeTimeout s = .next (entryHandshakeTimeout s) := rfl

theorem exec_wakePin (s : State) : exec .wakePin s = .next (s.wakeUp 1) := rfl

theorem exec_rtcAlarm (s : State) : exec .rtcAlarm s = .next (rtcAlarm s) := rfl

theorem exec_autoResleep (s : State) : exec .autoResleep s = .next (autoResleep s) := rfl

theorem exec_aonBrownout (s : State) : exec .aonBrownout s = .next (aonBrownout s) := rfl

theorem exec_vinLoss (s : State) : exec .vinLoss s = .next (s.fresh true .unpowered) := rfl

theorem exec_vinPowerOn (s : State) : exec .vinPowerOn s = .next (vinPowerOn s) := rfl

theorem exec_hostLinkL0 (speed width : Nat) (s : State) : exec (.hostLinkL0 speed width) s = .next (hostLinkL0 speed width s) := rfl

theorem exec_hostPortReset (s : State) :
    exec .hostPortReset s = .next ((s.setFld Fld.HST_LINK_speed 0).setFld Fld.HST_LINK_width 0) := rfl

/-! ### Entries -/

/-- With no target to enter, or once the damper has acted, only the handover is noted. -/
theorem powerEntryCheck_of_none {target : Nat} {s : State} (hrun : s.power.phase = .run) (htarget : s.fld Fld.PWR_CTRL_target = target)
    (hnone : target = 0 ∨ 3 < target ∨ s.saf.damped = true) : powerEntryCheck s = s.modPower fun p => { p with l2 := true } := by
  simp only [powerEntryCheck, hrun, htarget, hnone, ne_eq, not_true_eq_false, if_false, if_true]

/-- A target is entered where its conditions hold, and refused with its error where they do not. -/
theorem powerEntryCheck_of_target {target : Nat} {s : State} (hrun : s.power.phase = .run) (htarget : s.fld Fld.PWR_CTRL_target = target)
    (hlo : 1 ≤ target) (hhi : target ≤ 3) (hdamped : s.saf.damped = false) :
    powerEntryCheck s =
      let s1 := s.modPower fun p => { p with l2 := true }
      if s1.entryError target ≠ 0 then s1.refuseEntry (s1.entryError target) else s1.enterState target := by
  have hsome : ¬ (target = 0 ∨ 3 < target ∨ s.saf.damped = true) := by
    rw [hdamped]
    rintro (hzero | hbeyond | hfalse)
    · omega
    · omega
    · exact Bool.false_ne_true hfalse
  simp only [powerEntryCheck, hrun, htarget, hsome, ne_eq, not_true_eq_false, if_false]

theorem entryHandshakeTimeout_of_due {t0 : Nat} {s : State} (hat : s.power.targetAt = some t0) (hrun : s.power.phase = .run)
    (htarget : 1 ≤ s.fld Fld.PWR_CTRL_target ∧ s.fld Fld.PWR_CTRL_target ≤ 3) (hlink : s.power.l2 = false)
    (hdue : s.passedUs t0 10000 = true) : entryHandshakeTimeout s = s.refuseEntry 6 := by
  simp only [entryHandshakeTimeout, hat, hrun, htarget, hlink, hdue, and_self, if_true]

theorem State.fld_withPower (s : State) (p : Power) (f : Fld) : ({ s with power := p } : State).fld f = s.fld f := rfl

theorem State.flag_withPower (s : State) (p : Power) (f : Fld) : ({ s with power := p } : State).flag f = s.flag f := rfl

theorem State.reg_withPower (s : State) (p : Power) (k : Nat) : ({ s with power := p } : State).reg k = s.reg k := rfl

/-- What a refused entry shows (R456). -/
theorem State.refuseEntry_shows (s : State) (e : Nat) :
    (s.refuseEntry e).flag Fld.PWR_STATUS_entry_refused = true ∧ (s.refuseEntry e).fld Fld.PWR_STATUS_entry_error = e % 8 ∧
    (s.refuseEntry e).fld Fld.PWR_CTRL_target = 0 := by
  rw [State.refuseEntry, State.modPower]
  refine ⟨?refused, ?error, ?target⟩
  case refused =>
    rw [State.flag_withPower, State.flag, State.fld_setFld_other _ _ (by decide),
      State.fld_setFld_apart (f := Fld.PWR_STATUS_entry_error) (g := Fld.PWR_STATUS_entry_refused) _ _ rfl (by decide) (by decide) (by decide)]
    exact State.flag_setFlag_same (f := Fld.PWR_STATUS_entry_refused) s true (by decide) rfl
  case error =>
    rw [State.fld_withPower, State.fld_setFld_other _ _ (by decide)]
    exact State.fld_setFld_same _ e (by decide)
  case target => rw [State.fld_withPower, State.fld_setFld_same _ _ (by decide), Nat.zero_mod]

theorem autoResleep_of_due {t0 : Nat} {s : State} (hwoke : s.power.wokeAt = some t0) (hrun : s.power.phase = .run)
    (hdamped : s.saf.damped = false) (hlink : s.power.l2 = true) (hauto : s.flag Fld.PWR_CTRL_auto_resleep = true) (hstage : s.stage = 0)
    (htarget : s.fld Fld.PWR_CTRL_target = 0) (hdue : s.passedUs t0 10000 = true) (herror : s.entryError 1 = 0) :
    autoResleep s = s.enterSleep := by
  simp only [autoResleep, hwoke, hrun, hdamped, hlink, hauto, hstage, htarget, hdue, herror, Bool.not_false, and_self, if_true]

/-! ### Wakes -/

/-- The number that the wake log gives the state left. -/
def PowerPhase.leftCode (p : PowerPhase) : Nat := match p with | .sleep => 2 | .deep => 3 | .off => 4 | _ => 0

/-- What a wake records: the state left and the cause in the wake log, and the power-up order in the power status. -/
def State.wakeShown (s : State) (cause : Nat) : State :=
  ((s.setFld Fld.PWR_WAKE_LOG_last_state s.power.phase.leftCode).setFld Fld.PWR_WAKE_LOG_cause cause).setFld Fld.PWR_STATUS_state 3

theorem State.wakeShown_cause (s : State) (cause : Nat) :
    (s.wakeShown cause).fld Fld.PWR_WAKE_LOG_cause = cause % 2 ^ Fld.PWR_WAKE_LOG_cause.width := by
  rw [State.wakeShown, State.fld_setFld_other _ _ (by decide)]
  exact State.fld_setFld_same _ cause (by decide)

theorem State.wakeShown_state (s : State) (cause : Nat) : (s.wakeShown cause).fld Fld.PWR_STATUS_state = 3 :=
  State.fld_setFld_same _ 3 (by decide)

theorem State.reg_wakeShown (s : State) (cause : Nat) {k : Nat} (hlog : k ≠ Reg.PWR_WAKE_LOG) (hstatus : k ≠ Reg.PWR_STATUS) :
    (s.wakeShown cause).reg k = s.reg k := by
  rw [State.wakeShown, State.setFld, State.reg_setReg_other (key := Fld.PWR_STATUS_state.key) _ _ hstatus, State.setFld,
    State.reg_setReg_other (key := Fld.PWR_WAKE_LOG_cause.key) _ _ hlog, State.setFld,
    State.reg_setReg_other (key := Fld.PWR_WAKE_LOG_last_state.key) _ _ hlog]

/-- A wake of a state that is left starts the power-up order and records its cause. -/
theorem State.wakeUp_of_left {s : State} (cause : Nat) (h : s.power.phase.leftCode ≠ 0) :
    s.wakeUp cause = { s.wakeShown cause with power := { s.power with
      phase := .regulator, left := s.power.phase.leftCode, edgeAt := s.tb, oscReady := false, edgeSinceOsc := false,
      wokeAt := if cause = 1 then none else some s.tb } } :=
  if_pos h

/-- While the power-up order runs, another wake adds at most its cause. -/
theorem State.wakeUp_of_awake {s : State} (cause : Nat) (h : s.power.phase.leftCode = 0) :
    s.wakeUp cause = if s.power.phase = .regulator ∧ s.power.left ≠ 0 ∧ s.power.edgeAt = s.tb then
      s.setFld Fld.PWR_WAKE_LOG_cause (Nat.lor (s.fld Fld.PWR_WAKE_LOG_cause) cause) else s :=
  if_neg (not_not_intro h)

/-- A wake leaves the registers of other blocks than the wake log and the power status. -/
theorem State.reg_wakeUp (s : State) (cause : Nat) {k : Nat} (hlog : k ≠ Reg.PWR_WAKE_LOG) (hstatus : k ≠ Reg.PWR_STATUS) :
    (s.wakeUp cause).reg k = s.reg k := by
  by_cases h : s.power.phase.leftCode = 0
  · rw [State.wakeUp_of_awake cause h]
    split
    · exact State.reg_setReg_other s _ hlog
    · rfl
  · rw [State.wakeUp_of_left cause h, State.reg_withPower, State.reg_wakeShown _ _ hlog hstatus]

theorem State.alarmFired_wakeUp (s : State) (cause : Nat) : (s.wakeUp cause).power.alarmFired = s.power.alarmFired := by
  by_cases h : s.power.phase.leftCode = 0
  · rw [State.wakeUp_of_awake cause h]
    split <;> rfl
  · rw [State.wakeUp_of_left cause h]

/-- The alarm shown and noted. -/
def State.alarmShown (s : State) : State :=
  ((s.setFlag Fld.CLK_TB_STATUS_alarm_seen true).modPower fun p => { p with alarmFired := true }).noteWakeOut

theorem State.noteWakeOut_phase (s : State) : s.noteWakeOut.power.phase = s.power.phase := by
  unfold State.noteWakeOut
  split <;> rfl

theorem State.noteWakeOut_alarmFired (s : State) : s.noteWakeOut.power.alarmFired = s.power.alarmFired := by
  unfold State.noteWakeOut
  split <;> rfl

theorem State.alarmShown_phase (s : State) : s.alarmShown.power.phase = s.power.phase := State.noteWakeOut_phase _

theorem State.alarmShown_alarmFired (s : State) : s.alarmShown.power.alarmFired = true := State.noteWakeOut_alarmFired _

theorem State.alarmShown_seen (s : State) : s.alarmShown.flag Fld.CLK_TB_STATUS_alarm_seen = true := by
  rw [State.alarmShown, State.noteWakeOut_frame]
  exact State.flag_setFlag_same s true (by decide) rfl

/-- An alarm that has come and was not noted is noted, and wakes the package where it is to. -/
theorem rtcAlarm_of_due {s : State} (hset : s.fld Fld.CLK_ALARM_alarm ≠ 0) (hdue : s.fld Fld.CLK_ALARM_alarm ≤ s.tb)
    (hnew : s.power.alarmFired = false) :
    rtcAlarm s = if (s.power.phase = .sleep ∨ s.power.phase = .deep ∨ s.power.phase = .regulator) ∧ s.flag Fld.PWR_CTRL_wake_alarm_en then
      s.alarmShown.wakeUp 4 else s.alarmShown := by
  simp only [rtcAlarm, hset, Nat.not_lt.mpr hdue, hnew, Bool.false_eq_true, or_self, if_false]
  rfl

/-! ### The loss of power -/

/-- What a fresh power-up keeps, before its registers are given back. -/
def State.freshBase (s : State) (phase : PowerPhase) : State :=
  { pending := s.pending, variant := s.variant, grade := s.grade, env := s.env, drawn := s.drawn, sent := s.sent
    mem := s.mem.filter fun c => decide (remoteBase ≤ c.1)
    keys := { identity := s.keys.identity, serial := s.keys.serial, slotA := s.keys.slotA, slotB := s.keys.slotB, preferred := s.keys.preferred
              bootFails := s.keys.bootFails }
    power := { phase := phase } }

theorem forEach_setFld_frame (fs : List Fld) (v : Fld → Nat) (t : State) : (forEach fs t fun f u => u.setFld f (v f)) =
    { t with regs := (forEach fs t fun f u => u.setFld f (v f)).regs } :=
  forEach_regs_frame (fun _ _ => rfl) fs t

/-- A fresh power-up gives back registers alone. -/
theorem State.fresh_frame (s : State) (vin : Bool) (phase : PowerPhase) :
    s.fresh vin phase = { s.freshBase phase with regs := (s.fresh vin phase).regs } := by
  unfold State.fresh
  extract_lets t t1 t2 t3
  have h2 : t2 = { s.freshBase phase with regs := t2.regs } := forEach_setFld_frame _ _ t1
  have h3 : t3 = { s.freshBase phase with regs := t3.regs } := by
    unfold t3
    split
    · rw [State.setFlag_frame, h2]
    · exact h2
  clear_value t3
  split
  · exact h3
  · rw [State.setReg_frame, h3]

/-- A brown-out of SLEEP or DEEP goes to OFF and is recorded with the state that it came in. -/
theorem aonBrownout_of_asleep {s : State} (h : s.power.phase = .sleep ∨ s.power.phase = .deep) :
    aonBrownout s = (s.enterOff.setFlag Fld.PWR_WAKE_LOG_brownout true).setFld Fld.PWR_WAKE_LOG_brownout_state
      (if s.power.phase = .sleep then 2 else 3) := by
  rcases h with h | h
  · simp only [aonBrownout, h, show ¬ (2 = 0) by decide, if_false, if_true]
  · simp only [aonBrownout, h, show ¬ (3 = 0) by decide, if_false, reduceCtorEq]

theorem vinPowerOn_of_unpowered {s : State} (h : s.power.phase = .unpowered) :
    vinPowerOn s = s.modPower fun _ => { phase := .regulator } := if_pos h

theorem hostLinkL0_of_run {speed width : Nat} {s : State} (h : s.power.phase = .run) :
    hostLinkL0 speed width s = ((s.setFld Fld.HST_LINK_speed speed).setFld Fld.HST_LINK_width width).modPower
      fun p => { p with l2 := false, wakeOut := false, wokeAt := none } :=
  if_neg (not_not_intro h)

/-- Settles O41: the entries by their error, the wakes by the state they leave, and the losses of power by what a fresh state keeps. -/
theorem powerStatesAreEnteredAndLeft : Obligations.PowerStatesAreEnteredAndLeft := by
  refine ⟨?entry, ?handshake, ?refused, ?pin, ?alarm, ?resleep, ?brownout, ?loss, ?vin, ?link, ?port⟩
  case entry =>
    intro target s hrun htarget
    rw [exec_powerEntryCheck]
    refine ⟨fun hnone => ?_, fun hlo hhi hdamped hok => ?_, fun hlo hhi hdamped herror => ?_⟩
    · rw [powerEntryCheck_of_none hrun htarget hnone]
    · rw [powerEntryCheck_of_target hrun htarget hlo hhi hdamped]
      exact congrArg _ (if_neg (not_not_intro hok))
    · rw [powerEntryCheck_of_target hrun htarget hlo hhi hdamped]
      exact congrArg _ (if_pos herror)
  case handshake =>
    intro t0 s hat hrun htarget hlink hdue
    rw [exec_entryHandshakeTimeout, entryHandshakeTimeout_of_due hat hrun htarget hlink hdue]
  case refused => exact fun e s => s.refuseEntry_shows e
  case pin =>
    intro s hasleep
    have hleft : s.power.phase.leftCode ≠ 0 ∧ s.power.phase.leftCode =
        (if s.power.phase = .sleep then 2 else if s.power.phase = .deep then 3 else 4) := by
      rcases hasleep with h | h | h <;> rw [h] <;> decide
    have hwake := State.wakeUp_of_left 1 hleft.1
    refine ⟨s.wakeUp 1, exec_wakePin s, ?_, ?_, ?_, ?_, ?_, ?_⟩
    · rw [hwake]
    · rw [hwake, State.fld_withPower, State.wakeShown_cause]; rfl
    · rw [hwake, State.fld_withPower, State.wakeShown_state]
    · rw [hwake]; exact hleft.2
    · rw [State.wakeUp_frame]
    · rw [State.wakeUp_frame]
  case alarm =>
    intro s hset hdue hnew
    refine ⟨rtcAlarm s, exec_rtcAlarm s, ?_⟩
    rw [rtcAlarm_of_due hset hdue hnew]
    split
    · next hwake =>
      refine ⟨?_, ?_, fun hsleep _ => ?_, fun hrun => ?_⟩
      · rw [State.flag, State.fld, State.reg_wakeUp _ _ (by decide) (by decide)]
        exact s.alarmShown_seen
      · rw [State.alarmFired_wakeUp, State.alarmShown_alarmFired]
      · rw [State.wakeUp_of_left (s := s.alarmShown) 4 (by rw [s.alarmShown_phase, hsleep]; decide), State.fld_withPower,
          State.wakeShown_cause]
        exact ⟨rfl, rfl⟩
      · rw [hrun] at hwake
        simp only [reduceCtorEq, or_self, false_and] at hwake
    · next hstay =>
      refine ⟨s.alarmShown_seen, s.alarmShown_alarmFired, fun hsleep hen => absurd ⟨.inl hsleep, hen⟩ hstay, fun hrun => ?_⟩
      rw [s.alarmShown_phase, hrun]
  case resleep =>
    intro t0 s hwoke hrun hdamped hlink hauto hstage htarget hdue herror
    rw [exec_autoResleep, autoResleep_of_due hwoke hrun hdamped hlink hauto hstage htarget hdue herror]
  case brownout =>
    intro s hasleep
    refine ⟨aonBrownout s, exec_aonBrownout s, ?_⟩
    rw [aonBrownout_of_asleep hasleep, State.enterOff]
    have hframe := s.fresh_frame false .off
    refine ⟨?_, ?_, ?_, ?_, ?_, ?_⟩
    · rw [State.setFld_power, State.setFlag_power, hframe]; rfl
    · rw [State.flag, State.fld_setFld_apart (f := Fld.PWR_WAKE_LOG_brownout_state) (g := Fld.PWR_WAKE_LOG_brownout) _ _ rfl (by decide)
        (by decide) (by decide)]
      exact State.flag_setFlag_same (f := Fld.PWR_WAKE_LOG_brownout) _ true (by decide) rfl
    · rw [State.fld_setFld_same _ _ (by decide)]
      split <;> rfl
    · rw [State.setFld_clients, State.setFlag_clients, hframe]; rfl
    · rw [State.setFld_rings, State.setFlag_rings, hframe]; rfl
    · rw [State.setFld_pages, State.setFlag_pages, hframe]; rfl
  case loss =>
    intro s
    refine ⟨s.fresh true .unpowered, exec_vinLoss s, ?_⟩
    rw [State.fresh_frame]
    exact ⟨rfl, rfl, rfl, rfl, rfl, rfl, rfl⟩
  case vin =>
    intro s h
    rw [exec_vinPowerOn, vinPowerOn_of_unpowered h]
  case link =>
    intro speed width s h
    rw [exec_hostLinkL0, hostLinkL0_of_run h]
  case port => exact exec_hostPortReset

end Sys2Proof.Machine
end

section

/-! ## The order of a power-up, the rebuild after DEEP, and the resets (O42) -/

namespace Sys2Proof.Machine

open Sys2Proof

theorem exec_regulatorReady (s : State) : exec .regulatorReady s = .next (regulatorReady s) := rfl

theorem exec_oscillatorReady (s : State) : exec .oscillatorReady s = .next (oscillatorReady s) := rfl

theorem exec_memoryReady (s : State) : exec .memoryReady s = .next (memoryReady s) := rfl

theorem exec_logicReady (bootSel : Nat) (a b : Option Image) (s : State) :
    exec (.logicReady bootSel a b) s = .next (hubLogicReady bootSel a b s) := rfl

theorem exec_memRebuildDone (s : State) : exec .memRebuildDone s = .next (memRebuildDone s) := rfl

theorem exec_resetPinRise (lowUs : Nat) (s : State) : exec (.resetPinRise lowUs) s = .next (resetPinRise lowUs s) := rfl

theorem exec_warmReset (s : State) : exec .warmReset s = .next s.reset1 := rfl

theorem exec_coldReset (s : State) : exec .coldReset s = .next s.cold := rfl

theorem exec_resetPinColdTimeout (s : State) : exec .resetPinColdTimeout s = .next s.cold := rfl

/-! ### The memory -/

/-- The island of a die, brought up. -/
def State.islandUp (s : State) (d : Nat) : Prop := (s.dieSt d).island = true ∧ s.flag (Fld.CDG_STATUS_island_up d) = true

/-- One step of the memory's bring-up: an island that has not failed comes up. -/
def State.raiseIsland (s : State) (d : Nat) : State :=
  if (s.dieSt d).islandFailed then s
  else (s.modDie d fun x => { x with island := true }).setFlag (Fld.CDG_STATUS_island_up d) true

theorem State.raiseIsland_same {s : State} {d : Nat} (h : (s.dieSt d).islandFailed = false) : (s.raiseIsland d).islandUp d := by
  rw [State.raiseIsland, h, if_neg Bool.false_ne_true]
  refine ⟨?_, State.flag_setFlag_same (f := Fld.CDG_STATUS_island_up d) _ true (show 3 + 1 ≤ 64 by decide) rfl⟩
  show ((s.modDie d fun x => { x with island := true }).dieSt d).island = true
  rw [State.dieSt_modDie_same]

theorem State.raiseIsland_dieSt_other (s : State) {d e : Nat} (h : e ≠ d) : (s.raiseIsland d).dieSt e = s.dieSt e := by
  unfold State.raiseIsland
  split
  · rfl
  · have hset (t : State) : (t.setFlag (Fld.CDG_STATUS_island_up d) true).dieSt e = t.dieSt e := rfl
    rw [hset]
    exact State.dieSt_modDie_other s _ h

theorem State.raiseIsland_islandFailed (s : State) (d e : Nat) : ((s.raiseIsland d).dieSt e).islandFailed = (s.dieSt e).islandFailed := by
  by_cases h : e = d
  · subst h
    unfold State.raiseIsland
    split
    · rfl
    · show ((s.modDie e fun x => { x with island := true }).dieSt e).islandFailed = _
      rw [State.dieSt_modDie_same]
  · rw [s.raiseIsland_dieSt_other h]

theorem State.raiseIsland_flag_other (s : State) {d e : Nat} (h : e ≠ d) :
    (s.raiseIsland d).flag (Fld.CDG_STATUS_island_up e) = s.flag (Fld.CDG_STATUS_island_up e) := by
  have hkey : (Fld.CDG_STATUS_island_up e).key ≠ (Fld.CDG_STATUS_island_up d).key := by
    show dieBase e ≠ dieBase d
    simp only [dieBase]
    omega
  unfold State.raiseIsland
  split
  · rfl
  · exact State.flag_setFlag_other _ true hkey

/-- An island that has not failed is up once its turn has come, and stays up. -/
theorem State.raiseIslands_up {d : Nat} (ds : List Nat) {s : State} (hfail : (s.dieSt d).islandFailed = false)
    (h : d ∈ ds ∨ s.islandUp d) : (forEach ds s fun e t => t.raiseIsland e).islandUp d := by
  induction ds generalizing s with
  | nil => exact h.resolve_left (List.not_mem_nil)
  | cons e ds ih =>
    by_cases he : d = e
    · subst he
      exact ih ((s.raiseIsland_islandFailed d d).trans hfail) (.inr (State.raiseIsland_same hfail))
    · refine ih ((s.raiseIsland_islandFailed e d).trans hfail) (h.imp (fun hmem => ?_) fun hup => ?_)
      · exact (List.mem_cons.mp hmem).resolve_left he
      · exact ⟨by rw [s.raiseIsland_dieSt_other he]; exact hup.1, by rw [s.raiseIsland_flag_other he]; exact hup.2⟩

theorem memoryReady_of_memory {s : State} (h : s.power.phase = .memory) :
    memoryReady s = (forEach (natRange 0 s.nDies) s fun d t => t.raiseIsland d).modPower fun p => { p with phase := .logic } :=
  if_pos h

/-! ### The logic -/

/-- What a reader of the power state sees. -/
def State.powerView (s : State) : PowerPhase × Nat × Nat := (s.power.phase, s.reg Reg.PWR_CTRL, s.reg Reg.PWR_STATUS)

theorem State.powerView_setFld (s : State) {f : Fld} (v : Nat) (hctrl : f.key ≠ Reg.PWR_CTRL) (hstatus : f.key ≠ Reg.PWR_STATUS) :
    (s.setFld f v).powerView = s.powerView := by
  rw [State.powerView, State.setFld, State.reg_setReg_other _ _ hctrl.symm, State.reg_setReg_other _ _ hstatus.symm]
  rfl

theorem State.powerView_setFlag (s : State) {f : Fld} (b : Bool) (hctrl : f.key ≠ Reg.PWR_CTRL) (hstatus : f.key ≠ Reg.PWR_STATUS) :
    (s.setFlag f b).powerView = s.powerView :=
  s.powerView_setFld _ hctrl hstatus

theorem State.powerView_modInd (s : State) (n : Nat) (f : IndCh → IndCh) : (s.modInd n f).powerView = s.powerView := rfl

theorem State.powerView_lightChannel (s : State) (n : Nat) : (s.lightChannel n).powerView = s.powerView := by
  unfold State.lightChannel
  dsimp only
  rw [State.powerView_modInd]
  split
  · exact s.powerView_setFlag _ (by decide) (by decide)
  · rfl

theorem State.powerView_relight (s : State) : s.relight.powerView = s.powerView := by
  refine forEach_proj State.powerView _ _ _ fun n t => ?_
  split
  · exact t.powerView_lightChannel n
  · rfl

theorem State.powerView_relightMute (s : State) : s.relightMute.powerView = s.powerView := by
  unfold State.relightMute
  split
  · exact (State.powerView_lightChannel _ 0).trans (s.powerView_setFlag _ (by decide) (by decide))
  · rfl

theorem State.powerView_newKeys (s : State) : s.newKeys.powerView = s.powerView := by
  unfold State.newKeys
  dsimp only
  refine (forEach_proj State.powerView _ _ _ fun c t => ?_).trans ?_
  · rfl
  · rw [State.powerView_setFlag _ _ (by decide) (by decide)]
    rfl

theorem State.powerView_runSlot (s : State) (slot : Nat) : (s.runSlot slot).powerView = s.powerView := by
  unfold State.runSlot
  split
  · dsimp only
    split
    · split
      · rw [State.powerView_setFlag _ _ (by decide) (by decide), State.powerView_setFld _ _ (by decide) (by decide)]
        rfl
      · rw [State.powerView_setFld _ _ (by decide) (by decide)]
        rfl
    · rw [State.powerView_setFld _ _ (by decide) (by decide)]
      rfl
  · rfl

theorem State.powerView_boot (s : State) (bootSel : Nat) (a b : Option Image) : (s.boot bootSel a b).powerView = s.powerView := by
  unfold State.boot
  dsimp only
  split
  · rfl
  · split
    · exact State.powerView_runSlot _ _
    · split
      · rfl
      · rw [State.powerView_setFlag _ _ (by decide) (by decide), State.powerView_setFld _ _ (by decide) (by decide)]
        rfl

theorem dieBase_add_ne_power (d k : Nat) : dieBase d + k ≠ Reg.PWR_CTRL ∧ dieBase d + k ≠ Reg.PWR_STATUS := by
  simp only [dieBase, Reg.PWR_CTRL, Reg.PWR_STATUS]
  omega

theorem State.powerView_raiseDie (s : State) (d : Nat) : (s.raiseDie d).powerView = s.powerView := by
  have hpresent (t : State) : (t.notePresent d).powerView = t.powerView := State.powerView_setFld _ _ (by decide) (by decide)
  have hstate (t : State) (v : Nat) : (t.setFld (Fld.CDG_STATUS_logic_state d) v).powerView = t.powerView :=
    State.powerView_setFld _ _ (dieBase_add_ne_power d 0).1 (dieBase_add_ne_power d 0).2
  have hpowered (t : State) (b : Bool) : (t.setFlag (Fld.CPC_STATUS_logic_powered d) b).powerView = t.powerView :=
    State.powerView_setFlag _ _ (dieBase_add_ne_power d _).1 (dieBase_add_ne_power d _).2
  have hmod (t : State) (f : Die → Die) : (t.modDie d f).powerView = t.powerView := rfl
  unfold State.raiseDie
  split
  · exact hpresent s
  · rw [hpresent, hmod, hstate, hpowered]

theorem State.powerView_refreshReady (s : State) : s.refreshReady.powerView = s.powerView := by
  rw [s.readyOnly_refreshReady]
  rfl

/-- The package serves, with no target. -/
def State.Serving (s : State) : Prop := s.power.phase = .run ∧ s.fld Fld.PWR_CTRL_target = 0 ∧ s.fld Fld.PWR_STATUS_state = 0

theorem State.Serving.of_view {s t : State} (h : s.Serving) (hview : t.powerView = s.powerView) : t.Serving := by
  have hphase : t.power.phase = s.power.phase := congrArg Prod.fst hview
  have hctrl : t.reg Reg.PWR_CTRL = s.reg Reg.PWR_CTRL := congrArg (fun x : PowerPhase × Nat × Nat => x.2.1) hview
  have hstatus : t.reg Reg.PWR_STATUS = s.reg Reg.PWR_STATUS := congrArg (fun x : PowerPhase × Nat × Nat => x.2.2) hview
  obtain ⟨hrun, htarget, hstate⟩ := h
  exact ⟨hphase.trans hrun, (State.fld_congr hctrl).trans htarget, (State.fld_congr hstatus).trans hstate⟩

theorem State.Serving.setMemReady {s : State} (h : s.Serving) (b : Bool) : (s.setFlag Fld.PWR_STATUS_mem_ready b).Serving := by
  obtain ⟨hrun, htarget, hstate⟩ := h
  refine ⟨hrun, ?_, ?_⟩
  · rw [State.setFlag, State.fld_setFld_other _ _ (by decide), htarget]
  · rw [State.fld_setFlag_apart (f := Fld.PWR_STATUS_mem_ready) (g := Fld.PWR_STATUS_state) _ _ rfl (by decide) (by decide) (by decide), hstate]

theorem State.serving_shown {s : State} (h : s.power.phase = .run) : ((s.setFld Fld.PWR_CTRL_target 0).setFld Fld.PWR_STATUS_state 0).Serving := by
  refine ⟨h, ?_, ?_⟩
  · rw [State.fld_setFld_other _ _ (by decide), State.fld_setFld_same _ _ (by decide), Nat.zero_mod]
  · rw [State.fld_setFld_same _ _ (by decide), Nat.zero_mod]

/-- The logic comes up into RUN with no target. -/
theorem hubLogicReady_of_logic {bootSel : Nat} {a b : Option Image} {s : State} (h : s.power.phase = .logic) :
    (hubLogicReady bootSel a b s).Serving := by
  unfold hubLogicReady
  rw [if_neg (not_not_intro h)]
  extract_lets left s1 s2 s3 s4 shown safety s5 s6 s7 ds s8
  have h3 : s3.Serving := State.serving_shown rfl
  clear_value s3
  have h4 : s4.Serving := by
    unfold s4
    split
    · exact h3.of_view s3.powerView_newKeys
    · exact h3
  clear_value s4
  have h5 : s5.Serving := (h4.setMemReady (decide (left ≠ 3))).of_view rfl
  clear_value s5
  have h6 : s6.Serving := by
    unfold s6
    split
    · exact h5.of_view s5.powerView_relight
    · exact h5.of_view ((State.powerView_boot _ bootSel a b).trans s5.powerView_relightMute)
  clear_value s6
  have h7 : s7.Serving := h6.of_view (forEach_proj State.powerView _ _ _ fun d t => t.powerView_raiseDie d)
  clear_value s7
  have h8 : s8.startPeriod.Serving := h7.of_view rfl
  exact h8.of_view (State.powerView_refreshReady _)

/-! ### The resets -/

theorem memRebuildDone_of_rebuilding {s : State} (hrebuilding : s.rebuilding = true) (hpage : s.power.heldPage = none) :
    memRebuildDone s = forEach s.power.heldStarts
      ((s.newKeys.setFlag Fld.PWR_STATUS_mem_ready true).modPower fun p => { p with heldStarts := [], heldPage := none })
      fun x t => t.startRing x.1 x.2 := by
  simp only [memRebuildDone, hrebuilding, hpage, Bool.not_true, Bool.false_eq_true, if_false]

/-- A reset that goes back to the memory step, with no run and no waiting tally. -/
def State.Restarting (left : Nat) (s : State) : Prop :=
  s.power.phase = .memory ∧ s.power.left = left ∧ s.runs = [] ∧ s.tallyQueue = []

theorem State.Restarting.of_release {left : Nat} {s t : State} (h : s.Restarting left) (hr : s.ReleaseOnly t) : t.Restarting left := by
  unfold State.Restarting
  rw [hr]
  exact h

theorem State.Restarting.dropTallies {left : Nat} {s : State} (h : s.Restarting left) :
    ({ s with tallyQueue := [] } : State).Restarting left := by
  obtain ⟨hphase, hleft, hruns, -⟩ := h
  exact ⟨hphase, hleft, hruns, rfl⟩

theorem State.Restarting.showSafe {left : Nat} {s : State} (h : s.Restarting left) : s.showSafe.Restarting left := h

theorem State.releaseOnly_applyGroup (s : State) (j : Journal) (cl : Nat) : s.ReleaseOnly (s.applyGroup j cl) := by
  unfold State.applyGroup
  have hpubs : s.ReleaseOnly (forEach j.pubs s fun p t => t.applyPub cl p) :=
    State.releaseOnly_forEach (fun _ t => t.releaseOnly_devWrite cl _ _) _ s
  refine State.ReleaseOnly.trans ?_ (State.releaseOnly_modStep _ _ _ _)
  split
  · exact hpubs.trans (State.releaseOnly_devWrite _ cl _ _)
  · exact hpubs

theorem State.Restarting.redoJournal {left : Nat} {s : State} (h : s.Restarting left) : s.redoJournal.Restarting left := by
  refine (h.of_release ?_ : State.Restarting left (forEach s.journalUsed s _))
  refine State.releaseOnly_forEach (fun j t => ?_) _ s
  split <;> exact t.releaseOnly_applyGroup j _

theorem State.releaseOnly_tripDamper (s : State) (cause unit detail client : Nat) : s.ReleaseOnly (s.tripDamper cause unit detail client) := by
  unfold State.tripDamper
  have hlog : s.ReleaseOnly (s.logEvent 3 6 unit detail client) := (State.onlyLogs_writeLog s _).storeOnly.releaseOnly
  exact hlog.trans ((State.releaseOnly_setFld _ _ _).trans (State.releaseOnly_setFlag _ _ _))

theorem State.Restarting.dampAt {left : Nat} {s : State} (h : s.Restarting left) (cause unit detail client : Nat) :
    (s.dampAt cause unit detail client).Restarting left := by
  cases hd : s.saf.damped with
  | true => rw [State.dampAt_of_damped _ _ _ _ hd]; exact h
  | false =>
    rw [State.dampAt_of_not_damped _ _ _ _ hd]
    have htrip := h.of_release (s.releaseOnly_tripDamper cause unit detail client)
    have hempty := htrip.redoJournal.dropTallies
    have hfinished : (s.tripDamper cause unit detail client).finishTallied.Restarting left := by
      unfold State.finishTallied
      refine hempty.of_release (State.releaseOnly_forEach (fun x t => ?_) _ _)
      exact State.releaseOnly_releaseAll x.1 t.steps.length t
    exact hfinished.showSafe

theorem State.Restarting.checkLedger {left : Nat} {s : State} (h : s.Restarting left) : s.checkLedger.Restarting left := by
  refine forEach_keeps (State.Restarting left) _ (fun x t ht => ?_) h
  dsimp only
  unfold State.checkEntry
  split
  · exact ht
  · split
    · exact ht
    · split
      · exact ht.dampAt _ _ _ _
      · have hcleared : State.Restarting left { t with ledgerErr := mapDel t.ledgerErr x.1 } := ht
        exact hcleared.of_release ((State.releaseOnly_setFlag _ _ _).trans (State.onlyLogs_logCorrected _ _ _ _).storeOnly.releaseOnly)

/-- What a warm reset in RUN goes back to (R457). -/
theorem State.warm_restarting {s : State} (h : s.power.phase = .run) :
    s.warm.Restarting (if s.deepLost then 3 else if s.keys.kek.isNone then s.power.left else 1) := by
  have hawake : s.asleep = false := by
    rw [State.asleep, h]
    rfl
  unfold State.warm
  extract_lets redo s1 s1a s2 s3 s4 s5 s6 s7 keys s8 s9
  clear_value s7
  have h8 : s8.Restarting (if s.deepLost then 3 else if s.keys.kek.isNone then s.power.left else 1) := by
    refine ⟨?_, rfl, rfl, rfl⟩
    show (if s.asleep then PowerPhase.regulator else PowerPhase.memory) = PowerPhase.memory
    rw [hawake, if_neg Bool.false_ne_true]
  have h9 := h8.checkLedger
  by_cases hbad : s.journalBad = true
  · rw [if_pos hbad]
    exact h9.dampAt _ _ _ _
  · rw [if_neg hbad]
    exact h9

theorem State.reg_forEach_setFld_other {fs : List Fld} {k : Nat} (v : Fld → Nat) (h : ∀ f ∈ fs, k ≠ f.key) (t : State) :
    (forEach fs t fun f u => u.setFld f (v f)).reg k = t.reg k := by
  induction fs generalizing t with
  | nil => rfl
  | cons f fs ih =>
    rw [forEach, ih fun g hg => h g (List.mem_cons_of_mem f hg)]
    exact State.reg_setReg_other t _ (h f List.mem_cons_self)

/-- A cold reset keeps the fuse version. -/
theorem State.fresh_fuseVersion (s : State) (vin : Bool) (phase : PowerPhase) :
    (s.fresh vin phase).fld Fld.SEC_STATUS_fuse_version = s.fld Fld.SEC_STATUS_fuse_version := by
  unfold State.fresh
  extract_lets t t1 t2 t3
  have h1 : t1.fld Fld.SEC_STATUS_fuse_version = s.fld Fld.SEC_STATUS_fuse_version :=
    (State.fld_setFld_same _ _ (by decide)).trans (Nat.mod_eq_of_lt (s.fld_lt _))
  clear_value t1
  have h2 : t2.fld Fld.SEC_STATUS_fuse_version = s.fld Fld.SEC_STATUS_fuse_version :=
    (State.fld_congr (State.reg_forEach_setFld_other _ (by decide) t1)).trans h1
  clear_value t2
  have h3 : t3.fld Fld.SEC_STATUS_fuse_version = s.fld Fld.SEC_STATUS_fuse_version := by
    unfold t3
    split
    · exact (State.fld_setFld_other t2 _ (by decide)).trans h2
    · exact h2
  clear_value t3
  split
  · exact h3
  · exact (State.fld_congr (State.reg_setReg_other t3 _ (by decide))).trans h3

/-- A cold reset keeps the wake log. -/
theorem State.fresh_wakeLog (s : State) (phase : PowerPhase) : (s.fresh false phase).reg Reg.PWR_WAKE_LOG = s.reg Reg.PWR_WAKE_LOG := by
  unfold State.fresh
  extract_lets t t1 t2 t3
  clear_value t3
  rw [if_neg Bool.false_ne_true, State.reg_setReg_same]
  exact Nat.mod_eq_of_lt (s.reg_lt _)

/-- Settles O42: the steps of the power-up order in their phases, and what each reset goes back to. -/
theorem powerUpOrderAndResets : Obligations.PowerUpOrderAndResets := by
  refine ⟨?order, ?memory, ?logic, ?rebuild, ?pin, ?warm, ?cold⟩
  case order =>
    intro s
    rw [exec_regulatorReady, exec_oscillatorReady, regulatorReady, oscillatorReady]
    exact ⟨fun h => by rw [if_pos h], fun h => by rw [if_neg h], fun h => by rw [if_pos h], fun h => by rw [if_neg h]⟩
  case memory =>
    intro s
    constructor
    · intro h
      refine ⟨memoryReady s, exec_memoryReady s, ?_, ?_⟩
      · rw [memoryReady_of_memory h]
        rfl
      · intro d hd hfail
        rw [memoryReady_of_memory h]
        exact State.raiseIslands_up (natRange 0 s.nDies) hfail (.inl (mem_natRange.mpr ⟨Nat.zero_le d, by omega⟩))
    · intro h
      rw [exec_memoryReady, memoryReady, if_neg h]
  case logic =>
    intro bootSel a b s
    constructor
    · intro h
      exact ⟨hubLogicReady bootSel a b s, exec_logicReady bootSel a b s, hubLogicReady_of_logic h⟩
    · intro h
      rw [exec_logicReady, hubLogicReady, if_pos h]
  case rebuild =>
    intro s hrebuilding hpage
    rw [exec_memRebuildDone, memRebuildDone_of_rebuilding hrebuilding hpage]
  case pin =>
    intro lowUs s
    rw [exec_resetPinRise, exec_warmReset, exec_coldReset, resetPinRise]
    refine ⟨fun h => by rw [if_pos h], fun hlo hhi => ?_, fun h => ?_, exec_resetPinColdTimeout s⟩
    · rw [if_neg (Nat.not_lt.mpr hlo), if_pos hhi]
    · rw [if_neg (by omega), if_neg (Nat.not_lt.mpr h)]
  case warm =>
    intro s h
    have hwarm : s.reset1 = s.warm := by rw [State.reset1, h]
    obtain ⟨hphase, hleft, hruns, hqueue⟩ := State.warm_restarting h
    exact ⟨s.warm, (exec_warmReset s).trans (congrArg _ hwarm), hphase, hleft, hruns, hqueue, rfl⟩
  case cold =>
    intro s h
    refine ⟨s.fresh false .regulator, (exec_coldReset s).trans (congrArg _ (if_neg h)), ?_⟩
    have hregs := s.fresh_frame false .regulator
    refine ⟨?_, ?_, ?_, ?_, ?_, ?_, ?_, s.fresh_wakeLog _, s.fresh_fuseVersion _ _⟩ <;> rw [hregs] <;> rfl

end Sys2Proof.Machine
end

section

/-! ## What a take-out of a die leaves alone

A die that is taken out, drained or shut off changes registers of its own window, of the links and of the logs, and the topology; the
registers of power, time and security, the safety status with the injection's pass map, and the damper stay as they are. -/

namespace Sys2Proof.Machine

open Sys2Proof

/-- The damper and the registers between the hub's topology and its logs stay as they are. -/
def State.Sheltered (s t : State) : Prop := t.saf.damped = s.saf.damped ∧ ∀ k, 0x10000 ≤ k → k < lowRegs → t.reg k = s.reg k

theorem State.Sheltered.refl (s : State) : s.Sheltered s := ⟨rfl, fun _ _ _ => rfl⟩

theorem State.Sheltered.trans {s t u : State} (h1 : s.Sheltered t) (h2 : t.Sheltered u) : s.Sheltered u :=
  ⟨h2.1.trans h1.1, fun k hlo hhi => (h2.2 k hlo hhi).trans (h1.2 k hlo hhi)⟩

theorem State.Sheltered.damped {s t : State} (h : s.Sheltered t) : t.saf.damped = s.saf.damped := h.1

/-- A change that reaches neither the registers nor the safety state. -/
theorem State.Sheltered.of_eq {s t : State} (hregs : t.regs = s.regs) (hvariant : t.variant = s.variant) (hgrade : t.grade = s.grade)
    (hsaf : t.saf = s.saf) : s.Sheltered t :=
  ⟨by rw [hsaf], fun k _ _ => by rw [State.reg, State.reg, hregs, hvariant, hgrade]⟩

theorem State.StoreOnly.sheltered {s t : State} (h : s.StoreOnly t) : s.Sheltered t :=
  ⟨by rw [h.1], fun k _ hhi => h.2 k hhi⟩

theorem State.OnlyLogs.sheltered {s t : State} (h : s.OnlyLogs t) : s.Sheltered t := h.storeOnly.sheltered

theorem State.ReadyOnly.sheltered {s t : State} (h : s.ReadyOnly t) : s.Sheltered t := by
  rw [h]
  exact .of_eq rfl rfl rfl rfl

theorem State.sheltered_forEach {β : Type} {f : β → State → State} (h : ∀ x (t : State), t.Sheltered (f x t)) (xs : List β) (s : State) :
    s.Sheltered (forEach xs s f) := by
  induction xs generalizing s with
  | nil => exact .refl s
  | cons x xs ih => exact (h x s).trans (ih (f x s))

/-! ### Registers outside the sheltered range -/

/-- The keys outside the sheltered range. -/
def Outside (k : Nat) : Prop := k < 0x10000 ∨ lowRegs ≤ k

theorem Outside.dieBase (d k : Nat) : Outside (dieBase d + k) := by
  simp only [Outside, lowRegs, Machine.dieBase]
  omega

theorem State.sheltered_setReg (s : State) {key : Nat} (v : Nat) (h : Outside key) : s.Sheltered (s.setReg key v) := by
  refine ⟨rfl, fun k hlo hhi => State.reg_setReg_other s v ?_⟩
  rcases h with h | h <;> omega

theorem State.sheltered_setFld (s : State) {f : Fld} (v : Nat) (h : Outside f.key) : s.Sheltered (s.setFld f v) := s.sheltered_setReg _ h

theorem State.sheltered_setFlag (s : State) {f : Fld} (b : Bool) (h : Outside f.key) : s.Sheltered (s.setFlag f b) := s.sheltered_setReg _ h

theorem State.sheltered_addFld (s : State) {f : Fld} (n : Nat) (h : Outside f.key) : s.Sheltered (s.addFld f n) := s.sheltered_setReg _ h

/-! ### Counters and epochs -/

theorem Outside.overflow {d u blk : Nat} (h : counterBlock d u = some blk) : Outside (Reg.X_CNT_OVF blk) := by
  have hblk := counterBlock_bounds h
  simp only [Outside, lowRegs, Reg.X_CNT_OVF, Machine.dieBase] at hblk ⊢
  omega

theorem State.sheltered_bump (s : State) {d u blk : Nat} (i n : Nat) (h : counterBlock d u = some blk) : s.Sheltered (s.bump blk i n) := by
  have hmod (f : CntBlock → CntBlock) : s.Sheltered (s.modCnt blk f) := .of_eq rfl rfl rfl rfl
  unfold State.bump
  dsimp only
  split
  · exact hmod _
  · exact (hmod _).trans (State.sheltered_setFld _ _ (.overflow h))

theorem State.sheltered_count (s : State) (d u code n : Nat) (cl : Option Nat) : s.Sheltered (s.count d u code n cl) := by
  unfold State.count
  split
  · exact .refl s
  · next blk hblk =>
    split
    · exact .refl s
    · refine State.sheltered_forEach (fun i t => ?_) _ s
      split
      · exact t.sheltered_bump i n hblk
      · exact .refl t

theorem State.sheltered_countFixed (s : State) (d u i n : Nat) : s.Sheltered (s.countFixed d u i n) := by
  unfold State.countFixed
  split
  · exact .refl s
  · next blk hblk =>
    split
    · exact .refl s
    · exact s.sheltered_bump i n hblk

theorem State.sheltered_countStalled (s : State) (r : Run) (g : EngRun) : s.Sheltered (s.countStalled r g) := by
  unfold State.countStalled
  split
  · exact State.sheltered_forEach (fun _ t => t.sheltered_count _ _ _ _ _) _ s
  · exact .refl s

theorem State.sheltered_modUnit (s : State) (u : Nat) (f : UnitSt → UnitSt) : s.Sheltered (s.modUnit u f) := .of_eq rfl rfl rfl rfl

theorem State.sheltered_send (s : State) (m : Sent) : s.Sheltered (s.send m) := .of_eq rfl rfl rfl rfl

theorem State.sheltered_advanceEpoch (s : State) (u : Nat) : s.Sheltered (s.advanceEpoch u) := by
  unfold State.advanceEpoch
  split
  · exact s.sheltered_modUnit u _
  · exact (s.sheltered_modUnit u _).trans ((State.sheltered_forEach (fun _ t => t.sheltered_count _ _ _ _ _) _ _).trans
      (State.sheltered_send _ _))

/-! ### The ends of runs and residencies -/

theorem State.sheltered_modRun (s : State) (d e : Nat) (f : Run → Run) : s.Sheltered (s.modRun d e f) := .of_eq rfl rfl rfl rfl

theorem State.sheltered_modStep (s : State) (r q : Nat) (f : Step → Step) : s.Sheltered (s.modStep r q f) := .of_eq rfl rfl rfl rfl

theorem State.sheltered_setVt (s : State) (c kind v : Nat) : s.Sheltered (s.setVt c kind v) := .of_eq rfl rfl rfl rfl

theorem State.sheltered_acct (s : State) (c off n : Nat) : s.Sheltered (s.acct c off n) := .of_eq rfl rfl rfl rfl

theorem State.sheltered_modHearth (s : State) (d : Nat) (f : Hearth → Hearth) : s.Sheltered (s.modHearth d f) := .of_eq rfl rfl rfl rfl

theorem State.sheltered_modDie (s : State) (d : Nat) (f : Die → Die) : s.Sheltered (s.modDie d f) := .of_eq rfl rfl rfl rfl

theorem State.sheltered_drawWord (s : State) : s.Sheltered s.drawWord.1 := .of_eq rfl rfl rfl rfl

theorem State.sheltered_chargeParked (s : State) (x : Residency) : s.Sheltered (s.chargeParked x) := by
  unfold State.chargeParked
  split
  · exact .refl s
  · split
    · exact .refl s
    · exact .of_eq rfl rfl rfl rfl

theorem State.sheltered_countParked (s : State) (x : Residency) : s.Sheltered (s.countParked x) := by
  unfold State.countParked
  split
  · exact .refl s
  · exact State.sheltered_forEach (fun _ t => t.sheltered_count _ _ _ _ _) _ s

theorem State.sheltered_endResidency (s : State) (x : Residency) (bump : Bool) : s.Sheltered (s.endResidency x bump) := by
  have hended (t : State) (rs : List Residency) : t.Sheltered { t with residencies := rs } := .of_eq rfl rfl rfl rfl
  refine (s.sheltered_chargeParked x).trans ((State.sheltered_countParked _ x).trans ((hended _ _).trans
    (State.sheltered_forEach (fun n t => ?_) _ _)))
  have hfree := (t.sheltered_setFld (f := Fld.MXE_STATUS_res_state x.die n) 0 (by
      show Outside (dieBase x.die + 0x10004 + 0x1000 * n)
      rw [Nat.add_assoc]
      exact .dieBase _ _)).trans
    (State.sheltered_setReg _ (key := Reg.MXE_RES x.die n) 0 (by
      show Outside (dieBase x.die + 0x10008 + 0x1000 * n)
      rw [Nat.add_assoc]
      exact .dieBase _ _))
  dsimp only
  split
  · exact hfree.trans (State.sheltered_advanceEpoch _ _)
  · exact hfree

theorem State.sheltered_endRunResidency (s : State) (r : Run) (bump : Bool) : s.Sheltered (s.endRunResidency r bump) := by
  unfold State.endRunResidency
  split
  · exact s.sheltered_endResidency _ bump
  · exact .refl s

theorem Outside.inService {d u : Nat} {f : Fld} (h : inServiceFld d u = some f) : Outside f.key := by
  have hkey : ∃ k, f.key = Machine.dieBase d + k := by
    unfold inServiceFld at h
    repeat' split at h
    all_goals simp only [Option.some.injEq, reduceCtorEq] at h
    all_goals subst h
    · exact ⟨_, Nat.add_assoc _ _ _⟩
    · exact ⟨_, Nat.add_assoc _ _ _⟩
    · exact ⟨_, rfl⟩
    · exact ⟨_, rfl⟩
    · exact ⟨_, Nat.add_assoc _ _ _⟩
  obtain ⟨k, hk⟩ := hkey
  rw [hk]
  exact .dieBase d k

theorem State.sheltered_setInService (s : State) (d u : Nat) (b : Bool) : s.Sheltered (s.setInService d u b) := by
  unfold State.setInService
  split
  · next f hf =>
    have hset := s.sheltered_setFlag (f := f) b (.inService hf)
    dsimp only
    split
    · refine hset.trans (State.sheltered_setFlag _ (f := Fld.EWE_STATUS_in_service d u) b ?_)
      show Outside (dieBase d + 0x20004 + 0x1000 * u)
      rw [Nat.add_assoc]
      exact .dieBase _ _
    · exact hset
  · exact .refl s

theorem State.sheltered_settleDisable (s : State) (d u : Nat) : s.Sheltered (s.settleDisable d u) := by
  unfold State.settleDisable
  split
  · exact (s.sheltered_setInService d u false).trans ((State.sheltered_modUnit _ _ _).trans (State.sheltered_advanceEpoch _ _))
  · exact .refl s

theorem State.sheltered_cmdEnd (s : State) (r : Run) (outcome detail : Nat) : s.Sheltered (s.cmdEnd r outcome detail) :=
  (State.onlyLogs_packet s _ _ _ _).sheltered

theorem State.sheltered_endCycles (s : State) (r : Run) : s.Sheltered (s.endCycles r) :=
  State.sheltered_forEach (fun _ t => State.sheltered_forEach (fun _ u => u.sheltered_drawWord.trans
    ((State.sheltered_countFixed _ _ _ _ _).trans ((State.sheltered_count _ _ _ _ _ _).trans (State.sheltered_count _ _ _ _ _ _)))) _ t) _ s

theorem State.sheltered_chargeRun (s : State) (r : Run) : s.Sheltered (s.chargeRun r) := by
  unfold State.chargeRun
  dsimp only
  exact (s.sheltered_setVt _ _ _).trans (State.sheltered_modRun _ _ _ _)

theorem State.sheltered_stopEngines (s : State) (r : Run) : s.Sheltered (s.stopEngines r) := by
  unfold State.stopEngines
  extract_lets s1 s3 s4
  have h1 : s.Sheltered s1 := by
    refine (s.sheltered_chargeRun r).trans ((State.sheltered_endCycles _ r).trans ?_)
    exact State.sheltered_forEach (fun g t => (t.sheltered_countStalled r g).trans (State.sheltered_forEach (fun _ u =>
      (u.sheltered_countFixed _ _ _ _).trans (State.sheltered_count _ _ _ _ _ _)) _ _)) _ _
  clear_value s1
  have h3 : s.Sheltered s3 := by
    refine h1.trans ((s1.sheltered_endRunResidency r false).trans (State.sheltered_forEach (fun g t => ?_) _ _))
    have hfree := (t.sheltered_advanceEpoch (unitOf r.die g.unit)).trans (State.sheltered_settleDisable _ r.die g.unit)
    dsimp only
    split
    · refine hfree.trans (State.sheltered_setFlag _ (f := Fld.ATE_STATUS_waiting r.die (g.unit - 0x010)) false ?_)
      show Outside (dieBase r.die + 0x30004 + 0x4000 * (g.unit - 0x010))
      rw [Nat.add_assoc]
      exact .dieBase _ _
    · exact hfree
  clear_value s3
  have h4 : s.Sheltered s4 := h3.trans (.of_eq rfl rfl rfl rfl)
  exact h4.trans (s4.sheltered_cmdEnd r 1 0)

theorem State.sheltered_setPresent (s : State) (d : Nat) (b : Bool) : s.Sheltered (s.setPresent d b) :=
  s.sheltered_setFld _ (.inl (by decide))

theorem State.sheltered_holdDrained (s : State) (d : Nat) : s.Sheltered (s.holdDrained d) := by
  unfold State.holdDrained
  split
  · exact (s.sheltered_setFlag (f := Fld.CFR_STATUS_held_out d) true (.dieBase d _)).trans (State.sheltered_setPresent _ d _)
  · exact .refl s

theorem State.sheltered_dropRun (s : State) (die entry : Nat) : s.Sheltered (s.dropRun die entry) := by
  unfold State.dropRun
  extract_lets s1
  have h1 : s.Sheltered s1 := by
    unfold s1
    split
    · exact s.sheltered_modDie die _
    · exact .refl s
  clear_value s1
  have hended : s1.Sheltered { s1 with runs := s1.runs.filter fun r => !(decide (r.die = die) && decide (r.entry = entry)) } := .of_eq rfl rfl rfl rfl
  exact h1.trans (hended.trans (State.sheltered_holdDrained _ die))

theorem State.sheltered_killRun (s : State) (r : Run) : s.Sheltered (s.killRun r) := by
  unfold State.killRun
  extract_lets s1 ns
  have h1 : s.Sheltered s1 := by
    unfold s1
    split
    · exact s.sheltered_endRunResidency r true
    · exact s.sheltered_stopEngines r
  clear_value s1
  dsimp only
  generalize hs3 : State.acct _ _ acLostEnergy _ = s3
  have h3 : s.Sheltered s3 := by
    rw [← hs3]
    exact h1.trans ((s1.sheltered_acct _ _ _).trans ((State.sheltered_drawWord _).trans (State.sheltered_acct _ _ _ _)))
  have hbufs : s3.Sheltered (s3.freeRunBufs r.die r.entry true) := State.sheltered_forEach (fun _ t => t.sheltered_modHearth _ _) _ s3
  exact h3.trans (hbufs.trans ((State.sheltered_modHearth _ _ _).trans ((State.sheltered_dropRun _ _ _).trans
    (State.sheltered_modStep _ _ _ _))))

theorem State.sheltered_schedKill (s : State) (r : Run) (preempted : Bool) : s.Sheltered (s.schedKill r preempted) := by
  unfold State.schedKill
  split
  · exact .refl s
  · split
    · exact .refl s
    · exact (s.sheltered_send _).trans (State.sheltered_modRun _ _ _ _)

theorem State.sheltered_killPlaced (s : State) (st : Step) (c : Cmd) : s.Sheltered (s.killPlaced st c) := by
  unfold State.killPlaced
  split
  · exact s.sheltered_send _
  · exact .refl s

theorem State.sheltered_noteCommit (s : State) (ring : Nat) : s.Sheltered (s.noteCommit ring) := by
  have hring (f : Ring → Ring) : s.Sheltered (s.modRing ring f) := .of_eq rfl rfl rfl rfl
  exact (hring _).trans (State.sheltered_forEach (fun _ t => t.sheltered_modStep _ _ _) _ _)

theorem State.sheltered_refreshReady (s : State) : s.Sheltered s.refreshReady := s.readyOnly_refreshReady.sheltered

theorem State.sheltered_decideStep (s : State) (ring seq status detail failIndex : Nat) :
    s.Sheltered (s.decideStep ring seq status detail failIndex) := by
  unfold State.decideStep
  split
  · exact .refl s
  · split
    · exact .refl s
    · next st _ _ =>
      have hkilled : s.Sheltered (forEach st.cmds (forEach (s.runsOf ring seq) s fun r t => t.schedKill r false) fun c t => t.killPlaced st c) :=
        (State.sheltered_forEach (fun r t => t.sheltered_schedKill r false) _ s).trans
          (State.sheltered_forEach (fun c t => t.sheltered_killPlaced st c) _ _)
      exact hkilled.trans ((State.sheltered_modStep _ _ _ _).trans ((State.sheltered_noteCommit _ ring).trans (State.sheltered_refreshReady _)))

theorem State.sheltered_logEvent (s : State) (cls action unit detail client seq ring : Nat) :
    s.Sheltered (s.logEvent cls action unit detail client seq ring) :=
  (State.onlyLogs_writeLog s _).sheltered

theorem State.sheltered_failHearthSteps (s : State) (d : Nat) : s.Sheltered (s.failHearthSteps d) := by
  refine State.sheltered_forEach (fun st t => ?_) _ s
  dsimp only
  split
  · exact .refl t
  · exact (t.sheltered_decideStep _ _ _ _ _).trans (State.sheltered_logEvent _ _ _ _ _ _ _ _)

theorem State.sheltered_failFinal (s : State) (r : Run) (unit detail : Nat) : s.Sheltered (s.failFinal r unit detail) :=
  (s.sheltered_schedKill r false).trans ((State.sheltered_killRun _ r).trans ((State.sheltered_cmdEnd _ r 2 detail).trans
    ((State.sheltered_decideStep _ _ _ _ _ _).trans (State.sheltered_logEvent _ _ _ _ _ _ _ _))))

theorem State.sheltered_faultKill (s : State) (r : Run) (unit detail finalDetail : Nat) (avoid : Option Nat) :
    s.Sheltered (s.faultKill r unit detail finalDetail avoid) := by
  unfold State.faultKill
  extract_lets kills
  clear_value kills
  split
  · exact s.sheltered_failFinal r unit finalDetail
  · exact (s.sheltered_killRun r).trans ((State.sheltered_modStep _ _ _ _).trans ((State.sheltered_acct _ _ _ _).trans
      ((State.sheltered_logEvent _ _ _ _ _ _ _ _).trans (State.sheltered_refreshReady _))))

theorem State.sheltered_clientEvent (s : State) (c ev unit arg : Nat) : s.Sheltered (s.clientEvent c ev unit arg) :=
  (s.storeOnly_clientEvent c ev unit arg).sheltered

theorem State.sheltered_killForTakeOut (s : State) (d : Nat) (clients : List Nat) : s.Sheltered (s.killForTakeOut d clients) := by
  refine State.Sheltered.trans (State.sheltered_forEach (fun r t => ?_) _ s)
    (State.sheltered_forEach (fun c t => t.sheltered_clientEvent _ _ _ _) _ _)
  split
  · split
    · exact .refl t
    · exact t.sheltered_faultKill _ _ _ _ _
  · exact .refl t

/-! ### The gate, the take-out and the links -/

theorem State.sheltered_abandonMove (s : State) (n : Nat) : s.Sheltered (s.abandonMove n) := by
  unfold State.abandonMove
  extract_lets s1
  have h1 : s.Sheltered s1 := by
    unfold s1
    split
    · exact (State.onlyLogs_packet s _ _ _ _).sheltered
    · exact .refl s
  clear_value s1
  exact h1.trans (.of_eq rfl rfl rfl rfl)

theorem State.sheltered_cutMove (s : State) (n : Nat) (m : Move) : s.Sheltered (s.cutMove n m) := by
  have hcut : s.Sheltered { s with moves := mapDel s.moves n } := .of_eq rfl rfl rfl rfl
  unfold State.cutMove
  split
  · exact s.sheltered_abandonMove n
  · refine hcut.trans (State.sheltered_forEach (fun x t => ?_) _ _)
    dsimp only
    split
    · exact t.sheltered_schedKill _ false
    · exact .refl t

theorem Outside.inLogic {d k : Nat} (h : inLogic d k = true) : Outside k := by
  obtain ⟨hlo, -⟩ : Machine.dieBase d + 0x10000 ≤ k ∧ k < Machine.dieBase d + 0x70000 := by
    simpa only [Machine.inLogic, Bool.and_eq_true, decide_eq_true_eq] using h
  simp only [Machine.dieBase] at hlo
  refine .inr ?_
  simp only [lowRegs]
  omega

theorem State.sheltered_resetRegs (s : State) {inBlock : Nat → Bool} (keep : Acc → Bool) (h : ∀ k, inBlock k = true → Outside k) :
    s.Sheltered (s.resetRegs inBlock keep) := by
  refine State.sheltered_forEach (fun x t => ?_) _ s
  dsimp only
  split
  · next hin =>
    split
    · split
      · exact t.sheltered_setReg _ (h _ hin)
      · exact t.sheltered_setReg _ (h _ hin)
    · exact t.sheltered_setReg _ (h _ hin)
  · exact .refl t

theorem State.sheltered_resetLogic (s : State) (d : Nat) : s.Sheltered (s.resetLogic d) := by
  unfold State.resetLogic
  extract_lets s1 s2 n peers s3
  have h1 : s.Sheltered s1 := s.sheltered_resetRegs _ fun _ => .inLogic
  clear_value s1
  have h2 : s.Sheltered s2 := h1.trans (.of_eq rfl rfl rfl rfl)
  clear_value s2
  exact h2.trans ((State.sheltered_forEach (fun _ t => t.sheltered_modUnit _ _) _ _).trans
    (State.sheltered_forEach (fun _ t => t.sheltered_modUnit _ _) _ _))

theorem State.sheltered_logicState (s : State) (d v : Nat) : s.Sheltered (s.setFld (Fld.CDG_STATUS_logic_state d) v) :=
  s.sheltered_setFld _ (.dieBase d 0)

theorem State.sheltered_logicPowered (s : State) (d : Nat) (b : Bool) : s.Sheltered (s.setFlag (Fld.CPC_STATUS_logic_powered d) b) :=
  s.sheltered_setFlag _ (.dieBase d _)

theorem State.sheltered_cutMovesOf (s : State) (d : Nat) : s.Sheltered (s.cutMovesOf d) := by
  unfold State.cutMovesOf
  exact State.sheltered_forEach (fun (x : Nat × Move) t => t.sheltered_cutMove x.1 x.2) _ s

theorem State.sheltered_closeGate (s : State) (d : Nat) (off : Bool) : s.Sheltered (s.closeGate d off) := by
  unfold State.closeGate
  extract_lets t0 t1 t2 t3 t4 t5
  have h0 : s.Sheltered t0 := s.sheltered_cutMovesOf d
  clear_value t0
  have h1 : s.Sheltered t1 := h0.trans (State.sheltered_forEach (fun x t => t.sheltered_endResidency x false) _ t0)
  clear_value t1
  have h2 : s.Sheltered t2 := h1.trans (State.sheltered_forEach (fun u t => t.sheltered_advanceEpoch u) _ t1)
  clear_value t2
  have h3 : s.Sheltered t3 := h2.trans ((t2.sheltered_failHearthSteps d).trans ((State.sheltered_modHearth _ d _).trans
    (State.sheltered_modHearth _ d _)))
  clear_value t3
  have h4 : s.Sheltered t4 := h3.trans ((t3.sheltered_resetLogic d).trans (State.sheltered_logicState _ d _))
  clear_value t4
  exact h4.trans ((t4.sheltered_logicPowered d _).trans (State.sheltered_modDie _ d _))

theorem State.sheltered_takeOutDie (s : State) (d cause : Nat) (off : Bool) : s.Sheltered (s.takeOutDie d cause off) := by
  unfold State.takeOutDie
  extract_lets recent s1 s2 s3 held s4
  have h1 : s.Sheltered s1 := (s.sheltered_modDie d _).trans (State.sheltered_addFld _ (f := Fld.CFR_STATUS_takeouts d) 1 (.dieBase d _))
  clear_value s1
  have h2 : s.Sheltered s2 := h1.trans ((s1.sheltered_setFld (f := Fld.CFR_CAUSE_last_cause d) cause (.dieBase d _)).trans
    (State.sheltered_logEvent _ _ _ _ _ _ _ _))
  clear_value s2
  have h3 : s.Sheltered s3 := h2.trans ((s2.sheltered_failHearthSteps d).trans ((State.sheltered_killForTakeOut _ d _).trans
    (State.sheltered_closeGate _ d off)))
  clear_value s3
  have h4 : s.Sheltered s4 := by
    unfold s4
    split
    · exact h3.trans (s3.sheltered_setFlag (f := Fld.CFR_STATUS_held_out d) true (.dieBase d _))
    · exact h3
  clear_value s4
  exact h4.trans ((s4.sheltered_setPresent d _).trans (State.sheltered_refreshReady _))

theorem Outside.link (u k : Nat) : Outside (linkBlk u + k) := by
  have hblk := linkBlk_ge u
  simp only [Outside, lowRegs, Machine.dieBase] at hblk ⊢
  omega

theorem State.sheltered_endLost (s : State) (u : Nat) : s.Sheltered (s.endLost u) := by
  unfold State.endLost
  extract_lets l ms blk s1 s2 own s3
  have h1 : s.Sheltered s1 :=
    (s.sheltered_setFlag (f := Fld.HXL_STATUS_link_up blk) false (.link u 0)).trans
      ((State.sheltered_setFld _ (f := Fld.HXL_STATUS_modules_up blk) 0 (.link u 0)).trans
        ((State.sheltered_setFlag _ (f := Fld.HXL_STATUS_module_degraded blk) false (.link u 0)).trans
          (State.sheltered_setFlag _ (f := Fld.HXL_STATUS_down_seen blk) true (.link u 0))))
  clear_value s1
  have h2 : s.Sheltered s2 := h1.trans ((s1.sheltered_advanceEpoch u).trans (.of_eq rfl rfl rfl rfl))
  clear_value s2
  have h3 : s.Sheltered s3 := h2.trans (State.sheltered_forEach (fun _ t => t.sheltered_send _) _ s2)
  clear_value s3
  exact h3.trans ((s3.sheltered_modUnit u _).trans (State.sheltered_logEvent _ _ _ _ _ _ _ _))

theorem State.sheltered_syncTopo (s : State) : s.Sheltered s.syncTopo := by
  refine ⟨by rw [State.syncTopo_frame], fun k hlo hhi => s.regsBut_syncTopo k fun hmem => ?_⟩
  rcases List.mem_cons.mp hmem with rfl | hdie
  · exact absurd hlo (by decide)
  · obtain ⟨d, -, rfl⟩ := List.mem_map.mp hdie
    have hbase : 0x1000000 ≤ Reg.CDG_STATUS d := by
      simp only [Reg.CDG_STATUS, Machine.dieBase]
      omega
    simp only [lowRegs] at hhi
    omega

theorem State.sheltered_takeOutUnreached (s : State) : s.Sheltered s.takeOutUnreached := by
  refine State.sheltered_forEach (fun d t => ?_) _ s
  split
  · exact t.sheltered_takeOutDie d 6 false
  · exact .refl t

theorem State.sheltered_linkDown (s : State) (u : Nat) : s.Sheltered (s.linkDown u) := by
  unfold State.linkDown
  split
  · extract_lets s1 s2
    have h1 : s.Sheltered s1 := s.sheltered_endLost u
    clear_value s1
    have h2 : s.Sheltered s2 := by
      unfold s2
      split
      · split
        · exact h1.trans (s1.sheltered_endLost _)
        · exact h1
      · exact h1
    clear_value s2
    exact h2.trans ((s2.sheltered_syncTopo).trans ((State.sheltered_send _ _).trans (State.sheltered_takeOutUnreached _)))
  · exact .refl s

end Sys2Proof.Machine
end

section

/-! ## O39: the start-up injection, the tests of engines that are out, and fault reports -/

namespace Sys2Proof.Machine

open Sys2Proof

/-! ### The injection at start-up -/

theorem exec_injectionDone (hub : W32) (dies : List W32) (s : State) : exec (.injectionDone hub dies) s = .next (injectionDone hub dies s) := rfl

theorem State.sheltered_startOut (s : State) (u : Nat) : s.Sheltered (s.startOut u) :=
  (s.sheltered_setInService _ _ false).trans ((State.sheltered_modUnit _ _ _).trans (State.sheltered_logEvent _ _ _ _ _ _ _ _))

theorem State.sheltered_barGroup (s : State) (g : Nat) : s.Sheltered (s.barGroup g) := .of_eq rfl rfl rfl rfl

theorem State.sheltered_startLinkOut (s : State) (u : Nat) : s.Sheltered (s.startLinkOut u) :=
  (s.sheltered_linkDown u).trans ((State.sheltered_modUnit _ _ _).trans (State.sheltered_logEvent _ _ _ _ _ _ _ _))

theorem State.sheltered_dieMap (s : State) (d : Nat) (pass : W32) : s.Sheltered (s.dieMap d pass) := by
  unfold State.dieMap
  extract_lets p map bad s1 s2 s3 s4 fail
  have h1 : s.Sheltered s1 := by
    unfold s1
    split
    · exact s.sheltered_setFld (f := Fld.SAF_INJ_DIE_pass d) _ (.inr (Nat.le_add_right _ _))
    · exact .refl s
  clear_value s1
  have h2 : s.Sheltered s2 := h1.trans (State.sheltered_forEach (fun _ t => t.sheltered_startOut _) _ s1)
  clear_value s2
  have h3 : s.Sheltered s3 := h2.trans (State.sheltered_forEach (fun _ t => t.sheltered_barGroup _) _ s2)
  clear_value s3
  have h4 : s.Sheltered s4 := h3.trans (State.sheltered_forEach (fun _ t => t.sheltered_startLinkOut _) _ s3)
  clear_value s4
  exact h4.trans ((s4.sheltered_modDie d _).trans (State.sheltered_setPresent _ d _))

theorem State.sheltered_dieInjected (s : State) (d : Nat) (pass : W32) : s.Sheltered (s.dieInjected d pass) := by
  have hmap := s.sheltered_dieMap d pass
  unfold State.dieInjected
  extract_lets s1
  change s.Sheltered s1 at hmap
  clear_value s1
  split
  · exact hmap.trans ((s1.sheltered_killForTakeOut d _).trans ((State.sheltered_closeGate _ d false).trans
      (State.sheltered_logEvent _ _ _ _ _ _ _ _)))
  · exact hmap

/-- The injection's pass map of the hub, in which the bits of dies that the part lacks read 1. -/
def State.hubMap (s : State) (hub : W32) : Nat :=
  forEach (natRange s.nDies (7 - s.nDies)) (hub.toNat % 2 ^ 31) fun d m => setBit m (11 + d) true

theorem State.hubMap_of_all_pass (s : State) : s.hubMap 0x7FFFFFFF#32 = 0x7FFFFFFF := by
  unfold State.hubMap State.nDies
  cases s.variant <;> decide

theorem State.hubMap_of_part29_failing (s : State) : s.hubMap 0x5FFFFFFF#32 = 0x5FFFFFFF := by
  unfold State.hubMap State.nDies
  cases s.variant <;> decide

/-- The two registers of an injection's result. -/
def State.SameResult (s t : State) : Prop := t.reg Reg.SAF_STATUS = s.reg Reg.SAF_STATUS ∧ t.reg Reg.SAF_INJ_HUB = s.reg Reg.SAF_INJ_HUB

theorem State.Sheltered.sameResult {s t : State} (h : s.Sheltered t) : s.SameResult t := ⟨h.2 _ (by decide) (by decide), h.2 _ (by decide) (by decide)⟩

theorem State.SameResult.trans {s t u : State} (h1 : s.SameResult t) (h2 : t.SameResult u) : s.SameResult u :=
  ⟨h2.1.trans h1.1, h2.2.trans h1.2⟩

theorem State.sameResult_secStatus (s : State) {f : Fld} (v : Nat) (h : f.key = Reg.SEC_STATUS) : s.SameResult (s.setFld f v) :=
  ⟨State.reg_setFld_other s v (by rw [h]; decide), State.reg_setFld_other s v (by rw [h]; decide)⟩

/-- What an injection shows of `map`, where neither the hub nor its standby core failed. -/
def State.ShowsPass (s : State) (map : Nat) : Prop :=
  s.flag Fld.SAF_STATUS_inj_done = true ∧ s.fld Fld.SAF_INJ_HUB_pass = map

theorem State.showsPass_of_sameResult {s t : State} {map : Nat} (hs : s.ShowsPass map) (h : s.SameResult t) : t.ShowsPass map :=
  ⟨(State.flag_congr h.1).trans hs.1, (State.fld_congr h.2).trans hs.2⟩

/-- A write of another field of SAF_STATUS. -/
theorem State.showsPass_setFld {s : State} {f : Fld} {map : Nat} (v : Nat) (hs : s.ShowsPass map) (hkey : f.key = Reg.SAF_STATUS)
    (hf : f.lo + f.width ≤ 64) (h : 5 ≤ f.lo ∨ f.lo + f.width ≤ 4) :
    (s.setFld f v).ShowsPass map :=
  ⟨(State.flag_setFld_apart s v (f := f) (g := Fld.SAF_STATUS_inj_done) hkey.symm hf (by decide) h).trans hs.1,
    (State.fld_setFld_other s (f := f) (g := Fld.SAF_INJ_HUB_pass) v (by rw [hkey]; decide)).trans hs.2⟩

theorem State.serveImage_sameResult_of_serving (s : State) :
    s.SameResult s.serveImage ∨ (s.setFld Fld.SAF_STATUS_state safServing).SameResult s.serveImage := by
  have hnote (t : State) : t.SameResult t.noteServing := by
    unfold State.noteServing
    split
    · exact ⟨rfl, rfl⟩
    · exact ⟨rfl, rfl⟩
  unfold State.serveImage
  split
  · exact .inl ⟨rfl, rfl⟩
  · refine .inr ?_
    dsimp only
    split
    · exact (hnote _).trans (State.sameResult_secStatus _ _ rfl)
    · exact hnote _

theorem State.serveImage_keeps {s : State} {map : Nat} (hs : s.ShowsPass map) :
    s.serveImage.ShowsPass map ∧ s.serveImage.flag Fld.SAF_STATUS_standby_ok = s.flag Fld.SAF_STATUS_standby_ok := by
  rcases s.serveImage_sameResult_of_serving with h | h
  · exact ⟨s.showsPass_of_sameResult hs h, State.flag_congr h.1⟩
  · refine ⟨State.showsPass_of_sameResult (State.showsPass_setFld _ hs rfl (by decide) (by decide)) h, (State.flag_congr h.1).trans ?_⟩
    exact State.flag_setFld_apart s _ (f := Fld.SAF_STATUS_state) (g := Fld.SAF_STATUS_standby_ok) rfl (by decide) (by decide) (by decide)

/-- With every part of the hub passing, the injection shows the map and a standby core. -/
theorem injectionDone_of_all_pass {dies : List W32} {s : State} (hstart : s.fld Fld.SAF_STATUS_state = safStarting) :
    (injectionDone 0x7FFFFFFF#32 dies s).ShowsPass 0x7FFFFFFF ∧ (injectionDone 0x7FFFFFFF#32 dies s).flag Fld.SAF_STATUS_standby_ok = true := by
  unfold injectionDone
  rw [if_neg (fun hne => hne hstart)]
  extract_lets n map bad s1 s2 s2r s3 s4 outs s5 fail s6 safety s7
  have hmap : map = 0x7FFFFFFF := s.hubMap_of_all_pass
  have hfail : fail = false := by
    unfold fail bad
    rw [hmap]
    decide
  have hcores : (!bad 0 && !bad 1) = true := by
    unfold bad
    rw [hmap]
    decide
  have h1 : s1.ShowsPass 0x7FFFFFFF := by
    refine ⟨State.flag_setFlag_same _ true (by decide) rfl, ?_⟩
    have hpass : (s.setFld Fld.SAF_INJ_HUB_pass map).fld Fld.SAF_INJ_HUB_pass = map % 2 ^ 32 := State.fld_setFld_same s map (by decide)
    exact (State.fld_setFlag_other _ true (by decide)).trans (hpass.trans (congrArg (fun m => m % 2 ^ 32) hmap))
  clear_value s1
  have h2 : s2.ShowsPass 0x7FFFFFFF :=
    State.showsPass_of_sameResult h1 (State.sheltered_forEach (fun _ t => t.sheltered_dieInjected _ _) _ s1).sameResult
  clear_value s2
  have h2r : s2r.ShowsPass 0x7FFFFFFF := State.showsPass_of_sameResult h2 (s2.sameResult_secStatus (f := Fld.SEC_STATUS_rng_ok) _ rfl)
  clear_value s2r
  have h5 : s5.ShowsPass 0x7FFFFFFF := State.showsPass_of_sameResult h2r
    ((State.sheltered_forEach (fun _ t => t.sheltered_barGroup _) _ s2r).trans
      ((State.sheltered_forEach (fun _ t => t.sheltered_startLinkOut _) _ s3).trans
        (State.sheltered_forEach (fun _ t => t.sheltered_startOut _) _ s4))).sameResult
  clear_value s5
  have h6 : s6.ShowsPass 0x7FFFFFFF := State.showsPass_setFld _ (State.showsPass_setFld _ h5 rfl (by decide) (by decide)) rfl (by decide) (by decide)
  have hok : s6.flag Fld.SAF_STATUS_standby_ok = true := (State.flag_setFlag_same _ _ (by decide) rfl).trans hcores
  clear_value s6
  have h7 : s7.ShowsPass 0x7FFFFFFF := h6
  have hok7 : s7.flag Fld.SAF_STATUS_standby_ok = true := hok
  clear_value s7
  rw [hfail]
  obtain ⟨hshown, hkept⟩ := State.serveImage_keeps h7
  exact ⟨hshown, hkept.trans hok7⟩

/-- With part 29 failing the package has not started. -/
theorem injectionDone_of_part29_failing {dies : List W32} {s : State} (hstart : s.fld Fld.SAF_STATUS_state = safStarting) :
    (injectionDone 0x5FFFFFFF#32 dies s).fld Fld.SAF_STATUS_state = safFailed ∧
      (injectionDone 0x5FFFFFFF#32 dies s).flag Fld.SAF_STATUS_fault_n_low = true := by
  unfold injectionDone
  rw [if_neg (fun hne => hne hstart)]
  extract_lets n map bad s1 s2 s2r s3 s4 outs s5 fail s6 safety s7
  have hmap : map = 0x5FFFFFFF := s.hubMap_of_part29_failing
  have hfail : fail = true := by
    unfold fail bad
    rw [hmap]
    decide
  clear_value s7
  rw [hfail]
  have hstate : (s7.setFld Fld.SAF_STATUS_state safFailed).fld Fld.SAF_STATUS_state = safFailed := State.fld_setFld_same s7 safFailed (by decide)
  refine ⟨Eq.trans ?_ hstate, State.flag_setFlag_same _ true (by decide) rfl⟩
  exact State.fld_setFlag_apart _ true (f := Fld.SAF_STATUS_fault_n_low) (g := Fld.SAF_STATUS_state) rfl (by decide) (by decide) (by decide)

/-! ### The tests of engines that are out -/

theorem exec_engineRetest (unit : Nat) (pass : Bool) (s : State) : exec (.engineRetest unit pass) s = .next (engineRetest unit pass s) := rfl

/-- The test of an engine that is due for it. -/
theorem engineRetest_of_due {unit t0 : Nat} {pass on : Bool} {s : State} (hout : (s.unit unit).outSince = some t0)
    (hengine : (unit / 4096 < s.nDies ∧ dieEngines.contains (unit % 4096) = true) ∨ unit = unitOf hubDie 0x010)
    (hup : s.logicUp (unit / 4096) = true) (hrounds : (s.unit unit).rounds < 3)
    (hdue : s.passedUs (s.unit unit).retestAt (if (s.unit unit).rounds = 0 ∨ 0 < (s.unit unit).passes then 100000 else 10000000) = true)
    (hon : on = (match enableFld (unit / 4096) (unit % 4096) with | some f => s.flag f | none => true)) :
    engineRetest unit pass s =
      if !pass then s.modUnit unit fun y => { y with rounds := y.rounds + 1, passes := 0, retestAt := s.tb }
      else if (s.unit unit).passes = 0 then s.modUnit unit fun y => { y with passes := 1, retestAt := s.tb }
      else
        ((((s.modUnit unit fun y => { y with outSince := none, detectedAt := none, passes := 0, rounds := 0 }).setInService (unit / 4096)
          (unit % 4096) on).advanceEpoch unit).logEvent
            2 4 unit 0).refreshReady := by
  have hguard : ((decide (unit / 4096 < s.nDies) && dieEngines.contains (unit % 4096)) || decide (unit = unitOf hubDie 0x010)) = true := by
    rcases hengine with ⟨hd, hu⟩ | hu
    · rw [decide_eq_true hd, hu, Bool.and_self, Bool.true_or]
    · rw [decide_eq_true hu, Bool.or_true]
  unfold engineRetest
  simp only [hout, hguard, hup, hdue, Bool.not_true, Bool.or_self, decide_eq_false (Nat.not_le.mpr hrounds), Bool.false_eq_true, if_false]
  rw [hon] <;> rfl

/-! ### Fault reports and the records of corrected events -/

theorem exec_event (r : FaultReport) (s : State) : exec (.event r) s = .next (event r s) := rfl

theorem exec_logMergeFlush (unit detail : Nat) (s : State) : exec (.logMergeFlush unit detail) s = .next (logMergeFlush unit detail s) := rfl

theorem State.correctedEvent_of_unit_event {r : FaultReport} {s : State} (hsource : r.source ≠ .compare) (hentry : r.entry = none)
    (hdetail : isDetection r.detail = false) :
    s.correctedEvent r = (s.storeCorrected (r.unit / 4096) (r.unit % 4096) r.client).logCorrected r.unit r.detail (r.client.getD 0xFFF) := by
  unfold State.correctedEvent
  rw [if_neg hsource, hentry]
  simp only [hdetail, Bool.false_eq_true, if_false]

theorem logMergeFlush_of_due {unit detail : Nat} {m : LogMerge} {s : State}
    (hfind : (s.saf.merges.find? fun m => decide (m.unit = unit) && decide (m.detail = detail)) = some m) (hdue : s.passedUs m.tb 1000 = true) :
    logMergeFlush unit detail s =
      ({ s with saf := { s.saf with merges := s.saf.merges.filter (fun y => !(decide (y.unit = unit) && decide (y.detail = detail))) } } : State).writeLog
        { tb := m.tb, cls := m.cls, action := 0, unit := unit, detail := detail, client := m.client, count := m.count } := by
  obtain ⟨rfl, rfl⟩ : m.unit = unit ∧ m.detail = detail := by
    simpa only [Bool.and_eq_true, decide_eq_true_eq] using List.find?_some hfind
  unfold logMergeFlush
  rw [hfind]
  simp only [hdue, if_true]
  rfl

/-- Settles O39: registers of the injection's result are written last and no take-out that follows reaches them; a test of an engine that
is due takes the branch of its result. -/
theorem injectionRetestAndReports : Obligations.InjectionRetestAndReports := by
  unfold Obligations.InjectionRetestAndReports
  refine ⟨?notStarting, ?starting, ?retest, ?reports, ?corrected, ?flush⟩
  case notStarting =>
    intro hub dies s hstate
    rw [exec_injectionDone, injectionDone, if_pos hstate]
  case starting =>
    intro dies s hstart
    obtain ⟨⟨hdone, hpass⟩, hok⟩ := injectionDone_of_all_pass (dies := dies) hstart
    exact ⟨⟨_, rfl, hdone, hpass, hok⟩, ⟨_, rfl, injectionDone_of_part29_failing hstart⟩⟩
  case retest =>
    intro unit t0 pass on s1 s hout hengine hup hrounds hdue hon hs1
    rw [exec_engineRetest, engineRetest_of_due hout hengine hup hrounds hdue hon]
    refine ⟨?failed, ?first, ?second⟩
    case failed =>
      rintro rfl
      rfl
    case first =>
      rintro rfl hpasses
      simp only [Bool.not_true, Bool.false_eq_true, if_false, hpasses, if_true]
    case second =>
      rintro rfl hpasses
      simp only [Bool.not_true, Bool.false_eq_true, if_false, hpasses, ← hs1]
  case reports =>
    intro r s
    rw [exec_event]
    refine ⟨?_, ?_, ?_, ?_⟩ <;> intro hcls <;> simp [event, hcls]
  case corrected => exact fun r s => State.correctedEvent_of_unit_event
  case flush =>
    intro unit detail m s hfind hdue
    rw [exec_logMergeFlush, logMergeFlush_of_due hfind hdue]

end Sys2Proof.Machine
end

section

/-! ## O43: the timebase in RTC mode, the thermal samples and the power cap -/

namespace Sys2Proof.Machine

open Sys2Proof

/-! ### The timebase -/

theorem exec_rtcEdge (s : State) : exec .rtcEdge s = .next (rtcEdge s) := rfl

theorem exec_timebaseHandback (s : State) : exec .timebaseHandback s = .next (timebaseHandback s) := rfl

theorem rtcEdge_of_counting {s : State} (hmode : s.rtcMode = true) (hdue : s.handbackDue = false) :
    rtcEdge s =
      { s with
        tb := (s.tb + 1171 + b2n (decide (8 ≤ s.power.frac + 7))) % 2 ^ 64
        power := { s.power with frac := (s.power.frac + 7) % 8, edgeSinceOsc := s.power.oscReady } } := by
  unfold rtcEdge
  rw [if_neg (by simp only [hmode, hdue]; decide)]

theorem timebaseHandback_of_due {s : State} (hdue : s.handbackDue = true) :
    timebaseHandback s =
      ((s.setFld Fld.CLK_LAST_SLEEP_last_sleep (s.tb - s.power.rtcFrom)).addFld Fld.CLK_TB_UNCERT_uncert
        (((s.tb - s.power.rtcFrom) * 20 + 999999) / 1000000 + 1)).setFlag Fld.CLK_TB_STATUS_rtc_mode false := by
  unfold timebaseHandback
  rw [if_pos hdue]

/-- The three registers of a hand-back; `n` is what the uncertainty grows by. -/
theorem State.handback_shows (s : State) (delta n : Nat) :
    let t := ((s.setFld Fld.CLK_LAST_SLEEP_last_sleep delta).addFld Fld.CLK_TB_UNCERT_uncert n).setFlag Fld.CLK_TB_STATUS_rtc_mode false
    t.fld Fld.CLK_LAST_SLEEP_last_sleep = delta % 2 ^ 64 ∧ t.flag Fld.CLK_TB_STATUS_rtc_mode = false ∧
      t.reg Reg.CLK_TB_UNCERT = ((s.setFld Fld.CLK_LAST_SLEEP_last_sleep delta).addFld Fld.CLK_TB_UNCERT_uncert n).reg Reg.CLK_TB_UNCERT := by
  refine ⟨?_, State.flag_setFlag_same _ false (by decide) rfl, State.reg_setFlag_other _ false (by decide)⟩
  have hsleep : (s.setFld Fld.CLK_LAST_SLEEP_last_sleep delta).fld Fld.CLK_LAST_SLEEP_last_sleep = delta % 2 ^ 64 :=
    State.fld_setFld_same s delta (by decide)
  refine (State.fld_setFlag_other _ false (by decide)).trans (Eq.trans ?_ hsleep)
  exact State.fld_congr (State.reg_addFld_other _ n (by decide))

/-! ### The thermal samples -/

theorem exec_thermalSample (temps : List Int) (s : State) : exec (.thermalSample temps) s = .next (thermalSample temps s) := rfl

theorem State.damp_damped (s : State) (cause : Nat) : (s.damp cause).saf.damped = true := by
  unfold State.damp State.dampAt
  split
  · assumption
  · rfl

theorem State.sheltered_thermalOffDie (s : State) (d : Nat) : s.Sheltered (s.thermalOffDie d) := by
  unfold State.thermalOffDie
  split
  · exact (s.sheltered_failHearthSteps d).trans ((State.sheltered_killForTakeOut _ d _).trans (State.sheltered_closeGate _ d true))
  · split
    · exact (s.sheltered_logicPowered d false).trans (State.sheltered_logicState _ d _)
    · exact .refl s

/-- The shutdown limit: a sample above it makes the damper act and is timed; one without such a die is not. -/
theorem thermalSample_hot (temps : List Int) (s : State) :
    ((s.allDies.any fun d => decide (135 < temps.getD (if d = hubDie then s.nDies else d) 0)) = true →
      (thermalSample temps s).saf.damped = true ∧ (thermalSample temps s).power.hotSince.isSome = true) ∧
    ((s.allDies.any fun d => decide (135 < temps.getD (if d = hubDie then s.nDies else d) 0)) = false →
      (thermalSample temps s).power.hotSince = none) := by
  unfold thermalSample
  extract_lets temp s1 s2 s3 hot s4 limited
  change (hot = true → _) ∧ (hot = false → _)
  refine ⟨fun hhot => ⟨?_, ?_⟩, fun hcool => ?_⟩
  · have hdamped : s4.saf.damped = true := by
      unfold s4
      rw [if_pos hhot]
      exact (State.sheltered_forEach (fun d t => t.sheltered_thermalOffDie d) _ _).damped.trans (s3.damp_damped 1)
    clear_value s4
    exact hdamped
  · clear_value s4
    rw [hhot]
    rfl
  · clear_value s4
    rw [hcool]
    rfl

theorem thermalOffTimeout_of_due {t0 : Nat} {s : State} (hhot : s.power.hotSince = some t0) (hdamped : s.saf.damped = true)
    (hdue : s.passedUs t0 100000 = true) : thermalOffTimeout s = s.enterOff.setFlag Fld.PWR_WAKE_LOG_thermal_off true := by
  unfold thermalOffTimeout
  rw [hhot]
  simp only [hdamped, hdue, and_self, if_true]

theorem dvfsStep_of_running {die : Nat} {lower : Bool} {s : State} (hdie : s.fitted die = true ∨ die = hubDie) (hrun : s.power.phase = .run) :
    dvfsStep die lower s = s.moveDie die lower := by
  have hguard : ((s.fitted die || decide (die = hubDie)) && decide (s.power.phase = .run)) = true := by
    rw [decide_eq_true hrun, Bool.and_true, Bool.or_eq_true, decide_eq_true_eq]
    exact hdie
  unfold dvfsStep
  rw [if_pos hguard]

/-! ### The cap -/

/-- A step of the cap's grid, with the throttle level as `n` and the new credit in `s1`. -/
theorem powerCapGrid_eq {n : Nat} {s s1 : State} (hn : s.fld Fld.PWR_STATUS_throttle_level = n)
    (hs1 : s1 = s.modPower fun p => { p with credit := min s.creditMax (s.power.credit + s.creditFill - 10 * s.reserve n) }) :
    powerCapGrid s =
      if !s1.creditFits (s1.reserve n) then s1.setThrottle (s1.raiseTo (15 - n) n)
      else if 0 < n ∧ s1.creditFits (s1.reserve (n - 1)) then s1.setThrottle (n - 1)
      else s1.setThrottle n := by
  unfold powerCapGrid
  simp only [hn, ← hs1]

theorem powerCapAdjust_of_due {d n : Nat} {heaviest : List Nat} {s : State} (hn : s.fld Fld.PWR_STATUS_throttle_level = n) (hpos : n ≠ 0)
    (hdue : s.passedUs s.power.capAt 100 = true)
    (hfind : (heaviest.find? fun d => s.fitted d && decide (s.ownPoint d < 4)) = some d) :
    powerCapAdjust heaviest s = (s.capLower d).setThrottle n := by
  unfold powerCapAdjust
  rw [hn, if_neg (by simp only [hpos, hdue]; decide), hfind]

theorem powerCapRestore_of_due {d : Nat} {rest : List Nat} {s : State} (hsteps : s.power.capSteps = d :: rest)
    (hdue : s.passedUs s.power.capAt 1000 = true) :
    powerCapRestore s =
      if s.reserve (s.fld Fld.PWR_STATUS_throttle_level) * 100 < 95000 * s.fld Fld.PWR_CAP_cap_w then
        ((s.modPower fun p => { p with capSteps := rest, capAt := s.tb }).moveDie d false).setThrottle
          (s.fld Fld.PWR_STATUS_throttle_level)
      else s := by
  unfold powerCapRestore
  rw [hsteps]
  simp only [hdue, true_and]

/-- Settles O43: each operation by the branch of its condition; the damper that a hot sample makes act stays through the dies' power-off. -/
theorem timebaseThermalAndPowerCap : Obligations.TimebaseThermalAndPowerCap := by
  unfold Obligations.TimebaseThermalAndPowerCap
  refine ⟨?edge, ?handback, ?clear, ?sample, ?off, ?dvfs, ?grid, ?adjust, ?restore⟩
  case edge =>
    intro s hmode hdue
    refine ⟨_, exec_rtcEdge s, ?_⟩
    rw [rtcEdge_of_counting hmode hdue]
    refine ⟨?_, rfl, rfl⟩
    rw [b2n]
    simp only [decide_eq_true_eq]
  case handback =>
    intro s hdue
    refine ⟨_, exec_timebaseHandback s, ?_⟩
    rw [timebaseHandback_of_due hdue]
    exact s.handback_shows _ _
  case clear => exact fun s => rfl
  case sample => exact fun temps s => ⟨_, exec_thermalSample temps s, thermalSample_hot temps s⟩
  case off => exact fun t0 s hhot hdamped hdue => congrArg Host.Outcome.next (thermalOffTimeout_of_due hhot hdamped hdue)
  case dvfs => exact fun die lower s hdie hrun => congrArg Host.Outcome.next (dvfsStep_of_running hdie hrun)
  case grid =>
    intro n s s1 hn hs1
    have hexec : exec .powerCapGrid s = .next (powerCapGrid s) := rfl
    rw [hexec, powerCapGrid_eq hn hs1]
    refine ⟨?raised, ?lowered, ?kept⟩
    case raised =>
      intro hshort
      rw [hshort]
      rfl
    case lowered =>
      intro hfits hpos hlower
      simp only [hfits, hpos, hlower, Bool.not_true, Bool.false_eq_true, if_false, and_self, if_true]
    case kept =>
      intro hfits hlast
      have hnot : ¬(0 < n ∧ s1.creditFits (s1.reserve (n - 1)) = true) := by
        rintro ⟨hpos, hlower⟩
        rcases hlast with hzero | hhigh
        · exact Nat.ne_of_gt hpos hzero
        · exact Bool.false_ne_true (hhigh.symm.trans hlower)
      simp only [hfits, Bool.not_true, Bool.false_eq_true, if_false, hnot]
  case adjust => exact fun d n heaviest s hn hpos hdue hfind => congrArg Host.Outcome.next (powerCapAdjust_of_due hn hpos hdue hfind)
  case restore =>
    intro d rest s hsteps hdue
    have hexec : exec .powerCapRestore s = .next (powerCapRestore s) := rfl
    rw [hexec, powerCapRestore_of_due hsteps hdue]
    exact ⟨fun hlow => by rw [if_pos hlow], fun hhigh => by rw [if_neg (Rat.not_lt.mpr hhigh)]⟩

end Sys2Proof.Machine
end

section

/-! ## O44: keys and randomness -/

namespace Sys2Proof.Machine

open Sys2Proof

/-! ### The unwrapped keys -/

theorem exec_keyUnwrapDone (unit client : Nat) (s : State) : exec (.keyUnwrapDone unit client) s = .next (keyUnwrapDone unit client s) := rfl

/-- A key that nothing waits for: after the restoring of the client's entry only the keys change. -/
theorem keyUnwrapDone_of_none_waiting {unit client : Nat} {s : State} (hclient : s.attached client = true) (hwait : s.keys.unwrapWait = []) :
    ∃ kept : NMap Bool, keyUnwrapDone unit client s =
      { s.restoreKeyEntry client with
        keys := { (s.restoreKeyEntry client).keys with cached := mapSet kept (4096 * unit + client) true, unwrapWait := [] } } := by
  unfold keyUnwrapDone
  generalize s.restoreKeyEntry client = t
  simp only [hclient, hwait, List.filter_nil, forEach, if_true]
  exact ⟨_, rfl⟩

theorem State.restoreKeyEntry_of_good {s : State} {client : Nat} (h : s.keyEntryGood client = true) : s.restoreKeyEntry client = s := by
  unfold State.restoreKeyEntry
  rw [if_pos h]

/-! ### The compatibility keys -/

theorem exec_compatKeyLoad (client : Nat) (s : State) : exec (.compatKeyLoad client) s = .next (compatKeyLoad client s) := rfl

theorem exec_compatKeyClear (client : Nat) (s : State) : exec (.compatKeyClear client) s = .next (compatKeyClear client s) := rfl

theorem State.attached_setFld_compat (s : State) (c v : Nat) : (s.setFld Fld.SEC_COMPAT_CTRL_client v).attached c = s.attached c := by
  refine State.flag_setFld_other s v ?_
  have hkey : Reg.SCH_CLIENT_CTRL ≤ clientKey c Reg.SCH_CLIENT_CTRL := Nat.le_add_left _ _
  exact Nat.ne_of_gt (Nat.lt_of_lt_of_le (by decide) hkey)

theorem compatKeyLoad_eq (client : Nat) (s : State) :
    compatKeyLoad client s =
      if !s.attached (client % 4096) then
        ((s.setFld Fld.SEC_COMPAT_CTRL_client (client % 4096)).setFlag Fld.SEC_COMPAT_CTRL_load_error true).modKeys fun k =>
          { k with compatWords := [] }
      else ((s.setFld Fld.SEC_COMPAT_CTRL_client (client % 4096)).modKeys fun k => { k with compatPending := some (client % 4096) }).settleCompat := by
  unfold compatKeyLoad
  simp only [State.attached_setFld_compat]

/-- Settles O44: an unwrapped key by the rule of the cache when nothing waits for it; the keys of the compatibility codec by their map's rules. -/
theorem keysAndRandomness : Obligations.KeysAndRandomness := by
  unfold Obligations.KeysAndRandomness
  refine ⟨?unwrapped, ?reseeded, ?loaded, ?cleared⟩
  case unwrapped =>
    intro unit client s hclient hwait
    obtain ⟨kept, hkept⟩ := keyUnwrapDone_of_none_waiting (unit := unit) hclient hwait
    rw [exec_keyUnwrapDone, hkept]
    refine ⟨_, rfl, mapFind_mapSet_same _ _ _, rfl, fun hgood => ?_⟩
    rw [State.restoreKeyEntry_of_good hgood]
    exact ⟨rfl, rfl⟩
  case reseeded => exact fun s => ⟨_, rfl, rfl, rfl, rfl⟩
  case loaded =>
    intro client s
    rw [exec_compatKeyLoad, compatKeyLoad_eq]
    refine ⟨fun hout => ?_, fun hin => ?_⟩
    · rw [hout]
      rfl
    · rw [hin]
      rfl
  case cleared =>
    intro client other s
    refine ⟨_, exec_compatKeyClear client s, mapFind_mapDel_same _ _, ?_, fun hother => mapFind_mapDel_other _ hother⟩
    have hclient : (s.setFld Fld.SEC_COMPAT_CTRL_client (client % 4096)).fld Fld.SEC_COMPAT_CTRL_client = client % 4096 % 2 ^ 12 :=
      State.fld_setFld_same s _ (by decide)
    exact hclient.trans (Nat.mod_mod _ _)

end Sys2Proof.Machine
end

section

/-! ## O45: ring ports -/

namespace Sys2Proof.Machine

open Sys2Proof

/-! ### Enabling and training -/

theorem exec_hxrEnable (port : Nat) (on : Bool) (s : State) : exec (.hxrEnable port on) s = .next (hxrEnable port on s) := rfl

theorem hxrEnable_on {port : Nat} (s : State) (hport : port < 2) : hxrEnable port true s = s.setFlag (Fld.HXR_CTRL_enable port) true := by
  unfold hxrEnable
  rw [if_neg (Nat.not_le.mpr hport)]
  rfl

theorem hxrEnable_off {port : Nat} (s : State) (hport : port < 2) :
    hxrEnable port false s =
      if s.flag (Fld.HXR_STATUS_link_up port) then
        ((s.setFlag (Fld.HXR_CTRL_enable port) false).portOff port).setFlag (Fld.HXR_STATUS_down_seen port) true
      else (s.setFlag (Fld.HXR_CTRL_enable port) false).portOff port := by
  have hlink : (s.setFlag (Fld.HXR_CTRL_enable port) false).flag (Fld.HXR_STATUS_link_up port) = s.flag (Fld.HXR_STATUS_link_up port) := by
    refine State.flag_setFlag_other s false ?_
    show 0xD0004 + 0x4000 * port ≠ 0xD0000 + 0x4000 * port
    omega
  unfold hxrEnable
  rw [if_neg (Nat.not_le.mpr hport)]
  simp only [hlink, Bool.false_eq_true, if_false]

theorem ringPortTrained_of_untrained {port : Nat} {s : State} (hpower : s.portPowered port = true) (hnew : (s.ringPort port).trained = false) :
    ringPortTrained port s = (s.modRingPort port fun x => { x with trained := true }).sendAgreement port := by
  unfold ringPortTrained
  rw [hpower, hnew]
  rfl

/-! ### Key agreement -/

theorem exec_keyAgreementMsg (port : Nat) (m : KeyMsg) (s : State) : exec (.keyAgreementMsg port m) s = .next (keyAgreementMsg port m s) := rfl

/-- A message of the peer at a port that has trained. -/
theorem keyAgreementMsg_of_trained {port : Nat} (m : KeyMsg) {s : State} (hpower : s.portPowered port = true)
    (htrained : (s.ringPort port).trained = true) :
    keyAgreementMsg port m s =
      if !(m.chainOk && m.signatureOk && decide (m.ringTag = s.fld (Fld.HXR_SEC_CTRL_ring_tag port))) then s.failAgreement port false
      else if !s.peerFits port m then s.failAgreement port true
      else if s.flag (Fld.HXR_SEC_STATUS_secure port) && (s.ringPort port).rekeyAt.isNone then (s.startRekey port).installKeys port
      else s.installKeys port := by
  unfold keyAgreementMsg
  rw [hpower, htrained, if_neg (by decide)]

/-- The keys of a message that passes; where it starts a rekey this end starts its own first. -/
theorem State.installKeys_of_rekey (port : Nat) (s : State) :
    (if s.flag (Fld.HXR_SEC_STATUS_secure port) && (s.ringPort port).rekeyAt.isNone then (s.startRekey port).installKeys port
      else s.installKeys port) =
      (if s.flag (Fld.HXR_SEC_STATUS_secure port) = true ∧ (s.ringPort port).rekeyAt = none then s.startRekey port else s).installKeys port := by
  simp only [Bool.and_eq_true, Option.isNone_iff_eq_none]
  split
  · rfl
  · rfl

theorem keyAgreementRetry_of_due {port t0 : Nat} {s : State} (hfailed : (s.ringPort port).failedAt = some t0)
    (hpower : s.portPowered port = true) (hdue : s.passedUs t0 1000000 = true) :
    keyAgreementRetry port s = (s.modRingPort port fun x => { x with failedAt := some s.tb }).sendAgreement port := by
  unfold keyAgreementRetry
  rw [hfailed]
  simp only [hpower, hdue, Bool.and_self, if_true]

theorem rekeyNow_of_secure {port : Nat} {s : State} (hpower : s.portPowered port = true)
    (hsecure : s.flag (Fld.HXR_SEC_STATUS_secure port) = true) (hnone : (s.ringPort port).rekeyAt = none) :
    rekeyNow port s = s.startRekey port := by
  unfold rekeyNow
  rw [hpower, hsecure, hnone]
  rfl

theorem rekeyTimeout_of_due {port t0 : Nat} {s : State} (hrekey : (s.ringPort port).rekeyAt = some t0)
    (hdue : s.passedUs t0 (1000 * (s.ringPort port).rekeyMs) = true) : rekeyTimeout port s = s.portDown port := by
  unfold rekeyTimeout
  rw [hrekey]
  simp only [hdue, if_true]

/-! ### Frames -/

theorem exec_ringFrame (port : Nat) (f : RingFrame) (s : State) : exec (.ringFrame port f) s = .next (ringFrame port f s) := rfl

section Frames

variable {port : Nat} {f : RingFrame} {s : State}

theorem ringFrame_of_bad {n : Nat} {s0 s1 : State} (hpower : s.portPowered port = true)
    (hsecure : s.flag (Fld.HXR_SEC_STATUS_secure port) = true) (hs0 : s0 = s.ackPort port f.ackCounter) (hbad : (f.fecOk && f.tagOk) = false)
    (hn : n = s0.saf.ringBad.getD port 0 + 1)
    (hs1 : s1 = ((s0.send (.nak (portUnit port) (s.ringPort port).rxNext)).logCorrected (portUnit port) 0).noteBad port n) :
    ringFrame port f s = if 8 ≤ n then s1.portDown port else s1 := by
  unfold ringFrame
  simp only [Bool.not_eq_eq_eq_not, Bool.not_true]
  rw [hpower, hsecure, if_neg (by decide), if_pos (Bool.and_eq_false_iff.mp hbad)]
  simp only [← hs0, ← hn, ← hs1]

theorem ringFrame_of_odd_shape (hpower : s.portPowered port = true) (hsecure : s.flag (Fld.HXR_SEC_STATUS_secure port) = true)
    (hgood : (f.fecOk && f.tagOk) = true)
    (hshape : f.kind ≠ 0 ∨ f.payload.length < 16 ∨ 2048 < f.payload.length ∨ f.payload.length % 16 ≠ 0) :
    ringFrame port f s = s.ackPort port f.ackCounter := by
  obtain ⟨hfec, htag⟩ := Bool.and_eq_true_iff.mp hgood
  unfold ringFrame
  simp only [hpower, hsecure, hfec, htag, Bool.and_self, Bool.not_true, Bool.false_eq_true, or_self, if_false, if_pos hshape]

/-- The expected frame of the running key, with the state after its acknowledgement in `s2`. -/
theorem ringFrame_of_expected {s0 s1 s2 : State} (hpower : s.portPowered port = true)
    (hsecure : s.flag (Fld.HXR_SEC_STATUS_secure port) = true) (hs0 : s0 = s.ackPort port f.ackCounter) (hgood : (f.fecOk && f.tagOk) = true)
    (hshape : ¬(f.kind ≠ 0 ∨ f.payload.length < 16 ∨ 2048 < f.payload.length ∨ f.payload.length % 16 ≠ 0))
    (hold : (s.ringPort port).rxOld = false) (hcounter : f.counter % 2 ^ 32 = (s.ringPort port).rxNext % 2 ^ 32)
    (hphase : f.phase % 2 = (s.ringPort port).rxPhase)
    (hs1 : s1 = ((s0.noteBad port 0).modRingPort port (fun y =>
      { y with rxNext := (s.ringPort port).rxNext + 1, rxPhase := f.phase % 2, rxOld := y.rxOld && true })).rekeyAtCount port
        ((s.ringPort port).rxNext + 1))
    (hs2 : s2 = s1.send (.ack (portUnit port) (s.ringPort port).rxNext [])) :
    ringFrame port f s =
      if f.dstPkg = s.fld Fld.HXR_PKG_pkg_id then s2.takePayload port f.srcPkg (f.payload.length / 16) f.payload
      else if s2.flag (Fld.HXR_STATUS_link_up (1 - port)) then s2.sendFrame (1 - port) ⟨f.srcPkg, f.dstPkg, f.payload⟩
      else s2 := by
  obtain ⟨hfec, htag⟩ := Bool.and_eq_true_iff.mp hgood
  unfold ringFrame
  simp only [hpower, hsecure, hfec, htag, hold, Bool.and_self, Bool.false_and, Bool.not_true, Bool.not_false, Bool.false_eq_true, or_self,
    if_false, if_neg hshape, hcounter, hphase, ne_eq, not_true_eq_false, and_false, ← hs0]
  simp only [← hphase, ← hs1, ← hs2]

/-- A NAK for a frame in the retry buffer. -/
theorem ringFrameNak_of_held {counter n : Nat} {left : List SentFrame} {s1 s2 : State} (hpower : s.portPowered port = true)
    (hheld : ((s.ringPort port).retry.any fun f => decide (f.counter = counter)) = true)
    (hleft : left = framesFrom counter (s.ringPort port).retry)
    (hn : n = (if left.length < (s.ringPort port).retry.length then 1 else (s.ringPort port).resends + 1))
    (hs1 : s1 = (s.modRingPort port fun y => { y with retry := left, resends := n }).addFld (Fld.HXR_STATUS_resends port) left.length)
    (hs2 : s2 = forEach left s1 fun f t => t.send (f.sent port)) :
    ringFrameNak port counter s = if 8 ≤ n then s2.portDown port else s2 := by
  unfold ringFrameNak
  simp only [hpower, hheld, Bool.and_self, Bool.not_true, Bool.false_eq_true, if_false, ← hleft, ← hn, ← hs1, ← hs2]

end Frames

/-- Settles O45: each message of a ring port by the branch of its condition. -/
theorem ringPortsAgreeSendAndReceive : Obligations.RingPortsAgreeSendAndReceive := by
  unfold Obligations.RingPortsAgreeSendAndReceive
  refine ⟨?enable, ?trained, ?message, ?retry, ?rekey, ?timeout, ?bad, ?shape, ?expected, ?nak⟩
  case enable =>
    intro port s hport
    rw [exec_hxrEnable, exec_hxrEnable, hxrEnable_on s hport, hxrEnable_off s hport]
    exact ⟨rfl, fun hdown => by rw [hdown]; rfl, fun hup => by rw [hup]; rfl⟩
  case trained => exact fun port s hpower hnew => congrArg Host.Outcome.next (ringPortTrained_of_untrained hpower hnew)
  case message =>
    intro port m s hpower htrained
    rw [exec_keyAgreementMsg, keyAgreementMsg_of_trained m hpower htrained, State.installKeys_of_rekey]
    refine ⟨fun hbad => ?_, fun hgood hmisfit => ?_, fun hgood hfits => ?_⟩
    · rw [hbad]
      rfl
    · rw [hgood, hmisfit]
      rfl
    · rw [hgood, hfits]
      rfl
  case retry => exact fun port t0 s hfailed hpower hdue => congrArg Host.Outcome.next (keyAgreementRetry_of_due hfailed hpower hdue)
  case rekey => exact fun port s hpower hsecure hnone => congrArg Host.Outcome.next (rekeyNow_of_secure hpower hsecure hnone)
  case timeout => exact fun port t0 s hrekey hdue => congrArg Host.Outcome.next (rekeyTimeout_of_due hrekey hdue)
  case bad =>
    exact fun port n f s0 s1 s hpower hsecure hs0 hbad hn hs1 => congrArg Host.Outcome.next (ringFrame_of_bad hpower hsecure hs0 hbad hn hs1)
  case shape => exact fun port f s hpower hsecure hgood hshape => congrArg Host.Outcome.next (ringFrame_of_odd_shape hpower hsecure hgood hshape)
  case expected =>
    intro port f s0 s1 s2 s hpower hsecure hs0 hgood hkind hmin hmax hmod hold hcounter hphase hs1 hs2
    have hshape : ¬(f.kind ≠ 0 ∨ f.payload.length < 16 ∨ 2048 < f.payload.length ∨ f.payload.length % 16 ≠ 0) := by omega
    rw [exec_ringFrame, ringFrame_of_expected hpower hsecure hs0 hgood hshape hold hcounter hphase hs1 hs2]
    refine ⟨fun hhere => by rw [if_pos hhere], fun haway hup => by rw [if_neg haway, hup]; rfl, fun haway hdown => by rw [if_neg haway, hdown]; rfl⟩
  case nak =>
    exact fun port counter n left s1 s2 s hpower hheld hleft hn hs1 hs2 =>
      congrArg Host.Outcome.next (ringFrameNak_of_held hpower hheld hleft hn hs1 hs2)

end Sys2Proof.Machine
end

section

/-! ## O47: trace packets, the window, the flue and the tensor watch -/

namespace Sys2Proof.Machine

open Sys2Proof

/-! ### What a packet at the hub's buffer leaves alone -/

/-- Of the registers only the window's state and the trigger's time change, and the times of SYNC and sample stand. -/
def State.TraceKept (s t : State) : Prop :=
  (∀ k, k ≠ Reg.DBG_TRACE_STATUS → k ≠ Reg.DBG_TRACE_TRIGTB → t.reg k = s.reg k) ∧ t.trace.syncAt = s.trace.syncAt ∧
    t.trace.sampledAt = s.trace.sampledAt

theorem State.TraceKept.refl (s : State) : s.TraceKept s := ⟨fun _ _ _ => rfl, rfl, rfl⟩

theorem State.TraceKept.trans {s t u : State} (h1 : s.TraceKept t) (h2 : t.TraceKept u) : s.TraceKept u :=
  ⟨fun k hk hk' => (h2.1 k hk hk').trans (h1.1 k hk hk'), h2.2.1.trans h1.2.1, h2.2.2.trans h1.2.2⟩

theorem State.traceKept_setReg (s : State) {k : Nat} (v : Nat) (h : k = Reg.DBG_TRACE_STATUS ∨ k = Reg.DBG_TRACE_TRIGTB) :
    s.TraceKept (s.setReg k v) := by
  refine ⟨fun j hj hj' => State.reg_setReg_other s v ?_, rfl, rfl⟩
  rcases h with rfl | rfl
  · exact hj
  · exact hj'

theorem State.traceKept_setFld (s : State) {f : Fld} (v : Nat) (h : f.key = Reg.DBG_TRACE_STATUS) : s.TraceKept (s.setFld f v) :=
  s.traceKept_setReg _ (.inl h)

theorem State.traceKept_postPacket (s : State) (p : TracePacket) : s.TraceKept (s.postPacket p) := by
  unfold State.postPacket
  extract_lets post trace s1
  have h1 : s.TraceKept s1 := .refl s
  clear_value s1
  split
  · exact h1.trans (s1.traceKept_setFld _ rfl)
  · exact h1

theorem State.traceKept_trigger (s : State) (cause : Nat) : s.TraceKept (s.trigger cause) := by
  unfold State.trigger
  extract_lets s1
  split
  · exact ((s.traceKept_setFld _ rfl).trans (State.traceKept_setReg _ _ (.inr rfl))).trans (State.traceKept_postPacket _ _)
  · exact .refl s

/-- A SYNC packet at an empty buffer with no window draining finds room. -/
theorem State.hubPacket_of_empty {s : State} {p : TracePacket} (hhub : s.trace.hub = []) (hloss : s.trace.loss = [])
    (hstate : s.fld Fld.DBG_TRACE_STATUS_wstate ≠ 3) (hsync : p.ty = 1) : ∃ t : State, s.hubPacket p = (t, true) ∧ s.TraceKept t := by
  have hlt : s.fld Fld.DBG_TRACE_STATUS_wstate < 4 := s.fld_lt Fld.DBG_TRACE_STATUS_wstate
  unfold State.hubPacket
  split
  · have hcases : s.fld Fld.DBG_TRACE_STATUS_wstate = 0 ∨ s.fld Fld.DBG_TRACE_STATUS_wstate = 1 ∨ s.fld Fld.DBG_TRACE_STATUS_wstate = 2 := by
      omega
    rcases hcases with hidle | harmed | htriggered
    · rw [hidle]
      exact ⟨_, rfl, .refl s⟩
    · rw [harmed]
      exact ⟨_, rfl, .refl s⟩
    · rw [htriggered]
      exact ⟨_, rfl, s.traceKept_postPacket p⟩
  · have hnone : s.lossPackets (p.unit / 4096) = [] := by
      unfold State.lossPackets
      rw [hloss]
      rfl
    have hroom : packetsSize (s.trace.hub ++ (s.lossPackets (p.unit / 4096) ++ [p])) ≤ hubTraceBytes := by
      rw [hhub, hnone]
      simp only [packetsSize, List.nil_append, List.map_cons, List.map_nil, List.foldl_cons, List.foldl_nil, TracePacket.size, hsync,
        hubTraceBytes]
      decide
    dsimp only
    rw [if_pos hroom]
    exact ⟨_, rfl, .refl s⟩

theorem State.traceKept_arrive_sync {s : State} {p : TracePacket} (hunit : p.unit / 4096 = hubDie) (hhub : s.trace.hub = [])
    (hloss : s.trace.loss = []) (hstate : s.fld Fld.DBG_TRACE_STATUS_wstate ≠ 3) (hsync : p.ty = 1) : s.TraceKept (s.arrive p) := by
  obtain ⟨t, ht, hkept⟩ := State.hubPacket_of_empty hhub hloss hstate hsync
  unfold State.arrive
  dsimp only
  rw [if_pos hunit, ht]
  dsimp only
  split
  · exact hkept.trans (t.traceKept_trigger _)
  · exact hkept

/-! ### Packets, SYNC and the die's throttle -/

theorem tracePacket_eq (p : TracePacket) (s : State) :
    exec (.tracePacket p) s = .next (if s.traceOn p.ty p.unit p.client then s.arrive { p with stamp := p.stamp % 2 ^ 48 } else s) := rfl

theorem traceSync_eq (s : State) :
    exec .traceSync s = .next (if s.flag Fld.DBG_TRACE_CTRL_enable ∧ s.trace.syncAt + 38400 ≤ s.tb then
      ({ s with trace := { s.trace with syncAt := s.tb } } : State).arrive s.syncPacket else s) := rfl

theorem traceThrottleRelease_eq (die : Nat) (s : State) :
    exec (.traceThrottleRelease die) s = .next (if packetsSize (mapGet s.trace.dieBufs die []) ≤ dieTraceBytes / 2 then
      { s with trace := { s.trace with throttled := mapDel s.trace.throttled die } } else s) := rfl

/-! ### The flue -/

theorem exec_flueFrame (s : State) : exec .flueFrame s = .next (flueFrame s) := rfl

/-- A frame of a window that drains. -/
theorem flueFrame_of_draining {out rest : List TracePacket} {s : State} (hawake : s.awake = true)
    (hon : s.flag Fld.DBG_TRACE_CTRL_enable = true) (hwindow : s.flag Fld.DBG_TRACE_CTRL_window = true)
    (hdrains : s.fld Fld.DBG_TRACE_STATUS_wstate = 3) (hsome : s.trace.hub ++ s.trace.post ≠ [])
    (htaken : takePackets 256 (s.trace.hub ++ s.trace.post) = (out, rest)) :
    flueFrame s =
      let s1 := s.flueSend (flueBytes s.trace.frame (1 + 2 * b2n s.trace.drainFirst) out)
      { s1 with trace := { s1.trace with
          hub := rest.take (s.trace.hub.length - out.length), post := rest.drop (s.trace.hub.length - out.length)
          frame := (s.trace.frame + 1) % 65536, drainFirst := false } } := by
  have hfull : (s.trace.hub ++ s.trace.post).isEmpty = false := List.isEmpty_eq_false_iff.mpr hsome
  unfold flueFrame
  simp only [hawake, hon, hwindow, hdrains, if_true, Bool.not_true, Bool.false_eq_true, if_false, hfull, ne_eq, not_true_eq_false,
    and_false, or_self, htaken, Bool.true_and, Bool.and_false, b2n]

theorem flueFrame_of_nothing {s : State} (hawake : s.awake = true)
    (hnone : s.flag Fld.DBG_TRACE_CTRL_enable = false ∨
      (s.flag Fld.DBG_TRACE_CTRL_window = true ∧ s.fld Fld.DBG_TRACE_STATUS_wstate ≠ 3) ∨
      (s.trace.hub = [] ∧ s.flag Fld.DBG_TRACE_CTRL_window = false)) :
    flueFrame s = s.flueSend idleBlock := by
  unfold flueFrame
  extract_lets window ps
  have hidle : (!s.flag Fld.DBG_TRACE_CTRL_enable) = true ∨ ps.isEmpty = true ∨
      (window = true ∧ s.fld Fld.DBG_TRACE_STATUS_wstate ≠ 3) := by
    rcases hnone with hoff | hother | ⟨hhub, hwindow⟩
    · exact .inl (by rw [hoff]; rfl)
    · exact .inr (.inr hother)
    · refine .inr (.inl ?_)
      unfold ps window
      rw [hhub, hwindow]
      rfl
  rw [if_neg (by rw [hawake]; decide), if_pos hidle]

/-! ### The control register -/

theorem exec_traceEnable (value : W32) (s : State) : exec (.traceEnable value) s = .next (traceEnable value s) := rfl

/-- The control register holds the enable bit of the word written. -/
theorem State.enable_of_written (s : State) (v k : Nat) :
    (s.setReg Reg.DBG_TRACE_CTRL (bits v 0 2 + bits v 4 1 * 16 + k * 32 + 1024 * bits v 10 10)).flag Fld.DBG_TRACE_CTRL_enable = bit v 0 := by
  have hlow : (bits v 0 2 + bits v 4 1 * 16 + k * 32 + 1024 * bits v 10 10) % 2 ^ 64 % 2 = v % 2 := by
    have hbits : bits v 0 2 = v % 4 := rfl
    omega
  have hfld : (s.setReg Reg.DBG_TRACE_CTRL (bits v 0 2 + bits v 4 1 * 16 + k * 32 + 1024 * bits v 10 10)).fld Fld.DBG_TRACE_CTRL_enable = v % 2 := by
    refine Eq.trans ?_ hlow
    exact congrArg (fun r => r % 2) (State.reg_setReg_same s _ _)
  rw [State.flag, hfld, bit, Nat.testBit_zero]
  rcases Nat.mod_two_eq_zero_or_one v with h | h <;> rw [h] <;> rfl

theorem traceEnable_of_throttle_change {value : W32} {s : State} (hon : s.flag Fld.DBG_TRACE_CTRL_enable = true)
    (hchange : bit value.toNat 4 ≠ s.flag Fld.DBG_TRACE_CTRL_throttle) :
    traceEnable value s = s.setFlag Fld.DBG_TRACE_STATUS_expert_write_ignored true := by
  unfold traceEnable
  exact if_pos ⟨hon, hchange⟩

/-- Enabling: the lost count is cleared, and SYNC and samples are timed from now. -/
theorem traceEnable_of_enabling {value : W32} {s : State} (hoff : s.flag Fld.DBG_TRACE_CTRL_enable = false)
    (hbit : bit value.toNat 0 = true) (hstate : s.fld Fld.DBG_TRACE_STATUS_wstate ≠ 3) :
    (traceEnable value s).flag Fld.DBG_TRACE_CTRL_enable = true ∧ (traceEnable value s).fld Fld.DBG_TRACE_LOST_lost = 0 ∧
      (traceEnable value s).trace.syncAt = s.tb ∧ (traceEnable value s).trace.sampledAt = s.tb := by
  unfold traceEnable
  extract_lets v on split1 s1 s2 s3
  have hon : on = false := hoff
  have henable : s2.flag Fld.DBG_TRACE_CTRL_enable = true := by
    refine (State.flag_setFld_other s1 0 (by decide)).trans ?_
    exact (s.enable_of_written v split1).trans hbit
  have hlost : s2.fld Fld.DBG_TRACE_LOST_lost = 0 := State.fld_setFld_same s1 0 (by decide)
  have hwstate : s2.fld Fld.DBG_TRACE_STATUS_wstate ≠ 3 := by
    have hsame : s2.fld Fld.DBG_TRACE_STATUS_wstate = s.fld Fld.DBG_TRACE_STATUS_wstate :=
      (State.fld_setFld_other s1 0 (by decide)).trans (State.fld_congr (State.reg_setReg_other s _ (by decide)))
    rw [hsame]
    exact hstate
  clear_value s2
  rw [if_neg (by rw [hon]; simp), if_pos ⟨hbit, by rw [hon]; rfl⟩]
  have hkept (tr : TraceSt) (hhub : tr.hub = []) (hloss : tr.loss = []) :
      ({ s2 with trace := tr } : State).TraceKept (({ s2 with trace := tr } : State).arrive s2.syncPacket) :=
    State.traceKept_arrive_sync State.syncPacket_hub hhub hloss hwstate rfl
  obtain ⟨hregs, hsync, hsample⟩ :=
    hkept { frame := s.trace.frame, blocks := s.trace.blocks, copying := s.trace.copying, syncAt := s.tb, sampledAt := s.tb } rfl rfl
  exact ⟨(State.flag_congr (hregs _ (by decide) (by decide))).trans henable, (State.fld_congr (hregs _ (by decide) (by decide))).trans hlost,
    hsync, hsample⟩

/-- Disabling: the window is IDLE and the buffers are empty. -/
theorem traceEnable_of_disabling {value : W32} {s : State} (hon : s.flag Fld.DBG_TRACE_CTRL_enable = true)
    (hsame : bit value.toNat 4 = s.flag Fld.DBG_TRACE_CTRL_throttle) (hbit : bit value.toNat 0 = false) :
    (traceEnable value s).flag Fld.DBG_TRACE_CTRL_enable = false ∧ (traceEnable value s).fld Fld.DBG_TRACE_STATUS_wstate = 0 ∧
      (traceEnable value s).trace.hub = [] ∧ (traceEnable value s).trace.post = [] ∧ (traceEnable value s).trace.dieBufs = [] := by
  unfold traceEnable
  extract_lets v on split1 s1 s2 s3
  have henable : s1.flag Fld.DBG_TRACE_CTRL_enable = false := (s.enable_of_written v split1).trans hbit
  have hbit' : bit v 0 = false := hbit
  clear_value s1
  rw [if_neg fun h => h.2 hsame, if_neg (by rw [hbit']; simp), if_pos ⟨by rw [hbit']; rfl, hon⟩]
  exact ⟨(State.flag_setFld_other s1 0 (by decide)).trans henable, State.fld_setFld_same s1 0 (by decide), rfl, rfl, rfl⟩

/-! ### The window -/

theorem exec_traceArm (s : State) : exec .traceArm s = .next (traceArm s) := rfl

theorem traceArm_of_window {s : State} (hon : s.flag Fld.DBG_TRACE_CTRL_enable = true) (hwindow : s.flag Fld.DBG_TRACE_CTRL_window = true) :
    traceArm s = if s.fld Fld.DBG_TRACE_STATUS_wstate = 3 then { s with trace := { s.trace with armLater := true } } else s.arm := by
  unfold traceArm
  rw [if_neg (by rw [hon, hwindow]; decide)]

theorem State.arm_shows (s : State) : s.arm.fld Fld.DBG_TRACE_STATUS_wstate = 1 ∧ s.arm.trace.hub = [] ∧ s.arm.trace.post = [] ∧
    s.arm.trace.armLater = false :=
  ⟨State.fld_setFld_same s 1 (by decide), rfl, rfl, rfl⟩

theorem traceTriggerNow_eq (s : State) :
    exec .traceTriggerNow s = .next (if s.fld Fld.DBG_TRACE_STATUS_wstate = 1 then
      ((s.setFld Fld.DBG_TRACE_STATUS_wstate 2).setReg Reg.DBG_TRACE_TRIGTB s.tb).postPacket
        ⟨0x03, unitTrace, 0xFFF, s.tb % 2 ^ 48, leBytes 4 1⟩ else s) := rfl

theorem exec_traceDrainEnd (s : State) : exec .traceDrainEnd s = .next (traceDrainEnd s) := rfl

theorem traceDrainEnd_of_drained {s : State} (hdrains : s.fld Fld.DBG_TRACE_STATUS_wstate = 3) (hhub : s.trace.hub = [])
    (hpost : s.trace.post = []) :
    traceDrainEnd s = if s.trace.armLater then (s.setFld Fld.DBG_TRACE_STATUS_wstate 0).arm else s.setFld Fld.DBG_TRACE_STATUS_wstate 0 := by
  unfold traceDrainEnd
  rw [if_pos ⟨hdrains, by rw [hhub]; rfl, by rw [hpost]; rfl⟩]
  rfl

/-! ### Tensor watch -/

theorem exec_tensorWatchCopy (n : Nat) (s : State) : exec (.tensorWatchCopy n) s = .next (tensorWatchCopy n s) := rfl

theorem tensorWatchCopy_of_uncommitted {n : Nat} {st : Step} {s : State} (hstep : s.watchStep n = some st)
    (hlate : (s.ring st.ring).committed ≤ st.seq) : tensorWatchCopy n s = s := by
  unfold tensorWatchCopy
  rw [hstep]
  exact if_pos (.inr (.inr (.inr hlate)))

theorem State.steps_sysWrite (s : State) (c a : Nat) (bs : List Byte) : (s.sysWrite c a bs).steps = s.steps := by
  rw [(s.storeOnly_sysWrite c a bs).1]

/-- A watch whose step is committed copies its bytes, and its step waits. -/
theorem tensorWatchCopy_of_committed {n : Nat} {st : Step} {s : State} (hstep : s.watchStep n = some st) (hn : n < 4)
    (hfree : mapFind s.trace.copying n = none) (hfirst : st.watching.head? = some n) (hcommitted : st.seq < (s.ring st.ring).committed) :
    mapFind (tensorWatchCopy n s).trace.copying n = some (st.ring, st.seq) ∧ (tensorWatchCopy n s).steps = s.steps := by
  unfold tensorWatchCopy
  rw [hstep]
  dsimp only
  rw [if_neg (by
    rw [hfree, hfirst]
    simp only [Option.isSome_none, Bool.false_eq_true, ne_eq, not_true_eq_false, false_or, not_or, Nat.not_le]
    exact ⟨hn, hcommitted⟩)]
  split
  · simp only [mapFind_mapSet_same, State.steps_sysWrite, and_self]
  · simp only [mapFind_mapSet_same, and_self]

theorem tensorWatchDone_of_copying {n ring seq : Nat} {s : State} (hcopying : mapFind s.trace.copying n = some (ring, seq)) :
    exec (.tensorWatchDone n) s =
      let s1 := ((s.setFlag (Fld.DBG_WATCH_RING_done n) true).addFld (Fld.DBG_WATCH_CNT_dumps n) 1).modStep ring seq fun x =>
        { x with watching := x.watching.filter fun k => decide (k ≠ n) }
      .next { s1 with trace := { s1.trace with copying := mapDel s1.trace.copying n } } := by
  have hexec : exec (.tensorWatchDone n) s = .next (tensorWatchDone n s) := rfl
  rw [hexec, tensorWatchDone, hcopying]

/-- Settles O47: each operation of the trace unit by its cases; the SYNC packet of enabling finds room in the emptied buffers. -/
theorem traceWindowFlueAndTensorWatch : Obligations.TraceWindowFlueAndTensorWatch := by
  unfold Obligations.TraceWindowFlueAndTensorWatch
  refine ⟨?packet, ?sync, ?release, ?drain, ?idle, ?control, ?arm, ?trigger, ?drained, ?copy, ?copied⟩
  case packet =>
    intro p s
    rw [tracePacket_eq]
    exact ⟨fun hon => by rw [if_pos hon], fun hoff => by rw [hoff]; rfl⟩
  case sync =>
    intro s
    rw [traceSync_eq]
    refine ⟨fun hon hdue => by rw [if_pos ⟨hon, hdue⟩], fun hnot => ?_⟩
    rw [if_neg]
    rintro ⟨hon, hdue⟩
    rcases hnot with hoff | hearly
    · exact Bool.false_ne_true (hoff.symm.trans hon)
    · exact Nat.not_le.mpr hearly hdue
  case release =>
    intro die s
    rw [traceThrottleRelease_eq]
    exact ⟨fun hlow => by rw [if_pos hlow], fun hhigh => by rw [if_neg (Nat.not_le.mpr hhigh)]⟩
  case drain =>
    intro out rest s hawake hon hwindow hdrains hsome htaken
    rw [exec_flueFrame, flueFrame_of_draining hawake hon hwindow hdrains hsome htaken]
    exact ⟨_, rfl, rfl, rfl, rfl, rfl, rfl⟩
  case idle => exact fun s hawake hnone => congrArg Host.Outcome.next (flueFrame_of_nothing hawake hnone)
  case control =>
    intro value s
    exact ⟨fun hon hchange => congrArg Host.Outcome.next (traceEnable_of_throttle_change hon hchange),
      fun hoff hbit hstate => ⟨_, exec_traceEnable value s, traceEnable_of_enabling hoff hbit hstate⟩,
      fun hon hsame hbit => ⟨_, exec_traceEnable value s, traceEnable_of_disabling hon hsame hbit⟩⟩
  case arm =>
    intro s hon hwindow
    rw [exec_traceArm, traceArm_of_window hon hwindow]
    exact ⟨fun hdrains => by rw [if_pos hdrains], fun hother => ⟨_, by rw [if_neg hother], s.arm_shows⟩⟩
  case trigger =>
    intro s
    rw [traceTriggerNow_eq]
    exact ⟨fun harmed => by rw [if_pos harmed], fun hother => by rw [if_neg hother]⟩
  case drained =>
    intro s hdrains hhub hpost
    rw [exec_traceDrainEnd, traceDrainEnd_of_drained hdrains hhub hpost]
    exact ⟨fun hnot => by rw [hnot]; rfl, fun hlater => by rw [if_pos hlater]⟩
  case copy =>
    intro n st s hstep hn hfree hfirst
    exact ⟨fun hlate => congrArg Host.Outcome.next (tensorWatchCopy_of_uncommitted hstep hlate),
      fun hcommitted => ⟨_, exec_tensorWatchCopy n s, tensorWatchCopy_of_committed hstep hn hfree hfirst hcommitted⟩⟩
  case copied =>
    rintro n ring seq s1 s hcopying rfl
    exact tensorWatchDone_of_copying hcopying

end Sys2Proof.Machine
end

section

/-! ## O48: indicator channels -/

namespace Sys2Proof.Machine

open Sys2Proof

/-! ### Writes and ramps -/

theorem exec_indChannelOn (n : Nat) (value : W32) (s : State) : exec (.indChannelOn n value) s = .next (indChannelOn n value s) := rfl

/-- A write of a channel, with the state after its fields in `s1`. -/
theorem indChannelOn_eq {n : Nat} {value : W32} {s s1 : State} (hn : n < nInd)
    (hs1 : s1 = ((((s.setFld (Fld.IND_CH_current_ma n) (min 60 (max 2 (bits value.toNat 0 6)))).setFlag (Fld.IND_CH_on n)
      (bit value.toNat 6 || (decide (n = 0) && s.audMuted))).setFld (Fld.IND_CH_ramp_ms n) (min 20 (max 1 (bits value.toNat 7 5)))).setFlag
        (Fld.IND_CH_open_seen n) (s.flag (Fld.IND_CH_open_seen n) && !bit value.toNat 15)).noteWish n (bit value.toNat 6)) :
    indChannelOn n value s =
      if 240 < s1.indSum then s.setFlag Fld.IND_STATUS_budget_error true
      else if (bit value.toNat 6 || (decide (n = 0) && s.audMuted)) = true ∧ (!s.flag (Fld.IND_CH_on n)) = true then
        (if s1.flag (Fld.IND_CH_short_latched n) then s1 else s1.lightChannel n)
      else if (!(bit value.toNat 6 || (decide (n = 0) && s.audMuted))) = true ∧ s.flag (Fld.IND_CH_on n) = true then s1.darken n
      else s1 := by
  unfold indChannelOn
  rw [if_neg (Nat.not_le.mpr hn)]
  simp only [← hs1]

theorem indRampEnd_of_ramping {n t0 : Nat} {s : State} (hramp : (s.indCh n).rampEnd = some t0) :
    exec (.indRampEnd n) s = .next (if t0 ≤ s.tb then s.modInd n fun k => { k with rampEnd := none } else s) := by
  have hexec : exec (.indRampEnd n) s = .next (indRampEnd n s) := rfl
  rw [hexec, indRampEnd, hramp]

/-! ### Shorts -/

theorem mapFind_map_values {α β : Type} (f : α → β) (m : NMap α) (k : Nat) : mapFind (m.map fun p => (p.1, f p.2)) k = (mapFind m k).map f := by
  induction m with
  | nil => rfl
  | cons p m ih =>
    obtain ⟨j, v⟩ := p
    simp only [List.map_cons, mapFind, ih]
    split
    · rfl
    · rfl

/-- A channel's ramp frozen at `now`, with the time that it had left. -/
def IndCh.freeze (now : Nat) (c : IndCh) : IndCh :=
  match c.rampEnd with
  | some t => { c with rampEnd := none, frozen := some (t - now) }
  | none => c

theorem IndCh.freeze_of_still {c : IndCh} (now : Nat) (h : c.rampEnd = none) : c.freeze now = c := by
  unfold IndCh.freeze
  rw [h]

theorem IndCh.freeze_of_ramping {c : IndCh} {t0 : Nat} (now : Nat) (h : c.rampEnd = some t0) :
    c.freeze now = { c with rampEnd := none, frozen := some (t0 - now) } := by
  unfold IndCh.freeze
  rw [h]

theorem exec_indShortDetect (n : Nat) (s : State) : exec (.indShortDetect n) s = .next (indShortDetect n s) := rfl

/-- A short of a tested channel: its flag, the time of the freeze, and every channel frozen. -/
theorem indShortDetect_of_tested {n : Nat} {s : State} (hn : n < nInd) (htested : (s.indCh n).tested = true)
    (hclamped : s.flag (Fld.IND_CH_clamped n) = false) :
    (indShortDetect n s).flag (Fld.IND_CH_clamped n) = true ∧
      (indShortDetect n s).inds.freezeAt = some (s.inds.freezeAt.getD s.tb) ∧
      (indShortDetect n s).inds.chans =
        (mapPut s.inds.chans n { s.indCh n with clampedAt := some s.tb } {}).map fun p => (p.1, p.2.freeze s.tb) := by
  unfold indShortDetect
  rw [if_neg (by simp only [htested, hclamped, Nat.not_le.mpr hn]; decide)]
  extract_lets s1 inds
  refine ⟨State.flag_setFlag_same s true (f := Fld.IND_CH_clamped n) (show 14 + 1 ≤ 64 by decide) rfl, ?_, ?_⟩
  · have hsame : s1.inds.freezeAt = s.inds.freezeAt := rfl
    dsimp only
    rw [hsame]
    cases s.inds.freezeAt with
    | none => rfl
    | some t => rfl
  · refine List.map_congr_left fun p _ => ?_
    obtain ⟨k, lit, ramp, frozen, clampedAt⟩ := p
    cases ramp with
    | none => rfl
    | some t => rfl

theorem State.indCh_of_frozen {t : State} {m : NMap IndCh} {now : Nat} (h : t.inds.chans = m.map fun p => (p.1, p.2.freeze now)) (k : Nat) :
    t.indCh k = (mapGet m k {}).freeze now := by
  rw [State.indCh, h, mapGet, mapFind_map_values (IndCh.freeze now), mapGet]
  cases mapFind m k with
  | none => rfl
  | some c => rfl

/-- The channel that is shorted notes the time, and every other ramp freezes with the time that it had left. -/
theorem indShortDetect_channels {n : Nat} {s : State} (hn : n < nInd) (htested : (s.indCh n).tested = true)
    (hclamped : s.flag (Fld.IND_CH_clamped n) = false) :
    ((indShortDetect n s).indCh n).clampedAt = some s.tb ∧
      ∀ k t0, k ≠ n → (s.indCh k).rampEnd = some t0 →
        ((indShortDetect n s).indCh k).rampEnd = none ∧ ((indShortDetect n s).indCh k).frozen = some (t0 - s.tb) := by
  obtain ⟨-, -, hchans⟩ := indShortDetect_of_tested hn htested hclamped
  have hstill : ({ s.indCh n with clampedAt := some s.tb } : IndCh).rampEnd = none := by
    simp only [IndCh.tested, Bool.and_eq_true, Option.isNone_iff_eq_none] at htested
    exact htested.1.2
  refine ⟨?_, fun k t0 hk hramp => ?_⟩
  · rw [State.indCh_of_frozen hchans n, mapGet_mapPut_same, IndCh.freeze_of_still s.tb hstill]
  · rw [State.indCh_of_frozen hchans k, mapGet_mapPut_other _ _ _ _ hk, ← State.indCh, IndCh.freeze_of_ramping s.tb hramp]
    exact ⟨rfl, rfl⟩

theorem exec_indShortTimeout (n : Nat) (above : Bool) (s : State) : exec (.indShortTimeout n above) s = .next (indShortTimeout n above s) := rfl

/-- The end of a clamp, or its latching where the pin stays above the limit, with the state after the latch in `s1`. -/
theorem indShortTimeout_of_clamped {n t0 : Nat} {above : Bool} {s s1 : State} (hclamped : (s.indCh n).clampedAt = some t0)
    (hs1 : s1 = ((s.darken n).setFlag (Fld.IND_CH_short_latched n) true).logRecorded unitInd 0) :
    indShortTimeout n above s =
      if !above then s.endClamp n
      else if !s.passedUs t0 16 then s
      else if n = 0 ∧ s1.audMuted then s1.setFlag Fld.IND_STATUS_mute_ind_fault true else s1 := by
  unfold indShortTimeout
  simp only [hclamped, ← hs1]

theorem indFreezeTimeout_of_due {t0 : Nat} {s : State} (hfrozen : s.inds.freezeAt = some t0) (hdue : s.passedUs t0 50 = true) :
    indFreezeTimeout s = s.unfreeze := by
  unfold indFreezeTimeout
  simp only [hfrozen, hdue, if_true]

/-! ### Opens and retries -/

theorem indOpenDetect_of_tested {n : Nat} {s : State} (hn : n < nInd) (htested : (s.indCh n).tested = true) :
    indOpenDetect n s = (s.setFlag (Fld.IND_CH_open_seen n) true).logRecorded unitInd 0 := by
  unfold indOpenDetect
  rw [if_neg (by simp only [htested, Nat.not_le.mpr hn]; decide)]

theorem exec_indRetry (n : Nat) (s : State) : exec (.indRetry n) s = .next (indRetry n s) := rfl

theorem indRetry_of_channel {n : Nat} {s s1 : State} (hn : n < nInd) (hs1 : s1 = s.setFlag (Fld.IND_CH_short_latched n) false) :
    indRetry n s = if s1.flag (Fld.IND_CH_on n) then (s1.darken n).lightChannel n else s1 := by
  unfold indRetry
  rw [if_neg (Nat.not_le.mpr hn)]
  simp only [← hs1]

theorem State.mute_fault_of_lit (s : State) : (s.lightChannel 0).flag Fld.IND_STATUS_mute_ind_fault = false :=
  State.flag_setFlag_same s false (by decide) rfl

/-- Settles O48: each event of a channel by its cases; a freeze acts on every channel of the map alike. -/
theorem indicatorChannels : Obligations.IndicatorChannels := by
  unfold Obligations.IndicatorChannels
  refine ⟨?write, ?ramp, ?short, ?clampEnd, ?freezeEnd, ?open_, ?retry, ?retryMute⟩
  case write =>
    intro n value s s1 hn hs1
    rw [exec_indChannelOn, indChannelOn_eq hn hs1]
    generalize (bit value.toNat 6 || (decide (n = 0) && s.audMuted)) = on
    refine ⟨fun hover => by rw [if_pos hover], fun hfits hon hwas => ?_, fun hfits hon hwas => ?_, fun hfits hsame => ?_⟩
    · rw [if_neg (Nat.not_lt.mpr hfits), hon, hwas]
      rfl
    · rw [if_neg (Nat.not_lt.mpr hfits), hon, hwas]
      rfl
    · rw [if_neg (Nat.not_lt.mpr hfits), ← hsame]
      cases on with
      | false => rfl
      | true => rfl
  case ramp =>
    intro n t0 s hramp
    rw [indRampEnd_of_ramping hramp]
    exact ⟨fun hdue => by rw [if_pos hdue], fun hearly => by rw [if_neg (Nat.not_le.mpr hearly)]⟩
  case short =>
    intro n s hn htested hclamped
    obtain ⟨hflag, hfreeze, -⟩ := indShortDetect_of_tested hn htested hclamped
    obtain ⟨htime, hothers⟩ := indShortDetect_channels hn htested hclamped
    exact ⟨_, exec_indShortDetect n s, hflag, htime, hfreeze, hothers, indShortDetect_frame n s⟩
  case clampEnd =>
    intro n t0 above s s1 hclamped hs1
    rw [exec_indShortTimeout, indShortTimeout_of_clamped hclamped hs1]
    refine ⟨?_, ?_, ?_⟩
    · rintro rfl
      rfl
    · rintro rfl hearly
      rw [hearly]
      rfl
    · rintro rfl hdue
      rw [hdue]
      rfl
  case freezeEnd => exact fun t0 s hfrozen hdue => congrArg Host.Outcome.next (indFreezeTimeout_of_due hfrozen hdue)
  case open_ => exact fun n s hn htested => congrArg Host.Outcome.next (indOpenDetect_of_tested hn htested)
  case retry => exact fun n s s1 hn hs1 => congrArg Host.Outcome.next (indRetry_of_channel hn hs1)
  case retryMute =>
    intro s
    refine ⟨_, exec_indRetry 0 s, fun hon => ?_⟩
    rw [indRetry_of_channel (by decide) rfl, if_pos hon]
    exact State.mute_fault_of_lit _

end Sys2Proof.Machine
end

section

/-! ## O49: the serial pins and the boundary scan -/

namespace Sys2Proof.Machine

open Sys2Proof

/-! ### I3C -/

theorem exec_i3cTransfer (n : Nat) (value : W32) (s : State) : exec (.i3cTransfer n value) s = .next (i3cTransfer n value s) := rfl

/-- A go on an enabled controller; of the registers only the command's changes. -/
theorem i3cTransfer_of_enabled {n : Nat} {value : W32} {s : State} (hn : n < 4) (hgo : bit value.toNat 16 = true)
    (hfree : s.flag (Fld.IND_I3C_CMD_busy n) = false) (hon : s.flag (Fld.IND_I3C_CTRL_enable n) = true) :
    ∃ s1 : State, s1 = { s with regs := s1.regs } ∧ i3cTransfer n value s =
      (s1.setFlag (Fld.IND_I3C_CMD_busy n) true).send (.port "i3c" (leBytes n 1 ++ leBytes (bits value.toNat 0 16) 2 ++
        (if bit value.toNat 0 then [] else
          ((natRange 0 16).flatMap fun w => leBytes (s.reg (Reg.IND_I3C_DATA n w)) 4).take (min 64 (bits value.toNat 8 7))))) := by
  unfold i3cTransfer
  rw [if_neg (by simp only [hgo, hfree, Nat.not_le.mpr hn]; decide)]
  extract_lets s1 len data
  have hs1 : s1 = { s with regs := s1.regs } :=
    State.regs_frame_trans (State.regs_frame_trans (State.setReg_frame _ _ _) (State.setFlag_frame _ _ _)) (State.setFlag_frame _ _ _)
  clear_value s1
  refine ⟨s1, hs1, ?_⟩
  exact if_pos ⟨hgo, hon⟩

theorem exec_i3cTransferDone (n : Nat) (nack : Bool) (data : List Byte) (s : State) :
    exec (.i3cTransferDone n nack data) s = .next (i3cTransferDone n nack data s) := rfl

/-- The bytes of a read put into the data registers of controller `n`. -/
def i3cStore (n : Nat) (got : List Byte) (s : State) : State :=
  forEach (natRange 0 16) s fun w t =>
    t.setReg (Reg.IND_I3C_DATA n w) (setBits (t.reg (Reg.IND_I3C_DATA n w)) 0 (8 * ((got.drop (4 * w)).take 4).length)
      (leNat ((got.drop (4 * w)).take 4)))

theorem i3cTransferDone_of_busy {n : Nat} {nack : Bool} {data : List Byte} {s : State} (hn : n < 4) (hawake : s.awake = true)
    (hbusy : s.flag (Fld.IND_I3C_CMD_busy n) = true) :
    i3cTransferDone n nack data s =
      if nack then (s.setFlag (Fld.IND_I3C_CMD_busy n) false).setFlag (Fld.IND_I3C_CMD_nack n) true
      else if s.flag (Fld.IND_I3C_CMD_read n) then
        i3cStore n (data.take (min 64 (s.fld (Fld.IND_I3C_CMD_len n)))) (s.setFlag (Fld.IND_I3C_CMD_busy n) false)
      else s.setFlag (Fld.IND_I3C_CMD_busy n) false := by
  unfold i3cTransferDone
  rw [if_neg (by simp only [hawake, hbusy, Nat.not_le.mpr hn]; decide)]
  rfl

theorem State.reg_i3cStore (s : State) (n : Nat) (got : List Byte) : (i3cStore n got s).reg (Reg.IND_I3C_CMD n) = s.reg (Reg.IND_I3C_CMD n) := by
  unfold i3cStore
  generalize natRange 0 16 = ws
  induction ws generalizing s with
  | nil => rfl
  | cons w ws ih =>
    refine (ih _).trans (State.reg_setReg_other s _ ?_)
    simp only [Reg.IND_I3C_CMD, Reg.IND_I3C_DATA]
    omega

theorem State.busy_cleared (s : State) (n : Nat) : (s.setFlag (Fld.IND_I3C_CMD_busy n) false).flag (Fld.IND_I3C_CMD_busy n) = false :=
  State.flag_setFlag_same s false (f := Fld.IND_I3C_CMD_busy n) (show 17 + 1 ≤ 64 by decide) rfl

theorem State.read_of_busy_cleared (s : State) (n : Nat) :
    (s.setFlag (Fld.IND_I3C_CMD_busy n) false).flag (Fld.IND_I3C_CMD_read n) = s.flag (Fld.IND_I3C_CMD_read n) :=
  State.flag_setFlag_apart s false (f := Fld.IND_I3C_CMD_busy n) (g := Fld.IND_I3C_CMD_read n) rfl (show 17 + 1 ≤ 64 by decide)
    (show 0 + 1 ≤ 64 by decide) (.inl (show 0 + 1 ≤ 17 by decide))

/-- The end of an acknowledged transfer. -/
theorem i3cTransferDone_busy_cleared {n : Nat} {data : List Byte} {s : State} (hn : n < 4) (hawake : s.awake = true)
    (hbusy : s.flag (Fld.IND_I3C_CMD_busy n) = true) : (i3cTransferDone n false data s).flag (Fld.IND_I3C_CMD_busy n) = false := by
  rw [i3cTransferDone_of_busy hn hawake hbusy, if_neg Bool.false_ne_true]
  split
  · exact (State.flag_congr (f := Fld.IND_I3C_CMD_busy n) (State.reg_i3cStore _ n _)).trans (s.busy_cleared n)
  · exact s.busy_cleared n

theorem i3cIbi_of_enabled {n addr : Nat} {s : State} (hn : n < 4) (hawake : s.awake = true) (hon : s.flag (Fld.IND_I3C_CTRL_enable n) = true) :
    i3cIbi n addr s = (s.setFlag (Fld.IND_I3C_CMD_ibi_seen n) true).setFld (Fld.IND_I3C_CMD_ibi_addr n) addr := by
  unfold i3cIbi
  rw [if_neg (by simp only [hawake, hon, Nat.not_le.mpr hn]; decide)]

/-! ### GPIO -/

theorem exec_gpioEdge (i : Nat) (level : Bool) (s : State) : exec (.gpioEdge i level) s = .next (gpioEdge i level s) := rfl

theorem gpioEdge_of_change {i : Nat} {level : Bool} {s : State} (hi : i < 24) (hawake : s.awake = true)
    (hchange : s.flag (Fld.IND_GPIO_in i) ≠ level) :
    gpioEdge i level s = (s.setFlag (Fld.IND_GPIO_in i) level).setFlag (Fld.IND_GPIO_edge_seen i) true := by
  unfold gpioEdge
  rw [if_neg (by simp only [hawake, Nat.not_le.mpr hi, hchange]; decide)]

theorem gpioEdge_of_still {i : Nat} {level : Bool} {s : State} (hstill : s.awake = false ∨ s.flag (Fld.IND_GPIO_in i) = level) :
    gpioEdge i level s = s := by
  unfold gpioEdge
  refine if_pos (.inr ?_)
  rcases hstill with hasleep | hlevel
  · exact .inl (by rw [hasleep]; rfl)
  · exact .inr hlevel

theorem State.outputState_gpio (s : State) (i : Nat) :
    s.outputState (.gpio i) = if s.powerColumn = 0 ∨ (s.powerColumn ≤ 2 ∧ i < 4) then s.gpioState i else .floats := rfl

/-! ### The TAP -/

theorem exec_idcode (s : State) : exec .idcode s = .next (idcode s) := rfl

theorem exec_samplePreload (shiftIn pins : List Bool) (s : State) : exec (.samplePreload shiftIn pins) s = .next (samplePreload shiftIn pins s) := rfl

theorem exec_extest (s : State) : exec .extest s = .next (s.pinInstruction jtagExtest true) := rfl
theorem exec_extestPulse (s : State) : exec .extestPulse s = .next (s.pinInstruction jtagExtestPulse true) := rfl
theorem exec_extestTrain (s : State) : exec .extestTrain s = .next (s.pinInstruction jtagExtestTrain true) := rfl
theorem exec_clamp (s : State) : exec .clamp s = .next (s.pinInstruction jtagClamp true) := rfl
theorem exec_highz (s : State) : exec .highz s = .next (s.pinInstruction jtagHighz false) := rfl

theorem State.pinInstruction_of_stopped {s : State} (code : Nat) (drives : Bool) (hruns : s.tapRuns = true)
    (hstate : s.fld Fld.SAF_STATUS_state = safSafe ∨ s.fld Fld.SAF_STATUS_state = safFailed) :
    s.pinInstruction code drives = if drives then (s.loadTap code).send (.port "pins" (levels s.tap.boundary)) else s.loadTap code := by
  unfold State.pinInstruction
  rw [hruns, if_neg (by decide), if_pos hstate]

theorem State.pinInstruction_of_serving {s : State} (code : Nat) (drives : Bool) (hruns : s.tapRuns = true)
    (hsafe : s.fld Fld.SAF_STATUS_state ≠ safSafe) (hfailed : s.fld Fld.SAF_STATUS_state ≠ safFailed) :
    s.pinInstruction code drives = s.loadTap jtagBypass := by
  unfold State.pinInstruction
  rw [hruns, if_neg (by decide), if_neg (not_or_intro hsafe hfailed)]

theorem exec_bypass (code : Nat) (s : State) : exec (.bypass code) s = .next (bypass code s) := rfl

theorem bypass_of_running {code : Nat} {s : State} (hruns : s.tapRuns = true) :
    bypass code s = if !(decide (1 ≤ code % 256) && decide (code % 256 ≤ 7)) then s.loadTap jtagBypass else s := by
  unfold bypass
  simp only [hruns, true_and]

/-- Settles O49: each command of the low-speed pins and of the TAP by its cases. -/
theorem serialPinsAndBoundaryScan : Obligations.SerialPinsAndBoundaryScan := by
  unfold Obligations.SerialPinsAndBoundaryScan
  refine ⟨?go, ?done, ?ibi, ?edge, ?outputs, ?shifts, ?pins, ?bypass⟩
  case go =>
    intro n value s hn hgo
    refine ⟨fun hbusy => ?_, fun hfree hon => ?_⟩
    · rw [exec_i3cTransfer, i3cTransfer, if_pos (.inr ⟨hgo, hbusy⟩)]
    · obtain ⟨s1, hs1, hsent⟩ := i3cTransfer_of_enabled hn hgo hfree hon
      rw [exec_i3cTransfer, hsent]
      refine ⟨_, rfl, State.flag_setFlag_same s1 true (f := Fld.IND_I3C_CMD_busy n) (show 17 + 1 ≤ 64 by decide) rfl, ?_, ?_⟩
      · rw [hs1]
        rfl
      · rw [hs1]
        rfl
  case done =>
    intro n nack data s hn hawake hbusy
    rw [exec_i3cTransferDone]
    refine ⟨?_, ?_, ?_⟩
    · rintro rfl
      rw [i3cTransferDone_of_busy hn hawake hbusy]
      rfl
    · rintro rfl hwrite
      rw [State.read_of_busy_cleared] at hwrite
      rw [i3cTransferDone_of_busy hn hawake hbusy, hwrite]
      rfl
    · rintro rfl
      exact ⟨_, rfl, i3cTransferDone_busy_cleared hn hawake hbusy, i3cTransferDone_frame n false data s⟩
  case ibi => exact fun n addr s hn hawake hon => congrArg Host.Outcome.next (i3cIbi_of_enabled hn hawake hon)
  case edge =>
    intro i level s hi
    rw [exec_gpioEdge]
    exact ⟨fun hawake hchange => by rw [gpioEdge_of_change hi hawake hchange], fun hstill => by rw [gpioEdge_of_still hstill]⟩
  case outputs =>
    intro i s _
    rw [State.outputState_gpio]
    refine ⟨fun hhigh hcol => if_neg ?_, fun hlow hcol => if_pos (.inr ⟨hcol, hlow⟩), fun hcol => if_pos (.inl hcol)⟩
    rintro (hzero | ⟨-, hlow⟩)
    · exact hcol hzero
    · exact Nat.not_lt.mpr hhigh hlow
  case shifts =>
    intro shiftIn pins s hruns
    rw [exec_idcode, exec_samplePreload, idcode, samplePreload, if_pos hruns, if_pos hruns]
    exact ⟨rfl, rfl⟩
  case pins =>
    intro s hruns
    rw [exec_extest, exec_extestPulse, exec_extestTrain, exec_clamp, exec_highz]
    refine ⟨fun hstopped => ?_, fun hsafe hfailed => ?_⟩
    · simp only [State.pinInstruction_of_stopped _ _ hruns hstopped, if_true, Bool.false_eq_true, if_false, and_self]
    · simp only [State.pinInstruction_of_serving _ _ hruns hsafe hfailed, and_self]
  case bypass =>
    intro code s hruns
    rw [exec_bypass, bypass_of_running hruns]
    refine ⟨fun hother => ?_, fun hmin hmax => ?_⟩
    · rw [if_pos]
      simp only [Bool.not_eq_true', Bool.and_eq_false_iff, decide_eq_false_iff_not]
      omega
    · rw [decide_eq_true hmin, decide_eq_true hmax]
      rfl

end Sys2Proof.Machine
end

section

/-! ## O50: camera ports and packets -/

namespace Sys2Proof.Machine

open Sys2Proof

/-! ### Ports -/

theorem exec_camPortEnable (port : Nat) (value : W32) (s : State) : exec (.camPortEnable port value) s = .next (camPortEnable port value s) := rfl

theorem camPortEnable_of_settle_change {port : Nat} {value : W32} {s : State} (hport : port < 4)
    (hon : s.flag (Fld.CAM_PORT_CTRL_enable port) = true) (hsettle : bits value.toNat 4 8 ≠ s.fld (Fld.CAM_PORT_CTRL_settle port)) :
    camPortEnable port value s = s.setFlag Fld.CAM_STATUS_expert_write_ignored true := by
  unfold camPortEnable
  rw [if_neg (Nat.not_le.mpr hport)]
  exact if_pos ⟨hon, hsettle⟩

theorem camPortEnable_of_write {port : Nat} {value : W32} {s : State} (hport : port < 4)
    (hsame : s.flag (Fld.CAM_PORT_CTRL_enable port) = false ∨ bits value.toNat 4 8 = s.fld (Fld.CAM_PORT_CTRL_settle port)) :
    camPortEnable port value s =
      if bit value.toNat 0 = true ∧ s.flag (Fld.CAM_PORT_CTRL_enable port) = false then
        (s.setReg (Reg.CAM_PORT_CTRL port) (value.toNat % 4096)).refreshTable port
      else s.setReg (Reg.CAM_PORT_CTRL port) (value.toNat % 4096) := by
  have hnot : ¬(s.flag (Fld.CAM_PORT_CTRL_enable port) = true ∧ bits value.toNat 4 8 ≠ s.fld (Fld.CAM_PORT_CTRL_settle port)) := by
    rintro ⟨hon, hsettle⟩
    rcases hsame with hoff | hsame
    · exact Bool.false_ne_true (hoff.symm.trans hon)
    · exact hsettle hsame
  unfold camPortEnable
  rw [if_neg (Nat.not_le.mpr hport)]
  dsimp only
  rw [if_neg hnot]
  simp only [Bool.not_eq_true']

theorem routeTableRefresh_eq (port : Nat) (s : State) :
    exec (.routeTableRefresh port) s =
      .next (if s.portOn port && s.passedUs (s.camPort port).packetAt 100 then s.refreshTable port else s) := rfl

/-! ### Frame starts and ends -/

theorem exec_frameStartPacket (port vc frameNo : Nat) (err : PacketError) (s : State) :
    exec (.frameStartPacket port vc frameNo err) s = .next (frameStartPacket port vc frameNo err s) := rfl

theorem exec_frameEndPacket (port vc : Nat) (err : PacketError) (s : State) :
    exec (.frameEndPacket port vc err) s = .next (frameEndPacket port vc err s) := rfl

/-- A port that is on notes the time of a packet. -/
def State.notePacket (s : State) (port : Nat) : State := s.modPort port fun x => { x with packetAt := s.tb }

/-- What a frame start that is not lost does behind its header. -/
def State.startFrames (s : State) (port vc frameNo : Nat) : State :=
  forEach (((s.refreshTable port).camPort port).layersOf port vc) (s.refreshTable port) fun x t => t.frameStart x.1 x.2 frameNo

/-- What a frame end that is not lost does behind its header. -/
def State.endFrames (s : State) (port vc : Nat) : State :=
  forEach ((s.camPort port).layersOf port vc) s fun x t => t.frameEnd x.1 x.2

section Starts

variable {port vc : Nat} {s : State}

theorem frameStartPacket_good (frameNo : Nat) (hon : (s.watchFrame port (vc % 16)).portOn port = true) :
    frameStartPacket port vc frameNo .none s = ((s.watchFrame port (vc % 16)).notePacket port).startFrames port (vc % 16) frameNo := by
  unfold frameStartPacket
  rw [if_neg (show ¬lostPacket .none = true by decide)]
  dsimp only
  rw [hon]
  rfl

theorem frameStartPacket_corrected (frameNo : Nat) (hon : (s.watchFrame port (vc % 16)).portOn port = true) :
    frameStartPacket port vc frameNo .eccCorrected s =
      ((((s.watchFrame port (vc % 16)).notePacket port).eccPacket port).startFrames port (vc % 16) frameNo).flagStream port (vc % 16) flEcc := by
  unfold frameStartPacket
  rw [if_neg (show ¬lostPacket .eccCorrected = true by decide)]
  dsimp only
  rw [hon]
  rfl

theorem frameStartPacket_lost (frameNo : Nat) (hon : s.portOn port = true) :
    frameStartPacket port vc frameNo .headerLost s =
      (s.notePacket port).losePacket port (vc % 16) (Fld.CAM_PORT_STATUS_header_lost port) := by
  unfold frameStartPacket
  rw [if_pos (show lostPacket .headerLost = true from rfl)]
  dsimp only
  rw [hon]
  rfl

theorem frameEndPacket_good (hon : s.portOn port = true) :
    frameEndPacket port vc .none s = (s.notePacket port).endFrames port (vc % 16) := by
  unfold frameEndPacket
  rw [hon]
  rfl

theorem frameEndPacket_corrected (hon : s.portOn port = true) :
    frameEndPacket port vc .eccCorrected s =
      (((s.notePacket port).eccPacket port).flagStream port (vc % 16) flEcc).endFrames port (vc % 16) := by
  unfold frameEndPacket
  rw [hon]
  rfl

end Starts

/-! ### Long packets -/

theorem exec_longPacket (port vc dt : Nat) (payload : List Byte) (err : PacketError) (s : State) :
    exec (.longPacket port vc dt payload err) s = .next (longPacket port vc dt payload err s) := rfl

/-- The status bit of a packet that is lost with its header. -/
def lostStatus (port : Nat) : PacketError → Fld
  | .sot => Fld.CAM_PORT_STATUS_sot_error port
  | .sync => Fld.CAM_PORT_STATUS_sync_error port
  | _ => Fld.CAM_PORT_STATUS_header_lost port

section LongPackets

variable {port vc dt : Nat} {payload : List Byte} {err : PacketError} {s : State}

theorem longPacket_lost (hlost : lostPacket err = true) (hon : s.portOn port = true) :
    longPacket port vc dt payload err s = (s.notePacket port).losePacket port (vc % 16) (lostStatus port err) := by
  unfold longPacket
  rw [if_pos hlost]
  dsimp only
  rw [hon, if_neg (by decide)]
  cases err with
  | headerLost => rfl
  | sot => rfl
  | sync => rfl
  | none => exact absurd hlost Bool.false_ne_true
  | eccCorrected => exact absurd hlost Bool.false_ne_true
  | crc => exact absurd hlost Bool.false_ne_true
  | overflow => exact absurd hlost Bool.false_ne_true

theorem longPacket_unknown (hdt : knownDt dt = false) (hon : (s.watchLine port (vc % 16) dt payload).portOn port = true) :
    longPacket port vc dt payload .none s =
      (((((s.watchLine port (vc % 16) dt payload).notePacket port).discardPacket port).setFlag (Fld.CAM_PORT_STATUS_unknown_dt port)
        true).logRecorded unitImage 0) := by
  unfold longPacket
  rw [if_neg (show ¬lostPacket .none = true by decide)]
  dsimp only
  rw [hon, if_neg (by decide), hdt, if_pos (by decide)]
  rfl

/-- What a port notes of a packet of a known type that can be used. -/
def State.noteCondition (s : State) (port : Nat) : PacketError → State
  | .eccCorrected => s.eccPacket port
  | .crc => ((s.setFlag (Fld.CAM_PORT_STATUS_crc_error port) true).addFld (Fld.CAM_PORT_CNT_crc_errors port) 1).logRecorded unitImage 0
  | .overflow => (s.setFlag (Fld.CAM_PORT_STATUS_overflow port) true).logRecorded unitImage 0
  | _ => s

theorem longPacket_known (hused : ¬lostPacket err = true) (hdt : knownDt dt = true)
    (hon : (s.watchLine port (vc % 16) dt payload).portOn port = true) :
    longPacket port vc dt payload err s =
      (((s.watchLine port (vc % 16) dt payload).notePacket port).noteCondition port err).routePacket port (vc % 16) dt payload err := by
  unfold longPacket
  rw [if_neg hused]
  dsimp only
  rw [hon, if_neg (by decide), hdt]
  cases err with
  | none => rfl
  | eccCorrected => rfl
  | crc => rfl
  | overflow => rfl
  | headerLost => exact absurd rfl hused
  | sot => exact absurd rfl hused
  | sync => exact absurd rfl hused

end LongPackets

/-! ### Short packets -/

theorem exec_shortPacket (port vc dt : Nat) (err : PacketError) (s : State) :
    exec (.shortPacket port vc dt err) s = .next (shortPacket port vc dt err s) := rfl

section ShortPackets

variable {port vc dt : Nat} {s : State}

theorem shortPacket_good (hon : s.portOn port = true) (hvc : vc < 16) (hdt : 2 ≤ dt) :
    shortPacket port vc dt .none s =
      if dt = 0x02 ∨ dt = 0x03 then s.notePacket port
      else if 0x08 ≤ dt ∧ dt ≤ 0x0F then (s.notePacket port).discardPacket port
      else (((s.notePacket port).discardPacket port).setFlag (Fld.CAM_PORT_STATUS_unknown_dt port) true).logRecorded unitImage 0 := by
  have hguard : ¬((!s.portOn port) = true ∨ dt ≤ 0x01 ∨ 16 ≤ vc) := by
    rw [hon, Bool.not_true]
    simp only [Bool.false_eq_true, false_or]
    omega
  unfold shortPacket
  rw [if_neg hguard]
  rfl

theorem shortPacket_lost (hon : s.portOn port = true) (hvc : vc < 16) (hdt : 2 ≤ dt) :
    shortPacket port vc dt .headerLost s = (s.notePacket port).losePacket port vc (Fld.CAM_PORT_STATUS_header_lost port) := by
  have hguard : ¬((!s.portOn port) = true ∨ dt ≤ 0x01 ∨ 16 ≤ vc) := by
    rw [hon, Bool.not_true]
    simp only [Bool.false_eq_true, false_or]
    omega
  unfold shortPacket
  rw [if_neg hguard]
  rfl

end ShortPackets

/-! ### A port that is off -/

section Off

variable {port vc : Nat} {s : State}

theorem State.watchFrame_of_unwatched (hunwatched : s.watched port vc = false) : s.watchFrame port vc = s := by
  unfold State.watchFrame
  rw [hunwatched, if_neg Bool.false_ne_true]

theorem State.watchLine_of_unwatched (dt : Nat) (payload : List Byte) (hunwatched : s.watched port vc = false) :
    s.watchLine port vc dt payload = s := by
  unfold State.watchLine
  rw [hunwatched, Bool.false_and, if_neg Bool.false_ne_true]

theorem frameStartPacket_of_off (frameNo : Nat) (err : PacketError) (hoff : s.portOn port = false)
    (hunwatched : s.watched port (vc % 16) = false) : frameStartPacket port vc frameNo err s = s := by
  unfold frameStartPacket
  simp only [State.watchFrame_of_unwatched hunwatched, ite_self, hoff, Bool.not_false, if_true]

theorem longPacket_of_off (dt : Nat) (payload : List Byte) (err : PacketError) (hoff : s.portOn port = false)
    (hunwatched : s.watched port (vc % 16) = false) : longPacket port vc dt payload err s = s := by
  unfold longPacket
  simp only [State.watchLine_of_unwatched dt payload hunwatched, ite_self, hoff, Bool.not_false, if_true]

end Off

/-- Settles O50: each packet by its condition, behind the note of its time; a port that is off takes the first branch of every command. -/
theorem cameraPortsAndPackets : Obligations.CameraPortsAndPackets := by
  unfold Obligations.CameraPortsAndPackets
  refine ⟨?enable, ?starts, ?ends, ?long, ?short, ?refresh, ?off⟩
  case enable =>
    intro port value s hport
    rw [exec_camPortEnable]
    exact ⟨fun hon hsettle => by rw [camPortEnable_of_settle_change hport hon hsettle],
      fun hsame => by rw [camPortEnable_of_write hport hsame]⟩
  case starts =>
    rintro port vc frameNo s s0 s1 s2 rfl rfl rfl hon hwatched
    rw [exec_frameStartPacket, exec_frameStartPacket, exec_frameStartPacket, frameStartPacket_good frameNo hwatched,
      frameStartPacket_corrected frameNo hwatched, frameStartPacket_lost frameNo hon]
    exact ⟨rfl, rfl, rfl⟩
  case ends =>
    rintro port vc s s1 s2 hon rfl rfl
    rw [exec_frameEndPacket, exec_frameEndPacket, frameEndPacket_good hon, frameEndPacket_corrected hon]
    exact ⟨rfl, rfl⟩
  case long =>
    rintro port vc dt payload s s0 s1 hon hwatched rfl rfl
    simp only [exec_longPacket]
    refine ⟨?_, ?_, ?_, fun hdt => ?_, fun hdt => ?_, fun hdt => ?_, fun hdt => ?_, fun hdt => ?_⟩
    · exact congrArg Host.Outcome.next (longPacket_lost rfl hon)
    · exact congrArg Host.Outcome.next (longPacket_lost rfl hon)
    · exact congrArg Host.Outcome.next (longPacket_lost rfl hon)
    · exact congrArg Host.Outcome.next (longPacket_unknown hdt hwatched)
    · exact congrArg Host.Outcome.next (longPacket_known (by decide) hdt hwatched)
    · exact congrArg Host.Outcome.next (longPacket_known (by decide) hdt hwatched)
    · exact congrArg Host.Outcome.next (longPacket_known (by decide) hdt hwatched)
    · exact congrArg Host.Outcome.next (longPacket_known (by decide) hdt hwatched)
  case short =>
    rintro port vc dt s s1 hon hvc hdt rfl
    rw [exec_shortPacket, exec_shortPacket, shortPacket_good hon hvc hdt, shortPacket_lost hon hvc hdt]
    refine ⟨fun hline => ?_, fun hmin hmax => ?_, fun hmin hmax => ?_, rfl⟩
    · rw [if_pos (by omega)]
      rfl
    · rw [if_neg (by omega), if_pos ⟨hmin, hmax⟩]
      rfl
    · rw [if_neg (by omega), if_neg (by omega)]
      rfl
  case refresh =>
    intro port s hon hdue
    rw [routeTableRefresh_eq, hon, hdue]
    rfl
  case off =>
    intro port vc dt frameNo payload err s hoff hunwatched
    have hend : frameEndPacket port vc err s = s := by
      unfold frameEndPacket
      rw [hoff, if_pos (by decide)]
    have hshort : shortPacket port vc dt err s = s := by
      unfold shortPacket
      rw [hoff, if_pos (.inl (by decide))]
    rw [exec_frameStartPacket, exec_frameEndPacket, exec_longPacket, exec_shortPacket, routeTableRefresh_eq, hoff, Bool.false_and,
      frameStartPacket_of_off frameNo err hoff hunwatched, longPacket_of_off dt payload err hoff hunwatched, hend, hshort]
    exact ⟨rfl, rfl, rfl, rfl, rfl⟩

end Sys2Proof.Machine
end

section

/-! ## O51: capture channels and lanes -/

namespace Sys2Proof.Machine

open Sys2Proof

/-! ### Channels on and off -/

theorem exec_camChannelEnable (channel : Nat) (value : W32) (s : State) :
    exec (.camChannelEnable channel value) s = .next (camChannelEnable channel value s) := rfl

theorem exec_camChannelDisable (channel : Nat) (value : W32) (s : State) :
    exec (.camChannelDisable channel value) s = .next (camChannelDisable channel value s) := rfl

section Writes

variable {channel : Nat} {value : W32} {s : State}

/-- A write of enable 1 to a channel that is off, with the fields stored in `s1`. -/
theorem camChannelEnable_of_off {s1 : State} (hchannel : channel < 16) (hbit : bit value.toNat 0 = true)
    (hoff : s.flag (Fld.CAM_CH_CTRL_enable channel) = false)
    (hs1 : s1 = s.setReg (Reg.CAM_CH_CTRL channel) (value.toNat % 0x400000 - 1)) :
    camChannelEnable channel value s =
      if s1.camCheck channel ≠ 0 then s1.setFld (Fld.CAM_CH_STATUS_cfg_error channel) (s1.camCheck channel)
      else (((s1.setFlag (Fld.CAM_CH_CTRL_enable channel) true).setFld (Fld.CAM_CH_DROPS_drops channel) 0).modChan channel
        fun _ => {}).breakResleep := by
  have hlow : bit (value.toNat % 0x400000) 0 = true := (Nat.testBit_mod_two_pow value.toNat 22 0).trans hbit
  unfold camChannelEnable
  dsimp only
  rw [if_neg (by rw [hlow]; simp only [Nat.not_le.mpr hchannel]; decide), if_neg (by rw [hoff]; decide), ← hs1]

theorem camChannelEnable_of_on (hchannel : channel < 16) (hbit : bit value.toNat 0 = true)
    (hon : s.flag (Fld.CAM_CH_CTRL_enable channel) = true) (hchange : value.toNat % 0x400000 ≠ s.reg (Reg.CAM_CH_CTRL channel)) :
    camChannelEnable channel value s = s.setFlag (Fld.CAM_CH_STATUS_write_ignored channel) true := by
  have hlow : bit (value.toNat % 0x400000) 0 = true := (Nat.testBit_mod_two_pow value.toNat 22 0).trans hbit
  unfold camChannelEnable
  dsimp only
  rw [if_neg (by rw [hlow]; simp only [Nat.not_le.mpr hchannel]; decide), if_pos hon, if_neg hchange]

/-- A write of enable 0. -/
theorem camChannelDisable_eq (hchannel : channel < 16) (hbit : bit value.toNat 0 = false) :
    camChannelDisable channel value s =
      if s.flag (Fld.CAM_CH_CTRL_enable channel) then
        (if value.toNat % 0x400000 + 1 = s.reg (Reg.CAM_CH_CTRL channel) then s
          else s.setFlag (Fld.CAM_CH_STATUS_write_ignored channel) true).stopChannel channel
      else s.setReg (Reg.CAM_CH_CTRL channel) (value.toNat % 0x400000) := by
  have hlow : bit (value.toNat % 0x400000) 0 = false := (Nat.testBit_mod_two_pow value.toNat 22 0).trans hbit
  unfold camChannelDisable
  dsimp only
  rw [if_neg (by rw [hlow]; simp only [Nat.not_le.mpr hchannel]; decide)]

end Writes

theorem State.stopChannel_frame (s : State) (c : Nat) :
    s.stopChannel c = { s with regs := (s.stopChannel c).regs, cams := (s.stopChannel c).cams } := rfl

theorem State.stopChannel_off (s : State) (c : Nat) : (s.stopChannel c).flag (Fld.CAM_CH_CTRL_enable c) = false :=
  State.flag_setFlag_same s false (f := Fld.CAM_CH_CTRL_enable c) (show 0 + 1 ≤ 64 by decide) rfl

theorem State.stopChannel_chan (s : State) (c : Nat) : (s.stopChannel c).chan c = {} :=
  mapGet_mapPut_same s.cams.chans c {} {}

theorem State.stopChannel_lanes (s : State) (c : Nat) : ∀ x ∈ (s.stopChannel c).cams.lanes, x.2.1 ≠ c :=
  fun _ hx => of_decide_eq_true (List.mem_filter.mp hx).2

/-! ### Frames and their records -/

theorem frameTimeout_of_due {channel : Nat} {f : CamFrame} {s : State} (hopen : (s.chan channel).open_ = some f)
    (hon : s.camOn channel = true) (hdue : s.passedUs f.tStart (s.fld (Fld.CAM_CH_TIMING_fe_timeout_us channel)) = true) :
    frameTimeout channel s = s.closeFrame channel := by
  unfold frameTimeout
  simp only [hopen, hon, hdue, Bool.and_self, if_true]

theorem exec_frameRecordWrite (channel : Nat) (s : State) : exec (.frameRecordWrite channel) s = .next (frameRecordWrite channel s) := rfl

/-- The record of the oldest finished frame in `s1`, and the state with the frame forgotten and its flags shown in `s2`. -/
theorem frameRecordWrite_of_ready {channel : Nat} {f : CamFrame} {rest : List CamFrame} {s s1 s2 : State}
    (hready : (s.chan channel).ready = f :: rest) (hon : s.camOn channel = true) (hmem : (s.chan channel).memError = false)
    (hs1 : s1 = s.devWrite (s.camClient channel) (s.fld (Fld.CAM_CH_REC_BASE_rec_base channel) +
        32 * (f.no % max 1 (s.fld (Fld.CAM_CH_BUF_CFG_buf_count channel))))
        (leBytes f.no 8 ++ leBytes f.tStart 8 ++ leBytes f.tClose 8 ++ leBytes f.csi 2 ++ leBytes (f.layersByte (s.camLayers channel)) 1 ++
          leBytes (s.chan channel).dropped 1 ++ leBytes f.flags 4))
    (hs2 : s2 = if f.flags = 0 then s1.modChan channel (fun y => { y with ready := rest, dropped := 0, memError := false })
      else (s1.modChan channel (fun y => { y with ready := rest, dropped := 0, memError := false })).setFlag
        (Fld.CAM_CH_STATUS_frame_flagged channel) true) :
    frameRecordWrite channel s =
      if s.fld (Fld.CAM_CH_CTRL_irq_mode channel) = 1 ∨ (s.fld (Fld.CAM_CH_CTRL_irq_mode channel) = 2 ∧ f.flags ≠ 0) then
        s2.msix (s2.ownerFn (s.camClient channel)) (s2.fld (Fld.CAM_CH_OWNER_msix_vector channel))
      else s2 := by
  have hflags : (if f.flags ≠ 0 then
      (s1.modChan channel (fun y => { y with ready := rest, dropped := 0, memError := false })).setFlag
        (Fld.CAM_CH_STATUS_frame_flagged channel) true
      else s1.modChan channel (fun y => { y with ready := rest, dropped := 0, memError := false })) = s2 := by
    rw [hs2, ite_not]
  unfold frameRecordWrite
  simp only [hready, hon, hmem, Bool.not_true, Bool.false_eq_true, if_false, ← hs1, hflags]

/-! ### The memory-to-memory lanes -/

theorem exec_m2mLaneStart (lane : Nat) (s : State) : exec (.m2mLaneStart lane) s = .next (m2mLaneStart lane s) := rfl

/-- A free lane takes the queued frame `f` of channel `k`. -/
theorem m2mLaneStart_of_queued {lane k : Nat} {f : CamFrame} {s : State} (hlane : lane < 2) (hfree : mapFind s.cams.lanes lane = none)
    (hdamped : s.saf.damped = false)
    (hfirst : (leastBy (fun (x : Nat × CamFrame) => x.2.tClose) ((natRange 0 16).flatMap fun i =>
      if s.camOn i then (s.chan i).queue.map (fun g => (i, g)) else []) = some (k, f))) {s2 : State} {no : Option Nat}
    (htaken : (s.modChan k fun x => { x with queue := x.queue.drop 1 }).takeBuffer k = (s2, no)) :
    m2mLaneStart lane s =
      match no with
      | none => s2
      | some b => { s2.rawReads k f with cams := { (s2.rawReads k f).cams with
          lanes := mapSet (s2.rawReads k f).cams.lanes lane (k, { f with no := b, back := s2.rawLines k f }) } } := by
  unfold m2mLaneStart
  rw [if_neg (by rw [hfree, hdamped, decide_eq_false (Nat.not_le.mpr hlane)]; decide)]
  simp only [hfirst, htaken]
  cases no with
  | none => rfl
  | some b => rfl

theorem m2mLaneDone_of_busy {lane k : Nat} {f : CamFrame} {s s1 : State} (hbusy : mapFind s.cams.lanes lane = some (k, f))
    (hdamped : s.saf.damped = false) (hs1 : s1 = { s with cams := { s.cams with lanes := mapDel s.cams.lanes lane } }) :
    m2mLaneDone lane s = (s1.writeFrame k f).1.modChan k fun x => { x with ready := x.ready ++ [(s1.writeFrame k f).2] } := by
  unfold m2mLaneDone
  simp only [hbusy, hdamped, Bool.false_eq_true, if_false, ← hs1]

/-- Settles O51: each command of a channel or a lane by its cases. -/
theorem captureChannelsAndLanes : Obligations.CaptureChannelsAndLanes := by
  unfold Obligations.CaptureChannelsAndLanes
  refine ⟨?enable, ?ignored, ?disable, ?stopped, ?timeout, ?record, ?start, ?done⟩
  case enable =>
    intro channel value s s1 hchannel hbit hoff hs1
    rw [exec_camChannelEnable, camChannelEnable_of_off hchannel hbit hoff hs1]
    exact ⟨fun hbad => by rw [if_pos hbad], fun hgood => by rw [if_neg (fun hne => hne hgood)]⟩
  case ignored =>
    exact fun channel value s hchannel hbit hon hchange => congrArg Host.Outcome.next (camChannelEnable_of_on hchannel hbit hon hchange)
  case disable =>
    intro channel value s hchannel hbit
    rw [exec_camChannelDisable, camChannelDisable_eq hchannel hbit]
    exact ⟨fun hon hsame => by rw [if_pos hon, if_pos hsame], fun hon hchange => by rw [if_pos hon, if_neg hchange],
      fun hoff => by rw [hoff, if_neg Bool.false_ne_true]⟩
  case stopped =>
    exact fun channel s => ⟨_, rfl, s.stopChannel_off channel, s.stopChannel_chan channel, s.stopChannel_lanes channel, s.stopChannel_frame channel⟩
  case timeout => exact fun channel f s hopen hon hdue => congrArg Host.Outcome.next (frameTimeout_of_due hopen hon hdue)
  case record =>
    intro channel f rest s s1 s2 hready hon hmem hs1 hs2
    rw [exec_frameRecordWrite, frameRecordWrite_of_ready hready hon hmem hs1 hs2]
    exact ⟨fun hirq => by rw [if_pos hirq], fun hnone => by
      rw [hnone, if_neg]
      rintro (h | ⟨h, -⟩)
      · exact absurd h (by decide)
      · exact absurd h (by decide)⟩
  case start =>
    intro lane k f s hlane hfree hdamped hfirst
    obtain ⟨⟨s2, no⟩, htaken⟩ := exists_eq' (a' := (s.modChan k fun x => { x with queue := x.queue.drop 1 }).takeBuffer k)
    rw [exec_m2mLaneStart, m2mLaneStart_of_queued hlane hfree hdamped hfirst htaken]
    refine ⟨_, s2, no, rfl, htaken.symm, ?_, ?_⟩
    · rintro rfl
      rfl
    · rintro b rfl
      rfl
  case done => exact fun lane k f s s1 hbusy hdamped hs1 => congrArg Host.Outcome.next (m2mLaneDone_of_busy hbusy hdamped hs1)

end Sys2Proof.Machine
end

section

/-! ## O53: detection and confirmation -/

namespace Sys2Proof.Machine

open Sys2Proof

/-! ### Tinder -/

theorem exec_tinderHop (ended : Bool) (s : State) : exec (.tinderHop ended) s = .next (tinderHop ended s) := rfl

/-- A hop with an image loaded, with the state after its features in `s0`. -/
theorem tinderHop_of_hop {ended : Bool} {img : List Byte} {s s0 : State} (hlistening : s.listening = true)
    (hon : s.flag Fld.WAK_CTRL_tinder_enable = true) (himg : s.wake.tinder = some img) (hdamped : s.saf.damped = false)
    (hindex : s.audio.index % 480 = 0) (hstarted : s.audio.index ≠ 0) (hnew : s.wake.lastHop ≠ s.audio.index)
    (hs0 : s0 = s.modWake fun w => { w with lastHop := s.audio.index, feats := (s.hopFeatures s.audio.index :: w.feats).take 100 }) :
    tinderHop ended s =
      if !ended then (s0.addFld Fld.WAK_CNT4_overrun 1).modWake fun w => { w with held := [] }
      else
        match s0.runWake img 0 (featureInput s0.wake.feats) with
        | (t, some _) => ((s0.afterImage t false).modWake fun w => { w with tinder := some (imageAfter t img) }).modWake fun w => { w with held := [] }
        | (t, none) => ((s0.afterImage t false).modWake fun w => { w with tinder := some (imageAfter t img) }).keywords (imageValues t img 0 9) := by
  have hguard : (!s.listening || !s.flag Fld.WAK_CTRL_tinder_enable || s.saf.damped || decide (s.audio.index % 480 ≠ 0) ||
      decide (s.audio.index = 0) || decide (s.wake.lastHop = s.audio.index)) = false := by
    rw [hlistening, hon, hdamped, hindex, decide_eq_false hstarted, decide_eq_false hnew]
    rfl
  unfold tinderHop
  simp only [hguard, Bool.false_eq_true, if_false, ← hs0, himg]
  generalize s0.runWake img 0 (featureInput s0.wake.feats) = run
  obtain ⟨t, _ | code⟩ := run
  · rfl
  · rfl

/-- The holds of the eight keywords after a hop with these logits (R388). -/
def State.holds (s : State) (logits : List W32) : List Nat :=
  (natRange 0 8).map fun k => if s.flag (Fld.WAK_KW_kw_enable k) = true ∧
    atLeast (logits.getD (k + 1) 0) (thresh (s.fld (Fld.WAK_KW_kw_thresh k))) = true then s.wake.held.getD k 0 + 1 else 0

theorem State.keywords_eq (s : State) (logits : List W32) :
    s.keywords logits =
      match (natRange 0 8).find? fun k => decide (max 1 (s.fld (Fld.WAK_KW_kw_hold k)) ≤ (s.holds logits).getD k 0) &&
        (!s.flag Fld.WAK_CTRL_vad_gate || atLeast (logits.getD 0 0) (thresh (s.fld Fld.WAK_VAD_vad_thresh))) with
      | some k => (s.modWake fun w => { w with held := s.holds logits }).detected k (s.audio.index - 1)
      | none => s.modWake fun w => { w with held := s.holds logits } := rfl

/-- What the logits of a hop can do: count the holds, and detect one keyword that is held long enough with a voice. -/
theorem State.keywords_cases (s : State) (logits : List W32) :
    s.keywords logits = (s.modWake fun w => { w with held := s.holds logits }) ∨
      ∃ k, k < 8 ∧ s.keywords logits = (s.modWake fun w => { w with held := s.holds logits }).detected k (s.audio.index - 1) ∧
        max 1 (s.fld (Fld.WAK_KW_kw_hold k)) ≤ (s.holds logits).getD k 0 ∧
        (s.flag Fld.WAK_CTRL_vad_gate = true → atLeast (logits.getD 0 0) (thresh (s.fld Fld.WAK_VAD_vad_thresh)) = true) := by
  rw [State.keywords_eq]
  generalize hfind : List.find? _ (natRange 0 8) = found
  cases found with
  | none => exact .inl rfl
  | some k =>
    have hboth := List.find?_some hfind
    obtain ⟨hheld, hvoice⟩ := Bool.and_eq_true_iff.mp hboth
    have hk : k < 8 := by
      have hmem := mem_natRange.mp (List.mem_of_find?_eq_some hfind)
      omega
    refine .inr ⟨k, hk, rfl, of_decide_eq_true hheld, fun hgate => ?_⟩
    rw [hgate] at hvoice
    exact hvoice

/-! ### Presence -/

theorem exec_presenceFrame (s : State) : exec .presenceFrame s = .next (presenceFrame s) := rfl

section Presence

variable {s : State}

theorem presenceFrame_of_first (hlistening : s.listening = true) (hpresence : s.flag Fld.WAK_CTRL_presence_enable = true)
    (hon : s.flag Fld.WAK_CTRL_tinder_enable = true) (hdamped : s.saf.damped = false) (hfirst : s.wake.zones = none) :
    presenceFrame s = s.modWake fun w => { w with zones := some (zoneMeans s.wake.presLines), presLines := [] } := by
  unfold presenceFrame
  simp only [hlistening, hpresence, hon, hdamped, Bool.not_true, Bool.or_self, Bool.false_eq_true, if_false, hfirst]

/-- A later frame; `n` is how many in a row have then changed. -/
theorem presenceFrame_of_later {zones old : List Rat} {moved n : Nat} (hlistening : s.listening = true)
    (hpresence : s.flag Fld.WAK_CTRL_presence_enable = true) (hon : s.flag Fld.WAK_CTRL_tinder_enable = true)
    (hdamped : s.saf.damped = false) (hold : s.wake.zones = some old) (hzones : zones = zoneMeans s.wake.presLines)
    (hmoved : moved = ((natRange 0 48).filter fun z => decide (old.getD z 0 + (s.fld Fld.WAK_PRES_pres_delta : Rat) < zones.getD z 0) ||
      decide (zones.getD z 0 + (s.fld Fld.WAK_PRES_pres_delta : Rat) < old.getD z 0)).length)
    (hn : n = if max 1 (s.fld Fld.WAK_PRES_pres_zones) ≤ moved then s.wake.changed + 1 else 0) :
    presenceFrame s =
      let s1 := (s.modWake fun w => { w with zones := some zones, presLines := [] }).modWake fun w => { w with changed := n }
      if 3 ≤ n then s1.detected 8 s1.liveIndex else s1 := by
  unfold presenceFrame
  simp only [hlistening, hpresence, hon, hdamped, Bool.not_true, Bool.or_self, Bool.false_eq_true, if_false, hold, ← hzones, ← hmoved, ← hn]

end Presence

/-! ### Kindling -/

theorem exec_kindlingStart (s : State) : exec .kindlingStart s = .next (kindlingStart s) := rfl

/-- Kindling starts from the state `s1`, in which no client's run is on its engine. -/
theorem kindlingStart_of_ready {s s1 : State} (hstage : s.stage = 1) (hidle : s.wake.running = false) (hfresh : s.wake.resting = false)
    (hruns : s.running = true) (himg : s.wake.kindling.isSome = true)
    (hs1 : s1 = match s.runOn? hubDie 0x010 with | some r => s.preempt r | none => s) :
    kindlingStart s = ({ s1 with kindlingHeld := true } : State).modWake fun w => { w with
      running := true, encSlots := 0
      now := { w.now with start := max (s.wake.now.detect - imageField s.wake.kindling 12 4) s.historyLow
                          encStart := (max (s.wake.now.detect - imageField s.wake.kindling 12 4) s.historyLow + 479) / 480 * 480 } } := by
  have hguard : (decide (s.stage ≠ 1) || s.wake.running || s.wake.resting || !s.running || s.wake.kindling.isNone) = false := by
    rw [hidle, hfresh, hruns, decide_eq_false (fun hne => hne hstage), ← Option.not_isSome, himg]
    rfl
  rw [hs1]
  unfold kindlingStart
  rw [hguard, if_neg Bool.false_ne_true] <;> rfl

theorem exec_confirmDecision (s : State) : exec .confirmDecision s = .next (confirmDecision s) := rfl

section Confirmation

variable {img : List Byte} {s : State}

/-- The samples of the confirmation are there: its guard is passed. -/
theorem State.confirmation_ready (hstage : s.stage = 1) (hruns : s.wake.running = true) (hdamped : s.saf.damped = false)
    (hthere : imageLast img 0 s.kindlingFrom < s.audio.index) :
    ¬(s.stage ≠ 1 ∨ (!s.wake.running) = true ∨ s.saf.damped = true ∨ s.audio.index ≤ imageLast img 0 s.kindlingFrom) := by
  rw [hruns, hdamped]
  rintro (h | h | h | h)
  · exact h hstage
  · exact absurd h Bool.false_ne_true
  · exact absurd h Bool.false_ne_true
  · exact Nat.not_le.mpr hthere h

theorem confirmDecision_of_declined {s1 t1 : State} {ok : Bool} {logit : W32} (himg : s.wake.kindling = some img) (hstage : s.stage = 1)
    (hruns : s.wake.running = true) (hdamped : s.saf.damped = false) (hthere : imageLast img 0 s.kindlingFrom < s.audio.index)
    (hrun : s.runKindling img 0 s.kindlingFrom = (s1, t1, ok)) (hlogit : logit = (imageValues t1 img 0 1).getD 0 0)
    (hlow : ok = false ∨ atLeast logit (num32 (imageField (some img) 64 4)) = false) :
    confirmDecision s = (s1.setStage 0).addFld Fld.WAK_CNT2_false_kindling 1 := by
  have hnot : ¬(ok = true ∧ atLeast logit (num32 (imageField (some img) 64 4)) = true) := by
    rintro ⟨hok, hhigh⟩
    rcases hlow with h | h
    · exact Bool.false_ne_true (h.symm.trans hok)
    · exact Bool.false_ne_true (h.symm.trans hhigh)
  unfold confirmDecision
  rw [himg]
  dsimp only
  rw [if_neg (State.confirmation_ready hstage hruns hdamped hthere), hrun]
  simp only [← hlogit, hnot, if_false]

theorem confirmDecision_of_confirmed {img1 : List Byte} {s1 t1 s2 t2 s3 : State} {ok2 : Bool} {logit similarity : W32} {nearest : Nat}
    (himg : s.wake.kindling = some img) (hstage : s.stage = 1) (hruns : s.wake.running = true) (hdamped : s.saf.damped = false)
    (hthere : imageLast img 0 s.kindlingFrom < s.audio.index) (hrun : s.runKindling img 0 s.kindlingFrom = (s1, t1, true))
    (hlogit : logit = (imageValues t1 img 0 1).getD 0 0) (hhigh : atLeast logit (num32 (imageField (some img) 64 4)) = true)
    (himg1 : img1 = imageAfter t1 img) (hrun2 : s1.runKindling img1 1 s.kindlingFrom = (s2, t2, ok2))
    (hnearest : nearestSpeaker (some img1) (imageValues t2 img1 1 256) = (nearest, similarity))
    (hs3 : s3 = s2.modWake fun w => { w with
      now := { w.now with
        confirm := logit, sim := similarity
        speaker := if atLeast similarity (num32 (imageField (some img1) 68 4)) && decide (nearest < imageField (some img1) 72 1) then nearest
          else 0xFF }
      last := { w.now with
        confirm := logit, sim := similarity
        speaker := if atLeast similarity (num32 (imageField (some img1) 68 4)) && decide (nearest < imageField (some img1) 72 1) then nearest
          else 0xFF }
      running := false }) :
    confirmDecision s = ((s3.setStage 2).addFld Fld.WAK_CNT1_esc_kindling 1).wakeRecord 1 := by
  unfold confirmDecision
  rw [himg]
  dsimp only
  rw [if_neg (State.confirmation_ready hstage hruns hdamped hthere), hrun]
  simp only [← hlogit, hhigh, and_self, if_true, ← himg1, hrun2, hnearest, ← hs3]

theorem exec_kindlingEncoderHop (s : State) : exec .kindlingEncoderHop s = .next (kindlingEncoderHop s) := rfl

theorem kindlingEncoderHop_of_due {first : Nat} {s1 t : State} {ok : Bool} (himg : s.wake.kindling = some img) (hstage : s.stage = 1)
    (hholds : s.wake.running = true ∨ s.wake.resting = true) (hdamped : s.saf.damped = false)
    (hfirst : first = s.wake.now.encStart + 480 * s.wake.encSlots) (hthere : first + 480 ≤ s.audio.index)
    (hrun : s.runKindling img 2 first = (s1, t, ok)) :
    kindlingEncoderHop s = (s1.devWrite s.wakeClient
      (s.fld Fld.WAK_ENC_BASE_enc_base + s.wake.encSlots % max 1 (s.fld Fld.WAK_CAP_CFG_enc_count) * s.encPitch)
      (leBytes first 8 ++ imageOutput t img 2 (imageField s.wake.kindling 74 2))).modWake fun w => { w with encSlots := s.wake.encSlots + 1 } := by
  have hguard : ¬(s.stage ≠ 1 ∨ (!(s.wake.running || s.wake.resting)) = true ∨ s.saf.damped = true ∨ s.audio.index < first + 480) := by
    rw [Bool.or_eq_true_iff.mpr hholds, hdamped]
    rintro (h | h | h | h)
    · exact h hstage
    · exact absurd h Bool.false_ne_true
    · exact absurd h Bool.false_ne_true
    · exact Nat.not_lt.mpr hthere h
  unfold kindlingEncoderHop
  simp only [himg, ← hfirst, hguard, if_false, hrun]

end Confirmation

/-! ### The time limits -/

theorem confirmTimeout_of_due {s : State} (hstage : s.stage = 1) (hdue : s.passedUs s.wake.since (1000 * s.fld Fld.WAK_CTRL_confirm_ms) = true) :
    exec .confirmTimeout s =
      .next (if s.wake.resting then s.setStage 0 else (s.setStage 0).addFld Fld.WAK_CNT2_false_kindling 1) := by
  have hexec : exec .confirmTimeout s = .next (confirmTimeout s) := rfl
  rw [hexec, confirmTimeout, if_neg]
  rw [hdue]
  rintro (h | h)
  · exact h hstage
  · exact absurd h Bool.false_ne_true

theorem replyTimeout_of_due {s : State} (hstage : s.stage = 2) (hdue : s.passedUs s.wake.since (1000 * s.fld Fld.WAK_CTRL_reply_ms) = true) :
    exec .replyTimeout s =
      .next ((((s.modWake fun w => { w with resting := true }).setStage 1).addFld Fld.WAK_CNT4_timeout_blaze 1).wakeRecord 4) := by
  have hexec : exec .replyTimeout s = .next (replyTimeout s) := rfl
  rw [hexec, replyTimeout, if_neg]
  rw [hdue]
  rintro (h | h)
  · exact h hstage
  · exact absurd h Bool.false_ne_true

/-- Settles O53: each event of the wake chain before Blaze by its cases, the runs of an image's programs taken as they end. -/
theorem detectionAndConfirmation : Obligations.DetectionAndConfirmation := by
  unfold Obligations.DetectionAndConfirmation
  refine ⟨?hop, ?keywords, ?first, ?later, ?start, ?declined, ?confirmed, ?encoder, ?confirmLimit, ?replyLimit⟩
  case hop =>
    intro img s s0 hlistening hon himg hdamped hindex hstarted hnew hs0
    have hhop (ended : Bool) := tinderHop_of_hop (ended := ended) hlistening hon himg hdamped hindex hstarted hnew hs0
    rw [exec_tinderHop, exec_tinderHop, hhop, hhop]
    refine ⟨rfl, fun t code hrun => ?_, fun t hrun => ?_⟩
    · rw [hrun]
      rfl
    · rw [hrun]
      rfl
  case keywords =>
    rintro logits s t rfl
    exact s.keywords_cases logits
  case first =>
    exact fun s hlistening hpresence hon hdamped hfirst =>
      congrArg Host.Outcome.next (presenceFrame_of_first hlistening hpresence hon hdamped hfirst)
  case later =>
    intro zones old moved n s hlistening hpresence hon hdamped hold hzones hmoved hn
    rw [exec_presenceFrame, presenceFrame_of_later hlistening hpresence hon hdamped hold hzones hmoved hn]
    exact ⟨fun hfew => by rw [if_neg (Nat.not_le.mpr hfew)], fun hmany => by rw [if_pos hmany]⟩
  case start =>
    intro s s1 hstage hidle hfresh hruns himg hs1
    rw [exec_kindlingStart, kindlingStart_of_ready hstage hidle hfresh hruns himg hs1]
  case declined =>
    intro img s s1 t1 ok logit himg hstage hruns hdamped hthere hrun hlogit hlow
    rw [exec_confirmDecision, confirmDecision_of_declined himg hstage hruns hdamped hthere hrun hlogit hlow]
  case confirmed =>
    intro img img1 s s1 t1 s2 t2 s3 ok2 logit similarity nearest himg hstage hruns hdamped hthere hrun hlogit hhigh himg1 hrun2 hnearest hs3
    rw [exec_confirmDecision,
      confirmDecision_of_confirmed himg hstage hruns hdamped hthere hrun hlogit hhigh himg1 hrun2 hnearest hs3]
  case encoder =>
    intro img first s s1 t ok himg hstage hholds hdamped hfirst hthere hrun
    rw [exec_kindlingEncoderHop, kindlingEncoderHop_of_due himg hstage hholds hdamped hfirst hthere hrun]
  case confirmLimit =>
    intro s hstage hdue
    rw [confirmTimeout_of_due hstage hdue]
    exact ⟨fun hrests => by rw [if_pos hrests], fun hfresh => by rw [hfresh, if_neg Bool.false_ne_true]⟩
  case replyLimit => exact fun s hstage hdue => replyTimeout_of_due hstage hdue

end Sys2Proof.Machine
end
